-- ==== Sys2Proof/Word.lean ====
section
/-! DEFINITION. The word types of the model and the sparse maps its registers and memories are held in
(00_scope.md R8: little-endian everywhere, bit 0 least significant). -/

namespace Sys2Proof

/-- One byte. -/
abbrev Byte := BitVec 8

/-- A 16-bit word. -/
abbrev Half := BitVec 16

/-- A 32-bit word. -/
abbrev Word := BitVec 32

/-- A 64-bit word. -/
abbrev Dword := BitVec 64

/-- A sparse table: the listed keys hold the listed values, every other key its default. -/
abbrev SMap (α : Type) := List (Nat × α)

/-- A sparse byte memory in canonical form: addresses strictly rising, no listed byte equal to 0. -/
abbrev Mem := List (Nat × Byte)

end Sys2Proof
end

