-- ==== Sys2Proof/Syntax.lean ====
section
/-! DEFINITION. The commands of the block: one constructor per row of spec/opcode_table.json, and the
operand types the messages and stage results carry. -/

namespace Sys2Proof

/-- One sensor reading of a sample (11_heat_path.md R295), in 1/16 °C; `none` is a sensor that gives no reading. -/
structure SensorReading where
  tower : Fin 16
  layer : Fin 10
  site : Fin 72
  a : Option Int
  b : Option Int
  deriving DecidableEq, Repr

/-- How a poll of the tray sensor bus ended (17_module_electrical.md R482, R483): with the reply's eight bytes, without a
reply, or by losing arbitration. -/
inductive TrayReply where
  | bytes (b : List (BitVec 8))
  | silent
  | lost
  deriving DecidableEq, Repr

/-- The header of a received Silman flit (12_silman_and_seam.md Table 12-4). `check` says whether FL_CHECK held:
the GCM tag in KEYED, the CRC in UP_CLEAR (R331, R337). -/
structure FlitHdr where
  vc : Fin 4
  hops : BitVec 6
  keyPhase : Bool
  src : BitVec 12
  dst : BitVec 12
  seq : BitVec 32
  ack : BitVec 16
  credVc : Fin 4
  credits : BitVec 8
  check : Bool
  deriving DecidableEq, Repr

/-- Credits returned on VC0 to VC3 by an FC flit (R335). -/
structure Credits where
  vc0 : BitVec 8
  vc1 : BitVec 8
  vc2 : BitVec 8
  vc3 : BitVec 8
  deriving DecidableEq, Repr

/-- The payload of a BEACON flit (R347). -/
structure BeaconMsg where
  root : BitVec 16
  hops : BitVec 8
  seq : BitVec 32
  originNs : BitVec 64
  corr : BitVec 64
  rootErr : BitVec 32
  /-- Rack-time residence at this node in ns, timestamped at the ports (R347). -/
  residenceNs : Nat
  deriving DecidableEq, Repr

/-- The payload of an ENUM flit but its kind (R341). -/
structure EnumMsg where
  abort : Bool
  domain : BitVec 16
  epoch : BitVec 32
  next : BitVec 16
  hops : BitVec 8
  node : BitVec 16
  deriving DecidableEq, Repr

/-- The payload of a DELAY flit but its kind (R350). -/
structure DelayMsg where
  id : BitVec 8
  t1 : BitVec 64
  t2 : BitVec 64
  t3 : BitVec 64
  deriving DecidableEq, Repr

/-- A remote-memory message but its kind (R352). -/
structure RemoteMsg where
  cls : BitVec 8
  xfer : BitVec 16
  reason : BitVec 8
  len : BitVec 16
  offset : BitVec 64
  addr : BitVec 64
  data : List (BitVec 8)
  deriving DecidableEq, Repr

/-- The roles a die can take (R357). -/
inductive HalfRole where
  | w
  | e
  deriving DecidableEq, Repr

/-- The straps as one Lantern reads them; `true` is tied to ground (14_pitch.md Table 14-1). -/
structure Straps where
  mode : Bool := false
  idSrc : Bool := false
  recovery : Bool := false
  deriving DecidableEq, Repr

/-- A discovery record from the other die (R358). -/
structure Discovery where
  role : HalfRole
  clockMhz : Nat
  powerW : Nat
  fwMeas : List (BitVec 8)
  defectHash : List (BitVec 8)
  dikHash : List (BitVec 8)
  straps : Straps
  deriving DecidableEq, Repr

/-- What resets a host port (13_host_far_ports.md R381). -/
inductive PortResetKind where
  | perst
  | hot
  | linkDown
  | functionLevel
  deriving DecidableEq, Repr

/-- The vendor-defined SPDM requests (15_trust_and_firmware.md R414): IDE key management and TDISP. -/
inductive VendorReq where
  | ideKeySet (stream : Fin 5) (key : List (BitVec 8))
  | ideKeyStop (stream : Fin 5)
  | tdispLock (stream : Fin 5)
  | tdispStart
  | tdispStop
  | tdispState
  deriving DecidableEq, Repr

/-- A failing core of stage 7 (R399): the site, and whether it was retired for want of working arrays. -/
structure CoreFail where
  pair : Fin 1024
  array : Fin 4
  group : Fin 16
  deriving DecidableEq, Repr

/-- A faulty row found at stage 6 (R400). -/
structure RowFault where
  pair : Fin 1024
  bank : Fin 128
  row : Nat
  mat : Fin 8
  deriving DecidableEq, Repr

/-- What the physical work of a pitch stage found when the stage ended (14_pitch.md Table 14-2). -/
inductive StageResult where
  /-- Stage 1: whether the retained SRAM passed its check (R461). -/
  | rails (retentionOk : Bool)
  /-- Stage 2: the straps as each Lantern read them, whether the rebuilt keys matched their fuses (R408), whether the
  anti-rollback record authenticated (R430), and the M0 sensor mean (R395). -/
  | lantern (strapsW strapsE : Straps) (identityOk : Bool) (arbOk : Bool) (m0Mean : Int)
  /-- Stage 2 left again from IDLE once the coolant admits the module (R392). -/
  | idleRelease
  /-- Stage 3: whether slot A and slot B verified (R426). -/
  | firmware (slotAOk slotBOk : Bool)
  /-- Stage 4: the Seam modules that trained, and whether the quick check passed (R358, R395). -/
  | seam (trained : List (Fin 16)) (quickOk : Bool)
  /-- Stage 5: vaults found lost, and whether the quick check passed (R399). -/
  | channel (lost : List (Fin 1024)) (quickOk : Bool)
  /-- Stage 6: faulty rows, and whether the quick check passed (R400). -/
  | dram (rows : List RowFault) (quickOk : Bool)
  /-- Stage 7: cell faults by column group, cores that fail outright, and whether the short test passed (R399). -/
  | cores (cells : List CoreFail) (failed : List (Fin 1024)) (quickOk : Bool)
  /-- Stage 9: a vault whose valid map failed its self-test, and the far tier's attached device in MiB (R193, R384). -/
  | memory (mapFail : Option (Fin 1024)) (farDeviceMib : Nat)
  deriving DecidableEq, Repr

/-- The commands, operations and events of the block, in the table's order. -/
inductive Instr where
  /-- SEAL_WORD_WRITE (R209). -/
  | sealWordWrite (port : Fin 2) (slot : Fin 1024) (word : BitVec 32) (first : Option (BitVec 32))
  /-- SEAL_GAP_RELEASE (R213). -/
  | sealGapRelease (ctrl : Fin 4) (slot : Fin 1024)
  /-- REGISTER_WRITE (R10). -/
  | registerWrite (port : Fin 2) (offset : Nat) (width : Nat) (value : BitVec 64)
  /-- RATION_APPLY (R13). -/
  | rationApply (port : Fin 2)
  /-- CR_APPLY (R217). -/
  | crApply (port : Fin 2)
  /-- CR_HEAD_WRITE (R219). -/
  | crHeadWrite (port : Fin 2) (ring : Fin 64) (head : BitVec 32)
  /-- OWN_CLAIM (R225). -/
  | ownClaim (port : Fin 2)
  /-- OWN_RENEW (R226). -/
  | ownRenew (port : Fin 2)
  /-- OWN_HANDOVER (R228). -/
  | ownHandover (port : Fin 2)
  /-- OWN_ACCEPT (R228). -/
  | ownAccept (port : Fin 2)
  /-- OWN_RELEASE (R227). -/
  | ownRelease (port : Fin 2)
  /-- CLAIM_WINDOW_END (R225). -/
  | claimWindowEnd
  /-- LEASE_EXPIRY (R227). -/
  | leaseExpiry
  /-- QUIET_END (R227). -/
  | quietEnd
  /-- HANDOVER_LAPSE (R228). -/
  | handoverLapse
  /-- SUBMIT_ORDER (R243). -/
  | submitOrder (ctrl : Fin 4) (slot : Fin 1024)
  /-- GEOMETRY_READ (R36). -/
  | geometryRead (ctrl : Fin 4) (slot : Fin 1024)
  /-- CORE_CONFIG (R65). -/
  | coreConfig (ctrl : Fin 4) (slot : Fin 1024)
  /-- MODE_SET (R5). -/
  | modeSet (ctrl : Fin 4) (slot : Fin 1024)
  /-- KV_POOL (R116). -/
  | kvPool (ctrl : Fin 4) (slot : Fin 1024)
  /-- BIVOUAC_SET (R138). -/
  | bivouacSet (ctrl : Fin 4) (slot : Fin 1024)
  /-- KV_MAP_READ (R119). -/
  | kvMapRead (ctrl : Fin 4) (slot : Fin 1024)
  /-- MEM_WINDOW_SET (R174). -/
  | memWindowSet (ctrl : Fin 4) (slot : Fin 1024)
  /-- MEM_SCRUB_SET (R195). -/
  | memScrubSet (ctrl : Fin 4) (slot : Fin 1024)
  /-- MEM_RETIRE (R199). -/
  | memRetire (ctrl : Fin 4) (slot : Fin 1024)
  /-- MEM_UNRETIRE (R200). -/
  | memUnretire (ctrl : Fin 4) (slot : Fin 1024)
  /-- MEM_ERRLOG_READ (R198). -/
  | memErrlogRead (ctrl : Fin 4) (slot : Fin 1024)
  /-- RING_ADOPT (R232). -/
  | ringAdopt (ctrl : Fin 4) (slot : Fin 1024)
  /-- STRIKE_ORDER (R265). -/
  | strikeOrder (ctrl : Fin 4) (slot : Fin 1024)
  /-- STRIKE_SEQ (R265). -/
  | strikeSeq (ctrl : Fin 4) (slot : Fin 1024)
  /-- STRIKE_ALL (R265). -/
  | strikeAll (ctrl : Fin 4) (slot : Fin 1024)
  /-- UNIT_STOP (R267). -/
  | unitStop (tag : Nat) (op : Nat)
  /-- STRIKE_RECORDS (R268). -/
  | strikeRecords
  /-- CTL_CLAIM (R224). -/
  | ctlClaim (ctrl : Fin 4) (slot : Fin 1024)
  /-- CTL_RENEW (R224). -/
  | ctlRenew (ctrl : Fin 4) (slot : Fin 1024)
  /-- CTL_HANDOVER (R224). -/
  | ctlHandover (ctrl : Fin 4) (slot : Fin 1024)
  /-- CTL_ACCEPT (R224). -/
  | ctlAccept (ctrl : Fin 4) (slot : Fin 1024)
  /-- CTL_RELEASE (R224). -/
  | ctlRelease (ctrl : Fin 4) (slot : Fin 1024)
  /-- CTL_OWN_STATUS (R224). -/
  | ctlOwnStatus (ctrl : Fin 4) (slot : Fin 1024)
  /-- TIME_CONFIG (R274). -/
  | timeConfig (ctrl : Fin 4) (slot : Fin 1024)
  /-- POWER_SLOTS_SET (R290). -/
  | powerSlotsSet (ctrl : Fin 4) (slot : Fin 1024)
  /-- POWER_SLOTS_READ (R290). -/
  | powerSlotsRead (ctrl : Fin 4) (slot : Fin 1024)
  /-- COOLANT_CONFIG (R323). -/
  | coolantConfig (ctrl : Fin 4) (slot : Fin 1024)
  /-- SENSOR_DEMOTE (R299). -/
  | sensorDemote (ctrl : Fin 4) (slot : Fin 1024)
  /-- SENSOR_RESTORE (R299). -/
  | sensorRestore (ctrl : Fin 4) (slot : Fin 1024)
  /-- THERMAL_CLEAR (R312). -/
  | thermalClear (ctrl : Fin 4) (slot : Fin 1024)
  /-- THERMAL_CLEAR_PITCH_START (R312). -/
  | thermalClearPitchStart
  /-- SWING_LIMIT_SET (R322). -/
  | swingLimitSet (ctrl : Fin 4) (slot : Fin 1024)
  /-- THERMAL_READ (R324). -/
  | thermalRead (ctrl : Fin 4) (slot : Fin 1024)
  /-- LINK_CONFIG (R367). -/
  | linkConfig (ctrl : Fin 4) (slot : Fin 1024)
  /-- LINK_ENUMERATE (R340). -/
  | linkEnumerate (ctrl : Fin 4) (slot : Fin 1024)
  /-- LINK_ROUTE_SET (R345). -/
  | linkRouteSet (ctrl : Fin 4) (slot : Fin 1024)
  /-- LINK_RETRAIN (R330). -/
  | linkRetrain (ctrl : Fin 4) (slot : Fin 1024)
  /-- LINK_GRANT (R351). -/
  | linkGrant (ctrl : Fin 4) (slot : Fin 1024)
  /-- LINK_STATUS_READ (R368). -/
  | linkStatusRead (ctrl : Fin 4) (slot : Fin 1024)
  /-- LINK_COPY (R352). -/
  | linkCopy (ctrl : Fin 4) (slot : Fin 1024)
  /-- LINK_COPY_TIMEOUT (R353). -/
  | linkCopyTimeout (xfer : BitVec 16)
  /-- PITCH_CONFIG (R406). -/
  | pitchConfig (ctrl : Fin 4) (slot : Fin 1024)
  /-- RESET_DEVICE (R403). -/
  | resetDevice (ctrl : Fin 4) (slot : Fin 1024)
  /-- COMPUTE_RESET_COMPLETE (R403). -/
  | computeResetComplete (fwOk : Bool) (failedCores : List (Fin 1024))
  /-- DEFECT_READ (R406). -/
  | defectRead (ctrl : Fin 4) (slot : Fin 1024)
  /-- ATTEST (R412). -/
  | attest (ctrl : Fin 4) (slot : Fin 1024)
  /-- CERT_READ (R411). -/
  | certRead (ctrl : Fin 4) (slot : Fin 1024)
  /-- FW_WRITE (R424). -/
  | fwWrite (ctrl : Fin 4) (slot : Fin 1024)
  /-- FW_STAGE (R425). -/
  | fwStage (ctrl : Fin 4) (slot : Fin 1024)
  /-- FW_ACTIVATE (R423). -/
  | fwActivate (ctrl : Fin 4) (slot : Fin 1024)
  /-- FW_COMMIT (R429). -/
  | fwCommit (ctrl : Fin 4) (slot : Fin 1024)
  /-- FW_ABANDON (R431). -/
  | fwAbandon (ctrl : Fin 4) (slot : Fin 1024)
  /-- TRIAL_TIMEOUT (R428). -/
  | trialTimeout
  /-- TRUST_POLICY (R418). -/
  | trustPolicy (ctrl : Fin 4) (slot : Fin 1024)
  /-- WEIGHTS_UNSEAL (R419). -/
  | weightsUnseal (ctrl : Fin 4) (slot : Fin 1024)
  /-- SEALED_RELEASE (R421). -/
  | sealedRelease (ctrl : Fin 4) (slot : Fin 1024)
  /-- EVENT_READ (R453). -/
  | eventRead (ctrl : Fin 4) (slot : Fin 1024)
  /-- WDOG_CONFIG (R453). -/
  | wdogConfig (ctrl : Fin 4) (slot : Fin 1024)
  /-- NOP (R255). -/
  | opNop (tag : Nat) (op : Nat)
  /-- MM (R75). -/
  | opMm (tag : Nat) (op : Nat)
  /-- SF_APPLY (R86). -/
  | opSfApply (tag : Nat) (op : Nat)
  /-- SOFTMAX (R102). -/
  | opSoftmax (tag : Nat) (op : Nat)
  /-- NORM (R109). -/
  | opNorm (tag : Nat) (op : Nat)
  /-- DM_COPY (R252). -/
  | opDmCopy (tag : Nat) (op : Nat)
  /-- MEM_ZERO (R192). -/
  | opMemZero (tag : Nat) (op : Nat)
  /-- BANK_RUN (R149). -/
  | opBankRun (tag : Nat) (op : Nat)
  /-- SEQ_OPEN (R114). -/
  | opSeqOpen (tag : Nat) (op : Nat)
  /-- SEQ_FORK (R136). -/
  | opSeqFork (tag : Nat) (op : Nat)
  /-- SEQ_CLOSE (R124). -/
  | opSeqClose (tag : Nat) (op : Nat)
  /-- SEQ_FREE (R136). -/
  | opSeqFree (tag : Nat) (op : Nat)
  /-- SEQ_TRUNCATE (R126). -/
  | opSeqTruncate (tag : Nat) (op : Nat)
  /-- SEQ_PREEMPT (R139). -/
  | opSeqPreempt (tag : Nat) (op : Nat)
  /-- SEQ_RESUME (R140). -/
  | opSeqResume (tag : Nat) (op : Nat)
  /-- ATT_APPEND (R123). -/
  | opAttAppend (tag : Nat) (op : Nat)
  /-- ATT_DECODE (R130). -/
  | opAttDecode (tag : Nat) (op : Nat)
  /-- ATT_PREFILL (R133). -/
  | opAttPrefill (tag : Nat) (op : Nat)
  /-- KV_WRITE (R136). -/
  | opKvWrite (tag : Nat) (op : Nat)
  /-- KV_EXPORT (R143). -/
  | opKvExport (tag : Nat) (op : Nat)
  /-- ORDER_START (R289). -/
  | orderStart (tag : Nat)
  /-- OPERATION_COMPLETE (R257). -/
  | operationComplete (tag : Nat) (op : Nat)
  /-- COMPLETION_RECORD_WRITE (R218). -/
  | completionRecordWrite (ctrl : Fin 4) (ring : Nat)
  /-- MODERATION_TIMEOUT (R221). -/
  | moderationTimeout (port : Fin 2) (ring : Fin 64)
  /-- END (R148). -/
  | bankEnd (pair : Fin 1024)
  /-- LOOP (R155). -/
  | bankLoop (pair : Fin 1024)
  /-- ENDL (R151). -/
  | bankEndl (pair : Fin 1024)
  /-- SETP (R151). -/
  | bankSetp (pair : Fin 1024)
  /-- CLRA (R151). -/
  | bankClra (pair : Fin 1024)
  /-- LD (R151). -/
  | bankLd (pair : Fin 1024)
  /-- ST (R151). -/
  | bankSt (pair : Fin 1024)
  /-- LDA (R153). -/
  | bankLda (pair : Fin 1024)
  /-- STA (R161). -/
  | bankSta (pair : Fin 1024)
  /-- MAC (R157). -/
  | bankMac (pair : Fin 1024)
  /-- AXPY (R157). -/
  | bankAxpy (pair : Fin 1024)
  /-- SCAL (R157). -/
  | bankScal (pair : Fin 1024)
  /-- DOT (R157). -/
  | bankDot (pair : Fin 1024)
  /-- EXPS (R159). -/
  | bankExps (pair : Fin 1024)
  /-- EXPW (R159). -/
  | bankExpw (pair : Fin 1024)
  /-- RSUM (R151). -/
  | bankRsum (pair : Fin 1024)
  /-- RMAX (R157). -/
  | bankRmax (pair : Fin 1024)
  /-- STEN (R160). -/
  | bankSten (pair : Fin 1024)
  /-- CSEL (R151). -/
  | bankCsel (pair : Fin 1024)
  /-- RISE (R161). -/
  | bankRise (pair : Fin 1024)
  /-- SEQUENCE_LOAD (R147). -/
  | sequenceLoad (pair : Fin 1024)
  /-- SORTIE_START (R283). -/
  | sortieStart (pair : Fin 1024)
  /-- SORTIE_END (R163). -/
  | sortieEnd (pair : Fin 1024)
  /-- REFRESH_SLOT (R282). -/
  | refreshSlot (pair : Fin 1024) (canaryFlips : List (Fin 128 × Fin 4))
  /-- CANARY_CLEAR (R197). -/
  | canaryClear (pair : Fin 1024)
  /-- SCRUB_SLOT (R195). -/
  | scrubSlot (pair : Fin 1024)
  /-- SCRUB_LATE (R195). -/
  | scrubLate (pair : Fin 1024)
  /-- RATION_PERIOD_BOUNDARY (R280). -/
  | rationPeriodBoundary
  /-- NEAR_READ (R179). -/
  | nearRead (pair : Fin 1024) (offset : Nat) (len : Nat)
  /-- NEAR_WRITE (R179). -/
  | nearWrite (pair : Fin 1024) (offset : Nat) (data : List (BitVec 8))
  /-- FAR_READ (R178). -/
  | farRead (core : Fin 1024) (addr : Nat) (len : Nat) (cls : Fin 3)
  /-- FAR_WRITE (R178). -/
  | farWrite (core : Fin 1024) (addr : Nat) (data : List (BitVec 8)) (cls : Fin 3)
  /-- MERGE_ENTRY_IDLE (R188). -/
  | mergeEntryIdle (pair : Fin 1024) (word : Nat)
  /-- ACCESS_PROMOTE (R183). -/
  | accessPromote (pair : Fin 1024) (index : Nat)
  /-- SLICE_FAIL (R180). -/
  | sliceFail (tower : Fin 16)
  /-- CHANNEL_GROUP_FAILING (R201). -/
  | channelGroupFailing (pair : Fin 1024) (group : Nat) (connection : Fin 64)
  /-- BAR2_READ (R374). -/
  | bar2Read (port : Fin 2) (offset : Nat) (len : Nat) (tBit : Bool)
  /-- BAR2_WRITE (R374). -/
  | bar2Write (port : Fin 2) (offset : Nat) (data : List (BitVec 8)) (tBit : Bool)
  /-- RT_NOW_LOW_READ (R506). -/
  | rtNowLowRead (port : Fin 2)
  /-- RT_NOW_HIGH_READ (R506). -/
  | rtNowHighRead (port : Fin 2)
  /-- CV_GO (R439). -/
  | cvGo (port : Fin 2) (chan : Fin 16)
  /-- CV_RESET (R440). -/
  | cvReset (port : Fin 2) (chan : Fin 16)
  /-- CV_CHECK (R440). -/
  | cvCheck (port : Fin 2) (chan : Fin 16)
  /-- CV_COMPARE (R440). -/
  | cvCompare (chan : Fin 16)
  /-- CV_ABORT (R441). -/
  | cvAbort (port : Fin 2) (chan : Fin 16)
  /-- CV_FEED_B (R438). -/
  | cvFeedB (port : Fin 2) (chan : Fin 16) (value : BitVec 32)
  /-- CV_FEED_H (R438). -/
  | cvFeedH (port : Fin 2) (chan : Fin 16) (value : BitVec 32)
  /-- CV_FEED_W (R438). -/
  | cvFeedW (port : Fin 2) (chan : Fin 16) (value : BitVec 32)
  /-- CV_SCAN_END (R439). -/
  | cvScanEnd (chan : Fin 16)
  /-- FAST_INTERRUPT_DELIVERY (R235). -/
  | fastInterruptDelivery (cluster : Fin 2) (source : Fin 256)
  /-- NORMAL_INTERRUPT_DELIVERY (R236). -/
  | normalInterruptDelivery (cluster : Fin 2) (source : Fin 256)
  /-- LANTERN_WAKE (R238). -/
  | lanternWake (cluster : Fin 2) (source : Fin 256)
  /-- SLEEP_TIMER (R238). -/
  | sleepTimer (cluster : Fin 2) (core : Fin 8)
  /-- HEARTBEAT (R448). -/
  | heartbeat (cluster : Fin 2)
  /-- WDOG_WARN (R448). -/
  | wdogWarn (cluster : Fin 2)
  /-- WATCHDOG_RESET (R448). -/
  | watchdogReset (cluster : Fin 2)
  /-- WATCHDOG_RESTART (R448). -/
  | watchdogRestart (cluster : Fin 2) (fwOk : Bool) (badTags : List Nat)
  /-- SENSOR_SAMPLE (R305). -/
  | sensorSample (readings : List SensorReading)
  /-- SENSOR_DISAGREE (R298). -/
  | sensorDisagree (tower : Fin 16) (layer : Fin 10) (site : Fin 72)
  /-- SENSOR_DISAGREE_CLEAR (R298). -/
  | sensorDisagreeClear
  /-- THROTTLE_STEP (R308). -/
  | throttleStep
  /-- ESTIMATOR_UPDATE (R302). -/
  | estimatorUpdate (tower : Fin 16)
  /-- SHUTDOWN_RAIL_DROP (R310). -/
  | shutdownRailDrop
  /-- SHUTDOWN_PORT_DROP (R310). -/
  | shutdownPortDrop
  /-- TRAY_POLL (R313). -/
  | trayPoll (half : Fin 2) (reply : TrayReply)
  /-- TRAY_POLL_RETRY (R482). -/
  | trayPollRetry (half : Fin 2) (reply : TrayReply)
  /-- CALORIMETRIC_CHECK (R314). -/
  | calorimetricCheck
  /-- SWING_SAMPLE (R320). -/
  | swingSample (tower : Fin 16)
  /-- WEAR_PERSIST (R321). -/
  | wearPersist
  /-- PPS_EDGE (R273). -/
  | ppsEdge (rising : Bool) (freqPpb : Int)
  /-- TREF_LOSS (R273). -/
  | trefLoss
  /-- BEACON_EMIT (R347). -/
  | beaconEmit
  /-- BEACON (R347). -/
  | beacon (port : Fin 18) (hdr : FlitHdr) (msg : BeaconMsg)
  /-- BEACON_LOSS (R273). -/
  | beaconLoss
  /-- BEACON_ROOT_RESUME (R348). -/
  | beaconRootResume
  /-- POWER_FRAME_BOUNDARY (R291). -/
  | powerFrameBoundary (inputW : BitVec 16)
  /-- SILMAN_PRESENCE_CHANGE (R469). -/
  | silmanPresenceChange (port : Fin 18) (present : Bool)
  /-- PARTNER_DETECT (R329). -/
  | partnerDetect (port : Fin 18) (lanes : Nat)
  /-- TRAINING_COMPLETE (R329). -/
  | trainingComplete (port : Fin 18) (goodLanes : BitVec 4) (peerPort : Option (Fin 18))
  /-- TRAINING_OVERRUN (R329). -/
  | trainingOverrun (port : Fin 18)
  /-- LANE_FAILING (R330). -/
  | laneFailing (port : Fin 18) (lane : Fin 4)
  /-- FC_ACK_TIMER (R334). -/
  | fcAckTimer (port : Fin 18)
  /-- IDLE (R332). -/
  | flitIdle (port : Fin 18) (hdr : FlitHdr)
  /-- ACKNOWLEDGE (R335). -/
  | fcAcknowledge (port : Fin 18) (hdr : FlitHdr) (next : BitVec 32) (credits : Credits)
  /-- REPLAY_REQUEST (R335). -/
  | fcReplayRequest (port : Fin 18) (hdr : FlitHdr) (next : BitVec 32) (credits : Credits)
  /-- KX_HELLO (R416). -/
  | kxHello (port : Fin 18) (random : List (BitVec 8)) (chain : List (BitVec 8))
  /-- KX_KEM_KEY (R416). -/
  | kxKemKey (port : Fin 18) (ek : List (BitVec 8)) (report : List (BitVec 8))
  /-- KX_KEM_CT (R416). -/
  | kxKemCt (port : Fin 18) (ct : List (BitVec 8)) (report : List (BitVec 8))
  /-- KX_FINISH (R418). -/
  | kxFinish (port : Fin 18) (signature : List (BitVec 8))
  /-- KX_ABORT (R417). -/
  | kxAbort (port : Fin 18) (reason : BitVec 8)
  /-- KEY_EXCHANGE_TIMEOUT (R417). -/
  | keyExchangeTimeout (port : Fin 18)
  /-- KEY_EXCHANGE_RETRY (R328). -/
  | keyExchangeRetry (port : Fin 18)
  /-- REKEY (R338). -/
  | rekey (port : Fin 18)
  /-- OLD_KEY_EXPIRY (R338). -/
  | oldKeyExpiry (port : Fin 18)
  /-- TOKEN (R340). -/
  | enumToken (port : Fin 18) (hdr : FlitHdr) (msg : EnumMsg)
  /-- RETURN (R340). -/
  | enumReturn (port : Fin 18) (hdr : FlitHdr) (msg : EnumMsg)
  /-- CROSS (R340). -/
  | enumCross (port : Fin 18) (hdr : FlitHdr) (msg : EnumMsg)
  /-- BOUNDARY (R340). -/
  | enumBoundary (port : Fin 18) (hdr : FlitHdr) (msg : EnumMsg)
  /-- ENUM_TIMEOUT (R340). -/
  | enumTimeout (port : Fin 18)
  /-- COMMIT (R342). -/
  | enumCommit (port : Fin 18) (hdr : FlitHdr) (msg : EnumMsg)
  /-- COMMIT_TAKE_EFFECT (R342). -/
  | commitTakeEffect
  /-- COMMIT_FLOOD_REPEAT (R342). -/
  | commitFloodRepeat
  /-- LINK_ENUMERATE_COMPLETE (R342). -/
  | linkEnumerateComplete
  /-- PENDING_ID_LAPSE (R342). -/
  | pendingIdLapse
  /-- JOIN (R343). -/
  | enumJoin (port : Fin 18) (hdr : FlitHdr)
  /-- DELAY_EXCHANGE_START (R349). -/
  | delayExchangeStart (port : Fin 18) (t1 : BitVec 64)
  /-- DELAY_REQ (R350). -/
  | delayReq (port : Fin 18) (hdr : FlitHdr) (msg : DelayMsg) (t2 : BitVec 64) (t3 : BitVec 64)
  /-- DELAY_RESP (R349). -/
  | delayResp (port : Fin 18) (hdr : FlitHdr) (msg : DelayMsg) (t4 : BitVec 64)
  /-- WRITE (R352). -/
  | remoteWrite (port : Fin 18) (hdr : FlitHdr) (msg : RemoteMsg)
  /-- READ (R352). -/
  | remoteRead (port : Fin 18) (hdr : FlitHdr) (msg : RemoteMsg)
  /-- READ_DATA (R353). -/
  | remoteReadData (port : Fin 18) (hdr : FlitHdr) (msg : RemoteMsg)
  /-- WRITE_ACK (R353). -/
  | remoteWriteAck (port : Fin 18) (hdr : FlitHdr) (msg : RemoteMsg)
  /-- REFUSE (R353). -/
  | remoteRefuse (port : Fin 18) (hdr : FlitHdr) (msg : RemoteMsg)
  /-- MGMT_SLOT (R354). -/
  | mgmtSlot (port : Fin 18) (hdr : FlitHdr) (slot : BitVec 16) (bytes : List (BitVec 8))
  /-- MGMT_COMPLETION (R354). -/
  | mgmtCompletion (port : Fin 18) (hdr : FlitHdr) (record : List (BitVec 8))
  /-- MGMT_OWNERSHIP_NOTICE (R354). -/
  | mgmtOwnershipNotice (port : Fin 18) (hdr : FlitHdr) (notice : List (BitVec 8))
  /-- SEAM_FRAME (R359). -/
  | seamFrame (mod : Fin 16) (wt : BitVec 2) (parityOk : Bool) (content : List (BitVec 8))
  /-- SEAM_RETRAIN_REQUEST (R364). -/
  | seamRetrainRequest (mod : Fin 16)
  /-- SEAM_WIDTH_ADVERT (R364). -/
  | seamWidthAdvert (mod : Fin 16) (width : Nat) (failed : BitVec 64)
  /-- SEAM_RECEIVE_STATE (R362). -/
  | seamReceiveState (mod : Fin 16) (nextSeq : BitVec 16)
  /-- SEAM_RETRAIN_COMPLETE (R364). -/
  | seamRetrainComplete (mod : Fin 16) (foundFailed : BitVec 64)
  /-- SEAM_RACK_TIME_WORD (R356). -/
  | seamRackTimeWord (rackTime : BitVec 64)
  /-- SEAM_LANE_FAIL (R363). -/
  | seamLaneFail (mod : Fin 16) (lane : Fin 64) (eToW : Bool)
  /-- SEAM_DISCOVERY_RECORD (R358). -/
  | seamDiscoveryRecord (rec : Discovery)
  /-- SEAM_NO_PEER (R358). -/
  | seamNoPeer
  /-- HALF_LOSS_DETECT (R450). -/
  | halfLossDetect
  /-- HOST_PORT_RESET (R381). -/
  | hostPortReset (port : Fin 2) (kind : PortResetKind)
  /-- HOST_LINK_TRAIN (R382). -/
  | hostLinkTrain (port : Fin 2)
  /-- TDI_ERROR (R379). -/
  | tdiError (port : Fin 2)
  /-- GET_VERSION (R414). -/
  | spdmGetVersion (port : Fin 2)
  /-- GET_CAPABILITIES (R414). -/
  | spdmGetCapabilities (port : Fin 2)
  /-- NEGOTIATE_ALGORITHMS (R414). -/
  | spdmNegotiateAlgorithms (port : Fin 2) (offersSet : Bool)
  /-- GET_DIGESTS (R414). -/
  | spdmGetDigests (port : Fin 2)
  /-- GET_CERTIFICATE (R414). -/
  | spdmGetCertificate (port : Fin 2) (certSlot : Nat) (offset : Nat) (len : Nat)
  /-- CHALLENGE (R414). -/
  | spdmChallenge (port : Fin 2) (nonce : List (BitVec 8))
  /-- GET_MEASUREMENTS (R414). -/
  | spdmGetMeasurements (port : Fin 2) (block : BitVec 8) (nonce : List (BitVec 8))
  /-- KEY_EXCHANGE (R415). -/
  | spdmKeyExchange (port : Fin 2) (ek : List (BitVec 8))
  /-- FINISH (R414). -/
  | spdmFinish (port : Fin 2) (session : Nat) (hmac : List (BitVec 8))
  /-- KEY_UPDATE (R414). -/
  | spdmKeyUpdate (port : Fin 2) (session : Nat)
  /-- HEARTBEAT_SPDM (R414). -/
  | spdmHeartbeat (port : Fin 2) (session : Nat)
  /-- END_SESSION (R414). -/
  | spdmEndSession (port : Fin 2) (session : Nat)
  /-- VENDOR_DEFINED_REQUEST (R414). -/
  | spdmVendorDefined (port : Fin 2) (session : Option Nat) (req : VendorReq)
  /-- SPDM_SESSION_TIMEOUT (R414). -/
  | spdmSessionTimeout (port : Fin 2) (session : Nat)
  /-- FAR_TIER_READ (R386). -/
  | farTierRead (offset : Nat) (len : Nat)
  /-- FAR_TIER_WRITE (R387). -/
  | farTierWrite (offset : Nat) (data : List (BitVec 8))
  /-- FAR_TIER_INIT_COMPLETE (R387). -/
  | farTierInitComplete (block : Nat)
  /-- FAR_TIER_LINK_LOSS (R388). -/
  | farTierLinkLoss
  /-- VIN_APPLY (R458). -/
  | vinApply (milliVolts : Nat)
  /-- MATE_SNS_CHANGE (R456). -/
  | mateSnsChange (high : Bool)
  /-- OVERVOLTAGE (R458). -/
  | overvoltage (milliVolts : Nat)
  /-- POWER_FAIL (R460). -/
  | powerFail
  /-- RETENTION_HANDOFF (R460). -/
  | retentionHandoff
  /-- RAIL_FAULT (R463). -/
  | railFault (half : Fin 2)
  /-- MOD_RESET_N_ASSERT (R472). -/
  | modResetNAssert
  /-- MOD_RESET_N_RELEASE (R404). -/
  | modResetNRelease
  /-- PITCH_STAGE_COMPLETE (R390). -/
  | pitchStageComplete (result : StageResult)
  /-- EVENT_RECORD_WRITE (R445). -/
  | eventRecordWrite
  /-- EVENT_WINDOW_CLOSE (R446). -/
  | eventWindowClose (kind : BitVec 16) (source : Nat)
  /-- LS_VECTOR0_DEFERRED (R498). -/
  | lsVector0Deferred (port : Fin 2)
  /-- SLOT_WRITE (R478). -/
  | i3cSlotWrite (slot : BitVec 8) (offset : BitVec 16) (data : List (BitVec 8))
  /-- SPACE_READ (R479). -/
  | i3cSpaceRead (space : BitVec 8) (offset : BitVec 64)
  /-- RECORD_READ (R480). -/
  | i3cRecordRead
  /-- ATTEST_NONCE (R477). -/
  | i3cAttestNonce (nonce : List (BitVec 8))
  /-- I3C_PRIVATE_READ (R479). -/
  | i3cPrivateRead (len : Nat)
  /-- ENTDAA (R475). -/
  | i3cEntdaa (address : BitVec 7)
  /-- RSTDAA (R475). -/
  | i3cRstdaa
  /-- SETNEWDA (R475). -/
  | i3cSetnewda (address : BitVec 7)
  /-- GETPID (R475). -/
  | i3cGetpid
  /-- GETBCR (R475). -/
  | i3cGetbcr
  /-- GETDCR (R475). -/
  | i3cGetdcr
  /-- GETSTATUS (R475). -/
  | i3cGetstatus
  /-- ENEC (R481). -/
  | i3cEnec (ibi : Bool)
  /-- DISEC (R481). -/
  | i3cDisec (ibi : Bool)
  /-- GETMWL (R475). -/
  | i3cGetmwl
  /-- SETMWL (R475). -/
  | i3cSetmwl (len : BitVec 16)
  /-- GETMRL (R475). -/
  | i3cGetmrl
  /-- SETMRL (R475). -/
  | i3cSetmrl (len : BitVec 16)
  /-- HOT_JOIN_REQUEST (R476). -/
  | hotJoinRequest
  /-- IBI_SEND (R481). -/
  | ibiSend (acked : Bool)
  /-- IBI_RETRY (R481). -/
  | ibiRetry (acked : Bool)
  /-- RECORDS_WAITING_REMINDER (R481). -/
  | recordsWaitingReminder
  /-- INTAKE_BACKLOG (R216). -/
  | intakeBacklog
  /-- COMMAND_CODE_NOT_DEFINED (R204). -/
  | commandCodeNotDefined (ctrl : Fin 4) (slot : Fin 1024)
  /-- UNCORRECTABLE_CODEWORD (R334). -/
  | uncorrectableCodeword (port : Fin 18) (lane : Fin 4)
  /-- RESERVED_FLIT_TYPE (R332). -/
  | reservedFlitType (port : Fin 18) (hdr : FlitHdr) (flitType : BitVec 4) (kind : BitVec 8)
  /-- SEAM_SIDEBAND_FAIL (R356). -/
  | seamSidebandFail (mod : Fin 16)
  /-- SEAM_LOGIC_RESET (R364). -/
  | seamLogicReset (mod : Fin 16)
  /-- CHANNEL_PAUSE_END (R201). -/
  | channelPauseEnd (pair : Fin 1024)
  /-- FAR_TIER_RETRAIN (R388). -/
  | farTierRetrain
  /-- COLD_PITCH_RAILS_RETURN (R404). -/
  | coldPitchRailsReturn
  /-- RESET_PITCH_START (R404). -/
  | resetPitchStart
  /-- ENTROPY_HEALTH_TEST (R410). -/
  | entropyHealthTest (pass : Bool)
  /-- RETENTION_EXPIRY (R461). -/
  | retentionExpiry
  /-- I3C_WRITE_DISCARD (R477). -/
  | i3cWriteDiscard
  deriving DecidableEq, Repr

end Sys2Proof
end

