-- ==== Sys2Proof/Decode.lean ====
section
/-! DEFINITION. Decoding a word of spec/opcode_table.json. The table gives no row any bits: the block takes its commands
as messages, accesses and events, and no word spells one. -/

namespace Sys2Proof

/-- The command a word spells by the table's bits: none, for every word (no row of the table has bits). -/
def decodeTableWord (_nbits _w : Nat) : Option Instr := none

end Sys2Proof
end

