-- ==== Sys2Proof/Config.lean ====
section
/-! DEFINITION. The values the spec leaves open: constants without a body, so that nothing can be proved of them.
Each is named in the assumption log. -/

namespace Sys2Proof.Config

/-- A fresh free value: draw number `n` (notes/assumptions/10.md). -/
opaque freeNat : Nat → Nat

/-- The k-th value of draw number `n`, for choices that need many: stochastic-rounding draws, whose sequence R54 does not
promise, and the order of sums that R59 leaves open (notes/assumptions/10.md, 12.md). -/
opaque pick : Nat → Nat → Nat

/-- SHAKE256 of the bytes, with the given output length in bytes (15_trust_and_firmware.md; notes/assumptions/11.md). -/
opaque shake256 : List Byte → Nat → List Byte

/-- FN-DSA signature, in padded form, by the identity key of a die (0 W, 1 E) over the bytes (notes/assumptions/11.md). -/
opaque sign : Nat → List Byte → List Byte

/-- DIK_HASH of a die, 32 B, as fused (notes/assumptions/11.md). -/
opaque dikHash : Nat → List Byte

/-- SEAL_HASH of a die, 32 B, as fused (notes/assumptions/11.md). -/
opaque sealHash : Nat → List Byte

/-- Hash of the boot ROM, 32 B (notes/assumptions/11.md). -/
opaque romHash : List Byte

/-- DIK_HASH of the die a certificate chain certifies (notes/assumptions/11.md). -/
opaque chainDik : List Byte → List Byte

/-- SHAKE256 at 256 bits of a settings copy, given as its values in order (notes/assumptions/11.md). -/
opaque settingsHash : List Nat → List Byte

/-- Whether a signature verifies over the bytes under the key of a certificate chain (notes/assumptions/11.md). -/
opaque verify : List Byte → List Byte → List Byte → Bool

/-- Whether a certificate chain verifies against the root (notes/assumptions/11.md). -/
opaque chainOk : List Byte → Bool

/-- ML-KEM encapsulation key drawn with entropy draw `n` (notes/assumptions/11.md). -/
opaque kemKey : Nat → List Byte

/-- ML-KEM ciphertext for an encapsulation key with entropy draw `n` (notes/assumptions/11.md). -/
opaque kemCt : List Byte → Nat → List Byte

/-- Shared secret of a ciphertext (notes/assumptions/11.md). -/
opaque kemSecret : List Byte → List Byte

/-- Random bytes of entropy draw `n` (notes/assumptions/11.md). -/
opaque entropy : Nat → Nat → List Byte

/-- HMAC of the bytes under a secret (notes/assumptions/11.md). -/
opaque hmac : List Byte → List Byte → List Byte

/-- AES-256-GCM ciphertext of the bytes under a key and a nonce number (notes/assumptions/11.md). -/
opaque gcmEnc : List Byte → Nat → List Byte → List Byte

/-- AES-256-GCM plaintext under a key, a nonce and associated data, where the tag after the ciphertext holds
(notes/assumptions/11.md). -/
opaque gcmDec : List Byte → Nat → List Byte → List Byte → Option (List Byte)

/-- Whether a signature verifies over the bytes under firmware signing key 0 to 3 (notes/assumptions/11.md). -/
opaque fwVerify : Nat → List Byte → List Byte → Bool

/-- Density of PG25 in g/L, which the calorimetric check needs and the spec does not give (notes/assumptions/34.md). -/
opaque pg25Density : Nat

/-- Gemuette's PCIe vendor ID, which the spec does not give (13_host_far_ports.md R370; notes/assumptions/37.md). -/
opaque vendorId : BitVec 16

/-- The revision ID of the function, which the spec does not give (13_host_far_ports.md R370; notes/assumptions/37.md). -/
opaque revisionId : BitVec 8

/-- What a message of the Lantern mirror says, by the code of `Mirror` (12_silman_and_seam.md R360; notes/assumptions/35.md). -/
opaque mirrorKind : List Byte → Nat

/-- The message number of a message on SV0 (12_silman_and_seam.md R360; notes/assumptions/35.md). -/
opaque mirrorNumber : List Byte → Nat

/-- Bytes 0x00 to 0xDF of the frame that carries a mirror message of a kind and number (notes/assumptions/35.md). -/
opaque mirrorFrame : Nat → Nat → List Byte

end Sys2Proof.Config
end

