-- ==== Sys2Proof/Machine/State.lean ====
section
/-! DEFINITION. The state of one K9 device as plain data (00_scope.md to 18_register_maps.md), the reasons a step can
stop, and the state after reset. Each field's docstring reads: the spec's name | width | file of spec/ and rule | reset
value, where DC n is the model's design choice of notes/assumptions/n.md. -/

namespace Sys2Proof.Machine

open Sys2Proof

/-! ## Fuses, straps and persisted settings -/

/-- An overlay or fused defect entry (14_pitch.md Table 14-6); its CRC is computed when it is presented. -/
structure OvEntry where
  /-- OV_KIND | 8 | 14_pitch.md R397 | none listed -/
  kind : BitVec 8
  /-- OV_TOWER | 8 | 14_pitch.md R397 | none listed -/
  tower : BitVec 8
  /-- OV_SITE | 8 | 14_pitch.md R397 | none listed -/
  site : BitVec 8
  /-- OV_SUB | 8 | 14_pitch.md R397 | none listed -/
  sub : BitVec 8
  /-- OV_DETAIL | 32 | 14_pitch.md R397 | none listed -/
  detail : BitVec 32
  /-- OV_PITCH | 32 | 14_pitch.md R397 | none listed -/
  pitch : BitVec 32
  deriving DecidableEq, Repr

/-- What is fused into the dies. -/
structure Fuses where
  /-- VAR_CLOCK_MHZ | 16 | 14_pitch.md R401 | DESIGN CHOICE 1200 (9) -/
  clockMhz : Nat := 1200
  /-- VAR_POWER_W | 16 | 14_pitch.md R401 | DESIGN CHOICE 3600 (9) -/
  powerW : Nat := 3600
  /-- Fused defect list | entries of 16 B | 14_pitch.md R397 | DESIGN CHOICE empty (9) -/
  defects : List OvEntry := []
  /-- ID_SERIAL_W | 64 | 18_register_maps.md R493 | DESIGN CHOICE 0 (9) -/
  serialW : BitVec 64 := 0
  /-- ID_SERIAL_E | 64 | 18_register_maps.md R493 | DESIGN CHOICE 0 (9) -/
  serialE : BitVec 64 := 0
  /-- HALF_ID of the die of this device in Split mode | 1 | 12_silman_and_seam.md R357 | DESIGN CHOICE W (9) -/
  halfId : HalfRole := .w
  /-- Blown commit fuses | 0 to 1,024 | 15_trust_and_firmware.md R429 | DESIGN CHOICE 1 (9) -/
  commitBlown : Nat := 1
  /-- Revocation fuses | 4 | 15_trust_and_firmware.md R423 | DESIGN CHOICE 0 (9) -/
  revoked : BitVec 4 := 0
  deriving DecidableEq, Repr

/-- One vault profile of the Rations block (10_rack_time_rations.md Table 10-4). -/
structure Profile where
  /-- RATION_REFRESH | 16 | 10_rack_time_rations.md R287 | 256 -/
  refresh : BitVec 16 := 256
  /-- RATION_REF_OFFSET | 16 | 10_rack_time_rations.md R287 | 3584 -/
  refOffset : BitVec 16 := 3584
  /-- RATION_SCRUB | 16 | 10_rack_time_rations.md R287 | 64 -/
  scrub : BitVec 16 := 64
  /-- RATION_SCRUB_OFFSET | 16 | 10_rack_time_rations.md R287 | 3520 -/
  scrubOffset : BitVec 16 := 3520
  /-- RATION_BS | 16 | 10_rack_time_rations.md R287 | 2048 -/
  bs : BitVec 16 := 2048
  /-- RATION_ORD | 16 | 10_rack_time_rations.md R287 | 1280 -/
  ord : BitVec 16 := 1280
  /-- RATION_SWAP | 16 | 10_rack_time_rations.md R287 | 384 -/
  swap : BitVec 16 := 384
  /-- RATION_BS_START0 | 16 | 10_rack_time_rations.md R287 | 0 -/
  start0 : BitVec 16 := 0
  /-- RATION_BS_START1 | 16 | 10_rack_time_rations.md R287 | 1024 -/
  start1 : BitVec 16 := 1024
  /-- RATION_BS_START2 | 16 | 10_rack_time_rations.md R287 | 0xFFFF -/
  start2 : BitVec 16 := 0xFFFF
  /-- RATION_BS_START3 | 16 | 10_rack_time_rations.md R287 | 0xFFFF -/
  start3 : BitVec 16 := 0xFFFF
  deriving DecidableEq, Repr

/-- Link shares of one Silman port (Table 10-4). -/
structure LinkRation where
  /-- RATION_LINK_DATA | 16 | 10_rack_time_rations.md R287 | 3072 -/
  data : BitVec 16 := 3072
  /-- RATION_LINK_BULK | 16 | 10_rack_time_rations.md R287 | 992 -/
  bulk : BitVec 16 := 992
  deriving DecidableEq, Repr

/-- Warden shares of one cluster (Table 10-4). -/
structure WardenRation where
  /-- RATION_WD_INTAKE | 16 | 10_rack_time_rations.md R287 | 8192 -/
  intake : BitVec 16 := 8192
  /-- RATION_WD_DISPATCH | 16 | 10_rack_time_rations.md R287 | 8192 -/
  dispatch : BitVec 16 := 8192
  /-- RATION_WD_PAGE | 16 | 10_rack_time_rations.md R287 | 8192 -/
  page : BitVec 16 := 8192
  /-- RATION_WD_SERVICE | 16 | 10_rack_time_rations.md R287 | 8192 -/
  service : BitVec 16 := 8192
  deriving DecidableEq, Repr

/-- One whole set of the Rations block: shadow, pending or committed (00_scope.md R11 to R14). -/
structure RationSet where
  /-- Profiles 0 to 15 | 16 x 11 x 16 | 10_rack_time_rations.md R287 | each profile's reset values -/
  profiles : SMap Profile := []
  /-- RATION_PROFILE[p] | 1,024 x 4 | 10_rack_time_rations.md R287 | 0 -/
  profileOf : SMap (BitVec 4) := []
  /-- Link shares of SL0 to SL17 | 18 x 2 x 16 | 10_rack_time_rations.md R287 | each port's reset values -/
  links : SMap LinkRation := []
  /-- Warden shares of clusters W and E | 2 x 4 x 16 | 10_rack_time_rations.md R287 | each cluster's reset values -/
  wardens : SMap WardenRation := []
  deriving DecidableEq, Repr

/-- A retired block or bank (07_vaults_and_protection.md R199). -/
structure Retired where
  pair : Nat
  /-- `some b` is bank b; `none` is the 4 KiB block `block`. -/
  bank : Option Nat
  block : Nat
  deriving DecidableEq, Repr

/-- The settings of module flash that a firmware format change resets (15_trust_and_firmware.md R432). -/
structure Settings where
  /-- Settings format | 16 | 15_trust_and_firmware.md R432 | DESIGN CHOICE 0 (9) -/
  fmt : BitVec 16 := 0
  /-- Persisted mode setting | 1: true Split | 00_scope.md R5 | Twin as shipped -/
  modeSplit : Bool := false
  /-- PC_HE_ROLE | 1: true far tier | 14_pitch.md R406 | 0 as shipped -/
  heFarTier : Bool := false
  /-- PC_QUICK_EN | 1 | 14_pitch.md R406 | 1 as shipped -/
  quickEn : Bool := true
  /-- CC_VESTIBULE_KIB in force | 16 | 03_cores_and_arrays.md R65 | 256 -/
  vestibuleKib : Nat := 256
  /-- KP_ROWS of each pair | 14 | 05_attention_kv_cache.md R116 | DESIGN CHOICE 0, no pool (8) -/
  poolRows : SMap Nat := []
  /-- SC_HOURS | 8 | 07_vaults_and_protection.md R195 | 24 -/
  scrubHours : Nat := 24
  /-- TC_SOURCE_SEL | 2 | 10_rack_time_rations.md R274 | 0 -/
  tcSource : BitVec 2 := 0
  /-- TC_ROLE | 1 | 10_rack_time_rations.md R274 | 0 -/
  tcRoot : Bool := false
  /-- TC_PPS_EDGE | 1: true falling | 10_rack_time_rations.md R274 | DESIGN CHOICE 0 (8) -/
  tcFalling : Bool := false
  /-- CL_FLUID | 1: true PG25 | 11_heat_path.md R323 | DESIGN CHOICE 0 (8) -/
  clPg25 : Bool := false
  /-- CL_FLOW_SET; none is the order code's default | 16 | 11_heat_path.md R323 | by order code -/
  clFlowSet : Option Nat := none
  /-- Owner demotions, by sensor index | 1 each | 11_heat_path.md R299 | none -/
  demoted : List Nat := []
  /-- LK_PORT_EN | 18 | 12_silman_and_seam.md R367 | DESIGN CHOICE 0 (8) -/
  lkPortEn : BitVec 18 := 0
  /-- LK_DOMAIN | 16 | 12_silman_and_seam.md R367 | DESIGN CHOICE 0 (8) -/
  lkDomain : BitVec 16 := 0
  /-- LK_PEER_NODE | 16 | 12_silman_and_seam.md R367 | DESIGN CHOICE 0xFFFF (8) -/
  lkPeerNode : BitVec 16 := 0xFFFF
  /-- LK_FABRIC_ROOT | 1 | 12_silman_and_seam.md R367 | DESIGN CHOICE 0 (8) -/
  lkFabricRoot : Bool := false
  /-- LK_AUTO_JOIN | 1 | 12_silman_and_seam.md R367 | DESIGN CHOICE 0 (8) -/
  lkAutoJoin : Bool := false
  /-- WD_PERIOD_MS | 16 | 16_faults_blast_radius.md R448 | 200 -/
  wdPeriodMs : Nat := 200
  /-- TP_MIN_FW | 32 | 15_trust_and_firmware.md R418 | DESIGN CHOICE 0 (8) -/
  tpMinFw : BitVec 32 := 0
  /-- TP_SAME_FW | 1 | 15_trust_and_firmware.md R418 | DESIGN CHOICE 0 (8) -/
  tpSameFw : Bool := false
  /-- Persisted committed Rations | set | 10_rack_time_rations.md R287 | reset values of Table 10-4 -/
  rations : RationSet := {}
  deriving DecidableEq, Repr

/-! ## Ownership -/

/-- OWN_PHASE (08_warden_mailboxes.md Table 08-6). -/
inductive OwnPhase where
  | opened
  | window
  | owned
  | offer
  | quiet
  deriving DecidableEq, Repr

/-- OWN_CLAIM_RESULT (Table 08-6). -/
inductive ClaimResult where
  | none
  | pending
  | won
  | lost
  | refused
  deriving DecidableEq, Repr

/-- The per-controller part of the ownership block. -/
structure OwnPort where
  /-- OWN_CLAIM_PRIO | 8 per port | 18_register_maps.md R495 | 0 -/
  claimPrio : BitVec 8 := 0
  /-- OWN_CLAIM_NONCE | 64 per port | 18_register_maps.md R495 | 0 -/
  claimNonce : BitVec 64 := 0
  /-- OWN_CLAIM_RESULT | 3 per port | 18_register_maps.md R495 | 0 -/
  result : ClaimResult := .none
  /-- OWN_ERR bit 0 DENIED_WRITE | 1 per port | 18_register_maps.md R495 | 0 -/
  denied : Bool := false
  /-- OWN_ERR bit 1 HANDOVER_REFUSED | 1 per port | 18_register_maps.md R495 | 0 -/
  handoverRefused : Bool := false
  /-- OWN_ERR bit 2 RENEW_REFUSED | 1 per port | 18_register_maps.md R495 | 0 -/
  renewRefused : Bool := false
  /-- Has lost ownership since the pitch and not owned again | 1 | 08_warden_mailboxes.md R227 | no -/
  formerOwner : Bool := false
  deriving DecidableEq, Repr

/-- One claim standing in the claim window (R225). -/
structure Claim where
  ctrl : Fin 4
  prio : BitVec 8
  nonce : BitVec 64
  /-- The tags of the CTL_CLAIM commands it stands for, for controllers 2 and 3 (R224). -/
  tags : List Nat
  deriving DecidableEq, Repr

/-- The ownership block (08_warden_mailboxes.md Table 08-6, 18_register_maps.md Table 18-3). -/
structure Own where
  /-- OWN_PHASE | 3 | 08_warden_mailboxes.md R225 | 0 -/
  phase : OwnPhase := .opened
  /-- OWN_VALID | 1 | 18_register_maps.md R495 | 0 -/
  valid : Bool := false
  /-- OWN_ID | 2 | 18_register_maps.md R495 | 0 -/
  id : Fin 4 := 0
  /-- OWN_NONCE | 64 | 18_register_maps.md R495 | 0 -/
  nonce : BitVec 64 := 0
  /-- OWN_EPOCH | 32 | 18_register_maps.md R495 | 0 -/
  epoch : BitVec 32 := 0
  /-- End of the lease (OWN_LEASE_MS counts down to it) | ns | 08_warden_mailboxes.md R226 | 0 -/
  leaseEnd : Nat := 0
  /-- End of the claim window | ns | 08_warden_mailboxes.md R225 | 0 -/
  windowEnd : Nat := 0
  /-- End of the quiet phase | ns | 08_warden_mailboxes.md R227 | 0 -/
  quietEnd : Nat := 0
  /-- End of the standing offer | ns | 08_warden_mailboxes.md R228 | 0 -/
  offerEnd : Nat := 0
  /-- Controller the standing offer names | 2 | 08_warden_mailboxes.md R228 | 0 -/
  offerTo : Fin 4 := 0
  /-- OWN_SUCCESSOR | 2 | 18_register_maps.md R495 | 0 -/
  successor : Fin 4 := 0
  /-- Claims in the window | list | 08_warden_mailboxes.md R225 | none -/
  claims : List Claim := []
  /-- Per-controller fields | 4 entries | 18_register_maps.md R495 | each entry's reset values -/
  ports : SMap OwnPort := []
  deriving DecidableEq, Repr

/-! ## Mailbox slots and intake -/

/-- The intake of one controller path. -/
structure Intake where
  /-- Slot bytes, slot s from address 256 x s | 1,024, 1,024, 32 or 256 slots of 256 B | 08_warden_mailboxes.md R207 | DESIGN CHOICE 0 (8) -/
  slots : Mem := []
  /-- MB_NEXT_SEQ | 15 | 08_warden_mailboxes.md R212 | 0 -/
  nextSeq : BitVec 15 := 0
  /-- Numbers marked received by a Strike ahead of a gap | set | 08_warden_mailboxes.md R214 | none -/
  received : List (BitVec 15) := []
  /-- MB_SEQ_SKIPS | 32 saturating | 08_warden_mailboxes.md R213 | 0 -/
  skips : Nat := 0
  /-- MB_SKIP_SEEN | 1 | 08_warden_mailboxes.md R213 | 0 -/
  skipSeen : Bool := false
  /-- MB_LOCKED_WRITES | 32 saturating | 08_warden_mailboxes.md R209 | 0 -/
  lockedWrites : Nat := 0
  /-- MB_NO_RING | 32 saturating | 08_warden_mailboxes.md R223 | 0 -/
  noRing : Nat := 0
  deriving DecidableEq, Repr

/-! ## Host ports -/

/-- The staged fields of one completion ring (08_warden_mailboxes.md Table 08-5). -/
structure RingCfg where
  /-- CR_BASE | 64 | 18_register_maps.md R500 | 0 -/
  base : BitVec 64 := 0
  /-- CR_TAIL_ADDR | 64 | 18_register_maps.md R500 | 0 -/
  tailAddr : BitVec 64 := 0
  /-- CR_SIZE_LOG2 | 5 | 18_register_maps.md R500 | 0 -/
  sizeLog2 : BitVec 5 := 0
  /-- CR_VECTOR | 11 | 18_register_maps.md R500 | 0 -/
  vector : BitVec 11 := 0
  /-- CR_ENABLE | 1 | 18_register_maps.md R500 | 0 -/
  enable : Bool := false
  deriving DecidableEq, Repr

/-- The fields of one ring that are not staged. -/
structure Ring where
  /-- CR_MOD_COUNT | 8 | 18_register_maps.md R500 | 1 -/
  modCount : BitVec 8 := 1
  /-- CR_MOD_TIME | 10 | 18_register_maps.md R500 | 0 -/
  modTime : BitVec 10 := 0
  /-- CR_HEAD | 32 | 18_register_maps.md R500 | 0 -/
  head : BitVec 32 := 0
  /-- CR_TAIL | 32 | 18_register_maps.md R500 | 0 -/
  tail : BitVec 32 := 0
  /-- Records not yet signalled | count | 08_warden_mailboxes.md R221 | 0 -/
  unsignalled : Nat := 0
  /-- When the first unsignalled record was written | ns | 08_warden_mailboxes.md R221 | 0 -/
  firstUnsignalled : Nat := 0
  /-- Enabled at some time since pitch | 1 | 08_warden_mailboxes.md R223 | no -/
  everEnabled : Bool := false
  deriving DecidableEq, Repr

/-- TDI state of a host port (13_host_far_ports.md Table 13-3). -/
inductive TdiState where
  | configUnlocked
  | configLocked
  | run
  | error
  deriving DecidableEq, Repr

/-- An SPDM session of a port (15_trust_and_firmware.md R414). -/
structure Session where
  id : Nat
  /-- FINISH has completed. -/
  established : Bool
  /-- When the last message came | ns. -/
  lastMsg : Nat
  /-- Session key material; opaque to every reader (R409). -/
  secret : List Byte
  /-- The key exchange, which FINISH proves (R415). -/
  transcript : List Byte
  /-- KEY_UPDATE count. -/
  updates : Nat
  deriving DecidableEq, Repr

/-- A write the module makes to the memory of a host: data, or an MSI-X message (R377). -/
inductive HostOut where
  | data (addr : Nat) (bytes : List Byte)
  | msix (vector : Nat)
  deriving DecidableEq, Repr

/-- A host port (13_host_far_ports.md). -/
structure HostPort where
  /-- The port's link is up | 1 | 13_host_far_ports.md R382 | down -/
  linkUp : Bool := false
  /-- PERST# is held low | 1 | 13_host_far_ports.md R382 | DESIGN CHOICE released (8) -/
  perst : Bool := false
  /-- RT_NOW latch of the port | 32 when it stands | 10_rack_time_rations.md R506 | none stands -/
  rtLatch : Option (BitVec 32) := none
  /-- Shadow ring set | 64 rings | 08_warden_mailboxes.md R217 | each ring's reset values -/
  shadow : SMap RingCfg := []
  /-- Pending ring set and the time it was latched (CR_APPLY_PENDING reads whether it stands) | 64 rings | 00_scope.md R13 | none -/
  pendingSet : Option (SMap RingCfg × Nat) := none
  /-- Committed ring set | 64 rings | 00_scope.md R12 | each ring's reset values -/
  committed : SMap RingCfg := []
  /-- CR_APPLY_ERR | 1 | 18_register_maps.md R500 | 0 -/
  applyErr : Bool := false
  /-- CR_ERR_WHERE | 16 | 18_register_maps.md R500 | 0 -/
  errWhere : BitVec 16 := 0
  /-- Ring state that is not staged | 64 rings | 18_register_maps.md R500 | each ring's reset values -/
  rings : SMap Ring := []
  /-- MSI-X vectors whose mask bit in the port's table is clear | set of 2,048 | 13_host_far_ports.md R372 | PRESUMED none: every mask bit 1 (PCIe's) (37) -/
  msixOpen : List Nat := []
  /-- MSI-X table: message address in bits [63:0], message data in bits [95:64] | 2,048 x 96 | 13_host_far_ports.md R372 | PRESUMED 0 (PCIe's) (37) -/
  msixTable : SMap (BitVec 96) := []
  /-- MSI-X pending bits | set of 2,048 | 08_warden_mailboxes.md R221 | none -/
  msixPending : List Nat := []
  /-- TDI state | 2 | 13_host_far_ports.md R378 | DESIGN CHOICE CONFIG_UNLOCKED (8) -/
  tdi : TdiState := .configUnlocked
  /-- Stream bound to the TDI | 3 | 13_host_far_ports.md R377 | none -/
  tdiStream : Option (Fin 5) := none
  /-- IDE streams with keys: 0 link, 1 to 4 selective | set | 13_host_far_ports.md R376 | none -/
  ideKeys : SMap (List Byte) := []
  /-- SPDM sessions | at most 4 | 15_trust_and_firmware.md R414 | none -/
  sessions : List Session := []
  /-- How far SPDM negotiation has come: 1 version, 2 capabilities, 3 algorithms | 2 | 15_trust_and_firmware.md R414 | 0 -/
  spdmStep : Nat := 0
  /-- Writes to host memory held while the TDI is locked, oldest first | list | 13_host_far_ports.md R378 | none -/
  held : List HostOut := []
  /-- Time of the last vector-0 message | ns | 18_register_maps.md R498 | none sent -/
  v0Last : Option Nat := none
  /-- A vector-0 message is deferred | 1 | 18_register_maps.md R498 | no -/
  v0Deferred : Bool := false
  deriving DecidableEq, Repr

/-! ## Work -/

/-- Status codes (09_work_orders.md Table 09-9). -/
inductive Status where
  | coolantAbort
  | thermalAbort
  | struck
  | firmwareFault
  | securityRefused
  | vaultLost
  | memoryUncorrectable
  | pageRetired
  | linkDown
  | rejectNotOwner
  | rejectFormat
  | rejectLimit
  | rejectState
  | rejectInvalidZero
  | doneDegraded
  | doneEmptyRow
  | done
  | doneEmpty
  deriving DecidableEq, Repr

/-- How an operation or a command ended: status, detail word, result field and arithmetic flags. -/
structure Ending where
  status : Status
  detail : BitVec 32 := 0
  result : BitVec 64 := 0
  flags : BitVec 8 := 0
  deriving DecidableEq, Repr

/-- Where an operation of an order stands (09_work_orders.md R255 to R257). -/
inductive OpPhase where
  /-- Not dispatched. -/
  | waiting
  /-- Dispatched; its accesses wait at a vault (06_bank_processing.md R165). -/
  | held
  /-- Dispatched; its effect has run and it will end as told unless struck. -/
  | running (e : Ending)
  /-- A bank run whose pairs still work (06_bank_processing.md R149). -/
  | banking (e : Ending)
  /-- Completed. -/
  | completed (e : Ending)
  /-- Settled: it will never run (R256). -/
  | never
  deriving DecidableEq, Repr

/-- Bytes that an operation writes when it completes: the space of 09_work_orders.md R252 and the address in it. -/
structure LateWrite where
  space : Nat
  addr : Nat
  bytes : List Byte
  deriving DecidableEq, Repr

/-- What the operation that runs in this step has met: a vault at which it must wait, the vaults it writes, a change that
degrades it, and what it writes when it completes. -/
structure OpRun where
  stalled : Bool := false
  wrote : List Nat := []
  degraded : Bool := false
  late : List LateWrite := []
  deriving DecidableEq, Repr

/-- An operation: the descriptor as the Warden read it (R244) and where it stands. -/
structure Oper where
  desc : List Byte
  phase : OpPhase := .waiting
  /-- Pairs whose vaults it has written (R258). -/
  wrote : List Nat := []
  /-- Its results, written when it completes: a unit that a Strike stops before writes none of them (R144, R267). -/
  late : List LateWrite := []
  /-- Its unit was told to stop and has reported (R267). -/
  stopped : Bool := false
  /-- The program image of a BANK_RUN as read at admission (06_bank_processing.md R152). -/
  prog : List (BitVec 64) := []
  deriving DecidableEq, Repr

/-- A sealed slot: held in a seal gap, or presented (08_warden_mailboxes.md R212). -/
structure SealedSlot where
  ctrl : Fin 4
  slot : Nat
  seq : BitVec 15
  /-- When the seal arrived | ns. -/
  at' : Nat
  /-- The sealing controller was the owner at the seal (R229). -/
  asOwner : Bool
  /-- OWN_EPOCH at the seal (R229, R420). -/
  epoch : BitVec 32
  /-- Presented to the Warden (and not only held). -/
  presented : Bool
  /-- When it was presented | ns. -/
  presentedAt : Nat
  /-- Judged stale by the scanner (R212). -/
  stale : Bool
  /-- Struck while the reserve of untagged records was full: it waits to be taken with this status and detail (R220,
  09_work_orders.md R266). -/
  struck : Option (Status × BitVec 32) := none
  deriving DecidableEq, Repr

/-- An admitted work order (R243). -/
structure Order where
  addr : Nat
  cont : Bool
  serial : Bool
  startNs : Option (BitVec 64)
  resultOp : BitVec 16
  /-- ORDER_START has happened, or the order has no start time (R289). -/
  started : Bool
  ops : List Oper
  deriving DecidableEq, Repr

/-- An admitted command that holds a tag (R262). -/
structure Cmd where
  tag : Nat
  ctrl : Fin 4
  seq : BitVec 15
  code : BitVec 16
  ring : BitVec 16
  hostTag : BitVec 64
  readOnly : Bool
  prio : BitVec 3
  /-- Admitted as the owner's, under this OWN_EPOCH (R229, R420). -/
  asOwner : Bool
  epoch : BitVec 32
  /-- Admission number: lower was admitted earlier. -/
  adm : Nat
  /-- When the seal arrived | ns (R403). -/
  sealedAt : Nat
  order : Option Order
  /-- Struck with this status and detail (R267). -/
  struck : Option (Status × BitVec 32) := none
  /-- Sequence handles the command names, for the tag mirror (R265). -/
  handles : List Nat := []
  /-- Its record is discarded: it was sealed on a port whose TDI entered ERROR (13_host_far_ports.md R379). -/
  discard : Bool := false
  deriving DecidableEq, Repr

/-- A completion record in the completion buffer (Table 09-8b). -/
structure Rec where
  ctrl : Fin 4
  ring : BitVec 16
  /-- Tag held until the record is written; none for untagged records (R220). -/
  tag : Option Nat
  hostTag : BitVec 64
  status : Status
  opsDone : BitVec 16
  detail : BitVec 32
  time : BitVec 64
  result : BitVec 64
  /-- Work admitted as the owner's (R232: records of read-only commands and of slots never admitted are not adopted). -/
  adoptable : Bool
  /-- The controller and ring named at admission (R232). -/
  bound : Fin 4 × BitVec 16
  /-- Written by the hardware paths of Strike, ownership and intake, outside the Rations (10_rack_time_rations.md R286). -/
  hardware : Bool
  deriving DecidableEq, Repr

/-- A ring adoption in force (R232). -/
structure Adoption where
  srcCtrl : Fin 4
  srcRing : BitVec 16
  dstCtrl : Fin 4
  dstRing : BitVec 16
  /-- Only work admitted before this number was admitted by the former owner. -/
  before : Nat
  deriving DecidableEq, Repr

/-- Effects that wait for the next ration-period boundary (00_scope.md R507). -/
inductive Effect where
  | vestibule (kib : Nat)
  | window (w : Nat) (enable : Bool) (tower first count base size : Nat)
  | retireBlock (pair block : Nat)
  | retireBank (pair bank : Nat)
  | unretireBlock (pair block : Nat)
  | coolant (pg25 : Bool) (flow : Nat)
  | grant (index : Nat) (rights : BitVec 8) (node : BitVec 16) (base size : Nat)
  deriving DecidableEq, Repr

/-- A command whose effect and record wait for a boundary. -/
structure Deferred where
  tag : Nat
  effect : Effect
  /-- When it was accepted | ns; the boundary must fall strictly after it (R507). -/
  accepted : Nat
  deriving DecidableEq, Repr

/-- A strike being carried out by the strike sequencer (R265 to R269). -/
structure StrikeJob where
  /-- Tags struck by it. -/
  tags : List Nat
  /-- Slots struck before they were taken. -/
  slotCount : Nat
  /-- The Strike's own command tag; none for an abort or a reset. -/
  own : Option Nat
  deriving DecidableEq, Repr

/-- One interrupt controller (08_warden_mailboxes.md, 18_register_maps.md Table 18-6). -/
structure Ic where
  /-- IC_PENDING0 to IC_PENDING7, as the set of pending sources | 256 | 18_register_maps.md R503 | 0 -/
  pending : List Nat := []
  /-- IC_WAKE_MASK0 to 7 beside the forced sources, as a set | 256 | 18_register_maps.md R503 | forced bits only -/
  wakeMask : List Nat := []
  /-- IC_CORE_EN | 8 | 18_register_maps.md R503 | 0 -/
  coreEn : BitVec 8 := 0
  /-- IC_CORE_AWAKE | 8 | 18_register_maps.md R503 | 0 -/
  coreAwake : BitVec 8 := 0
  /-- Cores that accept interrupts | 8 | 08_warden_mailboxes.md R236 | DESIGN CHOICE 0 (8) -/
  accepting : BitVec 8 := 0
  /-- IC_RR_NEXT | 3 | 18_register_maps.md R503 | 0 -/
  rrNext : Fin 8 := 0
  /-- IC_FAST_CORE | 3 | 18_register_maps.md R503 | 0 -/
  fastCore : Fin 8 := 0
  /-- IC_WAKE_COUNT | 32 | 18_register_maps.md R503 | 0 -/
  wakeCount : BitVec 32 := 0
  /-- The source each core took last | 8 entries | 08_warden_mailboxes.md R235 | none -/
  handling : SMap Nat := []
  deriving DecidableEq, Repr

/-- The heartbeat watchdog of one cluster (16_faults_blast_radius.md R448). -/
structure Wdog where
  /-- Time of the last heartbeat | ns | 16_faults_blast_radius.md R448 | 0 -/
  lastBeat : Nat := 0
  /-- WD_PERIOD in force, set at a heartbeat | ms | 16_faults_blast_radius.md R453 | 200 -/
  periodMs : Nat := 200
  /-- WDOG_WARN has asserted for this silence | 1 | 16_faults_blast_radius.md R448 | no -/
  warned : Bool := false
  /-- The cluster is held in a watchdog reset | 1 | 16_faults_blast_radius.md R448 | no -/
  inReset : Bool := false
  /-- Times of its watchdog resets | list | 16_faults_blast_radius.md R449 | none -/
  resets : List Nat := []
  deriving DecidableEq, Repr

/-- The Warden: tags, completion buffer and interrupt controllers. -/
structure Warden where
  /-- Tag table: admitted commands not yet recorded | 4,096 | 09_work_orders.md R262 | empty -/
  tags : List Cmd := []
  /-- Next admission number | count | 09_work_orders.md R261 | 0 -/
  nextAdm : Nat := 0
  /-- Completion buffer in completion order | 4,096 and 1,024 untagged | 08_warden_mailboxes.md R219 | empty -/
  records : List Rec := []
  /-- Sealed slots, held or presented, in order | per device | 08_warden_mailboxes.md R212 | none -/
  sealed : List SealedSlot := []
  /-- Effects that wait for a boundary | list | 00_scope.md R507 | none -/
  deferred : List Deferred := []
  /-- Ring adoptions | list | 08_warden_mailboxes.md R232 | none -/
  adoptions : List Adoption := []
  /-- Strike jobs | list | 09_work_orders.md R267 | none -/
  strikes : List StrikeJob := []
  /-- Interrupt controllers of W and E | 2 | 08_warden_mailboxes.md R235 | each one's reset values -/
  ics : SMap Ic := []
  /-- Heartbeat watchdogs of W and E | 2 | 16_faults_blast_radius.md R448 | each one's reset values -/
  wdogs : SMap Wdog := []
  /-- BMC FIFO of delivered records | 16 | 08_warden_mailboxes.md R222 | empty -/
  bmcFifo : List Rec := []
  deriving DecidableEq, Repr

/-! ## Rack time, Rations and power slots -/

/-- Rations block (10_rack_time_rations.md Table 10-4). -/
structure Rations where
  /-- Shadow set | set | 00_scope.md R11 | reset values of Table 10-4 -/
  shadow : RationSet := {}
  /-- Pending set and its latch time in ns (RATION_APPLY_PENDING reads whether it stands) | set | 00_scope.md R13 | none -/
  pendingSet : Option (RationSet × Nat) := none
  /-- Committed set | set | 00_scope.md R12 | reset values of Table 10-4 -/
  committed : RationSet := {}
  /-- RATION_APPLY_ERR | 1 | 10_rack_time_rations.md R287 | 0 -/
  applyErr : Bool := false
  /-- RATION_ERR_WHERE | 16 | 10_rack_time_rations.md R287 | 0 -/
  errWhere : BitVec 16 := 0
  deriving DecidableEq, Repr

/-- RT_STATE (Table 10-1). -/
inductive RtState where
  | free
  | locking
  | locked
  | holdover
  deriving DecidableEq, Repr

/-- RT_SOURCE (Table 10-5). -/
inductive RtSource where
  | none
  | input
  | beacons
  deriving DecidableEq, Repr

/-- The rack-time block and what disciplines it (10_rack_time_rations.md). -/
structure RackTime where
  /-- The count runs (the Lantern started it at stage 2) | 1 | 10_rack_time_rations.md R272 | no -/
  running : Bool := false
  /-- RT_NOW | 64 | 10_rack_time_rations.md R272 | 0 -/
  now : BitVec 64 := 0
  /-- RT_STATE | 2 | 10_rack_time_rations.md R273 | 0 -/
  state : RtState := .free
  /-- RT_SOURCE | 2 | 10_rack_time_rations.md R273 | 0 -/
  source : RtSource := .none
  /-- RT_FREQ_PPB, signed | 32 | 10_rack_time_rations.md Table 10-5 | 0 -/
  freqPpb : BitVec 32 := 0
  /-- RT_STEPS | 32 | 10_rack_time_rations.md R277 | 0 -/
  steps : BitVec 32 := 0
  /-- RT_LAST_STEP_NS, signed | 64 | 10_rack_time_rations.md R277 | 0 -/
  lastStep : BitVec 64 := 0
  /-- RT_BEACON_PORT | 5 | 10_rack_time_rations.md Table 10-5 | 0x1F -/
  beaconPort : BitVec 5 := 0x1F
  /-- RT_BEACON_HOPS | 6 | 10_rack_time_rations.md Table 10-5 | 0 -/
  beaconHops : BitVec 6 := 0
  /-- PS_FALLBACK | 1 | 10_rack_time_rations.md R293 | 0 -/
  psFallback : Bool := false
  /-- The device has locked since pitch | 1 | 10_rack_time_rations.md R277 | no -/
  everLocked : Bool := false
  /-- A step waits for the next boundary: signed ns | 64 | 10_rack_time_rations.md R277 | none -/
  stepPending : Option Int := none
  /-- The transition period of a step: its start and the boundary that ends it | 2 x 64 | 10_rack_time_rations.md R277 | none -/
  nextBoundary : Option (BitVec 64 × BitVec 64) := none
  /-- Error still to be slewed off, signed ns | 64 | 10_rack_time_rations.md R277 | 0 -/
  slew : Int := 0
  /-- TC_SECONDS to apply at the next PPS edge | 64 | 10_rack_time_rations.md R274 | none -/
  tcSeconds : Option (BitVec 64) := none
  /-- Seconds count of the input once known, and the time of the edge it names | 64 | 10_rack_time_rations.md R275 | unknown -/
  seconds : Option (Nat × Nat) := none
  /-- Time of the last PPS edge | ns | 10_rack_time_rations.md R273 | none -/
  lastPps : Option Nat := none
  /-- Consecutive PPS edges a second apart | count | 10_rack_time_rations.md Table 10-2 | 0 -/
  ppsRun : Nat := 0
  /-- The input is locked | 1 | 10_rack_time_rations.md R273 | no -/
  inputLocked : Bool := false
  /-- Input minus local count at the last edge | ns | 10_rack_time_rations.md R278 | 0 -/
  inputError : Int := 0
  /-- Consecutive agreeing beacons | count | 10_rack_time_rations.md Table 10-2 | 0 -/
  beaconRun : Nat := 0
  /-- Beacons are locked | 1 | 10_rack_time_rations.md R273 | no -/
  beaconsLocked : Bool := false
  /-- Beacon time minus local count at the last beacon | ns | 10_rack_time_rations.md R278 | 0 -/
  beaconError : Int := 0
  /-- Arrival of the last beacon | ns | 10_rack_time_rations.md R273 | none -/
  lastBeacon : Option Nat := none
  /-- Last beacon sequence number forwarded | 32 | 12_silman_and_seam.md R347 | none -/
  beaconSeq : Option (BitVec 32) := none
  /-- Sequence number of the beacons this node emits | 32 | 12_silman_and_seam.md R347 | DESIGN CHOICE 0 (8) -/
  emitSeq : BitVec 32 := 0
  /-- Rack time of the last emitted beacon | 64 | 12_silman_and_seam.md R347 | none -/
  lastEmit : Option (BitVec 64) := none
  /-- Arrival of the last beacon of a lower node ID at an emitter | ns | 12_silman_and_seam.md R348 | none -/
  lowerRoot : Option Nat := none
  /-- This node emits beacons | 1 | 12_silman_and_seam.md R348 | no -/
  emitting : Bool := false
  /-- When the source was lost, RT_ERR_BOUND_NS then, and whether it had been locked 10 min; RT_ERR_BOUND_NS follows from it, RT_STATE, RT_SOURCE and RT_BEACON_HOPS, and reads 0xFFFF_FFFF at reset | ns | 10_rack_time_rations.md R276 | none -/
  lossAt : Option (Nat × Nat × Bool) := none
  /-- When the present lock began | ns | 10_rack_time_rations.md R276 | none -/
  lockedAt : Option Nat := none
  /-- A TIME_CONFLICT stands | 1 | 10_rack_time_rations.md R278 | no -/
  conflict : Bool := false
  /-- Rack time of the last ration-period boundary processed | 64 | 10_rack_time_rations.md R280 | none -/
  lastBoundary : Option (BitVec 64) := none
  /-- Boundaries since pitch | count | 10_rack_time_rations.md R280 | 0 -/
  boundaries : Nat := 0
  deriving DecidableEq, Repr

/-- A power-slot schedule (10_rack_time_rations.md R290). -/
structure PowerSched where
  frameLog2 : Nat
  rampW : BitVec 16
  guardNs : BitVec 32
  /-- PS_START in periods, and PS_CEILING_W, of each slot. -/
  slots : List (BitVec 32 × BitVec 16)
  deriving DecidableEq, Repr

/-- Power slots and ceilings. -/
structure Power where
  /-- Schedule in force | record | 10_rack_time_rations.md R290 | none -/
  sched : Option PowerSched := none
  /-- Accepted schedule waiting for its frame boundary: the schedule or its removal, tag, and acceptance | record | 10_rack_time_rations.md R290 | none -/
  next : Option (Option PowerSched × Nat × Nat) := none
  /-- PS_SLOT_NOW | 5 | 10_rack_time_rations.md Table 10-5 | 0x1F -/
  slotNow : BitVec 5 := 0x1F
  /-- PS_CEILING_NOW_W where it differs from the limit | 16 | 10_rack_time_rations.md R291 | limit -/
  ceiling : Option Nat := none
  /-- PS_INPUT_W | 16 | 10_rack_time_rations.md Table 10-5 | 0 -/
  inputW : BitVec 16 := 0
  /-- When the input power was last taken | ns | 10_rack_time_rations.md R291 | 0 -/
  readAt : Nat := 0
  /-- Pause step of the power governor, in eighths | 3 | 10_rack_time_rations.md R292 | 0 -/
  pause : Nat := 0
  /-- The power governor delays dispatch | 1 | 10_rack_time_rations.md R292 | no -/
  hold : Bool := false
  /-- Input power has exceeded 25 % of the limit since | ns | 11_heat_path.md R314 | no -/
  above25Since : Option Nat := none
  deriving DecidableEq, Repr

/-! ## Heat -/

/-- Level of a point (11_heat_path.md R304). -/
inductive Level where
  | normal
  | warning
  | throttle
  | shutdown
  deriving DecidableEq, Repr

/-- One sensor: its last reading and whether it is demoted (11_heat_path.md R295). -/
structure Sensor where
  /-- Last reading, 1/16 °C | 16 | 11_heat_path.md R324 | no reading -/
  reading : Option Int := none
  /-- Readings of the last 10 ms, newest first | list | 11_heat_path.md R297 | none -/
  recent : List Int := []
  /-- Demoted automatically until restored or the next cold pitch | 1 | 11_heat_path.md R297 | no -/
  autoDemoted : Bool := false
  deriving DecidableEq, Repr

/-- Rainflow state of one tower (11_heat_path.md R320). -/
structure Wear where
  /-- Reversals not yet closed, newest first, in 1/16 °C | list | 11_heat_path.md R320 | none -/
  stack : List Int := []
  /-- Full-swing equivalents (TH_WEAR reads the integer part) | rational | 11_heat_path.md R321 | DESIGN CHOICE 0, from flash (9) -/
  count : Rat := 0
  /-- Count as persisted | rational | 11_heat_path.md R321 | DESIGN CHOICE 0, from flash (9) -/
  persisted : Rat := 0
  deriving DecidableEq, Repr

/-- A shutdown: its payload (Table 11-9), its time and how far Table 11-8 has run. -/
structure Shutdown where
  /-- SD_CAUSE | 8 | 11_heat_path.md R311 | no shutdown -/
  cause : Nat
  estimated : Bool
  /-- SD_FLAGS bit 1: demoted sensors in the tower | 1 | 11_heat_path.md R311 | no shutdown -/
  demoted : Bool
  tower : Nat
  layer : Nat
  site : Nat
  /-- SD_TEMP, 1/16 °C | 16 | 11_heat_path.md R311 | no shutdown -/
  temp : Int
  /-- When the confirming sample came | ns | 11_heat_path.md R310 | no shutdown -/
  at' : Nat
  /-- SD_FLAGS bit 2: cleared | 1 | 11_heat_path.md R312 | no shutdown -/
  cleared : Bool
  /-- SD_STRUCK | 32 | 11_heat_path.md R311 | no shutdown -/
  struck : Nat
  /-- Its record has reached flash (step 3) | 1 | 11_heat_path.md R310 | no shutdown -/
  written : Bool
  /-- EV_SEQ of its record. -/
  evSeq : BitVec 32
  deriving DecidableEq, Repr

/-- The thermal block and the protection behind it (11_heat_path.md Table 11-13). -/
structure Thermal where
  /-- Sensors, by 2 x point + sensor | 16 towers x 276 sites... x 2 | 11_heat_path.md R295 | each sensor's reset values -/
  sensors : SMap Sensor := []
  /-- Estimates of points | rational °C | 11_heat_path.md R302 | none yet -/
  estimates : SMap Rat := []
  /-- d[c] of DRAM points | rational K | 11_heat_path.md R302 | 0 -/
  d : SMap Rat := []
  /-- Energy accounts of clusters over the last 64 periods | rational W | 11_heat_path.md R301 | 0 -/
  energy : SMap Rat := []
  /-- SW_FLOOR_W | 7 | 11_heat_path.md R322 | 0 -/
  swingFloor : Nat := 0
  /-- Levels of points | 2 | 11_heat_path.md R304 | normal -/
  levels : SMap Level := []
  /-- Pause steps of units: the pair p at 2 p, its core at 2 p + 1 | 3 | 11_heat_path.md R308 | 0 -/
  pauses : SMap Nat := []
  /-- Towers paused by TH_BLIND | set | 11_heat_path.md R300 | none -/
  blind : List Nat := []
  /-- Points whose sensors disagree by more than 6 K, since when, and whether that was counted | map | 11_heat_path.md R298 | none -/
  disagree : SMap (Nat × Bool) := []
  /-- SENSOR_DISAGREE | 1 | 11_heat_path.md R298 | 0 -/
  sensorDisagree : Bool := false
  /-- When no site last disagreed began | ns | 11_heat_path.md R298 | none -/
  agreeSince : Option Nat := none
  /-- TH_DISAGREE_COUNT | 32 saturating | 11_heat_path.md R298 | 0 -/
  disagreeCount : Nat := 0
  /-- TH_LEVEL_MAX | 2 | 11_heat_path.md R325 | 0 -/
  levelMax : Level := .normal
  /-- Tray inlet, 1/16 °C; none while implausible | 16 | 11_heat_path.md R314 | implausible -/
  inlet : Option Int := none
  /-- Tray outlet, 1/16 °C; none while implausible | 16 | 11_heat_path.md R314 | implausible -/
  outlet : Option Int := none
  /-- Flow, mL/min; none while implausible | 16 | 11_heat_path.md R314 | implausible -/
  flow : Option Nat := none
  /-- Flow readings of the last second, newest first, with their times | list | 11_heat_path.md R315 | none -/
  flows : List (Nat × Nat) := []
  /-- Inlet readings of the last 10 s, newest first, with their times | list | 11_heat_path.md R318 | none -/
  inlets : List (Nat × Int) := []
  /-- Polls in a row without a valid reply | count | 11_heat_path.md R313 | 0 -/
  missed : Nat := 0
  /-- Polls in a row with inlet above 50 °C | count | 11_heat_path.md R317 | 0 -/
  hotInlet : Nat := 0
  /-- Polls in a row with outlet above 65 °C | count | 11_heat_path.md R317 | 0 -/
  hotOutlet : Nat := 0
  /-- CL_LEVEL | 2 | 11_heat_path.md R325 | 0 -/
  clLevel : BitVec 2 := 0
  /-- COOLANT_SENSOR | 1 | 11_heat_path.md R314 | 0 -/
  coolantSensor : Bool := false
  /-- TH_INLET_HIGH | 1 | 11_heat_path.md R318 | 0 -/
  inletHigh : Bool := false
  /-- Core clock in force, in tenths of a MHz; none is GEO_CLOCK_MHZ (TH_CLOCK_NOW_MHZ) | 16 | 11_heat_path.md R318 | GEO_CLOCK_MHZ -/
  clock : Option Nat := none
  /-- TH_CEILING_W where a coolant ceiling applies | 16 | 11_heat_path.md R319 | GEO_POWER_LIMIT_W -/
  ceiling : Option Nat := none
  /-- Wear of towers | 16 | 11_heat_path.md R320 | each tower's reset values -/
  wear : SMap Wear := []
  /-- WEAR_WARN | 1 | 11_heat_path.md R321 | 0 -/
  wearWarn : Bool := false
  /-- Time of the last persisted wear | ns | 11_heat_path.md R321 | 0 -/
  wearAt : Nat := 0
  /-- Times of the last poll by each Lantern | ns | 17_module_electrical.md R482 | none -/
  lastPoll : SMap Nat := []
  /-- Times at which each Lantern's poll lost arbitration | ns | 17_module_electrical.md R482 | none -/
  lostPoll : SMap Nat := []
  /-- A shutdown has dropped the compute and memory rails since the last pitch | 1 | 11_heat_path.md R310 | no -/
  dropped : Bool := false
  /-- Time of the last throttle step | ns | 11_heat_path.md R308 | 0 -/
  lastThrottle : Nat := 0
  /-- Time of the last sample | ns | 11_heat_path.md R295 | 0 -/
  lastSample : Nat := 0
  /-- Times of the last swing samples by tower | ns | 11_heat_path.md R320 | 0 -/
  lastSwing : SMap Nat := []
  /-- Boundary count at each tower's last estimator update | count | 11_heat_path.md R302 | 0 -/
  lastEstimate : SMap Nat := []
  /-- When the estimates of each tower last changed | ns | 00_scope.md R507 | none -/
  estimatedAt : SMap Nat := []
  /-- The latched shutdown | record | 11_heat_path.md R312 | none -/
  latch : Option Shutdown := none
  deriving DecidableEq, Repr

/-! ## Vaults, caches, banks -/

/-- The symbols 0 to 35 in error of a vault code word, and whether it is poison (07_vaults_and_protection.md R184 to R187,
R195). -/
structure CellState where
  /-- Symbols that err until the word is rewritten. -/
  soft : List Nat := []
  /-- Symbols that err again after a rewrite. -/
  hard : List Nat := []
  /-- Symbols that err at the next read only. -/
  once : List Nat := []
  poison : Bool := false
  deriving DecidableEq, Repr

/-- A merge-buffer entry (R188). -/
structure MergeEntry where
  /-- Code-word index within the vault: offset / 32. -/
  word : Nat
  /-- Byte mask and bytes: the written bytes by position 0 to 31. -/
  bytes : Mem
  /-- When it was last written | ns. -/
  writtenAt : Nat
  /-- Tags and operations whose writes it holds. -/
  owners : List (Nat × Nat)
  /-- Bit i: byte i is held. -/
  mask : BitVec 32
  deriving DecidableEq, Repr

/-- An ordinary access held by the controller (06_bank_processing.md R165, 07_vaults_and_protection.md R183). -/
structure Held where
  write : Bool
  offset : Nat
  len : Nat
  data : List Byte
  cls : Fin 3
  /-- Arrival | ns. -/
  arrived : Nat
  /-- Where it was promoted into its class last | ns. -/
  classSince : Nat
  /-- It is a near access of the vault's own core. -/
  near : Bool
  /-- The pair of the core that asks. -/
  core : Nat
  /-- The host port that asks in its place (13_host_far_ports.md R374). -/
  port : Option (Fin 2) := none
  deriving DecidableEq, Repr

/-- A bank unit (06_bank_processing.md Table 06-1); W-format lanes as 39-bit values. -/
structure BankUnit where
  /-- BR0 to BR7 | 8 x 256 | 06_bank_processing.md R145 | 0 -/
  br : SMap (BitVec 256) := []
  /-- ACC lanes 0 to 255 | 256 x 39 | 06_bank_processing.md R145 | +0 -/
  acc : SMap (BitVec 39) := []
  /-- S0 to S3 | 4 x 39 | 06_bank_processing.md R145 | +0 -/
  s : SMap (BitVec 39) := []
  /-- CNT | 32 | 06_bank_processing.md R145 | 0 -/
  cnt : BitVec 32 := 0
  /-- P0 to P3 | 4 x 19 | 06_bank_processing.md R145 | 0 -/
  p : SMap (BitVec 19) := []
  /-- Flags | 7 | 06_bank_processing.md R145 | 0 -/
  flags : BitVec 8 := 0
  /-- Generator | 32 | 06_bank_processing.md R157 | DESIGN CHOICE 0 (8) -/
  gen : BitVec 32 := 0
  /-- MX blocks read since the last LD into BR7 | count | 06_bank_processing.md R158 | 0 -/
  mxBlocks : Nat := 0
  /-- Column cycles of this bank in the running sequence | count | 06_bank_processing.md R155 | 0 -/
  cycles : Nat := 0
  /-- Row open for the bank unit | 14 | 11_heat_path.md R301 | none -/
  openRow : Option Nat := none
  deriving DecidableEq, Repr

/-- An open loop: its first instruction, its iteration index and its count per bank (R155). -/
structure LoopSt where
  body : Nat
  index : Nat
  /-- Iterations run: the largest count of the enabled banks. -/
  total : Nat
  /-- Count source: none from BI_COUNT, or the parameter word. -/
  param : Option Nat
  deriving DecidableEq, Repr

/-- A bank sequence received by a vault (R148), with what BANK_RUN names. -/
structure SeqReq where
  /-- Admission number of its work order. -/
  ord : Nat
  tag : Nat
  op : Nat
  prog : List (BitVec 64)
  keep : Bool
  paramBase : Nat
  maskBase : Nat
  vecBase : Nat
  vecFmt : BitVec 8
  vecLen : Nat
  tau : BitVec 32
  offset : BitVec 32
  scaleS : BitVec 32
  scaleA : BitVec 32
  conv : BitVec 8
  seed : BitVec 32
  outBase : Nat
  deriving DecidableEq, Repr

/-- The sequence state in the vault controller (Table 06-2). -/
structure SeqSt where
  req : SeqReq
  /-- Index of the next instruction | 8 | 06_bank_processing.md R148 | no sequence -/
  pc : Nat
  /-- Program store | 256 x 64 | 06_bank_processing.md Table 06-2 | no sequence -/
  prog : List (BitVec 64)
  /-- Broadcast buffer | 256 x 39 | 06_bank_processing.md Table 06-2 | +0 -/
  bcast : SMap (BitVec 39)
  /-- Parameter table: word k of bank b at 8 b + k | 128 x 8 x 32 | 06_bank_processing.md Table 06-2 | 0 -/
  params : SMap (BitVec 32)
  /-- Mask buffer: byte i of bank b at 256 b + i | 128 x 256 B | 06_bank_processing.md Table 06-2 | 0 -/
  masks : Mem
  /-- Loop counters, innermost first | 2 | 06_bank_processing.md Table 06-2 | no loop -/
  loops : List LoopSt
  /-- Previous instruction but class C was of class M (R154). -/
  afterM : Bool
  /-- A RISE ran in narrow mode, or wrote a retired bank's slot (R167). -/
  degraded : Bool
  /-- Records of the running RISE already sent (R161). -/
  rise : Nat := 0
  deriving DecidableEq, Repr

/-- A vertical-channel or cache-bundle group (07_vaults_and_protection.md R201). -/
structure Group where
  /-- Spares switched in | 3 | 07_vaults_and_protection.md R201 | 0 -/
  used : Nat := 0
  /-- Out of spares with a failing connection | 1 | 07_vaults_and_protection.md R201 | no -/
  exhausted : Bool := false
  deriving DecidableEq, Repr

/-- One vault and its controller. -/
structure Vault where
  /-- Valid bits, as the set of written 4 KiB blocks | 294,912 | 07_vaults_and_protection.md R190 | 0 -/
  valid : List Nat := []
  /-- Valid-map words of 64 blocks that read uncorrectable | set of 4,608 | 07_vaults_and_protection.md R194 | none -/
  mapBad : List Nat := []
  /-- Code words with symbols in error, or poison, by code-word index | map | 07_vaults_and_protection.md R184 | none -/
  cells : SMap CellState := []
  /-- Merge buffer, oldest first | 16 entries | 07_vaults_and_protection.md R188 | empty -/
  merge : List MergeEntry := []
  /-- Processor mode | 1 | 06_bank_processing.md R146 | memory mode -/
  processor : Bool := false
  /-- Sequences received and not loaded, in order | queue | 06_bank_processing.md R148 | empty -/
  queue : List SeqReq := []
  /-- The loaded sequence | record | 06_bank_processing.md Table 06-2 | none -/
  seq : Option SeqSt := none
  /-- Tag of the work order whose sequence last ran | 12 | 06_bank_processing.md R145 | none -/
  lastTag : Option Nat := none
  /-- Mask buffer as the last sequence left it | 128 x 256 B | 06_bank_processing.md R145 | 0 -/
  lastMasks : Mem := []
  /-- When the loaded sequence was loaded | ns | 10_rack_time_rations.md R283 | 0 -/
  loadedAt : Nat := 0
  /-- Energy account per bank of this period, pJ | 128 | 06_bank_processing.md R169 | 0 -/
  energy : SMap Rat := []
  /-- Bank units | 128 | 06_bank_processing.md Table 06-1 | each unit's reset values -/
  units : SMap BankUnit := []
  /-- Read holding queue, in arrival order | 64 entries | 06_bank_processing.md R165 | empty -/
  held : List Held := []
  /-- Accesses held back at their ports while the queue is full, in order of offer | list | 06_bank_processing.md R165 | none -/
  back : List Held := []
  /-- When held accesses, a sortie or a pause last left the vault free for a sortie | ns | 10_rack_time_rations.md R283 | none -/
  freedAt : Option Nat := none
  /-- Class-2 time spent in this period, in 1/48 ns | count | 10_rack_time_rations.md R281 | 0 -/
  swapSpent : Nat := 0
  /-- A sortie runs: when it began and how long instructions ran before a pause | ns | 06_bank_processing.md R163 | none -/
  sortie : Option Nat := none
  /-- Instruction time of the running sortie | ns/2 | 06_bank_processing.md R163 | 0 -/
  sortieSpent : Nat := 0
  /-- Sorties begun in this period | count | 10_rack_time_rations.md R283 | 0 -/
  sorties : Nat := 0
  /-- A refresh or scrub slot pauses the sortie until | ns | 06_bank_processing.md R164 | none -/
  slotUntil : Option Nat := none
  /-- Bank-sequence time spent in this period | ns/2 | 10_rack_time_rations.md R283 | 0 -/
  bsSpent : Nat := 0
  /-- Channel groups 0 to 37 and cache-bundle groups 64 to 79 | 54 | 07_vaults_and_protection.md R201 | each group's reset values -/
  groups : SMap Group := []
  /-- PAIR_NARROW: narrow mode, and which half survives | 2 | 07_vaults_and_protection.md R202 | full width -/
  narrow : Option Bool := none
  /-- The channel is paused for a switch until | ns | 07_vaults_and_protection.md R201 | no -/
  pausedUntil : Option Nat := none
  /-- Canary doubling and halving in force, and since the last failure | ns | 07_vaults_and_protection.md R197 | none -/
  canaryAt : Option Nat := none
  /-- A canary failure whose effects wait for the next boundary: when it came | ns | 07_vaults_and_protection.md R197 | none -/
  canaryFrom : Option Nat := none
  /-- The canary doubling and halving are in force (from the boundary) | 1 | 07_vaults_and_protection.md R197 | no -/
  halved : Bool := false
  /-- Doubled refresh for temperature in force | 1 | 11_heat_path.md R306 | no -/
  refreshX2 : Bool := false
  /-- Next row to refresh | 14 | 10_rack_time_rations.md R282 | DESIGN CHOICE 0 (8) -/
  refreshRow : Nat := 0
  /-- When each canary row 0 to 3 of the banks was last read and compared | 4 x ns | 07_vaults_and_protection.md R196 | 0 -/
  canaryRead : SMap Nat := []
  /-- Next code word the scrub patrol reads | 26 | 07_vaults_and_protection.md R195 | DESIGN CHOICE 0 (8) -/
  scrubAt : Nat := 0
  /-- When the scrub pass began | ns | 07_vaults_and_protection.md R195 | 0 -/
  passStart : Nat := 0
  /-- SCRUB_LATE entries written for this pass | count | 07_vaults_and_protection.md R195 | 0 -/
  lateCount : Nat := 0
  deriving DecidableEq, Repr

/-- A tower-cache line (07_vaults_and_protection.md R178). -/
structure Line where
  /-- Module address / 128. -/
  line : Nat
  /-- Its 128 bytes. -/
  data : List Byte
  /-- Bytes written since it was filled, by position; the line is dirty when any is. -/
  dirty : List Nat
  deriving DecidableEq, Repr

/-- A tower-cache slice: 24,576 sets of 16 lines. -/
structure Slice where
  /-- Lines held | at most 393,216 | 07_vaults_and_protection.md R178 | none -/
  lines : List Line := []
  /-- Out of service | 1 | 07_vaults_and_protection.md R180 | in service -/
  failed : Bool := false
  /-- Lines whose SRAM reads uncorrectable | set of lines | 07_vaults_and_protection.md R180 | none -/
  bad : List Nat := []
  deriving DecidableEq, Repr

/-- An interleaved window (07_vaults_and_protection.md Table 07-3). -/
structure Window where
  /-- IW_ENABLE | 1 | 07_vaults_and_protection.md R175 | 0 -/
  enable : Bool := false
  /-- IW_TOWER | 4 | 07_vaults_and_protection.md R174 | DESIGN CHOICE 0 (8) -/
  tower : Nat := 0
  /-- IW_VAULT_FIRST | 6 | 07_vaults_and_protection.md R174 | DESIGN CHOICE 0 (8) -/
  first : Nat := 0
  /-- IW_VAULT_COUNT | 7 | 07_vaults_and_protection.md R174 | DESIGN CHOICE 0 (8) -/
  count : Nat := 0
  /-- IW_BASE | 32 | 07_vaults_and_protection.md R174 | DESIGN CHOICE 0 (8) -/
  base : Nat := 0
  /-- IW_SIZE | 32 | 07_vaults_and_protection.md R174 | DESIGN CHOICE 0 (8) -/
  size : Nat := 0
  deriving DecidableEq, Repr

/-- A memory error-log entry (07_vaults_and_protection.md Table 07-7). -/
structure LogEntry where
  time : BitVec 64
  pair : Nat
  overflow : Bool
  bank : Nat
  kind : Nat
  row : Nat
  column : Nat
  symbol : Nat
  count : Nat
  source : Nat
  group : Nat
  seq : BitVec 16
  addr : Nat
  deriving DecidableEq, Repr

/-- The vaults' shared state: memory, windows, log. -/
structure Memory where
  /-- Module memory, by module address; an unlisted byte reads 0 | 1,152 GiB | 07_vaults_and_protection.md R190 | zeros, all valid bits clear -/
  bytes : Mem := []
  /-- Vaults by logical pair | 1,024 | 07_vaults_and_protection.md R170 | each vault's reset values -/
  vaults : SMap Vault := []
  /-- Tower-cache slices | 16 | 07_vaults_and_protection.md R178 | each slice's reset values -/
  slices : SMap Slice := []
  /-- Windows 0 to 15 | 16 | 07_vaults_and_protection.md R174 | each window's reset values -/
  windows : SMap Window := []
  /-- Fill mode | 1 | 07_vaults_and_protection.md R193 | no -/
  fillMode : Bool := false
  /-- Memory error log, oldest first | 16,384 entries of 32 B | 07_vaults_and_protection.md R198 | empty -/
  log : List LogEntry := []
  /-- Next MEL_SEQ | 16 | 07_vaults_and_protection.md R198 | DESIGN CHOICE 0 (8) -/
  logSeq : BitVec 16 := 0
  /-- When READY came, at which every scrub pass begins | ns | 07_vaults_and_protection.md R195 | 0 -/
  scrubFrom : Nat := 0
  /-- Retirement lists in module flash | 65,536 blocks | 07_vaults_and_protection.md R199 | DESIGN CHOICE empty, from flash (9) -/
  retired : List Retired := []
  /-- Banks to be released at the next pitch | list | 07_vaults_and_protection.md R200 | none -/
  releasing : List Retired := []
  /-- Host memory of H-W, H-E, as the ports reach it | 2^64 B each | 09_work_orders.md R252 | DESIGN CHOICE unlisted bytes read 0 (6) -/
  hostW : Mem := []
  hostE : Mem := []
  deriving DecidableEq, Repr

/-- The far-tier port and device (13_host_far_ports.md). -/
structure FarTier where
  /-- Plaintext of written units by far-tier offset | up to 16 TiB | 13_host_far_ports.md R385 | zeros, all written bits clear -/
  bytes : Mem := []
  /-- Written bits, as the set of 1 MiB blocks | 2^24 | 13_host_far_ports.md R387 | 0 -/
  written : List Nat := []
  /-- FT_COUNT of units | 56 each | 13_host_far_ports.md R386 | 0 -/
  counts : SMap Nat := []
  /-- Blocks whose initialisation is not yet acknowledged, with the tag and operation that wrote first | list | 13_host_far_ports.md R387 | none -/
  initialising : List (Nat × Nat × Nat) := []
  /-- Units whose tag will fail | set | 13_host_far_ports.md R388 | none -/
  tagBad : List Nat := []
  /-- Units the device returns poisoned | set | 13_host_far_ports.md R388 | none -/
  poisoned : List Nat := []
  /-- The link to the device is up | 1 | 13_host_far_ports.md R388 | down -/
  linkUp : Bool := false
  /-- PERST_N driven low by the module in the far-tier role | 1 | 17_module_electrical.md R467 | DESIGN CHOICE low (8) -/
  perstLow : Bool := true
  /-- REFCLK driven in the far-tier role | 1 | 17_module_electrical.md R467 | no -/
  refclk : Bool := false
  /-- Far-tier key drawn this pitch, by its number among the draws; the key itself no reader sees | count | 13_host_far_ports.md R386 | none -/
  key : Option Nat := none
  deriving DecidableEq, Repr

/-! ## Cores -/

/-- An accumulator tile (03_cores_and_arrays.md R63): FP32 element m, n at 64 m + n. -/
structure Tile where
  /-- Tag of the work order that last wrote it | 12 | 03_cores_and_arrays.md R63 | none -/
  tag : Option Nat := none
  /-- 64 x 64 FP32 elements | 131,072 | 03_cores_and_arrays.md R60 | +0 -/
  cells : SMap (BitVec 32) := []
  /-- A parity error stands | 1 | 03_cores_and_arrays.md R68 | no -/
  parityBad : Bool := false
  deriving DecidableEq, Repr

/-- The panel a weight buffer holds (R62, R76). -/
structure Panel where
  base : Nat
  stride : Nat
  space : Nat
  fmt : BitVec 8
  n : Nat
  rows : Nat
  deriving DecidableEq, Repr

/-- A weight buffer of an array (R62). -/
structure WBuf where
  /-- Tag of the work order that last wrote it | 12 | 03_cores_and_arrays.md R63 | none -/
  tag : Option Nat := none
  /-- The panel it holds | record | 03_cores_and_arrays.md R62 | none -/
  panel : Option Panel := none
  /-- Elements, row r and column n of the array at 64 r + n, as stored bits | 32 KiB | 03_cores_and_arrays.md R62 | DESIGN CHOICE 0 (8) -/
  cells : SMap (BitVec 64) := []
  /-- A parity error stands | 1 | 03_cores_and_arrays.md R68 | no -/
  parityBad : Bool := false
  deriving DecidableEq, Repr

/-- One core. -/
structure Core where
  /-- Core store by core-local address | 2 MiB | 03_cores_and_arrays.md R64 | DESIGN CHOICE 0 (8) -/
  store : Mem := []
  /-- Written bits of work-area blocks with the tag that set them | 496 | 03_cores_and_arrays.md R66 | clear -/
  written : SMap Nat := []
  /-- Uncorrectable words of the core store, by address / 8 | set | 03_cores_and_arrays.md R68 | none -/
  bad : List Nat := []
  /-- Correctable words of the core store, by address / 8 | set | 03_cores_and_arrays.md R68 | none -/
  correctable : List Nat := []
  /-- Corrected-error counter | count | 03_cores_and_arrays.md R68 | DESIGN CHOICE 0 (8) -/
  errors : Nat := 0
  /-- Tiles ACC0 to ACC3 of arrays A0 to A3, at 4 a + t | 16 tiles | 03_cores_and_arrays.md R60 | each tile's reset values -/
  tiles : SMap Tile := []
  /-- Weight buffers WB0 and WB1 of arrays A0 to A3, at 2 a + b | 8 buffers | 03_cores_and_arrays.md R62 | each buffer's reset values -/
  bufs : SMap WBuf := []
  /-- State of the stochastic-rounding generator, of a width the spec does not give | 32 | 02_number_formats.md R54 | DESIGN CHOICE 0 (8) -/
  gen : BitVec 32 := 0
  /-- Which buffer of each array is active | 1 | 03_cores_and_arrays.md R62 | DESIGN CHOICE WB0 (8) -/
  active : Bool := false
  /-- PAIR_ARRAYS | 16 | 01_seven_levels.md R36 | 0x0000 -/
  arrays : BitVec 16 := 0
  deriving DecidableEq, Repr

/-- The cores of the device. -/
structure Cores where
  /-- Cores by logical pair | 1,024 | 03_cores_and_arrays.md R60 | each core's reset values -/
  cores : SMap Core := []
  deriving DecidableEq, Repr

/-! ## Key-value cache -/

/-- A page-table entry's state (05_attention_kv_cache.md Table 05-4). -/
inductive PteState where
  | empty
  | full
  | partialPage
  | swapped (granule : Nat)
  | lost
  | chain
  deriving DecidableEq, Repr

/-- A page-table entry: state, tokens, and the page it names while resident. -/
structure Pte where
  state : PteState
  tokens : Nat
  pair : Nat
  bank : Nat
  row : Nat
  deriving DecidableEq, Repr

/-- A page of a pool (R120, Table 05-8); a page with no reference and pins is DRAINING. -/
structure Page where
  pair : Nat
  bank : Nat
  row : Nat
  /-- Rows it occupies. -/
  rows : Nat
  refs : Nat
  pins : Nat
  deriving DecidableEq, Repr

/-- A token in a Vestibule slot: its stored key and value bytes and their scale bytes. -/
structure Token where
  key : List Byte
  keyScales : List Byte
  value : List Byte
  valueScales : List Byte
  deriving DecidableEq, Repr

/-- A stream of a sequence (R113). -/
structure Stream where
  lead : Nat
  span : Nat
  length : Nat
  slot : List Token
  /-- A slot is reserved in the lead core's Vestibule. -/
  slotHeld : Bool
  table : List Pte
  /-- 4 KiB page-table blocks in the lead vault's pool: bank and first row (R119). -/
  blocks : List (Nat × Nat)
  deriving DecidableEq, Repr

/-- A sequence (Table 05-2). -/
structure Seq where
  layers : Nat
  kvHeads : Nat
  qPerKv : Nat
  dim : Nat
  pageTokens : Nat
  fmtK : BitVec 8
  fmtV : BitVec 8
  scaleK : BitVec 32
  scaleV : BitVec 32
  priority : Nat
  ropeMode : Nat
  ropeDims : Nat
  ropeFreq : List (BitVec 32)
  closed : Bool
  /-- Rack time of the last append or of SEQ_OPEN (R139). -/
  lastUse : BitVec 64
  /-- Stream s at position s. -/
  streams : List Stream
  deriving DecidableEq, Repr

/-- A Bivouac record (Table 05-10): its header, its page as plaintext, the number of the key it is under. -/
structure BivRec where
  granule : Nat
  granules : Nat
  seq : Nat
  stream : Nat
  page : Nat
  tokens : Nat
  bytes : List Byte
  epoch : BitVec 32
  nonce : Nat
  key : Nat
  deriving DecidableEq, Repr

/-- The key-value cache. -/
structure Kv where
  /-- Sequences by handle | 65,535 | 05_attention_kv_cache.md R113 | none -/
  seqs : SMap Seq := []
  /-- Pages held or draining | map | 05_attention_kv_cache.md R136 | none -/
  pages : List Page := []
  /-- Bivouac region: true in the far tier, base, size | record | 05_attention_kv_cache.md R138 | none -/
  bivouac : Option (Bool × Nat × Nat) := none
  /-- Controller whose port reaches a host Bivouac | 2 | 05_attention_kv_cache.md R138 | 0 -/
  bivPort : Fin 2 := 0
  /-- Records held in the Bivouac | list | 05_attention_kv_cache.md R140 | none -/
  records : List BivRec := []
  /-- Next Bivouac nonce | 96 | 05_attention_kv_cache.md Table 05-10 | 0 -/
  nonce : Nat := 0
  /-- Pins by operation: tag, op, pair, bank, row | list | 05_attention_kv_cache.md R136 | none -/
  pins : List (Nat × Nat × Nat × Nat × Nat) := []
  deriving DecidableEq, Repr

/-! ## Silman links -/

/-- A Silman port's state (12_silman_and_seam.md Table 12-2). -/
inductive SlState where
  | disabled
  | down
  | training
  | upClear
  | keyed
  | failed
  deriving DecidableEq, Repr

/-- A port's role in the spanning tree (Table 12-9 LP_ROLE). -/
inductive SlRole where
  | none
  | upstream
  | downstream
  | cross
  | boundary
  deriving DecidableEq, Repr

/-- The flits the module sends, as sent in clear before protection (R331). -/
inductive Flit where
  | ack (next : BitVec 32) (credits : Credits)
  | replayReq (next : BitVec 32) (credits : Credits)
  | enumFlit (kind : BitVec 8) (msg : EnumMsg)
  | beacon (root : BitVec 16) (hops : BitVec 8) (seq : BitVec 32) (originNs : BitVec 64) (corr : BitVec 64) (rootErr : BitVec 32)
  | delayReq (id : BitVec 8) (t1 : BitVec 64)
  | delayResp (id : BitVec 8) (t1 t2 t3 : BitVec 64)
  | data (kind : BitVec 8) (dst : BitVec 12) (msg : RemoteMsg)
  | slotFrame (dst : BitVec 12) (slot : BitVec 16) (bytes : List Byte)
  | completionFrame (dst : BitVec 12) (bytes : List Byte)
  | ownerNotice (dst : BitVec 12)
  | joinNotice (dst : BitVec 12)
  | key (kind : BitVec 8) (bytes : List Byte)
  | forwarded (vc : Fin 4) (hops : BitVec 6) (src dst : BitVec 12) (kind : BitVec 8) (msg : Option RemoteMsg) (bytes : List Byte)
  deriving DecidableEq, Repr

/-- A sequenced flit in the replay buffer (R334). -/
structure Replay where
  seq : Nat
  hdr : FlitHdr
  flit : Flit
  deriving DecidableEq, Repr

/-- A key exchange in progress (15_trust_and_firmware.md R416, R417). -/
structure Kx where
  /-- When the first HELLO was sent | ns. -/
  started : Nat
  /-- This side's random value. -/
  random : List Byte
  /-- The partner's random value and chain. -/
  peerHello : Option (List Byte × List Byte)
  /-- KEM_KEY: encapsulation key and report. -/
  kemKey : Option (List Byte × List Byte)
  /-- KEM_CT: ciphertext and report. -/
  kemCt : Option (List Byte × List Byte)
  /-- This side has sent FINISH. -/
  finSent : Bool
  /-- The partner's FINISH has verified. -/
  finGot : Bool
  /-- It rekeys a KEYED port. -/
  rekey : Bool
  deriving DecidableEq, Repr

/-- A Silman port. -/
structure SlPort where
  /-- LP_STATE | 3 | 12_silman_and_seam.md R328 | DESIGN CHOICE DISABLED, as LK_PORT_EN 0 gives (8) -/
  state : SlState := .disabled
  /-- SL_PRES_N is low | 1 | 17_module_electrical.md R469 | DESIGN CHOICE absent (8) -/
  present : Bool := false
  /-- LP_LANES | 3 | 12_silman_and_seam.md R330 | 0 -/
  lanes : Nat := 0
  /-- Lanes failed | 4 | 12_silman_and_seam.md R330 | none -/
  failedLanes : BitVec 4 := 0
  /-- When training began | ns | 12_silman_and_seam.md R329 | 0 -/
  trainStart : Nat := 0
  /-- LP_ROLE | 3 | 12_silman_and_seam.md R368 | 0 -/
  role : SlRole := .none
  /-- LP_PEER_PORT | 8 | 12_silman_and_seam.md R368 | 0xFF -/
  peerPort : BitVec 8 := 0xFF
  /-- LP_PEER_NODE | 16 | 12_silman_and_seam.md R368 | 0xFFFF -/
  peerNode : BitVec 16 := 0xFFFF
  /-- LP_DELAY_NS, 1/16 ns | 16 | 12_silman_and_seam.md R349 | 0 -/
  delay : BitVec 16 := 0
  /-- LP_FEC_CORR | 32 saturating | 12_silman_and_seam.md R368 | 0 -/
  fecCorr : Nat := 0
  /-- LP_FEC_UNCORR | 32 saturating | 12_silman_and_seam.md R368 | 0 -/
  fecUncorr : Nat := 0
  /-- Times of the uncorrectable codewords of the last millisecond, by lane | 4 lists | 12_silman_and_seam.md R330 | none -/
  badWords : SMap (List Nat) := []
  /-- LP_REPLAYS | 32 saturating | 12_silman_and_seam.md R368 | 0 -/
  replays : Nat := 0
  /-- LP_TAG_FAIL | 32 saturating | 12_silman_and_seam.md R337 | 0 -/
  tagFail : Nat := 0
  /-- LP_KEY_EPOCH | 32 saturating | 12_silman_and_seam.md R338 | 0 -/
  keyEpoch : Nat := 0
  /-- LP_DROPS | 32 saturating | 12_silman_and_seam.md R328 | 0 -/
  drops : Nat := 0
  /-- Sequenced transmit counter | 63 | 12_silman_and_seam.md R336 | 0 -/
  txSeq : Nat := 0
  /-- Unsequenced transmit counter | 63 | 12_silman_and_seam.md R336 | 0 -/
  txUnseq : Nat := 0
  /-- Next sequence number expected | 63 | 12_silman_and_seam.md R334 | 0 -/
  rxNext : Nat := 0
  /-- Replay buffer, oldest first | 512 flits | 12_silman_and_seam.md R334 | empty -/
  replayBuf : List Replay := []
  /-- Sequenced flits that wait for a credit or for replay room, oldest first | list | 12_silman_and_seam.md R333 | empty -/
  waiting : List (Fin 4 × Flit) := []
  /-- Time that data other than bulk has taken in this period, in 1/5 ns | count | 10_rack_time_rations.md R285 | 0 -/
  dataSpent : Nat := 0
  /-- Time that bulk has taken in this period, in 1/5 ns | count | 10_rack_time_rations.md R285 | 0 -/
  bulkSpent : Nat := 0
  /-- Transmit credits on VC0 to VC3 | 4 counts | 12_silman_and_seam.md R333 | 16, 128, 128, 64 -/
  credits : SMap Nat := [(0, 16), (1, 128), (2, 128), (3, 64)]
  /-- Receive buffers drained and not yet returned, by VC | 4 counts | 12_silman_and_seam.md R333 | 0 -/
  owed : SMap Nat := []
  /-- Sequenced flits received since the last acknowledgement | 1 | 12_silman_and_seam.md R334 | no -/
  ackDue : Bool := false
  /-- FL_KEY_PHASE in use | 1 | 12_silman_and_seam.md R338 | 0 -/
  keyPhase : Bool := false
  /-- Link material in force, opaque (72 B) | 576 | 15_trust_and_firmware.md R416 | none -/
  linkKey : List Byte := []
  /-- Old link material, and the time of the first flit of the new phase once it has come | 576 | 12_silman_and_seam.md R338 | none -/
  oldKey : Option (List Byte × Option Nat) := none
  /-- Flits protected under the key in force | count | 12_silman_and_seam.md R338 | 0 -/
  underKey : Nat := 0
  /-- When the key in force came into use | ns | 12_silman_and_seam.md R338 | 0 -/
  keyedAt : Nat := 0
  /-- Times of tag failures in the last second | list | 12_silman_and_seam.md R337 | none -/
  tagFailTimes : List Nat := []
  /-- The exchange under way or due is step 5 of training | 1 | 12_silman_and_seam.md R329 | no -/
  step5 : Bool := false
  /-- Key exchange in progress | record | 15_trust_and_firmware.md R416 | none -/
  kx : Option Kx := none
  /-- When the last exchange failed | ns | 12_silman_and_seam.md R328 | none -/
  kxFailedAt : Option Nat := none
  /-- Number of the last path-delay request | 8 | 12_silman_and_seam.md R350 | DESIGN CHOICE 0 (8) -/
  delayId : BitVec 8 := 0
  /-- t1 of the outstanding request | 64 | 12_silman_and_seam.md R350 | none -/
  delayT1 : Option (BitVec 64) := none
  /-- When the last exchange started | ns | 12_silman_and_seam.md R349 | none -/
  delayAt : Option Nat := none
  deriving DecidableEq, Repr

/-- A remote-access grant (12_silman_and_seam.md R351). -/
structure Grant where
  /-- LG_RIGHTS | 8 | 12_silman_and_seam.md R351 | 0 -/
  rights : BitVec 8 := 0
  /-- LG_NODE | 16 | 12_silman_and_seam.md R351 | 0 -/
  node : BitVec 16 := 0
  /-- LG_BASE | 64 | 12_silman_and_seam.md R351 | 0 -/
  base : Nat := 0
  /-- LG_SIZE | 64 | 12_silman_and_seam.md R351 | 0 -/
  size : Nat := 0
  deriving DecidableEq, Repr

/-- A LINK_COPY in flight (R352). -/
structure Xfer where
  num : BitVec 16
  tag : Nat
  get : Bool
  cls : Fin 3
  node : BitVec 12
  local' : Nat
  remote : Nat
  len : Nat
  port : Fin 18
  /-- Bytes acknowledged or written. -/
  doneBytes : Nat
  /-- A geometry change affected its local accesses (R40). -/
  degraded : Bool
  lastProgress : Nat
  deriving DecidableEq, Repr

/-- The token a node handles (R340). -/
structure TokenJob where
  domain : BitVec 16
  epoch : BitVec 32
  /-- Next free ID. -/
  next : Nat
  /-- Port the token arrived on; none at the root. -/
  upstream : Option (Fin 18)
  /-- Ports below this one have been tried. -/
  from' : Nat
  /-- Port the token was sent down and is awaited from. -/
  awaiting : Option (Fin 18)
  /-- First ID of the awaited subtree. -/
  first : Nat
  /-- When it was sent down | ns. -/
  sentAt : Nat
  /-- The node at fault, once aborted. -/
  fault : Option (BitVec 16)
  deriving DecidableEq, Repr

/-- The device as a Silman node. -/
structure Links where
  /-- Ports SL0 to SL17 | 18 | 12_silman_and_seam.md R326 | each port's reset values -/
  ports : SMap SlPort := []
  /-- LS_NODE_ID with LS_FLAGS bit 0 | 12 and 1 | 12_silman_and_seam.md R339 | unnumbered -/
  nodeId : Option (BitVec 12) := none
  /-- Domain of the ID in force | 16 | 12_silman_and_seam.md R340 | 0 -/
  domain : BitVec 16 := 0
  /-- LS_FLAGS bit 2: unnumbered by overflow | 1 | 12_silman_and_seam.md R344 | 0 -/
  overflow : Bool := false
  /-- Remote requests and replies that wait at a vault: node, kind, message | list | 06_bank_processing.md R165 | none -/
  parked : List (Nat × Nat × RemoteMsg) := []
  /-- LS_UPSTREAM | 5 | 12_silman_and_seam.md R368 | 0x1F -/
  upstream : Option (Fin 18) := none
  /-- LS_NEXT_FREE | 16 | 12_silman_and_seam.md R368 | 0 -/
  nextFree : Nat := 0
  /-- LS_EPOCH | 32 | 12_silman_and_seam.md R340 | 0 -/
  epoch : BitVec 32 := 0
  /-- Hops of this node from the root | 6 | 12_silman_and_seam.md R341 | 0 -/
  hops : Nat := 0
  /-- Routes: 0 to 17 a port, 0x1E local, 0x1F discard | 4,096 x 5 | 12_silman_and_seam.md R345 | DESIGN CHOICE discard (8) -/
  routes : SMap Nat := []
  /-- Overrides of LINK_ROUTE_SET | 4,096 x 5 | 12_silman_and_seam.md R345 | none -/
  overrides : SMap Nat := []
  /-- Pending node ID, its epoch and when it became pending | record | 12_silman_and_seam.md R342 | none -/
  pendingId : Option (BitVec 12 × BitVec 32 × Nat) := none
  /-- Domain of the pending ID | 16 | 12_silman_and_seam.md R340 | 0 -/
  pendingDomain : BitVec 16 := 0
  /-- Pending routes: ID to port | map | 12_silman_and_seam.md R342 | none -/
  pendingRoutes : SMap Nat := []
  /-- Pending default route | 5 | 12_silman_and_seam.md R345 | none -/
  pendingUp : Option Nat := none
  /-- Route of every ID not listed in routes | 5 | 12_silman_and_seam.md R345 | discard -/
  defaultRoute : Nat := 0x1F
  /-- When the COMMIT was received, and its epoch | ns | 12_silman_and_seam.md R342 | none -/
  commitAt : Option (Nat × BitVec 32) := none
  /-- The token being handled | record | 12_silman_and_seam.md R340 | none -/
  job : Option TokenJob := none
  /-- LS_FLAGS bit 1: fabric root since a pass began here | 1 | 12_silman_and_seam.md R367 | 0 -/
  root : Bool := false
  /-- A JOIN notice waits at the root for the pass under way | 1 | 12_silman_and_seam.md R343 | no -/
  joinDue : Bool := false
  /-- LINK_ENUMERATE in progress: its tag | 12 | 12_silman_and_seam.md R340 | none -/
  enumTag : Option Nat := none
  /-- COMMIT flood: first flood's time, last repeat's time | ns | 12_silman_and_seam.md R342 | none -/
  flood : Option (Nat × Nat) := none
  /-- Grants 0 to 15 | 16 | 12_silman_and_seam.md R351 | revoked -/
  grants : SMap Grant := []
  /-- Transfers in flight | list | 12_silman_and_seam.md R352 | none -/
  xfers : List Xfer := []
  /-- Next transfer number | 16 | 12_silman_and_seam.md R352 | DESIGN CHOICE 0 (8) -/
  nextXfer : BitVec 16 := 0
  deriving DecidableEq, Repr

/-! ## The Seam -/

/-- SS_STATE (Table 12-9). -/
inductive SeamState where
  | inService
  | retraining
  | out
  deriving DecidableEq, Repr

/-- SS_HALF (Table 12-9). -/
inductive SeamHalf where
  | full
  | low
  | high
  deriving DecidableEq, Repr

/-- One Seam module. -/
structure SeamMod where
  /-- SS_STATE | 2 | 12_silman_and_seam.md R368 | DESIGN CHOICE out of service before training (8) -/
  state : SeamState := .out
  /-- SS_WIDTH | 7 | 12_silman_and_seam.md R363 | 0 -/
  width : Nat := 0
  /-- SS_HALF | 2 | 12_silman_and_seam.md R364 | full -/
  half : SeamHalf := .full
  /-- SS_SPARES_WE | 3 | 12_silman_and_seam.md R363 | 4 -/
  sparesWE : Nat := 4
  /-- SS_SPARES_EW | 3 | 12_silman_and_seam.md R363 | 4 -/
  sparesEW : Nat := 4
  /-- Lanes failed without a spare | 64 | 12_silman_and_seam.md R363 | none -/
  failed : BitVec 64 := 0
  /-- SS_RETRAINS | 32 saturating | 12_silman_and_seam.md R368 | 0 -/
  retrains : Nat := 0
  /-- SS_REPLAYS | 32 saturating | 12_silman_and_seam.md R368 | 0 -/
  replays : Nat := 0
  /-- Width this side advertises | 7 | 12_silman_and_seam.md R364 | 64 -/
  advert : Nat := 64
  /-- Peer's advertisement: width and failed lanes | 7 and 64 | 12_silman_and_seam.md R364 | none -/
  peerAdvert : Option (Nat × BitVec 64) := none
  /-- SF_SEQ transmit counter | 16 | 12_silman_and_seam.md R361 | 0 -/
  txSeq : BitVec 16 := 0
  /-- Next SF_SEQ expected | 16 | 12_silman_and_seam.md R361 | 0 -/
  rxNext : BitVec 16 := 0
  /-- Replay buffer: frames and their numbers | 64 frames | 12_silman_and_seam.md R361 | empty -/
  replayBuf : List (BitVec 16 × List Byte) := []
  /-- Frames that wait for room in the replay buffer, oldest first | list | 12_silman_and_seam.md R361 | empty -/
  waiting : List (List Byte) := []
  /-- The retrain under way was requested by a side | 1 | 12_silman_and_seam.md R364 | no -/
  requested : Bool := false
  /-- This side's logic was reset since the width was last agreed: it sends and expects full width | 1 | 12_silman_and_seam.md R364 | no -/
  logicReset : Bool := false
  /-- The sideband answers | 1 | 12_silman_and_seam.md R356 | DESIGN CHOICE yes (8) -/
  sideband : Bool := true
  deriving DecidableEq, Repr

/-- The Seam as this device's Lantern sees it. -/
structure Seam where
  /-- Modules 0 to 15 | 16 | 12_silman_and_seam.md R355 | each module's reset values -/
  mods : SMap SeamMod := []
  /-- Discovery record of the other die | record | 12_silman_and_seam.md R358 | none -/
  peer : Option Discovery := none
  /-- The die reported SEAM_NO_PEER this pitch | 1 | 12_silman_and_seam.md R358 | no -/
  noPeer : Bool := false
  /-- Last Seam, sideband or mirror traffic | ns | 16_faults_blast_radius.md R450 | 0 -/
  lastHeard : Nat := 0
  /-- When stage 4 began to look for the other die | ns | 12_silman_and_seam.md R358 | 0 -/
  searchFrom : Nat := 0
  /-- Number of the next message on SV0 | 16 | 12_silman_and_seam.md R360 | DESIGN CHOICE 0 (8) -/
  sv0Next : BitVec 16 := 0
  /-- SEAM_DEGRADED reported in LS_FLAGS | 1 | 12_silman_and_seam.md R368 | 0 -/
  degraded : Bool := false
  /-- Message numbers of SV0 messages received | set | 12_silman_and_seam.md R360 | none -/
  sv0Seen : List (BitVec 16) := []
  /-- E count minus W count as last followed | ns | 12_silman_and_seam.md R356 | 0 -/
  eOffset : Int := 0
  deriving DecidableEq, Repr

/-! ## Check-value channels, events, trust, board, I3C -/

/-- A check-value channel (16_faults_blast_radius.md Table 16-2). -/
structure CvChan where
  /-- CV_ALG | 1 | 16_faults_blast_radius.md R443 | 0 -/
  alg : Bool := false
  /-- CV_CONTINUE | 1 | 16_faults_blast_radius.md R443 | 0 -/
  continue' : Bool := false
  /-- CV_IRQ_EN | 1 | 16_faults_blast_radius.md R443 | 0 -/
  irqEn : Bool := false
  /-- A scan runs (CV_BUSY) | 1 | 16_faults_blast_radius.md R443 | 0 -/
  scanning : Bool := false
  /-- A compare waits for an empty FIFO (CV_BUSY) | 1 | 16_faults_blast_radius.md R440 | 0 -/
  checking : Bool := false
  /-- CV_MATCH | 1 | 16_faults_blast_radius.md R443 | 0 -/
  match' : Bool := false
  /-- CV_MISMATCH | 1 | 16_faults_blast_radius.md R443 | 0 -/
  mismatch : Bool := false
  /-- CV_OVERRUN | 1 | 16_faults_blast_radius.md R443 | 0 -/
  overrun : Bool := false
  /-- CV_FAULT | 1 | 16_faults_blast_radius.md R443 | 0 -/
  fault : Bool := false
  /-- CV_FAULT_KIND | 8 | 16_faults_blast_radius.md R443 | 0 -/
  faultKind : BitVec 8 := 0
  /-- CV_FAULT_ADDR | 64 | 16_faults_blast_radius.md R443 | 0 -/
  faultAddr : BitVec 64 := 0
  /-- CV_VECTOR | 11 | 16_faults_blast_radius.md R443 | 0 -/
  vector : BitVec 11 := 0
  /-- CV_START | 64 | 16_faults_blast_radius.md R443 | 0 -/
  start : BitVec 64 := 0
  /-- CV_LEN | 64 | 16_faults_blast_radius.md R443 | 0 -/
  len : BitVec 64 := 0
  /-- CV_EXPECT | 64 | 16_faults_blast_radius.md R443 | 0 -/
  expect : BitVec 64 := 0
  /-- Running state before the final XOR (CV_RESULT reads it with the XOR) | 64 | 16_faults_blast_radius.md R437 | initial value of CRC-32C -/
  crc : BitVec 64 := 0xFFFFFFFF
  /-- Feed FIFO, oldest first: bytes of each write; CV_FIFO reads its length | 16 writes | 16_faults_blast_radius.md R438 | empty -/
  fifo : List (List Byte) := []
  /-- CV_DONE_BYTES | 64 | 16_faults_blast_radius.md R443 | 0 -/
  doneBytes : BitVec 64 := 0
  /-- Algorithm, start and length latched by CV_GO | 1, 64, 64 | 16_faults_blast_radius.md R439 | none -/
  latched : Option (Bool × Nat × Nat) := none
  /-- Controller that wrote CV_GO | 2 | 16_faults_blast_radius.md R441 | 0 -/
  by' : Fin 4 := 0
  deriving DecidableEq, Repr

/-- The payload of an event record (16_faults_blast_radius.md Table 16-4). -/
inductive Payload where
  | args (a0 a1 a2 a3 : BitVec 64)
  | memLog (e : LogEntry)
  | shutdown (d : Shutdown) (inlet outlet : Option Int) (flow : Option Nat) (flowSet powerW clockMhz : Nat) (time : BitVec 64)
  deriving DecidableEq, Repr

/-- An event, posted or written (Table 16-4). -/
structure Event where
  kind : BitVec 16
  source : BitVec 8
  /-- The unit that raised it, for repeats (R446). -/
  unit : Nat
  severity : BitVec 8
  time : BitVec 64
  payload : Payload
  /-- EV_PITCH and EV_RT_STATE as they stood at the event. -/
  pitch : BitVec 32
  rtState : BitVec 8
  deriving DecidableEq, Repr

/-- A record in flash. -/
structure EventRec where
  seq : BitVec 32
  ev : Event
  /-- EV_FLAGS | 8. -/
  flags : BitVec 8
  /-- EV_REPEAT | 16. -/
  repeats : BitVec 16
  /-- A latch stands on it (R444). -/
  latched : Bool
  deriving DecidableEq, Repr

/-- An open repeat window (R446). -/
structure RepeatWin where
  kind : BitVec 16
  unit : Nat
  /-- When it closes | ns. -/
  closes : Nat
  written : Nat
  suppressed : Nat
  last : Option Event
  deriving DecidableEq, Repr

/-- The event record and its buffer. -/
structure Events where
  /-- Events not yet written to flash, oldest first (retained SRAM) | 256 | 16_faults_blast_radius.md R445 | empty -/
  queue : List Event := []
  /-- Main area, oldest first | 258,048 records of 64 B | 16_faults_blast_radius.md R444 | DESIGN CHOICE empty, from flash (9) -/
  main : List EventRec := []
  /-- Protected area, oldest first | 4,096 records | 16_faults_blast_radius.md R444 | DESIGN CHOICE empty, from flash (9) -/
  prot : List EventRec := []
  /-- EVW_NEXT_SEQ | 32 | 16_faults_blast_radius.md R447 | DESIGN CHOICE 0, from flash (9) -/
  nextSeq : BitVec 32 := 0
  /-- Open repeat windows | list | 16_faults_blast_radius.md R446 | none -/
  windows : List RepeatWin := []
  /-- Records lost altogether and not yet counted in EVENTS_LOST; none is unknown | count | 16_faults_blast_radius.md R445 | 0 -/
  lost : Nat := 0
  /-- Events written late after a power loss are marked (EV_FLAGS bit 0) | count of queued events | 16_faults_blast_radius.md R445 | 0 -/
  late : Nat := 0
  /-- Sequence numbers written since the pitch | set | 18_register_maps.md R505 | none -/
  sincePitch : List (BitVec 32) := []
  deriving DecidableEq, Repr

/-- Firmware slot states (15_trust_and_firmware.md Table 15-6). -/
inductive SlotState where
  | empty
  | staged
  | pending
  | trial
  | committed
  | superseded
  deriving DecidableEq, Repr

/-- A firmware slot: its blocks and state. -/
structure FwSlot where
  /-- State | 3 | 15_trust_and_firmware.md R423 | slot A COMMITTED, slot B EMPTY: DESIGN CHOICE (9) -/
  state : SlotState := .empty
  /-- Blocks written, with their stored CRC-32C | 1,024 x 64 KiB | 15_trust_and_firmware.md R424 | none -/
  blocks : SMap (List Byte × BitVec 32) := []
  /-- MF_VERSION of the image | 32 | 15_trust_and_firmware.md Table 15-5 | DESIGN CHOICE 0x0302_0011 in slot A (9) -/
  version : BitVec 32 := 0
  /-- MF_SETTINGS_FMT of the image | 16 | 15_trust_and_firmware.md Table 15-5 | 0 -/
  settingsFmt : BitVec 16 := 0
  /-- MF_IFACE_REV of the image | 16 | 15_trust_and_firmware.md Table 15-5 | 0x0302 in slot A -/
  ifaceRev : BitVec 16 := 0
  /-- MF_REVOKE of the image | 4 | 15_trust_and_firmware.md Table 15-5 | 0 -/
  revoke : BitVec 4 := 0
  deriving DecidableEq, Repr

/-- A sealed range (15_trust_and_firmware.md R420). -/
structure SealedRange where
  base : Nat
  size : Nat
  ctrl : Fin 4
  epoch : BitVec 32
  /-- SO_FLAGS bit 0: it needs the owner's port TDI in RUN. -/
  needsTdi : Bool
  /-- The owner changed and the range waits for the former owner's commands (R421). -/
  draining : Bool
  /-- Module addresses of its 4 KiB blocks where it was opened through a window (07_vaults_and_protection.md R171). -/
  blocks : List Nat := []
  deriving DecidableEq, Repr

/-- FW_STATE (Table 15-8). -/
inductive FwState where
  | committed
  | trial
  | recovery
  | none
  deriving DecidableEq, Repr

/-- Identity, keys and firmware. -/
structure Trust where
  /-- The rebuilt keys match their fuses | 1 | 15_trust_and_firmware.md R408 | DESIGN CHOICE yes (8) -/
  identityOk : Bool := true
  /-- The noise source passes its health tests | 1 | 15_trust_and_firmware.md R410 | DESIGN CHOICE yes (8) -/
  entropyOk : Bool := true
  /-- The first entropy failure of this pitch has been recorded | 1 | 15_trust_and_firmware.md R410 | no -/
  entropyLogged : Bool := false
  /-- Keys drawn this pitch | count | 15_trust_and_firmware.md R410 | 0 -/
  drawn : Nat := 0
  /-- Bivouac key of this pitch, by the number of its draw | count | 05_attention_kv_cache.md R138 | none -/
  bivKey : Option Nat := none
  /-- Sealed ranges | 64 | 15_trust_and_firmware.md R419 | none -/
  ranges : List SealedRange := []
  /-- Firmware slot A | record | 15_trust_and_firmware.md R424 | COMMITTED, DESIGN CHOICE (9) -/
  slotA : FwSlot := { state := .committed, version := 0x03020011, ifaceRev := 0x0302 }
  /-- Firmware slot B | record | 15_trust_and_firmware.md R424 | EMPTY, DESIGN CHOICE (9) -/
  slotB : FwSlot := {}
  /-- FW_STATE | 2 | 15_trust_and_firmware.md R436 | 0 -/
  fwState : FwState := .committed
  /-- FW_RUN_SLOT: true is slot B | 1 | 15_trust_and_firmware.md R436 | 0 -/
  runB : Bool := false
  /-- Firmware is loaded: FW_VERSION and GEO_IFACE_REV read the running image's | 1 | 18_register_maps.md R494 | no, they read 0 -/
  loaded : Bool := false
  /-- FW_ARB | 32 | 15_trust_and_firmware.md R429 | DESIGN CHOICE 0x0302_0011, from flash (9) -/
  arb : BitVec 32 := 0x03020011
  /-- Commit count of the anti-rollback record | count | 15_trust_and_firmware.md R430 | DESIGN CHOICE 1, from flash (9) -/
  arbCount : Nat := 1
  /-- Previous settings copy | record | 15_trust_and_firmware.md R432 | none -/
  previous : Option Settings := none
  /-- When the trial pitch started | ns | 15_trust_and_firmware.md R428 | no trial -/
  trialStart : Option Nat := none
  /-- READY was reached in this trial | 1 | 15_trust_and_firmware.md R428 | no -/
  trialReady : Bool := false
  /-- Certificate chain of the W die in module flash | up to 16,384 B | 15_trust_and_firmware.md R411 | DESIGN CHOICE empty, from flash (9) -/
  chainW : List Byte := []
  /-- Certificate chain of the E die in module flash | up to 16,384 B | 15_trust_and_firmware.md R411 | DESIGN CHOICE empty, from flash (9) -/
  chainE : List Byte := []
  deriving DecidableEq, Repr

/-- Rails of one half (17_module_electrical.md Table 17-4). -/
structure Rails where
  /-- VAON | 1 | 17_module_electrical.md R462 | down -/
  vaon : Bool := false
  /-- VFLASH | 1 | 17_module_electrical.md R462 | down -/
  vflash : Bool := false
  /-- VBASE_SB | 1 | 17_module_electrical.md R462 | down -/
  vbaseSb : Bool := false
  /-- VSER | 1 | 17_module_electrical.md R464 | down -/
  vser : Bool := false
  /-- VBASE | 1 | 17_module_electrical.md R462 | down -/
  vbase : Bool := false
  /-- VPP, VDRAM | 1 | 17_module_electrical.md R462 | down -/
  vdram : Bool := false
  /-- VCOMP | 1 | 17_module_electrical.md R462 | down -/
  vcomp : Bool := false
  /-- VSER was dropped for heat in IDLE or early pitch | 1 | 17_module_electrical.md R464 | no -/
  serHot : Bool := false
  deriving DecidableEq, Repr

/-- The board's inputs and the module's rails (17_module_electrical.md). -/
structure Board where
  /-- VIN as last reported | mV | 17_module_electrical.md R458 | DESIGN CHOICE 0 (8) -/
  vin : Nat := 0
  /-- When VIN last reached its starting level | ns | 17_module_electrical.md R458 | none -/
  vinSince : Option Nat := none
  /-- VIN must stand at or below 58 V before a restart | 1 | 17_module_electrical.md R458 | no -/
  overvolted : Bool := false
  /-- MATE_SNS is high | 1 | 17_module_electrical.md R456 | DESIGN CHOICE low (8) -/
  mateHigh : Bool := false
  /-- The input switch is closed | 1 | 17_module_electrical.md R456 | open -/
  inputOn : Bool := false
  /-- Rails of W and E | 2 x 7 | 17_module_electrical.md R462 | down -/
  railsW : Rails := {}
  railsE : Rails := {}
  /-- MOD_RESET_N is low | 1 | 17_module_electrical.md R472 | DESIGN CHOICE high (8) -/
  resetLow : Bool := false
  /-- A cold pitch waits in stage 2 for MOD_RESET_N | 1 | 17_module_electrical.md R472 | no -/
  waitingReset : Bool := false
  /-- Orientation contacts of the Seam modules' sidebands, 1 at the W die's level | 16 | 12_silman_and_seam.md R357 | DESIGN CHOICE W (9) -/
  orient : BitVec 16 := 0xFFFF
  /-- Straps as sampled at stage 2 | 3 | 14_pitch.md R389 | DESIGN CHOICE open (8) -/
  straps : Straps := {}
  /-- Retention supply keeps the Lantern's SRAM | 1 | 17_module_electrical.md R460 | DESIGN CHOICE yes (8) -/
  retained : Bool := true
  /-- Power-fail time, until the handoff | ns | 17_module_electrical.md R460 | none -/
  failedAt : Option Nat := none
  deriving DecidableEq, Repr

/-- What the I3C target waits to deliver in a read (17_module_electrical.md R479, R480). -/
inductive I3cSel where
  | none
  | space (space : Nat) (offset : Nat)
  | record
  deriving DecidableEq, Repr

/-- The I3C target (17_module_electrical.md R475 to R481). -/
structure I3c where
  /-- ID_I3C_DA with ID_I3C_VALID | 7 and 1 | 17_module_electrical.md R476 | none assigned -/
  address : Option (BitVec 7) := none
  /-- In-band interrupts enabled | 1 | 17_module_electrical.md R481 | DESIGN CHOICE no (8) -/
  ibiEn : Bool := false
  /-- In-band interrupts due, by their bytes | list | 17_module_electrical.md R481 | none -/
  ibiDue : List (BitVec 8) := []
  /-- A NACKed interrupt waits until | ns | 17_module_electrical.md R481 | none -/
  ibiRetryAt : Option Nat := none
  /-- Maximum write length | 16 | 17_module_electrical.md R475 | 288 -/
  mwl : BitVec 16 := 288
  /-- Maximum read length | 16 | 17_module_electrical.md R475 | 256 -/
  mrl : BitVec 16 := 256
  /-- What the next private read delivers | record | 17_module_electrical.md R479 | nothing -/
  sel : I3cSel := .none
  /-- Report prepared in space 2 | 1,664 B | 17_module_electrical.md R479 | empty -/
  report : List Byte := []
  /-- When the FIFO last became non-empty or RECORD_READ came | ns | 17_module_electrical.md R481 | none -/
  fifoAt : Option Nat := none
  /-- When Hot-Join was last requested | ns | 17_module_electrical.md R476 | none -/
  hotJoinAt : Option Nat := none
  deriving DecidableEq, Repr

/-- The quick set of module flash (14_pitch.md R394). -/
structure QuickSet where
  fwMeas : List Byte
  overlayCount : Nat
  modeSplit : Bool
  straps : Straps
  clockMhz : Nat
  powerW : Nat
  defects : List OvEntry
  peer : Option Discovery
  m0Mean : Int
  /-- Quick pitches run since the last full pitch. -/
  uses : Nat
  /-- A shutdown record has been written since it was recorded. -/
  spoiled : Bool
  deriving DecidableEq, Repr

/-- A reset or pitch that waits (14_pitch.md R403, R404). -/
structure ResetJob where
  /-- 0 compute reset, 1 warm pitch, 2 cold pitch. -/
  kind : Nat
  full : Bool
  /-- Tag of the RESET_DEVICE that asked, if any. -/
  tag : Option Nat
  /-- When it was asked | ns. -/
  since : Nat
  deriving DecidableEq, Repr

/-- The Lantern status block and the pitch sequencer (18_register_maps.md Table 18-4). -/
structure Lantern where
  /-- PITCH_STAGE | 4 | 14_pitch.md R393 | 0 -/
  stage : BitVec 4 := 0
  /-- PITCH_KIND | 2 | 14_pitch.md R393 | 0 -/
  kind : BitVec 2 := 0
  /-- PITCH_QUICK | 1 | 14_pitch.md R394 | 0 -/
  quick : Bool := false
  /-- PITCH_QUICK_MISS | 4 | 14_pitch.md R395 | 0 -/
  quickMiss : BitVec 4 := 0
  /-- Stage 8 has begun (PITCH_LINKS_DONE reads the ports from then on) | 1 | 14_pitch.md R391 | no -/
  stage8 : Bool := false
  /-- PITCH_IDLE_WHY | 2 | 14_pitch.md R392 | 0 -/
  idleWhy : BitVec 2 := 0
  /-- PITCH_HALT | 8 | 14_pitch.md R393 | 0x00 -/
  halt : BitVec 8 := 0
  /-- When the pitch or compute reset began | ns | 14_pitch.md R393 | 0 -/
  start : Nat := 0
  /-- PITCH_TIME_MS | 32 | 14_pitch.md R393 | 0 -/
  timeMs : BitVec 32 := 0
  /-- PITCH_COUNT | 32 | 14_pitch.md R393 | DESIGN CHOICE 0, from flash (9) -/
  count : BitVec 32 := 0
  /-- LS_CHANGES | 32 | 18_register_maps.md R498 | 0 -/
  changes : BitVec 32 := 0
  /-- Good polls in a row for the coolant gate | count | 14_pitch.md R392 | 0 -/
  goodPolls : Nat := 0
  /-- HALF_LOST | 1 | 16_faults_blast_radius.md R451 | 0 -/
  halfLost : Bool := false
  /-- SEAM_LOST | 1 | 12_silman_and_seam.md R366 | 0 -/
  seamLost : Bool := false
  /-- MODE_MISMATCH | 1 | 00_scope.md R6 | 0 -/
  modeMismatch : Bool := false
  /-- INTAKE_BACKLOG | 1 | 08_warden_mailboxes.md R216 | 0 -/
  backlog : Bool := false
  /-- A compute reset, warm or cold pitch that waits for its records | record | 14_pitch.md R404 | none -/
  job : Option ResetJob := none
  /-- A THERMAL_CLEAR waits for its record, tag and acceptance time | record | 11_heat_path.md R312 | none -/
  clearing : Option (Nat × Nat) := none
  /-- When a cold pitch by command dropped the rails | ns | 14_pitch.md R404 | none -/
  railsDropped : Option Nat := none
  /-- Quick set | record | 14_pitch.md R394 | DESIGN CHOICE none, from flash (9) -/
  quickSet : Option QuickSet := none
  /-- The pitch was asked to run full | 1 | 14_pitch.md R394 | no -/
  full : Bool := false
  /-- The pitch began by an input that acts on both halves | 1 | 14_pitch.md R407 | no -/
  both : Bool := false
  /-- This half pitches alone beside a half that runs in Split mode, and keeps that mode | 1 | 14_pitch.md R407 | no -/
  keepsSplit : Bool := false
  /-- M0 sensor mean read at stage 2, 1/16 °C | 16 | 14_pitch.md R395 | 0 -/
  m0Mean : Int := 0
  /-- Requested mode of this half and of the other, in Split mode | 2 x 1 | 14_pitch.md R407 | none -/
  modeReq : Option Bool := none
  modeReqPeer : Option Bool := none
  /-- The half that ran alone as half-Twin before this pitch | 2 | 16_faults_blast_radius.md R451 | none -/
  wasHalfTwin : Option HalfRole := none
  /-- Host ports serve: H-E forwarding has begun (R382) | 1 | 13_host_far_ports.md R382 | no -/
  heForward : Bool := false
  deriving DecidableEq, Repr

/-- The geometry record (01_seven_levels.md Table 01-6 to 01-8). -/
structure Geo where
  /-- GEO_GENERATION | 32 | 01_seven_levels.md R38 | 0 -/
  generation : BitVec 32 := 0
  /-- The record is built (stage 9) | 1 | 18_register_maps.md R494 | no -/
  built : Bool := false
  /-- GEO_MODE | 8: 0 Twin, 1 Split, 2 half-Twin | 01_seven_levels.md R36 | 0 -/
  mode : BitVec 2 := 0
  /-- W is in the device and not lost | 1 | 01_seven_levels.md R36 | yes -/
  hasW : Bool := true
  /-- E is in the device and not lost | 1 | 01_seven_levels.md R36 | yes -/
  hasE : Bool := true
  /-- GEO_HALVES of the built record | 2 | 01_seven_levels.md R37 | 0 -/
  recHalves : BitVec 2 := 0
  /-- GEO_LINK_LANES of the built record, by port | 18 x 3 | 01_seven_levels.md R37 | 0 -/
  recLanes : SMap Nat := []
  /-- The fuses have been read, so that the order code, clock and limit show | 1 | 18_register_maps.md R494 | no -/
  fusesRead : Bool := false
  /-- GEO_PORT_ROLES of H-E: true far tier | 2 | 13_host_far_ports.md R369 | host -/
  heFarTier : Bool := false
  /-- GEO_FAR_TIER_MIB | 32 | 13_host_far_ports.md R384 | 0 -/
  farTierMib : Nat := 0
  /-- Logical pairs absent (retired, lost or without a site) | set of 1,024 | 01_seven_levels.md R21 | none absent -/
  absent : List Nat := []
  /-- PAIR_SITE where it differs from the vault index | 1,024 x 7 | 01_seven_levels.md R36 | vault index -/
  sites : SMap Nat := []
  /-- Defect overlay in module flash | 65,536 entries | 14_pitch.md R397 | DESIGN CHOICE empty, from flash (9) -/
  overlay : List OvEntry := []
  /-- Defects of this pitch that a full overlay did not keep | entries of 16 B | 14_pitch.md R397 | none -/
  unkept : List OvEntry := []
  deriving DecidableEq, Repr

/-! ## Outputs, and the whole -/

/-- What the block sends out: to hosts, links, the BMC, the board. -/
inductive Out where
  | msix (port : Fin 2) (vector : Nat) (stream : Option (Fin 5))
  | hostWrite (port : Fin 2) (addr len : Nat) (stream : Option (Fin 5))
  | bar2Data (port : Fin 2) (data : List Byte)
  | bar2Poisoned (port : Fin 2)
  | completerAbort (port : Fin 2)
  | readReply (port : Fin 2) (value : BitVec 64)
  | nearData (pair : Nat) (data : List Byte)
  | farData (core : Nat) (data : List Byte)
  | accessEnds (status : Status) (addr : Nat)
  | flit (port : Fin 18) (lane : Option (Fin 4)) (hdr : FlitHdr) (f : Flit)
  | seamFrame (mod : Fin 16) (content : List Byte)
  | seamAdvert (mod : Fin 16) (width : Nat) (failed : BitVec 64)
  | seamRetrain (mod : Fin 16)
  | seamReceive (mod : Fin 16) (nextSeq : BitVec 16)
  | discovery (rec : Discovery)
  | peerRecord (r : Rec)
  | spdm (port : Fin 2) (code : BitVec 8) (bytes : List Byte)
  | i3cData (bytes : List Byte)
  | ibi (byte : BitVec 8)
  | hotJoin
  | farTierData (data : List Byte)
  | wake (cluster core : Nat)
  | take (cluster core source : Nat)
  deriving DecidableEq, Repr

/-- The state of the device. -/
structure State where
  /-- Nanoseconds since the block was powered, the time base of every duration. -/
  now : Nat := 0
  fuses : Fuses := {}
  settings : Settings := {}
  board : Board := {}
  lantern : Lantern := {}
  geo : Geo := {}
  own : Own := {}
  /-- Intake of controllers 0 to 3. -/
  intakes : SMap Intake := []
  /-- Host ports H-W and H-E. -/
  ports : SMap HostPort := []
  warden : Warden := {}
  rations : Rations := {}
  time : RackTime := {}
  power : Power := {}
  thermal : Thermal := {}
  mem : Memory := {}
  far : FarTier := {}
  cores : Cores := {}
  kv : Kv := {}
  links : Links := {}
  seam : Seam := {}
  /-- Check-value channels 0 to 15. -/
  cv : SMap CvChan := []
  events : Events := {}
  trust : Trust := {}
  i3c : I3c := {}
  /-- Everything sent out, oldest first. -/
  out : List Out := []
  /-- The model's own field: how many free values have been drawn (notes/assumptions/10.md). -/
  free : Nat := 0
  /-- The model's own field: what the operation being run has met (notes/assumptions/24.md). -/
  run : OpRun := {}
  /-- Commands that wait, first in, first out. -/
  pending : List Instr := []
  deriving DecidableEq, Repr

/-- Why the block stops with a fault: never. Every command of the table has an effect the spec gives. -/
inductive Fault where
  deriving DecidableEq, Repr

/-- Why a command is refused. -/
inductive Refusal where
  /-- Raised by the dispatch table for a command that has no meaning yet; safe. -/
  | notModelled (mnemonic : String)
  deriving DecidableEq, Repr

/-- The device right after reset: every register at the reset value its map gives, before any pitch
(PITCH_STAGE reads 0), and what the spec gives no reset value at the value notes/assumptions/8.md and 9.md name. -/
def State.reset : State := {}

end Sys2Proof.Machine
end

