-- ==== Sys2Proof/Machine/Ops.lean ====
section
/-! DEFINITION. The named operations every family shares: sparse tables, byte memory, byte order, time, geometry
questions, events, interrupts, messages and the Lantern status word. -/

namespace Sys2Proof.Machine

open Sys2Proof

/-! ## Sparse tables: keys strictly rising -/

/-- The value listed at key `k`, or `d`. -/
def look {α : Type} (m : SMap α) (k : Nat) (d : α) : α :=
  match m with
  | [] => d
  | (a, v) :: r => if a = k then v else look r k d

/-- Whether key `k` is listed. -/
def has {α : Type} (m : SMap α) (k : Nat) : Bool := m.any (fun e => e.1 = k)

/-- The value listed at key `k`. -/
def look? {α : Type} (m : SMap α) (k : Nat) : Option α :=
  match m with
  | [] => none
  | (a, v) :: r => if a = k then some v else look? r k

/-- The table with `v` at key `k`. -/
def put {α : Type} (m : SMap α) (k : Nat) (v : α) : SMap α :=
  match m with
  | [] => [(k, v)]
  | (a, w) :: r => if a < k then (a, w) :: put r k v else if a = k then (k, v) :: r else (k, v) :: (a, w) :: r

/-- The table without key `k`. -/
def del {α : Type} (m : SMap α) (k : Nat) : SMap α := m.filter (fun e => e.1 ≠ k)

/-- The table with the entry at `k` (or the default `d`) changed by `f`. -/
def upd {α : Type} (m : SMap α) (k : Nat) (d : α) (f : α → α) : SMap α := put m k (f (look m k d))

/-- Insert a number into a strictly rising list of numbers. -/
def insertNat (l : List Nat) (k : Nat) : List Nat :=
  match l with
  | [] => [k]
  | a :: r => if a < k then a :: insertNat r k else if a = k then a :: r else k :: a :: r

/-- Remove a number from a list of numbers. -/
def removeNat (l : List Nat) (k : Nat) : List Nat := l.filter (fun a => a ≠ k)

/-! ## Byte memory: addresses strictly rising, no listed byte 0 -/

/-- The canonical form: addresses strictly rising from `lo`, no listed byte 0. -/
def Mem.wfFrom : Nat → Mem → Bool
  | _, [] => true
  | lo, (a, b) :: r => decide (lo ≤ a) && decide (b ≠ 0) && Mem.wfFrom (a + 1) r

/-- The canonical form of a byte memory. -/
def Mem.wf (m : Mem) : Bool := Mem.wfFrom 0 m

/-- The byte at an address; an unlisted byte reads 0. -/
def readByte (m : Mem) (a : Nat) : Byte :=
  match m with
  | [] => 0
  | (b, v) :: r => if b = a then v else readByte r a

/-- The memory with a byte stored; storing 0 removes the entry. -/
def writeByte (m : Mem) (a : Nat) (v : Byte) : Mem :=
  match m with
  | [] => if v = 0 then [] else [(a, v)]
  | (b, w) :: r =>
    if b < a then (b, w) :: writeByte r a v
    else if b = a then (if v = 0 then r else (a, v) :: r)
    else (if v = 0 then (b, w) :: r else (a, v) :: (b, w) :: r)

/-- `n` bytes from address `a` on. -/
def readBytes (m : Mem) (a n : Nat) : List Byte :=
  match n with
  | 0 => []
  | k + 1 => readByte m a :: readBytes m (a + 1) k

/-- The memory with the bytes stored from address `a` on. -/
def writeBytes (m : Mem) (a : Nat) (bs : List Byte) : Mem :=
  match bs with
  | [] => m
  | b :: r => writeBytes (writeByte m a b) (a + 1) r

/-- The memory with every byte of `[a, a + n)` zero. -/
def clearRange (m : Mem) (a n : Nat) : Mem := m.filter (fun e => e.1 < a || a + n ≤ e.1)

/-! ## Byte order (00_scope.md R8: little-endian) -/

/-- `n` bytes of a number, least significant first. -/
def leBytes (n v : Nat) : List Byte :=
  match n with
  | 0 => []
  | k + 1 => BitVec.ofNat 8 v :: leBytes k (v / 256)

/-- The number of some bytes, least significant first. -/
def leNat (bs : List Byte) : Nat :=
  match bs with
  | [] => 0
  | b :: r => b.toNat + 256 * leNat r

/-- The `n`-byte number at offset `off` of a byte string; bytes past its end read 0. -/
def field (bs : List Byte) (off n : Nat) : Nat := leNat ((bs.drop off).take n)

/-- Bits `[lo + n - 1 : lo]` of a number. -/
def bits (v lo n : Nat) : Nat := v / 2 ^ lo % 2 ^ n

/-- Bit `i` of a number. -/
def bit (v i : Nat) : Bool := v / 2 ^ i % 2 = 1

/-- A Boolean as a bit. -/
def ofBool (b : Bool) : Nat := if b then 1 else 0

/-- The byte string with bytes `off …` replaced by `new`, its length kept. -/
def splice (bs : List Byte) (off : Nat) (new : List Byte) : List Byte :=
  (bs.take off ++ new ++ bs.drop (off + new.length)).take bs.length

/-- A byte string padded with zeros to length `n`, or cut to it. -/
def padTo (bs : List Byte) (n : Nat) : List Byte := (bs ++ List.replicate (n - bs.length) 0).take n

/-- A signed number as `n` bits of two's complement. -/
def ofInt (n : Nat) (i : Int) : Nat := (i % (2 ^ n : Nat)).toNat

/-- The signed number of the low `n` bits in two's complement. -/
def toInt (n v : Nat) : Int := if v % 2 ^ n < 2 ^ (n - 1) then (v % 2 ^ n : Nat) else (v % 2 ^ n : Nat) - (2 ^ n : Nat)

/-- Saturating count: one more, to `2 ^ 32 - 1`. -/
def satSucc (n : Nat) : Nat := if n < 2 ^ 32 - 1 then n + 1 else n

/-- Saturating sum, to `2 ^ 32 - 1`. -/
def satAdd (n k : Nat) : Nat := min (n + k) (2 ^ 32 - 1)

/-! ## Check values -/

/-- One bit step of a reflected CRC register. -/
def crcStepR (poly c : Nat) : Nat := if c % 2 = 1 then (c / 2) ^^^ poly else c / 2

/-- `n` bit steps of a reflected CRC register. -/
def crcStepsR (poly : Nat) : Nat → Nat → Nat
  | 0, c => c
  | n + 1, c => crcStepsR poly n (crcStepR poly c)

/-- One byte into CRC-32C (16_faults_blast_radius.md Table 16-1: reflected, polynomial 0x1EDC_6F41). -/
def crc32cByte (c : Nat) (b : Byte) : Nat := crcStepsR 0x82F63B78 8 (c ^^^ b.toNat)

/-- Bytes into CRC-32C, from a running state. -/
def crc32cRun (c : Nat) (bs : List Byte) : Nat := bs.foldl crc32cByte c

/-- CRC-32C of a byte string. -/
def crc32c (bs : List Byte) : Nat := crc32cRun 0xFFFFFFFF bs ^^^ 0xFFFFFFFF

/-- One bit step of an unreflected 64-bit CRC register. -/
def crc64Step (c : Nat) : Nat :=
  if c / 2 ^ 63 % 2 = 1 then (c * 2 % 2 ^ 64) ^^^ 0x42F0E1EBA9EA3693 else c * 2 % 2 ^ 64

/-- `n` bit steps. -/
def crc64Steps : Nat → Nat → Nat
  | 0, c => c
  | n + 1, c => crc64Steps n (crc64Step c)

/-- One byte into CRC-64/ECMA-182 (Table 16-1). -/
def crc64Byte (c : Nat) (b : Byte) : Nat := crc64Steps 8 (c ^^^ (b.toNat * 2 ^ 56))

/-- Bytes into CRC-64/ECMA-182, from a running state. -/
def crc64Run (c : Nat) (bs : List Byte) : Nat := bs.foldl crc64Byte c

/-- `n` bit steps of CRC-8, polynomial 0x07. -/
def crc8Steps : Nat → Nat → Nat
  | 0, c => c
  | n + 1, c => crc8Steps n (if c / 128 % 2 = 1 then (c * 2 % 256) ^^^ 0x07 else c * 2 % 256)

/-- CRC-8 of the tray reply (17_module_electrical.md R483). -/
def crc8 (bs : List Byte) : Nat := bs.foldl (fun c b => crc8Steps 8 (c ^^^ b.toNat)) 0

/-! ## Free values -/

/-- The next free value and the state that has drawn it (notes/assumptions/10.md). -/
def State.draw (s : State) : Nat × State := (Config.freeNat s.free, { s with free := s.free + 1 })

/-- A draw of many values at once: the choices of one operation. -/
def State.drawMany (s : State) : (Nat → Nat) × State := (fun k => Config.pick s.free k, { s with free := s.free + 1 })

/-! ## Whole-state accessors -/

/-- Host port p. -/
def State.port (s : State) (p : Nat) : HostPort := look s.ports p {}

/-- Host port p changed. -/
def State.setPort (s : State) (p : Nat) (f : HostPort → HostPort) : State := { s with ports := upd s.ports p {} f }

/-- The intake of controller c. -/
def State.intake (s : State) (c : Nat) : Intake := look s.intakes c {}

/-- The intake of controller c changed. -/
def State.setIntake (s : State) (c : Nat) (f : Intake → Intake) : State :=
  { s with intakes := upd s.intakes c {} f }

/-- The vault of pair p. -/
def State.vault (s : State) (p : Nat) : Vault := look s.mem.vaults p {}

/-- The vault of pair p changed. -/
def State.setVault (s : State) (p : Nat) (f : Vault → Vault) : State :=
  { s with mem := { s.mem with vaults := upd s.mem.vaults p {} f } }

/-- The core of pair p. -/
def State.core (s : State) (p : Nat) : Core := look s.cores.cores p {}

/-- The core of pair p changed. -/
def State.setCore (s : State) (p : Nat) (f : Core → Core) : State :=
  { s with cores := { s.cores with cores := upd s.cores.cores p {} f } }

/-- Silman port n. -/
def State.sl (s : State) (n : Nat) : SlPort := look s.links.ports n {}

/-- Silman port n changed. -/
def State.setSl (s : State) (n : Nat) (f : SlPort → SlPort) : State :=
  { s with links := { s.links with ports := upd s.links.ports n {} f } }

/-- Seam module m. -/
def State.seamMod (s : State) (m : Nat) : SeamMod := look s.seam.mods m {}

/-- Seam module m changed. -/
def State.setSeamMod (s : State) (m : Nat) (f : SeamMod → SeamMod) : State :=
  { s with seam := { s.seam with mods := upd s.seam.mods m {} f } }

/-- The interrupt controller of a cluster: 0 W, 1 E. -/
def State.ic (s : State) (c : Nat) : Ic := look s.warden.ics c {}

/-- The interrupt controller of a cluster changed. -/
def State.setIc (s : State) (c : Nat) (f : Ic → Ic) : State :=
  { s with warden := { s.warden with ics := upd s.warden.ics c {} f } }

/-- The Warden changed. -/
def State.setWarden (s : State) (f : Warden → Warden) : State := { s with warden := f s.warden }

/-- The sealed slots changed. -/
def State.setSealed (s : State) (f : List SealedSlot → List SealedSlot) : State :=
  s.setWarden (fun w => { w with sealed := f w.sealed })

/-- The watchdog of a cluster. -/
def State.wdog (s : State) (c : Nat) : Wdog := look s.warden.wdogs c {}

/-- The watchdog of a cluster changed. -/
def State.setWdog (s : State) (c : Nat) (f : Wdog → Wdog) : State :=
  { s with warden := { s.warden with wdogs := upd s.warden.wdogs c {} f } }

/-- The ownership fields of controller c. -/
def State.ownPort (s : State) (c : Nat) : OwnPort := look s.own.ports c {}

/-- The ownership fields of controller c changed. -/
def State.setOwnPort (s : State) (c : Nat) (f : OwnPort → OwnPort) : State :=
  { s with own := { s.own with ports := upd s.own.ports c {} f } }

/-- Check-value channel c. -/
def State.chan (s : State) (c : Nat) : CvChan := look s.cv c {}

/-- Check-value channel c changed. -/
def State.setChan (s : State) (c : Nat) (f : CvChan → CvChan) : State := { s with cv := upd s.cv c {} f }

/-- Something sent out, after everything sent before. -/
def State.emit (s : State) (o : Out) : State := { s with out := s.out ++ [o] }

/-! ## The device, its mode and its stages -/

/-- Both halves are in the device: Twin mode. -/
def State.twin (s : State) : Bool := s.geo.hasW && s.geo.hasE

/-- The half whose Warden cluster leads and whose Lantern writes records: 0 W, 1 E (01_seven_levels.md R34). -/
def State.lead (s : State) : Nat := if s.geo.hasW then 0 else 1

/-- The clusters of the device. -/
def State.clusters (s : State) : List Nat := if s.twin then [0, 1] else [s.lead]

/-- Towers of the device: 0 to 7 on W, 8 to 15 on E (Table 01-4). -/
def State.hasTower (s : State) (t : Nat) : Bool :=
  if t < 8 then s.geo.hasW else decide (t < 16) && s.geo.hasE

/-- A logical pair that is present: in the device and not absent (R21, R31). -/
def State.pairPresent (s : State) (p : Nat) : Bool :=
  decide (p < 1024) && s.hasTower (p / 64) && !(s.geo.absent.contains p)

/-- PITCH_STAGE reads READY (14_pitch.md Table 14-4). -/
def State.ready (s : State) : Bool := s.lantern.stage = 0xF

/-- A compute reset is in progress. -/
def State.computeReset (s : State) : Bool := s.lantern.stage = 0xB

/-- PITCH_STAGE reads HALTED. -/
def State.halted (s : State) : Bool := s.lantern.stage = 0xE

/-- Held in IDLE. -/
def State.idle (s : State) : Bool := s.lantern.stage = 0xA

/-- The Lantern runs: stage 2 of a pitch has begun and no cold pitch has dropped its rails (R492). -/
def State.lanternOn (s : State) : Bool := s.lantern.stage.toNat ≥ 2

/-- Port p is a host-role port of the device (13_host_far_ports.md R369): H-W is 0, H-E is 1. -/
def State.hostRole (s : State) (p : Nat) : Bool :=
  if p = 0 then s.geo.hasW else decide (p = 1) && s.geo.hasE && !s.geo.heFarTier

/-- The host-role ports. -/
def State.hostPorts (s : State) : List (Fin 2) := ([0, 1] : List (Fin 2)).filter (fun p => s.hostRole p)

/-- A Silman port is in the device: SL0 to SL8 on W, SL9 to SL17 on E (Table 01-4). -/
def State.hasSl (s : State) (n : Nat) : Bool := if n < 9 then s.geo.hasW else decide (n < 18) && s.geo.hasE

/-- The route to a node ID: an override, else the committed route, else the default (12_silman_and_seam.md R345). -/
def Links.route (l : Links) (id : Nat) : Nat :=
  match look? l.overrides id with
  | some r => r
  | none => look l.routes id l.defaultRoute

/-- A keyed route to the peer node exists and this node is committed (12_silman_and_seam.md R354). -/
def State.peerLinked (s : State) : Bool :=
  let r := s.links.route s.settings.lkPeerNode.toNat
  decide (s.settings.lkPeerNode.toNat < 4096) && s.links.nodeId.isSome && decide (r < 18) && s.hasSl r
    && decide ((s.sl r).state = .keyed)

/-- Controller c is present (08_warden_mailboxes.md R207). -/
def State.present (s : State) (c : Nat) : Bool :=
  match c with
  | 0 => s.hostRole 0
  | 1 => s.hostRole 1
  | 2 => s.i3c.address.isSome
  | 3 => s.peerLinked
  | _ => false

/-- Controller c owns the device. -/
def State.owns (s : State) (c : Nat) : Bool := s.own.valid && decide (s.own.id.val = c)

/-- A shutdown latch stands (11_heat_path.md R312). -/
def State.latchStands (s : State) : Bool :=
  match s.thermal.latch with
  | some d => !d.cleared
  | none => false

/-- A write arrives at a host port and acts: the Lantern runs, the port is in the host role and its link is up, and its TDI
is not locked or in error (R491, R492, 13_host_far_ports.md R378; notes/assumptions/21.md). -/
def State.hostWrites (s : State) (p : Nat) : Bool :=
  s.hostRole p && s.lanternOn && (s.port p).linkUp
    && (decide ((s.port p).tdi = .configUnlocked) || decide ((s.port p).tdi = .run))

/-- A BAR0 read arrives at a host port and is answered: a locked TDI lets reads through (13_host_far_ports.md Table 13-3). -/
def State.hostReads (s : State) (p : Nat) : Bool :=
  s.hostWrites p || (s.hostRole p && s.lanternOn && (s.port p).linkUp && decide ((s.port p).tdi = .configLocked))

/-- The module may write to the memory of the host on a port: the link is up and the TDI is unlocked or running; while it
is locked such writes are held (13_host_far_ports.md R378). -/
def State.hostOpen (s : State) (p : Nat) : Bool :=
  s.hostRole p && (s.port p).linkUp && (decide ((s.port p).tdi = .configUnlocked) || decide ((s.port p).tdi = .run))

/-- The firmware of the leading Warden cluster runs: loaded and not held in a reset (16_faults_blast_radius.md R448). -/
def State.wardenUp (s : State) : Bool := s.trust.loaded && !(s.wdog s.lead).inReset && !s.computeReset

/-- A restricted state (09_work_orders.md R241). -/
def State.restricted (s : State) : Bool :=
  s.halted || s.idle || decide (s.trust.fwState = .recovery) || s.latchStands || s.lantern.halfLost

/-- The order code of the fuses (Table 01-6), 0 for none of the three of Table 00-2. -/
def orderCode (f : Fuses) : Nat :=
  if f.clockMhz = 1200 ∧ f.powerW = 3600 then 0x0E10
  else if f.clockMhz = 1050 ∧ f.powerW = 2400 then 0x0960
  else if f.clockMhz = 850 ∧ f.powerW = 1500 then 0x05DC
  else 0

/-! ## Rack time -/

/-- RT_NOW as a number. -/
def State.rtNow (s : State) : Nat := s.time.now.toNat

/-- The length of a ration period in ns (10_rack_time_rations.md R280). -/
def periodNs : Nat := 4096

/-- RT_NOW stands at a ration-period boundary: a multiple of 4,096 ns, or the first one after a step's transition
(R277, R280). -/
def State.atBoundary (s : State) : Bool :=
  match s.time.nextBoundary with
  | some (_, b) => s.time.now = b
  | none => s.rtNow % periodNs = 0

/-- The acceptance at time `t` lies strictly before the present moment, a boundary (00_scope.md R507). -/
def State.due (s : State) (t : Nat) : Bool := decide (t < s.now)

/-- Nanoseconds of a number of milliseconds. -/
def ms (n : Nat) : Nat := n * 1000000

/-- Nanoseconds of a number of microseconds. -/
def us (n : Nat) : Nat := n * 1000

/-! ## Events -/

/-- RT_STATE as a number (Table 10-1). -/
def rtStateCode : RtState → Nat
  | .free => 0
  | .locking => 1
  | .locked => 2
  | .holdover => 3

/-- Add an event to the buffer of events not yet in flash; it holds the last 256 (16_faults_blast_radius.md R445), and
an event pushed out of it is lost. -/
def pushEvent (e : Events) (ev : Event) : Events :=
  if e.queue.length < 256 then { e with queue := e.queue ++ [ev] }
  else { e with queue := e.queue.drop 1 ++ [ev], lost := e.lost + 1, late := e.late - 1 }

/-- An event of the given kind, unit, severity and payload, raised now; source 0 or 1 is the writing Lantern. -/
def State.mkEvent (s : State) (kind unit sev : Nat) (p : Payload) : Event :=
  { kind := BitVec.ofNat 16 kind, source := BitVec.ofNat 8 s.lead, unit := unit, severity := BitVec.ofNat 8 sev,
    time := s.time.now, payload := p, pitch := s.lantern.count, rtState := BitVec.ofNat 8 (rtStateCode s.time.state) }

/-- Post an event for the event record. -/
def State.post (s : State) (kind unit sev : Nat) (p : Payload) : State :=
  { s with events := pushEvent s.events (s.mkEvent kind unit sev p) }

/-- An event whose payload is up to four arguments. -/
def State.postArgs (s : State) (kind unit sev a0 a1 a2 : Nat) : State :=
  s.post kind unit sev (.args (BitVec.ofNat 64 a0) (BitVec.ofNat 64 a1) (BitVec.ofNat 64 a2) 0)

/-! ## Interrupts and messages -/

/-- Assert an interrupt source in one cluster (08_warden_mailboxes.md Table 08-10): its pending bit sets. -/
def State.raiseIn (s : State) (cluster src : Nat) : State :=
  s.setIc cluster (fun i => { i with pending := insertNat i.pending src })

/-- Assert a normal source in the leading cluster (notes/assumptions/19.md). -/
def State.raise (s : State) (src : Nat) : State := s.raiseIn s.lead src

/-- Assert a fast source in every cluster of the device (notes/assumptions/19.md). -/
def State.raiseFast (s : State) (src : Nat) : State := s.clusters.foldl (fun t c => t.raiseIn c src) s

/-- The stream on which a module write to host memory goes, with the T bit: the one bound to the TDI while it runs; without the T bit
otherwise (13_host_far_ports.md R377, Table 13-3). -/
def HostPort.stream (h : HostPort) : Option (Fin 5) := if h.tdi = .run then h.tdiStream else none

/-- A write to the memory of the host on a port takes effect. -/
def State.putHost (s : State) (p : Fin 2) (w : HostOut) : State :=
  match w with
  | .data a bs =>
    (if p = 0 then { s with mem := { s.mem with hostW := writeBytes s.mem.hostW a bs } }
     else { s with mem := { s.mem with hostE := writeBytes s.mem.hostE a bs } }).emit (.hostWrite p a bs.length (s.port p).stream)
  | .msix v => s.emit (.msix p v (s.port p).stream)

/-- Issue a write to the memory of the host on a port: held while the TDI is locked, dropped in ERROR or without a link
(13_host_far_ports.md Table 13-3). -/
def State.sendHost (s : State) (p : Fin 2) (w : HostOut) : State :=
  if !(s.port p).linkUp then s
  else match (s.port p).tdi with
    | .configLocked => s.setPort p (fun h => { h with held := h.held ++ [w] })
    | .error => s
    | _ => s.putHost p w

/-- Send an MSI-X vector on a host port; a masked vector sets its pending bit instead (R221). -/
def State.msix (s : State) (p : Fin 2) (v : Nat) : State :=
  if (s.port p).msixOpen.contains v then s.sendHost p (.msix v)
  else s.setPort p (fun h => { h with msixPending := insertNat h.msixPending v })

/-- Make an in-band interrupt due; while interrupts are disabled none is kept (17_module_electrical.md R481). Those due
at one moment go in the order of their bytes. -/
def State.ibi (s : State) (b : BitVec 8) : State :=
  if s.i3c.ibiEn && s.i3c.address.isSome then
    { s with i3c := { s.i3c with ibiDue :=
        (s.i3c.ibiDue.filter (fun x => x.toNat ≤ b.toNat)) ++ [b] ++ (s.i3c.ibiDue.filter (fun x => x.toNat > b.toNat)) } }
  else s

/-! ## The Lantern status word (18_register_maps.md Table 18-4) -/

/-- A level as a number. -/
def Level.code : Level → Nat
  | .normal => 0
  | .warning => 1
  | .throttle => 2
  | .shutdown => 3

/-- LANTERN_ALERT_N is low (17_module_electrical.md R473). -/
def State.alert (s : State) : Bool :=
  s.latchStands || decide (s.thermal.clLevel.toNat ≥ 2) || s.halted || s.lantern.halfLost || s.lantern.seamLost

/-- The Lantern status word, offset 0x000 of its block. -/
def State.lsWord (s : State) : Nat :=
  ofBool s.ready + 2 * ofBool s.lantern.backlog + 4 * ofBool s.lantern.modeMismatch + 8 * ofBool s.lantern.halfLost
    + 16 * ofBool s.lantern.seamLost + 32 * ofBool s.halted + 64 * ofBool s.latchStands + 128 * ofBool s.idle
    + 256 * s.thermal.levelMax.code + 1024 * s.thermal.clLevel.toNat
    + 4096 * ofBool (s.time.state = .locked) + 8192 * ofBool (s.trust.fwState = .trial)
    + 16384 * ofBool (s.trust.fwState = .recovery) + 32768 * ofBool s.computeReset
    + 65536 * ofBool (s.clusters.any (fun c => (s.wdog c).inReset)) + 131072 * ofBool (s.geo.generation.toNat % 2 = 1)
    + 262144 * ofBool s.alert

/-- Signal a change of the Lantern status word on one port: at once, or deferred while the previous vector-0 message is
less than 10 µs old (R498). -/
def State.signalV0 (s : State) (p : Fin 2) : State :=
  match (s.port p).v0Last with
  | some t =>
    if s.now < t + us 10 then s.setPort p (fun h => { h with v0Deferred := true })
    else (s.setPort p (fun h => { h with v0Last := some s.now })).msix p 0
  | none => (s.setPort p (fun h => { h with v0Last := some s.now })).msix p 0

/-- Signal a change of the Lantern status word: LS_CHANGES, vector 0 of every host-role port, in-band interrupt 0x04
(R498, 17_module_electrical.md R481). -/
def State.signalLs (s : State) : State :=
  (s.hostPorts.foldl State.signalV0
    { s with lantern := { s.lantern with changes := s.lantern.changes + 1 } }).ibi 0x04

/-- The state `t` reached from `s` in one instant, with the change of the status word or of PITCH_STAGE signalled. -/
def settle (s t : State) : State :=
  if s.lsWord = t.lsWord ∧ s.lantern.stage = t.lantern.stage then t else t.signalLs

/-! ## Changes of the geometry record -/

/-- A change of the geometry record while the device runs: GEO_GENERATION passes through an odd value to the next even
one, and a GEOMETRY event names the cause and the unit (01_seven_levels.md R38, Table 16-6). LS_GEO_ODD sets and clears on the way, two
changes of the Lantern status word. -/
def State.geoChange (s : State) (cause unit : Nat) : State :=
  if s.ready || s.computeReset then
    ({ s with geo := { s.geo with generation := s.geo.generation + 2 } }).signalLs.signalLs.postArgs 0x0402 (cause * 2 ^ 24 + unit) 1
      (s.geo.generation + 2).toNat cause unit
  else s

/-- Link shares of port n. -/
def RationSet.link (r : RationSet) (n : Nat) : LinkRation := look r.links n {}

/-- Warden shares of cluster c. -/
def RationSet.warden (r : RationSet) (c : Nat) : WardenRation := look r.wardens c {}

end Sys2Proof.Machine
end

