-- ==== Sys2Proof/Machine/Flits.lean ====
section
/-! DEFINITION. Sending Silman flits: credits, the replay buffer and the counters (12_silman_and_seam.md R333 to R336). -/

namespace Sys2Proof.Machine

open Sys2Proof

/-- The replay buffer's room in flits (R334). -/
def replayRoom : Nat := 512

/-- Hops, source and destination in the header of a flit that leaves this node; 0 in a link-local one (R331, R332). -/
def Flit.route (own : BitVec 12) : Flit → BitVec 6 × BitVec 12 × BitVec 12
  | .data _ dst _ => (0, own, dst)
  | .slotFrame dst _ _ => (0, own, dst)
  | .completionFrame dst _ => (0, own, dst)
  | .ownerNotice dst => (0, own, dst)
  | .joinNotice dst => (0, own, dst)
  | .forwarded _ hops src dst _ _ _ => (hops, src, dst)
  | _ => (0, 0, 0)

/-- The header of a flit that leaves a port (Table 12-4): FL_SEQ, FL_ACK and the key phase as the port stands. Credits go back in FC
flits alone. -/
def SlPort.header (p : SlPort) (own : BitVec 12) (vc : Fin 4) (seq : Nat) (f : Flit) : FlitHdr :=
  { vc := vc, hops := (f.route own).1, keyPhase := p.keyPhase, src := (f.route own).2.1, dst := (f.route own).2.2,
    seq := BitVec.ofNat 32 seq, ack := BitVec.ofNat 16 p.rxNext, credVc := 0, credits := 0, check := true }

/-- The active lanes of a port: all four, or the pair of two without a failed lane (R330). -/
def SlPort.active (p : SlPort) (lane : Nat) : Bool :=
  decide (p.lanes = 4) || (decide (p.lanes = 2) && (if p.failedLanes &&& 0x3 = 0 then decide (lane < 2) else decide (2 ≤ lane)))

/-- The lane of a sequenced flit: flit k goes to active lane k mod n (R327). -/
def SlPort.laneOf (p : SlPort) (seq : Nat) : Option (Fin 4) :=
  let l := (List.range 4).filter p.active
  (l[seq % l.length]?).map (Fin.ofNat 4)

/-- Flits that one key protects, at most (R338). -/
def keyLimit : Nat := 2 ^ 40

/-- Send one sequenced flit on a port that may send it: it takes the next number, a credit and a place in the replay
buffer. -/
def SlPort.sendOne (p : SlPort) (own : BitVec 12) (vc : Fin 4) (f : Flit) : SlPort :=
  { p with
    txSeq := p.txSeq + 1
    underKey := p.underKey + 1
    credits := upd p.credits vc 0 (fun c => c - 1)
    replayBuf := p.replayBuf ++ [{ seq := p.txSeq, hdr := p.header own vc p.txSeq f, flit := f }] }

/-- A sequenced flit of this channel may go: KEYED under a key not worn out, a credit held, and room in the replay buffer (R333, R334,
R338). -/
def SlPort.maySend (p : SlPort) (vc : Fin 4) : Bool :=
  decide (p.state = .keyed) && decide (p.underKey < keyLimit) && decide (0 < look p.credits vc 0) && decide (p.replayBuf.length < replayRoom)

/-- A flit of the replay buffer goes out, the first time or again. -/
def State.emitSeq (s : State) (n : Nat) (e : Replay) : State := s.emit (.flit (Fin.ofNat 18 n) ((s.sl n).laneOf e.seq) e.hdr e.flit)

/-! ## Link Rations (10_rack_time_rations.md R285) -/

/-- A frame of class 2 (12_silman_and_seam.md R352). -/
def Flit.classTwo : Flit → Bool
  | .data _ _ m => decide (m.cls = 2)
  | .forwarded _ _ _ _ _ m _ => m.any (fun x => decide (x.cls = 2))
  | _ => false

/-- A flit is bulk: on VC3, or of class 2. -/
def isBulk (vc : Fin 4) (f : Flit) : Bool := decide (vc = 3) || f.classTwo

/-- Time of a flit on the lanes of a port, in 1/5 ns: 6.4 ns on one lane (12_silman_and_seam.md Table 12-1). -/
def SlPort.flitTime (p : SlPort) : Nat := if p.lanes = 0 then 32 else 32 / p.lanes

/-- The shares of a port give a flit time in this period: VC0 is the unrationed reserve; RATION_LINK_BULK caps bulk; data has
RATION_LINK_DATA, and while that is nonzero the time unused by bulk. -/
def SlPort.hasTime (p : SlPort) (r : LinkRation) (vc : Fin 4) (f : Flit) : Bool :=
  let all := p.dataSpent + p.bulkSpent + p.flitTime
  if vc = 0 then true
  else if isBulk vc f then decide (p.bulkSpent + p.flitTime ≤ 5 * r.bulk.toNat) && decide (all ≤ 5 * (r.data.toNat + r.bulk.toNat))
  else decide (r.data ≠ 0) && decide (all ≤ 5 * (r.data.toNat + r.bulk.toNat))

/-- A flit is charged to the period in which it begins. -/
def SlPort.charged (p : SlPort) (vc : Fin 4) (f : Flit) : SlPort :=
  if vc = 0 then p
  else if isBulk vc f then { p with bulkSpent := p.bulkSpent + p.flitTime }
  else { p with dataSpent := p.dataSpent + p.flitTime }

/-- Send every waiting flit that may go, in order within each channel: the port, the flits sent, those left. -/
def drainList (r : LinkRation) (own : BitVec 12) (p : SlPort) : List (Fin 4 × Flit) → SlPort × List Replay × List (Fin 4 × Flit)
  | [] => (p, [], [])
  | (vc, f) :: rest =>
    if p.maySend vc && p.hasTime r vc f then
      let (q, sent, left) := drainList r own ((p.sendOne own vc f).charged vc f) rest
      (q, { seq := p.txSeq, hdr := p.header own vc p.txSeq f, flit := f } :: sent, left)
    else
      let (q, sent, left) := drainList r own p rest
      (q, sent, (vc, f) :: left)

/-- The key of a KEYED port has served for 24 h: nothing is sent under it before the rekey (R338). -/
def State.keyWorn (s : State) (n : Nat) : Bool := decide ((s.sl n).state = .keyed) && decide ((s.sl n).keyedAt + ms 86400000 ≤ s.now)

/-- Send what waits on port `n` and may go. -/
def State.drainTx (s : State) (n : Nat) : State :=
  if s.keyWorn n then s else
  let (p, sent, left) := drainList (s.rations.committed.link n) (s.links.nodeId.getD 0) (s.sl n) (s.sl n).waiting
  sent.foldl (fun (t : State) e => t.emitSeq n e) (s.setSl n (fun _ => { p with waiting := left }))

/-- A period begins: the shares of every port start again, and what waited for them goes (10_rack_time_rations.md R285). -/
def State.linkPeriod (s : State) : State :=
  (s.links.ports.filter (fun e => decide (e.2.dataSpent + e.2.bulkSpent ≠ 0) || !e.2.waiting.isEmpty)).foldl
    (fun (t : State) e => (t.setSl e.1 (fun p => { p with dataSpent := 0, bulkSpent := 0 })).drainTx e.1) s

/-- New traffic waits on a port: KEYED, or between keys with its replay state kept (R337). A port that trains or retrains loses it
(14_pitch.md Table 14-8). -/
def SlPort.keeps (p : SlPort) : Bool := decide (p.state = .keyed) || (decide (p.state = .upClear) && decide (p.txSeq ≠ 0))

/-- Send a sequenced flit on port `n`, behind those that wait. -/
def State.sendSeq (s : State) (n : Nat) (vc : Fin 4) (f : Flit) : State :=
  if (s.sl n).keeps then (s.setSl n (fun p => { p with waiting := p.waiting ++ [(vc, f)] })).drainTx n else s

/-- Send an unsequenced flit on port `n`: in KEYED it takes the next unsequenced counter value (R336), and a KEY flit is
protected by the exchange itself. -/
def State.sendUnseq (s : State) (n : Nat) (f : Flit) : State :=
  let p := s.sl n
  let out (t : State) (seq : Nat) : State := t.emit (.flit (Fin.ofNat 18 n) none (p.header 0 0 seq f) f)
  match f with
  | .key _ _ => out s 0
  | _ =>
    if p.state = .keyed then
      (if p.underKey < keyLimit ∧ !s.keyWorn n then out (s.setSl n (fun q => { q with txUnseq := q.txUnseq + 1, underKey := q.underKey + 1 })) p.txUnseq else s)
    else out s 0

/-- Send a management frame to the peer of controller 3 when it is present (R354): VC0. -/
def State.toPeer (s : State) (mk : BitVec 12 → Flit) : State :=
  if s.present 3 then
    s.sendSeq (s.links.route s.settings.lkPeerNode.toNat) 0 (mk (BitVec.ofNat 12 s.settings.lkPeerNode.toNat))
  else s

end Sys2Proof.Machine
end

