-- ==== Sys2Proof/Machine/Operands.lean ====
section
/-! DEFINITION. Operand forms: where a slot, an order header and a descriptor hold their fields
(08_warden_mailboxes.md Table 08-3, 09_work_orders.md Table 09-2, Table 09-3), and how a rejection names a field. -/

namespace Sys2Proof.Machine

open Sys2Proof

/-- MB_CMD of a slot's 256 bytes. -/
def mbCmd (b : List Byte) : Nat := field b 0 2

/-- MB_SEQ. -/
def mbSeq (b : List Byte) : BitVec 15 := BitVec.ofNat 15 (field b 2 2)

/-- MB_SEALED. -/
def mbSealed (b : List Byte) : Bool := bit (field b 0 4) 31

/-- MB_READ_ONLY. -/
def mbReadOnly (b : List Byte) : Bool := bit (field b 4 1) 0

/-- MB_PRIORITY. -/
def mbPriority (b : List Byte) : Nat := bits (field b 4 1) 1 3

/-- MB_HOST_TAG. -/
def mbHostTag (b : List Byte) : BitVec 64 := BitVec.ofNat 64 (field b 8 8)

/-- MB_RING. -/
def mbRing (b : List Byte) : BitVec 16 := BitVec.ofNat 16 (field b 16 2)

/-- The region a rejection's detail word names (R253): descriptor, slot, order header. -/
inductive Region where
  | descriptor
  | slot
  | header
  deriving DecidableEq, Repr

/-- The number of a region in bits [17:16] of the detail word. -/
def Region.code : Region → Nat
  | .descriptor => 0
  | .slot => 1
  | .header => 2

/-- The detail word of a rejection: region and byte offset (09_work_orders.md R253). -/
def faultAt (r : Region) (off : Nat) : BitVec 32 := BitVec.ofNat 32 (r.code * 65536 + off % 65536)

/-- No single field is at fault. -/
def noField : Nat := 0xFFFF

/-- A check: whether it fails, the status it then gives, and the offset of the field. -/
abbrev Check := Bool × Status × Nat

/-- The first check that fails decides (09_work_orders.md R253). -/
def firstFault (r : Region) (l : List Check) : Option (Status × BitVec 32) :=
  match l with
  | [] => none
  | (bad, st, off) :: rest => if bad then some (st, faultAt r off) else firstFault r rest

/-! ## Descriptor header fields -/

/-- OP_CODE. -/
def opCode (d : List Byte) : Nat := field d 0 2

/-- OP_PAIR. -/
def opPair (d : List Byte) : Nat := bits (field d 2 2) 0 10

/-- OP_FENCE. -/
def opFence (d : List Byte) : Nat := bits (field d 4 1) 0 2

/-- MEM_CLASS. -/
def opClass (d : List Byte) : Nat := bits (field d 4 1) 2 2

/-- OP_NDEP. -/
def opNdep (d : List Byte) : Nat := field d 5 1

/-- The predecessors named. -/
def opDeps (d : List Byte) : List Nat := (List.range (opNdep d)).map (fun k => field d (8 + 2 * k) 2)

/-- A signed 32-bit field. -/
def fieldS32 (d : List Byte) (off : Nat) : Int := toInt 32 (field d off 4)

/-- A strided operand X_BASE, X_STRIDE, X_FMT, X_SCALE packed from an offset that is a multiple of 8 (R248). -/
structure Strided where
  base : Nat
  stride : Nat
  fmt : Nat
  scale : Nat
  /-- Offset of X_BASE. -/
  off : Nat
  deriving DecidableEq, Repr

/-- X_BASE (8), X_STRIDE (4), X_FMT (1), X_SCALE (8, aligned) from offset `off`. -/
def strided (d : List Byte) (off : Nat) : Strided :=
  { base := field d off 8, stride := field d (off + 8) 4, fmt := field d (off + 12) 1,
    scale := field d (off + 16) 8, off := off }

end Sys2Proof.Machine
end

