-- ==== Sys2Proof/Machine/Vaults.lean ====
section
/-! DEFINITION. Module memory: the address map, windows, code words, the merge buffer, the valid map, the tower cache
and the memory error log (07_vaults_and_protection.md). -/

namespace Sys2Proof.Machine

open Sys2Proof

/-! ## Addresses (R170, R173, R176) -/

/-- First unpopulated offset of a vault window (R31). -/
def vaultBytes : Nat := 0x48000000

/-- First address of the interleaved windows. -/
def windowBase : Nat := 0x020000000000

/-- First address of the far-tier aperture. -/
def farBase : Nat := 0x040000000000

/-- Row of an offset (Table 07-2). -/
def rowOf (off : Nat) : Nat := bits off 17 14

/-- Bank of an offset. -/
def bankOf (off : Nat) : Nat := bits off 10 7

/-- Column of an offset. -/
def colOf (off : Nat) : Nat := bits off 5 5

/-- 4 KiB block of an offset. -/
def blockOf (off : Nat) : Nat := off / 4096

/-- Offset of byte `k` of row `row` of bank `bank` (Table 07-2). -/
def rowOffset (bank row k : Nat) : Nat := row * 131072 + bank * 1024 + k

/-- Module address of an offset of a pair's window (R28). -/
def modAddr (pair off : Nat) : Nat := pair * 2 ^ 31 + off

/-- Where a device address leads. -/
inductive Reach where
  | vault (pair off : Nat)
  | far (f : Nat)
  | unpopulated
  | absent (pair off : Nat)
  | windowOff
  deriving DecidableEq, Repr

/-- A pair's window at an offset: populated and present, or not (R31); a shutdown's rail drop leaves none (11_heat_path.md
R310). -/
def State.reachPair (s : State) (pair off : Nat) : Reach :=
  if vaultBytes ≤ off then .unpopulated
  else if s.pairPresent pair && !s.thermal.dropped then .vault pair off
  else .absent pair off

/-- A window offset translated (R176). -/
def Window.translate (w : Window) (x : Nat) : Nat × Nat :=
  let g := x / 4096
  (w.tower * 64 + w.first + g % w.count, w.base + g / w.count * 4096 + x % 4096)

/-- Where a device address leads (R170, R176, R177). -/
def State.reach (s : State) (a : Nat) : Reach :=
  if a < windowBase then s.reachPair (a / 2 ^ 31) (a % 2 ^ 31)
  else if a < farBase then
    let w := look s.mem.windows ((a - windowBase) / 2 ^ 37) {}
    let x := (a - windowBase) % 2 ^ 37
    if !w.enable then .windowOff
    else if w.count * w.size ≤ x then .unpopulated
    else s.reachPair (w.translate x).1 (w.translate x).2
  else if a < 2 ^ 48 then
    if a - farBase < s.geo.farTierMib * 2 ^ 20 then .far (a - farBase) else .unpopulated
  else .unpopulated

/-- The address leads to memory at admission: a populated vault byte or far-tier byte (R31, R170, R177). -/
def State.reachable (s : State) (a : Nat) : Bool :=
  match s.reach a with
  | .vault _ _ => true
  | .far _ => true
  | _ => false

/-- Every 4 KiB piece of `[a, a + n)` leads to memory; the map changes only at multiples of 4 KiB. The address a field
names is checked where a length or a count of zero leaves no bytes there (00_scope.md R17). -/
def State.reachableRange (s : State) (a n : Nat) : Bool :=
  if n = 0 then s.reachable a else (s.reachable a && s.reachable (a + n - 1)
    && (List.range ((a + n - 1) / 4096 - a / 4096)).all (fun k => s.reachable ((a / 4096 + k + 1) * 4096)))

/-- First offset of the page pool of a pair (R173). -/
def State.poolBase (s : State) (pair : Nat) : Nat := (9216 - look s.settings.poolRows pair 0) * 131072

/-- The address lies in page-pool rows. -/
def State.inPool (s : State) (a : Nat) : Bool :=
  match s.reach a with
  | .vault p off => decide (s.poolBase p ≤ off)
  | _ => false

/-- Some 4 KiB piece of the range lies in page-pool rows. -/
def State.rangeInPool (s : State) (a n : Nat) : Bool :=
  n ≠ 0 && (s.inPool a || s.inPool (a + n - 1)
    || (List.range ((a + n - 1) / 4096 - a / 4096)).any (fun k => s.inPool ((a / 4096 + k + 1) * 4096)))

/-! ## The memory error log (R198) -/

/-- Log kinds whose event is an error and not a warning (16_faults_blast_radius.md Table 16-6). -/
def logSeverity (kind : Nat) : Nat := if kind = 3 ∨ kind = 4 ∨ kind = 9 ∨ kind = 12 then 2 else 1

/-- Remove the oldest entry that satisfies `f`. -/
def dropFirst {α : Type} (f : α → Bool) : List α → List α
  | [] => []
  | a :: r => if f a then r else a :: dropFirst f r

/-- A log entry may be replaced before others: kind CORRECTED or HARD. -/
def LogEntry.minor (e : LogEntry) : Bool := decide (e.kind = 1) || decide (e.kind = 2)

/-- Write a memory error-log entry (R198): a repeated CORRECTED at one code word merges, a full log replaces its oldest
CORRECTED or HARD entry, or else its oldest entry with MEL_OVERFLOW set in the new one; every kind but CORRECTED also
writes an event record and raises MEM_LOG. -/
def State.addLog (s : State) (pair bank kind row col symbol source group addr : Nat) : State :=
  if kind = 1 ∧ s.mem.log.any (fun e => e.kind = 1 ∧ e.addr = addr) then
    { s with mem := { s.mem with log := s.mem.log.map (fun e =>
        if e.kind = 1 ∧ e.addr = addr then { e with count := satSucc e.count } else e) } }
  else
    let full := decide (16384 ≤ s.mem.log.length)
    let minor := s.mem.log.any LogEntry.minor
    let e : LogEntry := { time := s.time.now, pair := pair, overflow := full && !minor, bank := bank, kind := kind,
                          row := row, column := col, symbol := symbol, count := 1, source := source, group := group,
                          seq := s.mem.logSeq, addr := addr }
    let kept := if full then (if minor then dropFirst LogEntry.minor s.mem.log else s.mem.log.drop 1) else s.mem.log
    let t := { s with mem := { s.mem with log := kept ++ [e], logSeq := s.mem.logSeq + 1 } }
    if kind = 1 then t
    else (t.post (0x0100 + kind) (pair * 256 + bank) (logSeverity kind) (.memLog e)).raise 36

/-- A log entry about one code word. -/
def State.logWord (s : State) (pair w kind symbol source : Nat) : State :=
  let off := w * 32
  s.addLog pair (bankOf off) kind (rowOf off) (colOf off) symbol source 0xFF (modAddr pair off)

/-- A log entry about a vault, no bank, row or symbol. -/
def State.logVault (s : State) (pair kind source group addr : Nat) : State :=
  s.addLog pair 0xFF kind 0 0 0xFF source group addr

/-! ## Code words -/

/-- The block of a pair's offset, or its bank, is retired (R199). -/
def State.isRetired (s : State) (pair off : Nat) : Bool :=
  s.mem.retired.any (fun r => decide (r.pair = pair)
    && (match r.bank with
        | some b => decide (b = bankOf off)
        | none => decide (r.block = blockOf off)))

/-- A bank of a pair is retired. -/
def State.bankRetired (s : State) (pair bank : Nat) : Bool :=
  s.mem.retired.any (fun r => decide (r.pair = pair ∧ r.bank = some bank))

/-- The valid bit of a block (R190); in fill mode every bit reads as set (R193). -/
def State.isValid (s : State) (pair block : Nat) : Bool := s.mem.fillMode || (s.vault pair).valid.contains block

/-- The stored bytes of a code word; a block whose valid bit is clear reads as zeros (R190). -/
def State.stored (s : State) (pair w : Nat) : List Byte :=
  if s.isValid pair (blockOf (w * 32)) then readBytes s.mem.bytes (modAddr pair (w * 32)) 32
  else List.replicate 32 0

/-- The bytes of a merge entry over some bytes (R188). -/
def MergeEntry.over (e : MergeEntry) (bs : List Byte) : List Byte :=
  (List.range 32).map (fun i => if e.mask.getLsbD i then readByte e.bytes i else bs.getD i 0)

/-- The merge-buffer entry of a code word. -/
def Vault.entry (v : Vault) (w : Nat) : Option MergeEntry := v.merge.find? (fun e => e.word = w)

/-- What came of reading a code word at the vault. -/
inductive WordRead where
  | ok (bytes : List Byte)
  | retired
  | bad
  deriving DecidableEq, Repr

/-- What the check symbols of one read find (R184): nothing, one symbol corrected, an error detected, or, with three and
more symbols in error, possibly a correction of the wrong symbol. -/
inductive Found where
  | clean
  | one (symbol : Nat)
  | wrong (symbol : Nat)
  | lost
  deriving DecidableEq, Repr

/-- What a read finds of a word whose symbols `l` err: any one error is corrected and any two are detected; of more the rule
says nothing, so the outcome is a free value (R184). -/
def Found.of (l : List Nat) (detect symbol : Nat) : Found :=
  match l.foldl insertNat [] with
  | [] => .clean
  | [x] => .one x
  | [_, _] => .lost
  | _ => if detect % 2 = 0 then .lost else .wrong (symbol % 36)

/-- The symbol a finding gives the error log. -/
def Found.symbol : Found → Nat
  | .one x => x
  | .wrong x => x
  | _ => 0xFF

/-- What the controller makes of a stored code word. -/
inductive Checked where
  | ok (bytes : List Byte)
  | lost
  | poison
  deriving DecidableEq, Repr

/-- A word without errors has no entry. -/
def CellState.isClean (c : CellState) : Bool := c.soft.isEmpty && c.hard.isEmpty && c.once.isEmpty && !c.poison

/-- The cell state of a word changed. -/
def Vault.setCell (v : Vault) (w : Nat) (c : CellState) : Vault :=
  { v with cells := if c.isClean then del v.cells w else put v.cells w c }

/-- Cell states of the words that satisfy `p`, once these are rewritten: only hard symbols err again (R195). -/
def Vault.rewrite (v : Vault) (p : Nat → Bool) : Vault :=
  { v with cells := v.cells.filterMap (fun e =>
      if !p e.1 then some e else if e.2.hard.isEmpty then none else some (e.1, { hard := e.2.hard })) }

/-- Read and check a stored code word of a valid block for log source `src`: an uncorrectable word is read once more, and
what could be read or corrected is delivered with a CORRECTED entry (R184, R186, R187). -/
def State.checkWord (s : State) (pair w src : Nat) : Checked × State :=
  match look? (s.vault pair).cells w with
  | none => (.ok (s.stored pair w), s)
  | some c =>
    if c.poison then (.poison, s)
    else
      let (pick, s0) := s.drawMany
      let t := s0.setVault pair (fun v => v.setCell w { c with once := [] })
      let free := (List.range 32).map (fun k => BitVec.ofNat 8 (pick (k + 4)))
      let first := Found.of (c.soft ++ c.hard ++ c.once) (pick 0) (pick 1)
      let second := Found.of (c.soft ++ c.hard) (pick 2) (pick 3)
      match first, second with
      | .clean, _ => (.ok (s.stored pair w), t)
      | .one x, _ => (.ok (s.stored pair w), t.logWord pair w 1 x src)
      | .wrong x, _ => (.ok free, t.logWord pair w 1 x src)
      | .lost, .lost => (.lost, t)
      | .lost, .wrong x => (.ok free, t.logWord pair w 1 x src)
      | .lost, f => (.ok (s.stored pair w), t.logWord pair w 1 f.symbol src)

/-- Set the valid bit of a block (R191). -/
def State.setValid (s : State) (pair block : Nat) : State :=
  s.setVault pair (fun v => { v with valid := insertNat v.valid block })

/-- Write every code word of a block as poison and set its bit (R194). -/
def State.poisonBlock (s : State) (pair block : Nat) : State :=
  let t := { s with mem := { s.mem with bytes := clearRange s.mem.bytes (modAddr pair (block * 4096)) 4096 } }
  (t.setVault pair (fun v => { v with cells := (List.range 128).foldl (fun m k =>
    upd m (block * 128 + k) {} (fun c => { hard := c.hard, poison := true })) v.cells })).setValid pair block

/-- Consult the valid map about a block for log source `src`: a map word that reads uncorrectable costs its 64 blocks, which
become poison with their bits set, and MAP_LOST is logged (R194). -/
def State.readMap (s : State) (pair block src : Nat) : State :=
  let k := block / 64
  if (s.vault pair).mapBad.contains k && !s.mem.fillMode then
    let t := s.setVault pair (fun v => { v with mapBad := removeNat v.mapBad k })
    ((List.range 64).foldl (fun (x : State) j => x.poisonBlock pair (64 * k + j)) t).addLog pair 0xFF 12 (rowOf (64 * k * 4096)) 0 0xFF src
      0xFF (modAddr pair (64 * k * 4096))
  else s

/-- Read a code word at the vault controller for log source `src` (R186 to R188, R190, R199): a word of a block whose bit
is clear reads as zeros without a check. -/
def State.readWord (s : State) (pair w src : Nat) : WordRead × State :=
  if s.isRetired pair (w * 32) then (.retired, s)
  else
    let t := s.readMap pair (blockOf (w * 32)) src
    let view (bs : List Byte) : List Byte := match (t.vault pair).entry w with
      | some e => e.over bs
      | none => bs
    if !t.isValid pair (blockOf (w * 32)) then (.ok (view (t.stored pair w)), t)
    else match t.checkWord pair w src with
      | (.ok bs, u) => (.ok (view bs), u)
      | (.lost, u) => (.bad, u.logWord pair w 3 0xFF src)
      | (.poison, u) => (.bad, u)

/-- Fill a block whose valid bit is clear: zeros, and the bit set (R191). -/
def State.fillBlock (s : State) (pair block : Nat) : State :=
  let s0 := s.readMap pair block 0
  if s0.isValid pair block then s0
  else
    let t := { s0 with mem := { s0.mem with bytes := clearRange s0.mem.bytes (modAddr pair (block * 4096)) 4096 } }
    (t.setVault pair (fun v => v.rewrite (fun w => decide (blockOf (w * 32) = block)))).setValid pair block

/-- Store bytes within one code word, with fresh check symbols: only hard symbols err again. -/
def State.storeWord (s : State) (pair w : Nat) (bs : List Byte) : State :=
  let t := s.fillBlock pair (blockOf (w * 32))
  let u := { t with mem := { t.mem with bytes := writeBytes t.mem.bytes (modAddr pair (w * 32)) bs } }
  u.setVault pair (fun v => v.rewrite (fun k => decide (k = w)))

/-- Write a code word as poison (R187). -/
def State.poisonWord (s : State) (pair w : Nat) : State :=
  (s.fillBlock pair (blockOf (w * 32))).setVault pair (fun v =>
    { v with cells := upd v.cells w {} (fun c => { hard := c.hard, poison := true }) })

/-! ## The merge buffer (R188, R189) -/

/-- Operations of the owners of a merge entry whose word cannot be read end MEMORY_UNCORRECTABLE while in flight
(R189). -/
def State.failOwners (s : State) (owners : List (Nat × Nat)) (addr : Nat) : State :=
  { s with warden := { s.warden with tags := s.warden.tags.map (fun c =>
      { c with order := c.order.map (fun o => { o with ops := o.ops.zipIdx.map (fun (op, i) =>
          if owners.contains (c.tag, i) then
            match op.phase with
            | .running _ => { op with phase := .running { status := .memoryUncorrectable, result := BitVec.ofNat 64 addr } }
            | _ => op
          else op) }) }) } }

/-- Write out one merge entry: whole when its mask is full, else by read-modify-write (R188, R189). -/
def State.writeOut (s : State) (pair : Nat) (e : MergeEntry) : State :=
  let s0 := s.setVault pair (fun v => { v with merge := v.merge.filter (fun x => x.word ≠ e.word) })
  if e.mask = BitVec.allOnes 32 then s0.storeWord pair e.word (e.over [])
  else
    let t := s0.readMap pair (blockOf (e.word * 32)) 3
    if !t.isValid pair (blockOf (e.word * 32)) then t.storeWord pair e.word (e.over (List.replicate 32 0))
    else match t.checkWord pair e.word 3 with
      | (.ok bs, u) => u.storeWord pair e.word (e.over bs)
      | (.poison, u) => u.failOwners e.owners (modAddr pair (e.word * 32))
      | (.lost, u) => ((u.poisonWord pair e.word).logWord pair e.word 4 0xFF 3).failOwners e.owners (modAddr pair (e.word * 32))

/-- Write out every merge entry of a vault, oldest first. -/
def State.flushMerge (s : State) (pair : Nat) : State :=
  (s.vault pair).merge.foldl (fun t e => t.writeOut pair e) s

/-- Bytes of a write within a code word, merged over what the entry holds. -/
def MergeEntry.add (e : MergeEntry) (pos : Nat) (bs : List Byte) (now : Nat) (who : Nat × Nat) : MergeEntry :=
  { e with
    bytes := writeBytes e.bytes pos bs
    mask := e.mask ||| (BitVec.ofNat 32 ((2 ^ bs.length - 1) * 2 ^ pos))
    writtenAt := now
    owners := if e.owners.contains who then e.owners else e.owners ++ [who] }

/-- Take the bytes of a narrow write into the merge buffer: into the word's entry or a new one, the oldest entry written
out when all 16 are in use; an entry whose mask becomes full is written out at once (R188). -/
def State.mergeWrite (s : State) (pair w pos : Nat) (bs : List Byte) (who : Nat × Nat) : State :=
  let t := match (s.vault pair).entry w with
    | some _ => s
    | none =>
      match (s.vault pair).merge with
      | e :: _ => if 16 ≤ (s.vault pair).merge.length then s.writeOut pair e else s
      | [] => s
  let e := ((t.vault pair).entry w).getD
    { word := w, bytes := [], writtenAt := t.now, owners := [], mask := 0 }
  let e' := e.add pos bs t.now who
  let u := t.setVault pair (fun v =>
    { v with
      merge := if v.merge.any (fun x => x.word = w) then v.merge.map (fun x => if x.word = w then e' else x)
        else v.merge ++ [e'] })
  if e'.mask = BitVec.allOnes 32 then u.writeOut pair e' else u

/-- Write within one code word at the vault controller: a whole word is stored and replaces poison, a part goes through
the merge buffer (R187, R188). A whole-word write over an older entry drops it: the entry's bytes are older (R23). -/
def State.writeWord (s : State) (pair w pos : Nat) (bs : List Byte) (who : Nat × Nat) : State :=
  if pos = 0 ∧ bs.length = 32 then
    (s.setVault pair (fun v => { v with merge := v.merge.filter (fun x => x.word ≠ w) })).storeWord pair w bs
  else s.mergeWrite pair w pos bs who

/-! ## The tower cache (R178 to R180) -/

/-- The slice of a tower. -/
def State.slice (s : State) (t : Nat) : Slice := look s.mem.slices t {}

/-- The slice of a tower changed. -/
def State.setSlice (s : State) (t : Nat) (f : Slice → Slice) : State :=
  { s with mem := { s.mem with slices := upd s.mem.slices t {} f } }

/-- The line of a module address that a slice holds. -/
def Slice.find (c : Slice) (line : Nat) : Option Line := c.lines.find? (fun l => l.line = line)

/-- Write the dirty bytes of a line to its vault, code word by code word (R179). -/
def State.writeBack (s : State) (pair : Nat) (l : Line) : State :=
  (List.range 4).foldl (fun t k =>
    let w := (l.line * 128 % 2 ^ 31) / 32 + k
    let ds := l.dirty.filter (fun i => i / 32 = k)
    if ds.isEmpty then t
    else if ds.length = 32 then t.writeWord pair w 0 ((l.data.drop (32 * k)).take 32) (4096, 0)
    else ds.foldl (fun u i => u.writeWord pair w (i % 32) [l.data.getD i 0] (4096, 0)) t) s

/-- Drop a line from its slice. -/
def State.dropLine (s : State) (line : Nat) : State :=
  s.setSlice (line * 128 / 2 ^ 37) (fun c => { c with lines := c.lines.filter (fun l => l.line ≠ line), bad := removeNat c.bad line })

/-- A line whose SRAM reads uncorrectable: a clean line is dropped and logged CORRECTED with source SLICE, a dirty
line's code words become poison (R180). -/
def State.badLine (s : State) (pair : Nat) (l : Line) : State :=
  let t := s.dropLine l.line
  let w0 := (l.line * 128 % 2 ^ 31) / 32
  if l.dirty.isEmpty then t.logWord pair w0 1 0xFF 4
  else ((List.range 4).foldl (fun u k => u.poisonWord pair (w0 + k)) t).logWord pair w0 4 0xFF 4

/-- The line a slice holds of a module address, after a line that reads uncorrectable has been dealt with. -/
def State.lineOf (s : State) (pair off : Nat) : Option Line × State :=
  let line := modAddr pair off / 128
  match (s.slice (pair / 64)).find line with
  | none => (none, s)
  | some l => if (s.slice (pair / 64)).bad.contains line then (none, s.badLine pair l) else (some l, s)

/-- The set of a line (24,576 sets of 16 ways); which set a line takes is the module's own (notes/assumptions/14.md). -/
def lineSet (line : Nat) : Nat := line % 24576

/-- A line leaves its slice: its dirty bytes are written back, or where its SRAM reads uncorrectable its code words become
poison (R179, R180). -/
def State.evict (s : State) (l : Line) : State :=
  let pair := l.line * 128 / 2 ^ 31
  if (s.slice (pair / 64)).bad.contains l.line && !l.dirty.isEmpty then s.badLine pair l else (s.writeBack pair l).dropLine l.line

/-- Make room in a line's set: with 16 lines in it a free choice of victim leaves. -/
def State.makeRoom (s : State) (line : Nat) : State :=
  let tower := line * 128 / 2 ^ 37
  let ways := (s.slice tower).lines.filter (fun l => lineSet l.line = lineSet line)
  if ways.length < 16 then s
  else
    let (n, t) := s.draw
    match ways[n % ways.length]? with
    | some l => t.evict l
    | none => t

/-- Allocate a line with the given bytes and dirty positions. -/
def State.allocate (s : State) (line : Nat) (data : List Byte) (dirty : List Nat) : State :=
  (s.makeRoom line).setSlice (line * 128 / 2 ^ 37)
    (fun c => { c with lines := c.lines ++ [{ line := line, data := data, dirty := dirty }] })

/-- Write back and invalidate every line of a vault (R27). -/
def State.flushSlice (s : State) (pair : Nat) : State :=
  ((s.slice (pair / 64)).lines.filter (fun l => l.line * 128 / 2 ^ 31 = pair)).foldl
    (fun t l => t.evict l) s

/-- Drop the merge entries and slice lines of the offsets in range of a vault without writing them. -/
def State.dropHeld (s : State) (pair : Nat) (inRange : Nat → Bool) : State :=
  (s.setVault pair (fun v => { v with merge := v.merge.filter (fun e => !inRange (e.word * 32)) })).setSlice (pair / 64)
    (fun c =>
      let keeps (x : Nat) : Bool := !(decide (x * 128 / 2 ^ 31 = pair) && inRange (x * 128 % 2 ^ 31))
      { c with lines := c.lines.filter (fun l => keeps l.line), bad := c.bad.filter keeps })

/-- The vault's channel is in narrow mode. -/
def State.narrow (s : State) (pair : Nat) : Bool := (s.vault pair).narrow.isSome

/-! ## Accesses -/

/-- What an access left behind: the state, whether a geometry change affected it (R40), and how it stopped. -/
structure Io where
  s : State
  degraded : Bool := false
  stop : Option Ending := none

/-- An access stopped with a status, a detail word and a result. -/
def Io.halt (s : State) (st : Status) (detail result : Nat) (deg : Bool := false) : Io :=
  { s := s, degraded := deg, stop := some { status := st, detail := BitVec.ofNat 32 detail, result := BitVec.ofNat 64 result } }

/-- Words read in order: the bytes, stopping at the first that cannot be delivered. -/
def State.readWords (s : State) (pair w src : Nat) : Nat → WordRead × State × Nat
  | 0 => (.ok [], s, w)
  | n + 1 =>
    match s.readWord pair w src with
    | (.ok b, t) =>
      match State.readWords t pair (w + 1) src n with
      | (.ok r, u, x) => (.ok (b ++ r), u, x)
      | (e, u, x) => (e, u, x)
    | (e, t) => (e, t, w)

/-- Every word of a line read for a fill, whatever the others give (R178, R186). -/
def State.fillWords (s : State) (pair w src : Nat) : Nat → List WordRead × State
  | 0 => ([], s)
  | n + 1 =>
    let (r, t) := s.readWord pair w src
    let (rs, u) := State.fillWords t pair (w + 1) src n
    (r :: rs, u)

/-- The bytes of words read from word index `w` on, or the first that was not delivered. -/
def joinWords : List WordRead → Nat → List Byte × Option (Nat × WordRead)
  | [], _ => ([], none)
  | .ok b :: rest, w => ((b ++ (joinWords rest (w + 1)).1), (joinWords rest (w + 1)).2)
  | r :: _, w => ([], some (w, r))

/-- The line a slice holds dirty, where a near access looks for nothing else (R179). -/
def State.dirtyLineOf (s : State) (pair off : Nat) : Option Line × State :=
  match (s.slice (pair / 64)).find (modAddr pair off / 128) with
  | some l => if l.dirty.isEmpty then (none, s) else s.lineOf pair off
  | none => (none, s)

/-- Read `n` bytes (within one 128-byte line) of a present vault. A near read of a dirty line is served from the slice;
a far read is served by the home slice and allocates, unless the class is 2, the vault is in processor mode, or the
slice is out of service (R27, R178, R179, R180). A word of the line outside the request that cannot be read leaves the
line out of the slice. -/
def State.readLine (s : State) (pair off n : Nat) (near : Bool) (cls : Nat) : List Byte × Io :=
  let failed := (s.slice (pair / 64)).failed
  if s.isRetired pair off then ([], Io.halt s .pageRetired 0 (modAddr pair (blockOf off * 4096)))
  else
  let (held, s1) := if failed then (none, s) else if near then s.dirtyLineOf pair off else s.lineOf pair off
  match held with
  | some l => ((l.data.drop (off % 128)).take n, { s := s1 })
  | none =>
    let deg := s1.narrow pair || (failed && !near)
    let alloc := !near && !failed && cls ≠ 2 && !(s1.vault pair).processor
    let w := off / 32
    let cnt := (off + n - 1) / 32 - w + 1
    if alloc then
      let (ws, t) := s1.fillWords pair (off / 128 * 4) 0 4
      let u := match joinWords ws 0 with
        | (bs, none) => t.allocate (modAddr pair off / 128) bs []
        | _ => t
      match joinWords ((ws.drop (w % 4)).take cnt) w with
      | (bs, none) => ((bs.drop (off % 32)).take n, { s := u, degraded := deg })
      | (_, some (x, .retired)) => ([], Io.halt u .pageRetired 0 (modAddr pair (blockOf (x * 32) * 4096)) deg)
      | (_, some (x, _)) => ([], Io.halt u .memoryUncorrectable 0 (modAddr pair (x * 32)) deg)
    else
      match s1.readWords pair w 0 cnt with
      | (.ok bs, t, _) => ((bs.drop (off % 32)).take n, { s := t, degraded := deg })
      | (.retired, t, x) => ([], Io.halt t .pageRetired 0 (modAddr pair (blockOf (x * 32) * 4096)) deg)
      | (.bad, t, x) => ([], Io.halt t .memoryUncorrectable 0 (modAddr pair (x * 32)) deg)

/-- Write the pieces of a byte string that fall in successive code words of a vault. -/
def State.writeWords (s : State) (pair off : Nat) (bs : List Byte) (who : Nat × Nat) : Nat → State
  | 0 => s
  | k + 1 =>
    if bs.isEmpty then s
    else
      let n := 32 - off % 32
      State.writeWords (s.writeWord pair (off / 32) (off % 32) (bs.take n) who) pair (off + n) (bs.drop n) who k

/-- Write bytes (within one 128-byte line) of a present vault. A near write first writes back and invalidates the line;
a far write of a whole line allocates without a fill, a narrower one updates the line when it is held and otherwise goes
to the vault; class 2 never allocates (R178, R179). -/
def State.writeLine (s : State) (pair off : Nat) (bs : List Byte) (near : Bool) (cls : Nat) (who : Nat × Nat) : Io :=
  if s.isRetired pair off then Io.halt s .pageRetired 0 (modAddr pair (blockOf off * 4096))
  else
    let failed := (s.slice (pair / 64)).failed
    let line := modAddr pair off / 128
    let held0 := if failed then none else (s.slice (pair / 64)).find line
    let (held, s1) := if failed ∨ near then (held0, s) else s.lineOf pair off
    let deg := s1.narrow pair
    match near, held with
    | true, some l => { s := (s1.evict l).writeWords pair off bs who 4, degraded := deg }
    | true, none => { s := s1.writeWords pair off bs who 4, degraded := deg }
    | false, some l =>
      let pos := off % 128
      let l' : Line := { l with data := splice l.data pos bs,
                                dirty := (List.range bs.length).foldl (fun d i => insertNat d (pos + i)) l.dirty }
      { s := s1.setSlice (pair / 64) (fun c => { c with lines := c.lines.map (fun x => if x.line = line then l' else x) }) }
    | false, none =>
      if bs.length = 128 ∧ cls ≠ 2 ∧ !failed ∧ !(s1.vault pair).processor then
        { s := s1.allocate line bs (List.range 128) }
      else { s := s1.writeWords pair off bs who 4, degraded := deg || failed }

/-- The status an access ends with that reaches no memory: an absent pair is lost to work already admitted (R31), a
disabled window or an unpopulated address ends REJECT_LIMIT (R177, R170). -/
def reachStop (s : State) : Reach → Io
  | .absent p off => Io.halt s .vaultLost p (modAddr p off)
  | _ => Io.halt s .rejectLimit 0xFFFF 0

/-! ## Zeroing and retiring -/

/-- A block is retired as a block (R199). -/
def State.blockRetired (s : State) (pair block : Nat) : Bool :=
  s.mem.retired.any (fun r => decide (r.pair = pair ∧ r.bank = none ∧ r.block = block))

/-- Clear one 4 KiB block under R192: its merge entries and lines are dropped and its valid bit cleared, or zeros are
written in fill mode; a retired block is skipped. The pieces of retired banks in it stay retired. -/
def State.zeroBlock (s : State) (pair block : Nat) : State :=
  if s.blockRetired pair block then s
  else
    let t := (s.readMap pair block 0).dropHeld pair (fun off => decide (blockOf off = block))
    let u := { t with mem := { t.mem with bytes := clearRange t.mem.bytes (modAddr pair (block * 4096)) 4096 } }
    u.setVault pair (fun v => { (v.rewrite (fun w => decide (blockOf (w * 32) = block))) with valid := removeNat v.valid block })

/-- Zero `[a, a + n)` of device addresses, block by block. -/
def State.zeroRange (s : State) (a n : Nat) : State :=
  (List.range (n / 4096)).foldl (fun t k =>
    match t.reach (a + k * 4096) with
    | .vault p off => t.zeroBlock p (blockOf off)
    | _ => t) s

/-! ## Sealed ranges (15_trust_and_firmware.md R420, R421) -/

/-- A range of module addresses touches a sealed range. -/
def SealedRange.touches (r : SealedRange) (a n : Nat) : Bool :=
  decide (0 < n) && (if r.blocks.isEmpty then decide (a < r.base + r.size) && decide (r.base < a + n)
    else r.blocks.any (fun b => decide (a < b + 4096) && decide (b < a + n)))

/-- Zero and release a sealed range (15_trust_and_firmware.md R421). -/
def State.releaseRange (s : State) (r : SealedRange) : State :=
  let t := if r.blocks.isEmpty then s.zeroRange r.base r.size else r.blocks.foldl (fun (t : State) b => t.zeroRange b 4096) s
  { t with trust := { t.trust with ranges := t.trust.ranges.filter (fun x => x ≠ r) } }

/-- The module address a device address names, for the rules that speak of module addresses (R171). -/
def State.canonical (s : State) (a : Nat) : Nat :=
  match s.reach a with
  | .vault p off => modAddr p off
  | _ => a

/-- The range is refused to work of controller `ctrl` admitted under `epoch` (R420): some sealed range it names belongs
to another controller or another epoch. Windows are translated piece by piece. -/
def State.sealedAgainst (s : State) (ctrl : Nat) (epoch : BitVec 32) (a n : Nat) : Bool :=
  s.trust.ranges.any (fun r =>
    !(decide (r.ctrl.val = ctrl) && decide (r.epoch = epoch))
    && (if a < windowBase ∨ farBase ≤ a then r.touches a n
        else (List.range (n / 4096 + 2)).any (fun k =>
          let lo := max a ((a / 4096 + k) * 4096)
          let hi := min (a + n) ((a / 4096 + k + 1) * 4096)
          decide (lo < hi) && r.touches (s.canonical lo) (hi - lo))))

/-- Some command of a sealed range's owner and epoch is admitted and not yet recorded (R421). -/
def State.rangeBusy (s : State) (r : SealedRange) : Bool :=
  s.warden.tags.any (fun c => decide (c.ctrl = r.ctrl) && decide (c.epoch = r.epoch) && c.asOwner)

/-- Zero and release the sealed ranges whose former owner's commands have all been recorded (R421). -/
def State.sweepRanges (s : State) : State :=
  (s.trust.ranges.filter (fun r => r.draining && !s.rangeBusy r)).foldl (fun (t : State) r => t.releaseRange r) s

/-- At a change of owner every sealed range is to be released (R421). -/
def State.drainRanges (s : State) : State :=
  State.sweepRanges { s with trust := { s.trust with ranges := s.trust.ranges.map (fun r => { r with draining := true }) } }

end Sys2Proof.Machine
end

