-- ==== Sys2Proof/Machine/Records.lean ====
section
/-! DEFINITION. Tags, completion records, rings and their interrupts (08_warden_mailboxes.md R217 to R223, 09_work_orders.md
R262 to R264). -/

namespace Sys2Proof.Machine

open Sys2Proof

/-- Status codes (09_work_orders.md Table 09-9). -/
def Status.code : Status → Nat
  | .coolantAbort => 0x0401
  | .thermalAbort => 0x0400
  | .struck => 0x0200
  | .firmwareFault => 0x0700
  | .securityRefused => 0x0500
  | .vaultLost => 0x0301
  | .memoryUncorrectable => 0x0300
  | .pageRetired => 0x0302
  | .linkDown => 0x0600
  | .rejectNotOwner => 0x0100
  | .rejectFormat => 0x0101
  | .rejectLimit => 0x0102
  | .rejectState => 0x0103
  | .rejectInvalidZero => 0x0104
  | .doneDegraded => 0x0002
  | .doneEmptyRow => 0x0003
  | .done => 0x0000
  | .doneEmpty => 0x0001

/-- Ranks of statuses: 1 is the highest (Table 09-9). -/
def Status.rank : Status → Nat
  | .coolantAbort => 1
  | .thermalAbort => 2
  | .struck => 3
  | .firmwareFault => 4
  | .securityRefused => 5
  | .vaultLost => 6
  | .memoryUncorrectable => 7
  | .pageRetired => 8
  | .linkDown => 9
  | .rejectNotOwner => 10
  | .rejectFormat => 11
  | .rejectLimit => 12
  | .rejectState => 13
  | .rejectInvalidZero => 14
  | .doneDegraded => 15
  | .doneEmptyRow => 16
  | .done => 17
  | .doneEmpty => 18

/-- Statuses 0x0000 to 0x0003: the operation satisfies its dependents (R255). -/
def Status.good (s : Status) : Bool := decide (s.code ≤ 3)

/-- Tags held: admitted commands and records that still hold theirs (R220). -/
def State.tagsHeld (s : State) : List Nat := s.warden.tags.map (·.tag) ++ s.warden.records.filterMap (·.tag)

/-- The tag limit (Table 09-8a). -/
def tagLimit : Nat := 4096

/-- A tag is free. -/
def State.tagFree (s : State) : Bool := decide (s.tagsHeld.length < tagLimit)

/-- The reserve of untagged places has room (R220). -/
def State.reserveFree (s : State) : Bool := decide ((s.warden.records.filter (fun r => r.tag.isNone)).length < 1024)

/-- The lowest number from `n` on that is not in the list, looked for in `fuel` steps. -/
def lowestFree (l : List Nat) (n : Nat) : Nat → Nat
  | 0 => n
  | k + 1 => if l.contains n then lowestFree l (n + 1) k else n

/-- The tag the next admitted command takes: the lowest free number (notes/assumptions/20.md). -/
def State.nextTag (s : State) : Nat := lowestFree s.tagsHeld 0 s.tagsHeld.length

/-- An adoption covers a record: work of a host controller bound at admission to the source ring; MB_RING binds nothing for
controllers 2 and 3 (R222, R232). -/
def Adoption.covers (a : Adoption) (r : Rec) : Bool := decide (a.srcCtrl.val < 2) && decide (r.bound = (a.srcCtrl, a.srcRing)) && r.adoptable

/-- The ring a record goes to: its own, or the ring that adopted it last (R232). -/
def adopt (l : List Adoption) (adm : Nat) (r : Rec) : Rec :=
  match l.find? (fun a => a.covers r && decide (adm < a.before)) with
  | some a => { r with ctrl := a.dstCtrl, ring := a.dstRing }
  | none => r

/-- Form a record: it waits in the completion buffer in completion order (R219). -/
def State.addRec (s : State) (r : Rec) : State :=
  { s with warden := { s.warden with records := s.warden.records ++ [r] } }

/-- Commands whose records the Lantern's hardware writes: the status commands and the reads it serves itself (09_work_orders.md
Table 09-1). -/
def hardwareCode (code : Nat) : Bool :=
  decide (0x0F01 ≤ code ∧ code ≤ 0x0F15) || decide (code = 0x0500) || decide (code = 0x0501) || decide (code = 0x0600)

/-- The record of a command that ends with `e` and `done` operations completed (Table 09-8b). -/
def Cmd.record (c : Cmd) (now : BitVec 64) (opsDone : Nat) (e : Ending) : Rec :=
  { ctrl := c.ctrl, ring := c.ring, tag := some c.tag, hostTag := c.hostTag, status := e.status,
    opsDone := BitVec.ofNat 16 opsDone,
    detail := if e.status = .done ∨ e.status = .doneDegraded ∨ e.status = .doneEmptyRow ∨ e.status = .doneEmpty
      then (if c.order.isSome then e.flags.setWidth 32 else e.detail) else e.detail,
    time := now, result := e.result, adoptable := c.asOwner && !c.readOnly
    bound := (c.ctrl, c.ring), hardware := c.struck.isSome || hardwareCode c.code.toNat }

/-- The admitted command that holds a tag. -/
def State.cmd (s : State) (tag : Nat) : Option Cmd := s.warden.tags.find? (fun c => c.tag = tag)

/-- An admitted command changed. -/
def State.setCmd (s : State) (tag : Nat) (f : Cmd → Cmd) : State :=
  { s with warden := { s.warden with tags := s.warden.tags.map (fun c => if c.tag = tag then f c else c) } }

/-- End the command that holds a tag: it leaves the tag table, its record is formed and holds the tag (R220, R263). -/
def State.endCmd (s : State) (tag : Nat) (e : Ending) (opsDone : Nat := 0) : State :=
  match s.cmd tag with
  | none => s
  | some c =>
    let t := { s with warden := { s.warden with tags := s.warden.tags.filter (fun x => x.tag ≠ tag) } }
    (if c.discard then t else t.addRec (adopt s.warden.adoptions c.adm (c.record s.time.now opsDone e))).sweepRanges

/-- The 32 bytes of a record (Table 09-8b). -/
def Rec.bytes (r : Rec) : List Byte :=
  leBytes 8 r.hostTag.toNat ++ leBytes 2 r.status.code ++ leBytes 2 r.opsDone.toNat ++ leBytes 4 r.detail.toNat
    ++ leBytes 8 r.time.toNat ++ leBytes 8 r.result.toNat

/-! ## Rings -/

/-- The entries of a ring. -/
def RingCfg.entries (c : RingCfg) : Nat := 2 ^ c.sizeLog2.toNat

/-- CR_TAIL − CR_HEAD modulo 2^32. -/
def Ring.waiting (r : Ring) : Nat := (r.tail - r.head).toNat

/-- The ring is enabled in the committed set. -/
def HostPort.ringOn (h : HostPort) (ring : Nat) : Bool := (look h.committed ring {}).enable

/-- The ring is full (R219). -/
def HostPort.ringFull (h : HostPort) (ring : Nat) : Bool :=
  decide ((look h.rings ring {}).waiting = (look h.committed ring {}).entries)

/-- Write bytes to the memory of the host on port p. -/
def State.hostWrite (s : State) (p : Nat) (a : Nat) (bs : List Byte) : State :=
  s.sendHost (if p = 0 then 0 else 1) (.data a bs)

/-- Bytes of the memory of the host on port p. -/
def State.hostRead (s : State) (p : Nat) (a n : Nat) : List Byte :=
  if p = 0 then readBytes s.mem.hostW a n else readBytes s.mem.hostE a n

/-- A ring of a port changed. -/
def State.setRing (s : State) (p ring : Nat) (f : Ring → Ring) : State :=
  s.setPort p (fun h => { h with rings := upd h.rings ring {} f })

/-- Send a ring's interrupt: its records are unsignalled no more (R221). -/
def State.signalRing (s : State) (p : Fin 2) (ring : Nat) : State :=
  (s.setRing p ring (fun r => { r with unsignalled := 0 })).msix p (look (s.port p).committed ring {}).vector.toNat

/-- Whether an interrupt is due as a record is written (R221): by count, with no moderation at all, or by a status
outside 0x0000 to 0x0003. -/
def Ring.dueNow (r : Ring) (st : Status) : Bool :=
  (decide (r.modCount ≠ 0) && decide (r.modCount.toNat ≤ r.unsignalled))
    || (decide (r.modCount = 0) && decide (r.modTime = 0)) || !st.good

/-- Write a record into an enabled ring with room: the record, CR_TAIL, the tail word, and the interrupt due (R218). -/
def State.ringWrite (s : State) (p : Fin 2) (ring : Nat) (r : Rec) : State :=
  let cfg := look (s.port p).committed ring {}
  let rg := look (s.port p).rings ring {}
  let t := s.hostWrite p (cfg.base.toNat + 32 * (rg.tail.toNat % cfg.entries)) r.bytes
  let u := t.setRing p ring (fun x => { x with tail := x.tail + 1, unsignalled := x.unsignalled + 1,
                                               firstUnsignalled := if x.unsignalled = 0 then s.now else x.firstUnsignalled })
  let v := u.hostWrite p cfg.tailAddr.toNat (leBytes 8 (rg.tail + 1).toNat)
  if (look (v.port p).rings ring {}).dueNow r.status then v.signalRing p ring else v

/-- The completion buffer without its first record for a destination. -/
def State.dropRec (s : State) (f : Rec → Bool) : State :=
  { s with warden := { s.warden with records := dropFirst f s.warden.records } }

/-- A record of a host controller: a ring above 63, or never enabled since pitch, discards it (R223); a full or disabled
ring keeps it waiting and asserts RING_STALL (R219); otherwise it is written. -/
def State.recToRing (s : State) (p : Fin 2) (ring : Nat) (r : Rec) (sel : Rec → Bool) : State :=
  if 63 < ring ∨ !(look (s.port p).rings ring {}).everEnabled then
    (s.dropRec sel).setIntake p (fun i => { i with noRing := satSucc i.noRing })
  else if !(s.port p).ringOn ring || (s.port p).ringFull ring || !s.hostOpen p then s.raise 41
  else (s.dropRec sel).ringWrite p ring r

/-- A record of controller 2 goes to the FIFO of 16 records; a full FIFO keeps it waiting (R222). -/
def State.recToFifo (s : State) (r : Rec) (sel : Rec → Bool) : State :=
  if 16 ≤ s.warden.bmcFifo.length then s
  else
    let t := s.dropRec sel
    let u := { t with warden := { t.warden with bmcFifo := t.warden.bmcFifo ++ [r] } }
    if s.warden.bmcFifo.isEmpty then ({ u with i3c := { u.i3c with fifoAt := some u.now } }).ibi 0x01 else u

/-- A record of controller 3 goes to the peer as a management frame while the peer is present (R222,
12_silman_and_seam.md R354). -/
def State.recToPeer (s : State) (r : Rec) (sel : Rec → Bool) : State :=
  if s.present 3 then (s.dropRec sel).toPeer (fun d => .completionFrame d r.bytes) else s

/-- A record may be written now: RATION_WD_DISPATCH of the leading cluster gives completion records time, or the record is one
the hardware writes (10_rack_time_rations.md R286). -/
def State.mayRecord (s : State) (r : Rec) : Bool := r.hardware || decide ((s.rations.committed.warden s.lead).dispatch ≠ 0)

/-- Write or deliver the oldest waiting record of a controller and, on a host port, of a ring (R218 to R223). -/
def execCompletionRecordWrite (ctrl : Fin 4) (ring : Nat) (s : State) : Host.Outcome State Fault Refusal :=
  let sel : Rec → Bool := fun r => decide (r.ctrl = ctrl) && (decide (2 ≤ ctrl.val) || decide (r.ring.toNat = ring)) && s.mayRecord r
  .next (match s.warden.records.find? sel with
    | none => s
    | some r =>
      match ctrl with
      | 0 => s.recToRing 0 ring r sel
      | 1 => s.recToRing 1 ring r sel
      | 2 => s.recToFifo r sel
      | 3 => s.recToPeer r sel)

/-- The moderation time of a ring has passed since its first unsignalled record: its interrupt is sent (R221). -/
def execModerationTimeout (port : Fin 2) (ring : Fin 64) (s : State) : Host.Outcome State Fault Refusal :=
  let r := look (s.port port).rings ring {}
  .next (if r.modTime ≠ 0 ∧ 0 < r.unsignalled ∧ r.firstUnsignalled + us r.modTime.toNat ≤ s.now
    then s.signalRing port ring else s)

/-- A write of CR_MOD_COUNT and CR_MOD_TIME: an interrupt that the new values make due is sent at once (R221). -/
def State.writeModeration (s : State) (p : Fin 2) (ring : Nat) (count : BitVec 8) (time : BitVec 10) : State :=
  let t := s.setRing p ring (fun r => { r with modCount := count, modTime := time })
  if 0 < (look (s.port p).rings ring {}).unsignalled ∧ (look (t.port p).rings ring {}).dueNow .done then t.signalRing p ring else t

/-- A write of CR_HEAD that would make CR_TAIL − CR_HEAD larger than the ring is ignored (R219). -/
def State.writeHead (s : State) (p ring : Nat) (head : BitVec 32) : State :=
  let r := look (s.port p).rings ring {}
  if (look (s.port p).committed ring {}).entries < (r.tail - head).toNat then s
  else s.setRing p ring (fun x => { x with head := head })

/-- A controller writes CR_HEAD of a ring of its own port (R217, R219). -/
def execCrHeadWrite (port : Fin 2) (ring : Fin 64) (head : BitVec 32) (s : State) : Host.Outcome State Fault Refusal :=
  .next (if s.hostWrites port then s.writeHead port ring head else s)

/-! ## Apply of the rings (R217) -/

/-- The offset of the first field at fault of an enabled ring, if any: CR_BASE, CR_TAIL_ADDR, CR_SIZE_LOG2, CR_VECTOR. -/
def RingCfg.faultAt (c : RingCfg) (ring : Nat) : Option Nat :=
  if !c.enable then none
  else if c.base.toNat % 4096 ≠ 0 then some (64 * ring)
  else if c.tailAddr.toNat % 8 ≠ 0 then some (64 * ring + 0x08)
  else if c.sizeLog2.toNat < 6 ∨ 16 < c.sizeLog2.toNat then some (64 * ring + 0x10)
  else if c.vector.toNat < 2 then some (64 * ring + 0x12)
  else none

/-- The first fault of a shadow set, rings in ascending number. -/
def ringsFault : SMap RingCfg → Option Nat
  | [] => none
  | (r, c) :: rest => match c.faultAt r with
    | some o => some o
    | none => ringsFault rest

/-- CR_APPLY on a port (R13, R14, R217, R502): the intake counts clear before any check; with an apply pending nothing
more happens; an inconsistent set is rejected with its first fault; a consistent one is latched. -/
def State.applyRings (s : State) (p : Nat) : State :=
  let t := s.setIntake p (fun i => { i with skips := 0, lockedWrites := 0, noRing := 0 })
  if (t.port p).pendingSet.isSome then t
  else match ringsFault (t.port p).shadow with
    | some o => t.setPort p (fun h => { h with applyErr := true, errWhere := BitVec.ofNat 16 o })
    | none => t.setPort p (fun h => { h with pendingSet := some (h.shadow, t.now) })

/-- The controller on a host port writes 1 to CR_APPLY (R217). -/
def execCrApply (port : Fin 2) (s : State) : Host.Outcome State Fault Refusal :=
  .next (if s.hostWrites port then s.applyRings port else s)

/-- A pending ring set becomes the committed set: a ring whose CR_BASE or CR_SIZE_LOG2 changes starts again with
CR_HEAD and CR_TAIL 0, and an enabled ring has been enabled (R217, R223). -/
def HostPort.commitRings (h : HostPort) (setp : SMap RingCfg) : HostPort :=
  { h with
    committed := setp
    pendingSet := none
    rings := (List.range 64).foldl (fun m r =>
      let old := look h.committed r {}
      let new := look setp r {}
      let moved := decide (old.base ≠ new.base) || decide (old.sizeLog2 ≠ new.sizeLog2)
      if moved || new.enable then
        upd m r {} (fun x => { x with head := if moved then 0 else x.head, tail := if moved then 0 else x.tail,
                                      everEnabled := x.everEnabled || new.enable })
      else m) h.rings }

/-- Records waiting for a ring of a port: CR_WAITING (R219). -/
def State.crWaiting (s : State) (p ring : Nat) : Nat :=
  (s.warden.records.filter (fun r => decide (r.ctrl.val = p) && decide (r.ring.toNat = ring))).length

end Sys2Proof.Machine
end

