-- ==== Sys2Proof/Machine/Ownership.lean ====
section
/-! DEFINITION. Ownership: claims, the election, the lease, handover and release (08_warden_mailboxes.md R225 to R234). -/

namespace Sys2Proof.Machine

open Sys2Proof

/-- Length of the claim window. -/
def claimWindowNs : Nat := ms 50

/-- Length of the lease. -/
def leaseNs : Nat := ms 2000

/-- Length of the quiet phase. -/
def quietNs : Nat := ms 250

/-- Time in which an offer can be accepted. -/
def offerNs : Nat := ms 100

/-- Every present controller is told of an increment of OWN_EPOCH (R233): vector 1, in-band interrupt 0x03, a management
frame, and the fast source OWNER_CHANGE. -/
def State.notifyOwner (s : State) : State :=
  ((((s.hostPorts.foldl (fun (t : State) p => t.msix p 1) s)).ibi 0x03).toPeer (fun d => .ownerNotice d)).raiseFast 4

/-- Ownership ends by expiry or release (R227): OWN_VALID clears, OWN_ID and OWN_NONCE read 0, OWN_EPOCH counts, and the
device is quiet for 250 ms. -/
def State.loseOwner (s : State) : State :=
  let o := s.own
  let t := s.setOwnPort o.id (fun p => { p with formerOwner := true })
  (State.notifyOwner { t with own := { t.own with
    phase := .quiet, valid := false, id := 0, nonce := 0, epoch := o.epoch + 1, quietEnd := s.now + quietNs } }).drainRanges

/-- A controller takes ownership with a nonce (Table 08-7, Table 08-8). -/
def State.gainOwner (s : State) (c : Fin 4) (nonce : BitVec 64) : State :=
  let t := if s.own.valid then s.setOwnPort s.own.id (fun p => { p with formerOwner := true }) else s
  let u := t.setOwnPort c (fun p => { p with formerOwner := false })
  (State.notifyOwner { u with own := { u.own with
    phase := .owned, valid := true, id := c, nonce := nonce, epoch := u.own.epoch + 1, leaseEnd := s.now + leaseNs,
    claims := [] } }).drainRanges

/-- A claim of controller c with a priority and a nonce (R225): accepted in phases 0 and 1, refused in the others. -/
def State.claim (s : State) (c : Fin 4) (prio : BitVec 8) (nonce : BitVec 64) (tags : List Nat) : State :=
  let old := ((s.own.claims.find? (fun x => x.ctrl = c)).map (fun x => x.tags)).getD []
  let cl : Claim := { ctrl := c, prio := prio, nonce := nonce, tags := old ++ tags }
  match s.own.phase with
  | .opened =>
    (State.setOwnPort { s with own := { s.own with phase := .window, windowEnd := s.now + claimWindowNs, claims := [cl] } }
      c (fun p => { p with result := .pending }))
  | .window =>
    (State.setOwnPort { s with own := { s.own with claims := s.own.claims.filter (fun x => x.ctrl ≠ c) ++ [cl] } }
      c (fun p => { p with result := .pending }))
  | _ => s.setOwnPort c (fun p => { p with result := .refused })

/-- The claim `a` is preferred to `b`: lower priority number, then lower nonce, then lower controller ID (Table 08-7). -/
def Claim.beats (a b : Claim) : Bool :=
  if a.prio ≠ b.prio then decide (a.prio < b.prio)
  else if a.nonce ≠ b.nonce then decide (a.nonce < b.nonce)
  else decide (a.ctrl < b.ctrl)

/-- The winning claim of a window. -/
def electBest : List Claim → Option Claim
  | [] => none
  | a :: r => match electBest r with
    | some b => if b.beats a then some b else some a
    | none => some a

/-- The number of a claim result (Table 08-6). -/
def ClaimResult.code : ClaimResult → Nat
  | .none => 0
  | .pending => 1
  | .won => 2
  | .lost => 3
  | .refused => 4

/-- A claim is decided: its controller reads the result, and its CTL_CLAIM commands complete (Table 08-6a). -/
def State.settleClaim (s : State) (cl : Claim) (r : ClaimResult) : State :=
  cl.tags.foldl (fun (t : State) tag => t.endCmd tag { status := .done, result := BitVec.ofNat 64 r.code })
    (s.setOwnPort cl.ctrl (fun p => { p with result := r }))

/-- The claim window ends: the best claim of a present controller wins (Table 08-7). With no such claim phase 0 opens. -/
def execClaimWindowEnd (s : State) : Host.Outcome State Fault Refusal :=
  .next (if s.own.phase = .window ∧ s.own.windowEnd ≤ s.now then
    match electBest (s.own.claims.filter (fun c => s.present c.ctrl)) with
    | some w =>
      s.own.claims.foldl (fun (t : State) c => t.settleClaim c (if c.ctrl = w.ctrl then .won else .lost)) (s.gainOwner w.ctrl w.nonce)
    | none =>
      s.own.claims.foldl (fun (t : State) c => t.settleClaim c .lost) { s with own := { s.own with phase := .opened, claims := [] } }
  else s)

/-- A non-owner's write to an owner-only field is discarded and sets DENIED_WRITE on its port (R230). -/
def State.deny (s : State) (c : Nat) : State := s.setOwnPort c (fun p => { p with denied := true })

/-- OWN_RENEW (R226, R227): the owner's lease restarts; a former owner is refused with RENEW_REFUSED; anyone else is
denied. -/
def State.renew (s : State) (c : Nat) : State :=
  if s.owns c then { s with own := { s.own with leaseEnd := s.now + leaseNs } }
  else if (s.ownPort c).formerOwner then s.setOwnPort c (fun p => { p with renewRefused := true })
  else s.deny c

/-- OWN_HANDOVER (R228, Table 08-8): an offer to a present successor other than the owner; a second offer is ignored. -/
def State.handover (s : State) (c : Nat) : State :=
  if !s.owns c then s.deny c
  else if s.own.phase = .offer then s
  else if !s.present s.own.successor || decide (s.own.successor.val = c) then
    s.setOwnPort c (fun p => { p with handoverRefused := true })
  else { s with own := { s.own with phase := .offer, offerTo := s.own.successor, offerEnd := s.now + offerNs } }

/-- A standing offer names controller c: made within the last 100 ms and not lapsed (R228). -/
def State.offered (s : State) (c : Nat) : Bool :=
  decide (s.own.phase = .offer) && decide (s.own.offerTo.val = c) && decide (s.now ≤ s.own.offerEnd)

/-- OWN_ACCEPT (R228): the named successor takes ownership with its claim nonce; anyone else sets HANDOVER_REFUSED. -/
def State.accept (s : State) (c : Fin 4) : State :=
  if s.offered c then s.gainOwner c (s.ownPort c).claimNonce
  else s.setOwnPort c (fun p => { p with handoverRefused := true })

/-- OWN_RELEASE (R227). -/
def State.release (s : State) (c : Nat) : State := if s.owns c then s.loseOwner else s.deny c

/-- The controller of a host port. -/
def ctrlOf (p : Fin 2) : Fin 4 := ⟨p.val, by omega⟩

/-- OWN_CLAIM on a port, with the values of its OWN_CLAIM_PRIO and OWN_CLAIM_NONCE (R225, R496). -/
def execOwnClaim (port : Fin 2) (s : State) : Host.Outcome State Fault Refusal :=
  .next (if s.hostWrites port then
    s.claim (ctrlOf port) (s.ownPort port).claimPrio (s.ownPort port).claimNonce [] else s)

/-- OWN_RENEW on a port (R226). -/
def execOwnRenew (port : Fin 2) (s : State) : Host.Outcome State Fault Refusal :=
  .next (if s.hostWrites port then s.renew port else s)

/-- OWN_HANDOVER on a port (R228). -/
def execOwnHandover (port : Fin 2) (s : State) : Host.Outcome State Fault Refusal :=
  .next (if s.hostWrites port then s.handover port else s)

/-- OWN_ACCEPT on a port (R228). -/
def execOwnAccept (port : Fin 2) (s : State) : Host.Outcome State Fault Refusal :=
  .next (if s.hostWrites port then s.accept (ctrlOf port) else s)

/-- OWN_RELEASE on a port (R227). -/
def execOwnRelease (port : Fin 2) (s : State) : Host.Outcome State Fault Refusal :=
  .next (if s.hostWrites port then s.release port else s)

/-- The lease expires 2,000 ms after the last renewal or acquisition; a standing offer is cancelled (R227, R228). -/
def execLeaseExpiry (s : State) : Host.Outcome State Fault Refusal :=
  .next (if s.own.valid ∧ s.own.leaseEnd ≤ s.now then s.loseOwner else s)

/-- The quiet phase ends after 250 ms and phase 0 opens (R227). -/
def execQuietEnd (s : State) : Host.Outcome State Fault Refusal :=
  .next (if s.own.phase = .quiet ∧ s.own.quietEnd ≤ s.now then { s with own := { s.own with phase := .opened } } else s)

/-- An offer not accepted within 100 ms lapses; the owner stays owner (R228). -/
def execHandoverLapse (s : State) : Host.Outcome State Fault Refusal :=
  .next (if s.own.phase = .offer ∧ s.own.offerEnd ≤ s.now then { s with own := { s.own with phase := .owned } } else s)

/-- The number of a phase (Table 08-6). -/
def OwnPhase.code : OwnPhase → Nat
  | .opened => 0
  | .window => 1
  | .owned => 2
  | .offer => 3
  | .quiet => 4

/-- The word at offset 0x00 of the ownership block as controller c reads it (18_register_maps.md Table 18-3). -/
def State.ownWord (s : State) (c : Nat) : Nat :=
  ofBool s.own.valid + 2 * s.own.id.val + 16 * s.own.phase.code + 256 * (s.ownPort c).result.code

/-- OWN_LEASE_MS: milliseconds left on the lease, 0 to 2,000. -/
def State.leaseMs (s : State) : Nat := if s.own.valid then (s.own.leaseEnd - s.now) / 1000000 else 0

end Sys2Proof.Machine
end

