-- ==== Sys2Proof/Machine/Intake.lean ====
section
/-! DEFINITION. Mailbox slots, seal order, and the admission of commands (08_warden_mailboxes.md R207 to R216,
09_work_orders.md R240, R241, R253). -/

namespace Sys2Proof.Machine

open Sys2Proof

/-! ## Command codes (Table 09-1 and the command tables of the other chapters) -/

/-- What Table 09-1 says of a command: its code, whether it is of the read-only class, whether it is admitted before
READY, and whether the Lantern serves it without the Warden (R241). -/
structure CmdInfo where
  code : Nat
  ro : Bool
  before : Bool
  lantern : Bool
  deriving DecidableEq, Repr

/-- The command codes of interface revision 3.2. -/
def cmdTable : List CmdInfo :=
  [⟨0x0001, false, false, false⟩, ⟨0x0010, true, true, false⟩, ⟨0x0020, false, false, false⟩, ⟨0x0021, false, true, false⟩,
   ⟨0x0030, false, false, false⟩, ⟨0x0031, false, false, false⟩, ⟨0x0032, true, false, false⟩, ⟨0x0040, false, false, false⟩,
   ⟨0x0041, false, false, false⟩, ⟨0x0042, false, false, false⟩, ⟨0x0043, false, false, false⟩, ⟨0x0044, true, true, false⟩,
   ⟨0x0050, false, false, false⟩, ⟨0x0F01, true, true, true⟩, ⟨0x0F02, false, true, true⟩, ⟨0x0F03, false, true, true⟩] ++
  [⟨0x0F10, true, true, true⟩, ⟨0x0F11, true, true, true⟩, ⟨0x0F12, true, true, true⟩, ⟨0x0F13, true, true, true⟩,
   ⟨0x0F14, true, true, true⟩, ⟨0x0F15, true, true, true⟩, ⟨0x0100, false, true, false⟩, ⟨0x0110, false, false, false⟩,
   ⟨0x0111, true, true, false⟩, ⟨0x0200, false, true, false⟩, ⟨0x0201, false, false, false⟩, ⟨0x0202, false, false, false⟩,
   ⟨0x0203, false, true, false⟩, ⟨0x0204, false, false, false⟩, ⟨0x0210, true, true, false⟩] ++
  [⟨0x0300, false, true, false⟩, ⟨0x0301, false, false, false⟩, ⟨0x0302, false, false, false⟩, ⟨0x0303, false, false, false⟩,
   ⟨0x0304, false, false, false⟩, ⟨0x0310, true, true, false⟩, ⟨0x0320, false, false, false⟩, ⟨0x0400, false, true, false⟩,
   ⟨0x0401, false, true, false⟩, ⟨0x0410, true, true, false⟩, ⟨0x0500, true, true, true⟩, ⟨0x0501, true, true, true⟩,
   ⟨0x0510, false, true, false⟩, ⟨0x0511, false, true, false⟩, ⟨0x0512, false, true, false⟩, ⟨0x0513, false, false, false⟩] ++
  [⟨0x0514, false, true, false⟩, ⟨0x0520, false, true, false⟩, ⟨0x0530, false, false, false⟩, ⟨0x0531, false, false, false⟩,
   ⟨0x0600, true, true, true⟩, ⟨0x0601, false, true, false⟩]

/-- The row of a command code. -/
def cmdInfo (code : Nat) : Option CmdInfo := cmdTable.find? (fun c => c.code = code)

/-- A Strike code (R214). -/
def isStrike (code : Nat) : Bool := decide (0x0F01 ≤ code ∧ code ≤ 0x0F03)

/-- A command the Lantern serves without the Warden. -/
def lanternServed (code : Nat) : Bool := (cmdInfo code).any (·.lantern)

/-! ## Slots -/

/-- The 256 bytes of a slot. -/
def State.slotBytes (s : State) (c slot : Nat) : List Byte := readBytes (s.intake c).slots (256 * slot) 256

/-- The seal word of a slot. -/
def State.sealWord (s : State) (c slot : Nat) : Nat := leNat (readBytes (s.intake c).slots (256 * slot) 4)

/-- The slot is SEALED (Table 08-4). -/
def State.isSealed (s : State) (c slot : Nat) : Bool := bit (s.sealWord c slot) 31

/-- How many slots a controller has (Table 08-2). -/
def slotCount (c : Nat) : Nat := if c < 2 then 1024 else if c = 2 then 32 else 256

/-- Count a discarded write (R209, R210). -/
def State.lockedWrite (s : State) (c : Nat) : State := s.setIntake c (fun i => { i with lockedWrites := satSucc i.lockedWrites })

/-- The offset d of a number from MB_NEXT_SEQ (R212). -/
def seqOffset (seq next : BitVec 15) : Nat := (seq - next).toNat

/-- A sealed slot is presented: it joins the presented slots at the end, and MB_SEAL asserts (Table 08-10). -/
def State.presentSlot (s : State) (e : SealedSlot) : State :=
  (s.setSealed (fun l => l.filter (fun x => x ≠ e) ++ [{ e with presented := true, presentedAt := s.now }])).raise
    (32 + e.ctrl.val)

/-- The held slots of a controller with a number, presented: the first is in sequence, any other is behind it and
stale (R212). -/
def State.presentHeld (s : State) (c : Nat) (seq : BitVec 15) : State :=
  match s.warden.sealed.filter (fun e => !e.presented && decide (e.ctrl.val = c) && decide (e.seq = seq)) with
  | [] => s
  | e :: r => r.foldl (fun (t : State) x =>
      (t.setSealed (fun l => l.map (fun y => if y = x then { x with stale := true } else y))).presentSlot
        { x with stale := true }) (s.presentSlot e)

/-- A number of a controller has been received: held by a slot or marked by a Strike (R212, R214). -/
def State.seqHere (s : State) (c : Nat) (seq : BitVec 15) : Bool :=
  (s.intake c).received.contains seq
    || s.warden.sealed.any (fun e => !e.presented && decide (e.ctrl.val = c) && decide (e.seq = seq))

/-- MB_NEXT_SEQ passes its present number: what holds it is presented, a mark on it is used up. -/
def State.passSeq (s : State) (c : Nat) : State :=
  let n := (s.intake c).nextSeq
  (s.setIntake c (fun i => { i with nextSeq := n + 1, received := i.received.filter (fun x => x ≠ n) })).presentHeld c n

/-- MB_NEXT_SEQ advances past every number that follows in sequence and has been received (R212). -/
def State.advanceSeq (s : State) (c : Nat) : Nat → State
  | 0 => s
  | k + 1 => if s.seqHere c (s.intake c).nextSeq then State.advanceSeq (s.passSeq c) c k else s

/-- How many numbers can follow in sequence at most. -/
def seqFuel : Nat := 1024

/-- The scanner notices a seal (R212, R214): a Strike is presented at once whatever its offset; offset 0 is presented and
the numbering advances; 1 to 1,023 is held; anything else is stale, presented to be taken and rejected. -/
def State.scanSeal (s : State) (c : Fin 4) (slot : Nat) : State :=
  let b := s.slotBytes c slot
  let seq := mbSeq b
  let d := seqOffset seq (s.intake c).nextSeq
  let strike := isStrike (mbCmd b)
  let e : SealedSlot := { ctrl := c, slot := slot, seq := seq, at' := s.now, asOwner := s.owns c, epoch := s.own.epoch, presented := false,
                          presentedAt := 0, stale := !strike && decide (1024 ≤ d) }
  let t := s.setSealed (fun l => l ++ [e])
  if strike then
    let u := (t.presentSlot e).raiseFast 0
    if d = 0 then ((u.setIntake c (fun i => { i with nextSeq := i.nextSeq + 1 })).advanceSeq c seqFuel)
    else if d < 1024 then u.setIntake c (fun i => { i with received := i.received ++ [seq] })
    else u
  else if d = 0 then
    ((t.presentSlot e).setIntake c (fun i => { i with nextSeq := i.nextSeq + 1 })).advanceSeq c seqFuel
  else if d < 1024 then t
  else t.presentSlot e

/-- During a compute reset a seal write is discarded (14_pitch.md R403), but for the ownership commands of controllers 2
and 3, which the Lantern admits through it (R224). -/
def State.sealBarred (s : State) (c : Nat) (word : Nat) : Bool :=
  s.computeReset && !(decide (2 ≤ c) && decide (0x0F10 ≤ word % 65536 ∧ word % 65536 ≤ 0x0F15))

/-- A controller writes bytes of a slot at an offset (Table 08-4, R209, R210): a SEALED slot discards and counts the
write; otherwise bytes after the seal word are stored first, then the seal word, which seals when MB_SEALED is set. -/
def State.slotWrite (s : State) (c : Fin 4) (slot off : Nat) (bs : List Byte) : State :=
  if s.isSealed c slot then s.lockedWrite c
  else if off = 0 ∧ bit (leNat (bs.take 4)) 31 ∧ s.sealBarred c (leNat (bs.take 4)) then s.lockedWrite c
  else
    let t := s.setIntake c (fun i => { i with slots := writeBytes i.slots (256 * slot + off) bs })
    if off = 0 ∧ bit (leNat (bs.take 4)) 31 then t.scanSeal c slot else t

/-- A seal word, alone or in an aligned 8-byte write with bytes 4 to 7, arrives at a host port (R209). -/
def execSealWordWrite (port : Fin 2) (slot : Fin 1024) (word : BitVec 32) (first : Option (BitVec 32)) (s : State) :
    Host.Outcome State Fault Refusal :=
  .next (if s.hostWrites port then
    s.slotWrite (ctrlOf port) slot 0 (leBytes 4 word.toNat ++ (match first with | some f => leBytes 4 f.toNat | none => []))
  else s)

/-- Pass `n` numbers of a controller: a missing one is counted as skipped (R213). -/
def State.passGap (s : State) (c : Nat) : Nat → State
  | 0 => s
  | k + 1 =>
    let t := if s.seqHere c (s.intake c).nextSeq then s
      else s.setIntake c (fun i => { i with skips := satSucc i.skips, skipSeen := true })
    State.passGap (t.passSeq c) c k

/-- A slot held for 1 ms since its seal releases every gap below it (R213). -/
def execSealGapRelease (ctrl : Fin 4) (slot : Fin 1024) (s : State) : Host.Outcome State Fault Refusal :=
  .next (match s.warden.sealed.find? (fun e => !e.presented && decide (e.ctrl = ctrl) && decide (e.slot = slot.val)
      && decide (e.at' + ms 1 ≤ s.now)) with
    | none => s
    | some e => (s.passGap ctrl (seqOffset e.seq (s.intake ctrl).nextSeq + 1)).advanceSeq ctrl seqFuel)

/-- In Twin mode the slots of H-E are forwarded only once the Seam serves (R206, 13_host_far_ports.md R382). -/
def State.slotForwarded (s : State) (e : SealedSlot) : Bool := !(s.twin && decide (e.ctrl = 1)) || s.lantern.heForward

/-- INTAKE_BACKLOG (R216): sets when a presented slot has waited more than 100 µs, clears when none has waited more than
20 µs. -/
def execIntakeBacklog (s : State) : Host.Outcome State Fault Refusal :=
  let waited (n : Nat) := s.warden.sealed.any (fun e => e.presented && s.slotForwarded e && decide (e.presentedAt + us n < s.now))
  let b := if waited 100 then true else if waited 20 then s.lantern.backlog else false
  .next (settle s { s with lantern := { s.lantern with backlog := b } })

/-! ## Taking a slot -/

/-- The presented slot of a controller. -/
def State.presentedSlot (s : State) (c slot : Nat) : Option SealedSlot :=
  s.warden.sealed.find? (fun e => e.presented && decide (e.ctrl.val = c) && decide (e.slot = slot))

/-- The position of an entry in the list of sealed slots: presentation order. -/
def State.slotPos (s : State) (e : SealedSlot) : Nat := s.warden.sealed.findIdx (fun x => x = e)

/-- MB_PRIORITY of a sealed slot. -/
def State.slotPrio (s : State) (e : SealedSlot) : Nat := mbPriority (s.slotBytes e.ctrl e.slot)

/-- A command of the service activity: retirement, the error log and firmware update (10_rack_time_rations.md R286); the Lantern
serves attestation itself. -/
def serviceCmd (code : Nat) : Bool :=
  decide (code = 0x0042) || decide (code = 0x0043) || decide (code = 0x0044) || decide (0x0510 ≤ code ∧ code ≤ 0x0514)

/-- RATION_WD_SERVICE gives a command of the service activity time; with none it waits in its slot (notes/assumptions/57.md). -/
def State.serviceTime (s : State) (code : Nat) : Bool :=
  !serviceCmd code || decide ((s.rations.committed.warden s.lead).service ≠ 0)

/-- No presented slot that the Warden takes goes before this one: lower MB_PRIORITY first, then seal order (R215).
Strikes and the commands the Lantern serves go on paths of their own, and a stale slot is taken by the scanner. -/
def State.isNext (s : State) (e : SealedSlot) : Bool :=
  s.warden.sealed.all (fun x => !x.presented || x.stale || x.struck.isSome || !s.slotForwarded x
    || lanternServed (mbCmd (s.slotBytes x.ctrl x.slot)) || !s.serviceTime (mbCmd (s.slotBytes x.ctrl x.slot))
    || decide (s.slotPrio e < s.slotPrio x)
    || (decide (s.slotPrio e = s.slotPrio x) && decide (s.slotPos e ≤ s.slotPos x)))

/-- The slot can be taken now: the scanner takes a stale slot; the Lantern serves its own commands; the Warden takes the
next slot while it is not held in a reset and its shares are not 0 (R215, R237, R286); and a slot that needs an untagged
record, as a struck one does, waits while the reserve is full (R220). -/
def State.mayTake (s : State) (e : SealedSlot) : Bool :=
  s.lanternOn && ((s.tagFree && e.struck.isNone) || s.reserveFree) && s.slotForwarded e
    && (e.stale || e.struck.isSome || lanternServed (mbCmd (s.slotBytes e.ctrl e.slot))
        || (s.isNext e && !(s.wdog s.lead).inReset && !s.computeReset && !s.board.resetLow
            && decide ((s.rations.committed.warden s.lead).intake ≠ 0) && s.serviceTime (mbCmd (s.slotBytes e.ctrl e.slot))))

/-- Take a slot: it leaves the scanner, and its seal word reads with MB_SEALED clear (R211). -/
def State.takeSlot (s : State) (e : SealedSlot) : State :=
  (s.setSealed (fun l => l.filter (fun x => x ≠ e))).setIntake e.ctrl (fun i =>
    { i with slots := writeByte i.slots (256 * e.slot + 3) (readByte i.slots (256 * e.slot + 3) &&& 0x7F) })

/-- The record of a slot that ends without being admitted: it takes a tag when one is free and it may hold one, and is
an untagged record otherwise (R220, R263). A work order's result bits [15:0] hold 0xFFFF (R253). -/
def State.endSlot (s : State) (c : Fin 4) (b : List Byte) (st : Status) (detail : BitVec 32)
    (tagged : Bool) (result : Nat := 0) : State :=
  s.addRec { ctrl := c, ring := mbRing b, tag := if tagged && s.tagFree then some s.nextTag else none,
             hostTag := mbHostTag b, status := st, opsDone := 0, detail := detail, time := s.time.now,
             result := BitVec.ofNat 64 (if mbCmd b = 1 then 0xFFFF else result), adoptable := false, bound := (c, mbRing b), hardware := true }

/-! ## Admission (R229, R240, R241, R253) -/

/-- RESET_DEVICE kind of a slot (14_pitch.md Table 14-10). -/
def resetKind (b : List Byte) : Nat := field b 24 1

/-- A status command (R241). -/
def isStatusCmd (code : Nat) : Bool := isStrike code || decide (0x0F10 ≤ code ∧ code ≤ 0x0F15)

/-- The command needs the Warden firmware and is of the read-only class: it is rejected while that firmware does not run,
and GEOMETRY_READ before the record is built (R241). -/
def State.unavailable (s : State) (i : CmdInfo) : Bool :=
  i.ro && !i.lantern && (!s.wardenUp || (decide (i.code = 0x0010) && !s.geo.built))

/-- The commands a halt admits (14_pitch.md R393): status and read-only commands, MODE_SET, PITCH_CONFIG, and
RESET_DEVICE of a warm or cold pitch. -/
def haltAdmits (i : CmdInfo) (b : List Byte) : Bool :=
  isStatusCmd i.code || (i.ro && i.before) || decide (i.code = 0x0021) || decide (i.code = 0x0400)
    || (decide (i.code = 0x0401) && decide (resetKind b ≠ 0))

/-- The command is admitted in the present state (R240, R241, R312, R393, R434, R451). -/
def State.stateAdmits (s : State) (i : CmdInfo) (b : List Byte) : Bool :=
  !s.unavailable i &&
  (if s.trust.fwState = .recovery then
     isStatusCmd i.code || (i.ro && i.before) || decide (i.code = 0x0510) || decide (i.code = 0x0511)
       || decide (i.code = 0x0512) || (decide (i.code = 0x0401) && decide (resetKind b ≠ 0))
   else if s.latchStands || s.lantern.clearing.isSome then haltAdmits i b || decide (i.code = 0x0203)
   else if s.halted then haltAdmits i b
   else if s.lantern.halfLost then
     isStatusCmd i.code || (i.ro && i.before) || decide (i.code = 0x0400)
       || (decide (i.code = 0x0401) && decide (resetKind b ≠ 0))
   else if s.ready then true
   else i.before && (decide (i.code ≠ 0x0401) || decide (resetKind b ≠ 0)))

/-- An admitted command: its tag, its controller and the copy of its slot (R211). -/
structure Adm where
  tag : Nat
  ctrl : Fin 4
  b : List Byte

/-- The first check of R253, steps 1 to 4, that a taken slot fails: status, offset within the slot, and whether its
record may hold a tag. -/
def State.refusal (s : State) (e : SealedSlot) (b : List Byte) : Option (Status × Nat × Bool) :=
  if e.stale then some (.rejectFormat, 0x0002, true)
  else if !e.asOwner && !mbReadOnly b then some (.rejectNotOwner, noField, true)
  else if mbReadOnly b && !(cmdInfo (mbCmd b)).any (·.ro) then some (.rejectFormat, 0x0004, true)
  else if !s.tagFree then some (.rejectLimit, noField, false)
  else if !((cmdInfo (mbCmd b)).any (fun i => s.stateAdmits i b))
      && !(s.ready && (cmdInfo (mbCmd b)).isNone && !s.restricted) then some (.rejectState, noField, true)
  else none

/-- Admit a taken slot: it holds the next tag (R220, R262). -/
def State.admitCmd (s : State) (e : SealedSlot) (b : List Byte) : State :=
  let c : Cmd :=
    { tag := s.nextTag, ctrl := e.ctrl, seq := e.seq, code := BitVec.ofNat 16 (mbCmd b), ring := mbRing b,
      hostTag := mbHostTag b, readOnly := mbReadOnly b, prio := BitVec.ofNat 3 (mbPriority b), asOwner := e.asOwner,
      epoch := e.epoch, adm := s.warden.nextAdm, sealedAt := e.at', order := none }
  s.setWarden (fun w => { w with nextAdm := w.nextAdm + 1, tags := w.tags ++ [c] })

/-- The presented slot of a controller holds the command with this code and can be taken now. -/
def State.ready? (s : State) (code : Nat) (c slot : Nat) : Option SealedSlot :=
  match s.presentedSlot c slot with
  | some e => if mbCmd (s.slotBytes c slot) = code ∧ s.mayTake e then some e else none
  | none => none

/-- Serve the command with this code from a slot: the slot is taken, R253's first four checks are made, and an admitted
command goes on with `body`; a struck one only gets its record (09_work_orders.md R266). A slot that does not hold it, or cannot be taken now, is left as it stands
(notes/assumptions/2.md). -/
def State.serve (s : State) (code : Nat) (c : Fin 4) (slot : Fin 1024) (body : Adm → State → State) : State :=
  match s.ready? code c slot with
  | none => s
  | some e =>
    let b := s.slotBytes c slot
    let t := s.takeSlot e
    match e.struck, t.refusal e b with
    | some (st, d), _ => t.endSlot c b st d false
    | none, some (st, off, tagged) => t.endSlot c b st (faultAt .slot off) tagged
    | none, none => body { tag := t.nextTag, ctrl := c, b := b } (t.admitCmd e b)

/-- End an admitted command. -/
def Adm.finish (a : Adm) (s : State) (e : Ending) : State := s.endCmd a.tag e

/-- End it DONE with a result. -/
def Adm.done (a : Adm) (s : State) (result : Nat := 0) (detail : Nat := 0) : State :=
  s.endCmd a.tag { status := .done, result := BitVec.ofNat 64 result, detail := BitVec.ofNat 32 detail }

/-- Parameter checks of a command (R253 step 5): the first that fails rejects it; otherwise it goes on. -/
def Adm.checked (a : Adm) (s : State) (l : List Check) (go : State → State) : State :=
  match firstFault .slot l with
  | some (st, d) => s.endCmd a.tag { status := st, detail := d, result := if mbCmd a.b = 1 then 0xFFFF else 0 }
  | none => go s

/-- A command that copies to host memory writes through its controller's port; controllers 2 and 3 have none
(R240). -/
def Adm.noPort (a : Adm) : Bool := decide (2 ≤ a.ctrl.val)

/-- Copy bytes to host memory through the controller's port and end DONE with a result; while the port's link is down
the copy ends LINK_DOWN with detail 0x1F (R264, 13_host_far_ports.md R381). -/
def Adm.copyOut (a : Adm) (s : State) (addr : Nat) (bs : List Byte) (result : Nat := 0) : State :=
  if (s.port a.ctrl).linkUp then a.done (s.hostWrite a.ctrl addr bs) result
  else a.finish s { status := .linkDown, detail := 0x1F }

/-- A taken slot whose command code is not defined ends REJECT_FORMAT (R204, Table 09-14), after the checks that come
before it. -/
def execCommandCodeNotDefined (ctrl : Fin 4) (slot : Fin 1024) (s : State) : Host.Outcome State Fault Refusal :=
  let code := mbCmd (s.slotBytes ctrl slot)
  .next (if (cmdInfo code).isNone then
    s.serve code ctrl slot (fun a t => a.checked t [(true, .rejectFormat, 0x0000)] id)
  else s)

end Sys2Proof.Machine
end

