-- ==== Sys2Proof/Machine/Rations.lean ====
section
/-! DEFINITION. The Rations block, its checks and its apply, and power-slot schedules (10_rack_time_rations.md). -/

namespace Sys2Proof.Machine

open Sys2Proof

/-! ## Fields of a Ration set (Table 10-4) -/

/-- Profile k of a set. -/
def RationSet.profile (r : RationSet) (k : Nat) : Profile := look r.profiles k {}

/-- RATION_PROFILE of pair p. -/
def RationSet.profileNo (r : RationSet) (p : Nat) : Nat := (look r.profileOf p 0).toNat

/-- The profile in force of a pair (R284). -/
def State.profileFor (s : State) (pair : Nat) : Profile := s.rations.committed.profile (s.rations.committed.profileNo pair)

/-- The 16-bit fields of a profile in offset order (Table 10-4). -/
def Profile.fields (p : Profile) : List (BitVec 16) :=
  [p.refresh, p.refOffset, p.scrub, p.scrubOffset, p.bs, p.ord, p.swap, 0, p.start0, p.start1, p.start2, p.start3]

/-- A profile with the 16-bit field at offset 2 i written. -/
def Profile.write (p : Profile) (i : Nat) (v : BitVec 16) : Profile :=
  match i with
  | 0 => { p with refresh := v }
  | 1 => { p with refOffset := v }
  | 2 => { p with scrub := v }
  | 3 => { p with scrubOffset := v }
  | 4 => { p with bs := v }
  | 5 => { p with ord := v }
  | 6 => { p with swap := v }
  | 8 => { p with start0 := v }
  | 9 => { p with start1 := v }
  | 10 => { p with start2 := v }
  | 11 => { p with start3 := v }
  | _ => p

/-- Warden shares with field i written. -/
def WardenRation.write (w : WardenRation) (i : Nat) (v : BitVec 16) : WardenRation :=
  match i with
  | 0 => { w with intake := v }
  | 1 => { w with dispatch := v }
  | 2 => { w with page := v }
  | _ => { w with service := v }

/-- The 16-bit field at offset `off` (even) of a set as a number; reserved bytes read 0. -/
def RationSet.read16 (r : RationSet) (off : Nat) : Nat :=
  if off < 0x200 then ((r.profile (off / 32)).fields.getD (off % 32 / 2) 0).toNat
  else if off < 0x400 then
    let p := (off - 0x200) * 2
    r.profileNo p + 16 * r.profileNo (p + 1) + 256 * r.profileNo (p + 2) + 4096 * r.profileNo (p + 3)
  else if off < 0x490 then
    let n := (off - 0x400) / 8
    if off % 8 = 0 then (r.link n).data.toNat else if off % 8 = 2 then (r.link n).bulk.toNat else 0
  else if 0x500 ≤ off ∧ off < 0x520 then
    let c := (off - 0x500) / 16
    match off % 16 with
    | 0 => (r.warden c).intake.toNat
    | 2 => (r.warden c).dispatch.toNat
    | 4 => (r.warden c).page.toNat
    | 6 => (r.warden c).service.toNat
    | _ => 0
  else 0

/-- A set with the 16-bit field at offset `off` (even) written; reserved fields ignore the write (R9). -/
def RationSet.write16 (r : RationSet) (off v : Nat) : RationSet :=
  if off < 0x200 then
    { r with profiles := upd r.profiles (off / 32) {} (fun p => p.write (off % 32 / 2) (BitVec.ofNat 16 v)) }
  else if off < 0x400 then
    let p := (off - 0x200) * 2
    { r with profileOf := put (put (put (put r.profileOf p (BitVec.ofNat 4 v)) (p + 1) (BitVec.ofNat 4 (v / 16)))
                            (p + 2) (BitVec.ofNat 4 (v / 256))) (p + 3) (BitVec.ofNat 4 (v / 4096)) }
  else if off < 0x490 then
    let n := (off - 0x400) / 8
    if off % 8 = 0 then { r with links := upd r.links n {} (fun l => { l with data := BitVec.ofNat 16 v }) }
    else if off % 8 = 2 then { r with links := upd r.links n {} (fun l => { l with bulk := BitVec.ofNat 16 v }) }
    else r
  else if 0x500 ≤ off ∧ off < 0x520 ∧ off % 16 < 8 then
    { r with wardens := upd r.wardens ((off - 0x500) / 16) {} (fun w => w.write (off % 16 / 2) (BitVec.ofNat 16 v)) }
  else r

/-! ## The consistency of a set (R288, R509, Table 10-7) -/

/-- The refresh slot at its largest extent. -/
def Profile.extent (p : Profile) : Nat := max p.refresh.toNat 320

/-- The sortie starts in use, with their places. -/
def Profile.starts (p : Profile) : List (Nat × Nat) :=
  ([(0, p.start0.toNat), (1, p.start1.toNat), (2, p.start2.toNat), (3, p.start3.toNat)]).filter (fun e => e.2 ≠ 0xFFFF)

/-- The first start in use that is not above the one before it. -/
def notAscending : List (Nat × Nat) → Option Nat
  | a :: b :: r => if a.2 < b.2 then notAscending (b :: r) else some b.1
  | _ => none

/-- The time t lies in the slot from `start` of length `len`. -/
def inSlot (t start len : Nat) : Bool := decide (start ≤ t) && decide (t < start + len)

/-- The offset, within a profile, of the field its first failing test reports. -/
def Profile.fault (p : Profile) : Option Nat :=
  let bad : List Nat := (p.fields.zipIdx).filterMap (fun (v, i) =>
    if i = 7 ∨ (8 ≤ i ∧ v = 0xFFFF) then none
    else if v.toNat % 32 ≠ 0 ∨ 4096 < v.toNat then some (2 * i) else none)
  match bad with
  | o :: _ => some o
  | [] =>
    let so := p.scrubOffset.toNat
    let sc := p.scrub.toNat
    let ro := p.refOffset.toNat
    if 4096 < p.extent + sc + p.bs.toNat + p.ord.toNat + p.swap.toNat then some 0x00
    else if 4096 < ro + p.extent then some 0x02
    else if 4096 < so + sc ∨ (0 < sc ∧ so < ro + p.extent ∧ ro < so + sc) then some 0x06
    else match notAscending p.starts with
      | some j => some (0x10 + 2 * j)
      | none =>
        match p.starts.find? (fun e => inSlot e.2 ro p.extent || inSlot e.2 so sc) with
        | some e => some (0x10 + 2 * e.1)
        | none => if 1024 * p.starts.length < p.bs.toNat then some 0x08 else none

/-- The offset RATION_ERR_WHERE reports for a set, if it is inconsistent: profiles, then links, then clusters (R509). -/
def RationSet.fault (r : RationSet) : Option Nat :=
  let ps := (List.range 16).filterMap (fun k => ((r.profile k).fault).map (fun o => 32 * k + o))
  let ls := (List.range 18).filterMap (fun n =>
    if 4064 < (r.link n).data.toNat + (r.link n).bulk.toNat then some (0x400 + 8 * n) else none)
  let cs := (List.range 2).filterMap (fun c =>
    let w := r.warden c
    if 32768 < w.intake.toNat + w.dispatch.toNat + w.page.toNat + w.service.toNat then some (0x500 + 16 * c) else none)
  (ps ++ ls ++ cs).head?

/-- RATION_APPLY by the owner (R13, R14): nothing while an apply is pending; an inconsistent shadow set is rejected with
its first fault; a consistent one is latched. -/
def State.applyRations (s : State) : State :=
  if s.rations.pendingSet.isSome then s
  else match s.rations.shadow.fault with
    | some o => { s with rations := { s.rations with applyErr := true, errWhere := BitVec.ofNat 16 o } }
    | none => { s with rations := { s.rations with pendingSet := some (s.rations.shadow, s.now) } }

/-- A host port writes 1 to RATION_APPLY; a non-owner is denied (R230, R287). -/
def execRationApply (port : Fin 2) (s : State) : Host.Outcome State Fault Refusal :=
  .next (if s.hostWrites port then (if s.owns port then s.applyRations else s.deny port) else s)

/-- The boundary commits a pending Ration set latched strictly before it; the settings persist (R13, R287, R507). -/
def State.commitRations (s : State) : State :=
  match s.rations.pendingSet with
  | some (r, t) =>
    if s.due t then
      { s with rations := { s.rations with committed := r, pendingSet := none }
               settings := { s.settings with rations := r } }
    else s
  | none => s

/-! ## RT_NOW reads (R506) -/

/-- A 4-byte read of RT_NOW bits [31:0]: the live value, and the upper half latched for the port. -/
def execRtNowLowRead (port : Fin 2) (s : State) : Host.Outcome State Fault Refusal :=
  .next (if s.hostReads port then
    (s.setPort port (fun h => { h with rtLatch := some (BitVec.ofNat 32 (s.rtNow / 2 ^ 32)) })).emit
      (.readReply port (BitVec.ofNat 64 (s.rtNow % 2 ^ 32)))
  else s)

/-- A 4-byte read of RT_NOW bits [63:32]: the port's latch, which it releases, or the live value. -/
def execRtNowHighRead (port : Fin 2) (s : State) : Host.Outcome State Fault Refusal :=
  .next (if s.hostReads port then
    match (s.port port).rtLatch with
    | some v => (s.setPort port (fun h => { h with rtLatch := none })).emit (.readReply port (v.setWidth 64))
    | none => s.emit (.readReply port (BitVec.ofNat 64 (s.rtNow / 2 ^ 32)))
  else s)

/-! ## Power slots (R290, R291, R293) -/

/-- Power limit the governor works to: half of the fused one in Split mode (14_pitch.md R402). -/
def State.powerLimit (s : State) : Nat := if s.geo.mode = 1 then s.fuses.powerW / 2 else s.fuses.powerW

/-- The slots named by POWER_SLOTS_SET: PS_START at 36 + 8 i and PS_CEILING_W at 40 + 8 i (R248, R290). -/
def psSlots (b : List Byte) (n : Nat) : List (BitVec 32 × BitVec 16) :=
  (List.range n).map (fun i => (BitVec.ofNat 32 (field b (36 + 8 * i) 4), BitVec.ofNat 16 (field b (40 + 8 * i) 2)))

/-- The offset of the first slot start at fault: a first start other than 0, one not above the one before, one beyond
the frame of 2^n periods. -/
def psStartFault (frame : Nat) (l : List (BitVec 32 × BitVec 16)) : Option Nat :=
  ((l.zipIdx).find? (fun (e, i) =>
    decide (frame ≤ e.1.toNat) || (if i = 0 then decide (e.1 ≠ 0) else decide (e.1 ≤ (l.getD (i - 1) (0, 0)).1)))).map
    (fun e => 36 + 8 * e.2)

/-- The schedule a POWER_SLOTS_SET names. -/
def psSched (b : List Byte) : PowerSched :=
  { frameLog2 := field b 25 1, rampW := BitVec.ofNat 16 (field b 28 2), guardNs := BitVec.ofNat 32 (field b 32 4),
    slots := psSlots b (field b 26 1) }

/-- The checks of POWER_SLOTS_SET (R290). -/
def psChecks (s : State) (b : List Byte) : List Check :=
  let en := field b 24 1
  let n := field b 26 1
  let sl := psSlots b (min n 16)
  let low := (sl.zipIdx).find? (fun (e, _) => decide (e.2.toNat * 8 < s.fuses.powerW))
  [(decide (1 < en), .rejectFormat, 24),
   (decide (en = 1) && (decide (field b 25 1 < 8) || decide (18 < field b 25 1)), .rejectFormat, 25),
   (decide (en = 1) && decide (16 < n), .rejectFormat, 26),
   (decide (en = 1) && decide (field b 28 2 = 0), .rejectFormat, 28),
   (decide (en = 1) && (psStartFault (2 ^ (field b 25 1)) sl).isSome, .rejectFormat, (psStartFault (2 ^ (field b 25 1)) sl).getD 0),
   (decide (en = 1) && low.isSome, .rejectLimit, (low.map (fun e => 40 + 8 * e.2)).getD 0)]

/-- POWER_SLOTS_SET: an accepted schedule, or its removal, waits for its frame boundary (R290, R507); no slots is the
zero rule (R16). -/
def execPowerSlotsSet (ctrl : Fin 4) (slot : Fin 1024) (s : State) : Host.Outcome State Fault Refusal :=
  .next (s.serve 0x0110 ctrl slot (fun a t => a.checked t (psChecks t a.b) (fun t =>
    if field a.b 24 1 = 1 ∧ field a.b 26 1 = 0 then a.finish t { status := .doneEmpty }
    else
      let t := match t.power.next with
        | some (_, tag, _) => t.endCmd tag { status := .done }
        | none => t
      let next := if field a.b 24 1 = 0 then none else some (psSched a.b)
      { t with power := { t.power with next := some (next, a.tag, t.now) } })))

/-- The fields of the schedule in force as POWER_SLOTS_READ copies them, packed from byte 0 (R248, R290): PS_ENABLE 0,
PS_FRAME_LOG2 1, PS_SLOTS 2, PS_RAMP_W_PER_US 4, PS_GUARD_NS 8, then each slot's start and ceiling from 12. -/
def psBytes (p : Option PowerSched) : List Byte :=
  match p with
  | none => List.replicate 12 0
  | some q => [1, BitVec.ofNat 8 q.frameLog2, BitVec.ofNat 8 q.slots.length, 0] ++ leBytes 2 q.rampW.toNat ++ [0, 0]
      ++ leBytes 4 q.guardNs.toNat
      ++ (q.slots.zipIdx).flatMap (fun (e, i) => leBytes 4 e.1.toNat ++ leBytes 2 e.2.toNat
           ++ (if i + 1 < q.slots.length then [0, 0] else []))

/-- POWER_SLOTS_READ copies the schedule in force to host memory; its result is the number of bytes (R290). -/
def execPowerSlotsRead (ctrl : Fin 4) (slot : Fin 1024) (s : State) : Host.Outcome State Fault Refusal :=
  .next (s.serve 0x0111 ctrl slot (fun a t => a.checked t
    [(a.noPort, .rejectFormat, noField), (decide (field a.b 24 8 % 64 ≠ 0), .rejectFormat, 24)]
    (fun t => a.copyOut t (field a.b 24 8) (psBytes t.power.sched) (psBytes t.power.sched).length)))

/-- The frame length of a schedule in ns (R291). -/
def PowerSched.frame (p : PowerSched) : Nat := periodNs * 2 ^ p.frameLog2

/-- The slot in force at a rack time: its number and ceiling. -/
def PowerSched.slotAt (p : PowerSched) (t : Nat) : Option (Nat × Nat) :=
  ((p.slots.zipIdx).reverse.find? (fun (e, _) => decide (e.1.toNat * periodNs ≤ t % p.frame))).map
    (fun (e, i) => (i, e.2.toNat))

/-- The lowest ceiling of a schedule. -/
def PowerSched.lowest (p : PowerSched) : Nat := p.slots.foldl (fun m e => min m e.2.toNat) 65535

/-- The effective ceiling at a rack time: the least of the power limit, the slot ceiling (or the schedule's lowest in
fallback), and the coolant ceiling (R291, R293). -/
def State.ceilingAt (s : State) (t : Nat) : Nat :=
  let slot := match s.power.sched with
    | none => s.powerLimit
    | some p => if s.time.psFallback then p.lowest else ((p.slotAt t).map (·.2)).getD s.powerLimit
  min (min s.powerLimit slot) (s.thermal.ceiling.getD s.powerLimit)

/-- The effective ceiling now. -/
def State.effectiveCeiling (s : State) : Nat := s.ceilingAt s.rtNow

/-! ## The governor (R291, R292; notes/assumptions/58.md) -/

/-- Power scheduling changed. -/
def State.setPower (s : State) (f : Power → Power) : State := { s with power := f s.power }

/-- What the mean input power of the last 16 periods cannot exceed: the ceiling where they lie within one slot, the highest of
the ceilings that stood in them otherwise. -/
def State.powerBound (s : State) : Nat :=
  (List.range 16).foldl (fun m k => max m (s.ceilingAt (s.rtNow - periodNs * (k + 1)))) 0

/-- How far the mean has moved at most since it was last taken: PS_RAMP_W_PER_US, where a schedule is in force. -/
def State.rampRoom (s : State) : Option Nat := s.power.sched.map (fun p => p.rampW.toNat * ((s.now - s.power.readAt) / 1000))

/-- The input power that the governor makes of what the load asks: within the ramp, and never above the bound. -/
def State.governed (s : State) (asked : Nat) : Nat :=
  let old := s.power.inputW.toNat
  min s.powerBound (match s.rampRoom with
    | some r => max (old - r) (min (old + r) asked)
    | none => asked)

/-- A lower ceiling comes within the next 16 periods: the governor anticipates it. -/
def State.lowerComes (s : State) : Bool :=
  (List.range 16).any (fun k => decide (s.ceilingAt (s.rtNow + periodNs * (k + 1)) < s.effectiveCeiling))

/-- The governor acts where the load asks for what the ceiling or the ramp does not give, or a lower ceiling comes: it pauses by
some step, which also withholds sorties, and may delay dispatch, by how much is free; otherwise it does nothing. -/
def State.govern (s0 : State) (asked : Nat) : State :=
  let w := s0.governed asked
  let s := s0.setPower (fun p => { p with inputW := BitVec.ofNat 16 w, readAt := s0.now })
  if w < asked ∨ s0.effectiveCeiling ≤ asked ∨ s0.lowerComes then
    let (x, t) := s.draw
    t.setPower (fun p => { p with pause := x % 8, hold := decide (x / 8 % 2 = 1) })
  else s.setPower (fun p => { p with pause := 0, hold := false })

/-- RT_ERR_BOUND_NS (Table 10-1, Table 10-2, R276): the accuracy of the source while locked; in holdover it grows by 0.5 ns
per ms after a lock of 10 min, else by 20 ns per ms; saturating. -/
def State.errBound (s : State) : Nat :=
  match s.time.state with
  | .locked => if s.time.source = .beacons then 20 + 10 * s.time.beaconHops.toNat else 20
  | .holdover =>
    match s.time.lossAt with
    | some (t, b, long) => min 0xFFFFFFFF (b + (if long then (s.now - t) / 2000000 else (s.now - t) / 50000))
    | none => 0xFFFFFFFF
  | _ => 0xFFFFFFFF

/-- PS_FALLBACK is called for: a schedule is in force and the error bound exceeds its guard (R293). -/
def State.wantsFallback (s : State) : Bool :=
  match s.power.sched with
  | some p => decide (p.guardNs.toNat < s.errBound)
  | none => false

/-- PS_FALLBACK sets as soon as the bound exceeds the guard, with TIME_EVENT; it clears at a frame boundary (R293). -/
def State.checkFallback (s : State) : State :=
  if s.wantsFallback && !s.time.psFallback then
    State.raise { s with time := { s.time with psFallback := true } } 40
  else s

/-- RT_NOW stands at a frame boundary of a schedule. -/
def PowerSched.atFrame (p : PowerSched) (now : Nat) : Bool := decide (now % p.frame = 0)

/-- What waits for a frame boundary takes effect: an accepted schedule at a multiple of its own frame length strictly
after its acceptance, a removal at the next ration-period boundary; the command's record follows (R290, R507). -/
def State.commitSched (s : State) : State :=
  match s.power.next with
  | some (p, tag, t) =>
    if s.due t && (p.map (fun q => q.atFrame s.rtNow)).getD true then
      State.endCmd { s with power := { s.power with sched := p, next := none },
                            time := { s.time with psFallback := false } } tag { status := .done }
    else s
  | none => s

/-- The slot and ceiling in force at this boundary (R291): PS_SLOT_NOW and PS_CEILING_NOW_W. The fallback ends at the first frame
boundary after the bound has fallen below the guard (R293); a lock taken at this very instant counts at the next
(00_scope.md R507). -/
def State.placeSlot (s : State) : State :=
  let t := match s.power.sched with
    | some p => if s.time.psFallback && decide (s.errBound < p.guardNs.toNat) && decide (s.time.lockedAt ≠ some s.now) && p.atFrame s.rtNow then
        { s with time := { s.time with psFallback := false } } else s
    | none => { s with time := { s.time with psFallback := false } }
  let n := match t.power.sched with
    | some p => if t.time.psFallback then 0x1F else ((p.slotAt t.rtNow).map (·.1)).getD 0x1F
    | none => 0x1F
  let c := t.effectiveCeiling
  { t with power := { t.power with slotNow := BitVec.ofNat 5 n, ceiling := if c = t.powerLimit then none else some c } }

end Sys2Proof.Machine
end

