-- ==== Sys2Proof/Machine/Access.lean ====
section
/-! DEFINITION. Accesses by device address, by far-tier offset and by core-store address
(13_host_far_ports.md R385 to R388, 03_cores_and_arrays.md R64 to R68). -/

namespace Sys2Proof.Machine

open Sys2Proof

/-- Reason codes of SECURITY_REFUSED (15_trust_and_firmware.md Table 15-4). -/
inductive Reason where
  | bivTag
  | farTag
  | grantMissing
  | tdiError
  | identity
  | entropy
  | crcFail
  | signature
  | blockHash
  | rollback
  | sealTarget
  | sealPolicy
  | sealTag
  | sealedRange
  | peerAttest
  deriving DecidableEq, Repr

/-- The code of a reason. -/
def Reason.code : Reason → Nat
  | .bivTag => 0x01
  | .farTag => 0x02
  | .grantMissing => 0x03
  | .tdiError => 0x04
  | .identity => 0x05
  | .entropy => 0x06
  | .crcFail => 0x07
  | .signature => 0x08
  | .blockHash => 0x09
  | .rollback => 0x0A
  | .sealTarget => 0x0B
  | .sealPolicy => 0x0C
  | .sealTag => 0x0D
  | .sealedRange => 0x0E
  | .peerAttest => 0x0F

/-- An ending refused for a reason (R422). -/
def refused (r : Reason) : Ending := { status := .securityRefused, detail := BitVec.ofNat 32 r.code }

/-! ## The far tier -/

/-- The far tier changed. -/
def State.setFar (s : State) (f : FarTier → FarTier) : State := { s with far := f s.far }

/-- The written bit of a block is set, or its initialization is under way: a read then waits and returns the data
(R387, notes/assumptions/22.md). -/
def FarTier.present (f : FarTier) (block : Nat) : Bool :=
  f.written.contains block || f.initialising.any (fun e => e.1 = block)

/-- FT_COUNT of a unit: 1 once its block has been initialised (R387). -/
def FarTier.count (f : FarTier) (u : Nat) : Nat := if f.present (u / 4096) then look f.counts u 1 else 0

/-- Device address of a far-tier unit in the aperture. -/
def unitAddr (u : Nat) : Nat := farBase + 256 * u

/-- The 96-bit nonce of a unit's write: its number above its write count (R386). -/
def farNonce (u count : Nat) : Nat := u * 2 ^ 56 + count % 2 ^ 56

/-- What the far-tier device holds of a unit of a written block: 256 B of ciphertext and the unit's 32 B metadata entry, FT_TAG, FT_COUNT
and nine zeros (R386, Table 13-4). -/
def State.farUnit (s : State) (u : Nat) : List Byte × List Byte :=
  let x := padTo (Config.gcmEnc (Config.entropy (s.far.key.getD 0) 32) (farNonce u (s.far.count u)) (leBytes 8 u ++ readBytes s.far.bytes (256 * u) 256)) 272
  (x.take 256, x.drop 256 ++ leBytes 7 (s.far.count u) ++ List.replicate 9 0)

/-- Device address of a unit's metadata entry, for a user capacity in MiB (R385). -/
def farMetaAddr (capacityMib u : Nat) : Nat := capacityMib * 2 ^ 20 + 32 * u

/-- The far-tier key is drawn: at pitch, or where the noise source failed then, by the first write that needs it; while the source fails
there is none (R386, 15_trust_and_firmware.md R410). -/
def State.withFarKey (s : State) : Option State :=
  if s.far.key.isSome then some s
  else if !s.trust.entropyOk then none
  else some { s with trust := { s.trust with drawn := s.trust.drawn + 1 }, far := { s.far with key := some s.trust.drawn } }

/-- Read one unit's check (R386, R388): link, poison, tag. A unit of an unwritten block is known zeros. -/
def State.farCheck (s : State) (u : Nat) : Option Ending × State :=
  if !s.far.present (u / 4096) then (none, s)
  else if !s.far.linkUp then (some { status := .linkDown, detail := 0x1F }, s)
  else if s.far.poisoned.contains u then (some { status := .memoryUncorrectable, result := BitVec.ofNat 64 (unitAddr u) }, s)
  else if s.far.tagBad.contains u then (some (refused .farTag), s.postArgs 0x0305 0 2 4 0 0)
  else (none, s)

/-- The units of a range, checked in order: the first failure stops. -/
def State.farChecks (s : State) (u : Nat) : Nat → Option Ending × State
  | 0 => (none, s)
  | n + 1 => match s.farCheck u with
    | (some e, t) => (some e, t)
    | (none, t) => State.farChecks t (u + 1) n

/-- Units touched by `n` bytes from offset `f`. -/
def unitsOf (f n : Nat) : Nat := if n = 0 then 0 else (f + n - 1) / 256 - f / 256 + 1

/-- Read far-tier bytes: every unit is verified before any byte is delivered. -/
def State.farRead (s : State) (f n : Nat) : List Byte × Io :=
  match s.farChecks (f / 256) (unitsOf f n) with
  | (some e, t) => ([], { s := t, stop := some e })
  | (none, t) => (readBytes t.far.bytes f n, { s := t })

/-- Write the bytes of one unit: the first write of a block initialises it (its bit sets when the device acknowledges),
a whole unit needs no read, a narrower write reads and verifies, merges and writes again; FT_COUNT counts each write. -/
def State.farWriteUnit (s : State) (f : Nat) (bs : List Byte) (who : Nat × Nat) : Io :=
  let u := f / 256
  let block := u / 4096
  if !s.far.linkUp then { s := s, stop := some { status := .linkDown, detail := 0x1F } }
  else if !s.far.present block then match s.withFarKey with
    | none => { s := s, stop := some (refused .entropy) }
    | some s => { s := s.setFar (fun x => { x with bytes := writeBytes x.bytes f bs, initialising := x.initialising ++ [(block, who)] }) }
  else
    let (e, t) := if bs.length = 256 then (none, s) else s.farCheck u
    match e with
    | some e => { s := t, stop := some e }
    | none =>
      { s := t.setFar (fun x => { x with bytes := writeBytes x.bytes f bs, counts := put x.counts u (x.count u + 1),
                                         poisoned := removeNat x.poisoned u, tagBad := removeNat x.tagBad u }) }

/-- Write far-tier bytes unit by unit, stopping at the first failure. -/
def State.farWrite (s : State) (f : Nat) (bs : List Byte) (who : Nat × Nat) : Nat → Io
  | 0 => { s := s }
  | k + 1 =>
    if bs.isEmpty then { s := s }
    else
      let n := 256 - f % 256
      let io := s.farWriteUnit f (bs.take n) who
      match io.stop with
      | some _ => io
      | none => State.farWrite io.s (f + n) (bs.drop n) who k

/-! ## When a vault serves (06_bank_processing.md R165, 07_vaults_and_protection.md R183, 10_rack_time_rations.md R281) -/

/-- A refresh or scrub slot holds the vault now. -/
def State.inVaultSlot (s : State) (pair : Nat) : Bool := ((s.vault pair).slotUntil).any (fun t => decide (s.now < t))

/-- The vault serves no ordinary access now: a sortie runs, a refresh or scrub slot holds it, or the channel is paused. -/
def State.vaultShut (s : State) (pair : Nat) : Bool :=
  (s.vault pair).sortie.isSome || (s.vault pair).pausedUntil.isSome || s.inVaultSlot pair

/-- The profile gives a class time: RATION_ORD for classes 0 and 1; for class 2 RATION_SWAP, as long as the period's swap
time is unspent. -/
def State.classServed (s : State) (pair cls : Nat) : Bool :=
  if cls = 2 then decide ((s.vault pair).swapSpent < 48 * (s.profileFor pair).swap.toNat) else decide ((s.profileFor pair).ord ≠ 0)

/-- The code words of an access. -/
def Held.words (h : Held) : Nat × Nat := (h.offset / 32, (h.offset + h.len - 1) / 32)

/-- Two accesses touch a common code word. -/
def Held.meets (a b : Held) : Bool := decide (a.words.1 ≤ b.words.2) && decide (b.words.1 ≤ a.words.2)

/-- An older access to one of its code words waits at the vault (R23, R183). -/
def State.behind (s : State) (pair : Nat) (h : Held) : Bool := ((s.vault pair).held ++ (s.vault pair).back).any h.meets

/-- A far access that its slice can serve without the vault (07_vaults_and_protection.md R178, R185). -/
def State.bySlice (s : State) (pair : Nat) (h : Held) : Bool :=
  let c := s.slice (pair / 64)
  !h.near && !c.failed && !c.bad.contains (modAddr pair h.offset / 128)
    && ((c.find (modAddr pair h.offset / 128)).isSome || (h.write && decide (h.len = 128) && decide (h.cls ≠ 2) && !(s.vault pair).processor))

/-- An access received now waits: behind an older access to one of its code words, or for a vault that is shut or gives its
class no time, unless its slice serves it (R23, R165, R183). -/
def State.mustWait (s : State) (pair : Nat) (h : Held) : Bool :=
  s.behind pair h || (!s.bySlice pair h && (s.vaultShut pair || !s.classServed pair h.cls.val))

/-- An operation reaches offsets `[off, off + n)` of a vault with an access of a class, near or far, reading or writing: where
it must wait there, the step makes no effect of it (notes/assumptions/24.md). -/
def State.touch (s : State) (pair cls off n : Nat) (write near : Bool) : State :=
  let h : Held := { write := write, offset := off, len := n, data := [], cls := Fin.ofNat 3 cls, arrived := s.now, classSince := s.now,
                    near := near, core := 0 }
  { s with run := { s.run with stalled := s.run.stalled || s.mustWait pair h,
                               wrote := if write then insertNat s.run.wrote pair else s.run.wrote } }

/-- The operation that runs is degraded by what it met: it crosses a channel in narrow mode or a slice out of service
(01_seven_levels.md R40, 07_vaults_and_protection.md R180, R202). -/
def State.runDegraded (s : State) (b : Bool) : State := { s with run := { s.run with degraded := s.run.degraded || b } }

/-! ## Device addresses -/

/-- Who makes an access: the pair whose core it is near for, if any, the class, the tag and operation, and whether it is an
operation's, which waits where a vault does not serve it. -/
structure Who where
  pair : Option Nat := none
  cls : Nat := 1
  tag : Nat := 4096
  op : Nat := 0
  waits : Bool := false

/-- An access by `w` reaches a vault. -/
def State.reaches (s : State) (w : Who) (pair off n : Nat) (write : Bool) : State :=
  if w.waits then s.touch pair w.cls off n write (decide (w.pair = some pair)) else s

/-- What an access by `w` met: it degrades the operation that makes it. -/
def Io.noted (io : Io) (w : Who) : Io := if w.waits then { io with s := io.s.runDegraded io.degraded } else io

/-- Read bytes of a device address that lie within one 128-byte line. -/
def State.readPiece (s : State) (w : Who) (a n : Nat) : List Byte × Io :=
  match s.reach a with
  | .vault p off =>
    let (bs, io) := (s.reaches w p off n false).readLine p off n (decide (w.pair = some p)) w.cls
    (bs, io.noted w)
  | .far f => s.farRead f n
  | r => ([], reachStop s r)

/-- Write bytes of a device address that lie within one 128-byte line. -/
def State.writePiece (s : State) (w : Who) (a : Nat) (bs : List Byte) : Io :=
  match s.reach a with
  | .vault p off => ((s.reaches w p off bs.length true).writeLine p off bs (decide (w.pair = some p)) w.cls (w.tag, w.op)).noted w
  | .far f => s.farWrite f bs (w.tag, w.op) 2
  | r => reachStop s r

/-- Read `n` bytes from a device address, line by line, stopping at the first failure. -/
def State.readDev (s : State) (w : Who) (a n : Nat) : Nat → List Byte × Io
  | 0 => ([], { s := s })
  | k + 1 =>
    if n = 0 then ([], { s := s })
    else
      let m := min n (128 - a % 128)
      let (bs, io) := s.readPiece w a m
      match io.stop with
      | some _ => ([], io)
      | none =>
        let (rest, io2) := State.readDev io.s w (a + m) (n - m) k
        (bs ++ rest, { io2 with degraded := io.degraded || io2.degraded })

/-- Write bytes to a device address, line by line, stopping at the first failure; writes already made stay in place. -/
def State.writeDev (s : State) (w : Who) (a : Nat) (bs : List Byte) : Nat → Io
  | 0 => { s := s }
  | k + 1 =>
    if bs.isEmpty then { s := s }
    else
      let m := 128 - a % 128
      let io := s.writePiece w a (bs.take m)
      match io.stop with
      | some _ => io
      | none =>
        let io2 := State.writeDev io.s w (a + m) (bs.drop m) k
        { io2 with degraded := io.degraded || io2.degraded }

/-- Lines that `n` bytes can touch. -/
def linesFor (n : Nat) : Nat := n / 128 + 2

/-- Read `n` bytes from a device address. -/
def State.load (s : State) (w : Who) (a n : Nat) : List Byte × Io := s.readDev w a n (linesFor n)

/-- Write bytes to a device address. -/
def State.store (s : State) (w : Who) (a : Nat) (bs : List Byte) : Io := s.writeDev w a bs (linesFor bs.length)

/-! ## The core store (03_cores_and_arrays.md R64 to R68) -/

/-- End of the work area: the core store is 2 MiB, with the control area of 64 KiB and the Vestibule outside the work
area (R61, R65). -/
def coreStoreBytes : Nat := 0x200000

/-- The written bit of a 4 KiB block is set for this work order (R66). -/
def Core.writtenBy (c : Core) (block tag : Nat) : Bool := decide (look? c.written block = some tag)

/-- The tag whose first operation on the core has started clears the bits of other orders' tags: they read as clear. -/
def Core.readStore (c : Core) (tag a : Nat) : Nat → List Byte
  | 0 => []
  | n + 1 => (if c.writtenBy (a / 4096) tag then readByte c.store a else 0) :: Core.readStore c tag (a + 1) n

/-- An uncorrectable word lies in the range and would be read: a block whose bit is clear is not read (R66, R68). -/
def Core.badWord (c : Core) (tag a n : Nat) : Option Nat :=
  c.bad.find? (fun w => decide (a / 8 ≤ w) && decide (w * 8 < a + n) && c.writtenBy (w * 8 / 4096) tag)

/-- Correctable words that a read meets. -/
def Core.corrections (c : Core) (tag a n : Nat) : Nat :=
  (c.correctable.filter (fun w => decide (a / 8 ≤ w) && decide (w * 8 < a + n) && c.writtenBy (w * 8 / 4096) tag)).length

/-- Open a block for a work order that has not written it: every byte zero and the bit set (R66). -/
def Core.openBlock (c : Core) (block tag : Nat) : Core :=
  if c.writtenBy block tag then c
  else { c with store := clearRange c.store (block * 4096) 4096, written := put c.written block tag,
                bad := c.bad.filter (fun w => w * 8 / 4096 ≠ block),
                correctable := c.correctable.filter (fun w => w * 8 / 4096 ≠ block) }

/-- Store bytes in the core store for a work order. -/
def Core.writeStore (c : Core) (tag a : Nat) (bs : List Byte) : Core :=
  let c1 := if bs.isEmpty then c
    else (List.range ((a + bs.length - 1) / 4096 - a / 4096 + 1)).foldl (fun x k => x.openBlock (a / 4096 + k) tag) c
  { c1 with store := writeBytes c1.store a bs,
            bad := c1.bad.filter (fun w => !(decide (a ≤ w * 8) && decide (w * 8 + 8 ≤ a + bs.length))),
            correctable := c1.correctable.filter (fun w => !(decide (a ≤ w * 8) && decide (w * 8 + 8 ≤ a + bs.length))) }

/-- Read core-store bytes for an operation: an uncorrectable word ends it MEMORY_UNCORRECTABLE with an event record,
corrected ones are counted (R68). -/
def State.loadCore (s : State) (pair tag a n : Nat) : List Byte × Io :=
  let c := s.core pair
  match c.badWord tag a n with
  | some _ => ([], { s := s.postArgs 0x0604 pair 2 pair 1 0, stop := some { status := .memoryUncorrectable } })
  | none =>
    let k := c.corrections tag a n
    (c.readStore tag a n, { s := if k = 0 then s else s.setCore pair (fun x => { x with errors := x.errors + k }) })

/-- Write core-store bytes for an operation. -/
def State.storeCore (s : State) (pair tag a : Nat) (bs : List Byte) : State :=
  s.setCore pair (fun c => c.writeStore tag a bs)

end Sys2Proof.Machine
end

