-- ==== Sys2Proof/Machine/Cv.lean ====
section
/-! DEFINITION. Check-value channels (16_faults_blast_radius.md R437 to R443). -/

namespace Sys2Proof.Machine

open Sys2Proof

/-- Initial value of an algorithm (Table 16-1): false CRC-32C, true CRC-64/ECMA-182. -/
def cvInit (alg : Bool) : BitVec 64 := if alg then 0 else 0xFFFFFFFF

/-- Bytes into a running state. -/
def cvRun (alg : Bool) (crc : BitVec 64) (bs : List Byte) : BitVec 64 :=
  BitVec.ofNat 64 (if alg then crc64Run crc.toNat bs else crc32cRun (crc.toNat % 2 ^ 32) bs)

/-- CV_RESULT: the running state with the final XOR. -/
def CvChan.result (c : CvChan) : BitVec 64 :=
  if c.alg then c.crc else BitVec.ofNat 64 ((c.crc.toNat % 2 ^ 32) ^^^ 0xFFFFFFFF)

/-- CV_BUSY: a scan or a compare runs. -/
def CvChan.busy (c : CvChan) : Bool := c.scanning || c.checking

/-- The channels the device shows: 16 in Twin mode, 8 otherwise. -/
def State.hasChan (s : State) (c : Nat) : Bool := if s.twin then decide (c < 16) else decide (c < 8)

/-- The FIFO's writes consumed, oldest first (R438). -/
def CvChan.drain (c : CvChan) : CvChan :=
  let bs := c.fifo.flatten
  { c with crc := cvRun c.alg c.crc bs, doneBytes := c.doneBytes + BitVec.ofNat 64 bs.length, fifo := [] }

/-- Compare CV_RESULT with CV_EXPECT: the channel, and whether it mismatched (R440). For CRC-32C only bits [31:0]
count; any compare made while CV_OVERRUN is set mismatches. -/
def CvChan.compare (c : CvChan) : CvChan × Bool :=
  let eq := if c.alg then decide (c.result = c.expect) else decide (c.result.setWidth 32 = c.expect.setWidth 32)
  if eq && !c.overrun then ({ c with match' := true, checking := false }, false)
  else ({ c with mismatch := true, checking := false }, true)

/-- Compare on a channel: a mismatch asserts CV_MISMATCH and, when enabled, sends the vector on the owner's host port
(R440). -/
def State.cvDoCompare (s : State) (c : Nat) : State :=
  let (ch, bad) := (s.chan c).compare
  let t := s.setChan c (fun _ => ch)
  if !bad then t
  else
    let u := t.raise 37
    if ch.irqEn && decide (2 ≤ ch.vector.toNat) && u.own.valid then
      match u.own.id with
      | 0 => u.msix 0 ch.vector.toNat
      | 1 => u.msix 1 ch.vector.toNat
      | _ => u
    else u

/-- A write to the channels from a port: only the owner's acts, another is denied (R230, R443). -/
def State.cvWrite (s : State) (port : Fin 2) (c : Nat) (go : State → State) : State :=
  if !s.hostWrites port || !s.hasChan c then s
  else if s.owns port then go s
  else s.deny port

/-- CV_GO: discarded with CV_OVERRUN while busy; else the control, start and length are latched, CV_MATCH clears, the
state is reset unless CV_CONTINUE is set, and the scan begins (R439, R441). -/
def State.cvDoGo (s : State) (c : Nat) (by' : Fin 4) : State :=
  s.setChan c (fun ch =>
    if ch.busy then { ch with overrun := true }
    else
      let d := ch.drain
      { d with scanning := true, match' := false, latched := some (d.alg, d.start.toNat, d.len.toNat), by' := by',
               crc := if d.continue' then d.crc else cvInit d.alg, doneBytes := if d.continue' then d.doneBytes else 0 })

/-- CV_RESET: the state returns to the initial value, CV_DONE_BYTES and CV_MATCH clear; writes that wait in the FIFO stay
there (R440). -/
def State.cvDoReset (s : State) (c : Nat) : State :=
  s.setChan c (fun ch => { ch with crc := cvInit ch.alg, doneBytes := 0, match' := false })

/-- CV_CHECK: CV_MATCH clears and a compare waits for an empty FIFO (R440); a busy channel already compares. -/
def State.cvDoCheck (s : State) (c : Nat) : State :=
  s.setChan c (fun ch => if ch.busy then ch else { ch with checking := true, match' := false })

/-- CV_ABORT stops a scan at its next 64 B without a compare (R441). The bytes scanned by then are not stated: the running
state and CV_DONE_BYTES are free values. -/
def State.cvDoAbort (s : State) (c : Nat) : State :=
  if (s.chan c).scanning then
    let (n, t) := s.draw
    let (m, u) := t.draw
    u.setChan c (fun ch => { ch with scanning := false, crc := BitVec.ofNat 64 n, doneBytes := BitVec.ofNat 64 m })
  else s

/-- One cycle of the channel clock: the direct path consumes one byte of the oldest write (R438). -/
def CvChan.tick (c : CvChan) : CvChan :=
  match c.fifo with
  | (b :: bs) :: r => { c with crc := cvRun c.alg c.crc [b], doneBytes := c.doneBytes + 1,
                               fifo := if bs.isEmpty then r else bs :: r }
  | [] :: r => { c with fifo := r }
  | [] => c

/-- A feed write enters the FIFO; while a scan runs or the FIFO is full it is discarded with CV_OVERRUN (R438). -/
def State.cvDoFeed (s : State) (c : Nat) (bs : List Byte) : State :=
  s.setChan c (fun ch =>
    if ch.scanning || decide (16 ≤ ch.fifo.length) then { ch with overrun := true }
    else { ch with fifo := ch.fifo ++ [bs] })

/-- CV_GO from a port. -/
def execCvGo (port : Fin 2) (chan : Fin 16) (s : State) : Host.Outcome State Fault Refusal :=
  .next (s.cvWrite port chan (fun t => t.cvDoGo chan (ctrlOf port)))

/-- CV_RESET from a port. -/
def execCvReset (port : Fin 2) (chan : Fin 16) (s : State) : Host.Outcome State Fault Refusal :=
  .next (s.cvWrite port chan (fun t => t.cvDoReset chan))

/-- CV_CHECK from a port. -/
def execCvCheck (port : Fin 2) (chan : Fin 16) (s : State) : Host.Outcome State Fault Refusal :=
  .next (s.cvWrite port chan (fun t => t.cvDoCheck chan))

/-- CV_ABORT from a port. -/
def execCvAbort (port : Fin 2) (chan : Fin 16) (s : State) : Host.Outcome State Fault Refusal :=
  .next (s.cvWrite port chan (fun t => t.cvDoAbort chan))

/-- The compare a channel waits to make once its FIFO is empty (R440). -/
def execCvCompare (chan : Fin 16) (s : State) : Host.Outcome State Fault Refusal :=
  .next (if (s.chan chan).checking ∧ (s.chan chan).fifo = [] then s.cvDoCompare chan else s)

/-- CV_FEED_B: one byte (R438, R443). -/
def execCvFeedB (port : Fin 2) (chan : Fin 16) (value : BitVec 32) (s : State) : Host.Outcome State Fault Refusal :=
  .next (s.cvWrite port chan (fun t => t.cvDoFeed chan (leBytes 1 value.toNat)))

/-- CV_FEED_H: one half-word, least significant byte first. -/
def execCvFeedH (port : Fin 2) (chan : Fin 16) (value : BitVec 32) (s : State) : Host.Outcome State Fault Refusal :=
  .next (s.cvWrite port chan (fun t => t.cvDoFeed chan (leBytes 2 value.toNat)))

/-- CV_FEED_W: one word, least significant byte first. -/
def execCvFeedW (port : Fin 2) (chan : Fin 16) (value : BitVec 32) (s : State) : Host.Outcome State Fault Refusal :=
  .next (s.cvWrite port chan (fun t => t.cvDoFeed chan (leBytes 4 value.toNat)))

/-- CV_FAULT_KIND of an access that cannot be read (R441). -/
def cvFaultKind (e : Ending) : Nat :=
  match e.status with
  | .memoryUncorrectable => 2
  | .pageRetired => 3
  | .securityRefused => 5
  | .linkDown => 6
  | _ => 1

/-- Scan bytes in lines: the running state, or the address and ending that stopped it. A sealed range stops a scan whose
CV_GO was not the owning controller's (R441). -/
def State.cvScan (s : State) (alg : Bool) (by' : Fin 4) (crc : BitVec 64) (a n : Nat) :
    Nat → State × BitVec 64 × Nat × Option (Nat × Nat)
  | 0 => (s, crc, 0, none)
  | k + 1 =>
    if n = 0 then (s, crc, 0, none)
    else
      let m := min n (128 - a % 128)
      if s.trust.ranges.any (fun r => r.touches (s.canonical a) m && decide (r.ctrl ≠ by')) then (s, crc, 0, some (4, a))
      else
        let (bs, io) := s.readPiece {} a m
        match io.stop with
        | some e =>
          let at' := if e.status = .memoryUncorrectable ∨ e.status = .pageRetired then e.result.toNat else a
          (io.s, crc, 0, some (cvFaultKind e, at'))
        | none =>
          let (t, c, d, f) := State.cvScan io.s alg by' (cvRun alg crc bs) (a + m) (n - m) k
          (t, c, d + m, f)

/-- The scan of a channel ends (R439, R441): its bytes have been consumed and the compare is made, or it stopped on what
it could not read, with CV_FAULT and no compare. -/
def execCvScanEnd (chan : Fin 16) (s : State) : Host.Outcome State Fault Refusal :=
  let ch := s.chan chan
  .next (match ch.scanning, ch.latched with
    | true, some (alg, start, len) =>
      let (t, crc, n, f) := s.cvScan alg ch.by' ch.crc start len (linesFor len)
      let u := t.setChan chan (fun c => { c with scanning := false, crc := crc, doneBytes := c.doneBytes + BitVec.ofNat 64 n })
      match f with
      | some (kind, a) =>
        u.setChan chan (fun c => { c with fault := true, faultKind := BitVec.ofNat 8 kind, faultAddr := BitVec.ofNat 64 a })
      | none => u.cvDoCompare chan
    | _, _ => s)

/-- The word of a channel's fields at a 4-byte offset (Table 16-2). -/
def CvChan.word (c : CvChan) (off : Nat) : Nat :=
  match off with
  | 0x00 => ofBool c.alg + 2 * ofBool c.continue' + 4 * ofBool c.irqEn
  | 0x08 => ofBool c.busy + 2 * ofBool c.match' + 4 * ofBool c.mismatch + 8 * ofBool c.overrun + 16 * ofBool c.fault
      + 256 * c.faultKind.toNat + 65536 * c.fifo.length
  | 0x0C => c.vector.toNat
  | 0x10 => c.start.toNat % 2 ^ 32
  | 0x14 => c.start.toNat / 2 ^ 32
  | 0x18 => c.len.toNat % 2 ^ 32
  | 0x1C => c.len.toNat / 2 ^ 32
  | 0x20 => c.expect.toNat % 2 ^ 32
  | 0x24 => c.expect.toNat / 2 ^ 32
  | 0x28 => c.result.toNat % 2 ^ 32
  | 0x2C => c.result.toNat / 2 ^ 32
  | 0x40 => c.doneBytes.toNat % 2 ^ 32
  | 0x44 => c.doneBytes.toNat / 2 ^ 32
  | 0x48 => c.faultAddr.toNat % 2 ^ 32
  | 0x4C => c.faultAddr.toNat / 2 ^ 32
  | _ => 0

/-- A 64-bit field with its lower or upper half written. -/
def setHalf (v : BitVec 64) (upper : Bool) (w : Nat) : BitVec 64 :=
  if upper then BitVec.ofNat 64 (v.toNat % 2 ^ 32 + w % 2 ^ 32 * 2 ^ 32)
  else BitVec.ofNat 64 (v.toNat / 2 ^ 32 * 2 ^ 32 + w % 2 ^ 32)

/-- An owner's 4-byte write within a channel (R441, Table 16-2): while CV_BUSY is set, CV_CTRL, CV_START, CV_LEN and
CV_EXPECT discard it with CV_OVERRUN; the W1C bits of the status clear; CV_LEN holds 0 to 2^40. -/
def CvChan.write (c : CvChan) (off w : Nat) : CvChan :=
  let locked := off = 0x00 ∨ (0x10 ≤ off ∧ off ≤ 0x24)
  if locked ∧ c.busy then { c with overrun := true }
  else match off with
    | 0x00 => { c with alg := bit w 0, continue' := bit w 1, irqEn := bit w 2 }
    | 0x08 => { c with mismatch := c.mismatch && !bit w 2, overrun := c.overrun && !bit w 3, fault := c.fault && !bit w 4 }
    | 0x0C => { c with vector := BitVec.ofNat 11 w }
    | 0x10 => { c with start := setHalf c.start false w }
    | 0x14 => { c with start := setHalf c.start true w }
    | 0x18 => { c with len := setHalf c.len false w }
    | 0x1C => { c with len := setHalf c.len true w }
    | 0x20 => { c with expect := setHalf c.expect false w }
    | 0x24 => { c with expect := setHalf c.expect true w }
    | _ => c

/-- An owner's 4-byte write at an offset of a channel, the actions and feeds among them. The action bits of one write act
from bit 0 upward. -/
def State.cvWord (s : State) (c : Nat) (by' : Fin 4) (off w : Nat) : State :=
  match off with
  | 0x04 =>
    let t := if bit w 0 then s.cvDoGo c by' else s
    let u := if bit w 1 then t.cvDoReset c else t
    let v := if bit w 2 then u.cvDoCheck c else u
    if bit w 3 then v.cvDoAbort c else v
  | 0x30 => s.cvDoFeed c (leBytes 1 w)
  | 0x34 => s.cvDoFeed c (leBytes 2 w)
  | 0x38 => s.cvDoFeed c (leBytes 4 w)
  | _ => s.setChan c (fun ch => ch.write off w)

end Sys2Proof.Machine
end

