-- ==== Sys2Proof/Machine/Waiting.lean ====
section
/-! DEFINITION. Ordinary accesses of the cores and the holding queue of a vault controller (06_bank_processing.md R165, R166,
07_vaults_and_protection.md R178 to R183). -/

namespace Sys2Proof.Machine

open Sys2Proof

/-- A vault after its sequence ended early, was struck or lost: no sequence, units cleared, memory mode (R167, R168); the
controller keeps its mask buffer (R145). -/
def Vault.clearSeq (v : Vault) : Vault :=
  { v with seq := none, units := [], processor := false, sortie := none, sortieSpent := 0
           lastMasks := (v.seq.map (fun q => q.masks)).getD v.lastMasks }

/-- The position of the held access served next: lowest class, then oldest; none overtakes an older one to a common code
word (R183). `older` are those before it. -/
def nextHeld (ok : Nat → Bool) : List Held → List Held → Option (Nat × Nat)
  | _, [] => none
  | older, h :: r =>
    let rest := (nextHeld ok (older ++ [h]) r).map (fun x => (x.1, x.2 + 1))
    if ok h.cls.val && !older.any h.meets then
      match rest with
      | some (c, i) => if c < h.cls.val then some (c, i) else some (h.cls.val, 0)
      | none => some (h.cls.val, 0)
    else rest

/-- What a requester hears of an access that stopped: a core its ending, a host port a poisoned completion or an abort
(13_host_far_ports.md R374). -/
def Held.ends (h : Held) (e : Ending) : Out :=
  match h.port with
  | none => .accessEnds e.status e.result.toNat
  | some p => if e.status = .memoryUncorrectable ∧ !h.write then .bar2Poisoned p else .completerAbort p

/-- The data an access gives its requester. -/
def Held.gives (h : Held) (pair : Nat) (bs : List Byte) : Out :=
  match h.port with
  | none => if h.near then .nearData pair bs else .farData h.core bs
  | some p => .bar2Data p bs

/-- Time of an access on the vertical channel, in 1/48 ns: 5 for each code word, 10 in narrow mode (R162, R202). -/
def State.accessTime (s : State) (pair : Nat) (h : Held) : Nat := (h.words.2 + 1 - h.words.1) * (if s.narrow pair then 10 else 5)

/-- Serve one access at its vault; a class-2 access spends the period's swap time (10_rack_time_rations.md R281). -/
def State.serveAccess (s0 : State) (pair : Nat) (h : Held) : State :=
  let s := if h.cls = 2 then s0.setVault pair (fun v => { v with swapSpent := v.swapSpent + s0.accessTime pair h }) else s0
  if h.write then
    let io := s.writeLine pair h.offset h.data h.near h.cls.val (4096, 0)
    match io.stop with
    | some e => io.s.emit (h.ends e)
    | none => io.s
  else
    let (bs, io) := s.readLine pair h.offset h.len h.near h.cls.val
    match io.stop with
    | some e => io.s.emit (h.ends e)
    | none => io.s.emit (h.gives pair bs)

/-- The queue takes 64 accesses (R165). -/
def holdRoom : Nat := 64

/-- An access enters the holding queue, or with the queue full waits at the port that offers it (R165). -/
def Vault.offer (v : Vault) (h : Held) : Vault :=
  if v.back.isEmpty && decide (v.held.length < holdRoom) then { v with held := v.held ++ [h] } else { v with back := v.back ++ [h] }

/-- An access leaves the holding queue for its bank; the oldest one held back takes the room. -/
def Vault.unhold (v : Vault) (i : Nat) : Vault :=
  { v with held := v.held.eraseIdx i ++ v.back.take 1, back := v.back.drop 1 }

/-- Serve held accesses as far as they can be served, at most `n`. -/
def State.serveSome (s : State) (pair : Nat) : Nat → State
  | 0 => s
  | n + 1 =>
    match nextHeld (s.classServed pair) [] (s.vault pair).held with
    | none => s
    | some (_, i) =>
      match (s.vault pair).held[i]? with
      | none => s
      | some h => State.serveSome ((s.setVault pair (fun v => { v.unhold i with freedAt := some s.now })).serveAccess pair h) pair n

/-- An ordinary-access window: every held access that can be served is (R165). -/
def State.serveHeld (s : State) (pair : Nat) : State :=
  if s.vaultShut pair then s else s.serveSome pair ((s.vault pair).held.length + (s.vault pair).back.length)

/-- An access reaches its vault: served at once, or held behind a sortie, a slot, a pause, a class without time or an older
access to one of its code words (R23, R165, R183). -/
def State.access (s : State) (pair : Nat) (h : Held) : State :=
  if s.mustWait pair h then s.setVault pair (fun v => v.offer h) else s.serveAccess pair h

/-- An access of a core to one line of a device address: the vault's, the far tier's, or one that reaches no memory. A core
reaches its own vault near, whatever address names it (01_seven_levels.md R22). -/
def State.coreAccess (s : State) (core : Nat) (cls : Fin 3) (a : Nat) (rd : Option Nat) (data : List Byte) : State :=
  match s.reach a with
  | .vault p off =>
    s.access p { write := rd.isNone, offset := off, len := rd.getD data.length, data := data, cls := cls, arrived := s.now, classSince := s.now,
                 near := decide (p = core), core := core }
  | .far f =>
    (match rd with
     | some n =>
       let (bs, io) := s.farRead f n
       (match io.stop with
        | some e => io.s.emit (.accessEnds e.status e.result.toNat)
        | none => io.s.emit (.farData core bs))
     | none =>
       let io := s.farWrite f data (4096, 0) 2
       (match io.stop with
        | some e => io.s.emit (.accessEnds e.status e.result.toNat)
        | none => io.s))
  | r => s.emit (.accessEnds (((reachStop s r).stop.map (·.status)).getD .rejectLimit) a)

/-- The lines of an access: address, offset in the access, bytes. -/
def linePieces (a n : Nat) : List (Nat × Nat × Nat) :=
  ((List.range (linesFor n)).map (fun k =>
    let lo := max a ((a / 128 + k) * 128)
    (lo, lo - a, min (a + n) ((a / 128 + k + 1) * 128) - lo))).filter (fun p => decide (0 < p.2.2))

/-- The accesses of one class to the vaults that `n` bytes at an address make, line by line. -/
def State.vaultAccesses (s : State) (cls : Fin 3) (a n : Nat) (write : Bool) (data : List Byte) (port : Option (Fin 2)) : List (Nat × Held) :=
  (linePieces a n).filterMap (fun p => match s.reach p.1 with
    | .vault v off => some (v, { write := write, offset := off, len := p.2.2, data := (data.drop p.2.1).take p.2.2, cls := cls, arrived := s.now,
                                 classSince := s.now, near := false, core := 0, port := port })
    | _ => none)

/-- One of some accesses must wait at its vault. -/
def State.someWaits (s : State) (l : List (Nat × Held)) : Bool := l.any (fun x => s.mustWait x.1 x.2)

/-- A core reads, line by line. -/
def State.coreRead (s : State) (core : Nat) (cls : Fin 3) (a n : Nat) : State :=
  if s.ready && s.pairPresent core then
    (linePieces a n).foldl (fun (t : State) p => t.coreAccess core cls p.1 (some p.2.2) []) s
  else s

/-- A core writes, line by line; a write marked class 0 is served as class 1 (R182). -/
def State.coreWrite (s : State) (core : Nat) (cls : Fin 3) (a : Nat) (bs : List Byte) : State :=
  if s.ready && s.pairPresent core then
    (linePieces a bs.length).foldl (fun (t : State) p =>
      t.coreAccess core (if cls = 0 then 1 else cls) p.1 none ((bs.drop p.2.1).take p.2.2)) s
  else s

/-- The held accesses of the vaults whose slot has ended by now are served (R164, R281). -/
def State.openWindows (s : State) : State :=
  (s.mem.vaults.filter (fun e => !(e.2.held.isEmpty && e.2.back.isEmpty) && e.2.slotUntil.any (fun t => decide (t ≤ s.now)))).foldl
    (fun (t : State) e => t.serveHeld e.1) s

/-- NEAR_READ: offsets are within the vault's window. -/
def execNearRead (pair : Fin 1024) (offset : Nat) (len : Nat) (s : State) : Host.Outcome State Fault Refusal :=
  .next (if offset + len ≤ 2 ^ 31 then s.coreRead pair 1 (modAddr pair offset) len else s)

/-- NEAR_WRITE. -/
def execNearWrite (pair : Fin 1024) (offset : Nat) (data : List (BitVec 8)) (s : State) : Host.Outcome State Fault Refusal :=
  .next (if offset + data.length ≤ 2 ^ 31 then s.coreWrite pair 1 (modAddr pair offset) data else s)

/-- FAR_READ. -/
def execFarRead (core : Fin 1024) (addr : Nat) (len : Nat) (cls : Fin 3) (s : State) : Host.Outcome State Fault Refusal :=
  .next (s.coreRead core cls addr len)

/-- FAR_WRITE. -/
def execFarWrite (core : Fin 1024) (addr : Nat) (data : List (BitVec 8)) (cls : Fin 3) (s : State) : Host.Outcome State Fault Refusal :=
  .next (s.coreWrite core cls addr data)

/-- MERGE_ENTRY_IDLE (R188): an entry not written for 1,024 ns is written out. -/
def execMergeEntryIdle (pair : Fin 1024) (word : Nat) (s : State) : Host.Outcome State Fault Refusal :=
  .next (match (s.vault pair).entry word with
    | some e => if e.writtenAt + 1024 ≤ s.now then s.writeOut pair e else s
    | none => s)

/-- How long an access of a class waits before it is promoted (Table 07-5): none for class 0. -/
def promoteAfter (cls : Nat) : Option Nat :=
  if cls = 1 then some 16384 else if cls = 2 then some 65536 else none

/-- ACCESS_PROMOTE (R183): a held access that has waited long enough joins the next lower class at its original age; with
RATION_SWAP at 0 class 2 is not promoted (10_rack_time_rations.md R281). -/
def execAccessPromote (pair : Fin 1024) (index : Nat) (s : State) : Host.Outcome State Fault Refusal :=
  .next (match (s.vault pair).held[index]? with
    | none => s
    | some h =>
      match promoteAfter h.cls.val with
      | none => s
      | some d =>
        if h.classSince + d ≤ s.now ∧ !(decide (h.cls = 2) && decide ((s.profileFor pair).swap = 0)) then
          (s.setVault pair (fun v => { v with
            held := v.held.set index { h with cls := if h.cls = 2 then 1 else 0, classSince := s.now } })).serveHeld pair
        else s)

/-- Write back every dirty line of a tower's slice and empty it. -/
def State.emptySlice (s : State) (tower : Nat) : State :=
  (s.setSlice tower (fun c => { c with lines := [], bad := [] }))

end Sys2Proof.Machine
end

