-- ==== Sys2Proof/Machine/Orders.lean ====
section
/-! DEFINITION. Work orders: dispatch, completion, the order record, and Strike (09_work_orders.md R254 to R271). -/

namespace Sys2Proof.Machine

open Sys2Proof

/-! ## Operations of an order -/

/-- Operation `i` of an order. -/
def Order.op? (o : Order) (i : Nat) : Option Oper := o.ops[i]?

/-- Operation `i` of the order a tag holds. -/
def State.oper (s : State) (tag i : Nat) : Option Oper := (s.cmd tag).bind (fun c => c.order.bind (fun o => o.op? i))

/-- Operation `i` of the order a tag holds, changed. -/
def State.setOper (s : State) (tag i : Nat) (f : Oper → Oper) : State :=
  s.setCmd tag (fun c => { c with order := c.order.map (fun o => { o with ops := o.ops.modify i f }) })

/-- Operation codes (Table 09-5). -/
inductive OpKind where
  | nop | mm | sfApply | softmax | norm | dmCopy | memZero | bankRun
  | seqOpen | seqFork | seqClose | seqFree | seqTruncate | seqPreempt | seqResume
  | attAppend | attDecode | attPrefill | kvWrite | kvExport
  deriving DecidableEq, Repr

/-- The operation of a code. -/
def opKind (code : Nat) : Option OpKind :=
  match code with
  | 0x0000 => some .nop
  | 0x0001 => some .mm
  | 0x0002 => some .sfApply
  | 0x0003 => some .softmax
  | 0x0004 => some .norm
  | 0x0008 => some .dmCopy
  | 0x0009 => some .memZero
  | 0x0010 => some .bankRun
  | 0x0020 => some .seqOpen
  | 0x0021 => some .seqFork
  | 0x0022 => some .seqClose
  | 0x0023 => some .seqFree
  | 0x0024 => some .seqTruncate
  | 0x0025 => some .seqPreempt
  | 0x0026 => some .seqResume
  | 0x0028 => some .attAppend
  | 0x0029 => some .attDecode
  | 0x002A => some .attPrefill
  | 0x002B => some .kvWrite
  | 0x002C => some .kvExport
  | _ => none

/-- The unit of a core an operation occupies (R67): 0 array, 1 special function, 2 data movement. -/
def OpKind.coreUnit : OpKind → Option Nat
  | .mm => some 0
  | .sfApply => some 1
  | .softmax => some 1
  | .norm => some 1
  | .dmCopy => some 2
  | _ => none

/-- The operation is of the page-table firmware and the sequences (05_attention_kv_cache.md). -/
def OpKind.paged : OpKind → Bool
  | .seqOpen => true
  | .seqFork => true
  | .seqClose => true
  | .seqFree => true
  | .seqTruncate => true
  | .seqPreempt => true
  | .seqResume => true
  | .attAppend => true
  | .attDecode => true
  | .attPrefill => true
  | .kvWrite => true
  | .kvExport => true
  | _ => false

/-- The operation has been dispatched and has not completed. -/
def OpPhase.inFlight : OpPhase → Bool
  | .held => true
  | .running _ => true
  | .banking _ => true
  | _ => false

/-- The operation completed with a status that satisfies dependents (R255). -/
def OpPhase.ok : OpPhase → Bool
  | .completed e => e.status.good
  | _ => false

/-- The operation completed with another status (R256). -/
def OpPhase.failed : OpPhase → Bool
  | .completed e => !e.status.good
  | _ => false

/-- The operation is settled: completed, or one that will never run. -/
def OpPhase.settled : OpPhase → Bool
  | .completed _ => true
  | .never => true
  | _ => false

/-- The core unit an in-flight operation occupies. -/
def Oper.occupies (o : Oper) (pair unit : Nat) : Bool :=
  o.phase.inFlight && decide (opPair o.desc = pair) && decide (((opKind (opCode o.desc)).bind OpKind.coreUnit) = some unit)

/-- The core unit of a pair is free (R67). -/
def State.unitFree (s : State) (pair unit : Nat) : Bool :=
  s.warden.tags.all (fun c => (c.order.map (fun o => o.ops.all (fun x => !x.occupies pair unit))).getD true)

/-- The order has started: ORD_START_NS is met (R259, R289). -/
def Order.mayStart (o : Order) : Bool := o.started

/-- Every command the controller admitted earlier has completed (R259, ORD_SERIAL). -/
def State.serialMet (s : State) (c : Cmd) : Bool :=
  s.warden.tags.all (fun x => !(decide (x.ctrl = c.ctrl) && decide (x.adm < c.adm)))

/-- The fence of an operation is met (R258). -/
def State.fenceMet (s : State) (c : Cmd) (o : Order) (i : Nat) (d : List Byte) : Bool :=
  match opFence d with
  | 0 => true
  | 1 => (o.ops.take i).all (fun x => x.phase.settled)
  | _ => (o.ops.take i).all (fun x => x.phase.settled) && s.warden.tags.all (fun x => !decide (x.adm < c.adm))

/-- The half whose cluster dispatches an operation: the half of its core's tower in Twin mode (16_faults_blast_radius.md
R448). -/
def State.opCluster (s : State) (d : List Byte) : Nat :=
  if s.twin && ((opKind (opCode d)).bind OpKind.coreUnit).isSome && decide (512 ≤ opPair d) then 1 else s.lead

/-- The Warden's shares give the dispatch of an operation time: RATION_WD_DISPATCH, and RATION_WD_PAGE for one of sequences
and pages (10_rack_time_rations.md R286). -/
def State.wardenTime (s : State) (d : List Byte) : Bool :=
  let w := s.rations.committed.warden (s.opCluster d)
  decide (w.dispatch ≠ 0) && (!((opKind (opCode d)).map OpKind.paged).getD false || decide (w.page ≠ 0))

/-- Operation `i` of a command can be dispatched, the order among operations apart (R255 to R259, R67, R267, R286); the power
governor may delay dispatch (10_rack_time_rations.md R292). -/
def State.canDispatch (s : State) (c : Cmd) (i : Nat) : Bool :=
  match c.order with
  | none => false
  | some o =>
    match o.op? i with
    | none => false
    | some x =>
      decide (x.phase = .waiting) && c.struck.isNone && o.mayStart && s.wardenUp
        && !(s.wdog (s.opCluster x.desc)).inReset
        && s.wardenTime x.desc && !s.power.hold
        && (!o.serial || s.serialMet c)
        && (o.cont || o.ops.all (fun y => !y.phase.failed))
        && (opDeps x.desc).all (fun k => (o.op? k).any (fun y => y.phase.ok))
        && s.fenceMet c o i x.desc
        && (match (opKind (opCode x.desc)).bind OpKind.coreUnit with
            | some u => s.unitFree (opPair x.desc) u
            | none => true)

/-- The key the Warden dispatches by: priority, then admission, then index (R261). -/
def dispatchBefore (c : Cmd) (i : Nat) (c' : Cmd) (i' : Nat) : Bool :=
  if c.prio ≠ c'.prio then decide (c.prio < c'.prio)
  else if c.adm ≠ c'.adm then decide (c.adm < c'.adm)
  else decide (i ≤ i')

/-- No other dispatchable operation goes first (R261). -/
def State.isFirst (s : State) (c : Cmd) (i : Nat) : Bool :=
  s.warden.tags.all (fun x => (x.order.map (fun o => (List.range o.ops.length).all (fun k =>
    !s.canDispatch x k || dispatchBefore c i x k))).getD true)

/-- What an operation runs with. -/
structure OpCtx where
  cmd : Cmd
  tag : Nat
  op : Nat
  d : List Byte

/-- The core of the operation. -/
def OpCtx.pair (c : OpCtx) : Nat := opPair c.d

/-- What the work order is known by in the core: the core's bits carry its tag, and a tag taken again names another work
order, so the model keeps the admission number (03_cores_and_arrays.md R63, R66; notes/assumptions/27.md). -/
def OpCtx.ord (c : OpCtx) : Nat := c.cmd.adm

/-- How the operation's accesses are made: near to its own core's vault, of its MEM_CLASS. -/
def OpCtx.who (c : OpCtx) : Who := { pair := some c.pair, cls := opClass c.d, tag := c.tag, op := c.op, waits := true }

/-- Operation `i` of a command goes on: the Warden dispatches it next, or it has been dispatched and waited at a vault. -/
def State.goesOn (s : State) (c : Cmd) (i : Nat) (x : Oper) : Bool :=
  (s.canDispatch c i && s.isFirst c i) || (decide (x.phase = .held) && c.struck.isNone)

/-- Operation `i` of tag `tag`, of this kind, which the Warden dispatches next or which waited at a vault. -/
def State.toDispatch (s : State) (k : OpKind) (tag i : Nat) : Option OpCtx :=
  match s.cmd tag with
  | none => none
  | some c =>
    match c.order.bind (fun o => o.op? i) with
    | none => none
    | some x =>
      if opKind (opCode x.desc) = some k ∧ s.goesOn c i x then
        some { cmd := c, tag := tag, op := i, d := x.desc }
      else none

/-- The vaults that a fence covers: those written by an operation of lower index, and for a device fence every vault whose
merge buffer holds something (R258). -/
def OpCtx.fenced (c : OpCtx) (pair : Nat) : Bool :=
  decide (opFence c.d = 2) || (c.cmd.order.map (fun o => (o.ops.take c.op).any (fun x => x.wrote.contains pair))).getD false

/-- Before an operation with a fence is dispatched the merge buffers of the vaults it covers are written out (R258). -/
def State.fenceFlush (s : State) (c : OpCtx) : State :=
  let s0 := { s with run := {} }
  if opFence c.d = 0 then s0
  else s.mem.vaults.foldl (fun (t : State) e => if c.fenced e.1 then t.flushMerge e.1 else t) s0

/-- The ending of an operation after what its accesses met: DONE_DEGRADED (01_seven_levels.md R40). -/
def OpRun.ending (r : OpRun) (e : Ending) : Ending :=
  if r.degraded && (decide (e.status = .done) || decide (e.status = .doneEmptyRow)) then { e with status := .doneDegraded } else e

/-- Results that are written when the operation completes (R144, R267). -/
def State.putOff (s : State) (l : List LateWrite) : State := { s with run := { s.run with late := s.run.late ++ l } }

/-- Dispatch an operation: its effect is made and it runs until it completes with its ending; one that reaches a vault
where it must wait has made no effect and goes on later (notes/assumptions/24.md). An operation that cannot be dispatched
now is left as it stands. -/
def State.runOp (s : State) (k : OpKind) (tag i : Nat) (body : OpCtx → State → State × Ending) : State :=
  match s.toDispatch k tag i with
  | none => s
  | some c =>
    let (t, e) := body c ((s.fenceFlush c).setOper tag i (fun x => { x with phase := .held }))
    if t.run.stalled then s.setOper tag i (fun x => { x with phase := .held })
    else t.setOper tag i (fun x => { x with phase := .running (t.run.ending e), wrote := t.run.wrote, late := t.run.late })

/-- The ending of an access that stopped, or DONE; DONE_DEGRADED when a geometry change affected it (R40). -/
def Io.ending (io : Io) (result : Nat := 0) (flags : BitVec 8 := 0) : Ending :=
  match io.stop with
  | some e => e
  | none => { status := if io.degraded then .doneDegraded else .done, result := BitVec.ofNat 64 result, flags := flags,
              detail := flags.setWidth 32 }

/-- An operation's rejection at dispatch, at an offset of its descriptor (R254). -/
def rejectOp (st : Status) (off : Nat) : Ending := { status := st, detail := faultAt .descriptor off }

/-! ## Completion -/

/-- The detail word of an operation: on statuses 0x0000 to 0x0003 its arithmetic flags (Table 09-9, 02_number_formats.md R58). -/
def Ending.opDetail (e : Ending) : BitVec 32 := if e.status.good then e.flags.setWidth 32 else e.detail

/-- OPSTAT (Table 09-4). -/
def opstat (e : Ending) : Nat := 2 ^ 63 + e.opDetail.toNat * 65536 + e.status.code

/-- Write OPSTAT and OPRESULT of an operation: a write that cannot be made is dropped (R244). -/
def State.writeOpstat (s : State) (addr i : Nat) (stat result : Nat) : State :=
  let a := addr + 64 + 256 * i + 0x18
  let io := s.store {} a (leBytes 8 stat ++ leBytes 8 result)
  match io.stop with
  | some _ => s
  | none => io.s

/-- The indices that never run after operation `i` failed: its transitive dependents, or every operation not dispatched
when ORD_CONTINUE is clear (R256). -/
def settleAfter (o : Order) : Order :=
  if o.ops.any (fun x => x.phase.failed) ∧ !o.cont then
    { o with ops := o.ops.map (fun x => if x.phase = .waiting then { x with phase := .never } else x) }
  else
    { o with ops := o.ops.foldl (fun acc x =>
        acc ++ [if x.phase = .waiting ∧ (opDeps x.desc).any (fun k => (acc[k]?).any (fun y => y.phase.failed || decide (y.phase = .never)))
                then { x with phase := .never } else x]) [] }

/-- Completed operations with their indices. -/
def Order.completed (o : Order) : List (Nat × Ending) :=
  (o.ops.zipIdx).filterMap (fun (x, i) => match x.phase with
    | .completed e => some (i, e)
    | _ => none)

/-- The ending of highest rank, the lowest index deciding ties (R263). -/
def worst : List (Nat × Ending) → Option (Nat × Ending)
  | [] => none
  | (i, e) :: r => match worst r with
    | some (j, f) => if f.status.rank < e.status.rank then some (j, f) else some (i, e)
    | none => some (i, e)

/-- CPL_OPS_DONE. -/
def Order.opsDone (o : Order) : Nat := (o.completed.filter (fun e => e.2.status.good)).length

/-- The ending of an order's record (R263): the highest status among the operations that ran, or the strike's when none
of them carries one as high. Statuses 0x0000 to 0x0003 carry the arithmetic flags and the result of ORD_RESULT_OP. -/
def Order.ending (o : Order) (struck : Option (Status × BitVec 32)) : Ending :=
  let w := worst o.completed
  let flags := o.completed.foldl (fun f e => f ||| e.2.flags) 0
  let bare (st : Status) (d : BitVec 32) : Ending := { status := st, detail := d, result := 0xFFFF }
  let best := match struck, w with
    | some (st, d), some (i, e) => if e.status.rank ≤ st.rank then (some (i, e), bare st d) else (none, bare st d)
    | some (st, d), none => (none, bare st d)
    | none, some (i, e) => (some (i, e), e)
    | none, none => (none, { status := .done })
  match best with
  | (some (i, e), _) =>
    if e.status.good then
      { status := e.status, flags := flags, detail := flags.setWidth 32,
        result := ((o.completed.find? (fun x => x.1 = o.resultOp.toNat)).map (fun x => x.2.result)).getD 0 }
    else { status := e.status, detail := e.detail, result := BitVec.ofNat 64 i }
  | (none, e) => e

/-- Every operation of an order is settled. -/
def Order.finished (o : Order) : Bool := o.ops.all (fun x => x.phase.settled)

/-- End an order whose operations are all settled: its record is formed (R263). -/
def State.endOrder (s : State) (tag : Nat) : State :=
  match (s.cmd tag).bind (fun c => c.order.map (fun o => (c, o))) with
  | some (c, o) => if o.finished then s.endCmd tag (o.ending c.struck) o.opsDone else s
  | none => s

/-- The DONE interrupt source of a pair's tower and vault group (Table 08-10). -/
def doneSource (pair : Nat) : Nat := 64 + pair / 8

/-- The cluster of a pair's half. -/
def State.pairCluster (s : State) (pair : Nat) : Nat := if s.twin then pair / 512 else s.lead

/-- Release the pins an operation holds; a draining page whose last pin goes is free (05_attention_kv_cache.md R136,
Table 05-8). -/
def State.releasePins (s : State) (tag i : Nat) : State :=
  let held := s.kv.pins.filter (fun p => decide (p.1 = tag) && decide (p.2.1 = i))
  { s with kv := { s.kv with
    pins := s.kv.pins.filter (fun p => !(decide (p.1 = tag) && decide (p.2.1 = i)))
    pages := (s.kv.pages.map (fun (g : Page) =>
      { g with pins := g.pins - (held.filter (fun p => decide (p.2.2 = (g.pair, g.bank, g.row)))).length })).filter
        (fun g => !(decide (g.refs = 0) && decide (g.pins = 0))) } }

/-- The writes of an operation to the far tier have been acknowledged (R257). -/
def State.farAcked (s : State) (tag i : Nat) : Bool := !(s.far.initialising.any (fun e => e.2 = (tag, i)))

/-- ORD_START_NS is met at the first ration-period boundary at or after it (R289). -/
def execOrderStart (tag : Nat) (s : State) : Host.Outcome State Fault Refusal :=
  .next (match (s.cmd tag).bind (·.order) with
    | some o =>
      if !o.started && (o.startNs.any (fun n => decide (n.toNat ≤ s.rtNow))) && s.atBoundary then
        s.setCmd tag (fun c => { c with order := c.order.map (fun o => { o with started := true }) })
      else s
    | none => s)

/-- NOP completes DONE when dispatched. -/
def execOpNop (tag : Nat) (op : Nat) (s : State) : Host.Outcome State Fault Refusal :=
  .next (s.runOp .nop tag op (fun _ t => (t, { status := .done })))

/-! ## Strike (R265 to R271) -/

/-- The detail word of a Strike: its MB_SEQ in [30:16] and its controller in [1:0] (Table 09-9). -/
def strikeDetail (seq : BitVec 15) (c : Fin 4) : BitVec 32 := BitVec.ofNat 32 (seq.toNat * 65536 + c.val)

/-- The waiting effects of a struck command are not applied (Table 09-11): deferred effects, transfers, a schedule, an
enumeration, a claim's wait. -/
def State.cancelTag (s : State) (tag : Nat) : State :=
  { s with
    warden := { s.warden with deferred := s.warden.deferred.filter (fun d => d.tag ≠ tag) }
    links := { s.links with xfers := s.links.xfers.filter (fun x => x.tag ≠ tag),
                            enumTag := if s.links.enumTag = some tag then none else s.links.enumTag }
    power := { s.power with next := s.power.next.filter (fun n => decide (n.2.1 ≠ tag)) }
    own := { s.own with claims := s.own.claims.map (fun c => { c with tags := removeNat c.tags tag }) } }

/-- Mark admitted commands struck with a status and detail; their units are told to stop (R267). Between a strike and an
abort the status of higher rank stands (R271). -/
def State.markStruck (s : State) (tags : List Nat) (st : Status) (d : BitVec 32) : State :=
  tags.foldl (fun (t : State) g => (t.setCmd g (fun c =>
    { c with struck := match c.struck with
        | some x => if st.rank < x.1.rank then some (st, d) else some x
        | none => some (st, d) })).cancelTag g) s

/-- A strike job begins for targets already marked. -/
def State.addJob (s : State) (j : StrikeJob) : State := s.setWarden (fun w => { w with strikes := w.strikes ++ [j] })

/-- Take and end the sealed slots that a Strike names: each gets one untagged record, and a held slot's number counts as
received (R266). While the reserve of such records is full a slot stays presented, to be taken when room frees
(08_warden_mailboxes.md R220). -/
def State.strikeSlots (s : State) (l : List SealedSlot) (st : Status) (d : BitVec 32) : State :=
  l.foldl (fun (t : State) e =>
    let u := if t.reserveFree then (t.takeSlot e).endSlot e.ctrl (t.slotBytes e.ctrl e.slot) st d false
      else t.setSealed (fun l => l.map (fun x => if x = e then
        { e with presented := true, presentedAt := if e.presented then e.presentedAt else t.now, struck := some (st, d) } else x))
    if e.presented then u
    else (u.setIntake e.ctrl (fun i => { i with received := i.received ++ [e.seq] })).advanceSeq e.ctrl seqFuel) s

/-- Admitted commands a Strike can reach: not Strike commands, and not already struck (R266, R271). -/
def State.strikable (s : State) : List Cmd :=
  s.warden.tags.filter (fun c => !isStrike c.code.toNat && c.struck.isNone)

/-- Sealed slots a Strike can reach: presented or held, not Strike slots, not struck already, and not judged stale, whose
rejection is decided (R266, R271). -/
def State.strikableSlots (s : State) : List SealedSlot :=
  s.warden.sealed.filter (fun e => !isStrike (mbCmd (s.slotBytes e.ctrl e.slot)) && !e.stale && e.struck.isNone)

/-- Carry out a Strike on targets looked up: with none it completes DONE_EMPTY; else the slots end at once, the commands
are marked, and its own record waits for theirs (R266 to R269). -/
def Adm.strike (a : Adm) (s : State) (tags : List Nat) (slots : List SealedSlot) : State :=
  if tags.isEmpty && slots.isEmpty then a.finish s { status := .doneEmpty }
  else
    let d := strikeDetail (mbSeq a.b) a.ctrl
    ((s.strikeSlots slots .struck d).markStruck tags .struck d).addJob
      { tags := tags, slotCount := slots.length, own := some a.tag }

/-- The Strike was sealed by the owner. -/
def Adm.asOwner (a : Adm) (s : State) : Bool := (s.cmd a.tag).any (·.asOwner)

/-- STRIKE_ORDER: the command sealed by SK_CTRL with MB_SEQ SK_SEQ. A non-owner strikes only a read-only command it sealed
itself (R265). -/
def execStrikeOrder (ctrl : Fin 4) (slot : Fin 1024) (s : State) : Host.Outcome State Fault Refusal :=
  .next (s.serve 0x0F01 ctrl slot (fun a t =>
    let kc := field a.b 24 1
    let ks := field a.b 26 2
    a.checked t [(decide (3 < kc), .rejectFormat, 24), (decide (32767 < ks), .rejectFormat, 26)] (fun t =>
      let cmds := t.strikable.filter (fun c => decide (c.ctrl.val = kc) && decide (c.seq.toNat = ks))
      let sl := t.strikableSlots.filter (fun e => decide (e.ctrl.val = kc) && decide (e.seq.toNat = ks))
      let own := a.asOwner t
      let mine := decide (kc = ctrl.val) && cmds.all (·.readOnly)
        && sl.all (fun e => mbReadOnly (t.slotBytes e.ctrl e.slot) && (cmdInfo (mbCmd (t.slotBytes e.ctrl e.slot))).any (·.ro))
      if own || mine then a.strike t (cmds.map (·.tag)) sl
      else a.finish t { status := .rejectNotOwner, detail := faultAt .slot noField })))

/-- STRIKE_SEQ: every command not yet recorded that holds an operation naming the handle (R265). SK_HANDLE is a handle field:
its bits [30:16] are reserved, and with bit 31 set it names an operation of an order the command does not have (R251,
notes/assumptions/57.md). -/
def execStrikeSeq (ctrl : Fin 4) (slot : Fin 1024) (s : State) : Host.Outcome State Fault Refusal :=
  .next (s.serve 0x0F02 ctrl slot (fun a t =>
    let h := field a.b 24 4
    a.checked t [(bit h 31, .rejectFormat, 24)] (fun t =>
      a.strike t ((t.strikable.filter (fun c => c.handles.contains (h % 65536))).map (·.tag)) [])))

/-- STRIKE_ALL: every command not yet recorded, and every sealed slot, from every controller (R265, R266). -/
def execStrikeAll (ctrl : Fin 4) (slot : Fin 1024) (s : State) : Host.Outcome State Fault Refusal :=
  .next (s.serve 0x0F03 ctrl slot (fun a t => a.strike t (t.strikable.map (·.tag)) t.strikableSlots))

/-- Operations in flight may have been affected by a change: which of them were is not stated, so the choice is free for each
(01_seven_levels.md R40, notes/assumptions/10.md). -/
def State.mayDegrade (s : State) : State :=
  let (f, t) := s.drawMany
  t.setWarden (fun w => { w with tags := w.tags.map (fun c =>
    { c with order := c.order.map (fun o => { o with ops := (o.ops.zipIdx).map (fun ((x, i) : Oper × Nat) =>
        match x.phase with
        | .running e => if e.status = .done ∧ f (512 * c.tag + i) % 2 = 1 then { x with phase := .running { e with status := .doneDegraded } } else x
        | _ => x) }) }) })

/-- The bank sequences of an operation leave their vaults, running or waiting: units cleared and memory mode, the held
accesses served (R168, R270). -/
def State.stopBanks (s : State) (tag op : Nat) : State :=
  s.mem.vaults.foldl (fun (t : State) e => (t.setVault e.1 (fun v =>
    let w := { v with queue := v.queue.filter (fun q => !(decide (q.tag = tag) && decide (q.op = op))) }
    if w.seq.any (fun q => decide (q.req.tag = tag) && decide (q.req.op = op)) then w.clearSeq
    else if w.seq.isNone && w.queue.isEmpty then { w with processor := false } else w)).serveHeld e.1) s

/-- A unit told to stop has stopped (R267, Table 09-11): a bank sequence ends with its units cleared, the pins of the tag
are released. -/
def execUnitStop (tag : Nat) (op : Nat) (s : State) : Host.Outcome State Fault Refusal :=
  .next (match s.cmd tag, s.oper tag op with
    | some c, some x =>
      if c.struck.isSome && x.phase.inFlight && !x.stopped then
        ((s.stopBanks tag op).releasePins tag op).setOper tag op (fun y => { y with stopped := true })
      else s
    | _, _ => s)

/-- Every operation of a struck command that was in flight has stopped. -/
def Cmd.allStopped (c : Cmd) : Bool :=
  (c.order.map (fun o => o.ops.all (fun x => !x.phase.inFlight || x.stopped))).getD true

/-- The record of one struck command (R268): in-flight operations end with the strike's status in OPSTAT, completed ones
stand, the others never ran. -/
def State.recordStruck (s : State) (tag : Nat) : State :=
  match s.cmd tag with
  | none => s
  | some c =>
    match c.struck with
    | none => s
    | some (st, d) =>
      match c.order with
      | none => s.endCmd tag { status := st, detail := d }
      | some o =>
        let e : Ending := { status := st, detail := d }
        let o' : Order := { o with
          ops := o.ops.map (fun (x : Oper) =>
            if x.phase.inFlight then { x with phase := .completed e }
            else if x.phase = .waiting then { x with phase := .never } else x) }
        let t := (o.ops.zipIdx).foldl (fun (t : State) (x, i) =>
          if x.phase.inFlight then t.writeOpstat o.addr i (opstat e) 0 else t) s
        t.endCmd tag (o'.ending (some (st, d))) o'.opsDone

/-- The struck commands of a job have all stopped, and no struck slot is left for which it would wait (R269). -/
def State.jobReady (s : State) (j : StrikeJob) : Bool :=
  j.tags.all (fun g => (s.cmd g).all (fun c => c.allStopped))
    && (decide (j.slotCount = 0) || s.warden.sealed.all (fun e => e.struck.isNone))

/-- Finish a job: the records of its commands, then the Strike's own with the number struck (R268). -/
def State.finishJob (s : State) (j : StrikeJob) : State :=
  let t := j.tags.foldl (fun (t : State) g => t.recordStruck g) s
  match j.own with
  | some g => t.endCmd g { status := .done, result := BitVec.ofNat 64 (j.tags.length + j.slotCount) }
  | none => t

/-- The strike sequencer writes the records of every job whose units have all stopped (R268, R269). -/
def execStrikeRecords (s : State) : Host.Outcome State Fault Refusal :=
  .next ((s.warden.strikes.filter (fun j => s.jobReady j)).foldl (fun (t : State) j => t.finishJob j)
    (s.setWarden (fun w => { w with strikes := w.strikes.filter (fun j => !s.jobReady j) })))

/-- End every command not yet recorded as STRIKE_ALL would, with a status and detail (R403, R450): the commands are
marked, the sealed slots end. The tags in `keep` are left. -/
def State.strikeEverything (s : State) (st : Status) (d : BitVec 32) (keep : List Nat) : State :=
  let tags := (s.strikable.map (·.tag)).filter (fun g => !keep.contains g)
  let t := (s.strikeSlots s.strikableSlots st d).markStruck tags st d
  if tags.isEmpty then t else t.addJob { tags := tags, slotCount := 0, own := none }

end Sys2Proof.Machine
end

