-- ==== Sys2Proof/Machine/Mirror.lean ====
section
/-! DEFINITION. Seam frames this device sends: the Lantern mirror of a Split half (12_silman_and_seam.md R359 to R361,
14_pitch.md R407, 15_trust_and_firmware.md R433). The spec gives no form for a mirror message; its bytes are free values of Config
(notes/assumptions/35.md). -/

namespace Sys2Proof.Machine

open Sys2Proof

/-- What one Lantern tells the other: in Split mode the mode its owner asks for, a trial that failed, a commit; in Twin mode a
protection event (R33), which the other half need not act on; and a coolant shutdown, which takes the whole module in either mode
(11_heat_path.md R310), with its cause. -/
inductive Mirror where
  | asksTwin
  | asksSplit
  | trialFailed
  | committed
  | protection
  | coolant (cause : Nat)
  deriving DecidableEq, Repr

/-- The code under which Config knows a message; 0 is none of these. -/
def Mirror.code : Mirror → Nat
  | .asksTwin => 1
  | .asksSplit => 2
  | .trialFailed => 3
  | .committed => 4
  | .protection => 5
  | .coolant c => 4 + c

/-- Where a message crosses the Seam: mode requests, trials and commits between the devices of a Split module, plain protection
events between the Lanterns of a Twin module, coolant shutdowns in both (R33, R310, R407, R433). -/
def Mirror.crosses (x : Mirror) (split : Bool) : Bool :=
  match x with
  | .protection => !split
  | .coolant _ => true
  | _ => split

/-- The modules in service, lowest first. -/
def State.seamUp (s : State) : List Nat := (s.seam.mods.filter (fun e => decide (e.2.state = .inService))).map (·.1)

/-- Frames a replay buffer holds (R361). -/
def seamReplayRoom : Nat := 64

/-- Send a frame with the given first 0xE0 bytes on a module: CRC, SF_SEQ and SF_ACK follow, and it enters the replay buffer, or waits
for room there. -/
def State.sendFrame (s : State) (m : Nat) (head : List Byte) : State :=
  let x := s.seamMod m
  let f := padTo head 0xE0 ++ leBytes 4 (crc32c (padTo head 0xE0)) ++ leBytes 2 x.txSeq.toNat ++ leBytes 2 x.rxNext.toNat
  if seamReplayRoom ≤ x.replayBuf.length then s.setSeamMod m (fun y => { y with waiting := y.waiting ++ [head] })
  else (s.setSeamMod m (fun y => { y with txSeq := y.txSeq + 1, replayBuf := y.replayBuf ++ [(y.txSeq, f)] })).emit (.seamFrame (Fin.ofNat 16 m) f)

/-- The frames that waited on a module go, as far as its replay buffer has room. -/
def State.drainSeam (s : State) (m : Nat) : State :=
  (s.seamMod m).waiting.foldl (fun (t : State) h => t.sendFrame m h) (s.setSeamMod m (fun x => { x with waiting := [] }))

/-- A message on SV0 goes out on the two lowest-numbered modules in service (R360). The protection action it
reports is taken whether or not it arrives (R33). -/
def State.tell (s : State) (x : Mirror) : State :=
  if !x.crosses (decide (s.geo.mode = 1)) then s
  else
    let n := s.seam.sv0Next
    (s.seamUp.take 2).foldl (fun (t : State) m => t.sendFrame m (Config.mirrorFrame x.code n.toNat)) { s with seam := { s.seam with sv0Next := n + 1 } }

end Sys2Proof.Machine
end

