-- ==== Sys2Proof/Machine/Geometry.lean ====
section
/-! DEFINITION. The geometry record (01_seven_levels.md R36 to R38), the defect overlay (14_pitch.md R397), and the
commands that read or set them. -/

namespace Sys2Proof.Machine

open Sys2Proof

/-! ## The record -/

/-- Retired banks of a pair. -/
def State.banksRetired (s : State) (pair : Nat) : Nat :=
  (s.mem.retired.filter (fun r => decide (r.pair = pair) && r.bank.isSome)).length

/-- The logical pairs of a tower. -/
def towerPairs (t : Nat) : List Nat := (List.range 64).map (fun v => 64 * t + v)

/-- A tower is in the device and in service: some pair of it is present. -/
def State.towerServes (s : State) (t : Nat) : Bool := s.hasTower t && (towerPairs t).any s.pairPresent

/-- GEO_TOWER_MASK. -/
def State.towerMask (s : State) : Nat := (List.range 16).foldl (fun m t => m + ofBool (s.towerServes t) * 2 ^ t) 0

/-- GEO_PAIRS. -/
def State.pairCount (s : State) : Nat := ((List.range 1024).filter s.pairPresent).length

/-- Seam modules in service. -/
def State.seamServing (s : State) : Nat := (s.seam.mods.filter (fun e => decide (e.2.state ≠ .out))).length

/-- GEO_PORT_ROLES (13_host_far_ports.md Table 13-1). -/
def State.portRoles (s : State) : Nat :=
  ofBool s.geo.hasW + (if !s.geo.hasE then 0 else if s.geo.heFarTier then 8 else 4)

/-- GEO_HALVES. -/
def State.halvesByte (s : State) : Nat := ofBool s.geo.hasW + 2 * ofBool s.geo.hasE

/-- The state with the halves of the built record: the loss of a half changes the record only at the re-pitch (R37). -/
def State.asBuilt (s : State) : State :=
  if s.geo.built then { s with geo := { s.geo with hasW := s.geo.recHalves.getLsbD 0, hasE := s.geo.recHalves.getLsbD 1 } } else s

/-- Bytes 0x00 to 0x7F of the record: header, Seam lanes, link lanes (Table 01-6, Table 01-7), each field at its value
once the pitch has reached it (18_register_maps.md R494). -/
def State.geoHeader (live : State) : List Byte :=
  let s := live.asBuilt
  let on (c : Bool) (n v : Nat) : List Byte := leBytes n (if c then v else 0)
  let b := s.geo.built
  on s.trust.loaded 2 1 ++ on s.trust.loaded 2 (if s.trust.runB then s.trust.slotB.ifaceRev else s.trust.slotA.ifaceRev).toNat
    ++ on b 4 s.geo.generation.toNat ++ on s.geo.fusesRead 2 (orderCode s.fuses) ++ on b 1 s.geo.mode.toNat
    ++ on b 1 s.halvesByte ++ on s.geo.fusesRead 2 s.fuses.clockMhz ++ on s.geo.fusesRead 2 s.fuses.powerW
    ++ on b 2 s.towerMask ++ on b 2 s.pairCount ++ on b 1 s.seamServing ++ on b 1 s.portRoles ++ leBytes 2 0
    ++ on b 4 s.geo.farTierMib ++ leBytes 36 0
    ++ (List.range 16).flatMap (fun m => on b 1 (if (s.seamMod m).state = .out then 0 else (s.seamMod m).width))
    ++ (List.range 18).flatMap (fun n => on b 1 (look s.geo.recLanes n 0)) ++ leBytes 30 0

/-- One pair entry (Table 01-8). -/
def State.pairEntry (s : State) (p : Nat) : List Byte :=
  if !s.hasTower (p / 64) then leBytes 8 0
  else
    let r := s.banksRetired p
    [BitVec.ofNat 8 (ofBool (s.pairPresent p) + 2 * ofBool (s.narrow p)), BitVec.ofNat 8 (look s.geo.sites p (p % 64))]
      ++ leBytes 2 (s.core p).arrays.toNat ++ leBytes 2 (1152 - 9 * r) ++ [BitVec.ofNat 8 r, 0]

/-- The full record of 8,320 B. -/
def State.geoRecord (s : State) : List Byte := s.geoHeader ++ (List.range 1024).flatMap s.asBuilt.pairEntry

/-- GEOMETRY_READ copies the first GR_LEN bytes of the record to host memory (R36). -/
def execGeometryRead (ctrl : Fin 4) (slot : Fin 1024) (s : State) : Host.Outcome State Fault Refusal :=
  .next (s.serve 0x0010 ctrl slot (fun a t => a.checked t
    [(a.noPort, .rejectFormat, noField), (decide (field a.b 24 8 % 64 ≠ 0), .rejectFormat, 24),
     (decide (8320 < field a.b 32 2), .rejectFormat, 32)]
    (fun t => if field a.b 32 2 = 0 then a.finish t { status := .doneEmpty }
      else a.copyOut t (field a.b 24 8) (t.geoRecord.take (field a.b 32 2)))))

/-! ## The overlay -/

/-- Bytes 0x00 to 0x0B of an entry (Table 14-6). -/
def OvEntry.head (e : OvEntry) : List Byte :=
  [e.kind, e.tower, e.site, e.sub] ++ leBytes 4 e.detail.toNat ++ leBytes 4 e.pitch.toNat

/-- The 16 bytes of an entry, with its CRC. -/
def OvEntry.bytes (e : OvEntry) : List Byte := e.head ++ leBytes 4 (crc32c e.head)

/-- Entries the overlay holds at most. -/
def overlayRoom : Nat := 65536

/-- Append an entry to the overlay (R397): at 90 % of capacity OVERLAY_NEAR is written; when it is full, OVERLAY_FULL, and
the defect is not kept. -/
def State.appendOverlay (s : State) (kind tower site sub detail : Nat) : State :=
  let e : OvEntry := { kind := BitVec.ofNat 8 kind, tower := BitVec.ofNat 8 tower, site := BitVec.ofNat 8 site,
                       sub := BitVec.ofNat 8 sub, detail := BitVec.ofNat 32 detail, pitch := s.lantern.count }
  if overlayRoom ≤ s.geo.overlay.length then
    State.postArgs { s with geo := { s.geo with unkept := s.geo.unkept ++ [e] } } 0x0404 s.lead 2 kind 0 0
  else
    let t := { s with geo := { s.geo with overlay := s.geo.overlay ++ [e] } }
    if 10 * s.geo.overlay.length < 9 * overlayRoom ∧ 9 * overlayRoom ≤ 10 * (s.geo.overlay.length + 1) then
      t.postArgs 0x0403 s.lead 1 (s.geo.overlay.length + 1) 0 0
    else t

/-- Append an entry about the site that serves a pair. -/
def State.overlayPair (s : State) (kind pair sub detail : Nat) : State :=
  s.appendOverlay kind (pair / 64) (look s.geo.sites pair (pair % 64)) sub detail

/-- DEFECT_READ copies entries of the fused list or of the overlay, 16 B each, from DF_FROM on; its result is the number
copied (R406). -/
def execDefectRead (ctrl : Fin 4) (slot : Fin 1024) (s : State) : Host.Outcome State Fault Refusal :=
  .next (s.serve 0x0410 ctrl slot (fun a t => a.checked t
    [(a.noPort, .rejectFormat, noField), (decide (1 < field a.b 24 1), .rejectFormat, 24),
     (decide (65536 < field a.b 32 4), .rejectFormat, 32), (decide (field a.b 40 8 % 64 ≠ 0), .rejectFormat, 40)]
    (fun t =>
      let l := if field a.b 24 1 = 0 then t.fuses.defects else t.geo.overlay
      let part := (l.drop (field a.b 28 4)).take (field a.b 32 4)
      if field a.b 32 4 = 0 then a.finish t { status := .doneEmpty }
      else a.copyOut t (field a.b 40 8) (part.flatMap OvEntry.bytes) part.length)))

/-! ## Persisted settings of the device -/

/-- The persisted settings changed. -/
def State.setSettings (s : State) (f : Settings → Settings) : State := { s with settings := f s.settings }

/-- The Lantern changed. -/
def State.setLantern (s : State) (f : Lantern → Lantern) : State := { s with lantern := f s.lantern }

/-- PITCH_CONFIG persists the role of H-E and PC_QUICK_EN; in Split mode PC_HE_ROLE is ignored (R406, R407). -/
def execPitchConfig (ctrl : Fin 4) (slot : Fin 1024) (s : State) : Host.Outcome State Fault Refusal :=
  .next (s.serve 0x0400 ctrl slot (fun a t => a.checked t
    [(decide (t.geo.mode ≠ 1) && decide (1 < field a.b 24 1), .rejectFormat, 24), (decide (1 < field a.b 25 1), .rejectFormat, 25)]
    (fun t => a.done (t.setSettings (fun x =>
      { x with quickEn := decide (field a.b 25 1 = 1),
               heFarTier := if t.geo.mode = 1 then x.heFarTier else decide (field a.b 24 1 = 1) })))))

/-- MODE_SET (00_scope.md R5, R407): in Twin mode the persisted setting changes at once; in Split mode the request of this
half is recorded, and the setting changes once both halves have requested the same mode. The result is 1 while a
request waits on the other half. -/
def execModeSet (ctrl : Fin 4) (slot : Fin 1024) (s : State) : Host.Outcome State Fault Refusal :=
  .next (s.serve 0x0021 ctrl slot (fun a t => a.checked t [(decide (1 < field a.b 24 1), .rejectFormat, 24)]
    (fun t =>
      let split := decide (field a.b 24 1 = 1)
      let told := t.tell (if split then .asksSplit else .asksTwin)
      if t.geo.mode ≠ 1 then a.done (t.setSettings (fun x => { x with modeSplit := split }))
      else if t.lantern.modeReqPeer = some split then
        a.done ((told.setSettings (fun x => { x with modeSplit := split })).setLantern
          (fun l => { l with modeReq := none, modeReqPeer := none }))
      else a.done (told.setLantern (fun l => { l with modeReq := some split })) 1)))

/-- An effect that takes place at the next ration-period boundary, its record after it (00_scope.md R507,
09_work_orders.md R240). -/
def Adm.defer (a : Adm) (s : State) (e : Effect) : State :=
  s.setWarden (fun w => { w with deferred := w.deferred ++ [{ tag := a.tag, effect := e, accepted := s.now }] })

/-- The memory error log entry's 32 bytes (07_vaults_and_protection.md Table 07-7). -/
def LogEntry.bytes (e : LogEntry) : List Byte :=
  leBytes 8 e.time.toNat ++ leBytes 2 (e.pair % 1024 + 32768 * ofBool e.overflow) ++ leBytes 1 e.bank ++ leBytes 1 e.kind
    ++ leBytes 2 e.row ++ leBytes 1 e.column ++ leBytes 1 e.symbol ++ leBytes 4 e.count ++ leBytes 1 e.source
    ++ leBytes 1 e.group ++ leBytes 2 e.seq.toNat ++ leBytes 8 e.addr

/-- The entries from the one whose MEL_SEQ is `q` on, or all of them when it is no longer held. -/
def logFrom (l : List LogEntry) (q : Nat) : List LogEntry :=
  if l.any (fun e => e.seq.toNat = q) then l.dropWhile (fun e => decide (e.seq.toNat ≠ q)) else l

/-- MEM_ERRLOG_READ copies entries in sequence order; its result is the number copied (R198). -/
def execMemErrlogRead (ctrl : Fin 4) (slot : Fin 1024) (s : State) : Host.Outcome State Fault Refusal :=
  .next (s.serve 0x0044 ctrl slot (fun a t => a.checked t
    [(a.noPort, .rejectFormat, noField), (decide (16384 < field a.b 26 2), .rejectFormat, 26)]
    (fun t =>
      let part := (logFrom t.mem.log (field a.b 24 2)).take (field a.b 26 2)
      if field a.b 26 2 = 0 then a.finish t { status := .doneEmpty }
      else a.copyOut t (field a.b 32 8) (part.flatMap LogEntry.bytes) part.length)))

/-- MEM_SCRUB_SET sets the pass interval in hours (R195). -/
def execMemScrubSet (ctrl : Fin 4) (slot : Fin 1024) (s : State) : Host.Outcome State Fault Refusal :=
  .next (s.serve 0x0041 ctrl slot (fun a t => a.checked t
    [(decide (field a.b 24 1 < 1) || decide (168 < field a.b 24 1), .rejectFormat, 24)]
    (fun t => a.done (t.setSettings (fun x => { x with scrubHours := field a.b 24 1 })))))

/-- The pairs an interleaved window names. -/
def windowPairs (tower first count : Nat) : List Nat := (List.range count).map (fun k => 64 * tower + first + k)

/-- A window's per-vault range reaches the page pool of a pair it names (07_vaults_and_protection.md R174). -/
def State.windowMeetsPool (s : State) (w : Window) (pairs : List Nat) : Bool :=
  pairs.any (fun p => decide (0 < look s.settings.poolRows p 0) && decide (s.poolBase p < w.base + w.size))

/-- MEM_WINDOW_SET is checked as one set and takes effect at the next ration-period boundary (R174, R175). -/
def execMemWindowSet (ctrl : Fin 4) (slot : Fin 1024) (s : State) : Host.Outcome State Fault Refusal :=
  .next (s.serve 0x0040 ctrl slot (fun a t =>
    let n := field a.b 24 1
    let en := field a.b 25 1
    let tw := field a.b 26 1
    let fi := field a.b 27 1
    let cn := field a.b 28 1
    let ba := field a.b 32 4
    let si := field a.b 36 4
    let on := decide (en = 1)
    let pairs := windowPairs tw fi cn
    a.checked t
      [(decide (15 < n), .rejectFormat, 24), (decide (1 < en), .rejectFormat, 25), (on && decide (15 < tw), .rejectFormat, 26),
       (on && decide (63 < fi), .rejectFormat, 27), (on && decide (64 < fi + cn), .rejectFormat, 28),
       (on && decide (ba % 4096 ≠ 0), .rejectFormat, 32), (on && decide (si % 4096 ≠ 0), .rejectFormat, 36),
       (on && !t.hasTower tw, .rejectLimit, 26), (on && pairs.any (fun p => !t.pairPresent p), .rejectLimit, 27),
       (on && decide (vaultBytes < ba + si), .rejectLimit, 36),
       (on && decide (0 < si) && t.windowMeetsPool { base := ba, size := si } pairs, .rejectState, 36)]
      (fun t =>
        if on && (decide (cn = 0) || decide (si = 0)) then a.finish t { status := .doneEmpty }
        else a.defer t (.window n on tw fi cn ba si))))

/-- What MEM_RETIRE or MEM_UNRETIRE names in MR_ADDR, a block: its pair and block number. -/
def State.blockNamed (s : State) (addr : Nat) : Option (Nat × Nat) :=
  match s.reach addr with
  | .vault p off => some (p, blockOf off)
  | _ => none

/-- Block entries in the retirement lists. -/
def State.retiredBlocks (s : State) : Nat := (s.mem.retired.filter (fun r => r.bank.isNone)).length

/-- Blocks whose accepted retirement waits for its boundary. -/
def State.retiringBlocks (s : State) : Nat :=
  ((s.warden.deferred.filterMap (fun d => match d.effect with
    | .retireBlock p k => some (p, k)
    | _ => none)).eraseDups.filter (fun x => !s.mem.retired.contains { pair := x.1, bank := none, block := x.2 })).length

/-- The parameter checks that MEM_RETIRE and MEM_UNRETIRE share (R199): MR_KIND at 24, MR_ADDR at 32, MR_PAIR at 40,
MR_BANK at 42. -/
def retireChecks (s : State) (b : List Byte) : List Check :=
  let k := field b 24 1
  let a := field b 32 8
  [(decide (1 < k), .rejectFormat, 24),
   (decide (k = 0) && (decide (a % 4096 ≠ 0) || (decide (farBase ≤ a) && decide (a < 2 ^ 48))), .rejectFormat, 32),
   (decide (k = 1) && decide (1023 < field b 40 2), .rejectFormat, 40),
   (decide (k = 1) && decide (127 < field b 42 1), .rejectFormat, 42),
   (decide (k = 0) && (s.blockNamed a).isNone, .rejectLimit, 32),
   (decide (k = 1) && !s.pairPresent (field b 40 2), .rejectLimit, 40)]

/-- MEM_RETIRE (R199): a block list that is full rejects it with REJECT_LIMIT; the retirement takes effect at the next
ration-period boundary. -/
def execMemRetire (ctrl : Fin 4) (slot : Fin 1024) (s : State) : Host.Outcome State Fault Refusal :=
  .next (s.serve 0x0042 ctrl slot (fun a t => a.checked t
    (retireChecks t a.b ++
      [(decide (field a.b 24 1 = 0) && decide (65536 ≤ t.retiredBlocks + t.retiringBlocks)
          && !(t.blockNamed (field a.b 32 8)).any (fun x => t.mem.retired.contains { pair := x.1, bank := none, block := x.2 }),
        .rejectLimit, noField)])
    (fun t => match field a.b 24 1, t.blockNamed (field a.b 32 8) with
      | 0, some (p, k) => a.defer t (.retireBlock p k)
      | _, _ => a.defer t (.retireBank (field a.b 40 2) (field a.b 42 1)))))

/-- MEM_UNRETIRE (R200): a block is released at the next ration-period boundary, a bank at the next pitch. -/
def execMemUnretire (ctrl : Fin 4) (slot : Fin 1024) (s : State) : Host.Outcome State Fault Refusal :=
  .next (s.serve 0x0043 ctrl slot (fun a t => a.checked t (retireChecks t a.b)
    (fun t => match field a.b 24 1, t.blockNamed (field a.b 32 8) with
      | 0, some (p, k) => a.defer t (.unretireBlock p k)
      | _, _ => a.done { t with mem := { t.mem with
          releasing := t.mem.releasing ++ [{ pair := field a.b 40 2, bank := some (field a.b 42 1), block := 0 }] } })))

/-- Some Vestibule of the device holds unflushed keys or values. -/
def State.vestibulesHold (s : State) : Bool := s.kv.seqs.any (fun e => e.2.streams.any (fun x => !x.slot.isEmpty))

/-- CORE_CONFIG: the Vestibule size takes effect at the next ration-period boundary (03_cores_and_arrays.md R65). -/
def execCoreConfig (ctrl : Fin 4) (slot : Fin 1024) (s : State) : Host.Outcome State Fault Refusal :=
  .next (s.serve 0x0020 ctrl slot (fun a t =>
    let k := field a.b 24 2
    a.checked t [(decide (k % 64 ≠ 0) || decide (k < 64) || decide (512 < k), .rejectLimit, 24),
                 (t.vestibulesHold, .rejectState, noField)]
      (fun t => a.defer t (.vestibule k))))

/-! ## Ring adoption (08_warden_mailboxes.md R232) -/

/-- Records that wait and are adopted now. -/
def adoptWaiting (l : List Rec) (d : Adoption) : List Rec :=
  l.map (fun r => if d.covers r then { r with ctrl := d.dstCtrl, ring := d.dstRing } else r)

/-- RING_ADOPT: from its completion on the records of the source ring go to the target ring, those that wait
included. -/
def execRingAdopt (ctrl : Fin 4) (slot : Fin 1024) (s : State) : Host.Outcome State Fault Refusal :=
  .next (s.serve 0x0050 ctrl slot (fun a t =>
    let sc := field a.b 24 1
    let sr := field a.b 25 1
    let dr := field a.b 26 1
    a.checked t
      [(decide (3 < sc), .rejectFormat, 24), (decide (63 < sr), .rejectFormat, 25), (decide (63 < dr), .rejectFormat, 26),
       (a.noPort || !(t.port a.ctrl).ringOn dr, .rejectState, 26)]
      (fun t =>
        let d : Adoption := { srcCtrl := Fin.ofNat 4 sc, srcRing := BitVec.ofNat 16 sr, dstCtrl := a.ctrl,
                              dstRing := BitVec.ofNat 16 dr, before := t.warden.nextAdm }
        let u := a.done t
        u.setWarden (fun w => { w with adoptions := d :: w.adoptions, records := adoptWaiting w.records d }))))

/-! ## Ownership commands of controllers 2 and 3 (R224) -/

/-- They are rejected from controllers 0 and 1. -/
def Adm.ctlChecks (a : Adm) : List Check := [(!a.noPort, .rejectFormat, 0x0000)]

/-- CTL_CLAIM: OWN_CLAIM with its priority and nonce; a refused claim completes at once, an accepted one when it is
decided. -/
def execCtlClaim (ctrl : Fin 4) (slot : Fin 1024) (s : State) : Host.Outcome State Fault Refusal :=
  .next (s.serve 0x0F10 ctrl slot (fun a t => a.checked t a.ctlChecks (fun t =>
    let u := (t.setOwnPort a.ctrl (fun p => { p with claimPrio := BitVec.ofNat 8 (field a.b 24 1),
                                                     claimNonce := BitVec.ofNat 64 (field a.b 32 8) })).claim a.ctrl
      (BitVec.ofNat 8 (field a.b 24 1)) (BitVec.ofNat 64 (field a.b 32 8)) [a.tag]
    if t.own.phase = .opened ∨ t.own.phase = .window then u else a.done u 4)))

/-- CTL_RENEW: OWN_RENEW. -/
def execCtlRenew (ctrl : Fin 4) (slot : Fin 1024) (s : State) : Host.Outcome State Fault Refusal :=
  .next (s.serve 0x0F11 ctrl slot (fun a t => a.checked t a.ctlChecks (fun t =>
    if t.owns a.ctrl then a.done (t.renew a.ctrl)
    else a.finish (t.renew a.ctrl) { status := .rejectNotOwner, detail := faultAt .slot noField })))

/-- CTL_HANDOVER: OWN_SUCCESSOR, then OWN_HANDOVER. -/
def execCtlHandover (ctrl : Fin 4) (slot : Fin 1024) (s : State) : Host.Outcome State Fault Refusal :=
  .next (s.serve 0x0F12 ctrl slot (fun a t => a.checked t (a.ctlChecks ++ [(decide (3 < field a.b 24 1), .rejectFormat, 24)])
    (fun t =>
      if !t.owns a.ctrl then a.finish (t.deny a.ctrl) { status := .rejectNotOwner, detail := faultAt .slot noField }
      else
        let u := State.handover { t with own := { t.own with successor := Fin.ofNat 4 (field a.b 24 1) } } a.ctrl
        if t.own.phase ≠ .offer ∧ u.own.phase = .offer then a.done u
        else a.finish u { status := .rejectState, detail := faultAt .slot 24 })))

/-- CTL_ACCEPT: OWN_ACCEPT. -/
def execCtlAccept (ctrl : Fin 4) (slot : Fin 1024) (s : State) : Host.Outcome State Fault Refusal :=
  .next (s.serve 0x0F13 ctrl slot (fun a t => a.checked t a.ctlChecks (fun t =>
    if t.offered a.ctrl then a.done (t.accept a.ctrl)
    else a.finish (t.accept a.ctrl) { status := .rejectState, detail := faultAt .slot noField })))

/-- CTL_RELEASE: OWN_RELEASE. -/
def execCtlRelease (ctrl : Fin 4) (slot : Fin 1024) (s : State) : Host.Outcome State Fault Refusal :=
  .next (s.serve 0x0F14 ctrl slot (fun a t => a.checked t a.ctlChecks (fun t =>
    if t.owns a.ctrl then a.done (t.release a.ctrl)
    else a.finish (t.release a.ctrl) { status := .rejectNotOwner, detail := faultAt .slot noField })))

/-- CTL_OWN_STATUS: result bits [31:0] the word at offset 0x00 of the ownership block, bits [63:32] OWN_EPOCH, detail bits
[10:0] OWN_LEASE_MS. -/
def execCtlOwnStatus (ctrl : Fin 4) (slot : Fin 1024) (s : State) : Host.Outcome State Fault Refusal :=
  .next (s.serve 0x0F15 ctrl slot (fun a t => a.checked t a.ctlChecks (fun t =>
    a.done t (t.ownWord a.ctrl + 2 ^ 32 * t.own.epoch.toNat) t.leaseMs)))

end Sys2Proof.Machine
end

