-- ==== Sys2Proof/Machine/Identity.lean ====
section
/-! DEFINITION. Identity, entropy and attestation reports (15_trust_and_firmware.md R408 to R413). -/

namespace Sys2Proof.Machine

open Sys2Proof

/-- Trust state changed. -/
def State.setTrust (s : State) (f : Trust → Trust) : State := { s with trust := f s.trust }

/-- FW_STATE as a number (Table 15-8). -/
def FwState.code : FwState → Nat
  | .committed => 0
  | .trial => 1
  | .recovery => 2
  | .none => 3

/-- TDISP state as a number (Table 15-2). -/
def TdiState.code : TdiState → Nat
  | .configUnlocked => 0
  | .configLocked => 1
  | .run => 2
  | .error => 3

/-- The certificate chain the device presents: the W die's, or the E die's where W is not in the device (R411). -/
def State.chain (s : State) : List Byte := if s.lead = 0 then s.trust.chainW else s.trust.chainE

/-- AR_TDI_STATE of the paths that are no host port. -/
def noTdi : Nat := 0xFF

/-- The slot that runs (FW_RUN_SLOT). -/
def Trust.running (t : Trust) : FwSlot := if t.runB then t.slotB else t.slotA

/-- The bytes of a block of a slot; a block never written is empty. -/
def FwSlot.block (f : FwSlot) (i : Nat) : List Byte := (look f.blocks i ([], 0)).1

/-- The image of a slot runs: not recovery and not AUTH_FAIL. -/
def Trust.imageRuns (t : Trust) : Bool := t.loaded && (decide (t.fwState = .committed) || decide (t.fwState = .trial))

/-- The firmware measurement: the hash of manifest block 0, zeros in recovery. -/
def State.fwMeas (s : State) : List Byte :=
  if s.trust.imageRuns then Config.shake256 (s.trust.running.block 0) 32 else List.replicate 32 0

/-- FW_VERSION: MF_VERSION of the running image. -/
def State.fwVersion (s : State) : Nat := if s.trust.imageRuns then s.trust.running.version.toNat else 0

/-- GEO_IFACE_REV. -/
def State.ifaceRev (s : State) : Nat := if s.trust.imageRuns then s.trust.running.ifaceRev.toNat else 0

/-- A set of Rations as numbers, for the hash of a settings copy. -/
def RationSet.words (r : RationSet) : List Nat := (List.range 656).map (fun i => r.read16 (2 * i))

/-- The values of a settings copy in order, for its hash (R412, R432). -/
def Settings.words (x : Settings) : List Nat :=
  [x.fmt.toNat, ofBool x.modeSplit, ofBool x.heFarTier, ofBool x.quickEn, x.vestibuleKib, x.scrubHours, x.tcSource.toNat,
   ofBool x.tcRoot, ofBool x.tcFalling, ofBool x.clPg25, (x.clFlowSet.map (· + 1)).getD 0, x.lkPortEn.toNat,
   x.lkDomain.toNat, x.lkPeerNode.toNat, ofBool x.lkFabricRoot, ofBool x.lkAutoJoin, x.wdPeriodMs, x.tpMinFw.toNat,
   ofBool x.tpSameFw, x.poolRows.length] ++ x.poolRows.flatMap (fun e => [e.1, e.2]) ++ [x.demoted.length] ++ x.demoted
   ++ x.rations.words

/-- Bytes 0x000 to 0x17F of a report (Table 15-2). -/
def State.reportBody (s : State) (tdi : Nat) (nonce : List Byte) : List Byte :=
  let on (v : Nat) : Nat := if s.geo.built then v else 0
  let peer (f : Discovery → List Byte) : List Byte :=
    if s.twin then (s.seam.peer.map (fun d => padTo (f d) 32)).getD (List.replicate 32 0) else List.replicate 32 0
  leBytes 2 1 ++ leBytes 2 s.ifaceRev ++ leBytes 1 (on s.geo.mode.toNat) ++ leBytes 1 (on s.asBuilt.halvesByte)
    ++ leBytes 2 (orderCode s.fuses) ++ leBytes 4 s.fwVersion ++ leBytes 4 s.trust.arb.toNat ++ leBytes 1 s.trust.fwState.code
    ++ leBytes 1 tdi ++ leBytes 1 (on s.asBuilt.portRoles) ++ [0] ++ leBytes 4 s.lantern.count.toNat ++ leBytes 8 s.rtNow
    ++ padTo nonce 32 ++ Config.romHash ++ s.fwMeas ++ Config.settingsHash s.settings.words
    ++ Config.shake256 (s.fuses.defects.flatMap OvEntry.bytes) 32 ++ Config.shake256 (s.geo.overlay.flatMap OvEntry.bytes) 32
    ++ Config.shake256 s.geoRecord 32 ++ peer (·.dikHash) ++ peer (·.fwMeas) ++ Config.sealHash s.lead ++ List.replicate 32 0

/-- The size of a report. -/
def reportBytes : Nat := 1664

/-- An attestation report, signed by the presenting die's DIK (R412). -/
def State.report (s : State) (tdi : Nat) (nonce : List Byte) : List Byte :=
  padTo (s.reportBody tdi nonce ++ Config.sign s.lead (s.reportBody tdi nonce)) reportBytes

/-- Whether the signature of a report verifies under a chain (R418). -/
def reportHolds (chain report : List Byte) : Bool := Config.verify chain (report.take 0x180) (report.drop 0x180)

/-- The count of the next draw of the noise source (R410), and the state that has made it. -/
def State.drawKey (s : State) : Nat × State := (s.trust.drawn, s.setTrust (fun t => { t with drawn := t.drawn + 1 }))

/-- A SECURITY event: the reason, and the port or controller it concerns (16_faults_blast_radius.md Table 16-6). -/
def State.postSecurity (s : State) (r : Reason) (who : Nat) : State := s.postArgs 0x0501 who 2 r.code who 0

/-- The noise source's health tests (R410): the first failure of a pitch writes an event record. -/
def execEntropyHealthTest (pass : Bool) (s : State) : Host.Outcome State Fault Refusal :=
  .next (if pass then s.setTrust (fun t => { t with entropyOk := true })
    else
      let t := s.setTrust (fun t => { t with entropyOk := false, entropyLogged := true })
      if s.trust.entropyLogged then t else t.postSecurity .entropy s.lead)

/-- ATTEST copies the report for AT_NONCE to AT_DEST (R413, R435); a die whose identity does not hold is refused
(R408). -/
def execAttest (ctrl : Fin 4) (slot : Fin 1024) (s : State) : Host.Outcome State Fault Refusal :=
  .next (s.serve 0x0500 ctrl slot (fun a t => a.checked t
    [(a.noPort, .rejectFormat, noField), (decide (field a.b 56 8 % 64 ≠ 0), .rejectFormat, 56)]
    (fun t => if !t.trust.identityOk then a.finish t (refused .identity)
      else a.copyOut t (field a.b 56 8) (t.report (t.port a.ctrl).tdi.code ((a.b.drop 24).take 32)))))

/-- CERT_READ copies up to CT_LEN bytes of the certificate chain; its result is the chain's length (R435). -/
def execCertRead (ctrl : Fin 4) (slot : Fin 1024) (s : State) : Host.Outcome State Fault Refusal :=
  .next (s.serve 0x0501 ctrl slot (fun a t => a.checked t
    [(a.noPort, .rejectFormat, noField), (decide (field a.b 24 8 % 64 ≠ 0), .rejectFormat, 24),
     (decide (16384 < field a.b 32 2), .rejectFormat, 32)]
    (fun t => if field a.b 32 2 = 0 then
        a.finish t { status := .doneEmpty, result := BitVec.ofNat 64 t.chain.length }
      else a.copyOut t (field a.b 24 8) (t.chain.take (field a.b 32 2)) t.chain.length)))

end Sys2Proof.Machine
end

