-- ==== Sys2Proof/Machine/Tokens.lean ====
section
/-! DEFINITION. Node IDs: the token of an enumeration and what this node does with it (12_silman_and_seam.md R339 to R344). -/

namespace Sys2Proof.Machine

open Sys2Proof

/-- The links changed. -/
def State.setLinks (s : State) (f : Links → Links) : State := { s with links := f s.links }

/-- A port as an index. -/
def slPort (n : Nat) : Fin 18 := Fin.ofNat 18 n

/-! ## Sending ENUM flits -/

/-- Send an ENUM flit of a kind on a port; EN_HOPS is this node's hops from the root (R341). -/
def State.sendEnum (s : State) (n kind : Nat) (abort : Bool) (domain : BitVec 16) (epoch : BitVec 32) (next node : Nat) : State :=
  s.sendSeq n 0 (.enumFlit (BitVec.ofNat 8 kind)
    { abort := abort, domain := domain, epoch := epoch, next := BitVec.ofNat 16 next,
      hops := BitVec.ofNat 8 s.links.hops, node := BitVec.ofNat 16 node })

/-- This node's ID in the epoch of a pass, pending or committed. -/
def Links.idIn (l : Links) (epoch : BitVec 32) : Option (BitVec 12) :=
  match l.pendingId with
  | some (i, e, _) => if e = epoch then some i else if l.epoch = epoch then l.nodeId else none
  | none => if l.epoch = epoch then l.nodeId else none

/-- The upstream port of this node's numbering in the epoch of a pass. -/
def Links.upIn (l : Links) (epoch : BitVec 32) : Option Nat :=
  match l.pendingId with
  | some (_, e, _) => if e = epoch then l.pendingUp else l.upstream.map (·.val)
  | none => l.upstream.map (·.val)

/-- This node is numbered in another domain. -/
def Links.elsewhere (l : Links) (domain : BitVec 16) : Bool :=
  (l.nodeId.isSome && decide (l.domain ≠ domain)) || (l.pendingId.isSome && decide (l.pendingDomain ≠ domain) && l.nodeId.isNone)

/-- The number of this node for a reply: committed, else pending, else unknown. -/
def Links.ownNumber (l : Links) : Nat :=
  match l.nodeId, l.pendingId with
  | some i, _ => i.toNat
  | none, some (i, _, _) => i.toNat
  | none, none => 0xFFFF

/-! ## The token (R340) -/

/-- A port the token goes down: keyed, not upstream, not marked cross or boundary. -/
def State.goesDown (s : State) (j : TokenJob) (n : Nat) : Bool :=
  s.hasSl n && decide ((s.sl n).state = .keyed) && decide (j.upstream.map (·.val) ≠ some n)
    && decide ((s.sl n).role ≠ .cross) && decide ((s.sl n).role ≠ .boundary)

/-- The nodes counted so far are the domain, when the token has come back to the root whole: COMMIT floods down every
downstream port, and the root's own pending routes take effect with it (R342). -/
def State.floodCommit (s : State) : State :=
  (List.range 18).foldl (fun (t : State) n =>
    if (t.sl n).role = .downstream then t.sendEnum n 5 false s.links.pendingDomain s.links.epoch s.links.nextFree 0 else t) s

/-- The token leaves this node: it returns upstream, or at the root the pass ends. -/
def State.finishToken (s : State) (j : TokenJob) : State :=
  let t := s.setLinks (fun l => { l with job := none })
  match j.upstream with
  | some u =>
    t.sendEnum u 2 j.fault.isSome j.domain j.epoch j.next
      (match j.fault with
        | some f => f.toNat
        | none => t.links.ownNumber)
  | none =>
    match j.fault with
    | some f =>
      let u := t.setLinks (fun l => { l with enumTag := none })
      match s.links.enumTag with
      | some tag => u.endCmd tag { status := .linkDown, detail := BitVec.ofNat 32 (((j.awaiting.map (·.val)).getD 0x1F)),
                                   result := BitVec.ofNat 64 (f.toNat % 4096) }
      | none => u
    | none =>
      (t.setLinks (fun l => { l with nextFree := j.next, epoch := j.epoch, flood := some (s.now, s.now),
                                     commitAt := some (s.now, j.epoch) })).floodCommit

/-- Go on with the token: down the next port, or back. -/
def State.passToken (s : State) (j : TokenJob) : State :=
  match (List.range 18).find? (fun n => decide (j.from' ≤ n) && s.goesDown j n) with
  | some n =>
    (s.setLinks (fun l => { l with job := some { j with awaiting := some (slPort n), first := j.next, sentAt := s.now, from' := n + 1 } })).sendEnum
      n 1 false j.domain j.epoch j.next s.links.ownNumber
  | none => s.finishToken { j with awaiting := none }

/-- Clear the marks of the ports for a new numbering; a boundary mark stays (notes/assumptions/32.md). -/
def State.clearRoles (s : State) : State :=
  (List.range 18).foldl (fun (t : State) n =>
    if (t.sl n).role = .none ∨ (t.sl n).role = .boundary then t else t.setSl n (fun p => { p with role := .none })) s

/-- Take the next free ID, pending until commit (R340). -/
def State.takeId (s : State) (j : TokenJob) : State :=
  (s.clearRoles).setLinks (fun l =>
    { l with pendingId := some (BitVec.ofNat 12 j.next, j.epoch, s.now), pendingDomain := j.domain, pendingRoutes := [],
             pendingUp := j.upstream.map (·.val), overflow := false })

/-- An exhausted token leaves this node unnumbered (R344): LS_FLAGS bit 2 and an event record. -/
def State.overflowId (s : State) : State :=
  (s.setLinks (fun l => { l with overflow := true, nodeId := none, pendingId := none, pendingRoutes := [], pendingUp := none,
                                 routes := [], overrides := [], defaultRoute := 0x1F, upstream := none })).postArgs
    0x0301 0xFF 1 0xFF 0 0

/-- Handle a token that has passed the tests on its port. -/
def State.handleToken (s : State) (j : TokenJob) : State :=
  match s.links.idIn j.epoch with
  | some id =>
    (s.setLinks (fun l => { l with pendingId := some (id, j.epoch, s.now), pendingDomain := j.domain,
                                   pendingRoutes := (if l.pendingId.any (fun x => x.2.1 = j.epoch) then l.pendingRoutes else l.routes),
                                   pendingUp := j.upstream.map (·.val) })).passToken j
  | none =>
    if 4096 ≤ j.next then s.overflowId.finishToken j
    else (s.takeId j).passToken { j with next := j.next + 1 }

/-- Start a pass at the root (R340). -/
def State.startPass (s : State) (full : Bool) (tag : Option Nat) : State :=
  let epoch := if full then s.links.epoch + 1 else s.links.epoch
  (s.setLinks (fun l => { l with enumTag := tag, hops := 0, root := true, joinDue := false })).handleToken
    { domain := s.settings.lkDomain, epoch := epoch, next := if full then 0 else s.links.nextFree, upstream := none, from' := 0,
      awaiting := none, first := 0, sentAt := s.now, fault := none }

/-- A JOIN notice is at the root: with LK_AUTO_JOIN set it starts an incremental pass, after the pass or commit under way (R343). -/
def State.joinNoticed (s : State) : State :=
  if !(s.settings.lkAutoJoin && s.links.root) then s
  else if s.links.job.isSome || s.links.pendingId.isSome then s.setLinks (fun l => { l with joinDue := true })
  else s.startPass false s.links.enumTag

/-- A JOIN notice that waited for the end of a pass acts (R343). -/
def State.joinAgain (s : State) : State := if s.links.joinDue then (s.setLinks (fun l => { l with joinDue := false })).joinNoticed else s

end Sys2Proof.Machine
end

