-- ==== Sys2Proof/Machine/Links.lean ====
section
/-! DEFINITION. Silman ports: training, lanes, flit reception, retry and the key exchange
(12_silman_and_seam.md R326 to R338, 15_trust_and_firmware.md R416 to R418). -/

namespace Sys2Proof.Machine

open Sys2Proof

/-- A flit is discarded and counted in LP_DROPS. -/
def State.slDrop (s : State) (n : Nat) : State := s.setSl n (fun p => { p with drops := satSucc p.drops })

/-! ## Acknowledgements and replay (R333 to R335) -/

/-- Credits owed on a channel, at most 255 at once. -/
def SlPort.owedOn (p : SlPort) (vc : Nat) : BitVec 8 := BitVec.ofNat 8 (min 255 (look p.owed vc 0))

/-- Credits to return in an FC flit. -/
def SlPort.creditsDue (p : SlPort) : Credits :=
  { vc0 := p.owedOn 0, vc1 := p.owedOn 1, vc2 := p.owedOn 2, vc3 := p.owedOn 3 }

/-- The port after it has returned its credits and acknowledged. -/
def SlPort.fcSent (p : SlPort) : SlPort :=
  { p with ackDue := false,
           owed := p.owed.filterMap (fun e => if 255 < e.2 then some (e.1, e.2 - 255) else none) }

/-- FC_NEXT of a port. -/
def SlPort.next (p : SlPort) : BitVec 32 := BitVec.ofNat 32 p.rxNext

/-- Send an FC ACKNOWLEDGE. -/
def State.sendAck (s : State) (n : Nat) : State :=
  (s.sendUnseq n (.ack (s.sl n).next (s.sl n).creditsDue)).setSl n SlPort.fcSent

/-- Ask for every flit from the next expected on (R334). -/
def State.askReplay (s : State) (n : Nat) : State :=
  (s.sendUnseq n (.replayReq (s.sl n).next (s.sl n).creditsDue)).setSl n SlPort.fcSent

/-- Release the flits before the number whose low bits, modulo `m`, are given: it must lie within the buffer or at its
end. -/
def SlPort.release (p : SlPort) (low m : Nat) : SlPort :=
  match p.replayBuf with
  | [] => p
  | e :: _ =>
    let k := (low + m - e.seq % m) % m
    if k ≤ p.replayBuf.length then { p with replayBuf := p.replayBuf.drop k } else p

/-- Add returned credits on a channel. -/
def SlPort.credit (p : SlPort) (vc n : Nat) : SlPort := { p with credits := upd p.credits vc 0 (· + n) }

/-- Add the credits of an FC flit. -/
def SlPort.credit4 (p : SlPort) (c : Credits) : SlPort :=
  (((p.credit 0 c.vc0.toNat).credit 1 c.vc1.toNat).credit 2 c.vc2.toNat).credit 3 c.vc3.toNat

/-- A flit kept under a key no longer held is protected again under the key in force, once (R337, R338). -/
def SlPort.reprotect (p : SlPort) (old : Bool) : SlPort :=
  if old then p
  else { p with underKey := p.underKey + (p.replayBuf.filter (fun e => e.hdr.keyPhase != p.keyPhase)).length,
                replayBuf := p.replayBuf.map (fun e => { e with hdr := { e.hdr with keyPhase := p.keyPhase } }) }

/-- Resend every flit of the replay buffer, in order (R334). -/
def State.replay (s : State) (n : Nat) : State :=
  let t := s.setSl n (fun p => { (p.reprotect p.oldKey.isSome) with replays := satSucc p.replays })
  (t.sl n).replayBuf.foldl (fun (u : State) e => u.emitSeq n e) t

/-! ## The key exchange (15_trust_and_firmware.md R416 to R418) -/

/-- HELLO: random value, chain length, chain (Table 15-2a). -/
def helloBytes (random chain : List Byte) : List Byte := random ++ leBytes 4 chain.length ++ chain

/-- Message bytes of one KEY payload. -/
def keyFragment : Nat := 284

/-- Send a KEY message: in fragments, every one but the last full, each behind KX_KIND, KX_FRAG, KX_FRAGS and a reserved byte
(R417). -/
def State.sendKey (s : State) (n kind : Nat) (bs : List Byte) : State :=
  let k := max 1 ((bs.length + keyFragment - 1) / keyFragment)
  (List.range k).foldl (fun (t : State) i =>
    t.sendUnseq n (.key (BitVec.ofNat 8 kind) ([BitVec.ofNat 8 kind, BitVec.ofNat 8 i, BitVec.ofNat 8 k, 0] ++ (bs.drop (keyFragment * i)).take keyFragment))) s

/-- Begin an exchange: the random value and HELLO. A die whose identity does not hold cannot sign, and begins none
(R408). -/
def State.startKx (s : State) (n : Nat) (rekey : Bool) : State :=
  if !s.trust.identityOk then s
  else
    let (k, t) := s.drawKey
    let r := padTo (Config.entropy k 32) 32
    (t.setSl n (fun p => { p with kx := some { started := t.now, random := r, peerHello := none, kemKey := none,
                                               kemCt := none, finSent := false, finGot := false, rekey := rekey } })).sendKey n 1
      (helloBytes r t.chain)

/-- Leave KEYED for UP_CLEAR: the keys are discarded (R337). -/
def State.dropKeys (s : State) (n : Nat) : State :=
  s.setSl n (fun p => { p with state := if p.state = .keyed then .upClear else p.state, linkKey := [], oldKey := none,
                               tagFailTimes := [], kx := none })

/-- A flit failed its tag (R337): counted; the fourth within 1 s takes the port to UP_CLEAR and a new exchange, an
earlier one is handled as a lost flit. -/
def State.tagFailed (s : State) (n : Nat) : State :=
  let t := s.setSl n (fun p =>
    { p with tagFail := satSucc p.tagFail,
             tagFailTimes := s.now :: p.tagFailTimes.filter (fun x => decide (s.now < x + ms 1000)) })
  if 4 ≤ (t.sl n).tagFailTimes.length then
    ((t.dropKeys n).postArgs 0x0302 n 2 n (t.sl n).tagFail 0).startKx n false
  else t.askReplay n

/-- A number read from bytes for the comparison of two DIK_HASH values. -/
def hashNat (h : List Byte) : Nat := leNat h

/-- This side is the initiator against the holder of a chain: its DIK_HASH is lower (R416). -/
def State.initiates (s : State) (chain : List Byte) : Bool :=
  decide (hashNat (Config.dikHash s.lead) < hashNat (Config.chainDik chain))

/-- The transcript of an exchange (R417): the initiator's HELLO, the responder's HELLO, KEM_KEY, KEM_CT, each preceded by
its kind and its length as 4 bytes. -/
def kxTranscript (helloI helloR kemKey kemCt : List Byte) : List Byte :=
  let part (k : Byte) (m : List Byte) : List Byte := [k] ++ leBytes 4 m.length ++ m
  part 1 helloI ++ part 1 helloR ++ part 2 kemKey ++ part 3 kemCt

/-- The transcript of the exchange on a port, once its messages stand. -/
def State.transcript (s : State) (x : Kx) : List Byte :=
  let mine := helloBytes x.random s.chain
  let (theirs, init) : List Byte × Bool := match x.peerHello with
    | some (r, c) => (helloBytes r c, s.initiates c)
    | none => ([], true)
  let join (m : Option (List Byte × List Byte)) : List Byte := match m with
    | some (a, b) => a ++ b
    | none => []
  kxTranscript (if init then mine else theirs) (if init then theirs else mine) (join x.kemKey) (join x.kemCt)

/-- What a FINISH signs (R417): the transcript and one byte, 0 from the initiator and 1 from the responder. -/
def finishDigest (transcript : List Byte) (initiator : Bool) : List Byte :=
  Config.shake256 (transcript ++ [if initiator then 0 else 1]) 32

/-- A refused or abandoned exchange: the port stays in, or falls back to, UP_CLEAR and retries 10 s later; each failure
writes an event record (R328, R418). -/
def State.kxFail (s : State) (n : Nat) : State :=
  let dik := ((s.sl n).kx.bind (·.peerHello)).map (fun h => leNat ((Config.chainDik h.2).take 8))
  (((s.dropKeys n).setSl n (fun p => { p with kxFailedAt := some s.now, step5 := false }))).postArgs 0x0303 n 2 n (dik.getD 0) 0

/-- Refuse the partner: ABORT with a reason before the exchange is left (R417). -/
def State.kxRefuse (s : State) (n : Nat) (r : Reason) : State := (s.sendKey n 5 (leBytes 1 r.code)).kxFail n

/-- The partner's report is accepted (R418): signature, nonce, AR_FW_ARB and the measurement policy. -/
def State.acceptsReport (s : State) (x : Kx) (report : List Byte) : Bool :=
  match x.peerHello with
  | none => false
  | some (_, chain) =>
    reportHolds chain report && decide ((report.drop 0x20).take 32 = x.random)
      && decide (s.settings.tpMinFw.toNat ≤ field report 0x0C 4)
      && (!s.settings.tpSameFw || decide ((report.drop 0x60).take 32 = s.fwMeas))

/-- The exchange of a port changed. -/
def State.setKx (s : State) (n : Nat) (f : Kx → Kx) : State := s.setSl n (fun p => { p with kx := p.kx.map f })

/-- Send this side's FINISH. -/
def State.sendFinish (s : State) (n : Nat) : State :=
  match (s.sl n).kx with
  | none => s
  | some x =>
    let init := (x.peerHello.map (fun h => s.initiates h.2)).getD true
    (s.setKx n (fun y => { y with finSent := true })).sendKey n 4 (Config.sign s.lead (finishDigest (s.transcript x) init))

/-- Node ID of the fabric root. -/
def rootNode : Nat := 0

/-- A JOIN notice to the root for a partner not known to be numbered (R343); the root itself acts on it at once. -/
def State.sendJoin (s : State) (n : Nat) : State :=
  if s.links.nodeId.isSome ∧ (s.sl n).peerNode = 0xFFFF ∧ (s.sl n).role ≠ .boundary then
    let r := s.links.route rootNode
    if r < 18 then s.sendSeq r 0 (.joinNotice 0) else if s.links.nodeId = some 0 then s.joinNoticed else s
  else s

/-- The exchange completes (R416, R338): the link material is formed. A first exchange makes the port KEYED and resends
its replay buffer under the new keys; a rekey keeps the old key and toggles the phase. -/
def State.kxComplete (s : State) (n : Nat) (x : Kx) : State :=
  let ss := Config.kemSecret ((x.kemCt.map (·.1)).getD [])
  let key := Config.shake256 ("SILMAN-KX".toUTF8.toList.map (fun b => BitVec.ofNat 8 b.toNat) ++ ss
    ++ Config.shake256 (s.transcript x) 32) 72
  if x.rekey then
    (s.setSl n (fun p => { p with kx := none, oldKey := some (p.linkKey, none), linkKey := key, keyPhase := !p.keyPhase,
                                  keyEpoch := satSucc p.keyEpoch, underKey := 0, keyedAt := s.now })).drainTx n
  else
    let t := s.setSl n (fun p => { (p.reprotect false) with
      kx := none, state := .keyed, linkKey := key, oldKey := none, underKey := p.replayBuf.length, keyedAt := s.now,
      kxFailedAt := none, step5 := false, delayAt := none })
    let u := (t.sl n).replayBuf.foldl (fun (u : State) e => u.emitSeq n e) t
    (u.drainTx n).sendJoin n

/-- Complete once both FINISH messages have gone. -/
def State.kxSettle (s : State) (n : Nat) : State :=
  match (s.sl n).kx with
  | some x => if x.finSent && x.finGot then s.kxComplete n x else s
  | none => s

/-- A port that can run the exchange: in the device and UP_CLEAR or KEYED. -/
def State.kxAble (s : State) (n : Nat) : Bool :=
  s.hasSl n && (decide ((s.sl n).state = .upClear) || decide ((s.sl n).state = .keyed))

/-- A KEY flit reaches a port that carries none: it is discarded and counted (R328). -/
def State.keyArrives (s : State) (n : Nat) (act : State → State) : State :=
  if s.kxAble n then act s else if s.hasSl n then s.slDrop n else s

/-- HELLO arrives: it begins the exchange on this side too if none runs; the chain is checked; the initiator goes on with
KEM_KEY, for which a key is drawn (R410, R416). -/
def execKxHello (port : Fin 18) (random : List Byte) (chain : List Byte) (s : State) : Host.Outcome State Fault Refusal :=
  .next (s.keyArrives port (fun s =>
    let t := if (s.sl port).kx.isSome then s else s.startKx port (decide ((s.sl port).state = .keyed))
    match (t.sl port).kx with
    | none => t
    | some x =>
      if x.peerHello.isSome then t
      else if !Config.chainOk chain then
        (t.setKx port (fun y => { y with peerHello := some (random, chain) })).kxRefuse port .peerAttest
      else
        let u := t.setKx port (fun y => { y with peerHello := some (random, chain) })
        if !u.initiates chain then u
        else if !u.trust.entropyOk then u.kxRefuse port .entropy
        else
          let (k, v) := u.drawKey
          let ek := Config.kemKey k
          let rep := v.report noTdi random
          (v.setKx port (fun y => { y with kemKey := some (ek, rep) })).sendKey port 2 (ek ++ rep)))

/-- KEM_KEY arrives at the responder: the report is judged, the ciphertext and this side's report go out, then FINISH. -/
def execKxKemKey (port : Fin 18) (ek : List Byte) (report : List Byte) (s : State) : Host.Outcome State Fault Refusal :=
  .next (s.keyArrives port (fun s =>
    match (s.sl port).kx with
    | none => s
    | some x =>
      match x.peerHello with
      | none => s
      | some (random, chain) =>
        if s.initiates chain || x.kemKey.isSome then s
        else if !s.acceptsReport x report then s.kxRefuse port .peerAttest
        else if !s.trust.entropyOk then s.kxRefuse port .entropy
        else
          let (k, v) := s.drawKey
          let ct := Config.kemCt ek k
          let rep := v.report noTdi random
          ((v.setKx port (fun y => { y with kemKey := some (ek, report), kemCt := some (ct, rep) })).sendKey port 3
            (ct ++ rep)).sendFinish port))

/-- KEM_CT arrives at the initiator: the report is judged, then FINISH. -/
def execKxKemCt (port : Fin 18) (ct : List Byte) (report : List Byte) (s : State) : Host.Outcome State Fault Refusal :=
  .next (s.keyArrives port (fun s =>
    match (s.sl port).kx with
    | none => s
    | some x =>
      if x.kemKey.isNone || x.kemCt.isSome then s
      else if !s.acceptsReport x report then s.kxRefuse port .peerAttest
      else ((s.setKx port (fun y => { y with kemCt := some (ct, report) })).sendFinish port).kxSettle port))

/-- FINISH arrives: a signature that verifies accepts the partner; otherwise it is refused (R418). -/
def execKxFinish (port : Fin 18) (signature : List Byte) (s : State) : Host.Outcome State Fault Refusal :=
  .next (s.keyArrives port (fun s =>
    match (s.sl port).kx with
    | none => s
    | some x =>
      match x.peerHello with
      | none => s
      | some (_, chain) =>
        if x.kemCt.isNone || x.finGot then s
        else if !Config.verify chain (finishDigest (s.transcript x) (!s.initiates chain)) signature then
          s.kxRefuse port .peerAttest
        else (s.setKx port (fun y => { y with finGot := true })).kxSettle port))

/-- ABORT arrives: the partner has refused, and the exchange has failed, whatever its reason (R328, R417). -/
def execKxAbort (port : Fin 18) (_reason : BitVec 8) (s : State) : Host.Outcome State Fault Refusal :=
  .next (s.keyArrives port (fun s => if (s.sl port).kx.isSome then s.kxFail port else s))

/-- An exchange not complete 1 s after its first HELLO starts again from HELLO; as step 5 of training it restarts the
training (R417, Table 12-3). -/
def State.kxAgain (s : State) (n : Nat) (x : Kx) : State :=
  if (s.sl n).step5 then s.setSl n (fun p => { p with state := .training, trainStart := s.now, kx := none })
  else (s.setSl n (fun p => { p with kx := none })).startKx n x.rekey

/-- The 1 s of an exchange has passed (R417). -/
def execKeyExchangeTimeout (port : Fin 18) (s : State) : Host.Outcome State Fault Refusal :=
  .next (match (s.sl port).kx with
    | some x => if s.kxAble port && decide (x.started + ms 1000 ≤ s.now) then s.kxAgain port x else s
    | none => s)

/-- 10 s after a failed exchange a port in UP_CLEAR tries again (R328). -/
def execKeyExchangeRetry (port : Fin 18) (s : State) : Host.Outcome State Fault Refusal :=
  .next (match (s.sl port).kxFailedAt with
    | some t =>
      if s.hasSl port && decide ((s.sl port).state = .upClear) && (s.sl port).kx.isNone && decide (t + ms 10000 ≤ s.now) then
        (s.setSl port (fun p => { p with kxFailedAt := none })).startKx port false
      else s
    | none => s)

/-- A KEYED port runs a new exchange, before 2^40 flits under one key and at least every 24 h (R338). -/
def execRekey (port : Fin 18) (s : State) : Host.Outcome State Fault Refusal :=
  .next (if s.hasSl port && decide ((s.sl port).state = .keyed) && (s.sl port).kx.isNone then s.startKx port true else s)

/-- The old key goes 1 ms after the first flit of the new phase (R338). -/
def execOldKeyExpiry (port : Fin 18) (s : State) : Host.Outcome State Fault Refusal :=
  .next (match (s.sl port).oldKey with
    | some (_, some t) => if t + ms 1 ≤ s.now then s.setSl port (fun p => { p with oldKey := none }) else s
    | _ => s)

/-! ## Presence, training and lanes (R328 to R330, 17_module_electrical.md R469) -/

/-- A port drops lanes: GEO_LINK_LANES changes, and the copies that use the port are affected (01_seven_levels.md R37, R40). -/
def State.dropLanes (s : State) (n new : Nat) : State :=
  ({ s with
    geo := { s.geo with recLanes := if new = 0 then del s.geo.recLanes n else put s.geo.recLanes n new }
    links := { s.links with xfers := s.links.xfers.map (fun (x : Xfer) => if x.port.val = n then { x with degraded := true } else x) } }).geoChange 6 n

/-- The width of a port changes: LINK_EVENT and an event record, and where it drops, GEO_LINK_LANES (R330, 01_seven_levels.md R37;
lanes that return after READY change no record until the next pitch, notes/assumptions/57.md). Cause 1 a failing lane, 2 the plug,
3 a retrain (notes/assumptions/30.md). -/
def State.setLanes (s : State) (n new cause : Nat) : State :=
  let old := (s.sl n).lanes
  let t := s.setSl n (fun p => { p with lanes := new })
  (((if new < old then t.dropLanes n new else t).raise 39).postArgs 0x0301 n 1
    (n + 256 * old + 65536 * new + 2 ^ 24 * cause) 0 0)

/-- SL_PRES_N as read every 1 ms: a plug lets the port look for a partner; its loss takes a trained port DOWN, as the
failure of every lane (R469). -/
def execSilmanPresenceChange (port : Fin 18) (present : Bool) (s : State) : Host.Outcome State Fault Refusal :=
  .next (
    let t := s.setSl port (fun p => { p with present := present })
    if present then t
    else match (s.sl port).state with
      | .upClear => ((t.dropKeys port).setSl port (fun p => { p with state := .down, failedLanes := 0xF })).setLanes port 0 2
      | .keyed => ((t.dropKeys port).setSl port (fun p => { p with state := .down, failedLanes := 0xF })).setLanes port 0 2
      | .training => t.setSl port (fun p => { p with state := .down })
      | _ => t)

/-- A partner is detected on at least 2 lanes: training begins (R329). -/
def execPartnerDetect (port : Fin 18) (lanes : Nat) (s : State) : Host.Outcome State Fault Refusal :=
  .next (
    let p := s.sl port
    if s.hasSl port && s.lantern.stage8 && decide (p.state = .down) && p.present && decide (2 ≤ lanes) && decide (p.failedLanes ≠ 0xF) then
      s.setSl port (fun p => { p with state := .training, trainStart := s.now, peerPort := 0xFF, peerNode := 0xFFFF })
    else s)

/-- The lanes a port uses when the given ones are good: all four, else the pair 0–1 or 2–3, else none (R330). -/
def lanesFor (good : BitVec 4) : Nat :=
  if good = 0xF then 4 else if good &&& 0x3 = 0x3 ∨ good &&& 0xC = 0xC then 2 else 0

/-- Training completes: the width is chosen, the counters are 0 and the key exchange begins; without 2 usable lanes the
port is FAILED (R328, R329). -/
def execTrainingComplete (port : Fin 18) (goodLanes : BitVec 4) (peerPort : Option (Fin 18)) (s : State) :
    Host.Outcome State Fault Refusal :=
  .next (
    if !(s.hasSl port && decide ((s.sl port).state = .training)) then s
    else
      let w := lanesFor goodLanes
      let fresh (t : State) : State := if (s.sl port).lanes ≠ w ∧ s.ready then t.setLanes port w 3
        else t.setSl port (fun p => { p with lanes := w })
      if w = 0 then fresh (s.setSl port (fun p => { p with state := .failed, failedLanes := ~~~goodLanes }))
      else
        (fresh (s.setSl port (fun p =>
          { p with state := .upClear, failedLanes := ~~~goodLanes, txSeq := 0, txUnseq := 0, rxNext := 0, replayBuf := [], waiting := [],
                   owed := [], badWords := [],
                   credits := [(0, 16), (1, 128), (2, 128), (3, 64)], ackDue := false, keyPhase := false, linkKey := [],
                   oldKey := none, tagFailTimes := [], kx := none, kxFailedAt := none, step5 := true, delayAt := none,
                   peerPort := match peerPort with
                     | some q => BitVec.ofNat 8 q.val
                     | none => 0xFF }))).startKx port false)

/-- A step of training overruns its time: training starts again (Table 12-3). -/
def execTrainingOverrun (port : Fin 18) (s : State) : Host.Outcome State Fault Refusal :=
  .next (if s.hasSl port && decide ((s.sl port).state = .training) && decide ((s.sl port).trainStart + ms 150 ≤ s.now) then
    s.setSl port (fun p => { p with trainStart := s.now }) else s)

/-- A lane fails (R330): a keyed port goes to the pair without a failing lane, or to FAILED; during training, the key
exchange included, training starts again. A path-delay exchange follows the retrain (R349). -/
def State.slLaneFails (s : State) (port : Nat) (lane : Fin 4) : State :=
  let p := s.sl port
  let bad := p.failedLanes ||| (1 <<< lane.val)
  if !s.hasSl port then s
  else match p.state with
    | .training => s.setSl port (fun p => { p with trainStart := s.now })
    | .failed => s
    | .disabled => s
    | .down => s
    | st =>
      if !p.active lane.val then s
      else if p.step5 then (s.dropKeys port).setSl port (fun p => { p with state := .training, trainStart := s.now, step5 := false })
      else
        let w := if p.lanes = 4 then lanesFor (~~~bad) else 0
        let t := s.setSl port (fun p => { p with failedLanes := bad, delayAt := none, badWords := [] })
        if w = 0 then ((t.dropKeys port).setSl port (fun p => { p with state := .failed })).setLanes port 0 1
        else (t.setSl port (fun p => { p with state := st })).setLanes port w 1

/-- LANE_FAILING: a lane loses FEC lock, or too many of its codewords need 7 or 8 corrections (R330). -/
def execLaneFailing (port : Fin 18) (lane : Fin 4) (s : State) : Host.Outcome State Fault Refusal :=
  .next (s.slLaneFails port lane)

/-! ## Reception of a flit (R328, R331 to R337) -/

/-- What every accepted header does: the acknowledgement and the credits it returns are taken. -/
def State.takeHeader (s : State) (n : Nat) (h : FlitHdr) : State :=
  (s.setSl n (fun p => (p.release h.ack.toNat 65536).credit h.credVc.val h.credits.toNat)).drainTx n

/-- The key-phase rules on an accepted protected flit (R338): the first flit of the new phase starts the old key's last
millisecond. -/
def State.takePhase (s : State) (n : Nat) (h : FlitHdr) : State :=
  s.setSl n (fun p => match p.oldKey with
    | some (k, none) => if h.keyPhase = p.keyPhase then { p with oldKey := some (k, some s.now) } else p
    | _ => p)

/-- How a flit type is treated: carried in UP_CLEAR too, protected in KEYED, sequenced, carried by a boundary link, and discarded with
what its header returns (R332, R335). -/
structure FlitKind where
  clear : Bool
  prot : Bool
  seqd : Bool
  boundary : Bool
  unheeded : Bool := false

/-- IDLE. -/
def FlitKind.idle : FlitKind := { clear := true, prot := false, seqd := false, boundary := true }
/-- FC. -/
def FlitKind.fc : FlitKind := { clear := true, prot := true, seqd := false, boundary := true }
/-- ENUM; a TOKEN is answered on a boundary link too (notes/assumptions/32.md). -/
def FlitKind.enum (token : Bool) : FlitKind := { clear := false, prot := true, seqd := true, boundary := token }
/-- BEACON. -/
def FlitKind.beacon : FlitKind := { clear := false, prot := true, seqd := false, boundary := false }
/-- DELAY. -/
def FlitKind.delay : FlitKind := { clear := false, prot := true, seqd := false, boundary := true }
/-- DATA and MGMT. -/
def FlitKind.routed : FlitKind := { clear := false, prot := true, seqd := true, boundary := false }

/-- The port carries this flit type in its state (Table 12-2, R344). -/
def SlPort.carries (p : SlPort) (k : FlitKind) : Bool :=
  (decide (p.state = .keyed) || (decide (p.state = .upClear) && k.clear)) && (k.boundary || decide (p.role ≠ .boundary))

/-- Receive a flit on port `n` and act on it. A type not carried is discarded and counted; a check that fails is a lost
flit, in KEYED a tag failure; a sequenced flit is accepted only in order. -/
def State.rx (s : State) (n : Nat) (h : FlitHdr) (k : FlitKind) (act : State → State) : State :=
  let p := s.sl n
  if !s.hasSl n then s
  else if !p.carries k then s.slDrop n
  else if !h.check || (decide (p.state = .keyed) && k.prot && h.keyPhase != p.keyPhase && p.oldKey.isNone) then
    (if p.state = .keyed ∧ k.prot then s.tagFailed n else s.askReplay n)
  else
    let u := if p.state = .keyed ∧ k.prot then s.takePhase n h else s
    let t := if k.unheeded then u else u.takeHeader n h
    if !k.seqd then act t
    else
      let q := t.sl n
      if h.seq = q.next then
        act (t.setSl n (fun p => { p with rxNext := p.rxNext + 1, ackDue := true, owed := upd p.owed h.vc 0 (· + 1) }))
      else if (h.seq - q.next).toNat < 2 ^ 31 then t.askReplay n
      else t.setSl n (fun p => { p with ackDue := true })

/-- Receive a routed flit (R345): this node's own is acted on, another's is forwarded with one more hop; one of 63 hops or
without a route is dropped and counted. -/
def State.rxRouted (s : State) (n : Nat) (h : FlitHdr) (kind : BitVec 8) (msg : Option RemoteMsg) (bytes : List Byte)
    (act : State → State) : State :=
  s.rx n h .routed (fun t =>
    let r := t.links.route h.dst.toNat
    if r = 0x1E then act t
    else if r < 18 ∧ h.hops ≠ 63 then
      t.sendSeq r h.vc (.forwarded h.vc (h.hops + 1) h.src h.dst kind msg bytes)
    else t.slDrop n)

/-- An IDLE flit is consumed. -/
def execFlitIdle (port : Fin 18) (hdr : FlitHdr) (s : State) : Host.Outcome State Fault Refusal :=
  .next (s.rx port hdr .idle id)

/-- FC ACKNOWLEDGE: the flits before FC_NEXT leave the buffer and the credits are taken (R335). -/
def execFcAcknowledge (port : Fin 18) (hdr : FlitHdr) (next : BitVec 32) (credits : Credits) (s : State) :
    Host.Outcome State Fault Refusal :=
  .next (s.rx port hdr .fc (fun t =>
    (t.setSl port (fun p => (p.release next.toNat (2 ^ 32)).credit4 credits)).drainTx port))

/-- FC REPLAY_REQUEST: as an acknowledgement, and every flit from FC_NEXT on is resent (R335). -/
def execFcReplayRequest (port : Fin 18) (hdr : FlitHdr) (next : BitVec 32) (credits : Credits) (s : State) :
    Host.Outcome State Fault Refusal :=
  .next (s.rx port hdr .fc (fun t =>
    ((t.setSl port (fun p => (p.release next.toNat (2 ^ 32)).credit4 credits)).replay port).drainTx port))

/-- The receiver acknowledges what it has accepted and returns its credits, at least every 256 ns (R334). -/
def execFcAckTimer (port : Fin 18) (s : State) : Host.Outcome State Fault Refusal :=
  .next (if s.kxAble port && ((s.sl port).ackDue || !(s.sl port).owed.isEmpty) then s.sendAck port else s)

/-- An uncorrectable codeword on an active lane counts as a lost flit: counted, and a replay request goes out (R327,
R334). The 17th within 1 ms makes the lane a failing one (R330). -/
def execUncorrectableCodeword (port : Fin 18) (lane : Fin 4) (s : State) : Host.Outcome State Fault Refusal :=
  .next (if s.kxAble port && (s.sl port).active lane.val then
    let l := s.now :: (look (s.sl port).badWords lane.val []).filter (fun t => decide (s.now < t + ms 1))
    let t := (s.setSl port (fun p => { p with fecUncorr := satSucc p.fecUncorr, badWords := put p.badWords lane.val l })).askReplay port
    if 16 < l.length then t.slLaneFails port lane else t
  else s)

/-- The type and kind are reserved (Table 12-5, R335, R341, R350, Table 15-2a). -/
def reservedFlit (ty kind : Nat) : Bool :=
  decide (8 ≤ ty) || (decide (ty = 3) && (decide (kind = 0) || decide (2 < kind)))
    || (decide (ty = 4) && (decide (kind = 0) || decide (5 < kind)))
    || (decide (ty = 6) && (decide (kind = 0) || decide (2 < kind)))
    || (decide (ty = 7) && (decide (kind = 0) || decide (5 < kind)))

/-- A flit of a reserved type, or an FC, ENUM or DELAY flit of a reserved kind, is discarded and counted; a reserved KEY
kind abandons the exchange (R332, R335, R341, R350, R417). -/
def execReservedFlitType (port : Fin 18) (hdr : FlitHdr) (flitType : BitVec 4) (kind : BitVec 8) (s : State) :
    Host.Outcome State Fault Refusal :=
  .next (if !reservedFlit flitType.toNat kind.toNat then s
    else if flitType = 7 then
      s.keyArrives port (fun s => match (s.sl port).kx with
        | some x => s.kxAgain port x
        | none => s)
    else
      let k : FlitKind := match flitType.toNat with
        | 4 => .enum false
        | 6 => { FlitKind.delay with unheeded := true }
        | _ => { FlitKind.fc with unheeded := true }
      s.rx port hdr k (fun t => t.slDrop port))

/-! ## Commands on the ports (Table 12-8) -/

/-- A port named to a command is not in the device (R367). -/
def State.noSl (s : State) (n : Nat) : Bool := !(decide (n < 18) && s.hasSl n)

/-- Enable or disable a port: an enabled port that was DISABLED looks for a partner, a disabled one carries nothing
(R328, R367). -/
def State.enableSl (s : State) (n : Nat) (en : Bool) : State :=
  if !s.hasSl n then s
  else if en then (if (s.sl n).state = .disabled then s.setSl n (fun p => { p with state := .down }) else s)
  else if (s.sl n).state = .disabled then s
  else
    let t := (s.dropKeys n).setSl n (fun p => { p with state := .disabled, step5 := false })
    if (s.sl n).lanes ≠ 0 ∧ s.ready then t.setLanes n 0 3 else t.setSl n (fun p => { p with lanes := 0 })

/-- LINK_CONFIG persists; the port enables take effect at once, the root role at the next LINK_ENUMERATE (R367). -/
def execLinkConfig (ctrl : Fin 4) (slot : Fin 1024) (s : State) : Host.Outcome State Fault Refusal :=
  .next (s.serve 0x0300 ctrl slot (fun a t =>
    let en := field a.b 24 4
    let peer := field a.b 30 2
    a.checked t
      [(decide (2 ^ 18 ≤ en), .rejectFormat, 24), (decide (4096 ≤ peer) && decide (peer ≠ 0xFFFF), .rejectFormat, 30),
       (decide (1 < field a.b 32 1), .rejectFormat, 32), (decide (1 < field a.b 33 1), .rejectFormat, 33),
       ((List.range 18).any (fun n => bit en n && !t.hasSl n), .rejectLimit, 24)]
      (fun t =>
        let u := t.setSettings (fun x =>
          { x with lkPortEn := BitVec.ofNat 18 en, lkDomain := BitVec.ofNat 16 (field a.b 28 2),
                   lkPeerNode := BitVec.ofNat 16 peer, lkFabricRoot := decide (field a.b 32 1 = 1),
                   lkAutoJoin := decide (field a.b 33 1 = 1) })
        a.done ((List.range 18).foldl (fun (v : State) n => v.enableSl n (bit en n)) u))))

/-- LINK_RETRAIN: the port trains again at 4 lanes and its failed lanes are tested again (Table 12-8). -/
def execLinkRetrain (ctrl : Fin 4) (slot : Fin 1024) (s : State) : Host.Outcome State Fault Refusal :=
  .next (s.serve 0x0303 ctrl slot (fun a t =>
    let n := field a.b 24 1
    a.checked t [(decide (17 < n), .rejectFormat, 24), (t.noSl n, .rejectLimit, 24)]
      (fun t =>
        let go : Bool := match (t.sl n).state with
          | .upClear => true
          | .keyed => true
          | .failed => true
          | .training => true
          | _ => false
        let u := t.dropKeys n
        a.done (u.setSl n (fun p =>
          { p with failedLanes := 0, step5 := false, kxFailedAt := none,
                   peerPort := if go then 0xFF else p.peerPort, peerNode := if go then 0xFFFF else p.peerNode,
                   trainStart := t.now, state := if go then (if p.present then .training else .down) else p.state })))))

/-- LINK_ROUTE_SET overrides one route until the next commit or pitch (R345). -/
def execLinkRouteSet (ctrl : Fin 4) (slot : Fin 1024) (s : State) : Host.Outcome State Fault Refusal :=
  .next (s.serve 0x0302 ctrl slot (fun a t =>
    let id := field a.b 24 2
    let r := field a.b 26 1
    a.checked t
      [(decide (4095 < id), .rejectFormat, 24),
       (decide (17 < r) && decide (r ≠ 0x1E) && decide (r ≠ 0x1F), .rejectFormat, 26),
       (decide (r < 18) && t.noSl r, .rejectLimit, 26)]
      (fun t => a.done (t.setLinks (fun l => { l with overrides := put l.overrides id r })))))

end Sys2Proof.Machine
end

