-- ==== Sys2Proof/Machine/Enum.lean ====
section
/-! DEFINITION. Node IDs: LINK_ENUMERATE, answers, commit, JOIN notices, and the path-delay exchange (12_silman_and_seam.md R340 to
R343, R349, R350). -/

namespace Sys2Proof.Machine

open Sys2Proof

/-! ## LINK_ENUMERATE and the answers to a token -/

/-- LINK_ENUMERATE (R340, R342): rejected unless LK_FABRIC_ROOT is set, or while a pass runs. -/
def execLinkEnumerate (ctrl : Fin 4) (slot : Fin 1024) (s : State) : Host.Outcome State Fault Refusal :=
  .next (s.serve 0x0301 ctrl slot (fun a t => a.checked t
    [(decide (1 < field a.b 24 1), .rejectFormat, 24), (!t.settings.lkFabricRoot, .rejectState, noField),
     (t.links.job.isSome || t.links.enumTag.isSome, .rejectState, noField)]
    (fun t => t.startPass (decide (field a.b 24 1 = 1)) (some a.tag))))

/-- The job of a TOKEN that arrives on a port. -/
def tokenJob (port : Fin 18) (now : Nat) (m : EnumMsg) : TokenJob :=
  { domain := m.domain, epoch := m.epoch, next := m.next.toNat, upstream := some port, from' := 0, awaiting := none, first := 0,
    sentAt := now, fault := none }

/-- TOKEN: a node of another domain replies BOUNDARY, a node already numbered in the epoch CROSS unless the port is its
upstream one; any other node takes an ID and passes the token on (R340). -/
def execEnumToken (port : Fin 18) (hdr : FlitHdr) (msg : EnumMsg) (s : State) : Host.Outcome State Fault Refusal :=
  .next (s.rx port hdr (.enum true) (fun t =>
    if t.links.elsewhere msg.domain then
      (t.setSl port (fun p => { p with role := .boundary, peerNode := msg.node })).sendEnum port 4 false t.links.domain msg.epoch
        msg.next.toNat t.links.ownNumber
    else
      match t.links.idIn msg.epoch with
      | some id =>
        if t.links.upIn msg.epoch = some port.val then
          (t.setSl port (fun p => { p with peerNode := msg.node })).handleToken (tokenJob port t.now msg)
        else
          (t.setSl port (fun p => { p with role := .cross, peerNode := msg.node })).sendEnum port 3 false msg.domain msg.epoch
            msg.next.toNat id.toNat
      | none =>
        let u := t.setLinks (fun l => { l with hops := msg.hops.toNat + 1 })
        let v := u.handleToken (tokenJob port t.now msg)
        v.setSl port (fun p => { p with peerNode := msg.node, role := if v.links.overflow then p.role else .upstream })))

/-- The token of this node awaits an answer on a port. -/
def State.awaits (s : State) (n : Fin 18) : Option TokenJob := s.links.job.filter (fun j => decide (j.awaiting = some n))

/-- A subtree's IDs are routed to its port (R340). -/
def routeIds (r : SMap Nat) (port first : Nat) : Nat → SMap Nat
  | 0 => r
  | k + 1 => routeIds (put r first port) port (first + 1) k

/-- RETURN: the subtree's IDs are routed to the port and the token goes on; an abort ends the loop (R340). -/
def execEnumReturn (port : Fin 18) (hdr : FlitHdr) (msg : EnumMsg) (s : State) : Host.Outcome State Fault Refusal :=
  .next (s.rx port hdr (.enum false) (fun t =>
    match t.awaits port with
    | none => t
    | some j =>
      if msg.abort then t.finishToken { j with fault := some msg.node }
      else
        let k := msg.next.toNat - j.first
        ((t.setSl port (fun p => { p with peerNode := msg.node,
                                          role := if 0 < k ∨ p.role = .downstream then .downstream else p.role })).setLinks
          (fun l => { l with pendingRoutes := routeIds l.pendingRoutes port j.first k })).passToken
          { j with next := msg.next.toNat, awaiting := none }))

/-- CROSS: the port is marked a cross link and the token goes on. -/
def execEnumCross (port : Fin 18) (hdr : FlitHdr) (msg : EnumMsg) (s : State) : Host.Outcome State Fault Refusal :=
  .next (s.rx port hdr (.enum false) (fun t =>
    match t.awaits port with
    | none => t
    | some j => (t.setSl port (fun p => { p with role := .cross, peerNode := msg.node })).passToken { j with awaiting := none }))

/-- BOUNDARY: the port is marked a domain boundary and the token goes on. -/
def execEnumBoundary (port : Fin 18) (hdr : FlitHdr) (msg : EnumMsg) (s : State) : Host.Outcome State Fault Refusal :=
  .next (s.rx port hdr (.enum false) (fun t =>
    match t.awaits port with
    | none => t
    | some j => (t.setSl port (fun p => { p with role := .boundary, peerNode := msg.node })).passToken { j with awaiting := none }))

/-- No answer on a port within 100 ms aborts the pass (R340); the node at fault is this one. -/
def execEnumTimeout (port : Fin 18) (s : State) : Host.Outcome State Fault Refusal :=
  .next (match s.awaits port with
    | none => s
    | some j => if j.sentAt + ms 100 ≤ s.now then s.finishToken { j with fault := some (BitVec.ofNat 16 s.links.ownNumber) } else s)

/-! ## Commit (R342) -/

/-- COMMIT: forwarded downstream; what is pending in its epoch takes effect 1 ms later. -/
def execEnumCommit (port : Fin 18) (hdr : FlitHdr) (msg : EnumMsg) (s : State) : Host.Outcome State Fault Refusal :=
  .next (s.rx port hdr (.enum false) (fun t =>
    let u := (List.range 18).foldl (fun (v : State) n =>
      if (v.sl n).role = .downstream then v.sendEnum n 5 false msg.domain msg.epoch msg.next.toNat 0 else v) t
    if t.links.pendingId.any (fun x => decide (x.2.1 = msg.epoch)) && t.links.commitAt.isNone then
      u.setLinks (fun l => { l with commitAt := some (t.now, msg.epoch) })
    else u))

/-- End every transfer in flight LINK_DOWN, with its egress port and node (R342, R353). -/
def State.dropXfers (s : State) : State :=
  s.links.xfers.foldl (fun (t : State) x =>
    t.endCmd x.tag { status := .linkDown, detail := BitVec.ofNat 32 x.port.val, result := x.node.setWidth 64 })
    (s.setLinks (fun l => { l with xfers := [] }))

/-- The pending ID and routes come into use at the first ration-period boundary at least 1 ms after COMMIT; a node whose
ID changes ends its transfers (R342). -/
def execCommitTakeEffect (s : State) : Host.Outcome State Fault Refusal :=
  .next (match s.links.commitAt, s.links.pendingId with
    | some (t, e), some (id, e', _) =>
      if s.atBoundary && decide (t + ms 1 ≤ s.now) && decide (e = e') then
        let u := s.setLinks (fun l =>
          { l with nodeId := some id, domain := l.pendingDomain, epoch := e, pendingId := none, commitAt := none, overrides := [],
                   routes := put l.pendingRoutes id.toNat 0x1E, pendingRoutes := [], defaultRoute := l.pendingUp.getD 0x1F,
                   upstream := l.pendingUp.map slPort, pendingUp := none })
        (if s.links.nodeId = some id then u else u.dropXfers).joinAgain
      else s
    | _, _ => s)

/-- The root repeats the flood every 100 ms for 1 s. -/
def execCommitFloodRepeat (s : State) : Host.Outcome State Fault Refusal :=
  .next (match s.links.flood with
    | some (first, last) =>
      if last + ms 100 ≤ s.now then
        if s.now ≤ first + ms 1000 then (s.setLinks (fun l => { l with flood := some (first, s.now) })).floodCommit
        else s.setLinks (fun l => { l with flood := none })
      else s
    | none => s)

/-- LINK_ENUMERATE completes DONE 1 ms after the first flood, with the number of nodes of the domain (R342). -/
def execLinkEnumerateComplete (s : State) : Host.Outcome State Fault Refusal :=
  .next (match s.links.enumTag, s.links.flood with
    | some tag, some (first, _) =>
      if first + ms 1 ≤ s.now then
        (s.setLinks (fun l => { l with enumTag := none })).endCmd tag { status := .done, result := BitVec.ofNat 64 s.links.nextFree }
      else s
    | _, _ => s)

/-- What is pending and not committed within 1 s lapses (R342). -/
def execPendingIdLapse (s : State) : Host.Outcome State Fault Refusal :=
  .next (match s.links.pendingId with
    | some (_, _, t) =>
      if s.links.commitAt.isNone && decide (t + ms 1000 ≤ s.now) then
        (s.setLinks (fun l => { l with pendingId := none, pendingRoutes := [], pendingUp := none })).joinAgain
      else s
    | none => s)

/-- A JOIN notice at the root starts an incremental pass when LK_AUTO_JOIN is set (R343); elsewhere it is routed on. -/
def execEnumJoin (port : Fin 18) (hdr : FlitHdr) (s : State) : Host.Outcome State Fault Refusal :=
  .next (s.rxRouted port hdr 4 none [] (fun t =>
    if t.links.nodeId = some 0 then t.joinNoticed else t.slDrop port))

/-! ## The path-delay exchange (R349, R350) -/

/-- This side has the lower node ID of the link, or one of the two is not known (notes/assumptions/32.md). -/
def State.asksDelay (s : State) (n : Nat) : Bool :=
  match s.links.nodeId with
  | some i => decide ((s.sl n).peerNode = 0xFFFF) || decide (i.toNat < (s.sl n).peerNode.toNat)
  | none => true

/-- Every 100 ms, and at once after a retrain, the side with the lower node ID sends DELAY_REQ. -/
def execDelayExchangeStart (port : Fin 18) (t1 : BitVec 64) (s : State) : Host.Outcome State Fault Refusal :=
  .next (
    let p := s.sl port
    if s.hasSl port && decide (p.state = .keyed) && s.asksDelay port && p.delayAt.all (fun t => decide (t + ms 100 ≤ s.now)) then
      (s.setSl port (fun p => { p with delayId := p.delayId + 1, delayT1 := some t1, delayAt := some s.now })).sendUnseq port
        (.delayReq (p.delayId + 1) t1)
    else s)

/-- DELAY_REQ is answered with its arrival and the reply's departure times. -/
def execDelayReq (port : Fin 18) (hdr : FlitHdr) (msg : DelayMsg) (t2 t3 : BitVec 64) (s : State) : Host.Outcome State Fault Refusal :=
  .next (s.rx port hdr .delay (fun t => t.sendUnseq port (.delayResp msg.id msg.t1 t2 t3)))

/-- The path delay of an exchange in 1/16 ns (R349), kept in the 16 bits of LP_DELAY_NS. -/
def pathDelay (t1 t2 t3 t4 : BitVec 64) : BitVec 16 :=
  let d : Int := (toInt 64 (t4 - t1).toNat - toInt 64 (t3 - t2).toNat) / 2
  BitVec.ofNat 16 (min 65535 d.toNat)

/-- DELAY_RESP yields the path delay; one whose number is not that of the last request is discarded. -/
def execDelayResp (port : Fin 18) (hdr : FlitHdr) (msg : DelayMsg) (t4 : BitVec 64) (s : State) : Host.Outcome State Fault Refusal :=
  .next (s.rx port hdr .delay (fun t =>
    match (t.sl port).delayT1 with
    | some t1 =>
      if msg.id = (t.sl port).delayId then
        t.setSl port (fun p => { p with delayT1 := none, delay := pathDelay t1 msg.t2 msg.t3 t4 })
      else t
    | none => t))

end Sys2Proof.Machine
end

