-- ==== Sys2Proof/Machine/Points.lean ====
section
/-! DEFINITION. Points of the heat path and where a pair stands (01_seven_levels.md R30, 11_heat_path.md). -/

namespace Sys2Proof.Machine

open Sys2Proof

/-- Sites of a tower's tiers: eight rows of nine. -/
def siteCount : Nat := 72

/-- A point's number. Layers are those of Table 11-4: 0 the base region, 1 to 8 the DRAM tiers M0 to M7, 9 the compute
tier. -/
def pointOf (tower layer site : Nat) : Nat := (tower * 10 + layer) * siteCount + site

/-- Tower, layer and site of a point. -/
def pointParts (p : Nat) : Nat × Nat × Nat := (p / siteCount / 10, p / siteCount % 10, p % siteCount)

/-- The physical site of a logical pair. -/
def State.siteOf (s : State) (pair : Nat) : Nat := look s.geo.sites pair (pair % 64)

/-- The DRAM point of a bank: bank b lies in tier M(b mod 8) (07_vaults_and_protection.md R173). -/
def State.bankPoint (s : State) (pair bank : Nat) : Nat := pointOf (pair / 64) (bank % 8 + 1) (s.siteOf pair)

/-- A site of a layer carries sensors (11_heat_path.md Table 11-4). -/
def hasSensors (layer site : Nat) : Bool :=
  if layer = 9 then true
  else decide (site / 9 % 2 = 1) && (if layer = 0 then decide (site % 9 % 4 = 0) else decide (site % 9 % 2 = 1))

/-- The up to four sites one row or one column away. -/
def adjacentSites (site : Nat) : List Nat :=
  (if 9 ≤ site then [site - 9] else []) ++ (if 0 < site % 9 then [site - 1] else [])
    ++ (if site % 9 < 8 then [site + 1] else []) ++ (if site + 9 < siteCount then [site + 9] else [])

/-- A sensor: A of point p is number 2 p, B is 2 p + 1. -/
def State.sensor (s : State) (i : Nat) : Sensor := look s.thermal.sensors i {}

/-- A sensor is demoted, by itself or by the owner (R297, R299). -/
def State.demoted (s : State) (i : Nat) : Bool := (s.sensor i).autoDemoted || s.settings.demoted.contains i

/-- The reading of a sensor that is not demoted, in 1/16 °C. -/
def State.plausible (s : State) (i : Nat) : Option Int := if s.demoted i then none else (s.sensor i).reading

/-- The greater of two readings that may be absent. -/
def maxOpt (a b : Option Int) : Option Int :=
  match a, b with
  | some x, some y => if x ≤ y then some y else some x
  | some x, none => some x
  | none, y => y

/-- The higher plausible reading of a point's sensors (R296, R298). -/
def State.siteReading (s : State) (point : Nat) : Option Int := maxOpt (s.plausible (2 * point)) (s.plausible (2 * point + 1))

/-- Degrees of sixteenths. -/
def deg (x : Int) : Rat := (x : Rat) / 16

/-- The estimate of a point: the estimator's for a DRAM point; for the compute tier and the base region the highest plausible
reading at an adjacent sensing site plus 3 K (R302, R303). -/
def State.estimate (s : State) (point : Nat) : Option Rat :=
  let (t, l, x) := pointParts point
  if l = 0 ∨ l = 9 then
    ((adjacentSites x).foldl (fun (b : Option Int) y => maxOpt b (s.siteReading (pointOf t l y))) none).map (fun r => deg r + 3)
  else look? s.thermal.estimates point

/-- The temperature of a point, and whether the estimate decided it: the greatest of its plausible readings and its
estimate (R296). -/
def State.pointTemp (s : State) (point : Nat) : Option (Rat × Bool) :=
  match s.siteReading point, s.estimate point with
  | some r, some e => if deg r < e then some (e, true) else some (deg r, false)
  | some r, none => some (deg r, false)
  | none, some e => some (e, true)
  | none, none => none

/-- The level of a point. -/
def State.levelOf (s : State) (point : Nat) : Level := look s.thermal.levels point .normal

/-- Some DRAM point of a vault stands at throttle (11_heat_path.md R307). -/
def State.vaultThrottled (s : State) (pair : Nat) : Bool :=
  (List.range 8).any (fun l => decide (2 ≤ (s.levelOf (pointOf (pair / 64) (l + 1) (s.siteOf pair))).code))

/-- The pause step of a pair, in eighths: its own, 50 % while its tower is blind, or the power governor's where that is
larger (R300, R308, 10_rack_time_rations.md R292). -/
def State.pauseStep (s : State) (pair : Nat) : Nat :=
  max (max (look s.thermal.pauses (2 * pair) 0) (if s.thermal.blind.contains (pair / 64) then 4 else 0)) s.power.pause

/-- Bank-sequence share in force in ns: RATION_BS after the canary halving and the withholding of R169
(10_rack_time_rations.md R283). -/
def State.bsShare (s : State) (pair : Nat) : Nat :=
  let b := (s.profileFor pair).bs.toNat
  (if (s.vault pair).halved then b / 2 else b) * (8 - s.pauseStep pair) / 8

/-- Refresh multiple of a vault: doubled for temperature, doubled again after a canary failure (R282, R306, R197). -/
def State.refreshMultiple (s : State) (pair : Nat) : Nat :=
  (if (s.vault pair).refreshX2 then 2 else 1) * (if (s.vault pair).halved then 2 else 1)

/-- The refresh slot used: the larger of RATION_REFRESH and the multiple's floor (R282). -/
def State.refreshLen (s : State) (pair : Nat) : Nat :=
  max (s.profileFor pair).refresh.toNat (match s.refreshMultiple pair with
    | 1 => 128
    | 2 => 192
    | _ => 320)

/-- Time within the ration period, or within the transition period of a step (10_rack_time_rations.md R277). -/
def State.inPeriod (s : State) : Nat :=
  match s.time.nextBoundary with
  | some (a, _) => s.rtNow - a.toNat
  | none => s.rtNow % periodNs

/-- Where the refresh slot of a pair begins: at its offset, or in a transition period that does not reach that far at the
transition's start (R277, R282). -/
def State.refreshAt (s : State) (pair : Nat) : Nat :=
  let o := (s.profileFor pair).refOffset.toNat
  match s.time.nextBoundary with
  | some (a, b) => if o < b.toNat - a.toNat then o else 0
  | none => o

/-! ## The pace of the scrub patrol (07_vaults_and_protection.md R195, 10_rack_time_rations.md R281) -/

/-- Code words of a vault. -/
def vaultWords : Nat := vaultBytes / 32

/-- Length of a scrub pass. -/
def State.passNs (s : State) : Nat := s.settings.scrubHours * 3600 * 1000000000

/-- When the running pass of a vault began. -/
def State.passStart (s : State) (pair : Nat) : Nat := max (s.vault pair).passStart s.mem.scrubFrom

/-- The patrol is behind the pace that ends its pass within the interval. -/
def State.scrubBehind (s : State) (pair : Nat) : Bool :=
  let v := s.vault pair
  decide (s.passStart pair ≤ s.now) && decide (v.scrubAt * s.passNs ≤ (s.now - s.passStart pair) * vaultWords)

/-- The scrub slot is in use in this period (10_rack_time_rations.md R281). -/
def State.scrubUsed (s : State) (pair : Nat) : Bool := decide ((s.profileFor pair).scrub ≠ 0) && s.scrubBehind pair

/-- Time until the next refresh or scrub slot of this period begins; none when none is to come (06_bank_processing.md R164). -/
def State.slotIn (s : State) (pair : Nat) : Option Nat :=
  let starts := s.refreshAt pair :: (if s.scrubUsed pair then [(s.profileFor pair).scrubOffset.toNat] else [])
  ((starts.filter (fun x => decide (s.inPeriod ≤ x) && !s.inVaultSlot pair)).map (fun x => x - s.inPeriod)).foldl
    (fun (m : Option Nat) x => some (min x (m.getD x))) none

/-! ## Sequences on the banks (06_bank_processing.md) -/

/-- The vault's merge buffer and slice lines are written out before a sequence (R147 steps 2 and 3, 01_seven_levels.md R27). -/
def State.toArray (s : State) (pair : Nat) : State := (s.flushMerge pair).flushSlice pair

/-- Charge energy of a bank unit, in pJ, to the bank's account of the period and to its cluster, which the estimator reads
(R169, 11_heat_path.md R301, R302). -/
def State.charge (s : State) (pair b : Nat) (pj : Rat) : State :=
  State.setVault { s with thermal := { s.thermal with energy := upd s.thermal.energy (s.bankPoint pair b) 0 (fun e => e + pj) } }
    pair (fun v => { v with energy := upd v.energy b 0 (fun e => e + pj) })

end Sys2Proof.Machine
end

