-- ==== Sys2Proof/Machine/Remote.lean ====
section
/-! DEFINITION. Remote memory, the peer's management frames and the link status (12_silman_and_seam.md R351 to R354, R367,
R368). -/

namespace Sys2Proof.Machine

open Sys2Proof

/-! ## Grants (R351) -/

/-- LINK_GRANT: rights over a range, from the next ration-period boundary; rights of 0 revoke. -/
def execLinkGrant (ctrl : Fin 4) (slot : Fin 1024) (s : State) : Host.Outcome State Fault Refusal :=
  .next (s.serve 0x0304 ctrl slot (fun a t =>
    let i := field a.b 24 1
    let r := field a.b 25 1
    let node := field a.b 26 2
    let base := field a.b 32 8
    let size := field a.b 40 8
    let set := decide (r ≠ 0)
    let sized := set && decide (0 < size)
    a.checked t
      [(decide (15 < i), .rejectFormat, 24), (decide (3 < r), .rejectFormat, 25),
       (decide (4095 < node) && decide (node ≠ 0xFFFF), .rejectFormat, 26),
       (set && (decide (base % 4096 ≠ 0) || (sized && (decide (farBase < base + size) || !t.reachableRange base size))),
         .rejectFormat, 32),
       (set && decide (size % 4096 ≠ 0), .rejectFormat, 40),
       (sized && t.rangeInPool base size, .rejectState, 32)]
      (fun t =>
        if set && decide (size = 0) then a.finish t { status := .doneEmpty }
        else if sized && t.sealedAgainst 4 0 base size then a.finish t (refused .sealedRange)
        else a.defer t (.grant i (BitVec.ofNat 8 r) (BitVec.ofNat 16 node) base size))))

/-- A grant gives a node the right (bit 0 read, bit 1 write) over a range. -/
def Grant.allows (g : Grant) (node right a n : Nat) : Bool :=
  bit g.rights.toNat right && (decide (g.node = 0xFFFF) || decide (g.node.toNat = node)) && decide (g.base ≤ a)
    && decide (a + n ≤ g.base + g.size)

/-- Some grant of the device does. -/
def State.granted (s : State) (node right a n : Nat) : Bool :=
  (List.range 16).any (fun i => (look s.links.grants i {}).allows node right a n)

/-! ## Messages (R352) -/

/-- A message. -/
def mkMsg (cls : Nat) (xfer : BitVec 16) (reason len off addr : Nat) (data : List Byte) : RemoteMsg :=
  { cls := BitVec.ofNat 8 cls, xfer := xfer, reason := BitVec.ofNat 8 reason, len := BitVec.ofNat 16 len,
    offset := BitVec.ofNat 64 off, addr := BitVec.ofNat 64 addr, data := data }

/-- The virtual channel of a request: VC3 for class 2, else VC1. -/
def requestVc (cls : Nat) : Fin 4 := if cls = 2 then 3 else 1

/-- Who makes a remote access: no core, of the message's class. -/
def remoteWho (cls : Nat) : Who := { pair := none, cls := cls }

/-- The reason code and the address at fault of an access that stopped (R353). -/
def refuseReason (e : Ending) (addr : Nat) : Nat × Nat :=
  match e.status with
  | .memoryUncorrectable => (2, e.result.toNat)
  | .pageRetired => (3, e.result.toNat)
  | .vaultLost => (5, addr)
  | .securityRefused => (2, addr)
  | _ => (4, addr)

/-- What the target does with a request (R352): the grant, the sealed ranges, then the access; the reply's kind and
message. No grant covers the rows of a pool, even one set before the pool (R351, 05_attention_kv_cache.md R117,
notes/assumptions/57.md). -/
def State.serveRemote (s : State) (src : Nat) (write : Bool) (m : RemoteMsg) : State × Nat × RemoteMsg :=
  let a := m.addr.toNat
  let n := m.len.toNat
  let no (t : State) (r addr : Nat) : State × Nat × RemoteMsg := (t, 5, mkMsg m.cls.toNat m.xfer r n m.offset.toNat addr [])
  if !s.granted src (if write then 1 else 0) a n || s.rangeInPool a n then no s 1 a
  else if s.sealedAgainst 4 0 a n then no s 6 a
  else if write then
    let io := s.store (remoteWho m.cls.toNat) a (padTo m.data n)
    match io.stop with
    | some e => no io.s (refuseReason e a).1 (refuseReason e a).2
    | none => (io.s, 4, mkMsg m.cls.toNat m.xfer 0 n m.offset.toNat a [])
  else
    let (bs, io) := s.load (remoteWho m.cls.toNat) a n
    match io.stop with
    | some e => no io.s (refuseReason e a).1 (refuseReason e a).2
    | none => (io.s, 3, mkMsg m.cls.toNat m.xfer 0 n m.offset.toNat a bs)

/-- Send a message of a kind toward a node on a channel. -/
def State.sendData (s : State) (node : Nat) (vc : Fin 4) (kind : Nat) (m : RemoteMsg) : State :=
  let r := s.links.route node
  if r < 18 then s.sendSeq r vc (.data (BitVec.ofNat 8 kind) (BitVec.ofNat 12 node) m) else s

/-! ## The transfer at its requester (R352, R353) -/

/-- The transfers changed. -/
def State.setXfers (s : State) (f : List Xfer → List Xfer) : State := s.setLinks (fun l => { l with xfers := f l.xfers })

/-- The transfer with a number. -/
def State.xfer (s : State) (num : BitVec 16) : Option Xfer := s.links.xfers.find? (fun x => x.num = num)

/-- End a transfer and its command. -/
def State.endXfer (s : State) (x : Xfer) (e : Ending) : State :=
  (s.setXfers (fun l => l.filter (fun y => y.num ≠ x.num))).endCmd x.tag e

/-- A transfer has written into a far-tier block whose initialisation is not acknowledged (13_host_far_ports.md R387). -/
def State.xferInit (s : State) (x : Xfer) : Bool := s.far.initialising.any (fun e => e.2.1 = x.tag)

/-- Progress of a transfer; with its last byte in effect the command ends DONE, or DONE_DEGRADED (R353, R40). -/
def State.progress (s : State) (x : Xfer) (n : Nat) (deg : Bool) : State :=
  let y := { x with doneBytes := x.doneBytes + n, lastProgress := s.now, degraded := x.degraded || deg }
  if y.len ≤ y.doneBytes && !s.xferInit y then s.endXfer y { status := if y.degraded then .doneDegraded else .done }
  else s.setXfers (fun l => l.map (fun z => if z.num = x.num then y else z))

/-- LINK_DOWN of a transfer: its egress port and its node (R353). -/
def Xfer.down (x : Xfer) : Ending :=
  { status := .linkDown, detail := BitVec.ofNat 32 x.port.val, result := x.node.setWidth 64 }

/-- The status a REFUSE gives (R353). -/
def Xfer.refused (x : Xfer) (m : RemoteMsg) : Ending :=
  match m.reason.toNat with
  | 1 => Machine.refused .grantMissing
  | 2 => { status := .memoryUncorrectable, result := m.addr }
  | 3 => { status := .pageRetired, result := m.addr }
  | 4 => { status := .rejectLimit, detail := faultAt .slot 40 }
  | 5 => { status := .vaultLost, detail := BitVec.ofNat 32 (m.addr.toNat / 2 ^ 31 % 1024), result := m.addr }
  | 6 => Machine.refused .sealedRange
  | _ => x.down

/-- A reply reaches its transfer: kind 3 READ_DATA, 4 WRITE_ACK, 5 REFUSE. One that fits no transfer of this node is
without effect. -/
def State.takeReply (s : State) (src kind : Nat) (m : RemoteMsg) : State :=
  match s.xfer m.xfer with
  | none => s
  | some x =>
    if x.node.toNat ≠ src ∨ x.len < m.offset.toNat + m.len.toNat then s
    else match kind with
      | 3 =>
        if !x.get then s
        else
          let io := s.store { pair := none, cls := x.cls.val, tag := x.tag } (x.local' + m.offset.toNat) (padTo m.data m.len.toNat)
          (match io.stop with
            | some e => io.s.endXfer x e
            | none => io.s.progress x m.len.toNat io.degraded)
      | 4 => if x.get then s else s.progress x m.len.toNat false
      | _ => s.endXfer x (x.refused m)

/-! ## Accesses that wait (06_bank_processing.md R165, notes/assumptions/24.md) -/

/-- The class of a message's accesses (R352). -/
def msgClass (m : RemoteMsg) : Fin 3 := if m.cls = 2 then 2 else if m.cls = 0 then 0 else 1

/-- The accesses to this device's vaults that a message makes: kind 1 WRITE and 2 READ at its address, 3 READ_DATA and 0, the
local read of a put, in the local range of its transfer. -/
def State.msgAccesses (s : State) (kind : Nat) (m : RemoteMsg) : List (Nat × Held) :=
  if kind = 1 ∨ kind = 2 then s.vaultAccesses (msgClass m) m.addr.toNat m.len.toNat (decide (kind = 1)) [] none
  else if 4 ≤ kind then []
  else match s.xfer m.xfer with
    | none => []
    | some x => s.vaultAccesses x.cls (x.local' + m.offset.toNat) m.len.toNat (decide (kind = 3)) [] none

/-- A message waits: a vault makes one of its accesses wait, or an older message that waits reaches one of its code words or is
an earlier local read of the same transfer. -/
def State.msgWaits (s : State) (kind : Nat) (m : RemoteMsg) : Bool :=
  let l := s.msgAccesses kind m
  s.someWaits l || s.links.parked.any (fun o =>
    (decide (o.2.1 = 0) && decide (kind = 0) && decide (o.2.2.xfer = m.xfer))
      || (s.msgAccesses o.2.1 o.2.2).any (fun x => l.any (fun y => decide (x.1 = y.1) && x.2.meets y.2)))

/-- A message from a node acts, or is kept until its accesses need not wait. -/
def State.orPark (s : State) (src kind : Nat) (m : RemoteMsg) (act : State → State) : State :=
  if s.msgWaits kind m then s.setLinks (fun l => { l with parked := l.parked ++ [(src, kind, m)] }) else act s

/-- A reply arrives. -/
def State.replyArrives (s : State) (src kind : Nat) (m : RemoteMsg) : State := s.orPark src kind m (fun t => t.takeReply src kind m)

/-- An answer goes on VC2 to the node that asked, or arrives at once where this node did. -/
def State.answer (s : State) (src kind : Nat) (m : RemoteMsg) : State :=
  if s.links.route src = 0x1E then s.replyArrives src kind m else s.sendData src 2 kind m

/-- A request arrives, kind 1 WRITE or 2 READ: it is served and answered. -/
def State.requestArrives (s : State) (src kind : Nat) (m : RemoteMsg) : State :=
  s.orPark src kind m (fun t =>
    let (u, k, reply) := t.serveRemote src (decide (kind = 1)) m
    u.answer src k reply)

/-- A request leaves for its node, or is served here when the node is this one. -/
def State.request (s : State) (x : Xfer) (m : RemoteMsg) : State :=
  if s.links.route x.node.toNat = 0x1E then s.requestArrives x.node.toNat (if x.get then 2 else 1) m
  else s.sendData x.node.toNat (requestVc x.cls.val) (if x.get then 2 else 1) m

/-- The local read of one message of a put: it leaves with its bytes, and a read that fails ends the command. -/
def State.readLocal (s : State) (m : RemoteMsg) : State :=
  match s.xfer m.xfer with
  | none => s
  | some x =>
    let (bs, io) := s.load { pair := none, cls := x.cls.val, tag := x.tag } (x.local' + m.offset.toNat) m.len.toNat
    match io.stop with
    | some e => io.s.endXfer x e
    | none =>
      let t := if io.degraded then
          io.s.setXfers (fun l => l.map (fun z => if z.num = x.num then { z with degraded := true } else z)) else io.s
      t.request x { m with data := bs }

/-- The messages of a transfer in order of offset, 256 B at most each: a put reads its local bytes as it goes. -/
def State.sendXfer (s : State) (x : Xfer) (off : Nat) : Nat → State
  | 0 => s
  | k + 1 =>
    if x.len ≤ off ∨ (s.xfer x.num).isNone then s
    else
      let m := mkMsg x.cls.val x.num 0 (min 256 (x.len - off)) off (x.remote + off) []
      State.sendXfer (if x.get then s.request x m else s.orPark 0 0 m (fun t => t.readLocal m)) x (off + 256) k

/-- A kept message is offered again. -/
def State.offerMsg (s : State) (o : Nat × Nat × RemoteMsg) : State :=
  if o.2.1 = 0 then s.orPark o.1 0 o.2.2 (fun t => t.readLocal o.2.2)
  else if o.2.1 ≤ 2 then s.requestArrives o.1 o.2.1 o.2.2
  else s.replyArrives o.1 o.2.1 o.2.2

/-- The kept messages, oldest first, are offered again. -/
def State.unpark (s : State) : State := s.links.parked.foldl State.offerMsg (s.setLinks (fun l => { l with parked := [] }))

/-- LINK_COPY (R352). -/
def execLinkCopy (ctrl : Fin 4) (slot : Fin 1024) (s : State) : Host.Outcome State Fault Refusal :=
  .next (s.serve 0x0320 ctrl slot (fun a t =>
    let node := field a.b 26 2
    let loc := field a.b 32 8
    let len := field a.b 48 8
    a.checked t
      [(decide (1 < field a.b 24 1), .rejectFormat, 24), (decide (2 < field a.b 25 1), .rejectFormat, 25),
       (decide (4095 < node), .rejectFormat, 26), (decide (2 ^ 40 < len), .rejectFormat, 48),
       (decide (t.links.route node = 0x1F), .rejectLimit, 26), (!t.reachableRange loc len, .rejectLimit, 32),
       (decide (0 < len) && t.rangeInPool loc len, .rejectState, 32)]
      (fun t =>
        if len = 0 then a.finish t { status := .doneEmpty }
        else if t.sealedAgainst a.ctrl ((t.cmd a.tag).map (·.epoch) |>.getD 0) loc len then a.finish t (refused .sealedRange)
        else
          let x : Xfer := { num := t.links.nextXfer, tag := a.tag, get := decide (field a.b 24 1 = 1), cls := Fin.ofNat 3 (field a.b 25 1),
                            node := BitVec.ofNat 12 node, local' := loc, remote := field a.b 40 8, len := len,
                            port := slPort (t.links.route node), doneBytes := 0, degraded := false, lastProgress := t.now }
          (t.setLinks (fun l => { l with nextXfer := l.nextXfer + 1, xfers := l.xfers ++ [x] })).sendXfer x 0 ((len + 255) / 256))))

/-- A transfer without progress for 10 ms ends LINK_DOWN (R353). -/
def execLinkCopyTimeout (xfer : BitVec 16) (s : State) : Host.Outcome State Fault Refusal :=
  .next (match s.xfer xfer with
    | some x => if x.lastProgress + ms 10 ≤ s.now ∧ x.doneBytes < x.len then s.endXfer x x.down else s
    | none => s)

/-- A request arrives: it is served by the port's hardware and answered on VC2. -/
def State.remoteArrives (s : State) (port : Fin 18) (hdr : FlitHdr) (write : Bool) (msg : RemoteMsg) : State :=
  s.rxRouted port hdr (if write then 1 else 2) (some msg) msg.data (fun t => t.requestArrives hdr.src.toNat (if write then 1 else 2) msg)

/-- WRITE (R352). -/
def execRemoteWrite (port : Fin 18) (hdr : FlitHdr) (msg : RemoteMsg) (s : State) : Host.Outcome State Fault Refusal :=
  .next (s.remoteArrives port hdr true msg)

/-- READ (R352). -/
def execRemoteRead (port : Fin 18) (hdr : FlitHdr) (msg : RemoteMsg) (s : State) : Host.Outcome State Fault Refusal :=
  .next (s.remoteArrives port hdr false msg)

/-- READ_DATA (R353). -/
def execRemoteReadData (port : Fin 18) (hdr : FlitHdr) (msg : RemoteMsg) (s : State) : Host.Outcome State Fault Refusal :=
  .next (s.rxRouted port hdr 3 (some msg) msg.data (fun t => t.replyArrives hdr.src.toNat 3 msg))

/-- WRITE_ACK (R353). -/
def execRemoteWriteAck (port : Fin 18) (hdr : FlitHdr) (msg : RemoteMsg) (s : State) : Host.Outcome State Fault Refusal :=
  .next (s.rxRouted port hdr 4 (some msg) [] (fun t => t.takeReply hdr.src.toNat 4 msg))

/-- REFUSE (R353). -/
def execRemoteRefuse (port : Fin 18) (hdr : FlitHdr) (msg : RemoteMsg) (s : State) : Host.Outcome State Fault Refusal :=
  .next (s.rxRouted port hdr 5 (some msg) [] (fun t => t.takeReply hdr.src.toNat 5 msg))

/-! ## The path of controller 3 (R354) -/

/-- An MGMT flit that reaches this node: the peer's is acted on, any other is dropped. -/
def State.mgmtArrives (s : State) (port : Fin 18) (hdr : FlitHdr) (kind : Nat) (bytes : List Byte) (act : State → State) : State :=
  s.rxRouted port hdr (BitVec.ofNat 8 kind) none bytes (fun t =>
    if t.present 3 && decide (hdr.src.toNat = t.settings.lkPeerNode.toNat) then act t else t.slDrop port)

/-- A slot frame: bytes 4 to 255 of the slot, then its seal word (R209, R354). -/
def execMgmtSlot (port : Fin 18) (hdr : FlitHdr) (slot : BitVec 16) (bytes : List Byte) (s : State) : Host.Outcome State Fault Refusal :=
  .next (s.mgmtArrives port hdr 1 bytes (fun t =>
    if slotCount 3 ≤ slot.toNat ∨ !t.lanternOn then t
    else
      let b := padTo bytes 256
      (t.slotWrite 3 slot.toNat 4 (b.drop 4)).slotWrite 3 slot.toNat 0 (b.take 4)))

/-- A completion record of the peer's: it is received for the controller on this side (R354). -/
def execMgmtCompletion (port : Fin 18) (hdr : FlitHdr) (record : List Byte) (s : State) : Host.Outcome State Fault Refusal :=
  .next (s.mgmtArrives port hdr 2 record id)

/-- The peer's ownership notice: it is received for the controller on this side (R233, R354). -/
def execMgmtOwnershipNotice (port : Fin 18) (hdr : FlitHdr) (notice : List Byte) (s : State) : Host.Outcome State Fault Refusal :=
  .next (s.mgmtArrives port hdr 3 notice id)

/-! ## LINK_STATUS_READ (R367, R368) -/

/-- LP_STATE. -/
def SlState.code : SlState → Nat
  | .disabled => 0
  | .down => 1
  | .training => 2
  | .upClear => 3
  | .keyed => 4
  | .failed => 5

/-- LP_ROLE. -/
def SlRole.code : SlRole → Nat
  | .none => 0
  | .upstream => 1
  | .downstream => 2
  | .cross => 3
  | .boundary => 4

/-- The 32 bytes of a port's entry. -/
def State.slEntry (s : State) (n : Nat) : List Byte :=
  let p := s.sl n
  if !s.hasSl n then [6] ++ List.replicate 31 0
  else leBytes 1 p.state.code ++ leBytes 1 p.lanes ++ leBytes 1 p.role.code ++ leBytes 1 p.peerPort.toNat ++ leBytes 2 p.peerNode.toNat
    ++ leBytes 2 p.delay.toNat ++ leBytes 4 p.fecCorr ++ leBytes 4 p.fecUncorr ++ leBytes 4 p.replays ++ leBytes 4 p.tagFail
    ++ leBytes 4 p.keyEpoch ++ leBytes 4 p.drops

/-- SS_STATE. -/
def SeamState.code : SeamState → Nat
  | .inService => 0
  | .retraining => 1
  | .out => 2

/-- SS_HALF. -/
def SeamHalf.code : SeamHalf → Nat
  | .full => 0
  | .low => 1
  | .high => 2

/-- The 16 bytes of a Seam module's entry. -/
def State.seamEntry (s : State) (m : Nat) : List Byte :=
  let x := s.seamMod m
  leBytes 1 x.state.code ++ leBytes 1 (if x.state = .out then 0 else x.width) ++ leBytes 1 x.half.code ++ leBytes 1 x.sparesWE
    ++ leBytes 1 x.sparesEW ++ leBytes 3 0 ++ leBytes 4 x.retrains ++ leBytes 4 x.replays

/-- The 896 bytes of the link status (Table 12-9). -/
def State.linkStatus (s : State) : List Byte :=
  let l := s.links
  leBytes 2 ((l.nodeId.map (·.toNat)).getD 0)
    ++ leBytes 1 (ofBool l.nodeId.isSome + 2 * ofBool l.root + 4 * ofBool l.overflow + 8 * ofBool s.time.emitting
        + 16 * ofBool s.seam.degraded + 32 * ofBool s.lantern.seamLost)
    ++ leBytes 1 ((l.upstream.map (·.val)).getD 0x1F) ++ leBytes 2 l.domain.toNat
    ++ leBytes 2 (if l.root then l.nextFree else 0) ++ leBytes 4 l.epoch.toNat
    ++ leBytes 2 s.settings.lkPeerNode.toNat ++ leBytes 50 0
    ++ (List.range 18).flatMap s.slEntry ++ (List.range 16).flatMap s.seamEntry

/-- LINK_STATUS_READ copies the first LS_LEN bytes of the status. -/
def execLinkStatusRead (ctrl : Fin 4) (slot : Fin 1024) (s : State) : Host.Outcome State Fault Refusal :=
  .next (s.serve 0x0310 ctrl slot (fun a t => a.checked t
    [(a.noPort, .rejectFormat, noField), (decide (field a.b 24 8 % 64 ≠ 0), .rejectFormat, 24),
     (decide (896 < field a.b 32 2), .rejectFormat, 32)]
    (fun t => if field a.b 32 2 = 0 then a.finish t { status := .doneEmpty }
      else a.copyOut t (field a.b 24 8) (t.linkStatus.take (field a.b 32 2)))))

end Sys2Proof.Machine
end

