-- ==== Sys2Proof/Machine/Clock.lean ====
section
/-! DEFINITION. The passing of time: what a nanosecond does by itself (notes/assumptions/1.md). -/

namespace Sys2Proof.Machine

open Sys2Proof

/-- A slew of one nanosecond is due: every 10,000 ns, at up to ±100 ppm (10_rack_time_rations.md R277). It neither skips nor
repeats a count at which a ration period or a beacon begins. -/
def State.slewDue (s : State) : Bool :=
  decide (s.time.slew ≠ 0) && decide (s.now % 10000 = 0)
    && decide (s.rtNow % periodNs ≠ 0) && decide ((s.rtNow + 1) % periodNs ≠ 0)
    && decide (s.rtNow % 1000000 ≠ 0) && decide ((s.rtNow + 1) % 1000000 ≠ 0)

/-- The count after one nanosecond: one more, or with a slew two more or none. -/
def State.timeTick (s : State) : RackTime :=
  let x := s.time
  if !x.running then x
  else if !s.slewDue then { x with now := x.now + 1 }
  else if 0 < x.slew then { x with now := x.now + 2, slew := x.slew - 1 }
  else { x with slew := x.slew + 1 }

/-- The counters move: the time base advances, rack time counts while it runs (10_rack_time_rations.md R272), and each
check-value channel that does not scan consumes a byte of its FIFO (16_faults_blast_radius.md R438). -/
def State.advance (s : State) : State :=
  { s with
    now := s.now + 1
    time := s.timeTick
    cv := s.cv.map (fun e => (e.1, if e.2.scanning then e.2 else e.2.tick)) }

/-- One nanosecond passes; a vault whose slot ends with it serves the accesses it holds, and remote messages that waited are
offered again (06_bank_processing.md R164, R165). -/
def State.tick (s : State) : State := s.advance.openWindows.unpark

end Sys2Proof.Machine
end

