-- ==== Sys2Proof/Machine/Flags.lean ====
section
/-! DEFINITION. The arithmetic flags of an operation (02_number_formats.md R58, Table 02-7) and how they gather. -/

namespace Sys2Proof.Machine

open Sys2Proof

/-- The flag bits of Table 02-7. -/
inductive Flag where
  | nanIn
  | nanOut
  | infOut
  | saturated
  | nanToZero
  | underflowZero
  | wOverflow
  deriving DecidableEq, Repr

/-- The place of a flag in the flag byte. -/
def Flag.place : Flag → Nat
  | .nanIn => 0
  | .nanOut => 1
  | .infOut => 2
  | .saturated => 3
  | .nanToZero => 4
  | .underflowZero => 5
  | .wOverflow => 6

/-- The flag byte with one flag set when the condition holds. -/
def setFlag (f : BitVec 8) (w : Flag) (c : Bool) : BitVec 8 := if c then f ||| (1 <<< w.place) else f

/-- Whether a flag stands. -/
def hasFlag (f : BitVec 8) (w : Flag) : Bool := f.getLsbD w.place

end Sys2Proof.Machine
end

