-- ==== Sys2Proof/Machine/Fp.lean ====
section
/-! DEFINITION. Numbers and formats (02_number_formats.md): exact dyadic values, the formats of Table 02-1, rounding,
conversion, microscaling blocks, and W-format arithmetic. -/

namespace Sys2Proof.Machine

open Sys2Proof

/-! ## Exact values -/

/-- A value: NaN, an infinity, or (-1)^neg times m times 2^e, with signed zeros. -/
inductive Num where
  | nan
  | inf (neg : Bool)
  | fin (neg : Bool) (m : Nat) (e : Int)
  deriving DecidableEq, Repr

/-- Plus zero. -/
def Num.zero : Num := .fin false 0 0

/-- One. -/
def Num.one : Num := .fin false 1 0

/-- An integer. -/
def Num.ofInt (i : Int) : Num := .fin (decide (i < 0)) i.natAbs 0

/-- 2^e. -/
def Num.pow2 (e : Int) : Num := .fin false 1 e

/-- The value is a zero. -/
def Num.isZero : Num → Bool
  | .fin _ m _ => decide (m = 0)
  | _ => false

/-- The value is NaN. -/
def Num.isNan : Num → Bool
  | .nan => true
  | _ => false

/-- The value is an infinity. -/
def Num.isInf : Num → Bool
  | .inf _ => true
  | _ => false

/-- The value is finite. -/
def Num.isFin : Num → Bool
  | .fin _ _ _ => true
  | _ => false

/-- The sign bit; NaN has none. -/
def Num.sign : Num → Bool
  | .nan => false
  | .inf n => n
  | .fin n _ _ => n

/-- The value with its sign changed. -/
def Num.neg : Num → Num
  | .nan => .nan
  | .inf n => .inf (!n)
  | .fin n m e => .fin (!n) m e

/-- The magnitude. -/
def Num.abs : Num → Num
  | .nan => .nan
  | .inf _ => .inf false
  | .fin _ m e => .fin false m e

/-- The signed significand at exponent `q`, for `q` at most the value's exponent. -/
def sigAt (neg : Bool) (m : Nat) (e q : Int) : Int :=
  let k : Int := (m * 2 ^ (e - q).toNat : Nat)
  if neg then -k else k

/-- Exact sum (R57): opposite infinities give NaN, +0 and -0 give +0. -/
def Num.add (a b : Num) : Num :=
  match a, b with
  | .nan, _ => .nan
  | _, .nan => .nan
  | .inf x, .inf y => if x = y then .inf x else .nan
  | .inf x, _ => .inf x
  | _, .inf y => .inf y
  | .fin n1 m1 e1, .fin n2 m2 e2 =>
    if m1 = 0 ∧ m2 = 0 then .fin (n1 && n2) 0 0
    else if m1 = 0 then .fin n2 m2 e2
    else if m2 = 0 then .fin n1 m1 e1
    else
      let q := min e1 e2
      let k := sigAt n1 m1 e1 q + sigAt n2 m2 e2 q
      .fin (decide (k < 0)) k.natAbs q

/-- Exact difference. -/
def Num.sub (a b : Num) : Num := a.add b.neg

/-- Exact product (R57): infinity times zero is NaN. -/
def Num.mul (a b : Num) : Num :=
  match a, b with
  | .nan, _ => .nan
  | _, .nan => .nan
  | .inf x, .inf y => .inf (x ^^ y)
  | .inf x, .fin y m _ => if m = 0 then .nan else .inf (x ^^ y)
  | .fin y m _, .inf x => if m = 0 then .nan else .inf (x ^^ y)
  | .fin n1 m1 e1, .fin n2 m2 e2 => .fin (n1 ^^ n2) (m1 * m2) (e1 + e2)

/-- Times 2^k. -/
def Num.scale (a : Num) (k : Int) : Num :=
  match a with
  | .fin n m e => .fin n m (e + k)
  | x => x

/-- `a < b`; false with a NaN. -/
def Num.lt (a b : Num) : Bool :=
  match a, b with
  | .nan, _ => false
  | _, .nan => false
  | .inf x, .inf y => x && !y
  | .inf x, _ => x
  | _, .inf y => !y
  | .fin n1 m1 e1, .fin n2 m2 e2 =>
    if m1 = 0 ∧ m2 = 0 then false
    else if m1 = 0 then !n2
    else if m2 = 0 then n1
    else if n1 ≠ n2 then n1
    else
      let q := min e1 e2
      decide (sigAt n1 m1 e1 q < sigAt n2 m2 e2 q)

/-- `a ≤ b`; false with a NaN. -/
def Num.le (a b : Num) : Bool := !a.isNan && !b.isNan && !b.lt a

/-- The exponent of the leading bit of a finite nonzero value. -/
def leadExp (m : Nat) (e : Int) : Int := e + (Nat.log2 m : Int)

/-- A quotient of finite values as an exact value whose last bit stands for everything below it: it rounds to up to 120
bits as the quotient does. -/
def Num.divSticky (a b : Num) : Num :=
  match a, b with
  | .nan, _ => .nan
  | _, .nan => .nan
  | .inf _, .inf _ => .nan
  | .inf x, .fin y _ _ => .inf (x ^^ y)
  | .fin x _ _, .inf y => .fin (x ^^ y) 0 0
  | .fin n1 m1 e1, .fin n2 m2 e2 =>
    if m2 = 0 then (if m1 = 0 then .nan else .inf (n1 ^^ n2))
    else
      let k := Nat.log2 m2 + 122
      let num := m1 * 2 ^ k
      .fin (n1 ^^ n2) (2 * (num / m2) + (if num % m2 = 0 then 0 else 1)) (e1 - e2 - k - 1)

/-- The largest integer not above a finite value. -/
def floorNat (neg : Bool) (m : Nat) (e : Int) : Int :=
  if 0 ≤ e then sigAt neg m e 0
  else
    let d := 2 ^ (-e).toNat
    let q := m / d
    if neg then (if m % d = 0 then -(q : Int) else -(q : Int) - 1) else q

/-! ## Rounding -/

/-- Round half to even: the number of quanta 2^q nearest to m 2^e. -/
def quantaRne (m : Nat) (e q : Int) : Nat :=
  if q ≤ e then m * 2 ^ (e - q).toNat
  else
    let d := 2 ^ (q - e).toNat
    let lo := m / d
    let r := m % d
    if d < 2 * r ∨ (d = 2 * r ∧ lo % 2 = 1) then lo + 1 else lo

/-- Stochastic rounding with the 16-bit draw `r` (R54). -/
def quantaSr (r m : Nat) (e q : Int) : Nat :=
  if q ≤ e then m * 2 ^ (e - q).toNat
  else
    let d := 2 ^ (q - e).toNat
    let f16 := m % d * 65536 / d
    if 65536 ≤ f16 + r then m / d + 1 else m / d

/-- Toward zero. -/
def quantaRz (m : Nat) (e q : Int) : Nat := if q ≤ e then m * 2 ^ (e - q).toNat else m / 2 ^ (q - e).toNat

/-- How a conversion rounds: to nearest even, or stochastically with a draw. -/
inductive Rnd where
  | rne
  | sr (draw : Nat)
  deriving DecidableEq, Repr

/-- Quanta under a rounding. -/
def Rnd.quanta (r : Rnd) (m : Nat) (e q : Int) : Nat :=
  match r with
  | .rne => quantaRne m e q
  | .sr d => quantaSr d m e q

/-- The quantum exponent of a destination of `p` significant bits whose smallest quantum is 2^qmin. -/
def quantum (p : Nat) (qmin : Int) (m : Nat) (e : Int) : Int := max (leadExp m e - (p - 1 : Nat)) qmin

/-- A finite value rounded to nearest even to `p` significant bits and no range limits. -/
def Num.roundBits (p : Nat) (a : Num) : Num :=
  match a with
  | .fin n m e => if m = 0 then .fin n 0 0 else
    let q := leadExp m e - (p - 1 : Nat)
    .fin n (quantaRne m e q) q
  | x => x

/-- A value truncated toward zero to `p` significant bits. -/
def Num.truncBits (p : Nat) (a : Num) : Num :=
  match a with
  | .fin n m e => if m = 0 then .fin n 0 0 else
    let q := leadExp m e - (p - 1 : Nat)
    .fin n (quantaRz m e q) q
  | x => x

/-! ## The W-format (R47, R48) -/

/-- A W-format result: its value, whether it overflowed to infinity, and whether it was flushed to zero. -/
structure WRes where
  v : Num
  ovf : Bool := false
  flush : Bool := false
  deriving DecidableEq, Repr

/-- Round into the W-format: 28 bits to nearest even, then flush below 2^-1022, then overflow to infinity. -/
def wRound (a : Num) : WRes :=
  match a.roundBits 28 with
  | .fin n m e =>
    if m = 0 then { v := .fin n 0 0 }
    else if leadExp m e < -1022 then { v := .fin n 0 0, flush := true }
    else if 1023 < leadExp m e then { v := .inf n, ovf := true }
    else { v := .fin n m e }
  | x => { v := x }

/-- Go on from a W-format result. -/
def WRes.bind (a : WRes) (f : Num → WRes) : WRes :=
  let b := f a.v
  { v := b.v, ovf := a.ovf || b.ovf, flush := a.flush || b.flush }

/-- A W-format value as a result. -/
def WRes.pure (v : Num) : WRes := { v := v }

/-- W-format sum, one rounding. -/
def wAdd (a b : Num) : WRes := wRound (a.add b)

/-- W-format difference. -/
def wSub (a b : Num) : WRes := wRound (a.sub b)

/-- W-format product. -/
def wMul (a b : Num) : WRes := wRound (a.mul b)

/-- W-format quotient. -/
def wDiv (a b : Num) : WRes := wRound (a.divSticky b)

/-- The bits of an IEEE-shaped number: `x` exponent bits, `f` fraction bits; the value is already representable. -/
def packFloat (x f : Nat) (bias : Int) (a : Num) : Nat :=
  match a with
  | .nan => (2 ^ x - 1) * 2 ^ f + 2 ^ (f - 1)
  | .inf n => ofBool n * 2 ^ (x + f) + (2 ^ x - 1) * 2 ^ f
  | .fin n m e =>
    let s := ofBool n * 2 ^ (x + f)
    if m = 0 then s
    else
      let lead := leadExp m e
      if lead < 1 - bias then s + quantaRz m e (1 - bias - f)
      else s + (lead + bias).toNat * 2 ^ f + (quantaRz m e (lead - f) - 2 ^ f)

/-- The value of IEEE-shaped bits; `ieee` gives the top exponent to infinities and NaN. -/
def unpackFloat (x f : Nat) (bias : Int) (ieee : Bool) (v : Nat) : Num :=
  let n := bit v (x + f)
  let ex := bits v f x
  let fr := v % 2 ^ f
  if ieee ∧ ex = 2 ^ x - 1 then (if fr = 0 then .inf n else .nan)
  else if ex = 0 then .fin n fr (1 - bias - f)
  else .fin n (2 ^ f + fr) ((ex : Int) - bias - f)

/-- The 39 bits of a W-format value. -/
def wBits (a : Num) : BitVec 39 := BitVec.ofNat 39 (packFloat 11 27 1023 a)

/-- The value of 39 W-format bits: a zero exponent reads as a zero of its sign (R48). -/
def wVal (b : BitVec 39) : Num :=
  match unpackFloat 11 27 1023 true b.toNat with
  | .fin n m e => if bits b.toNat 27 11 = 0 then .fin n 0 0 else .fin n m e
  | x => x

/-! ## Formats (Table 02-1, Table 02-2) -/

/-- The formats of Table 02-1. -/
inductive Fmt where
  | int4 | int8 | e4m3 | e5m2 | mxfp4 | mxfp6a | mxfp6b | mxe4m3 | mxe5m2 | mxint8 | fp16 | bf16 | fp32 | fp64 | wc64
  deriving DecidableEq, Repr

/-- The format of bits [3:0] of a format byte. -/
def fmtOf (code : Nat) : Option Fmt :=
  match code with
  | 1 => some .int4
  | 2 => some .int8
  | 3 => some .e4m3
  | 4 => some .e5m2
  | 5 => some .mxfp4
  | 6 => some .mxfp6a
  | 7 => some .mxfp6b
  | 8 => some .mxe4m3
  | 9 => some .mxe5m2
  | 10 => some .mxint8
  | 11 => some .fp16
  | 12 => some .bf16
  | 13 => some .fp32
  | 14 => some .fp64
  | 15 => some .wc64
  | _ => none

/-- Bits per element. -/
def Fmt.bits : Fmt → Nat
  | .int4 => 4
  | .mxfp4 => 4
  | .mxfp6a => 6
  | .mxfp6b => 6
  | .fp16 => 16
  | .bf16 => 16
  | .fp32 => 32
  | .fp64 => 64
  | .wc64 => 64
  | _ => 8

/-- A microscaling format. -/
def Fmt.mx : Fmt → Bool
  | .mxfp4 => true
  | .mxfp6a => true
  | .mxfp6b => true
  | .mxe4m3 => true
  | .mxe5m2 => true
  | .mxint8 => true
  | _ => false

/-- A format that carries a per-tensor scale (R46). -/
def Fmt.scaled : Fmt → Bool
  | .int4 => true
  | .int8 => true
  | .e4m3 => true
  | .e5m2 => true
  | _ => false

/-- A format byte (R41). -/
structure FmtByte where
  fmt : Fmt
  cplx : Bool
  deriving DecidableEq, Repr

/-- The format a byte names, unless R41 rejects it whatever its role. -/
def fmtByte (v : Nat) : Option FmtByte :=
  match fmtOf (v % 16) with
  | none => none
  | some f =>
    let c := bit v 7
    if bits v 4 3 ≠ 0 then none
    else if c && !(decide (f = .fp16) || decide (f = .bf16) || decide (f = .fp32)) then none
    else some { fmt := f, cplx := c }

/-- The value of an E4M3 byte: only S.1111.111 is NaN. -/
def e4m3Val (v : Nat) : Num := if v % 128 = 127 then .nan else unpackFloat 4 3 7 false v

/-- The value of an element's bits, its block scale apart. -/
def Fmt.val (f : Fmt) (v : Nat) : Num :=
  match f with
  | .int4 => .ofInt (toInt 4 v)
  | .int8 => .ofInt (toInt 8 v)
  | .e4m3 => e4m3Val v
  | .e5m2 => unpackFloat 5 2 15 true v
  | .mxfp4 => unpackFloat 2 1 1 false v
  | .mxfp6a => unpackFloat 2 3 1 false v
  | .mxfp6b => unpackFloat 3 2 3 false v
  | .mxe4m3 => e4m3Val v
  | .mxe5m2 => unpackFloat 5 2 15 true v
  | .mxint8 => (Num.ofInt (toInt 8 v)).scale (-6)
  | .fp16 => unpackFloat 5 10 15 true v
  | .bf16 => unpackFloat 8 7 127 true v
  | .fp32 => unpackFloat 8 23 127 true v
  | .fp64 => unpackFloat 11 52 1023 true v
  | .wc64 => wVal (BitVec.ofNat 39 v)

/-- The value under an E8M0 block scale (R45): 0xFF reads as NaN. -/
def mxVal (v : Num) (s : Nat) : Num := if s = 255 then .nan else v.scale ((s : Int) - 127)

/-- FP32 value of 32 bits. -/
def fp32 (v : Nat) : Num := Fmt.val .fp32 v

/-! ## Conversion (R52 to R56) -/

/-- CONV (Table 02-3). -/
structure Conv where
  ceil : Bool
  ovf : Bool
  sr : Bool
  deriving DecidableEq, Repr

/-- The conversion a CONV byte gives. -/
def convOf (v : Nat) : Conv := { ceil := bit v 3, ovf := bit v 2, sr := decide (v % 4 = 1) }

/-- R52 rejects the byte. -/
def convBad (v : Nat) : Bool := decide (v / 16 ≠ 0) || decide (2 ≤ v % 4)

/-- The rounding of a conversion with a draw. -/
def Conv.rnd (c : Conv) (draw : Nat) : Rnd := if c.sr then .sr (draw % 65536) else .rne

/-- Stored bits with the flags that storing them raised. -/
structure Stored where
  bits : Nat
  flags : BitVec 8 := 0
  deriving DecidableEq, Repr

/-- Shape of a floating destination: exponent bits, fraction bits, bias, largest finite value. -/
structure Shape where
  x : Nat
  f : Nat
  bias : Int
  maxM : Nat
  maxE : Int

/-- The floating destinations that are not microscaled. -/
def Fmt.shape : Fmt → Option Shape
  | .e4m3 => some ⟨4, 3, 7, 14, 5⟩
  | .e5m2 => some ⟨5, 2, 15, 7, 13⟩
  | .fp16 => some ⟨5, 10, 15, 2047, 5⟩
  | .bf16 => some ⟨8, 7, 127, 255, 120⟩
  | .fp32 => some ⟨8, 23, 127, 2 ^ 24 - 1, 104⟩
  | .fp64 => some ⟨11, 52, 1023, 2 ^ 53 - 1, 971⟩
  | _ => none

/-- A finite value rounded once to a shape's precision (R53): quanta and their exponent. -/
def Shape.round (s : Shape) (r : Rnd) (m : Nat) (e : Int) : Nat × Int :=
  let q := quantum (s.f + 1) (1 - s.bias - s.f) m e
  (r.quanta m e q, q)

/-- m 2^e exceeds the largest finite value. -/
def Shape.exceeds (s : Shape) (m : Nat) (e : Int) : Bool := (Num.fin false s.maxM s.maxE).lt (.fin false m e)

/-- A finite value overflows: its rounded magnitude, or under stochastic rounding its magnitude, is too large (R54,
R56). -/
def Shape.overflows (s : Shape) (r : Rnd) (m : Nat) (e : Int) : Bool :=
  match r with
  | .rne => s.exceeds (s.round r m e).1 (s.round r m e).2
  | .sr _ => s.exceeds m e

/-- Convert to a floating destination (Table 02-4). Signs of NaN are not preserved, so a NaN into E4M3 takes a free sign
(notes/assumptions/26.md). -/
def Shape.convert (s : Shape) (e4 : Bool) (c : Conv) (draw : Nat) (a : Num) : Stored :=
  let big (n : Bool) : Stored := { bits := packFloat s.x s.f s.bias (.fin n s.maxM s.maxE), flags := setFlag 0 .saturated true }
  let nanBits : Nat := packFloat s.x s.f s.bias .nan
  let nanOf (n : Bool) : Stored := { bits := ofBool n * 128 + 0x7F, flags := setFlag 0 .nanOut true }
  let infOf (n : Bool) : Stored := { bits := packFloat s.x s.f s.bias (.inf n), flags := setFlag 0 .infOut true }
  match a with
  | .nan => if e4 then nanOf (bit draw 16) else { bits := nanBits, flags := setFlag 0 .nanOut true }
  | .inf n => if e4 then (if c.ovf then nanOf n else big n) else infOf n
  | .fin n m e =>
    if m = 0 then { bits := ofBool n * 2 ^ (s.x + s.f) }
    else if s.overflows (c.rnd draw) m e then (if c.ovf then (if e4 then nanOf n else infOf n) else big n)
    else
      let r := s.round (c.rnd draw) m e
      { bits := packFloat s.x s.f s.bias (.fin n r.1 r.2), flags := setFlag 0 .underflowZero (decide (r.1 = 0)) }

/-- Convert to a two's-complement integer of `n` bits. Stochastically rounded, a magnitude beyond the range end overflows
whatever is drawn (R54). -/
def convertInt (n : Nat) (c : Conv) (draw : Nat) (a : Num) : Stored :=
  let top (neg : Bool) : Nat := if neg then 2 ^ (n - 1) else 2 ^ (n - 1) - 1
  match a with
  | .nan => { bits := 0, flags := setFlag 0 .nanToZero true }
  | .inf s => { bits := top s, flags := setFlag 0 .saturated true }
  | .fin s m e =>
    let k := (c.rnd draw).quanta m e 0
    let big : Bool := match c.rnd draw with
      | .rne => decide (top s < k)
      | .sr _ => (Num.ofInt (top s)).lt (.fin false m e)
    if big then { bits := top s, flags := setFlag 0 .saturated true }
    else { bits := ofInt n (if s then -(k : Int) else k), flags := setFlag 0 .underflowZero (decide (k = 0 ∧ m ≠ 0)) }

/-- Convert to WC64: rounded into the W-format (R47), bits [63:39] zero (R48). -/
def convertW (a : Num) : Stored :=
  let r := wRound a
  { bits := (wBits r.v).toNat,
    flags := setFlag (setFlag (setFlag (setFlag 0 .wOverflow r.ovf) .underflowZero r.flush) .nanOut r.v.isNan) .infOut r.v.isInf }

/-- Convert one value to a format that is not microscaled. -/
def Fmt.convert (f : Fmt) (c : Conv) (draw : Nat) (a : Num) : Stored :=
  match f with
  | .int4 => convertInt 4 c draw a
  | .int8 => convertInt 8 c draw a
  | .wc64 => convertW a
  | f => match f.shape with
    | some s => s.convert (decide (f = .e4m3)) c draw a
    | none => { bits := 0 }

/-! ## Microscaling blocks (R44, R55) -/

/-- emax and maxe of an element type (Table 02-5). -/
def Fmt.mxMax : Fmt → Int × Num
  | .mxfp4 => (2, .fin false 3 1)
  | .mxfp6a => (2, .fin false 15 (-1))
  | .mxfp6b => (4, .fin false 7 2)
  | .mxe4m3 => (8, .fin false 14 5)
  | .mxe5m2 => (15, .fin false 7 13)
  | _ => (0, .fin false 127 (-6))

/-- Shape of a microscaled element: exponent bits, fraction bits, bias; the integer element has none. -/
def Fmt.mxShape : Fmt → Option (Nat × Nat × Int)
  | .mxfp4 => some (2, 1, 1)
  | .mxfp6a => some (2, 3, 1)
  | .mxfp6b => some (3, 2, 3)
  | .mxe4m3 => some (4, 3, 7)
  | .mxe5m2 => some (5, 2, 15)
  | _ => none

/-- One element of a block: rounded, then clamped to maxe. -/
def Fmt.mxElem (f : Fmt) (c : Conv) (draw : Nat) (a : Num) : Stored :=
  match a with
  | .fin n m e =>
    match f.mxShape with
    | some (x, fr, bias) =>
      if m = 0 then { bits := ofBool n * 2 ^ (x + fr) }
      else
        let q := quantum (fr + 1) (1 - bias - fr) m e
        let k := (c.rnd draw).quanta m e q
        let r := if f.mxMax.2.lt (.fin false k q) then f.mxMax.2 else .fin false k q
        { bits := ofBool n * 2 ^ (x + fr) + packFloat x fr bias r, flags := setFlag 0 .underflowZero (decide (k = 0)) }
    | none =>
      let k := min ((c.rnd draw).quanta m e (-6)) 127
      { bits := ofInt 8 (if n then -(k : Int) else k), flags := setFlag 0 .underflowZero (decide (k = 0 ∧ m ≠ 0)) }
  | _ => { bits := 0 }

/-- The larger magnitude. -/
def maxAbs (a b : Num) : Num := if a.lt b.abs then b.abs else a

/-- The block exponent before it is clamped, for a nonzero largest magnitude. -/
def Fmt.shared (f : Fmt) (c : Conv) (m : Nat) (e : Int) : Int :=
  if c.ceil then
    let base := leadExp m e - f.mxMax.1 - 1
    if (Num.fin false m e).le (f.mxMax.2.scale base) then base
    else if (Num.fin false m e).le (f.mxMax.2.scale (base + 1)) then base + 1
    else base + 2
  else leadExp m e - f.mxMax.1

/-- A converted block: its scale byte, its element bits, the flags raised. -/
structure Block where
  scale : Nat
  elems : List Nat
  flags : BitVec 8

/-- Convert one block (R55); `draw i` is the draw of element i. -/
def Fmt.mxBlock (f : Fmt) (c : Conv) (draw : Nat → Nat) (vs : List Num) : Block :=
  if vs.any (fun v => !v.isFin) then { scale := 255, elems := vs.map (fun _ => 0), flags := setFlag 0 .nanOut true }
  else
    let raw : Int := match vs.foldl maxAbs Num.zero with
      | .fin _ m e => if m = 0 then -127 else f.shared c m e
      | _ => -127
    let sh := max (min raw 127) (-127)
    let es := (vs.zipIdx).map (fun (v, i) => f.mxElem c (draw i) (v.scale (-sh)))
    { scale := (sh + 127).toNat, elems := es.map (·.bits),
      flags := es.foldl (fun g x => g ||| x.flags) (setFlag 0 .saturated (decide (127 < raw))) }

/-! ## FP32 and other rounded arithmetic of the cores -/

/-- Round to FP32, to nearest even, overflow to infinity, subnormals kept (R49). -/
def fp32Round (a : Num) : Num :=
  match a with
  | .fin n m e =>
    if m = 0 then .fin n 0 0
    else
      let q := quantum 24 (-149) m e
      let k := quantaRne m e q
      if 127 < leadExp k q ∧ k ≠ 0 then .inf n else .fin n k q
  | x => x

/-- Round to FP64, to nearest even. -/
def fp64Round (a : Num) : Num :=
  match a with
  | .fin n m e =>
    if m = 0 then .fin n 0 0
    else
      let q := quantum 53 (-1074) m e
      let k := quantaRne m e q
      if 1023 < leadExp k q ∧ k ≠ 0 then .inf n else .fin n k q
  | x => x

/-- Round to the operand format of a complex or FP32 product, to nearest even, overflow to infinity (R81, R82). -/
def Fmt.roundIn (f : Fmt) (a : Num) : Num := f.val (f.convert { ceil := false, ovf := true, sr := false } 0 a).bits

/-- A per-tensor scale that R46 accepts for the format: finite and nonzero where the format takes one, all bits zero
where it takes none. -/
def scaleOk (f : Fmt) (v : Nat) : Bool := if f.scaled then (fp32 v).isFin && !(fp32 v).isZero else decide (v = 0)

/-- The per-tensor input scale of an operand: 1 where the format takes none. -/
def inScale (f : Fmt) (v : Nat) : Num := if f.scaled then fp32 v else .one

/-- The reciprocal of an output scale, once in FP32 (R46). -/
def outRecip (f : Fmt) (v : Nat) : Num := if f.scaled then fp32Round (Num.one.divSticky (fp32 v)) else .one

/-! ## Packed elements (R43) -/

/-- Bytes that `n` elements of `w` bits take. -/
def packedBytes (w n : Nat) : Nat := (w * n + 7) / 8

/-- Element k of `w` bits in a run of packed bytes: the bits [w k + w - 1 : w k] of the run (R43). -/
def elemBits (bs : List Byte) (w k : Nat) : Nat :=
  bits (field bs (w * k / 8) ((w * k % 8 + w + 7) / 8)) (w * k % 8) w

/-- Elements of `w` bits packed into bytes. -/
def packElems (w : Nat) (es : List Nat) : List Byte :=
  leBytes (packedBytes w es.length) ((es.zipIdx).foldl (fun acc (e, i) => acc + e % 2 ^ w * 2 ^ (w * i)) 0)

/-- Flags that reading a value raises. -/
def readFlags (v : Num) : BitVec 8 := setFlag 0 .nanIn v.isNan

end Sys2Proof.Machine
end

