-- ==== Sys2Proof/Machine/Knots.lean ====
section
/-! DEFINITION. Knot tables of the special functions (04_special_functions.md R88, Table 04-2): the W-format value nearest
the function at each knot, as its 39 bits, computed from the functions' mathematical definitions. -/

namespace Sys2Proof.Machine

open Sys2Proof

/-- The knots of 2^(j/64). -/
def exp2Knots : List Nat :=
  [0x1FF8000000, 0x1FF8164D1F, 0x1FF82CD86A, 0x1FF843A28C, 0x1FF85AAC36, 0x1FF871F619, 0x1FF88980E8, 0x1FF8A14D57] ++
  [0x1FF8B95C1E, 0x1FF8D1ADF6, 0x1FF8EA4399, 0x1FF9031DC4, 0x1FF91C3D37, 0x1FF935A2B3, 0x1FF94F4EFB, 0x1FF96942D3] ++
  [0x1FF9837F05, 0x1FF99E0459, 0x1FF9B8D39C, 0x1FF9D3ED9A, 0x1FF9EF5326, 0x1FFA0B0511, 0x1FFA270430, 0x1FFA43515B] ++
  [0x1FFA5FED6B, 0x1FFA7CD93B, 0x1FFA9A15AB, 0x1FFAB7A39B, 0x1FFAD583EF, 0x1FFAF3B78B, 0x1FFB123F58, 0x1FFB311C41] ++
  [0x1FFB504F33, 0x1FFB6FD91E, 0x1FFB8FBAF4, 0x1FFBAFF5AB, 0x1FFBD08A3A, 0x1FFBF1799B, 0x1FFC12C4CD, 0x1FFC346CCE] ++
  [0x1FFC5672A1, 0x1FFC78D74D, 0x1FFC9B9BD8, 0x1FFCBEC150, 0x1FFCE248C1, 0x1FFD06333E, 0x1FFD2A81D9, 0x1FFD4F35AB] ++
  [0x1FFD744FCD, 0x1FFD99D15C, 0x1FFDBFBB79, 0x1FFDE60F48, 0x1FFE0CCDEF, 0x1FFE33F897, 0x1FFE5B906E, 0x1FFE8396A5] ++
  [0x1FFEAC0C6E, 0x1FFED4F302, 0x1FFEFE4B9A, 0x1FFF281774, 0x1FFF5257D1, 0x1FFF7D0DF7, 0x1FFFA83B2E, 0x1FFFD3E0C1] ++
  [0x2000000000]

/-- The knots of log2(1 + j/64). -/
def log2Knots : List Nat :=
  [0x0, 0x1FCB73CB43, 0x1FD35D69BB, 0x1FD8759C50, 0x1FDB31FB7D, 0x1FDDE42120, 0x1FE0462C46, 0x1FE19574F1] ++
  [0x1FE2E00D1D, 0x1FE42615E8, 0x1FE567AF17, 0x1FE6A4F726, 0x1FE7DE0B5D, 0x1FE88983ED, 0x1FE92203D6, 0x1FE9B89267] ++
  [0x1FEA4D3C26, 0x1FEAE00D1D, 0x1FEB7110E7, 0x1FEC0052B2, 0x1FEC8DDD45, 0x1FED19BB05, 0x1FEDA3F5FC, 0x1FEE2C97D7] ++
  [0x1FEEB3A9F0, 0x1FEF393551, 0x1FEFBD42B4, 0x1FF01FED46, 0x1FF0608280, 0x1FF0A064FD, 0x1FF0DF988F, 0x1FF11E20EA] ++
  [0x1FF15C01A4, 0x1FF1993E35, 0x1FF1D5D9FD, 0x1FF211D83F, 0x1FF24D3C26, 0x1FF28808C4, 0x1FF2C24113, 0x1FF2FBE7FA] ++
  [0x1FF3350047, 0x1FF36D8CB5, 0x1FF3A58FEB, 0x1FF3DD0C7D, 0x1FF41404EB, 0x1FF44A7BA6, 0x1FF480730B, 0x1FF4B5ED69] ++
  [0x1FF4EAECFF, 0x1FF51F73FA, 0x1FF553847B, 0x1FF5872093, 0x1FF5BA4A48, 0x1FF5ED038E, 0x1FF61F4E51, 0x1FF6512C6E] ++
  [0x1FF6829FB7, 0x1FF6B3A9F0, 0x1FF6E44CD6, 0x1FF7148A17, 0x1FF744635A, 0x1FF773DA39, 0x1FF7A2F046, 0x1FF7D1A709] ++
  [0x1FF8000000]

/-- The knots of 1/(1 + j/64). -/
def recipKnots : List Nat :=
  [0x1FF8000000, 0x1FF7C0FC10, 0x1FF783E0F8, 0x1FF74898D6, 0x1FF70F0F0F, 0x1FF6D7303B, 0x1FF6A0EA0F, 0x1FF66C2B45] ++
  [0x1FF638E38E, 0x1FF6070382, 0x1FF5D67C8A, 0x1FF5A740DA, 0x1FF579435E, 0x1FF54C77B0, 0x1FF520D20D, 0x1FF4F6474B] ++
  [0x1FF4CCCCCD, 0x1FF4A4587E, 0x1FF47CE0C8, 0x1FF4565C88, 0x1FF430C30C, 0x1FF40C0C0C, 0x1FF3E82FA1, 0x1FF3C52641] ++
  [0x1FF3A2E8BA, 0x1FF381702E, 0x1FF360B60B, 0x1FF340B40B, 0x1FF321642D, 0x1FF302C0B0, 0x1FF2E4C416, 0x1FF2C76918] ++
  [0x1FF2AAAAAB, 0x1FF28E83F5, 0x1FF272F054, 0x1FF257EB50, 0x1FF23D70A4, 0x1FF2237C33, 0x1FF20A0A0A, 0x1FF1F1165E] ++
  [0x1FF1D89D8A, 0x1FF1C09C0A, 0x1FF1A90E7E, 0x1FF191F1A5, 0x1FF17B425F, 0x1FF164FDA7, 0x1FF14F2095, 0x1FF139A85C] ++
  [0x1FF1249249, 0x1FF10FDBC1, 0x1FF0FB823F, 0x1FF0E78357, 0x1FF0D3DCB1, 0x1FF0C08C09, 0x1FF0AD8F30, 0x1FF09AE409] ++
  [0x1FF0888889, 0x1FF0767AB6, 0x1FF064B8A8, 0x1FF0534085, 0x1FF0421084, 0x1FF03126E9, 0x1FF0208208, 0x1FF0102041] ++
  [0x1FF0000000]

/-- The knots of 1/sqrt(v) at v = 1 + j/32, then 2 + j/16. -/
def rsqrtKnots : List Nat :=
  [0x1FF8000000, 0x1FF7C17644, 0x1FF785B424, 0x1FF74C866D, 0x1FF715BEEF, 0x1FF6E133DF, 0x1FF6AEBF55, 0x1FF67E3ED2] ++
  [0x1FF64F92E3, 0x1FF6229EC8, 0x1FF5F7482B, 0x1FF5CD76DD, 0x1FF5A5149E, 0x1FF57E0CEC, 0x1FF5584CD7, 0x1FF533C2DA] ++
  [0x1FF5105EB8, 0x1FF4EE115F, 0x1FF4CCCCCD, 0x1FF4AC83F6, 0x1FF48D2AB1, 0x1FF46EB5A3, 0x1FF4511A2E, 0x1FF4344E64] ++
  [0x1FF41848F3, 0x1FF3FD0120, 0x1FF3E26EB3, 0x1FF3C889F6, 0x1FF3AF4BA3, 0x1FF396ACE2, 0x1FF37EA73D, 0x1FF3673499] ++
  [0x1FF3504F33, 0x1FF324169C, 0x1FF2F9D534, 0x1FF2D166C6, 0x1FF2AAAAAB, 0x1FF2858354, 0x1FF261D5F5, 0x1FF23F8A28] ++
  [0x1FF21E89B1, 0x1FF1FEC03C, 0x1FF1E01B28, 0x1FF1C2895D, 0x1FF1A5FB1F, 0x1FF18A61ED, 0x1FF16FB063, 0x1FF155DA1E] ++
  [0x1FF13CD3A3, 0x1FF1249249, 0x1FF10D0C29, 0x1FF0F63809, 0x1FF0E00D50, 0x1FF0CA83F6, 0x1FF0B5947B, 0x1FF0A137D6] ++
  [0x1FF08D6773, 0x1FF07A1D23, 0x1FF0675319, 0x1FF05503DF, 0x1FF0432A51, 0x1FF031C199, 0x1FF020C524, 0x1FF01030A2] ++
  [0x1FF0000000]

/-- The knots of 1/(1 + e^-v) at v = j/8, 4 + j/4, 8 + j/2. -/
def sigmoidKnots : List Nat :=
  [0x1FF0000000, 0x1FF07FD566, 0x1FF0FEACC9, 0x1FF17B8FF9, 0x1FF1F597EA, 0x1FF26BF314, 0x1FF2DDEA7C, 0x1FF34AE53E] ++
  [0x1FF3B26A7B, 0x1FF41421BD, 0x1FF46FD1FB, 0x1FF4C55F80, 0x1FF514C8F9, 0x1FF55E23FC, 0x1FF5A19943, 0x1FF5DF60E4] ++
  [0x1FF617BEAD, 0x1FF64AFECE, 0x1FF67972D7, 0x1FF6A36F2F, 0x1FF6C948EF, 0x1FF6EB5429, 0x1FF709E295, 0x1FF725428D] ++
  [0x1FF73DBE5E, 0x1FF7539BD2, 0x1FF7671BEC, 0x1FF7787AD6, 0x1FF787EFE6, 0x1FF795ADBD, 0x1FF7A1E27B, 0x1FF7ACB7FB] ++
  [0x1FF7B65418, 0x1FF7C66538, 0x1FF7D2FF5B, 0x1FF7DCDDDB, 0x1FF7E4960A, 0x1FF7EA9E4D, 0x1FF7EF5427, 0x1FF7F30133] ++
  [0x1FF7F5DF44, 0x1FF7F81BAC, 0x1FF7F9D9E5, 0x1FF7FB35AE, 0x1FF7FC44B2, 0x1FF7FD17DB, 0x1FF7FDBC5F, 0x1FF7FE3C87] ++
  [0x1FF7FEA05C, 0x1FF7FF2AB1, 0x1FF7FF7E9D, 0x1FF7FFB185, 0x1FF7FFD066, 0x1FF7FFE320, 0x1FF7FFEE7D, 0x1FF7FFF561] ++
  [0x1FF7FFF98F, 0x1FF7FFFC18, 0x1FF7FFFDA1, 0x1FF7FFFE90, 0x1FF7FFFF21, 0x1FF7FFFF79, 0x1FF7FFFFAE, 0x1FF7FFFFCE] ++
  [0x1FF7FFFFE2]

/-- The knots of tanh v at v = j/16, 2 + j/8, 4 + j/4. -/
def tanhKnots : List Nat :=
  [0x0, 0x1FD7FAACCC, 0x1FDFEACC96, 0x1FE3DC7FC8, 0x1FE7ACBF53, 0x1FE9AFCC50, 0x1FEB77A9EF, 0x1FED2B94F7] ++
  [0x1FEEC9A9EC, 0x1FF0284379, 0x1FF0DFA3F5, 0x1FF18ABEFF, 0x1FF22991F3, 0x1FF2BC47F9, 0x1FF3433286, 0x1FF3BEC1C7] ++
  [0x1FF42F7D5B, 0x1FF495FD9C, 0x1FF4F2E5AE, 0x1FF546DE5E, 0x1FF59291DE, 0x1FF5D6A852, 0x1FF613C529, 0x1FF64A851A] ++
  [0x1FF67B7CBC, 0x1FF6A737A3, 0x1FF6CE37D8, 0x1FF6F0F5AD, 0x1FF70FDFCC, 0x1FF72B5B7A, 0x1FF743C4F6, 0x1FF7596FF7] ++
  [0x1FF76CA82F, 0x1FF78CCA70, 0x1FF7A5FEB6, 0x1FF7B9BBB6, 0x1FF7C92C13, 0x1FF7D53C9A, 0x1FF7DEA84D, 0x1FF7E60267] ++
  [0x1FF7EBBE89, 0x1FF7F03758, 0x1FF7F3B3CB, 0x1FF7F66B5C, 0x1FF7F88963, 0x1FF7FA2FB7, 0x1FF7FB78BD, 0x1FF7FC790E] ++
  [0x1FF7FD40B8, 0x1FF7FE5562, 0x1FF7FEFD39, 0x1FF7FF6309, 0x1FF7FFA0CB, 0x1FF7FFC641, 0x1FF7FFDCF9, 0x1FF7FFEAC2] ++
  [0x1FF7FFF31D, 0x1FF7FFF82F, 0x1FF7FFFB42, 0x1FF7FFFD20, 0x1FF7FFFE42, 0x1FF7FFFEF1, 0x1FF7FFFF5C, 0x1FF7FFFF9C] ++
  [0x1FF7FFFFC4]

/-- The knots of GELU_TANH(-v) at the knots of TANH. -/
def geluKnots : List Nat :=
  [0x0, 0x5FCF33E007, 0x5FD6688CB7, 0x5FDA371C37, 0x5FDCD77028, 0x5FDF17F548, 0x5FE07E0790, 0x5FE143E153] ++
  [0x5FE1DFD259, 0x5FE2546335, 0x5FE2A4500C, 0x5FE2D27D76, 0x5FE2E1ED20, 0x5FE2D5B267, 0x5FE2B0E73D, 0x5FE276A183] ++
  [0x5FE229E912, 0x5FE1CDAEA9, 0x5FE164C3DA, 0x5FE0F1D413, 0x5FE0775ED9, 0x5FDFEF6671, 0x5FDEE9D8DC, 0x5FDDE1DF74] ++
  [0x5FDCDAD6AC, 0x5FDBD7ACE0, 0x5FDADAE424, 0x5FD9E695C0, 0x5FD8FC7704, 0x5FD81DDF47, 0x5FD6979D7E, 0x5FD50DEC19] ++
  [0x5FD39F7C4B, 0x5FD1153E58, 0x5FCDED552D, 0x5FCA792193, 0x5FC7723FF6, 0x5FC32A6521, 0x5FBFD126DA, 0x5FBAF8C058] ++
  [0x5FB6E61501, 0x5FB1E53A7B, 0x5FACD9A649, 0x5FA826B9DC, 0x5FA2188532, 0x5F9C32DB85, 0x5F965E707B, 0x5F903E6022] ++
  [0x5F8935101A, 0x5F7A8F6B15, 0x5F6AC5C3D0, 0x5F59B65B9A, 0x5F476146A0, 0x5F32A03C52, 0x5F1CBAC134, 0x5F0522AA8F] ++
  [0x5EEB996FCB, 0x5ED0B561C8, 0x5EB30B79F4, 0x5E93C11680, 0x5E726D85EF, 0x5E4F527DFC, 0x5E2942C94B, 0x5E01262485] ++
  [0x5DD6AD143C]

/-- The knots of SILU(-v) at the knots of TANH. -/
def siluKnots : List Nat :=
  [0x0, 0x5FCF800AAA, 0x5FD7005533, 0x5FDAE0D73E, 0x5FDE02A66D, 0x5FE0733946, 0x5FE1C6A80A, 0x5FE2FC4539] ++
  [0x5FE414D02B, 0x5FE5111FCB, 0x5FE5F2204E, 0x5FE6B8D0C2, 0x5FE766408D, 0x5FE7FB8CC8, 0x5FE83CEED4, 0x5FE87131F0] ++
  [0x5FE89B2B0A, 0x5FE8BB7735, 0x5FE8D2B417, 0x5FE8E17ED5, 0x5FE8E8730D, 0x5FE8E829EE, 0x5FE8E13961, 0x5FE8D43354] ++
  [0x5FE8C1A514, 0x5FE8AA16CB, 0x5FE88E0B0C, 0x5FE86DFE7D, 0x5FE84A6796, 0x5FE823B66F, 0x5FE7F4A955, 0x5FE79D4AD1] ++
  [0x5FE7420A96, 0x5FE6828A2B, 0x5FE5BAF672, 0x5FE4EF5FC1, 0x5FE42326AB, 0x5FE3590C50, 0x5FE293439D, 0x5FE1D382AD] ++
  [0x5FE11B1397, 0x5FE06AE444, 0x5FDF872A09, 0x5FDE4B0B66, 0x5FDD21C2D9, 0x5FDC0B5197, 0x5FDB07758F, 0x5FDA15B88D] ++
  [0x5FD9357D0F, 0x5FD74D1D29, 0x5FD4A82E65, 0x5FD26E230C, 0x5FD0911D07, 0x5FCE081D5A, 0x5FCB762560, 0x5FC9572308] ++
  [0x5FC7311996, 0x5FC454C317, 0x5FC1FDEB22, 0x5FC0156A69, 0x5FBD0F928D, 0x5FBA898507, 0x5FB87D9D32, 0x5FB5AAE818] ++
  [0x5FB2FD1EEC]

/-- The knots of SOFTPLUS(-v) at the knots of TANH. -/
def softplusKnots : List Nat :=
  [0x1FF317217F, 0x1FF299216A, 0x1FF21F202B, 0x1FF1A91AC4, 0x1FF1370C41, 0x1FF0C8EDC0, 0x1FF05EB680, 0x1FEFF0B7DD] ++
  [0x1FEF2BA37F, 0x1FEE6E1406, 0x1FEDB7EA7C, 0x1FED090510, 0x1FEC613F4E, 0x1FEBC0725D, 0x1FEB267540, 0x1FEA931D17] ++
  [0x1FEA063D60, 0x1FE97FA835, 0x1FE8FF2E92, 0x1FE884A08C, 0x1FE80FCD94, 0x1FE7410953, 0x1FE66D2930, 0x1FE5A3984A] ++
  [0x1FE4E3F484, 0x1FE42DDC72, 0x1FE380EFA5, 0x1FE2DCCEF7, 0x1FE2411CCC, 0x1FE1AD7D4B, 0x1FE1219691, 0x1FE09D10DA] ++
  [0x1FE01F96AA, 0x1FDE70F5DF, 0x1FDCD3918B, 0x1FDB625E50, 0x1FDA190F0E, 0x1FD8F3AB5D, 0x1FD7DD1BA0, 0x1FD60CC22D] ++
  [0x1FD470387E, 0x1FD301FCD7, 0x1FD1BD144F, 0x1FD09D012D, 0x1FCF3B7263, 0x1FCD77381C, 0x1FCBE6D45B, 0x1FCA8477D1] ++
  [0x1FC94AF286, 0x1FC680DD81, 0x1FC350199B, 0x1FC0D23C38, 0x1FBDC0C6D1, 0x1FBAB8047F, 0x1FB85A4764, 0x1FB5041674] ++
  [0x1FB223F1AB, 0x1FAFCC8D98, 0x1FAC4E92A0, 0x1FA996137C, 0x1FA6EEF7A7, 0x1FA3A1A14D, 0x1FA10F29A7, 0x1F9E1C8D66] ++
  [0x1F9AFD97B4]

/-- The knots of sin(pi j/128). -/
def sinKnots : List Nat :=
  [0x0, 0x1FCC90AAFC, 0x1FD48FB2F9, 0x1FD96A9049, 0x1FDC8BD35E, 0x1FDFAB272B, 0x1FE1640837, 0x1FE2F10A22] ++
  [0x1FE47C5C1E, 0x1FE605C135, 0x1FE78CFCBE, 0x1FE888E931, 0x1FE94A0317, 0x1FEA09AE4A, 0x1FEAC7CD3B, 0x1FEB844298] ++
  [0x1FEC3EF153, 0x1FECF7BCA2, 0x1FEDAE8805, 0x1FEE63374D, 0x1FEF15AE9C, 0x1FEFC5D26E, 0x1FF039C3CD, 0x1FF08F59AA] ++
  [0x1FF0E39D9D, 0x1FF13682A6, 0x1FF187FBFE, 0x1FF1D7FD15, 0x1FF2267993, 0x1FF273655E, 0x1FF2BEB49A, 0x1FF3085BAB] ++
  [0x1FF3504F33, 0x1FF396841C, 0x1FF3DAEF91, 0x1FF41D8706, 0x1FF45E4036, 0x1FF49D1125, 0x1FF4D9F024, 0x1FF514D3D0] ++
  [0x1FF54DB315, 0x1FF584852C, 0x1FF5B941A3, 0x1FF5EBE056, 0x1FF61C5979, 0x1FF64AA591, 0x1FF676BD7A, 0x1FF6A09A69] ++
  [0x1FF6C835E8, 0x1FF6ED89DB, 0x1FF7109082, 0x1FF7314476, 0x1FF74FA0AB, 0x1FF76BA074, 0x1FF7853F7E, 0x1FF79C79D6] ++
  [0x1FF7B14BE8, 0x1FF7C3B27D, 0x1FF7D3AAC0, 0x1FF7E13238, 0x1FF7EC46D2, 0x1FF7F4E6D7, 0x1FF7FB10F2, 0x1FF7FEC430] ++
  [0x1FF8000000]

end Sys2Proof.Machine
end

