-- ==== Sys2Proof/Machine/Functions.lean ====
section
/-! DEFINITION. The special functions in the W-format (04_special_functions.md R86 to R95). -/

namespace Sys2Proof.Machine

open Sys2Proof

/-! ## Tables and segments (R88, R89) -/

/-- A run of equal segments of a table: start, width 2^w, count. -/
structure Run where
  start : Nat
  w : Int
  count : Nat
  deriving DecidableEq, Repr

/-- A table: the knots and its runs. -/
structure Tab where
  knots : List Nat
  runs : List Run

/-- 64 segments of 1/64 from `start`. -/
def unitRuns (start : Nat) : List Run := [⟨start, -6, 64⟩]

/-- The runs of TANH, GELU_TANH, SILU and SOFTPLUS. -/
def tanhRuns : List Run := [⟨0, -4, 32⟩, ⟨2, -3, 16⟩, ⟨4, -2, 16⟩]

/-- EXP2's table. -/
def exp2Tab : Tab := ⟨exp2Knots, unitRuns 0⟩

/-- LOG2's table. -/
def log2Tab : Tab := ⟨log2Knots, unitRuns 1⟩

/-- RECIP's table. -/
def recipTab : Tab := ⟨recipKnots, unitRuns 1⟩

/-- RSQRT's table. -/
def rsqrtTab : Tab := ⟨rsqrtKnots, [⟨1, -5, 32⟩, ⟨2, -4, 32⟩]⟩

/-- SIGMOID's table. -/
def sigmoidTab : Tab := ⟨sigmoidKnots, [⟨0, -3, 32⟩, ⟨4, -2, 16⟩, ⟨8, -1, 16⟩]⟩

/-- TANH's table. -/
def tanhTab : Tab := ⟨tanhKnots, tanhRuns⟩

/-- GELU_TANH's table. -/
def geluTab : Tab := ⟨geluKnots, tanhRuns⟩

/-- SILU's table. -/
def siluTab : Tab := ⟨siluKnots, tanhRuns⟩

/-- SOFTPLUS's table. -/
def softplusTab : Tab := ⟨softplusKnots, tanhRuns⟩

/-- The table of S(r) = sin(pi r / 2). -/
def sinTab : Tab := ⟨sinKnots, unitRuns 0⟩

/-- The knot value y_j. -/
def Tab.knot (t : Tab) (j : Nat) : Num := wVal (BitVec.ofNat 39 (t.knots.getD j 0))

/-- The knot at the end of the table. -/
def Tab.last (t : Tab) : Num := t.knot 64

/-- The floor of a finite value as an integer. -/
def Num.floor : Num → Int
  | .fin n m e => floorNat n m e
  | _ => 0

/-- The segment a table variable falls in: number, start and width exponent; the end of the table belongs to its last
segment. -/
def segOf (v : Num) (base : Nat) : List Run → Nat × Num × Int
  | [] => (0, .zero, 0)
  | r :: rest =>
    let k := ((v.sub (.ofInt r.start)).scale (-r.w)).floor.toNat
    if k < r.count ∨ rest = [] then
      let j := min k (r.count - 1)
      (base + j, (Num.ofInt r.start).add ((Num.ofInt j).scale r.w), r.w)
    else segOf v (base + r.count) rest

/-- y_j + s_j (v - v_j), exact: the slope is the chord's, truncated toward zero into the W-format. -/
def Tab.line (t : Tab) (v : Num) : Num :=
  let (j, vj, w) := segOf v 0 t.runs
  let s := (((t.knot (j + 1)).sub (t.knot j)).scale (-w)).truncBits 28
  (t.knot j).add (s.mul (v.sub vj))

/-- P(v) with the identity term a: one rounding (R88). -/
def Tab.seg (t : Tab) (v a : Num) : WRes := wRound ((t.line v).add a)

/-! ## The functions -/

/-- log2 e to 64 decimal places. -/
def log2e (x : Num) : Num :=
  x.mul ((Num.fin false 14426950408889634073599246810018921374266459541529859341354494069 0).divSticky (.fin false (10 ^ 64) 0))

/-- max(x, 0). -/
def relu (x : Num) : Num :=
  match x with
  | .nan => .nan
  | .inf n => if n then .zero else .inf false
  | .fin n m e => if n || decide (m = 0) then .zero else .fin n m e

/-- EXP2. -/
def wExp2 (x : Num) : WRes :=
  match x with
  | .nan => .pure .nan
  | .inf n => .pure (if n then .zero else .inf false)
  | .fin n m e =>
    if 12 < leadExp m e ∧ m ≠ 0 then (if n then { v := .zero, flush := true } else { v := .inf false, ovf := true })
    else
      let k := floorNat n m e
      (exp2Tab.seg (x.sub (.ofInt k)) .zero).bind (fun p => wRound (p.scale k))

/-- EXP: z = round(x log2 e), then EXP2. Where z is beyond the W-format the result is: above it, or flushed to zero (R91). -/
def wExp (x : Num) : WRes :=
  match x with
  | .fin n _ _ =>
    let z := wRound (log2e x)
    if z.ovf then (if n then { v := .zero, flush := true } else { v := .inf false, ovf := true }) else z.bind wExp2
  | x => wExp2 x

/-- LOG2. -/
def wLog2 (x : Num) : WRes :=
  match x with
  | .nan => .pure .nan
  | .inf n => .pure (if n then .nan else .inf false)
  | .fin n m e =>
    if m = 0 then .pure (.inf true)
    else if n then .pure .nan
    else log2Tab.seg (.fin false m (e - leadExp m e)) (.ofInt (leadExp m e))

/-- RECIP. -/
def wRecip (x : Num) : WRes :=
  match x with
  | .nan => .pure .nan
  | .inf n => .pure (.fin n 0 0)
  | .fin n m e =>
    if m = 0 then .pure (.inf n)
    else (recipTab.seg (.fin false m (e - leadExp m e)) .zero).bind (fun p =>
      wRound ((if n then p.neg else p).scale (-leadExp m e)))

/-- RSQRT. -/
def wRsqrt (x : Num) : WRes :=
  match x with
  | .nan => .pure .nan
  | .inf n => .pure (if n then .nan else .zero)
  | .fin n m e =>
    if m = 0 then .pure (.inf n)
    else if n then .pure .nan
    else
      let k := leadExp m e / 2
      (rsqrtTab.seg (.fin false m (e - 2 * k)) .zero).bind (fun p => wRound (p.scale (-k)))

/-- `x` lies at or beyond a bound in magnitude. -/
def beyond (x : Num) (k : Nat) : Bool := (Num.ofInt k).le x.abs

/-- SIGMOID. -/
def wSigmoid (x : Num) : WRes :=
  if x.isNan then .pure .nan
  else if beyond x 16 then (if x.sign then wSub .one sigmoidTab.last else .pure sigmoidTab.last)
  else if x.sign && !x.isZero then wRound (Num.one.sub (sigmoidTab.line x.abs))
  else sigmoidTab.seg x.abs .zero

/-- TANH. -/
def wTanh (x : Num) : WRes :=
  if x.isNan then .pure .nan
  else
    let p := if beyond x 8 then .pure tanhTab.last else tanhTab.seg x.abs .zero
    { p with v := if x.sign then p.v.neg else p.v }

/-- GELU_TANH. -/
def wGelu (x : Num) : WRes :=
  match x with
  | .nan => .pure .nan
  | .inf n => .pure (if n then .fin true 0 0 else .inf false)
  | x => if beyond x 8 then .pure (relu x) else geluTab.seg x.abs (relu x)

/-- SILU. -/
def wSilu (x : Num) : WRes :=
  match x with
  | .nan => .pure .nan
  | .inf n => .pure (if n then .fin true 0 0 else .inf false)
  | x => if beyond x 8 then (wExp x.abs.neg).bind (fun q => (wMul x.abs q).bind (fun y => wSub (relu x) y))
    else siluTab.seg x.abs (relu x)

/-- The smaller of two values. -/
def Num.min (a b : Num) : Num := if b.lt a then b else a

/-- SOFTPLUS. -/
def wSoftplus (x : Num) : WRes :=
  match x with
  | .nan => .pure .nan
  | .inf n => .pure (if n then .zero else .inf false)
  | x => if beyond x 8 then (wExp x.abs.neg).bind (fun q => wAdd (relu x) (q.min softplusTab.last))
    else softplusTab.seg x.abs (relu x)

/-- S(r) = sin(pi r / 2) on [0, 1]. -/
def wQuarter (r : Num) : WRes := sinTab.seg r .zero

/-- A result with its sign changed. -/
def WRes.neg (a : WRes) : WRes := { a with v := a.v.neg }

/-- Quadrant and remainder of a finite argument in turns (Table 04-3). -/
def turns (t : Num) : Int × Num :=
  let f := t.sub (.ofInt t.floor)
  let q := (f.scale 2).floor
  (q, (f.scale 2).sub (.ofInt q))

/-- SIN_TURNS. -/
def wSin (t : Num) : WRes :=
  if !t.isFin then .pure .nan
  else
    let (q, r) := turns t
    let r' := Num.one.sub r
    match q with
    | 0 => wQuarter r
    | 1 => wQuarter r'
    | 2 => (wQuarter r).neg
    | _ => (wQuarter r').neg

/-- COS_TURNS. -/
def wCos (t : Num) : WRes :=
  if !t.isFin then .pure .nan
  else
    let (q, r) := turns t
    let r' := Num.one.sub r
    match q with
    | 0 => wQuarter r'
    | 1 => (wQuarter r).neg
    | 2 => (wQuarter r').neg
    | _ => wQuarter r

/-- Function codes (Table 04-1), SINCOS_TURNS apart. -/
def sfEval (code : Nat) (x : Num) : WRes :=
  match code with
  | 0x01 => wExp x
  | 0x02 => wExp2 x
  | 0x03 => wLog2 x
  | 0x04 => wRecip x
  | 0x05 => wRsqrt x
  | 0x06 => wSigmoid x
  | 0x07 => wTanh x
  | 0x08 => wGelu x
  | 0x09 => wSilu x
  | 0x0A => wSoftplus x
  | 0x0B => wSin x
  | 0x0C => wCos x
  | 0x0E => .pure (relu x)
  | _ => .pure x

/-- The code is permitted in the epilogue. -/
def epiFunc (code : Nat) : Bool := decide (code ≤ 0x0A) || decide (code = 0x0E)

/-- frac(pos times x), rounded once into the W-format (R95). -/
def posArg (pos : Nat) (x : Num) : Num :=
  match x with
  | .fin _ _ _ =>
    let p := (Num.ofInt pos).mul x
    (wRound (p.sub (.ofInt p.floor))).v
  | _ => .nan

/-- Pairwise sums of neighbours. -/
def pairSums : List WRes → List WRes
  | a :: b :: r => (a.bind (fun x => b.bind (fun y => wAdd x y))) :: pairSums r
  | l => l

/-- tree(acc) of R102: six levels of pairwise sums over 64 lanes. -/
def treeSum (acc : List WRes) : WRes :=
  ((pairSums (pairSums (pairSums (pairSums (pairSums (pairSums acc)))))).head?).getD (.pure .zero)

/-- Add a value to lane j mod 64. -/
def laneAdd (acc : List WRes) (j : Nat) (v : WRes) : List WRes :=
  acc.modify (j % 64) (fun a => a.bind (fun x => v.bind (fun y => wAdd x y)))

/-- 64 lanes of +0. -/
def lanes64 : List WRes := List.replicate 64 (.pure .zero)

end Sys2Proof.Machine
end

