-- ==== Sys2Proof/Machine/CoreOps.lean ====
section
/-! DEFINITION. What the core operations share: core-store ranges and their checks, packed runs, row operands
(03_cores_and_arrays.md R64 to R68, 04_special_functions.md R97, R101). -/

namespace Sys2Proof.Machine

open Sys2Proof

/-! ## Ranges of the core store -/

/-- A core-store range an operation names: the offset of the field that names it, its bytes, and whether it is written. -/
structure CoreRange where
  off : Nat
  addr : Nat
  len : Nat
  wr : Bool := false
  /-- Strided runs of `run` bytes, `step` apart; 0 for one run. -/
  run : Nat := 0
  step : Nat := 0

/-- The runs of a range: address and bytes. -/
def CoreRange.pieces (r : CoreRange) : List (Nat × Nat) :=
  if r.step = 0 ∨ r.len ≤ r.run then [(r.addr, r.len)]
  else (List.range ((r.len - r.run) / r.step + 1)).map (fun k => (r.addr + k * r.step, r.run))

/-- First address after the work area (Table 03-3). -/
def State.workEnd (s : State) : Nat := coreStoreBytes - s.settings.vestibuleKib * 1024

/-- The range lies wholly in the work area; an empty range names nothing. -/
def State.inWork (s : State) (a n : Nat) : Bool := decide (n = 0) || (decide (0x10000 ≤ a) && decide (a + n ≤ s.workEnd))

/-- REJECT_LIMIT checks of ranges outside the work area (R64). -/
def State.rangeChecks (s : State) (l : List CoreRange) : List Check := l.map (fun r => (!s.inWork r.addr r.len, .rejectLimit, r.off))

/-- Two byte ranges meet. -/
def meets (a n b m : Nat) : Bool := decide (0 < n) && decide (0 < m) && decide (a < b + m) && decide (b < a + n)

/-- Bytes from the first to the last of `k` runs of `n` bytes, `stride` apart. -/
def spanBytes (stride n k : Nat) : Nat := if k = 0 ∨ n = 0 then 0 else (k - 1) * stride + n

/-! ## Running on a core -/

/-- Bytes of a core's store as a work order reads them. -/
abbrev Reader := Nat → Nat → List Byte

/-- The reader of a work order on a core. -/
def State.reader (s : State) (pair ord : Nat) : Reader := fun a n => (s.core pair).readStore ord a n

/-- Read runs of the core store: the first uncorrectable word stops. -/
def State.guardRuns (s : State) (pair ord : Nat) : List (Nat × Nat) → Option Ending × State
  | [] => (none, s)
  | r :: rest =>
    let (_, io) := s.loadCore pair ord r.1 r.2
    match io.stop with
    | some e => (some e, io.s)
    | none => State.guardRuns io.s pair ord rest

/-- Read every range an operation reads before it starts: the first uncorrectable word ends it, corrected ones are
counted (R68). -/
def State.coreGuard (s : State) (pair ord : Nat) (l : List CoreRange) : Option Ending × State :=
  s.guardRuns pair ord ((l.filter (fun r => !r.wr)).flatMap CoreRange.pieces)

/-- A work order starts on a core: nothing of another order is seen (R63, R66). -/
def vaultLostEnding (pair : Nat) : Ending :=
  { status := .vaultLost, detail := BitVec.ofNat 32 pair, result := BitVec.ofNat 64 (modAddr pair 0) }

/-- Store the results of a core operation, in order, when it completes. -/
def State.storeLate (s : State) (ws : List (Nat × List Byte)) : State :=
  s.putOff (ws.map (fun w => { space := 0, addr := w.1, bytes := w.2 }))

/-- Some result that an operation in flight on a core is still to write lies in a range (R67). -/
def State.lateMeets (s : State) (pair : Nat) (rs : List CoreRange) : Bool :=
  s.warden.tags.any (fun c => (c.order.map (fun o => o.ops.any (fun x => x.phase.inFlight && decide (opPair x.desc = pair)
    && x.late.any (fun w => decide (w.space = 0) && rs.any (fun r => r.pieces.any (fun p => meets p.1 p.2 w.addr w.bytes.length)))))).getD false)

/-- An operation of a core whose ranges meet what another is still to write there waits for it (R67). -/
def State.serialized (s : State) (pair : Nat) (rs : List CoreRange) : State :=
  if s.lateMeets pair rs then { s with run := { s.run with stalled := true } } else s

/-- Run an operation of a core: a core lost since admission ends it VAULT_LOST (01_seven_levels.md R31), a zero length ends
it DONE_EMPTY (R16), a range no longer in the work area REJECT_LIMIT (R65), an unreadable word MEMORY_UNCORRECTABLE. -/
def State.runCore (s : State) (k : OpKind) (tag i : Nat) (zero : List Byte → Bool) (ranges : List Byte → List CoreRange)
    (body : OpCtx → State → State × Ending) : State :=
  s.runOp k tag i (fun c t =>
    if !t.pairPresent c.pair then (t, vaultLostEnding c.pair)
    else if zero c.d then (t, { status := .doneEmpty })
    else match firstFault .descriptor (t.rangeChecks (ranges c.d)) with
      | some (st, d) => (t, { status := st, detail := d })
      | none =>
        match (t.serialized c.pair (ranges c.d)).coreGuard c.pair c.ord (ranges c.d) with
        | (some e, u) => (u, e)
        | (none, u) => body c u)

/-! ## Packed runs -/

/-- `n` elements of `w` bits packed from address `a`. -/
def Reader.run (rd : Reader) (w a n : Nat) : List Nat :=
  let bs := rd a (packedBytes w n)
  (List.range n).map (fun k => elemBits bs w k)

/-- The bytes of a written run: bits of its last byte that no element covers keep what they hold. -/
def Reader.pack (rd : Reader) (w a : Nat) (es : List Nat) : List Byte :=
  let used := w * es.length % 8
  let n := packedBytes w es.length
  if used = 0 then packElems w es
  else leBytes n (leNat (packElems w es) + leNat (rd (a + n - 1) 1) / 2 ^ used * 2 ^ used * 256 ^ (n - 1))

/-- Blocks of 32 that `n` elements take. -/
def blocks32 (n : Nat) : Nat := (n + 31) / 32

/-- A value into the special-function unit: a scaled format's per-tensor scale is applied with one rounding (R86). -/
def wIn (f : Fmt) (scale : Nat) (v : Num) : Num := if f.scaled then (wMul v (fp32 scale)).v else v

/-- Values of elements `0 … n - 1` of one run with MX block b's scale at `sc b`. -/
def runVals (f : Fmt) (es : List Nat) (sc : Nat → Nat) : List Num :=
  (es.zipIdx).map (fun (e, k) => if f.mx then mxVal (f.val e) (sc (k / 32)) else f.val e)

/-- NAN_IN over some values. -/
def nanIn (l : List Num) : BitVec 8 := setFlag 0 .nanIn (l.any Num.isNan)

/-- A row converted for output: element bits, scale bytes, flags. -/
structure OutRow where
  elems : List Nat
  scales : List Nat
  flags : BitVec 8

/-- The pieces of 32 of a list. -/
def chunks32 {α : Type} (l : List α) : List (List α) := (List.range (blocks32 l.length)).map (fun b => (l.drop (32 * b)).take 32)

/-- Convert a row (R53, R55): values with whether each came from a flushed result; `draw k` is the draw of element k. -/
def outRow (f : Fmt) (recip : Num) (c : Conv) (draw : Nat → Nat) (vs : List WRes) : OutRow :=
  let r : OutRow :=
    if f.mx then
      let bl := ((chunks32 (vs.map (·.v))).zipIdx).map (fun (x, b) => f.mxBlock c (fun k => draw (32 * b + k)) x)
      { elems := bl.flatMap (·.elems), scales := bl.map (·.scale), flags := bl.foldl (fun g x => g ||| x.flags) 0 }
    else
      let st := (vs.zipIdx).map (fun (x, k) => f.convert c (draw k) (x.v.mul recip))
      { elems := st.map (·.bits), scales := [], flags := st.foldl (fun g x => g ||| x.flags) 0 }
  { r with
    flags := setFlag (setFlag r.flags .wOverflow (vs.any (·.ovf))) .underflowZero
        ((vs.zip r.elems).any (fun (x, e) => x.flush && (f.val e).isZero)) }

/-! ## Row operands (R101) -/

/-- A row operand. -/
structure RowOp where
  base : Nat
  stride : Nat
  fmt : Fmt
  scale : Nat
  layout : Nat
  cplx : Bool := false

/-- Bits of one element, a complex pair counting as one (R41). -/
def RowOp.width (o : RowOp) : Nat := if o.cplx then 2 * o.fmt.bits else o.fmt.bits

/-- The row operand of a strided field group. -/
def rowOp (d : List Byte) (off layout : Nat) : RowOp :=
  let x := strided d off
  { base := x.base, stride := x.stride, fmt := ((fmtByte x.fmt).map (·.fmt)).getD .fp32, scale := x.scale, layout := layout }

/-- Address of the MX scale of block b of row r. -/
def RowOp.scaleAt (o : RowOp) (n r b : Nat) : Nat :=
  if o.layout = 0 then o.scale + r * blocks32 n + b else o.scale + 64 * b + r

/-- Bytes of the elements and of the scales that an operand of `n` elements and `rows` rows spans. -/
def RowOp.spans (o : RowOp) (n rows : Nat) : Nat × Nat :=
  if o.layout = 0 then
    (spanBytes o.stride (packedBytes o.width n) rows, if o.fmt.mx then rows * blocks32 n else 0)
  else
    (spanBytes o.stride (packedBytes o.width rows) n, if o.fmt.mx then spanBytes 64 rows (blocks32 n) else 0)

/-- Elements of a written operand with the positions of its final partial block (R44). -/
def RowOp.padded (o : RowOp) (n : Nat) : Nat := if o.fmt.mx then 32 * blocks32 n else n

/-- Bytes of the elements that an operand spans when it is written: the positions of a final partial block count, in layout 0
as far as the stride goes (notes/assumptions/25.md). -/
def RowOp.written (o : RowOp) (n rows : Nat) : Nat :=
  if o.layout = 0 then
    (if o.fmt.mx then spanBytes o.stride (min o.stride (packedBytes o.width (o.padded n))) rows else (o.spans n rows).1)
  else spanBytes o.stride (packedBytes o.width rows) (o.padded n)

/-- The ranges of an operand whose X_BASE field lies at `off`. -/
def RowOp.ranges (o : RowOp) (off n rows : Nat) (wr : Bool) : List CoreRange :=
  [{ off := off, addr := o.base, len := if wr then o.written n rows else (o.spans n rows).1, wr := wr, step := o.stride,
     run := if wr && decide (o.layout = 0) && o.fmt.mx then min o.stride (packedBytes o.width (o.padded n))
            else packedBytes o.width (if o.layout = 0 then n else rows) },
   { off := off + 16, addr := o.scale, len := (o.spans n rows).2, wr := wr, step := if o.layout = 0 then 0 else 64, run := rows }]

/-- Row r of an operand as W-format values. -/
def RowOp.read (o : RowOp) (rd : Reader) (n rows r : Nat) : List Num :=
  let es := if o.layout = 0 then rd.run o.width (o.base + r * o.stride) n
    else (List.range n).map (fun j => elemBits (rd (o.base + j * o.stride) (packedBytes o.width rows)) o.width r)
  (runVals o.fmt es (fun b => leNat (rd (o.scaleAt n r b) 1))).map (wIn o.fmt (o.scale % 2 ^ 32))

/-- The writes of converted rows (R44: the positions of a final partial block beyond the row are written as zero, in layout 0
within the stride; notes/assumptions/25.md). -/
def RowOp.writes (o : RowOp) (rd : Reader) (n : Nat) (rows : List OutRow) : List (Nat × List Byte) :=
  let w := o.width
  let elems : List (Nat × List Byte) :=
    if o.layout = 0 then
      (rows.zipIdx).map (fun (x, r) =>
        let a := o.base + r * o.stride
        if o.fmt.mx then (a, (packElems w (x.elems ++ List.replicate (32 * blocks32 n - n) 0)).take o.stride)
        else (a, rd.pack w a x.elems))
    else
      (List.range (o.padded n)).map (fun j =>
        (o.base + j * o.stride, rd.pack w (o.base + j * o.stride) (rows.map (fun x => x.elems.getD j 0))))
  let scales : List (Nat × List Byte) :=
    (rows.zipIdx).flatMap (fun (x, r) => (x.scales.zipIdx).map (fun (v, b) => (o.scaleAt n r b, leBytes 1 v)))
  elems ++ scales

/-- A storage format except FP64, without CPLX. -/
def rowFmtBad (v : Nat) : Bool :=
  match fmtByte v with
  | none => true
  | some b => b.cplx || decide (b.fmt = .fp64)

/-- The scale field of an operand in a valid format breaks R46: 8 bytes, an FP32 scale with its upper half zero (R248). -/
def scaleBad (fmt scale : Nat) : Bool :=
  match fmtByte fmt with
  | some b => !b.fmt.mx && (!scaleOk b.fmt (scale % 2 ^ 32) || decide (2 ^ 32 ≤ scale))
  | none => false

/-- A stride breaks R101 for an operand. -/
def RowOp.strideBad (o : RowOp) (n rows : Nat) : Bool :=
  decide (o.stride % 32 ≠ 0) || decide (o.stride < packedBytes o.width (if o.layout = 0 then n else rows))

/-- Input and output ranges meet without coinciding exactly (R97): the ranges are taken from the first byte to the last, so
strided rows that interleave without a common byte count as meeting (notes/assumptions/56.md). -/
def RowOp.clashes (a b : RowOp) (n rows : Nat) : Bool :=
  meets a.base (a.spans n rows).1 b.base (b.spans n rows).1
    && !(decide (a.base = b.base) && decide (a.stride = b.stride) && decide (a.width = b.width))

/-- An FP32 field that must be finite is not. -/
def notFinite (v : Nat) : Bool := !(fp32 v).isFin

/-- The free values of an operation's conversions: stochastic draws, and signs of NaN into E4M3. The core's generator starts
from SR_SEED, or from its own state where that is 0; the draws and the state they leave are free, because their order is not
promised (02_number_formats.md R54). -/
def State.convDraws (s : State) (pair rule seed : Nat) : (Nat → Nat) × State :=
  let (pick, t) := s.drawMany
  let next (g : BitVec 32) : BitVec 32 := if rule % 4 = 1 then BitVec.ofNat 32 (pick (2 ^ 40)) else if seed = 0 then g else BitVec.ofNat 32 seed
  (pick, t.setCore pair (fun c => { c with gen := next c.gen }))

end Sys2Proof.Machine
end

