-- ==== Sys2Proof/Machine/Arrays.lean ====
section
/-! DEFINITION. The outer-product arrays and the array product MM (03_cores_and_arrays.md R60 to R85,
04_special_functions.md R98, R99, packed under 09_work_orders.md Table 09-6). -/

namespace Sys2Proof.Machine

open Sys2Proof

/-! ## Widths (R72, R78) -/

/-- Width of array i of a core. -/
def Core.arrayWidth (c : Core) (i : Nat) : Nat :=
  let v := bits c.arrays.toNat (4 * i) 4
  if v ≤ 3 then 64 - 4 * v else 0

/-- W_core. -/
def Core.width (c : Core) : Nat := c.arrayWidth 0 + c.arrayWidth 1 + c.arrayWidth 2 + c.arrayWidth 3

/-- The array and the column within it that serve result column n: working arrays in ascending number. -/
def Core.column (c : Core) (n : Nat) : Nat × Nat :=
  let w0 := c.arrayWidth 0
  let w1 := c.arrayWidth 1
  let w2 := c.arrayWidth 2
  if n < w0 then (0, n) else if n < w0 + w1 then (1, n - w0)
  else if n < w0 + w1 + w2 then (2, n - w0 - w1) else (3, n - w0 - w1 - w2)

/-- The arrays that serve some of the columns 0 … n - 1. -/
def Core.arraysFor (c : Core) (n : Nat) : List Nat := ([0, 1, 2, 3]).filter (fun a => (List.range n).any (fun k => decide ((c.column k).1 = a)))

/-! ## Product kinds (Table 03-6) -/

/-- The kinds of product. -/
inductive MmKind where
  | real
  | cplx (wide : Bool)
  | fp32
  | fp64
  deriving DecidableEq, Repr

/-- A 16-bit operand format. -/
def Fmt.is16 (f : Fmt) : Bool := decide (f = .fp16) || decide (f = .bf16)

/-- A format the arrays take in one pass (Table 02-1). -/
def Fmt.arrayOperand (f : Fmt) : Bool := !(decide (f = .fp32) || decide (f = .fp64) || decide (f = .wc64))

/-- The kind a pairing selects; none is outside Table 03-6 and R51. -/
def mmKind (fa fb : Nat) : Option MmKind :=
  match fmtByte fa, fmtByte fb with
  | some a, some b =>
    if a.cplx ≠ b.cplx then none
    else if a.cplx then
      if a.fmt = .fp32 ∧ b.fmt = .fp32 then some (.cplx true)
      else if a.fmt = .fp32 ∨ b.fmt = .fp32 then none
      else some (.cplx false)
    else if a.fmt = .fp32 ∧ b.fmt = .fp32 then some .fp32
    else if a.fmt = .fp64 ∧ b.fmt = .fp64 then some .fp64
    else if a.fmt.arrayOperand ∧ b.fmt.arrayOperand ∧ a.fmt.is16 = b.fmt.is16 then some .real
    else none
  | _, _ => none

/-- Whether a kind permits a result format. -/
def MmKind.result (k : MmKind) (c : FmtByte) : Bool :=
  match k with
  | .real => !c.cplx && !(decide (c.fmt = .fp64) || decide (c.fmt = .wc64))
  | .cplx false => c.cplx
  | .cplx true => c.cplx && decide (c.fmt = .fp32)
  | .fp32 => !c.cplx && (decide (c.fmt = .fp32) || c.fmt.is16)
  | .fp64 => !c.cplx && (decide (c.fmt = .fp64) || decide (c.fmt = .fp32))

/-- Tiles used in each array. -/
def MmKind.tiles (k : MmKind) (direct : Bool) : Nat :=
  match k with
  | .cplx _ => if direct then 2 else 3
  | _ => 1

/-- Scratch in bytes. -/
def MmKind.scratch (k : MmKind) (direct : Bool) : Nat :=
  match k with
  | .real => 0
  | .cplx false => if direct then 0 else 96 * 1024
  | .cplx true => if direct then 192 * 1024 else 288 * 1024
  | .fp32 => 192 * 1024
  | .fp64 => 416 * 1024

/-! ## The descriptor -/

/-- MM_M, MM_N, MM_K. -/
def mmM (d : List Byte) : Nat := field d 138 1
/-- MM_N. -/
def mmN (d : List Byte) : Nat := field d 136 2
/-- MM_K. -/
def mmK (d : List Byte) : Nat := field d 116 4
/-- MM_CTRL. -/
def mmCtrl (d : List Byte) : Nat := field d 144 1
/-- MM_CLEAR. -/
def mmClear (d : List Byte) : Bool := bit (mmCtrl d) 0
/-- MM_READOUT. -/
def mmReadout (d : List Byte) : Bool := bit (mmCtrl d) 1
/-- MM_CPLX_FORM: the direct form. -/
def mmDirect (d : List Byte) : Bool := bit (mmCtrl d) 3
/-- MM_B_SPACE. -/
def mmSpace (d : List Byte) : Nat := bits (mmCtrl d) 4 2
/-- The kind of the product; real where the pairing is rejected. -/
def mmKindOf (d : List Byte) : MmKind := (mmKind (field d 139 1) (field d 140 1)).getD .real
/-- The byte of a format, FP32 where it is rejected. -/
def mmFmt (d : List Byte) (off : Nat) : FmtByte := (fmtByte (field d off 1)).getD { fmt := .fp32, cplx := false }
/-- Some dimension is 0 (R74). -/
def mmEmpty (d : List Byte) : Bool := decide (mmM d = 0) || decide (mmN d = 0) || decide (mmK d = 0)

/-- A: rows of k as runs, as a row operand of layout 1 (Table 03-4). -/
def mmA (d : List Byte) : RowOp :=
  { base := field d 48 8, stride := field d 104 4, fmt := (mmFmt d 139).fmt, scale := field d 56 8, layout := 1, cplx := (mmFmt d 139).cplx }

/-- C in the same layout. -/
def mmC (d : List Byte) : RowOp :=
  { base := field d 80 8, stride := field d 112 4, fmt := (mmFmt d 141).fmt, scale := field d 88 8, layout := 1, cplx := (mmFmt d 141).cplx }

/-- The residual in the layout of C. -/
def mmRes (d : List Byte) : RowOp :=
  { base := field d 168 8, stride := field d 176 4, fmt := (mmFmt d 148).fmt, scale := field d 184 8, layout := 1, cplx := (mmFmt d 148).cplx }

/-- Bits of one element of B. -/
def mmBWidth (d : List Byte) : Nat := if (mmFmt d 140).cplx then 2 * (mmFmt d 140).fmt.bits else (mmFmt d 140).fmt.bits

/-- Bits of one element of the bias. -/
def mmBiasWidth (d : List Byte) : Nat := if (mmFmt d 146).cplx then 2 * (mmFmt d 146).fmt.bits else (mmFmt d 146).fmt.bits

/-- Some epilogue step is enabled. -/
def mmEpi (d : List Byte) : Bool :=
  decide (field d 145 1 ≠ 0) || decide (field d 152 8 ≠ 0) || decide (field d 147 1 ≠ 0) || decide (field d 168 8 ≠ 0)

/-- The runs of B in module or far-tier memory: address and bytes. -/
def mmBRuns (d : List Byte) : List (Nat × Nat) :=
  (List.range (mmK d)).map (fun k => (field d 64 8 + k * field d 108 4, packedBytes (mmBWidth d) (mmN d)))

/-- Core-store ranges named before the geometry fields of the descriptor: A, B, C and the scratch. -/
def mmRanges1 (d : List Byte) : List CoreRange :=
  let m := mmM d
  let n := mmN d
  let k := mmK d
  let a := mmA d
  let c := mmC d
  let bw := packedBytes (mmBWidth d) n
  let ab : List CoreRange :=
    [{ off := 48, addr := a.base, len := (a.spans k m).1, step := a.stride, run := packedBytes a.width m },
     { off := 56, addr := a.scale, len := (a.spans k m).2, step := 64, run := m },
     { off := 64, addr := field d 64 8, len := if mmSpace d = 0 then spanBytes (field d 108 4) bw k else 0, step := field d 108 4, run := bw },
     { off := 72, addr := field d 72 8, len := if (mmFmt d 140).fmt.mx then spanBytes 256 n (blocks32 k) else 0, step := 256, run := n }]
  let cc : List CoreRange := if !mmReadout d then [] else
    [{ off := 80, addr := c.base, len := c.written n m, wr := true }, { off := 88, addr := c.scale, len := (c.spans n m).2, wr := true }]
  ab ++ cc ++ [{ off := 96, addr := field d 96 8, len := (mmKindOf d).scratch (mmDirect d), wr := true }]

/-- Core-store ranges of the epilogue. -/
def mmRanges2 (d : List Byte) : List CoreRange :=
  let n := mmN d
  if !mmReadout d then []
  else
    [{ off := 152, addr := field d 152 8, len := if field d 152 8 = 0 then 0 else packedBytes (mmBiasWidth d) n },
     { off := 160, addr := field d 160 8, len := if field d 147 1 = 2 then 4 * n else 0 },
     { off := 168, addr := (mmRes d).base, len := if field d 168 8 = 0 then 0 else ((mmRes d).spans n (mmM d)).1,
       step := (mmRes d).stride, run := packedBytes (mmRes d).width (mmM d) },
     { off := 184, addr := (mmRes d).scale, len := if field d 168 8 = 0 then 0 else ((mmRes d).spans n (mmM d)).2, step := 64, run := mmM d }]

/-- Every core-store range of an array product. -/
def mmRanges (d : List Byte) : List CoreRange := mmRanges1 d ++ mmRanges2 d

/-- The first epilogue field that is not 0. -/
def mmEpiField (d : List Byte) : Option Nat :=
  ([(145, 1), (146, 1), (147, 1), (148, 1), (152, 8), (160, 8), (168, 8), (176, 4), (180, 4), (184, 8)] : List (Nat × Nat)).find?
    (fun e => decide (field d e.1 e.2 ≠ 0)) |>.map (·.1)

/-- Bias formats: FP32, BF16 or FP16, complex exactly for complex results. -/
def mmBiasBad (d : List Byte) : Bool :=
  match fmtByte (field d 146 1) with
  | some b => !(decide (b.fmt = .fp32) || b.fmt.is16) || decide (b.cplx ≠ (mmFmt d 141).cplx)
  | none => true

/-- Residual formats: any storage format but FP64; for complex results the format of C. -/
def mmResBad (d : List Byte) : Bool :=
  if (mmFmt d 141).cplx then decide (field d 148 1 ≠ field d 141 1) else rowFmtBad (field d 148 1)

/-- An address of space 1 that is no device address of that space (07_vaults_and_protection.md R171, 09_work_orders.md R508):
at or above the far-tier aperture, below 2^48, where R170 rules. -/
def spaceOneBad (a : Nat) : Bool := decide (farBase ≤ a) && decide (a < 2 ^ 48)

/-- The module or far-tier runs of B lead to memory (R31, R170, R171); the base does where no run is left (00_scope.md R17). -/
def State.mmBReach (s : State) (d : List Byte) : Bool :=
  let runs := if mmK d = 0 then [(field d 64 8, 0)] else mmBRuns d
  decide (1048575 < mmK d) || (match mmSpace d with
    | 1 => runs.all (fun r => decide (r.1 + max r.2 1 ≤ farBase) && s.reachableRange r.1 r.2)
    | 2 => runs.all (fun r => decide (r.1 + max r.2 1 ≤ s.geo.farTierMib * 2 ^ 20))
    | _ => true)

/-- The checks of the result's fields, made only with MM_READOUT (R69). -/
def mmCBad (d : List Byte) (b : Bool) : Bool := mmReadout d && b

/-- The admission checks of MM (R46, R51, R52, R64, R69, R71, R79, R97, R99). EPI_BIAS_FMT is looked at where EPI_BIAS_BASE
names a bias, also for a complex result (notes/assumptions/56.md). -/
def mmChecks (s : State) (d : List Byte) : List Check :=
  let m := mmM d
  let n := mmN d
  let ro := mmReadout d
  let bias := ro && decide (field d 152 8 ≠ 0)
  let res := ro && decide (field d 168 8 ≠ 0)
  let strideBad (st w : Nat) (k : Nat) : Bool := decide (st % 32 ≠ 0) || decide (st < packedBytes w k)
  let aOk := (fmtByte (field d 139 1)).isSome
  let bOk := (fmtByte (field d 140 1)).isSome
  let cOk := (fmtByte (field d 141 1)).any (mmKindOf d).result
  let resOk := !mmResBad d
  [(decide (field d 48 8 % 32 ≠ 0), .rejectFormat, 48), (decide (field d 64 8 % 32 ≠ 0) || (decide (mmSpace d = 1) && spaceOneBad (field d 64 8)), .rejectFormat, 64),
   (mmCBad d (decide (field d 80 8 % 32 ≠ 0)), .rejectFormat, 80), (aOk && strideBad (field d 104 4) (mmA d).width m, .rejectFormat, 104),
   (bOk && strideBad (field d 108 4) (mmBWidth d) n, .rejectFormat, 108),
   (mmCBad d (cOk && strideBad (field d 112 4) (mmC d).width m), .rejectFormat, 112), (decide (1048575 < mmK d), .rejectFormat, 116),
   (aOk && !scaleOk (mmFmt d 139).fmt (field d 120 4), .rejectFormat, 120), (bOk && !scaleOk (mmFmt d 140).fmt (field d 124 4), .rejectFormat, 124),
   (mmCBad d (cOk && !scaleOk (mmFmt d 141).fmt (field d 128 4)), .rejectFormat, 128),
   ((fmtByte (field d 139 1)).isNone, .rejectFormat, 139), ((mmKind (field d 139 1) (field d 140 1)).isNone, .rejectFormat, 140),
   (mmCBad d !cOk, .rejectFormat, 141),
   (mmCBad d (convBad (field d 142 1)), .rejectFormat, 142), (decide (3 < field d 143 1), .rejectFormat, 143),
   (decide (mmSpace d = 3), .rejectFormat, 144), (!ro && (mmEpiField d).isSome, .rejectFormat, (mmEpiField d).getD 145)] ++
  [(ro && (!epiFunc (field d 145 1) || ((mmFmt d 141).cplx && decide (field d 145 1 ≠ 0))), .rejectFormat, 145),
   (bias && mmBiasBad d, .rejectFormat, 146), (ro && decide (2 < field d 147 1), .rejectFormat, 147), (res && mmResBad d, .rejectFormat, 148),
   (res && (decide (field d 168 8 % 32 ≠ 0) || (cOk && resOk && (mmC d).clashes (mmRes d) n m)), .rejectFormat, 168),
   (res && resOk && strideBad (field d 176 4) (mmRes d).width m, .rejectFormat, 176),
   (ro && decide (field d 147 1 = 1) && notFinite (field d 180 4), .rejectFormat, 180),
   (res && resOk && scaleBad (field d 148 1) (field d 184 8), .rejectFormat, 184)] ++ s.rangeChecks ((mmRanges1 d).take 2) ++
  [(!s.mmBReach d, .rejectLimit, 64)] ++ s.rangeChecks ((mmRanges1 d).drop 2) ++
  [(decide ((s.core (opPair d)).width < n), .rejectLimit, 136), (decide (64 < m), .rejectLimit, 138)] ++ s.rangeChecks (mmRanges2 d) ++
  [(decide (mmSpace d = 1) && decide (mmK d ≤ 1048575) && (mmBRuns d).any (fun r => s.rangeInPool r.1 r.2), .rejectState, 64)]

/-! ## Sums (R49, R59) -/

/-- The elements of a list with element i apart. -/
def takeOut {α : Type} (l : List α) (i : Nat) : List α := l.take i ++ l.drop (i + 1)

/-- A sum with one rounding per addition, in an order and a split into partial sums that are free: two items are chosen
and replaced by their rounded sum until one is left (notes/assumptions/12.md). -/
def freeSumFrom (rnd : Num → Num) (pick : Nat → Nat) : Nat → List Num → Num
  | 0, l => rnd (l.headD .zero)
  | n + 1, l =>
    match l with
    | [] => .zero
    | [x] => rnd x
    | l =>
      let i := pick (3 * n) % l.length
      let r := takeOut l i
      let j := pick (3 * n + 1) % r.length
      let a := rnd (l.getD i .zero)
      let b := r.getD j .zero
      freeSumFrom rnd pick n (rnd (a.add (if pick (3 * n + 2) % 2 = 0 then b else rnd b)) :: takeOut r j)

/-- A free sum; zeros change only the sign of a zero sum. -/
def freeSum (rnd : Num → Num) (pick : Nat → Nat) (l : List Num) : Num :=
  let nz := l.filter (fun x => !x.isZero)
  if nz = [] then .fin (l.all (fun x => x.sign) && !l.isEmpty) 0 0 else freeSumFrom rnd pick nz.length nz

/-- A product as an addend: beyond the FP32 range it is an infinity (R49). -/
def addend (p : Num) : Num := if (Num.fin false (2 ^ 24 - 1) 104).lt p.abs then .inf p.sign else p

/-! ## Products -/

/-- BF16 rounding to nearest even. -/
def bf16Round (x : Num) : Num := Fmt.bf16.roundIn x

/-- The two pieces of an FP32 operand (R81). -/
def pieces32 (x : Num) : Num × Num :=
  let h := bf16Round x
  (h, if x.isFin then bf16Round (x.sub h) else .zero)

/-- The real products of two operands: one, or the three passes of R81, each with the special values of R57: an infinity
times the zero low piece of the other operand is NaN (notes/assumptions/56.md). -/
def prods (wide : Bool) (x y : Num) : List Num :=
  if wide then
    let (xh, xl) := pieces32 x
    let (yh, yl) := pieces32 y
    [addend (xh.mul yh), addend (xh.mul yl), addend (xl.mul yh)]
  else [addend (x.mul y)]

/-- The addends of one k-step for each tile of a kind (R60, R81, R82); the FP64-class adds none here. -/
def mmStep (k : MmKind) (direct : Bool) (fa fb : Fmt) (a w : Num × Num) : List (List Num) :=
  match k with
  | .real => [prods false a.1 w.1]
  | .fp32 => [prods true a.1 w.1]
  | .cplx wide =>
    if direct then
      [prods wide a.1 w.1 ++ prods wide a.2 w.2.neg, prods wide a.1 w.2 ++ prods wide a.2 w.1]
    else
      let p := fa.roundIn (a.1.add a.2)
      let q := fb.roundIn (w.2.sub w.1)
      let s := fb.roundIn (w.1.add w.2)
      [prods wide p w.1, prods wide a.1 q, prods wide a.2 s]
  | .fp64 => [[]]

/-! ### The FP64 class (R83, R84) -/

/-- A block's scale exponent e + 1, for a block with a nonzero largest magnitude. -/
def blockExp (xs : List Num) : Option Int :=
  match xs.foldl maxAbs Num.zero with
  | .fin _ m e => if m = 0 then none else some (leadExp m e + 1)
  | _ => none

/-- The seven digits of an element under a block exponent, signed. -/
def sliceDigits (e : Int) (x : Num) : List Int :=
  match x with
  | .fin n m ex =>
    let q := quantaRz m ex (e - 49)
    (List.range 7).map (fun i => let g : Int := (q / 128 ^ (6 - i) % 128 : Nat); if n then -g else g)
  | _ => List.replicate 7 0

/-- The slice pairs (i, j), from 1, with i + j at most 8: the 28 passes. -/
def slicePairs : List (Nat × Nat) := (List.range 7).flatMap (fun i => (List.range (7 - i)).map (fun j => (i + 1, j + 1)))

/-- The addends one block of 64 gives a combine element. -/
def blockAddends (xs ys : List Num) : List Num :=
  if (xs ++ ys).any (fun v => !v.isFin) then [.nan]
  else match blockExp xs, blockExp ys with
    | some ea, some eb =>
      let da := xs.map (sliceDigits ea)
      let db := ys.map (sliceDigits eb)
      slicePairs.map (fun (i, j) =>
        let sum := ((da.zip db).map (fun (p, q) => p.getD (i - 1) 0 * q.getD (j - 1) 0)).foldl (· + ·) 0
        (Num.ofInt sum).scale (ea + eb - 7 * ((i : Int) + j)))
    | _, _ => slicePairs.map (fun _ => Num.zero)

/-- Pieces of 64 of a list. -/
def chunks64 {α : Type} (l : List α) : List (List α) := (List.range ((l.length + 63) / 64)).map (fun b => (l.drop (64 * b)).take 64)

/-- The addends of one element: all its blocks. -/
def fp64Addends (xs ys : List Num) : List Num := ((chunks64 xs).zip (chunks64 ys)).flatMap (fun (x, y) => blockAddends x y)

/-! ## Operands -/

/-- Element k of packed bytes as a pair of values. -/
def pairOf (f : Fmt) (cplx : Bool) (bs : List Byte) (k : Nat) : Num × Num :=
  if cplx then (f.val (elemBits bs f.bits (2 * k)), f.val (elemBits bs f.bits (2 * k + 1))) else (f.val (elemBits bs f.bits k), .zero)

/-- A value pair under a block scale. -/
def mxPair (f : Fmt) (p : Num × Num) (s : Nat) : Num × Num := if f.mx then (mxVal p.1 s, p.2) else p

/-- a[m][k] for every m < M of one k, from A's run and its scales. -/
def mmColA (rd : Reader) (d : List Byte) (k : Nat) : List (Num × Num) :=
  let o := mmA d
  let bs := rd (o.base + k * o.stride) (packedBytes o.width (mmM d))
  (List.range (mmM d)).map (fun m => mxPair o.fmt (pairOf o.fmt o.cplx bs m) (leNat (rd (o.scale + 64 * (k / 32) + m) 1)))

/-- w[k][n] for every n of one k, from B's run and its scales. -/
def mmRowB (rd : Reader) (d : List Byte) (k : Nat) (bs : List Byte) : List (Num × Num) :=
  let f := mmFmt d 140
  (List.range (mmN d)).map (fun n => mxPair f.fmt (pairOf f.fmt f.cplx bs n) (leNat (rd (field d 72 8 + 256 * (k / 32) + n) 1)))

/-- The bytes of B's runs in order, from the core store, module memory or the far tier (R70); the first failure stops. -/
def State.mmLoadB (s : State) (w : Who) (rd : Reader) (space : Nat) : List (Nat × Nat) → List (List Byte) × Io
  | [] => ([], { s := s })
  | r :: rest =>
    let (bs, io) : List Byte × Io := match space with
      | 0 => (rd r.1 r.2, { s := s })
      | 1 => s.load w r.1 r.2
      | _ => s.farRead r.1 r.2
    match io.stop with
    | some _ => ([], io)
    | none =>
      let (more, io2) := State.mmLoadB io.s w rd space rest
      (bs :: more, { io2 with degraded := io.degraded || io2.degraded })

/-! ## The weight buffers (R62, R63, R76) -/

/-- The panel of rows 256 p … of B. -/
def panelOf (d : List Byte) (p : Nat) : Panel :=
  { base := field d 64 8 + 256 * p * field d 108 4, stride := field d 108 4, space := mmSpace d, fmt := BitVec.ofNat 8 (field d 140 1),
    n := mmN d, rows := min 256 (mmK d - 256 * p) }

/-- Weight buffer b of array a. -/
def Core.buf (c : Core) (a b : Nat) : WBuf := look c.bufs (2 * a + b) {}

/-- MM_KEEP_W. -/
def mmKeep (d : List Byte) : Bool := bit (mmCtrl d) 2

/-- A byte as it stands in module or far-tier memory now, without an access. -/
def State.peek (s : State) (a : Nat) : Byte :=
  match s.reach a with
  | .vault p off =>
    match (s.slice (p / 64)).find (modAddr p off / 128) with
    | some l => l.data.getD (off % 128) 0
    | none =>
      let bs := s.stored p (off / 32)
      (match (s.vault p).entry (off / 32) with
        | some e => e.over bs
        | none => bs).getD (off % 32) 0
  | .far f => readByte s.far.bytes f
  | _ => 0

/-- A run of B as it stands in its space now. -/
def State.peekRun (s : State) (rd : Reader) (space : Nat) (r : Nat × Nat) : List Byte :=
  if space = 0 then rd r.1 r.2 else (List.range r.2).map (fun i => s.peek ((if space = 2 then farBase else 0) + r.1 + i))

/-- The rows of the first panel that MM_KEEP_W spares from loading (R76): the active buffers of the arrays used hold that panel
for this work order, and no write has changed its range since. -/
def State.mmKept (s : State) (c : OpCtx) : List (List Byte) :=
  let core := s.core c.pair
  let d := c.d
  let a := if core.active then 1 else 0
  let rows := ((mmBRuns d).take 256).map (s.peekRun (s.reader c.pair c.ord) (mmSpace d))
  if mmKeep d && (core.arraysFor (mmN d)).all (fun i => decide ((core.buf i a).tag = some c.ord) && decide ((core.buf i a).panel = some (panelOf d 0)))
      && (rows.zipIdx).all (fun (r, k) => (List.range (mmN d)).all (fun n =>
        decide (look (core.buf (core.column n).1 a).cells (64 * k + (core.column n).2) 0 = BitVec.ofNat 64 (elemBits r (mmBWidth d) n))))
  then rows else []

/-- A kept weight buffer with a parity error (R68). -/
def Core.badBuf (c : Core) (d : List Byte) : Option Nat :=
  ((c.arraysFor (mmN d)).map (fun i => 2 * i + (if c.active then 1 else 0))).find? (fun k => (look c.bufs k {}).parityBad)

/-- The weight buffers after the panels of an operation: panel p in the buffer that is active for it, so the last two stay
(R62). -/
def Core.setBufs (c : Core) (ord : Nat) (d : List Byte) (bRows : List (List Byte)) : Core :=
  let last := (mmK d - 1) / 256
  let a := if c.active then 1 else 0
  let used := c.arraysFor (mmN d)
  let cells (i p : Nat) : SMap (BitVec 64) := (((bRows.drop (256 * p)).take 256).zipIdx).foldl (fun m (r, k) =>
    ((List.range (mmN d)).filter (fun n => decide ((c.column n).1 = i))).foldl (fun m n =>
      put m (64 * k + (c.column n).2) (BitVec.ofNat 64 (elemBits r (mmBWidth d) n))) m) []
  { c with
    bufs := ((List.range (last + 1)).drop (last - 1)).foldl (fun m p => used.foldl (fun m i =>
      put m (2 * i + (a + p) % 2) { tag := some ord, panel := some (panelOf d p), cells := cells i p }) m) c.bufs
    active := decide ((a + last) % 2 = 1) }

/-! ## The tiles (R60, R63, R73) -/

/-- Tile t of array a. -/
def Core.tile (c : Core) (a t : Nat) : Tile := look c.tiles (4 * a + t) {}

/-- What a tile holds for a work order that starts from it: +0 when it is cleared or carries another tag. -/
def Tile.seen (t : Tile) (ord : Nat) (clear : Bool) : SMap (BitVec 32) := if clear || decide (t.tag ≠ some ord) then [] else t.cells

/-- The tile numbers an operation uses. -/
def mmTiles (d : List Byte) : List Nat := (List.range ((mmKindOf d).tiles (mmDirect d))).map (fun i => (field d 143 1 + i) % 4)

/-- An accumulator value of a used tile at row m and result column n. -/
def Core.accAt (c : Core) (ord : Nat) (clear : Bool) (t m n : Nat) : Num :=
  let (a, j) := c.column n
  fp32 (look ((c.tile a t).seen ord clear) (64 * m + j) 0).toNat

/-- The used tiles with new cells; columns that serve no result column keep what they hold. -/
def Core.setTiles (c : Core) (ord : Nat) (clear : Bool) (n : Nat) (ts : List Nat) (cell : Nat → Nat → Nat → BitVec 32) (rows : Nat) : Core :=
  (c.arraysFor n).foldl (fun (x : Core) a => (ts.zipIdx).foldl (fun (y : Core) (t, i) =>
    let base := (c.tile a t).seen ord clear
    let cells := ((List.range n).filter (fun k => decide ((c.column k).1 = a))).foldl (fun (m : SMap (BitVec 32)) k =>
      (List.range rows).foldl (fun (m : SMap (BitVec 32)) r => put m (64 * r + (c.column k).2) (cell i r k)) m) base
    { y with tiles := put y.tiles (4 * a + t) { tag := some ord, cells := cells } }) x) c

/-- A used tile of this work order with a parity error, not about to be cleared (R68). -/
def Core.badTile (c : Core) (d : List Byte) (ord : Nat) : Option Nat :=
  if mmClear d then none
  else ((c.arraysFor (mmN d)).flatMap (fun a => (mmTiles d).map (fun t => 4 * a + t))).find? (fun k =>
    (look c.tiles k {}).parityBad && decide ((look c.tiles k {}).tag = some ord))

/-! ## Readout (R75, R98) -/

/-- The parts of a result element from its tiles: real and imaginary. -/
def mmParts (k : MmKind) (direct : Bool) (acc : Nat → Num) : List Num :=
  match k with
  | .cplx _ => if direct then [acc 0, acc 1] else [fp32Round ((acc 0).sub (acc 2)), fp32Round ((acc 0).add (acc 1))]
  | _ => [acc 0]

/-- What the epilogue reads: bias of column n, scale of column n, residual at m, n, each by part. -/
structure EpiIn where
  bias : Nat → Nat → Num
  scale : Nat → Num
  res : Nat → Nat → Nat → Num

/-- The operands of the epilogue from the core store. -/
def mmEpiIn (rd : Reader) (d : List Byte) : EpiIn :=
  let r := mmRes d
  let part (p : Num × Num) (i : Nat) : Num := if i = 0 then p.1 else p.2
  { bias := fun n i =>
      let f := mmFmt d 146
      let w := packedBytes (mmBiasWidth d) 1
      part (pairOf f.fmt f.cplx (rd (field d 152 8 + w * n) w) 0) i
    scale := fun n => if field d 147 1 = 1 then fp32 (field d 180 4) else fp32 (leNat (rd (field d 160 8 + 4 * n) 4))
    res := fun m n i =>
      let p := pairOf r.fmt r.cplx (rd (r.base + n * r.stride) (packedBytes r.width (mmM d))) m
      wIn r.fmt (r.scale % 2 ^ 32) (part (mxPair r.fmt p (leNat (rd (r.scale + 64 * (n / 32) + m) 1))) i) }

/-- Steps 1 to 5 of R98 on one part. -/
def mmEpilogue (d : List Byte) (e : EpiIn) (comb : Num) (m n i : Nat) (acc : Num) : WRes :=
  let v1 := wRound (acc.mul comb)
  let v2 := if field d 152 8 = 0 then v1 else v1.bind (fun v => wAdd v (e.bias n i))
  let v3 := if field d 145 1 = 0 then v2 else v2.bind (sfEval (field d 145 1))
  let v4 := if field d 147 1 = 0 then v3 else v3.bind (fun v => wMul v (e.scale n))
  if field d 168 8 = 0 then v4 else v4.bind (fun v => wAdd v (e.res m n i))

/-- NaN among what the epilogue reads. -/
def mmEpiNan (d : List Byte) (e : EpiIn) (parts : Nat) : BitVec 8 :=
  let cols := List.range (mmN d)
  nanIn ((if field d 152 8 = 0 then [] else cols.flatMap (fun n => (List.range parts).map (e.bias n)))
    ++ (if field d 147 1 = 2 then cols.map e.scale else [])
    ++ (if field d 168 8 = 0 then [] else cols.flatMap (fun n => (List.range (mmM d)).flatMap (fun m => (List.range parts).map (e.res m n)))))

/-- The converted rows of C: `acc i m n` is the accumulator of tile i. -/
def mmOut (rd : Reader) (d : List Byte) (draw : Nat → Nat) (acc : Nat → Nat → Nat → Num) : List OutRow :=
  let k := mmKindOf d
  let c := mmC d
  let comb := if k = .real then fp32Round ((inScale (mmFmt d 139).fmt (field d 120 4)).mul (inScale (mmFmt d 140).fmt (field d 124 4))) else .one
  let e := mmEpiIn rd d
  (List.range (mmM d)).map (fun m =>
    let vs := (List.range (mmN d)).flatMap (fun n =>
      ((mmParts k (mmDirect d) (fun i => acc i m n)).zipIdx).map (fun (v, i) =>
        if mmEpi d then mmEpilogue d e comb m n i v else WRes.pure (v.mul comb)))
    let o := outRow c.fmt (outRecip c.fmt (field d 128 4)) (convOf (field d 142 1)) (fun x => draw (131072 * m + x)) vs
    if c.cplx then
      { o with elems := (List.range (mmN d)).map (fun n => o.elems.getD (2 * n) 0 + o.elems.getD (2 * n + 1) 0 * 2 ^ c.fmt.bits) }
    else o)

/-! ## The operation -/

/-- FP32 bits of a value. -/
def fp32Bits (v : Num) : BitVec 32 := BitVec.ofNat 32 (packFloat 8 23 127 v)

/-- Free bytes: what a multi-pass product leaves in its scratch, in a layout the spec does not give. -/
def freeBytes (pick : Nat → Nat) (n : Nat) : List Byte := (List.range n).map (fun k => BitVec.ofNat 8 (pick k))

/-- The array product on loaded operands: the state, flags. Of an FP64-class product no tile content is stated: the tile's
cells are free afterwards, and without MM_CLEAR its sum starts from what the tile holds (notes/assumptions/56.md). -/
def State.mmRun (s : State) (c : OpCtx) (bRows : List (List Byte)) : State × BitVec 8 :=
  let d := c.d
  let core := s.core c.pair
  let rd := s.reader c.pair c.ord
  let k := mmKindOf d
  let as := (List.range (mmK d)).map (mmColA rd d)
  let bs := (bRows.zipIdx).map (fun (r, i) => mmRowB rd d i r)
  let (pick, s1) := s.drawMany
  let (free, s2) := s1.drawMany
  let (draw, s3) := s2.convDraws c.pair (field d 142 1) (field d 132 4)
  let ts := mmTiles d
  let steps (m n : Nat) : List (List (List Num)) := (as.zip bs).map (fun (a, b) =>
    mmStep k (mmDirect d) (mmFmt d 139).fmt (mmFmt d 140).fmt (a.getD m (.zero, .zero)) (b.getD n (.zero, .zero)))
  let start (i m n : Nat) : Num := core.accAt c.ord (mmClear d) (ts.getD i 0) m n
  let pickAt (i m n x : Nat) : Nat := pick (((x * 4 + i) * 64 + m) * 256 + n)
  let acc (i m n : Nat) : Num :=
    if k = .fp64 then
      freeSum fp64Round (pickAt i m n) (start i m n :: fp64Addends (as.map (fun a => (a.getD m (.zero, .zero)).1)) (bs.map (fun b => (b.getD n (.zero, .zero)).1)))
    else freeSum fp32Round (pickAt i m n) (start i m n :: (steps m n).flatMap (fun t => t.getD i []))
  let cell (i m n : Nat) : BitVec 32 :=
    if k = .fp64 then BitVec.ofNat 32 (free (2 ^ 22 + (i * 64 + m) * 256 + n)) else fp32Bits (acc i m n)
  let s4 := s3.setCore c.pair (fun (x : Core) => (x.setTiles c.ord (mmClear d) (mmN d) ts cell 64).setBufs c.ord d bRows)
  let s5 := s4.storeCore c.pair c.ord (field d 96 8) (freeBytes free (k.scratch (mmDirect d)))
  let read := nanIn ((as.flatten ++ bs.flatten).flatMap (fun p => [p.1, p.2]))
  if mmReadout d then
    let rows := mmOut rd d draw (if k = .fp64 then acc else fun i m n => fp32 (cell i m n).toNat)
    let epi := if mmEpi d then mmEpiNan d (mmEpiIn rd d) (if (mmC d).cplx then 2 else 1) else 0
    (s5.storeLate ((mmC d).writes rd (mmN d) rows), rows.foldl (fun g x => g ||| x.flags) (read ||| epi))
  else (s5, read)

/-- The ending of work of a controller that names a range sealed to another (15_trust_and_firmware.md R420). -/
def OpCtx.sealed (c : OpCtx) (s : State) (a n : Nat) : Bool := decide (0 < n) && s.sealedAgainst c.cmd.ctrl c.cmd.epoch a n

/-- The device address of a field with a space code (R171): a far-tier offset lies in the aperture. -/
def spaceAddr (space a : Nat) : Nat := if space = 2 then farBase + a else a

/-- The ranges of an array product as it runs: one with a dimension of 0 reads nothing (R74). -/
def mmRunRanges (d : List Byte) : List CoreRange := if mmEmpty d then (mmRanges d).map (fun r => { r with wr := true }) else mmRanges d

/-- A tile or a weight buffer with a parity error ends the operation that would read it, with an event record (R68). -/
def mmParity (c : OpCtx) (t : State) (f : Core → Core) : State × Ending :=
  ((t.setCore c.pair f).postArgs 0x0604 c.pair 2 c.pair 2 0, { status := .memoryUncorrectable })

/-- MM (R60 to R85). A zero dimension leaves the tiles unchanged, or clears them with MM_CLEAR, and is DONE (R74); with MM_N 0
no array serves a result column, so none of its tiles is cleared (R73; notes/assumptions/56.md). -/
def execOpMm (tag : Nat) (op : Nat) (s : State) : Host.Outcome State Fault Refusal :=
  .next (s.runCore .mm tag op (fun _ => false) mmRunRanges (fun c t =>
    if mmEmpty c.d then
      (if mmClear c.d then t.setCore c.pair (fun x => x.setTiles c.ord true (mmN c.d) (mmTiles c.d) (fun _ _ _ => 0) 0) else t,
        { status := .done })
    else if mmSpace c.d ≠ 0 ∧ (mmBRuns c.d).any (fun r => c.sealed t (spaceAddr (mmSpace c.d) r.1) r.2) then (t, refused .sealedRange)
    else if (t.core c.pair).width < mmN c.d then (t, rejectOp .rejectLimit 136)
    else match (t.core c.pair).badTile c.d c.ord with
    | some k => mmParity c t (fun x => { x with tiles := del x.tiles k })
    | none =>
      let kept := t.mmKept c
      match (if kept.isEmpty then none else (t.core c.pair).badBuf c.d) with
      | some k => mmParity c t (fun x => { x with bufs := del x.bufs k })
      | none =>
        let (bs, io) := t.mmLoadB c.who (t.reader c.pair c.ord) (mmSpace c.d) ((mmBRuns c.d).drop kept.length)
        match io.stop with
        | some e => (io.s, e)
        | none =>
          let (u, fl) := io.s.mmRun c (kept ++ bs)
          (u, { status := .done, flags := fl })))

end Sys2Proof.Machine
end

