-- ==== Sys2Proof/Machine/Moves.lean ====
section
/-! DEFINITION. DM_COPY and MEM_ZERO (09_work_orders.md R252, 07_vaults_and_protection.md R192). -/

namespace Sys2Proof.Machine

open Sys2Proof

/-! ## DM_COPY -/

/-- One side of a copy: base, row stride, space. -/
structure Side where
  base : Nat
  stride : Nat
  space : Nat
  deriving DecidableEq, Repr

/-- DM_LEN. -/
def dmLen (d : List Byte) : Nat := field d 64 8
/-- DM_ROWS. -/
def dmRows (d : List Byte) : Nat := field d 72 4
/-- The source. -/
def dmSrc (d : List Byte) : Side := { base := field d 48 8, stride := field d 80 8, space := field d 96 1 }
/-- The destination. -/
def dmDst (d : List Byte) : Side := { base := field d 56 8, stride := field d 88 8, space := field d 97 1 }

/-- Address of row r of a side. -/
def Side.row (x : Side) (r : Nat) : Nat := x.base + r * x.stride

/-- Some byte of a source row is a byte of a destination row. -/
def dmOverlap (a b : Side) (len rows : Nat) : Bool :=
  decide (a.space = b.space) && meets a.base (spanBytes a.stride len rows) b.base (spanBytes b.stride len rows)
    && (List.range rows).any (fun r => (List.range rows).any (fun q => meets (a.row r) len (b.row q) len))

/-- The core-store range of a side. -/
def Side.range (x : Side) (off len rows : Nat) (wr : Bool) : CoreRange :=
  { off := off, addr := x.base, len := if x.space = 0 then spanBytes x.stride len rows else 0, wr := wr, run := len, step := x.stride }

/-- The core-store ranges of a copy. -/
def dmRanges (d : List Byte) : List CoreRange :=
  [(dmSrc d).range 48 (dmLen d) (dmRows d) false, (dmDst d).range 56 (dmLen d) (dmRows d) true]

/-- Every row of a side in module memory or the far tier leads to memory (R31, R170, R171). The address a side names is
checked where a length or a count of zero leaves no bytes there (00_scope.md R17). -/
def State.sideReach (s : State) (x : Side) (len rows : Nat) : Bool :=
  match x.space with
  | 1 => (List.range (max rows 1)).all (fun r => decide (x.row r + max len 1 ≤ farBase) && s.reachableRange (x.row r) len)
  | 2 => (List.range (max rows 1)).all (fun r => decide (x.row r + max len 1 ≤ s.geo.farTierMib * 2 ^ 20))
  | _ => true

/-- A row of a side in space 1 begins where no address of that space lies (07_vaults_and_protection.md R171, R508). -/
def Side.notSpaceOne (x : Side) (rows : Nat) : Bool := decide (x.space = 1) && (List.range (max rows 1)).any (fun r => spaceOneBad (x.row r))

/-- Some row of a side in module memory lies in page-pool rows (05_attention_kv_cache.md R117). -/
def State.sideInPool (s : State) (x : Side) (len rows : Nat) : Bool :=
  decide (x.space = 1) && decide (0 < len) && (List.range rows).any (fun r => s.rangeInPool (x.row r) len)

/-- A space a copy cannot name: above 3, or host memory from a controller without a port. -/
def spaceBad (ctrl : Fin 4) (sp : Nat) : Bool := decide (3 < sp) || (decide (sp = 3) && decide (2 ≤ ctrl.val))

/-- The admission checks of DM_COPY for a command of a controller. -/
def dmChecks (s : State) (ctrl : Fin 4) (d : List Byte) : List Check :=
  let a := dmSrc d
  let b := dmDst d
  let n := dmLen d
  let r := dmRows d
  [(a.notSpaceOne r, .rejectFormat, 48), (dmOverlap a b n r || b.notSpaceOne r, .rejectFormat, 56), (spaceBad ctrl a.space, .rejectFormat, 96), (spaceBad ctrl b.space, .rejectFormat, 97)]
    ++ s.rangeChecks ((dmRanges d).take 1) ++ [(!s.sideReach a n r, .rejectLimit, 48)]
    ++ s.rangeChecks ((dmRanges d).drop 1) ++ [(!s.sideReach b n r, .rejectLimit, 56)]
    ++ [(s.sideInPool a n r, .rejectState, 48), (s.sideInPool b n r, .rejectState, 56)]

/-- Read one row of a side. -/
def State.sideRead (s : State) (c : OpCtx) (sp a n : Nat) : List Byte × Io :=
  match sp with
  | 0 => s.loadCore c.pair c.ord a n
  | 1 => s.load c.who a n
  | 2 => s.farRead a n
  | _ => if (s.port c.cmd.ctrl).linkUp then (s.hostRead c.cmd.ctrl a n, { s := s })
    else ([], { s := s, stop := some { status := .linkDown, detail := 0x1F } })

/-- Write one row of a side. -/
def State.sideWrite (s : State) (c : OpCtx) (sp a : Nat) (bs : List Byte) : Io :=
  match sp with
  | 0 => { s := s.storeCore c.pair c.ord a bs }
  | 1 => s.store c.who a bs
  | 2 => s.farWrite a bs (c.tag, c.op) (bs.length / 256 + 2)
  | _ => if (s.port c.cmd.ctrl).linkUp then { s := s.hostWrite c.cmd.ctrl a bs }
    else { s := s, stop := some { status := .linkDown, detail := 0x1F } }

/-! ## Completion (09_work_orders.md R255 to R258) -/

/-- Write what an operation writes when it completes, in order: the first write that cannot be made stops. -/
def State.writeLate (s : State) (c : OpCtx) : List LateWrite → Io
  | [] => { s := s }
  | x :: rest =>
    let io := s.sideWrite c x.space x.addr x.bytes
    match io.stop with
    | some _ => io
    | none => State.writeLate io.s c rest

/-- An operation that has run writes its results, if a vault does not make it wait; its ending is that of a write that
cannot be made. -/
def State.deliver (s : State) (c : OpCtx) (x : Oper) (e : Ending) : State :=
  let io := { s with run := {} }.writeLate c x.late
  if io.s.run.stalled then s
  else io.s.setOper c.tag c.op (fun y => { y with
    phase := .running ((io.stop).getD (io.s.run.ending e)), late := [], wrote := io.s.run.wrote.foldl insertNat y.wrote })

/-- An operation that has run completes: OPSTAT and OPRESULT are written, its pins released, its tower's completion source
asserted, those that will never run are settled, and with the last the order ends. -/
def State.complete (s : State) (c : OpCtx) (o : Order) (e : Ending) : State :=
  let t := (s.setOper c.tag c.op (fun y => { y with phase := .completed e })).writeOpstat o.addr c.op (opstat e) e.result.toNat
  let u := (t.releasePins c.tag c.op).setCmd c.tag (fun c => { c with order := c.order.map settleAfter })
  let v := match (opKind (opCode c.d)).bind OpKind.coreUnit with
    | some _ => u.raiseIn (u.pairCluster c.pair) (doneSource c.pair)
    | none => u
  v.endOrder c.tag

/-- OPERATION_COMPLETE: the operation writes its results and completes; one whose far-tier writes have not been acknowledged
completes later (R257). Completions are held while the leading cluster is held in a watchdog reset. -/
def execOperationComplete (tag : Nat) (op : Nat) (s : State) : Host.Outcome State Fault Refusal :=
  .next (match s.cmd tag, s.oper tag op with
    | some c, some x =>
      match x.phase, c.order with
      | .running e, some o =>
        if c.struck.isSome || (s.wdog s.lead).inReset || !s.farAcked tag op then s
        else
          let ctx : OpCtx := { cmd := c, tag := tag, op := op, d := x.desc }
          let t := s.deliver ctx x e
          (match t.oper tag op with
           | some y => (match y.phase with
               | .running e' => if y.late.isEmpty && t.farAcked tag op then t.complete ctx o e' else t
               | _ => t)
           | none => t)
      | _, _ => s
    | _, _ => s)

/-- Read the rows of a side in order: those read, and how it stopped. -/
def State.sideReadAll (s : State) (c : OpCtx) (x : Side) (n : Nat) : List Nat → List (Nat × List Byte) × Io
  | [] => ([], { s := s })
  | r :: rest =>
    let (bs, io) := s.sideRead c x.space (x.row r) n
    match io.stop with
    | some _ => ([], io)
    | none =>
      let (more, io2) := State.sideReadAll io.s c x n rest
      ((r, bs) :: more, { io2 with degraded := io.degraded || io2.degraded })

/-- The rows are copied: those that can be read are to be written, and the first failure ends it. -/
def dmCopy (c : OpCtx) (s : State) : State × Ending :=
  let (rows, io) := s.sideReadAll c (dmSrc c.d) (dmLen c.d) (List.range (dmRows c.d))
  (io.s.putOff (rows.map (fun r => { space := (dmDst c.d).space, addr := (dmDst c.d).row r.1, bytes := r.2 })), io.ending)

/-- A row of a side is sealed to another party (15_trust_and_firmware.md R420). -/
def OpCtx.sideSealed (c : OpCtx) (s : State) (x : Side) : Bool :=
  (decide (x.space = 1) || decide (x.space = 2))
    && (List.range (dmRows c.d)).any (fun r => c.sealed s (spaceAddr x.space (x.row r)) (dmLen c.d))

/-- DM_COPY. -/
def execOpDmCopy (tag : Nat) (op : Nat) (s : State) : Host.Outcome State Fault Refusal :=
  .next (s.runCore .dmCopy tag op (fun d => decide (dmLen d = 0) || decide (dmRows d = 0)) (fun d => (dmRanges d).map (fun r => { r with wr := true }))
    (fun c t => if c.sideSealed t (dmSrc c.d) || c.sideSealed t (dmDst c.d) then (t, refused .sealedRange) else dmCopy c t))

/-! ## MEM_ZERO -/

/-- The admission checks of MEM_ZERO. -/
def mzChecks (s : State) (d : List Byte) : List Check :=
  let a := field d 48 8
  let n := field d 56 8
  [(decide (a % 4096 ≠ 0) || (decide (farBase ≤ a) && decide (a < 2 ^ 48)), .rejectFormat, 48), (decide (n % 4096 ≠ 0), .rejectFormat, 56),
   (!s.reachableRange a n, .rejectLimit, 48), (s.rangeInPool a n, .rejectState, 48)]

/-- Zero blocks in order, stopping where the address leads to no memory. -/
def State.zeroBlocks (s : State) (a : Nat) : Nat → Io
  | 0 => { s := s }
  | k + 1 => match s.reach a with
    | .vault p off => State.zeroBlocks ((s.touch p 1 (blockOf off * 4096) 4096 true true).zeroBlock p (blockOf off)) (a + 4096) k
    | r => reachStop s r

/-- MEM_ZERO. -/
def execOpMemZero (tag : Nat) (op : Nat) (s : State) : Host.Outcome State Fault Refusal :=
  .next (s.runOp .memZero tag op (fun c t =>
    let a := field c.d 48 8
    let n := field c.d 56 8
    if n = 0 then (t, { status := .doneEmpty })
    else if c.sealed t a n then (t, refused .sealedRange)
    else
      let io := t.zeroBlocks a (n / 4096)
      (io.s, io.ending)))

end Sys2Proof.Machine
end

