-- ==== Sys2Proof/Machine/Kv.lean ====
section
/-! DEFINITION. Sequences, streams, pages, pools, the Vestibule and the Bivouac (05_attention_kv_cache.md). -/

namespace Sys2Proof.Machine

open Sys2Proof

/-! ## Page geometry (R115, Table 05-3) -/

/-- The next multiple of n. -/
def roundUp (v n : Nat) : Nat := (v + n - 1) / n * n

/-- The format of keys or values. -/
def kvFmt (b : BitVec 8) : Fmt := ((fmtByte b.toNat).map (·.fmt)).getD .fp16

/-- Bytes of one key. -/
def Seq.kb (q : Seq) : Nat := q.dim * (kvFmt q.fmtK).bits / 8
/-- Bytes of one value. -/
def Seq.vb (q : Seq) : Nat := q.dim * (kvFmt q.fmtV).bits / 8
/-- Scale bytes of one key. -/
def Seq.ks (q : Seq) : Nat := if (kvFmt q.fmtK).mx then q.dim / 32 else 0
/-- Scale bytes of one value. -/
def Seq.vs (q : Seq) : Nat := if (kvFmt q.fmtV).mx then q.dim / 32 else 0
/-- Offset of the key scales. -/
def Seq.ksOff (q : Seq) : Nat := roundUp (q.pageTokens * q.kb) 32
/-- Offset of the value elements. -/
def Seq.vOff (q : Seq) : Nat := roundUp (q.ksOff + q.pageTokens * q.ks) 32
/-- Offset of the value scales. -/
def Seq.vsOff (q : Seq) : Nat := roundUp (q.vOff + q.pageTokens * q.vb) 32
/-- Bytes of a page. -/
def Seq.pageBytes (q : Seq) : Nat := roundUp (q.vsOff + q.pageTokens * q.vs) 1024
/-- Rows of a page. -/
def Seq.pageRows (q : Seq) : Nat := q.pageBytes / 1024

/-- The pieces of one token in a page: offset and bytes; values lie lane group by lane group. -/
def Seq.tokenPieces (q : Seq) (t : Nat) (k : Token) : List (Nat × List Byte) :=
  [(t * q.kb, k.key), (q.ksOff + t * q.ks, k.keyScales), (q.vsOff + t * q.vs, k.valueScales)]
    ++ (List.range (q.vb / 32)).map (fun g => (q.vOff + (g * q.pageTokens + t) * 32, (k.value.drop (32 * g)).take 32))

/-- The image of a page: tokens 0 … over the bytes of `fill`, which the spec does not give. -/
def Seq.image (q : Seq) (toks : List Token) (fill : List Byte) : List Byte :=
  (toks.zipIdx).foldl (fun bs (k, t) => (q.tokenPieces t k).foldl (fun bs p => splice bs p.1 p.2) bs) (padTo fill q.pageBytes)

/-- Token t of a page's bytes. -/
def Seq.tokenOf (q : Seq) (bs : List Byte) (t : Nat) : Token :=
  { key := (bs.drop (t * q.kb)).take q.kb, keyScales := (bs.drop (q.ksOff + t * q.ks)).take q.ks,
    valueScales := (bs.drop (q.vsOff + t * q.vs)).take q.vs,
    value := (List.range (q.vb / 32)).flatMap (fun g => (bs.drop (q.vOff + (g * q.pageTokens + t) * 32)).take 32) }

/-- The first n tokens of a page's bytes. -/
def Seq.tokensOf (q : Seq) (bs : List Byte) (n : Nat) : List Token := (List.range n).map (q.tokenOf bs)

/-! ## Table access -/

/-- The key-value cache changed. -/
def State.setKv (s : State) (f : Kv → Kv) : State := { s with kv := f s.kv }

/-- The sequence of a handle. -/
def State.seq (s : State) (h : Nat) : Option Seq := look? s.kv.seqs h

/-- The sequence of a handle changed. -/
def State.setSeq (s : State) (h : Nat) (f : Seq → Seq) : State :=
  match s.seq h with
  | some q => s.setKv (fun k => { k with seqs := put k.seqs h (f q) })
  | none => s

/-- A stream of a sequence changed. -/
def State.setStream (s : State) (h i : Nat) (f : Stream → Stream) : State :=
  s.setSeq h (fun q => { q with streams := q.streams.modify i f })

/-- Stream i of a sequence. -/
def State.stream (s : State) (h i : Nat) : Option Stream := (s.seq h).bind (fun q => q.streams[i]?)

/-- The number of streams of a layer and the first of them. -/
def Seq.layerStreams (q : Seq) (layer : Nat) : List Nat := (List.range q.kvHeads).map (fun h => layer * q.kvHeads + h)

/-- An empty page-table entry. -/
def pteEmpty : Pte := { state := .empty, tokens := 0, pair := 0, bank := 0, row := 0 }

/-- Entry i of a stream's table. -/
def Stream.pte (x : Stream) (i : Nat) : Pte := x.table.getD i pteEmpty

/-- A table with entry i replaced, padded with empty entries. -/
def setPte (l : List Pte) (i : Nat) (e : Pte) : List Pte := (l ++ List.replicate (i + 1 - l.length) pteEmpty).set i e

/-- The 8 bytes of an entry (Table 05-4). -/
def Pte.word (e : Pte) : Nat :=
  let st := match e.state with
    | .empty => 0
    | .full => 1
    | .partialPage => 2
    | .swapped _ => 3
    | .lost => 4
    | .chain => 6
  let low := match e.state with
    | .swapped g => g % 2 ^ 31
    | .full => e.row * 2 ^ 17 + e.bank * 2 ^ 10 + e.pair
    | .partialPage => e.row * 2 ^ 17 + e.bank * 2 ^ 10 + e.pair
    | .chain => e.row * 2 ^ 17 + e.bank * 2 ^ 10 + e.pair
    | _ => 0
  st * 2 ^ 43 + e.tokens * 2 ^ 31 + low

/-- The entry names a resident page. -/
def Pte.resident (e : Pte) : Bool := decide (e.state = .full) || decide (e.state = .partialPage)

/-- The entry is in state 3. -/
def Pte.swapped (e : Pte) : Bool :=
  match e.state with
  | .swapped _ => true
  | _ => false

/-- A sequence is pre-empted: an entry is in state 3, or its slots have been released (R140). -/
def Seq.preempted (q : Seq) : Bool := q.streams.any (fun x => !x.slotHeld || x.table.any Pte.swapped)

/-! ## The page pool (R116, R118) -/

/-- First row that pages and table blocks of a pair's pool may take: the lowest 16 rows are the score strip. -/
def State.poolFirst (s : State) (pair : Nat) : Nat := 9216 - look s.settings.poolRows pair 0 + 16

/-- The pair has a pool. -/
def State.hasPool (s : State) (pair : Nat) : Bool := decide (0 < look s.settings.poolRows pair 0)

/-- Rows taken in a bank of a pair's pool: first row and count. -/
def State.taken (s : State) (pair bank : Nat) : List (Nat × Nat) :=
  (s.kv.pages.filter (fun g => decide (g.pair = pair) && decide (g.bank = bank))).map (fun g => (g.row, g.rows))
    ++ s.kv.seqs.flatMap (fun e => e.2.streams.flatMap (fun x =>
      if x.lead = pair then (x.blocks.filter (fun b => decide (b.1 = bank))).map (fun b => (b.2, 4)) else []))

/-- Retired rows of a bank: a retired block covers four banks of one row. -/
def State.retiredRows (s : State) (pair bank : Nat) : List Nat :=
  (s.mem.retired.filter (fun r => decide (r.pair = pair) && r.bank.isNone && decide (r.block % 32 = bank / 4))).map (fun r => r.block / 32)

/-- Rows [r, r + n) of a bank are free and in the pool. -/
def State.rowsFree (s : State) (pair bank r n : Nat) : Bool :=
  decide (s.poolFirst pair ≤ r) && decide (r + n ≤ 9216) && (s.taken pair bank).all (fun t => !meets t.1 t.2 r n)
    && (s.retiredRows pair bank).all (fun t => !meets t 1 r n)

/-- The lowest rows of a bank that fit. -/
def State.fitRows (s : State) (pair bank n : Nat) : Option Nat :=
  if s.bankRetired pair bank || !s.hasPool pair then none
  else
    let starts := s.poolFirst pair :: ((s.taken pair bank).map (fun t => t.1 + t.2) ++ (s.retiredRows pair bank).map (· + 1))
    (starts.filter (fun r => s.rowsFree pair bank r n)).foldl (fun (m : Option Nat) r => match m with
      | some x => some (min x r)
      | none => some r) none

/-- Pages of a stream in a bank. -/
def Stream.pagesIn (x : Stream) (pair bank : Nat) : Nat :=
  (x.table.filter (fun e => e.resident && decide (e.pair = pair) && decide (e.bank = bank))).length

/-- The bank and rows for a page or block of `n` rows: the bank with the fewest pages of the stream, the lowest number
first, at the lowest rows that fit (R118). -/
def State.place (s : State) (x : Stream) (pair n : Nat) : Option (Nat × Nat) :=
  ((List.range 128).foldl (fun (best : Option (Nat × Nat × Nat)) b =>
    match s.fitRows pair b n with
    | none => best
    | some r =>
      let k := x.pagesIn pair b
      match best with
      | some (k', _, _) => if k < k' then some (k, b, r) else best
      | none => some (k, b, r)) none).map (fun e => e.2)

/-! ## Page contents -/

/-- Traffic of `n` bytes to or from rows of a bank crosses the vertical channel with a class (07_vaults_and_protection.md R182,
R185): it waits where the vault makes it wait, and in narrow mode the operation is degraded (R202). -/
def State.cross (s : State) (pair bank row n cls : Nat) (write : Bool) : State :=
  ((List.range ((n + 1023) / 1024)).foldl (fun (t : State) k => t.touch pair cls (rowOffset bank (row + k) 0) (min 1024 (n - 1024 * k)) write true) s).runDegraded
    (s.narrow pair)

/-- Store a page's bytes at its rows. -/
def State.writePageThere (s : State) (pair bank row : Nat) (bs : List Byte) : State :=
  (List.range (bs.length / 32)).foldl (fun (t : State) k =>
    t.writeWord pair (rowOffset bank (row + k / 32) (k % 32 * 32) / 32) 0 ((bs.drop (32 * k)).take 32) (4096, 0)) s

/-- Store a page's bytes at its rows, as traffic of a class. -/
def State.writePage (s : State) (pair bank row : Nat) (bs : List Byte) (cls : Nat) : State :=
  (s.cross pair bank row bs.length cls true).writePageThere pair bank row bs

/-- Read words of a page in order, stopping at the first that cannot be read. -/
def State.readPageWords (s : State) (pair bank row k : Nat) : Nat → List Byte × Io
  | 0 => ([], { s := s })
  | n + 1 =>
    let w := rowOffset bank (row + k / 32) (k % 32 * 32) / 32
    match s.readWord pair w 1 with
    | (.ok b, t) =>
      let (r, io) := State.readPageWords t pair bank row (k + 1) n
      (b ++ r, io)
    | (.retired, t) => ([], Io.halt t .pageRetired 0 (modAddr pair (blockOf (w * 32) * 4096)))
    | (.bad, t) => ([], Io.halt t .memoryUncorrectable 0 (modAddr pair (w * 32)))

/-- Read a page on its bank's own column path. -/
def State.readPageThere (s : State) (q : Seq) (e : Pte) : List Byte × Io := s.readPageWords e.pair e.bank e.row 0 (q.pageBytes / 32)

/-- Read a page as traffic of a class. -/
def State.readPage (s : State) (q : Seq) (e : Pte) (cls : Nat) : List Byte × Io :=
  (s.cross e.pair e.bank e.row q.pageBytes cls false).readPageThere q e

/-! ## References and pins (R136, Table 05-8) -/

/-- The page an entry names. -/
def Page.isAt (g : Page) (e : Pte) : Bool := decide (g.pair = e.pair) && decide (g.bank = e.bank) && decide (g.row = e.row)

/-- The pages changed where an entry points. -/
def State.onPage (s : State) (e : Pte) (f : Page → Page) : State :=
  s.setKv (fun k => { k with pages := k.pages.map (fun g => if g.isAt e then f g else g) })

/-- Drop a reference: a page without references and pins is free. -/
def State.dropRef (s : State) (e : Pte) : State :=
  (s.onPage e (fun g => { g with refs := g.refs - 1 })).setKv (fun k =>
    { k with pages := k.pages.filter (fun g => !(decide (g.refs = 0) && decide (g.pins = 0))) })

/-- Pin a page for an operation. -/
def State.pin (s : State) (tag op : Nat) (e : Pte) : State :=
  (s.onPage e (fun g => { g with pins := g.pins + 1 })).setKv (fun k => { k with pins := k.pins ++ [(tag, op, e.pair, e.bank, e.row)] })

/-- The page of an entry. -/
def State.pageAt (s : State) (e : Pte) : Option Page := s.kv.pages.find? (fun g => g.isAt e)

/-! ## Allocation and flush (R118, R119, R124) -/

/-- Make the table of a stream reach entry i: the 4 KiB blocks of 511 entries it needs in the lead vault's pool. -/
def State.needBlock (s : State) (h i page : Nat) : Option State :=
  match s.stream h i with
  | none => none
  | some x =>
    if page < 511 * x.blocks.length then some s
    else (s.place { x with table := [] } x.lead 4).map (fun p => s.setStream h i (fun y => { y with blocks := y.blocks ++ [p] }))

/-- Allocate a page for entry `page` of a stream and write its content as traffic of a class; none when the pool has no
room. -/
def State.allocPage (s : State) (h i page : Nat) (st : PteState) (tokens : Nat) (bs : List Byte) (cls : Nat) : Option State :=
  match s.needBlock h i page with
  | none => none
  | some t =>
    match t.seq h, t.stream h i with
    | some q, some x =>
      let pair := x.lead + page % x.span
      (t.place x pair q.pageRows).map (fun p =>
        let e : Pte := { state := st, tokens := tokens, pair := pair, bank := p.1, row := p.2 }
        ((t.setKv (fun k => { k with pages := k.pages ++ [{ pair := pair, bank := p.1, row := p.2, rows := q.pageRows, refs := 1, pins := 0 }] })).writePage
          pair p.1 p.2 bs cls).setStream h i (fun y => { y with table := setPte y.table page e }))
    | _, _ => none

/-- Tokens of a stream that lie in pages of its table. -/
def Stream.stored (x : Stream) : Nat := x.length - x.slot.length

/-- Flush a stream's slot to a page (R124) as traffic of a class; an empty slot writes nothing. The bytes of the page that no
token covers are not stated: free. -/
def State.flushSlot (s : State) (cls h i : Nat) : Option State :=
  match s.seq h, s.stream h i with
  | some q, some x =>
    if x.slot.isEmpty then some s
    else
      let (pick, t) := s.drawMany
      let full := decide (q.pageTokens ≤ x.slot.length)
      (t.allocPage h i (x.stored / q.pageTokens) (if full then .full else .partialPage) x.slot.length (q.image x.slot (freeBytes pick q.pageBytes)) cls).map
        (fun u => u.setStream h i (fun y => { y with slot := [] }))
  | _, _ => some s

/-- Flush every slot of a sequence. -/
def State.flushAll (s : State) (cls h : Nat) : Option State :=
  match s.seq h with
  | none => some s
  | some q => (List.range q.streams.length).foldl (fun (t : Option State) i => t.bind (fun u => u.flushSlot cls h i)) (some s)

/-! ### Page tables in the pool (R119) -/

/-- Entry k of a stream's table block b: its page's entry, or at the end the chain to the next block. -/
def Stream.blockEntry (x : Stream) (b k : Nat) : Pte :=
  if k < 511 then x.pte (511 * b + k)
  else match x.blocks[b + 1]? with
    | some n => { state := .chain, tokens := 0, pair := x.lead, bank := n.1, row := n.2 }
    | none => pteEmpty

/-- The code words of page-table blocks that do not hold their four entries: pair, word and what they are to hold. -/
def State.tableWords (s : State) : List (Nat × Nat × List Byte) :=
  s.kv.seqs.flatMap (fun e => e.2.streams.flatMap (fun x => (x.blocks.zipIdx).flatMap (fun (b, n) => ((List.range 128).map (fun j =>
    (x.lead, rowOffset b.1 (b.2 + j / 32) (j % 32 * 32) / 32,
      (List.range 4).flatMap (fun m => leBytes 8 (x.blockEntry n (4 * j + m)).word)))).filter (fun y => decide (s.stored y.1 y.2.1 ≠ y.2.2)))))

/-- The page tables are written into their blocks. -/
def State.writeTables (s : State) : State := s.tableWords.foldl (fun (t : State) y => t.storeWord y.1 y.2.1 y.2.2) s

/-- The traffic of writing the page tables. -/
def State.touchTables (s : State) : State := s.tableWords.foldl (fun (t : State) y => t.touch y.1 1 (32 * y.2.1) 32 true true) s

/-! ## The Vestibule (R122) -/

/-- Bytes of Vestibule slots held in a core. -/
def State.slotBytesHeld (s : State) (pair : Nat) : Nat :=
  s.kv.seqs.foldl (fun n e => n + e.2.pageBytes * (e.2.streams.filter (fun x => x.slotHeld && decide (x.lead = pair))).length) 0

/-- Every core has room for the slots it holds. -/
def State.slotsFit (s : State) (pairs : List Nat) : Bool := pairs.all (fun p => decide (s.slotBytesHeld p ≤ s.settings.vestibuleKib * 1024))

/-- Reserve the slots of a sequence; none when some core has no room. -/
def State.reserveSlots (s : State) (h : Nat) : Option State :=
  match s.seq h with
  | none => none
  | some q =>
    let t := s.setSeq h (fun q => { q with streams := q.streams.map (fun x => { x with slotHeld := true }) })
    if t.slotsFit (q.streams.map (·.lead)) then some t else none

/-! ## Handles of operations (R251) -/

/-- The handle an operation's field at byte 48 names, once known. -/
def Order.handle (o : Order) (d : List Byte) : Option Nat :=
  let v := field d 48 4
  if bit v 31 then
    match o.op? (v % 65536) with
    | some x => (match x.phase with
        | .completed e => some (e.result.toNat % 65536)
        | .running e => some (e.result.toNat % 65536)
        | _ => none)
    | none => none
  else some (v % 65536)

/-- The operation takes a handle field. -/
def OpKind.handled : OpKind → Bool
  | .seqFork => true
  | .seqClose => true
  | .seqFree => true
  | .seqTruncate => true
  | .seqPreempt => true
  | .seqResume => true
  | .attAppend => true
  | .attDecode => true
  | .attPrefill => true
  | .kvWrite => true
  | .kvExport => true
  | _ => false

/-- Some operation in flight, other than operation `op` of `tag`, names the sequence. -/
def State.seqBusyBut (s : State) (tag op h : Nat) : Bool :=
  s.warden.tags.any (fun c => (c.order.map (fun o => (o.ops.zipIdx).any (fun (x, i) =>
    x.phase.inFlight && ((opKind (opCode x.desc)).map OpKind.handled).getD false && decide (o.handle x.desc = some h)
      && !(decide (c.tag = tag) && decide (i = op))))).getD false)

/-- Some operation in flight names the sequence. -/
def State.seqBusy (s : State) (h : Nat) : Bool := s.seqBusyBut 4096 0 h

/-! ## The Bivouac (R138, R140, R141) -/

/-- 64 KiB granules of a record of a page. -/
def bivGranules (pageBytes : Nat) : Nat := (64 + pageBytes + 65535) / 65536

/-- The lowest free run of granules in the Bivouac. -/
def Kv.bivPlace (k : Kv) (n : Nat) : Option Nat :=
  match k.bivouac with
  | none => none
  | some (_, _, size) =>
    ((0 :: k.records.map (fun r => r.granule + r.granules)).filter (fun g =>
      decide ((g + n) * 65536 ≤ size) && k.records.all (fun r => !meets r.granule r.granules g n))).foldl (fun (m : Option Nat) g => match m with
        | some x => some (min x g)
        | none => some g) none

/-- Bytes 0x00 to 0x2F of a record (Table 05-10). -/
def BivRec.head (r : BivRec) : List Byte :=
  leBytes 2 1 ++ leBytes 2 r.seq ++ leBytes 2 r.stream ++ leBytes 2 r.tokens ++ leBytes 8 r.page ++ leBytes 4 r.bytes.length ++ leBytes 4 0
    ++ leBytes 8 r.epoch.toNat ++ leBytes 12 r.nonce ++ leBytes 4 0

/-- The record as it stands in the Bivouac: header, tag and ciphertext under the Bivouac key (notes/assumptions/11.md). -/
def BivRec.image (r : BivRec) : List Byte :=
  r.head ++ padTo (Config.gcmEnc (Config.entropy r.key 32) r.nonce (r.head ++ r.bytes)) (16 + r.bytes.length)

/-- The Bivouac key of this pitch, drawn when it is first needed (R138, R410); none while the noise source fails. -/
def State.drawBivKey (s : State) : Option (Nat × State) :=
  match s.trust.bivKey with
  | some k => some (k, s)
  | none =>
    if s.trust.entropyOk then
      some (s.trust.drawn, { s with trust := { s.trust with bivKey := some s.trust.drawn, drawn := s.trust.drawn + 1 } })
    else none

/-- Write to the Bivouac at an offset; none when its path is down. -/
def State.bivWrite (s : State) (off : Nat) (bs : List Byte) : Option State :=
  match s.kv.bivouac with
  | none => none
  | some (true, base, _) =>
    let io := s.farWrite (base + off) bs (4096, 0) (bs.length / 256 + 2)
    if io.stop.isNone then some io.s else none
  | some (false, base, _) =>
    if (s.port s.kv.bivPort).linkUp then some (s.hostWrite s.kv.bivPort (base + off) bs) else none

/-- Read from the Bivouac at an offset. -/
def State.bivRead (s : State) (off n : Nat) : List Byte × Io :=
  match s.kv.bivouac with
  | none => ([], { s := s })
  | some (true, base, _) => s.farRead (base + off) n
  | some (false, base, _) =>
    if (s.port s.kv.bivPort).linkUp then (s.hostRead s.kv.bivPort (base + off) n, { s := s })
    else ([], { s := s, stop := some { status := .linkDown, detail := 0x1F } })

/-- Swap one resident page out: pin, record, entry to state 3, reference dropped (R140). -/
def State.swapPage (s : State) (h i page : Nat) : Except Ending State :=
  match s.seq h, s.stream h i with
  | some q, some x =>
    let e := x.pte page
    if !e.resident then .ok s
    else
      match s.drawBivKey with
      | none => .error (refused .entropy)
      | some (key, s1) =>
        let (bs, io) := s1.readPage q e 2
        match io.stop, io.s.kv.bivPlace (bivGranules q.pageBytes) with
        | some e, _ => .error e
        | none, none => .error (rejectOp .rejectLimit noField)
        | none, some g =>
          let r : BivRec := { granule := g, granules := bivGranules q.pageBytes, seq := h, stream := i, page := page, tokens := e.tokens,
                              bytes := bs, epoch := s.lantern.count, nonce := s.kv.nonce, key := key }
          match io.s.bivWrite (g * 65536) r.image with
          | none => .error { status := .linkDown, detail := 0x1F }
          | some t =>
            .ok (((t.setKv (fun k => { k with records := k.records ++ [r], nonce := k.nonce + 1 })).dropRef e).setStream h i
              (fun y => { y with table := setPte y.table page { e with state := .swapped g } }))
  | _, _ => .ok s

/-- Swap out every resident page of streams in order. -/
def State.swapStreams (s : State) (h : Nat) : List Nat → Except Ending State
  | [] => .ok s
  | i :: rest =>
    match (List.range ((s.stream h i).map (fun x => x.table.length) |>.getD 0)).foldl (fun (t : Except Ending State) p => t.bind (fun u => u.swapPage h i p)) (.ok s) with
    | .ok t => State.swapStreams t h rest
    | .error e => .error e

/-- Something that needs pool or Vestibule space: what it leaves, if there is room. -/
abbrev Want := State → Option State

/-- A way to make room for what a sequence wants. -/
abbrev Room := State → Nat → Want → Option State

/-- Flush the slots of a sequence, with a way to make room (R124). -/
def State.flushWith (room : Room) (s : State) (h : Nat) : List Nat → Option State
  | [] => some s
  | i :: rest => match room s h (fun u => u.flushSlot 2 h i) with
    | some t => State.flushWith room t h rest
    | none => none

/-- The sequence holds no slots any more. -/
def State.releaseSlots (s : State) (h : Nat) : State := s.setSeq h (fun q => { q with streams := q.streams.map (fun x => { x with slotHeld := false }) })

/-- Swap a sequence out (R140): its slots are flushed and released, then its resident pages recorded. Where the slots find no
room its pages go first, and the slots' pages take the rows these free (notes/assumptions/55.md). -/
def State.swapOutWith (room : Room) (s : State) (h : Nat) : Except Ending State :=
  match s.seq h with
  | none => .ok s
  | some q =>
    let is := List.range q.streams.length
    match s.flushWith room h is with
    | some t => State.swapStreams (t.releaseSlots h) h is
    | none => match State.swapStreams s h is with
      | .error e => .error e
      | .ok t => match t.flushAll 2 h with
        | some u => State.swapStreams (u.releaseSlots h) h is
        | none => .error (rejectOp .rejectLimit noField)

/-! ## Pre-emption (R139) -/

/-- Victim `a` goes before victim `b`: highest priority number, earliest last use, highest handle. -/
def victimBefore (a b : Nat × Seq) : Bool :=
  if a.2.priority ≠ b.2.priority then decide (b.2.priority < a.2.priority)
  else if a.2.lastUse ≠ b.2.lastUse then decide (a.2.lastUse < b.2.lastUse)
  else decide (b.1 < a.1)

/-- Insert into a list of victims in order. -/
def insertVictim (v : Nat × Seq) : List (Nat × Seq) → List (Nat × Seq)
  | [] => [v]
  | w :: r => if victimBefore v w then v :: w :: r else w :: insertVictim v r

/-- The candidates for a requester, in order. -/
def State.victims (s : State) (requester : Nat) : List Nat :=
  let priority := ((s.seq requester).map (·.priority)).getD 0
  ((s.kv.seqs.filter (fun e => decide (e.1 ≠ requester) && !s.seqBusy e.1 && decide (priority ≤ e.2.priority) && !e.2.preempted)).foldl
    (fun l v => insertVictim v l) []).map (·.1)

/-- Take victims in order until the request succeeds; with none sufficient no victim is taken. A victim whose slots need room
pre-empts in its turn (R124), at most `n` deep. -/
def State.findRoom : Nat → Room
  | 0 => fun s _ want => want s
  | n + 1 => fun s h want =>
    (s.victims h).foldl (fun (acc : Except (Option State) State) v => match acc with
      | .error r => .error r
      | .ok t => match want t with
        | some u => .error (some u)
        | none => match t.swapOutWith (State.findRoom n) v with
          | .ok u => .ok u
          | .error _ => .error none) (.ok s) |> fun r => match r with
        | .error x => x
        | .ok t => want t

/-- Do something that needs pool or Vestibule space, pre-empting others when it does not fit (R139). -/
def State.withSpace (s : State) (requester : Nat) (want : Want) : Option State := State.findRoom (s.kv.seqs.length + 1) s requester want

/-- Swap a sequence out. -/
def State.swapOut (s : State) (h : Nat) : Except Ending State := s.swapOutWith (State.findRoom s.kv.seqs.length) h

/-! ## Reopen and resume (R125, R140, R141) -/

/-- Reopen a partial page into an empty slot, keeping its first `n` tokens. -/
def State.reopen (s : State) (h i page n : Nat) : Except Ending State :=
  match s.seq h, s.stream h i with
  | some q, some x =>
    let e := x.pte page
    if e.state = .lost then .error { status := .pageRetired, result := BitVec.ofNat 64 (page * q.pageTokens) }
    else
    let (bs, io) := s.readPage q e 1
    match io.stop with
    | some e => .error e
    | none =>
      .ok ((io.s.setStream h i (fun y => { y with slot := q.tokensOf bs (min n e.tokens), table := y.table.take page })).dropRef e)
  | _, _ => .ok s

/-- The entry of a stream that a partial page and an empty slot make due for reopening. -/
def Stream.reopenable (x : Stream) : Option Nat :=
  if !x.slot.isEmpty then none
  else match x.table.getLast? with
    | some e => if e.state = .partialPage then some (x.table.length - 1) else none
    | none => none

/-- Reopen the last pages of streams that are due. -/
def State.reopenDue (s : State) (h : Nat) : List Nat → Except Ending State
  | [] => .ok s
  | i :: rest =>
    match (s.stream h i).bind (fun x => (x.reopenable).map (fun p => (p, (x.pte p).tokens))) with
    | some (p, n) => (match s.reopen h i p n with
        | .ok t => State.reopenDue t h rest
        | .error e => .error e)
    | none => State.reopenDue s h rest

/-- Restore one swapped entry: its record is verified, the page written and the granules freed. A record that is not as
it was written, or whose header does not match, stops the resume (R141). -/
def State.restorePage (s : State) (ctrl h i page : Nat) : State × Option Ending :=
  match s.seq h, s.stream h i with
  | some q, some x =>
    let e := x.pte page
    match e.state with
    | .swapped g =>
      let bad (t : State) : State × Option Ending := (t.postArgs 0x0501 ctrl 2 1 ctrl 0, some (refused .bivTag))
      (match s.kv.records.find? (fun r => decide (r.granule = g)) with
       | none => bad s
       | some r =>
         let (bs, io) := s.bivRead (g * 65536) (64 + r.bytes.length)
         match io.stop with
         | some e => (io.s, some e)
         | none =>
           if bs ≠ r.image ∨ r.seq ≠ h ∨ r.stream ≠ i ∨ r.page ≠ page then bad io.s
           else
             let st : PteState := if e.tokens = q.pageTokens then .full else .partialPage
             match io.s.withSpace h (fun u => u.allocPage h i page st e.tokens r.bytes 2) with
             | none => (io.s, some (rejectOp .rejectLimit noField))
             | some t => (t.setKv (fun k => { k with records := k.records.filter (fun y => y.granule ≠ g) }), none))
    | _ => (s, none)
  | _, _ => (s, none)

/-- Restore entries in order, stopping at the first failure; pages already restored stay. -/
def State.restoreAll (s : State) (ctrl h : Nat) : List (Nat × Nat) → State × Option Ending
  | [] => (s, none)
  | (i, p) :: rest =>
    match s.restorePage ctrl h i p with
    | (t, some e) => (t, some e)
    | (t, none) => State.restoreAll t ctrl h rest

/-- Resume a sequence (R140): slots are reserved, the records restored, partial pages reopened. -/
def State.resume (s : State) (ctrl h : Nat) : State × Option Ending :=
  match s.seq h with
  | none => (s, none)
  | some q =>
    if !q.preempted then (s, none)
    else match s.withSpace h (fun u => u.reserveSlots h) with
      | none => (s, some (rejectOp .rejectLimit noField))
      | some t =>
        let todo := (q.streams.zipIdx).flatMap (fun (x, i) => (List.range x.table.length).map (fun p => (i, p)))
        match t.restoreAll ctrl h todo with
        | (u, some e) => (u, some e)
        | (u, none) => if q.closed then (u, none) else match u.reopenDue h (List.range q.streams.length) with
          | .ok v => (v, none)
          | .error e => (u, some e)

/-! ## Loss (R143) -/

/-- Mark every entry that names a page as lost. -/
def State.losePage (s : State) (g : Page) : State :=
  s.setKv (fun k => { k with
    seqs := k.seqs.map (fun e => (e.1, { e.2 with streams := e.2.streams.map (fun x => { x with
      table := x.table.map (fun t => if t.resident && g.isAt t then { t with state := .lost, pair := 0, bank := 0, row := 0 } else t) }) }))
    pages := k.pages.filter (fun y => !(decide (y.pair = g.pair) && decide (y.bank = g.bank) && decide (y.row = g.row))) })

/-- The pages of a lost pair: their entries go to state 4. -/
def State.losePages (s : State) (pair : Nat) : State :=
  ((s.kv.pages.filter (fun g => decide (g.pair = pair))).foldl (fun (t : State) g => t.losePage g) s).writeTables

/-- An operation reads a lost position (R143). -/
def lostAt (pos : Nat) : Ending := { status := .pageRetired, result := BitVec.ofNat 64 pos }

/-- A stream and entry index that holds a page. -/
def State.holderOf (s : State) (g : Page) : Option (Nat × Nat × Nat) :=
  (s.kv.seqs.flatMap (fun e => (e.2.streams.zipIdx).flatMap (fun (x, i) => ((x.table.zipIdx).filter (fun (t, _) => t.resident && g.isAt t)).map
    (fun (_, p) => (e.1, i, p))))).head?

/-- Copy a page of memory about to be retired to another bank or other rows of its pool, and point every holder to it; a
page that cannot be placed or read is lost (R143). The memory is already in the retirement list, `old` being the list before. -/
def State.moveOff (s : State) (old : List Retired) (g : Page) : State :=
  match s.holderOf g with
  | none => s
  | some (h, i, p) =>
    match s.seq h, s.stream h i with
    | some q, some x =>
      let (bs, io) := (State.readPageThere { s with mem := { s.mem with retired := old } } q (x.pte p))
      let t : State := { io.s with mem := { io.s.mem with retired := s.mem.retired } }
      match io.stop, t.place x g.pair g.rows with
      | none, some b =>
        let moved : Page := { g with bank := b.1, row := b.2, pins := 0 }
        let drain : List Page := if g.pins = 0 then [] else [{ g with refs := 0 }]
        (t.setKv (fun k => { k with
          pages := (k.pages.filter (fun y => !(decide (y.pair = g.pair) && decide (y.bank = g.bank) && decide (y.row = g.row)))) ++ moved :: drain
          seqs := k.seqs.map (fun e => (e.1, { e.2 with streams := e.2.streams.map (fun y => { y with
            table := y.table.map (fun t => if t.resident && g.isAt t then { t with bank := b.1, row := b.2 } else t) }) })) })).writePageThere g.pair b.1 b.2 bs
      | _, _ => t.losePage g
    | _, _ => s

/-- Move page-table block n of a stream, if it lies in given rows, to other rows of the pool, where there are any. -/
def State.moveBlock (s : State) (hit : Nat → Nat → Bool) (h i n : Nat) : State :=
  match s.stream h i with
  | none => s
  | some x => match x.blocks[n]? with
    | none => s
    | some b =>
      if hit b.1 b.2 then
        match s.place { x with table := [] } x.lead 4 with
        | some p => s.setStream h i (fun y => { y with blocks := y.blocks.set n p })
        | none => s
      else s

/-- Move the page-table blocks that lie in given rows of a pair, one after another (R199). -/
def State.moveTables (s : State) (pair : Nat) (hit : Nat → Nat → Bool) : State :=
  ((s.kv.seqs.flatMap (fun e => (e.2.streams.zipIdx).flatMap (fun (x, i) =>
    if x.lead = pair then (List.range x.blocks.length).map (fun n => (e.1, i, n)) else []))).foldl (fun (t : State) b => t.moveBlock hit b.1 b.2.1 b.2.2) s).writeTables

/-- Move every page and page-table block off a bank. -/
def State.evacuateBank (s : State) (old : List Retired) (pair bank : Nat) : State :=
  ((s.kv.pages.filter (fun g => decide (g.pair = pair) && decide (g.bank = bank) && decide (0 < g.refs))).foldl
    (fun (t : State) g => t.moveOff old g) s).moveTables pair (fun b _ => decide (b = bank))

/-- Move every page and page-table block off a 4 KiB block: one row of four banks. -/
def State.evacuateBlock (s : State) (old : List Retired) (pair block : Nat) : State :=
  let hit (bank row rows : Nat) : Bool := decide (bank / 4 = block % 32) && decide (row ≤ block / 32) && decide (block / 32 < row + rows)
  ((s.kv.pages.filter (fun g => decide (g.pair = pair) && hit g.bank g.row g.rows && decide (0 < g.refs))).foldl
    (fun (t : State) g => t.moveOff old g) s).moveTables pair (fun b r => hit b r 4)

/-- Sequences, tables, slots, records and pins end with a pitch or a compute reset, and every pool reads empty (R142). -/
def State.clearKv (s : State) : State := s.setKv (fun k => { nonce := k.nonce })

end Sys2Proof.Machine
end

