-- ==== Sys2Proof/Machine/Seqs.lean ====
section
/-! DEFINITION. The sequence operations, appending, KV_WRITE, KV_EXPORT and the commands of the key-value cache
(05_attention_kv_cache.md R113 to R144). -/

namespace Sys2Proof.Machine

open Sys2Proof

/-! ## Naming a sequence -/

/-- The handle an operation names. -/
def OpCtx.handle (c : OpCtx) : Option Nat := c.cmd.order.bind (fun o => o.handle c.d)

/-- The strike mirror holds a handle for the command (09_work_orders.md R265). -/
def State.noteHandle (s : State) (tag h : Nat) : State := s.setCmd tag (fun c => { c with handles := insertNat c.handles h })

/-- Work on the sequence an operation names: handle 0 or one not in use is rejected (R251), what `pre` rejects next, then a
zero count is DONE_EMPTY, and a pre-empted sequence is resumed first (R140). -/
def State.onSeq (s : State) (c : OpCtx) (pre : Seq → Option Ending) (zero : Bool) (body : Nat → State → State × Ending) : State × Ending :=
  match c.handle.bind (fun h => if h = 0 then none else (s.seq h).map (fun q => (h, q))) with
  | none => (s, rejectOp .rejectState 48)
  | some (h, q) =>
    match pre q with
    | some e => (s, e)
    | none =>
      if zero then (s, { status := .doneEmpty })
      else match (s.noteHandle c.tag h).resume c.cmd.ctrl h with
        | (t, some e) => (t, e)
        | (t, none) => body h t

/-- An operation of sequences and pages: the page tables it changed are written into their blocks (R119, R120). -/
def paged (body : OpCtx → State → State × Ending) (c : OpCtx) (s : State) : State × Ending :=
  let (t, e) := body c s
  (t.touchTables.writeTables, e)

/-- A page size, layer or stream beyond what the sequence has (R508). -/
def limitIf (bad : Bool) (off : Nat) : Option Ending := if bad then some (rejectOp .rejectLimit off) else none

/-- An append or a truncation of a closed sequence (R123, R126). -/
def closedStop (q : Seq) : Option Ending := if q.closed then some (rejectOp .rejectState 48) else none

/-- No space was found even by pre-emption (R139). -/
def noSpace : Ending := rejectOp .rejectLimit noField

/-! ## SEQ_OPEN (R114, R118, R122) -/

/-- Formats keys and values may be stored in (Table 05-2). -/
def kvFmtBad (v : Nat) : Bool :=
  match fmtByte v with
  | some b => b.cplx || !(decide (b.fmt = .int8) || decide (b.fmt = .e4m3) || decide (b.fmt = .e5m2) || decide (b.fmt = .mxfp4)
      || decide (b.fmt = .mxe4m3) || decide (b.fmt = .mxe5m2) || decide (b.fmt = .mxint8) || b.fmt.is16)
  | none => true

/-- The number is a power of two. -/
def isPow2 (n : Nat) : Bool := decide (0 < n) && decide (2 ^ Nat.log2 n = n)

/-- The sequence a SEQ_OPEN descriptor describes, without its streams. -/
def seqOf (d : List Byte) : Seq :=
  { layers := field d 48 2, kvHeads := field d 50 1, qPerKv := field d 51 1, dim := field d 52 2, pageTokens := field d 54 2,
    fmtK := BitVec.ofNat 8 (field d 56 1), fmtV := BitVec.ofNat 8 (field d 57 1), scaleK := BitVec.ofNat 32 (field d 60 4),
    scaleV := BitVec.ofNat 32 (field d 64 4), priority := field d 68 1, ropeMode := field d 80 1, ropeDims := field d 82 2, ropeFreq := [],
    closed := false, lastUse := 0, streams := [] }

/-- The admission checks of SEQ_OPEN, in the order of R114. -/
def seqOpenChecks (s : State) (d : List Byte) : List Check :=
  let q := seqOf d
  let rowBad (v : Nat) : Bool := !kvFmtBad v && decide (q.dim * (kvFmt (BitVec.ofNat 8 v)).bits / 8 % 32 ≠ 0)
  let sc (v sv : Nat) : Bool := !kvFmtBad v && !scaleOk (kvFmt (BitVec.ofNat 8 v)) sv
  let freqs := if q.ropeMode = 0 then 0 else 2 * q.ropeDims
  let places := 2 * (q.layers * q.kvHeads)
  [(decide (q.pageTokens = 0), .rejectInvalidZero, 54), (!isPow2 q.pageTokens, .rejectFormat, 54),
   (rowBad (field d 56 1) || rowBad (field d 57 1), .rejectFormat, 52), (decide (256 < q.layers), .rejectFormat, 48),
   (decide (64 < q.kvHeads), .rejectFormat, 50), (decide (q.qPerKv = 0) || decide (64 < q.qPerKv), .rejectFormat, 51),
   (decide (q.dim < 64) || decide (256 < q.dim) || decide (q.dim % 32 ≠ 0), .rejectFormat, 52),
   (decide (q.pageTokens < 16) || decide (2048 < q.pageTokens), .rejectFormat, 54), (kvFmtBad (field d 56 1), .rejectFormat, 56),
   (kvFmtBad (field d 57 1), .rejectFormat, 57), (sc (field d 56 1) (field d 60 4), .rejectFormat, 60),
   (sc (field d 57 1) (field d 64 4), .rejectFormat, 64), (decide (7 < q.priority), .rejectFormat, 68), (decide (2 < q.ropeMode), .rejectFormat, 80),
   (decide (q.dim < q.ropeDims) || decide (q.ropeDims % 2 ≠ 0), .rejectFormat, 82), (decide (2 ^ 20 < q.pageBytes), .rejectLimit, 54)] ++
  [(decide (4096 < q.qPerKv * q.kvHeads), .rejectLimit, 51), (!s.reachableRange (field d 72 8) places, .rejectLimit, 72),
   (decide (0 < freqs) && !s.reachableRange (field d 88 8) freqs, .rejectLimit, 88)]

/-- A stream from its placement entry (R118). -/
def streamOf (v : Nat) : Stream :=
  { lead := bits v 0 10, span := bits v 10 4 + 1, length := 0, slot := [], slotHeld := false, table := [], blocks := [] }

/-- The span pairs of a stream are present, in one tower and with a pool. -/
def State.spanOk (s : State) (x : Stream) : Bool :=
  (List.range x.span).all (fun k => s.pairPresent (x.lead + k) && s.hasPool (x.lead + k) && decide ((x.lead + k) / 64 = x.lead / 64))

/-- Numbers of 2 or 4 bytes in a byte string. -/
def numbers (n k : Nat) (bs : List Byte) : List Nat := (List.range k).map (fun i => field bs (n * i) n)

/-- The first handle not in use from `h` on, round the 65,535 of them. -/
def freeHandle (used : List Nat) (h : Nat) : Nat → Nat
  | 0 => h
  | k + 1 => if used.contains h then freeHandle used (h % 65535 + 1) k else h

/-- A handle for a new sequence: any not in use, a free choice (notes/assumptions/13.md). -/
def State.newHandle (s : State) : Nat × State :=
  let (n, t) := s.draw
  let used := s.kv.seqs.map (·.1)
  (freeHandle used (n % 65535 + 1) used.length, t)

/-- No further sequence can be held (R113). -/
def State.seqsFull (s : State) : Bool := decide (65535 ≤ s.kv.seqs.length)

/-- SEQ_OPEN: its placement entries are read, a handle is taken and its slots reserved; the result is the handle. -/
def seqOpen (c : OpCtx) (s : State) : State × Ending :=
  let q := seqOf c.d
  let n := q.layers * q.kvHeads
  let nf := if q.ropeMode = 0 then 0 else q.ropeDims / 2
  if n = 0 then (s, { status := .doneEmpty })
  else if c.sealed s (field c.d 72 8) (2 * n) || c.sealed s (field c.d 88 8) (4 * nf) then (s, refused .sealedRange)
  else if s.seqsFull then (s, noSpace)
  else
    let (pb, io) := s.load c.who (field c.d 72 8) (2 * n)
    let (fb, io2) := io.s.load c.who (field c.d 88 8) (4 * nf)
    match io.stop, io2.stop with
    | some e, _ => (io.s, e)
    | none, some e => (io2.s, e)
    | none, none =>
      let xs := (numbers 2 n pb).map streamOf
      if !xs.all io2.s.spanOk then (io2.s, rejectOp .rejectLimit 72)
      else
        let (h, t) := io2.s.newHandle
        let q' : Seq := { q with streams := xs, ropeFreq := (numbers 4 nf fb).map (BitVec.ofNat 32), lastUse := t.time.now }
        match (t.setKv (fun k => { k with seqs := put k.seqs h q' })).withSpace h (fun u => u.reserveSlots h) with
        | some u => (u.noteHandle c.tag h, { status := .done, result := BitVec.ofNat 64 h })
        | none => (t, noSpace)

/-- SEQ_OPEN. -/
def execOpSeqOpen (tag : Nat) (op : Nat) (s : State) : Host.Outcome State Fault Refusal := .next (s.runOp .seqOpen tag op (paged seqOpen))

/-! ## The other sequence operations -/

/-- The page-table blocks a stream's table needs. -/
def State.needBlocks (s : State) (h : Nat) : Option State :=
  match s.seq h with
  | none => none
  | some q => ((q.streams.zipIdx).flatMap (fun (x, i) => (List.range ((x.table.length + 510) / 511)).map (fun k => (i, 511 * k)))).foldl
      (fun (t : Option State) (i, p) => t.bind (fun u => u.needBlock h i p)) (some s)

/-- SEQ_FORK (R136): a new sequence with a reference on every page of the source and copies of its slots; the fork is open
and its last use is now. -/
def seqFork (c : OpCtx) (src : Nat) (s : State) : State × Ending :=
  match s.seq src with
  | none => (s, rejectOp .rejectState 48)
  | some q =>
    if s.seqsFull then (s, noSpace)
    else
      let (h, t) := s.newHandle
      let q' : Seq := { q with closed := false, lastUse := t.time.now,
                               streams := q.streams.map (fun x => { x with slotHeld := false, blocks := [] }) }
      match (t.setKv (fun k => { k with seqs := put k.seqs h q' })).withSpace h (fun u => (u.reserveSlots h).bind (fun v => v.needBlocks h)) with
      | none => (t, noSpace)
      | some u =>
        let refs := q.streams.flatMap (fun x => x.table.filter Pte.resident)
        ((refs.foldl (fun (v : State) e => v.onPage e (fun g => { g with refs := g.refs + 1 })) u).noteHandle c.tag h,
          { status := .done, result := BitVec.ofNat 64 h })

/-- SEQ_FORK. -/
def execOpSeqFork (tag : Nat) (op : Nat) (s : State) : Host.Outcome State Fault Refusal :=
  .next (s.runOp .seqFork tag op (paged (fun c t => t.onSeq c (fun _ => none) false (fun h u => seqFork c h u))))

/-- SEQ_CLOSE: the slots are flushed and no append is accepted from then on (R124). -/
def execOpSeqClose (tag : Nat) (op : Nat) (s : State) : Host.Outcome State Fault Refusal :=
  .next (s.runOp .seqClose tag op (paged (fun c t => t.onSeq c (fun _ => none) false (fun h u =>
    match u.withSpace h (fun v => v.flushAll 1 h) with
    | none => (u, noSpace)
    | some v => (v.setSeq h (fun q => { q with closed := true }), { status := .done })))))

/-- Drop every reference and record of a sequence and end its handle. -/
def State.freeSeq (s : State) (h : Nat) : State :=
  match s.seq h with
  | none => s
  | some q =>
    ((q.streams.flatMap (fun x => x.table.filter Pte.resident)).foldl (fun (t : State) e => t.dropRef e) s).setKv (fun k =>
      { k with seqs := del k.seqs h, records := k.records.filter (fun r => r.seq ≠ h) })

/-- SEQ_FREE. -/
def execOpSeqFree (tag : Nat) (op : Nat) (s : State) : Host.Outcome State Fault Refusal :=
  .next (s.runOp .seqFree tag op (paged (fun c t => t.onSeq c (fun _ => none) false (fun h u => (u.freeSeq h, { status := .done })))))

/-- Truncate stream i to length n (R126): the page that then holds a last part is reopened with its first tokens. -/
def State.truncStream (s : State) (h i n : Nat) : Except Ending State :=
  match s.seq h, s.stream h i with
  | some q, some x =>
    if x.length ≤ n then .ok s
    else if x.stored ≤ n then .ok (s.setStream h i (fun y => { y with length := n, slot := y.slot.take (n - x.stored) }))
    else
      let keep := (n + q.pageTokens - 1) / q.pageTokens
      let t := ((x.table.drop keep).filter Pte.resident).foldl (fun (t : State) e => t.dropRef e) s
      let u := t.setStream h i (fun y => { y with length := n, slot := [], table := y.table.take keep })
      if n % q.pageTokens = 0 then .ok u else u.reopen h i (keep - 1) (n % q.pageTokens)
  | _, _ => .ok s

/-- Truncate streams in order. -/
def State.truncStreams (s : State) (h n : Nat) : List Nat → State × Ending
  | [] => (s, { status := .done })
  | i :: rest => match s.truncStream h i n with
    | .ok t => State.truncStreams t h n rest
    | .error e => (s, e)

/-- Flush the full slots of streams where there is room: an operation on a stream retries the flush that found none, and
goes on where there is still none (R124, notes/assumptions/55.md). -/
def State.retryFlush (s : State) (h : Nat) (is : List Nat) : State :=
  is.foldl (fun (t : State) i => match t.seq h, t.stream h i with
    | some q, some x => if x.slot.length < q.pageTokens then t else (t.withSpace h (fun u => u.flushSlot 1 h i)).getD t
    | _, _ => t) s

/-- SEQ_TRUNCATE. A SQ_LENGTH of 0 is a length R126 defines and no zero count: every token goes (notes/assumptions/55.md). -/
def execOpSeqTruncate (tag : Nat) (op : Nat) (s : State) : Host.Outcome State Fault Refusal :=
  .next (s.runOp .seqTruncate tag op (paged (fun c t => t.onSeq c closedStop false (fun h u =>
    let is := List.range (((u.seq h).map (fun q => q.streams.length)).getD 0)
    (u.retryFlush h is).truncStreams h (field c.d 56 8) is))))

/-- SEQ_PREEMPT (R139, R140): rejected while the sequence has an operation in flight; it is swapped out whole or not at
all. One already pre-empted stays so. -/
def execOpSeqPreempt (tag : Nat) (op : Nat) (s : State) : Host.Outcome State Fault Refusal :=
  .next (s.runOp .seqPreempt tag op (paged (fun c t =>
    match c.handle.bind (fun h => if h = 0 then none else (t.seq h).map (fun _ => h)) with
    | none => (t, rejectOp .rejectState 48)
    | some h =>
      if t.seqBusyBut c.tag c.op h then (t, rejectOp .rejectState 48)
      else match (t.noteHandle c.tag h).swapOut h with
        | .ok u => (u, { status := .done })
        | .error e => (t.noteHandle c.tag h, e))))

/-- SEQ_RESUME (R140, R141). -/
def execOpSeqResume (tag : Nat) (op : Nat) (s : State) : Host.Outcome State Fault Refusal :=
  .next (s.runOp .seqResume tag op (paged (fun c t => t.onSeq c (fun _ => none) false (fun _ u => (u, { status := .done })))))

/-! ## Rotation (R121) -/

/-- The partner of a dimension and whether it is the first of its pair, with the pair's number. -/
def ropePair (mode r i : Nat) : Nat × Bool × Nat :=
  if mode = 1 then (if i % 2 = 0 then (i + 1, true, i / 2) else (i - 1, false, i / 2))
  else (if i < r / 2 then (i + r / 2, true, i) else (i - r / 2, false, i - r / 2))

/-- A dimension is rotated. -/
def Seq.rotates (q : Seq) (i : Nat) : Bool := decide (q.ropeMode ≠ 0) && decide (i < q.ropeDims)

/-- A vector rotated at a position, in the W-format. -/
def Seq.rotate (q : Seq) (pos : Nat) (v : List Num) : List WRes :=
  (v.zipIdx).map (fun (x, i) =>
    if q.rotates i then
      let (j, first, k) := ropePair q.ropeMode q.ropeDims i
      let y := v.getD j .zero
      let a := posArg pos (fp32 (q.ropeFreq.getD k 0).toNat)
      let c := wCos a
      let sn := wSin a
      if first then (c.bind (wMul x)).bind (fun p => (sn.bind (wMul y)).bind (fun r => wSub p r))
      else (sn.bind (wMul y)).bind (fun p => (c.bind (wMul x)).bind (fun r => wAdd p r))
    else WRes.pure x)

/-- Values of a stored vector: elements, block scales and per-tensor scale. -/
def kvVals (f : Fmt) (scale : BitVec 32) (bs scales : List Byte) (n : Nat) : List Num :=
  (runVals f ((List.range n).map (elemBits bs f.bits)) (fun b => (scales.getD b 0).toNat)).map (fun v => if f.scaled then v.mul (fp32 scale.toNat) else v)

/-- A key as it is stored: rotated and converted to nearest even with saturation where it rotates, as given elsewhere. -/
def Seq.storeKey (q : Seq) (pos : Nat) (draw : Nat → Nat) (bs scales : List Byte) : List Byte × List Byte × BitVec 8 :=
  let f := kvFmt q.fmtK
  if q.ropeMode = 0 ∨ q.ropeDims = 0 then (bs, scales, 0)
  else
    let xs := kvVals f q.scaleK bs scales q.dim
    let vs := q.rotate pos (xs.map (fun v => (wRound v).v))
    let r := outRow f (outRecip f q.scaleK.toNat) { ceil := false, ovf := false, sr := false } draw vs
    let o := { r with flags := r.flags ||| nanIn xs }
    if f.mx then
      let touched (b : Nat) : Bool := (List.range 32).any (fun i => q.rotates (32 * b + i))
      (packElems f.bits ((o.elems.zipIdx).map (fun (e, i) => if touched (i / 32) then e else elemBits bs f.bits i)),
        (o.scales.zipIdx).map (fun (v, b) => if touched b then BitVec.ofNat 8 v else scales.getD b 0), o.flags)
    else (packElems f.bits ((o.elems.zipIdx).map (fun (e, i) => if q.rotates i then e else elemBits bs f.bits i)), [], o.flags)

/-! ## Append (R123) -/

/-- Where an append reads: the bases of keys and values, and the stride. -/
structure AppendSrc where
  k : Nat
  v : Nat
  stride : Nat
  layer : Nat

/-- Read token j of head h: its key and value as given; the scale bytes of microscaled formats have no stated source and
are free (notes/assumptions/10.md). -/
def State.readToken (s : State) (c : OpCtx) (q : Seq) (a : AppendSrc) (j h : Nat) : Option (Token × Nat) × Io :=
  let (kb, io) := s.load c.who (a.k + j * a.stride + h * q.kb) q.kb
  match io.stop with
  | some _ => (none, io)
  | none =>
    let (vb, io2) := io.s.load c.who (a.v + j * a.stride + h * q.vb) q.vb
    match io2.stop with
    | some _ => (none, io2)
    | none =>
      let (pick, t) := if q.ks = 0 ∧ q.vs = 0 then (fun _ => 0, io2.s) else io2.s.drawMany
      (some ({ key := kb, keyScales := freeBytes pick q.ks, value := vb, valueScales := freeBytes (fun n => pick (q.ks + n)) q.vs }, h), { io2 with s := t })

/-- Read token j of every head of a layer. -/
def State.readTokens (s : State) (c : OpCtx) (q : Seq) (a : AppendSrc) (j : Nat) : List Nat → List (Token × Nat) × Io
  | [] => ([], { s := s })
  | h :: rest =>
    match s.readToken c q a j h with
    | (some x, io) =>
      let (more, io2) := State.readTokens io.s c q a j rest
      (x :: more, io2)
    | (none, io) => ([], io)

/-- Put one token into a stream's slot: the key rotated at its position, the length advanced. -/
def State.putToken (s : State) (hd i : Nat) (k : Token) : State × BitVec 8 :=
  match s.seq hd, s.stream hd i with
  | some q, some x =>
    let (draw, s) := s.drawMany
    let (kb, ks, fl) := q.storeKey x.length draw k.key k.keyScales
    (s.setStream hd i (fun y => { y with slot := y.slot ++ [{ k with key := kb, keyScales := ks }], length := y.length + 1 }), fl)
  | _, _ => (s, 0)

/-- Flush the full slots of streams, pre-empting for room; the first that finds none stops (R124). -/
def State.flushFull (s : State) (h : Nat) : List Nat → Except (State × Ending) State
  | [] => .ok s
  | i :: rest =>
    match s.seq h, s.stream h i with
    | some q, some x =>
      if x.slot.length < q.pageTokens then State.flushFull s h rest
      else match s.withSpace h (fun u => u.flushSlot 1 h i) with
        | some t => State.flushFull t h rest
        | none => .error (s, noSpace)
    | _, _ => .ok s

/-- Append the tokens of rows `j …`, each whole to all the layer's streams or not at all. -/
def State.appendRows (s : State) (c : OpCtx) (h : Nat) (a : AppendSrc) (fl : BitVec 8) : List Nat → State × Option Ending × BitVec 8
  | [] => (s, none, fl)
  | j :: rest =>
    match s.seq h with
    | none => (s, none, fl)
    | some q =>
      match s.flushFull h (q.layerStreams a.layer) with
      | .error (t, e) => (t, some e, fl)
      | .ok s1 =>
        match s1.reopenDue h (q.layerStreams a.layer) with
        | .error e => (s1, some e, fl)
        | .ok s2 =>
          let (toks, io) := s2.readTokens c q a j (List.range q.kvHeads)
          match io.stop with
          | some e => (io.s, some e, fl)
          | none =>
            let (t, f) := toks.foldl (fun (acc : State × BitVec 8) (k, i) =>
              let (u, g) := acc.1.putToken h (a.layer * q.kvHeads + i) k
              (u, acc.2 ||| g)) (io.s, fl)
            let t' := t.setSeq h (fun q => { q with lastUse := t.time.now })
            match t'.flushFull h (q.layerStreams a.layer) with
            | .error (u, e) => (u, some e, f)
            | .ok u => State.appendRows u c h a f rest

/-- The range an append reads lies in a range sealed to another party. -/
def OpCtx.appendSealed (c : OpCtx) (s : State) (q : Seq) (a : AppendSrc) (rows : Nat) : Bool :=
  c.sealed s a.k (spanBytes a.stride (q.kvHeads * q.kb) rows) || c.sealed s a.v (spanBytes a.stride (q.kvHeads * q.vb) rows)

/-- What the append fields of ATT_APPEND, ATT_DECODE and ATT_PREFILL name. -/
def appendSrc (d : List Byte) : AppendSrc := { k := field d 56 8, v := field d 64 8, stride := field d 72 4, layer := field d 52 1 }

/-- Checks of the base addresses of an operation of the chapter: they name memory (R31), pool rows among it (R117). -/
def State.baseChecks (s : State) (l : List (Nat × Nat)) : List Check := l.map (fun x => (!s.reachable x.2, .rejectLimit, x.1))

/-- The admission checks of ATT_APPEND. -/
def appendChecks (s : State) (d : List Byte) : List Check := s.baseChecks [(56, field d 56 8), (64, field d 64 8)]

/-- ATT_APPEND. -/
def execOpAttAppend (tag : Nat) (op : Nat) (s : State) : Host.Outcome State Fault Refusal :=
  .next (s.runOp .attAppend tag op (paged (fun c t =>
    let a := appendSrc c.d
    let n := field c.d 54 2
    t.onSeq c (fun q => (limitIf (decide (q.layers ≤ a.layer)) 52).orElse (fun _ => closedStop q)) (decide (n = 0)) (fun h u =>
      if (u.seq h).any (fun q => c.appendSealed u q a n) then (u, refused .sealedRange)
      else match u.appendRows c h a 0 (List.range n) with
        | (v, some e, _) => (v, e)
        | (v, none, fl) => (v, { status := .done, flags := fl })))))

/-! ## KV_WRITE (R136) -/

/-- Store a piece of a page's bytes, word by word. -/
def State.writePiecePage (s : State) (e : Pte) (off : Nat) (bs : List Byte) : Nat → State
  | 0 => s
  | n + 1 =>
    if bs.isEmpty then s
    else
      let m := 32 - off % 32
      let w := rowOffset e.bank (e.row + off / 1024) (off % 1024) / 32
      State.writePiecePage (s.writeWord e.pair w (off % 32) (bs.take m) (4096, 0)) e (off + m) (bs.drop m) n

/-- The pieces of a page that a write of a token's key or value covers. -/
def Seq.sidePieces (q : Seq) (values : Bool) (t : Nat) (k : Token) : List (Nat × List Byte) :=
  if values then (q.vsOff + t * q.vs, k.valueScales) :: (List.range (q.vb / 32)).map (fun g => (q.vOff + (g * q.pageTokens + t) * 32, (k.value.drop (32 * g)).take 32))
  else [(t * q.kb, k.key), (q.ksOff + t * q.ks, k.keyScales)]

/-- Overwrite one token's key or value at a position: in the slot, in its page in place, or in a private copy. -/
def State.writeToken (s : State) (h i pos : Nat) (values : Bool) (k : Token) : Except (State × Ending) State :=
  match s.seq h, s.stream h i with
  | some q, some x =>
    let mix (old : Token) : Token := if values then { old with value := k.value, valueScales := k.valueScales }
      else { old with key := k.key, keyScales := k.keyScales }
    if x.stored ≤ pos then .ok (s.setStream h i (fun y => { y with slot := y.slot.modify (pos - x.stored) mix }))
    else
      let p := pos / q.pageTokens
      let e := x.pte p
      match s.pageAt e with
      | none => .error (s, lostAt pos)
      | some g =>
        if g.refs = 1 ∧ g.pins = 0 then
          .ok ((q.sidePieces values (pos % q.pageTokens) k).foldl (fun (t : State) y =>
            (t.cross e.pair e.bank (e.row + y.1 / 1024) (y.1 % 1024 + y.2.length) 1 true).writePiecePage e y.1 y.2 (y.2.length / 32 + 2)) s)
        else
          let (bs, io) := s.readPage q e 2
          match io.stop with
          | some e => .error (io.s, e)
          | none =>
            let new := (q.sidePieces values (pos % q.pageTokens) k).foldl (fun b y => splice b y.1 y.2) bs
            match io.s.withSpace h (fun u => u.allocPage h i p e.state e.tokens new 2) with
            | none => .error (io.s, noSpace)
            | some t => .ok (t.dropRef e)
  | _, _ => .ok s

/-- Overwrite tokens in order. -/
def State.writeTokens (s : State) (c : OpCtx) (h i : Nat) (values : Bool) : List Nat → State × Ending
  | [] => (s, { status := .done })
  | j :: rest =>
    match s.seq h with
    | none => (s, { status := .done })
    | some q =>
      let n := if values then q.vb else q.kb
      let (bs, io) := s.load c.who (field c.d 72 8 + j * field c.d 80 4) n
      match io.stop with
      | some e => (io.s, e)
      | none =>
        let ns := if values then q.vs else q.ks
        let (pick, t) := if ns = 0 then (fun _ => 0, io.s) else io.s.drawMany
        let sc := freeBytes pick ns
        match t.writeToken h i (field c.d 56 8 + j) values { key := bs, keyScales := sc, value := bs, valueScales := sc } with
        | .ok u => State.writeTokens u c h i values rest
        | .error (u, e) => (u, e)

/-- The admission checks of KV_WRITE. -/
def kvWriteChecks (s : State) (d : List Byte) : List Check :=
  (decide (1 < field d 54 1), .rejectFormat, 54) :: s.baseChecks [(72, field d 72 8)]

/-- KV_WRITE: positions at or beyond the stream's length are beyond what is held. -/
def execOpKvWrite (tag : Nat) (op : Nat) (s : State) : Host.Outcome State Fault Refusal :=
  .next (s.runOp .kvWrite tag op (paged (fun c t =>
    let i := field c.d 52 2
    let n := field c.d 64 4
    t.onSeq c (fun q => match q.streams[i]? with
        | none => some (rejectOp .rejectLimit 52)
        | some x => limitIf (decide (x.length < field c.d 56 8 + n)) 56) (decide (n = 0)) (fun h u =>
      if (u.seq h).any (fun q => c.sealed u (field c.d 72 8) (spanBytes (field c.d 80 4) (if field c.d 54 1 = 1 then q.vb else q.kb) n)) then
        (u, refused .sealedRange)
      else (u.retryFlush h [i]).writeTokens c h i (decide (field c.d 54 1 = 1)) (List.range n)))))

/-! ## KV_EXPORT -/

/-- Export pages in order: each is pinned and read, to be written to its place at the destination. -/
def State.exportPages (s : State) (c : OpCtx) (h i : Nat) : List Nat → State × Ending
  | [] => (s, { status := .done })
  | k :: rest =>
    match s.seq h, s.stream h i with
    | some q, some x =>
      let p := field c.d 56 8 + k
      let e := x.pte p
      if e.state = .lost then (s, lostAt (p * q.pageTokens))
      else if !e.resident then (s, rejectOp .rejectState 56)
      else
        let (bs, io) := (s.pin c.tag c.op e).readPage q e 1
        match io.stop with
        | some e => (io.s, e)
        | none =>
          State.exportPages (io.s.putOff [{ space := field c.d 68 1, addr := field c.d 72 8 + k * q.pageBytes, bytes := bs }]) c h i rest
    | _, _ => (s, { status := .done })

/-- The admission checks of KV_EXPORT: to module, far-tier or host memory. -/
def kvExportChecks (s : State) (ctrl : Fin 4) (d : List Byte) : List Check :=
  let sp := field d 68 1
  (decide (sp = 0) || spaceBad ctrl sp, .rejectFormat, 68) ::
    (match sp with
      | 1 => (decide (farBase ≤ field d 72 8) && decide (field d 72 8 < 2 ^ 48), .rejectFormat, 72) :: s.baseChecks [(72, field d 72 8)]
      | 2 => [(decide (s.geo.farTierMib * 2 ^ 20 ≤ field d 72 8), .rejectLimit, 72)]
      | _ => [])

/-- KV_EXPORT. -/
def execOpKvExport (tag : Nat) (op : Nat) (s : State) : Host.Outcome State Fault Refusal :=
  .next (s.runOp .kvExport tag op (paged (fun c t =>
    let i := field c.d 52 2
    let n := field c.d 64 4
    let sp := field c.d 68 1
    t.onSeq c (fun q => limitIf (decide (q.streams.length ≤ i)) 52) (decide (n = 0)) (fun h u =>
      if decide (sp ≠ 3) && (u.seq h).any (fun q => c.sealed u (spaceAddr sp (field c.d 72 8)) (n * q.pageBytes)) then (u, refused .sealedRange)
      else (u.retryFlush h [i]).exportPages c h i (List.range n)))))

/-! ## The commands -/

/-- KV_POOL would make the pool of a pair reach into the range of an enabled window that names it (R174). -/
def State.poolMeetsWindow (s : State) (pair rows : Nat) : Bool :=
  decide (0 < rows) && s.mem.windows.any (fun e => e.2.enable && (windowPairs e.2.tower e.2.first e.2.count).contains pair
    && decide ((9216 - rows) * 131072 < e.2.base + e.2.size))

/-- The pool of a pair holds a page or a page-table block. -/
def State.poolHolds (s : State) (pair : Nat) : Bool :=
  s.kv.pages.any (fun g => decide (g.pair = pair)) || s.kv.seqs.any (fun e => e.2.streams.any (fun x => decide (x.lead = pair) && !x.blocks.isEmpty))

/-- KV_POOL (R116): the pool of a pair; the lines and merged writes that stand for its rows are written out first. -/
def execKvPool (ctrl : Fin 4) (slot : Fin 1024) (s : State) : Host.Outcome State Fault Refusal :=
  .next (s.serve 0x0030 ctrl slot (fun a t =>
    let p := field a.b 24 2
    let r := field a.b 26 2
    a.checked t
      [(decide (1023 < p), .rejectFormat, 24), (decide (9216 < r) || decide (r % 16 ≠ 0), .rejectFormat, 26),
       (!t.pairPresent p, .rejectLimit, 24), (decide (0 < r) && decide (r < 32), .rejectLimit, 26),
       (t.poolHolds p || t.poolMeetsWindow p r, .rejectState, 26)]
      (fun t => a.done (((t.flushSlice p).flushMerge p).setSettings (fun x =>
        { x with poolRows := if r = 0 then del x.poolRows p else put x.poolRows p r })))))

/-- BIVOUAC_SET (R138): space 2 is a range of the far tier, space 3 host memory through the submitting controller's port. -/
def execBivouacSet (ctrl : Fin 4) (slot : Fin 1024) (s : State) : Host.Outcome State Fault Refusal :=
  .next (s.serve 0x0031 ctrl slot (fun a t =>
    let sp := field a.b 24 1
    let ba := field a.b 32 8
    let si := field a.b 40 8
    a.checked t
      [(!(decide (sp = 2) || decide (sp = 3)) || (decide (sp = 3) && a.noPort), .rejectFormat, 24), (decide (ba % 65536 ≠ 0), .rejectFormat, 32),
       (decide (si % 65536 ≠ 0), .rejectFormat, 40), (decide (sp = 2) && decide (t.geo.farTierMib * 2 ^ 20 < ba + si), .rejectLimit, 32),
       (!t.kv.records.isEmpty, .rejectState, noField)]
      (fun t => a.done (t.setKv (fun k => { k with
        bivouac := if si = 0 then none else some (decide (sp = 2), ba, si)
        bivPort := if a.ctrl = 1 then 1 else 0 })))))

/-- KV_MAP_READ copies a stream's page-table entries to host memory, empty beyond the table's end. -/
def execKvMapRead (ctrl : Fin 4) (slot : Fin 1024) (s : State) : Host.Outcome State Fault Refusal :=
  .next (s.serve 0x0032 ctrl slot (fun a t =>
    let h := field a.b 24 4 % 65536
    let i := field a.b 28 2
    let n := field a.b 40 4
    a.checked t
      [(a.noPort, .rejectFormat, noField), ((t.seq h).any (fun q => decide (q.streams.length ≤ i)), .rejectLimit, 28),
       (decide (h = 0) || (t.seq h).isNone, .rejectState, 24)]
      (fun t =>
        if n = 0 then a.finish t { status := .doneEmpty }
        else a.copyOut t (field a.b 48 8) (((t.stream h i).map (fun x =>
          (List.range n).flatMap (fun k => leBytes 8 (x.pte (field a.b 32 8 + k)).word))).getD []))))

end Sys2Proof.Machine
end

