-- ==== Sys2Proof/Machine/Sfu.lean ====
section
/-! DEFINITION. The operations of the special-function unit: SF_APPLY, SOFTMAX, NORM (04_special_functions.md R94 to
R112). -/

namespace Sys2Proof.Machine

open Sys2Proof

/-! ## SF_APPLY (Table 04-6; packed under 09_work_orders.md R248) -/

/-- The format of a descriptor byte, FP32 where it is invalid. -/
def dFmt (d : List Byte) (off : Nat) : Fmt := ((fmtByte (field d off 1)).map (·.fmt)).getD .fp32

/-- The function is one of the three of turns. -/
def ofTurns (f : Nat) : Bool := decide (f = 0x0B) || decide (f = 0x0C) || decide (f = 0x0D)

/-- Elements written per element read. -/
def sfParts (d : List Byte) : Nat := if field d 48 1 = 0x0D then 2 else 1

/-- The core-store ranges of SF_APPLY. -/
def sfRanges (d : List Byte) : List CoreRange :=
  let n := field d 52 4
  let fi := dFmt d 56
  let fo := dFmt d 57
  [{ off := 64, addr := field d 64 8, len := packedBytes fi.bits n },
   { off := 72, addr := field d 72 8, len := packedBytes fo.bits (sfParts d * n), wr := true },
   { off := 80, addr := field d 80 8, len := if fi.mx then blocks32 n else 0 },
   { off := 88, addr := field d 88 8, len := if fo.mx then blocks32 n else 0, wr := true }]

/-- The admission checks of SF_APPLY (R41, R46, R52, R87, R94, R95, R97, R64). -/
def sfChecks (s : State) (d : List Byte) : List Check :=
  let f := field d 48 1
  let n := field d 52 4
  let fi := field d 56 1
  let fo := field d 57 1
  let foBad := match fmtByte fo with
    | none => true
    | some b => decide (b.fmt = .fp64) || decide (b.cplx ≠ decide (f = 0x0D))
  let pre := field d 96 4
  let pos := field d 108 1
  let rs := sfRanges d
  let clash := !rowFmtBad fi && !foBad && match rs with
    | a :: b :: _ => meets a.addr a.len b.addr b.len
        && !(decide (a.addr = b.addr) && decide ((dFmt d 56).bits = sfParts d * (dFmt d 57).bits))
    | _ => false
  [(decide (0x0E < f), .rejectFormat, 48), (decide (16777215 < n), .rejectFormat, 52), (rowFmtBad fi, .rejectFormat, 56),
   (foBad, .rejectFormat, 57), (decide (field d 64 8 % 32 ≠ 0), .rejectFormat, 64),
   (decide (field d 72 8 % 32 ≠ 0) || clash, .rejectFormat, 72), (scaleBad fi (field d 80 8), .rejectFormat, 80),
   (scaleBad fo (field d 88 8), .rejectFormat, 88), (notFinite pre, .rejectFormat, 96),
   (notFinite (field d 100 4), .rejectFormat, 100), (notFinite (field d 104 4), .rejectFormat, 104),
   (decide (1 < pos) || (decide (pos = 1) && (!ofTurns f || decide (pre ≠ 0x3F800000) || !(fp32 (field d 100 4)).isZero
      || decide (fi ≠ 0x0D))), .rejectFormat, 108),
   (convBad (field d 116 1), .rejectFormat, 116)] ++ s.rangeChecks rs

/-- The argument of the function for an input value (R86, R95). -/
def sfArg (d : List Byte) (x : Num) : WRes :=
  if field d 108 1 = 1 then .pure (posArg (field d 112 4) x)
  else if field d 96 4 = 0x3F800000 ∧ (fp32 (field d 100 4)).isZero then .pure x
  else wRound (((fp32 (field d 96 4)).mul x).add (fp32 (field d 100 4)))

/-- The results for one input: the function, then the post-scale with one rounding. -/
def sfResults (d : List Byte) (x : Num) : List WRes :=
  let a := sfArg d x
  let fs : List (Num → WRes) := if field d 48 1 = 0x0D then [wCos, wSin] else [sfEval (field d 48 1)]
  fs.map (fun f => (a.bind f).bind (fun y => if field d 104 4 = 0x3F800000 then .pure y else wMul y (fp32 (field d 104 4))))

/-- SF_APPLY on the bytes a reader gives: the writes and the flags. -/
def sfApply (rd : Reader) (d : List Byte) (draw : Nat → Nat) : List (Nat × List Byte) × BitVec 8 :=
  let n := field d 52 4
  let fi := dFmt d 56
  let fo := dFmt d 57
  let xs := (runVals fi (rd.run fi.bits (field d 64 8) n) (fun b => leNat (rd (field d 80 8 + b) 1))).map
    (wIn fi (field d 80 4))
  let o := outRow fo (outRecip fo (field d 88 4)) (convOf (field d 116 1)) draw (xs.flatMap (sfResults d))
  let pad := if fo.mx then 32 * blocks32 n - n else 0
  let a := field d 72 8
  ((a, rd.pack fo.bits a (o.elems ++ List.replicate pad 0)) :: (o.scales.zipIdx).map (fun (v, b) => (field d 88 8 + b, leBytes 1 v)),
   nanIn xs ||| o.flags)

/-- SF_APPLY. -/
def execOpSfApply (tag : Nat) (op : Nat) (s : State) : Host.Outcome State Fault Refusal :=
  .next (s.runCore .sfApply tag op (fun d => decide (field d 52 4 = 0)) sfRanges (fun c t =>
    let (draw, u) := t.convDraws c.pair (field c.d 116 1) (field c.d 120 4)
    let (ws, fl) := sfApply (u.reader c.pair c.ord) c.d draw
    (u.storeLate ws, { status := .done, flags := fl })))

/-! ## SOFTMAX (Table 04-9) -/

/-- The input and output operands of SOFTMAX. -/
def smIn (d : List Byte) : RowOp := rowOp d 56 (field d 54 1)

/-- The output operand. -/
def smOut (d : List Byte) : RowOp := rowOp d 80 (field d 54 1)

/-- The core-store ranges of SOFTMAX. -/
def smRanges (d : List Byte) : List CoreRange :=
  let n := field d 48 4
  let rows := field d 52 2
  (smIn d).ranges 56 n rows false ++ (smOut d).ranges 80 n rows true
    ++ [{ off := 120, addr := field d 120 8, len := if field d 112 1 = 2 then spanBytes (field d 128 4) ((n + 7) / 8) rows else 0 },
        { off := 136, addr := field d 136 8,
          len := if n = 0 then 0 else match field d 132 1 with
            | 1 => 8 * rows
            | 2 => 8 * field d 144 1 * rows
            | _ => 0,
          wr := decide (field d 132 1 = 1) }]

/-- The admission checks of SOFTMAX. -/
def smChecks (s : State) (d : List Byte) : List Check :=
  let n := field d 48 4
  let rows := field d 52 2
  let i := smIn d
  let o := smOut d
  [(decide (1 < field d 54 1), .rejectFormat, 54), (!rowFmtBad (field d 68 1) && i.strideBad n rows, .rejectFormat, 64),
   (rowFmtBad (field d 68 1), .rejectFormat, 68), (scaleBad (field d 68 1) i.scale, .rejectFormat, 72),
   (!rowFmtBad (field d 68 1) && !rowFmtBad (field d 92 1) && i.clashes o n rows, .rejectFormat, 80), (!rowFmtBad (field d 92 1) && o.strideBad n rows, .rejectFormat, 88), (rowFmtBad (field d 92 1), .rejectFormat, 92),
   (scaleBad (field d 92 1) o.scale, .rejectFormat, 96), (notFinite (field d 104 4), .rejectFormat, 104),
   (notFinite (field d 108 4), .rejectFormat, 108), (decide (2 < field d 112 1), .rejectFormat, 112),
   (decide (2 < field d 132 1), .rejectFormat, 132),
   (decide (field d 132 1 = 2) && (decide (field d 144 1 < 1) || decide (64 < field d 144 1)), .rejectFormat, 144),
   (convBad (field d 145 1), .rejectFormat, 145), (decide (65536 < n), .rejectLimit, 48),
   (decide (field d 54 1 = 1) && decide (64 < rows), .rejectLimit, 52)] ++ s.rangeChecks (smRanges d)

/-- allowed(r, j) (R103). -/
def smAllowed (rd : Reader) (d : List Byte) (r j : Nat) : Bool :=
  match field d 112 1 with
  | 0 => true
  | 1 => decide ((j : Int) ≤ (r : Int) + fieldS32 d 116)
  | _ => bit (leNat (rd (field d 120 8 + r * field d 128 4 + j / 8) 1)) (j % 8)

/-- The exponential of an entry: EXP of round(tau x - b). -/
def smExp (tau b x : Num) : WRes := (wRound ((tau.mul x).sub b)).bind wExp

/-- A row's result: its entries, its sum, whether it is empty, and whether R104 raises UNDERFLOW_ZERO on its own. -/
structure SmRow where
  ys : List WRes
  sum : WRes
  empty : Bool := false
  under : Bool := false

/-- Divide by the row sum: e times recip(s), a zero product of a nonzero entry counted as flushed. -/
def smDivide (s : Num) (e : WRes) : WRes :=
  e.bind (fun x => (wRecip s).bind (fun q => wMul x q))

/-- One row of R102 in normalize or partial mode: `xs` with whether each entry is allowed. The one allowed entry of a row is
1.0 as R102's order of cases has it, also where its exponential underflows, of which R104 says zeros (notes/assumptions/56.md). -/
def smRow (tau b : Num) (isPartial : Bool) (xs : List (Num × Bool)) : SmRow :=
  let es : List (Option WRes) := xs.map (fun (x, ok) => if ok && !(x.isInf && x.sign) then some (smExp tau b x) else none)
  let s := treeSum ((es.zipIdx).foldl (fun acc (e, j) => match e with
    | some v => laneAdd acc j v
    | none => acc) lanes64)
  let zero : WRes := .pure .zero
  let count := (es.filter Option.isSome).length
  if isPartial then { ys := es.map (fun e => e.getD zero), sum := s }
  else if s.v.isNan then { ys := xs.map (fun _ => .pure .nan), sum := s }
  else if s.v.isInf then { sum := s, ys := es.map (fun e => match e with
      | some v => { v := if v.v.isInf then .nan else .zero, flush := v.flush }
      | none => zero) }
  else if count = 0 then { ys := xs.map (fun _ => zero), sum := s, empty := true }
  else if count = 1 then { ys := es.map (fun e => if e.isSome then .pure .one else zero), sum := s }
  else if s.v.isZero then { ys := xs.map (fun _ => zero), sum := s, under := true }
  else { sum := s, ys := es.map (fun e => match e with
      | some v => smDivide s.v v
      | none => zero) }

/-- One row in finish mode (R106): the partial sums in ascending order, then e times recip(s); SM_MASK counts there too, a
masked entry being written as +0 (notes/assumptions/56.md). -/
def smFinish (sums : List Num) (xs : List (Num × Bool)) : SmRow :=
  let s : WRes := sums.foldl (fun (a : WRes) x => a.bind (fun v => wAdd v x)) (.pure .zero)
  let zero : WRes := .pure .zero
  if s.v.isNan then { ys := xs.map (fun _ => .pure .nan), sum := s }
  else if s.v.isZero then { ys := xs.map (fun _ => zero), sum := s, empty := true }
  else if s.v.isInf then { ys := xs.map (fun (x, ok) => .pure (if ok && (x.isInf || x.isNan) then .nan else .zero)), sum := s }
  else { ys := xs.map (fun (x, ok) => if ok then smDivide s.v (.pure x) else zero), sum := s }

/-- The partial sums a finish reads for a row. -/
def smSums (rd : Reader) (d : List Byte) (r : Nat) : List Num :=
  (List.range (field d 144 1)).map (fun i =>
    Fmt.wc64.val (leNat (rd (field d 136 8 + 8 * (i * field d 52 2 + r)) 8)))

/-- SOFTMAX on the bytes a reader gives: writes, flags, whether a row was empty. -/
def softmax (rd : Reader) (d : List Byte) (draw : Nat → Nat) : List (Nat × List Byte) × BitVec 8 × Bool :=
  let n := field d 48 4
  let rows := field d 52 2
  let mode := field d 132 1
  let o := smOut d
  let ins := (List.range rows).map (fun r => (smIn d).read rd n rows r)
  let res : List SmRow := (ins.zipIdx).map (fun (xs, r) =>
    let ok := (xs.zipIdx).map (fun (x, j) => (x, smAllowed rd d r j))
    if mode = 2 then smFinish (smSums rd d r) ok else smRow (fp32 (field d 104 4)) (fp32 (field d 108 4)) (decide (mode = 1)) ok)
  let outs := (res.zipIdx).map (fun (x, r) =>
    outRow o.fmt (outRecip o.fmt (o.scale % 2 ^ 32)) (convOf (field d 145 1)) (fun k => draw (65536 * r + k)) x.ys)
  let sums : List (Stored × Nat) := if mode = 1 then (res.zipIdx).map (fun (x, r) => (convertW x.sum.v, r)) else []
  let sumIn := if mode = 2 then (List.range rows).flatMap (smSums rd d) else []
  let live := (ins.zip res).filter (fun x => !x.2.empty)
  let flags := (outs.foldl (fun g x => g ||| x.flags) 0) ||| nanIn (live.map (·.1)).flatten ||| nanIn sumIn
    ||| sums.foldl (fun g x => g ||| x.1.flags) 0
    ||| setFlag (setFlag 0 .underflowZero (res.any (·.under))) .wOverflow (res.any (fun x => x.sum.ovf))
  (o.writes rd n outs ++ sums.map (fun (x, r) => (field d 136 8 + 8 * r, leBytes 8 x.bits)), flags, res.any (·.empty))

/-- SOFTMAX. -/
def execOpSoftmax (tag : Nat) (op : Nat) (s : State) : Host.Outcome State Fault Refusal :=
  .next (s.runCore .softmax tag op (fun d => decide (field d 48 4 = 0) || decide (field d 52 2 = 0)) smRanges (fun c t =>
    let (draw, u) := t.convDraws c.pair (field c.d 145 1) (field c.d 148 4)
    let (ws, fl, empty) := softmax (u.reader c.pair c.ord) c.d draw
    (u.storeLate ws, { status := if empty then .doneEmptyRow else .done, flags := fl })))

/-! ## NORM (09_work_orders.md Table 09-7, R108 to R111) -/

/-- The input operand of NORM. -/
def nmIn (d : List Byte) : RowOp := rowOp d 56 (field d 49 1)

/-- The output operand. -/
def nmOut (d : List Byte) : RowOp := rowOp d 80 (field d 49 1)

/-- Gamma and beta vectors take FP32, BF16 or FP16. -/
def gbFmtBad (v : Nat) : Bool := !(decide (v = 0x0B) || decide (v = 0x0C) || decide (v = 0x0D))

/-- The core-store ranges of NORM. -/
def nmRanges (d : List Byte) : List CoreRange :=
  let n := field d 52 4
  let rows := field d 50 2
  let gb := packedBytes (dFmt d 120).bits (if rows = 0 then 0 else n)
  (nmIn d).ranges 56 n rows false ++ (nmOut d).ranges 80 n rows true
    ++ [{ off := 104, addr := field d 104 8, len := if field d 104 8 = 0 then 0 else gb },
        { off := 112, addr := field d 112 8, len := if field d 112 8 = 0 then 0 else gb }]

/-- The admission checks of NORM. NORM_GB_FMT is looked at where a base names a vector (notes/assumptions/56.md). -/
def nmChecks (s : State) (d : List Byte) : List Check :=
  let n := field d 52 4
  let rows := field d 50 2
  let i := nmIn d
  let o := nmOut d
  let eps := fp32 (field d 124 4)
  [(decide (1 < field d 48 1), .rejectFormat, 48), (decide (1 < field d 49 1), .rejectFormat, 49),
   (!rowFmtBad (field d 68 1) && i.strideBad n rows, .rejectFormat, 64), (rowFmtBad (field d 68 1), .rejectFormat, 68),
   (scaleBad (field d 68 1) i.scale, .rejectFormat, 72), (!rowFmtBad (field d 68 1) && !rowFmtBad (field d 92 1) && i.clashes o n rows, .rejectFormat, 80),
   (!rowFmtBad (field d 92 1) && o.strideBad n rows, .rejectFormat, 88), (rowFmtBad (field d 92 1), .rejectFormat, 92),
   (scaleBad (field d 92 1) o.scale, .rejectFormat, 96),
   ((decide (field d 104 8 ≠ 0) || decide (field d 112 8 ≠ 0)) && gbFmtBad (field d 120 1), .rejectFormat, 120),
   (decide (1 < field d 121 1), .rejectFormat, 121), (convBad (field d 122 1), .rejectFormat, 122),
   (decide (field d 121 1 = 1) && (!eps.isFin || eps.lt .zero), .rejectFormat, 124),
   (decide (field d 49 1 = 1) && decide (64 < rows), .rejectLimit, 50), (decide (65536 < n), .rejectLimit, 52)]
    ++ s.rangeChecks (nmRanges d)

/-- A vector of gamma or beta; a base of 0 stands for the constant. -/
def gbVec (rd : Reader) (d : List Byte) (off n : Nat) (dflt : Num) : List Num :=
  if field d off 8 = 0 then List.replicate n dflt
  else (rd.run (dFmt d 120).bits (field d off 8) n).map (dFmt d 120).val

/-- The lane sums of a row of values, then their tree. -/
def laneTree (l : List WRes) : WRes := treeSum ((l.zipIdx).foldl (fun acc (v, j) => laneAdd acc j v) lanes64)

/-- Two W-format results combined with one rounding. -/
def WRes.with2 (a b : WRes) (f : Num → Num → WRes) : WRes := a.bind (fun x => b.bind (fun y => f x y))

/-- y = z times gamma plus beta: one rounding per step. -/
def nmScale (z : WRes) (g b : Num) : WRes := (z.bind (fun x => wMul x g)).bind (fun x => wAdd x b)

/-- One row of LayerNorm (R109) or RMSNorm (R110): a step of the rule's listing rounds once for each of its operations
(notes/assumptions/56.md). -/
def nmRow (rms : Bool) (eps : Num) (xs gs bs : List Num) : List WRes :=
  let n : Num := .ofInt xs.length
  let c := xs.headD .zero
  let ds := xs.map (fun x => if rms then WRes.pure x else wSub x c)
  let md : WRes := if rms then .pure .zero else (laneTree ds).bind (fun x => wDiv x n)
  let sq := (laneTree (ds.map (fun d => d.bind (fun x => wMul x x)))).bind (fun x => wDiv x n)
  let var := if rms then sq else sq.with2 (md.bind (fun x => wMul x x)) wSub
  let var' : WRes := if var.v.lt .zero then { var with v := .zero } else var
  let ve := var'.bind (fun x => wAdd x eps)
  let q := ve.bind wRsqrt
  (ds.zip (gs.zip bs)).map (fun (d, g, b) =>
    if ve.v.isZero then .pure b
    else nmScale ((if rms then d else d.with2 md wSub).with2 q wMul) g b)

/-- NORM on the bytes a reader gives. -/
def norm (rd : Reader) (d : List Byte) (draw : Nat → Nat) : List (Nat × List Byte) × BitVec 8 :=
  let n := field d 52 4
  let rows := field d 50 2
  let o := nmOut d
  let gs := gbVec rd d 104 n .one
  let bs := gbVec rd d 112 n .zero
  let eps : Num := if field d 121 1 = 1 then fp32 (field d 124 4) else .pow2 (-20)
  let ins := (List.range rows).map (fun r => (nmIn d).read rd n rows r)
  let outs := (ins.zipIdx).map (fun (xs, r) =>
    outRow o.fmt (outRecip o.fmt (o.scale % 2 ^ 32)) (convOf (field d 122 1)) (fun k => draw (65536 * r + k))
      (nmRow (decide (field d 48 1 = 1)) eps xs gs bs))
  (o.writes rd n outs, (outs.foldl (fun g x => g ||| x.flags) 0) ||| nanIn ins.flatten ||| nanIn gs ||| nanIn bs)

/-- NORM. -/
def execOpNorm (tag : Nat) (op : Nat) (s : State) : Host.Outcome State Fault Refusal :=
  .next (s.runCore .norm tag op (fun d => decide (field d 52 4 = 0) || decide (field d 50 2 = 0)) nmRanges (fun c t =>
    let (draw, u) := t.convDraws c.pair (field c.d 122 1) (field c.d 128 4)
    let (ws, fl) := norm (u.reader c.pair c.ord) c.d draw
    (u.storeLate ws, { status := .done, flags := fl })))

end Sys2Proof.Machine
end

