-- ==== Sys2Proof/Machine/Attend.lean ====
section
/-! DEFINITION. Attention over the key-value cache: ATT_DECODE and ATT_PREFILL (05_attention_kv_cache.md R127 to R137). -/

namespace Sys2Proof.Machine

open Sys2Proof

/-! ## Fields and checks -/

/-- Query rows of the operation. -/
def attRows (d : List Byte) : Nat := field d 54 2

/-- The operation appends its own tokens first. -/
def attAppends (d : List Byte) : Bool := decide (field d 53 1 = 1)

/-- A zero count or a zero window (R16, R128). -/
def attZero (d : List Byte) : Bool := decide (attRows d = 0) || (decide (field d 89 1 = 1) && decide (field d 92 4 = 0))

/-- The query format is FP16, BF16 or FP32 (R127). -/
def attQBad (v : Nat) : Bool :=
  match fmtByte v with
  | some b => b.cplx || !(b.fmt.is16 || decide (b.fmt = .fp32))
  | none => true

/-- The admission checks of ATT_DECODE and ATT_PREFILL (R31, R41, R46, R52, R127, R128). -/
def attChecks (s : State) (d : List Byte) : List Check :=
  [(decide (1 < field d 53 1), .rejectFormat, 53), (attQBad (field d 88 1), .rejectFormat, 88), (decide (3 < field d 89 1), .rejectFormat, 89),
   (rowFmtBad (field d 90 1), .rejectFormat, 90), (convBad (field d 91 1), .rejectFormat, 91),
   (scaleBad (field d 90 1) (field d 120 8), .rejectFormat, 120)] ++
  s.baseChecks ((if attAppends d then [(56, field d 56 8), (64, field d 64 8)] else [])
    ++ [(80, field d 80 8), (96, field d 96 8)] ++ (if field d 89 1 = 3 then [(136, field d 136 8)] else []))

/-- Whether position pk is allowed for row j (Table 05-5): `pq` is the row's position, `mask` its mask bytes. -/
def attAllowed (d : List Byte) (pq : Int) (mask : List Byte) (pk : Nat) : Bool :=
  match field d 89 1 with
  | 0 => decide ((pk : Int) ≤ pq)
  | 1 => decide (pq - (field d 92 4 : Int) < pk) && decide ((pk : Int) ≤ pq)
  | 2 => decide ((pk : Int) ≤ pq) || decide (pk < field d 128 8)
  | _ => bit ((mask.getD (pk / 8) 0).toNat) (pk % 8)

/-- Read byte strings at addresses in order, stopping at the first that fails. -/
def State.loadEach (s : State) (w : Who) (n : Nat) : List Nat → List (List Byte) × Io
  | [] => ([], { s := s })
  | a :: rest =>
    let (bs, io) := s.load w a n
    match io.stop with
    | some _ => ([], io)
    | none =>
      let (more, io2) := State.loadEach io.s w n rest
      (bs :: more, { io2 with degraded := io.degraded || io2.degraded })

/-- The mask rows of the operation, for `len` positions. -/
def attMasks (s : State) (c : OpCtx) (len : Nat) : List (List Byte) × Io :=
  if field c.d 89 1 = 3 then
    s.loadEach c.who ((len + 7) / 8) ((List.range (attRows c.d)).map (fun j => field c.d 136 8 + j * field c.d 144 4))
  else ([], { s := s })

/-- Bytes of one head of a row in a format (R127). -/
def headBytes (q : Seq) (f : Fmt) : Nat := q.dim * f.bits / 8

/-- Query heads of the sequence. -/
def Seq.qHeads (q : Seq) : Nat := q.qPerKv * q.kvHeads

/-- The queries of every row and head: element values at row j, head h at place j × heads + h. -/
def attQueries (s : State) (c : OpCtx) (q : Seq) : List (List Num) × Io :=
  let f := dFmt c.d 88
  let (bs, io) := s.loadEach c.who (headBytes q f) ((List.range (attRows c.d)).flatMap (fun j =>
    (List.range q.qHeads).map (fun h => field c.d 80 8 + j * field c.d 76 4 + h * headBytes q f)))
  (bs.map (fun b => (List.range q.dim).map (fun i => f.val (elemBits b f.bits i))), io)

/-! ## The history of a stream -/

/-- A token as attention reads it: its position, and its key and value without per-tensor scales. -/
structure Hist where
  pos : Nat
  key : List Num
  value : List Num

/-- The token's values in their stored formats. -/
def Seq.hist (q : Seq) (pos : Nat) (t : Token) : Hist :=
  let vals (f : Fmt) (bs sc : List Byte) : List Num :=
    runVals f ((List.range q.dim).map (elemBits bs f.bits)) (fun b => (sc.getD b 0).toNat)
  { pos := pos, key := vals (kvFmt q.fmtK) t.key t.keyScales, value := vals (kvFmt q.fmtV) t.value t.valueScales }

/-- The tokens one core holds of a stream, page by page and then the slot: the pair, the bank, the tokens. -/
structure HistRun where
  pair : Nat
  /-- The bank of a page; none is the Vestibule slot. -/
  bank : Option Nat
  toks : List Hist

/-- Read the pages of a stream that hold an allowed position: each is pinned and read, by the bank units in place or by the
data-movement engine; the slot follows (R128, R137, R143). Records that rise from the banks cross the channel (R202). -/
def State.readHist (s : State) (c : OpCtx) (inBanks : Bool) (h i : Nat) (want : Nat → Bool) : List Nat → List HistRun × Io
  | [] =>
    match s.seq h, s.stream h i with
    | some q, some x => ([{ pair := x.lead, bank := none, toks := (x.slot.zipIdx).map (fun (t, k) => q.hist (x.stored + k) t) }], { s := s })
    | _, _ => ([], { s := s })
  | p :: rest =>
    match s.seq h, s.stream h i with
    | some q, some x =>
      let e := x.pte p
      if !(List.range e.tokens).any (fun k => want (p * q.pageTokens + k)) then State.readHist s c inBanks h i want rest
      else if e.state = .lost then ([], { s := s, stop := some (lostAt (p * q.pageTokens)) })
      else
        let t := s.pin c.tag c.op e
        let (bs, io) := if inBanks then (t.runDegraded (t.narrow e.pair)).readPageThere q e else t.readPage q e (opClass c.d)
        match io.stop with
        | some _ => ([], io)
        | none =>
          let run : HistRun := { pair := e.pair, bank := some e.bank,
                                 toks := ((q.tokensOf bs e.tokens).zipIdx).map (fun (t, k) => q.hist (p * q.pageTokens + k) t) }
          let (more, io2) := State.readHist io.s c inBanks h i want rest
          (run :: more, io2)
    | _, _ => ([], { s := s })

/-- A partial record (R129): numerators, denominator, allowed count, exponent; with a count of 1, the value row of the one
allowed token (R130); and the flags of conversions made on the way. -/
structure Partial where
  num : List WRes
  den : WRes
  count : Nat
  exp : Int
  one : List Num := []
  flags : BitVec 8 := 0

/-- The value row of one token, with the per-tensor scale. -/
def Seq.valueRow (q : Seq) (t : Hist) : List Num :=
  t.value.map (fun v => if (kvFmt q.fmtV).scaled then v.mul (fp32 q.scaleV.toNat) else v)

/-- The value row of the one token of a list, if there is just one. -/
def Seq.oneRow (q : Seq) : List Hist → List Num
  | [t] => q.valueRow t
  | _ => []

/-- A W-format sum in a free order, with the overflow its additions raise (notes/assumptions/12.md). -/
def wSum (pick : Nat → Nat) (l : List WRes) : WRes :=
  let v := freeSum (fun x => (wRound x).v) pick (l.map (·.v))
  { v := v, ovf := l.any (·.ovf) || (!v.isFin && l.all (fun x => x.v.isFin)), flush := l.any (·.flush) }

/-- A value times a per-tensor scale, once, where the format takes one (R46, R158). -/
def scaleOnce (f : Fmt) (scale : BitVec 32) (a : WRes) : WRes := if f.scaled then a.bind (fun x => wMul x (fp32 scale.toNat)) else a

/-- A choice of free values apart from others. -/
def sub (pick : Nat → Nat) (a b : Nat) : Nat → Nat := fun k => pick ((k * 4096 + a % 4096) * 4096 + b % 4096)

/-- The score of a token in the W-format: the dot product with one rounding per addition, then the key scale. -/
def attScore (q : Seq) (pick : Nat → Nat) (qv : List Num) (t : Hist) : WRes :=
  scaleOnce (kvFmt q.fmtK) q.scaleK (wSum pick ((qv.zip t.key).map (fun (x, y) => .pure (x.mul y))))

/-- e of R129 for a score. -/
def attExp (d : List Byte) (s : WRes) : WRes := s.bind (smExp (fp32 (field d 108 4)) (fp32 (field d 112 4)))

/-- The partial record of one bank's or the slot's tokens for one query row. -/
def decodeRecord (q : Seq) (d : List Byte) (pick : Nat → Nat) (qv : List Num) (toks : List Hist) : Partial :=
  let es := (toks.zipIdx).map (fun (t, k) => (attExp d (attScore q (sub pick 0 k) qv t), t))
  { num := (List.range q.dim).map (fun c => scaleOnce (kvFmt q.fmtV) q.scaleV
      (wSum (sub pick 1 c) (es.map (fun (e, t) => { e with v := e.v.mul (t.value.getD c .zero) }))))
    den := wSum (sub pick 2 0) (es.map (·.1)), count := toks.length, exp := 0, one := q.oneRow toks }

/-- The records of a row combined (R130): each scaled by 2^(k_j − k_0), added in the W-format. -/
def combine (pick : Nat → Nat) (n : Nat) (rs : List Partial) : Partial :=
  let k0 := (rs.head?.map (·.exp)).getD 0
  let sc (r : Partial) (a : WRes) : WRes := a.bind (fun x => wRound (x.scale (r.exp - k0)))
  { num := (List.range n).map (fun c => wSum (sub pick 3 c) (rs.map (fun r => sc r (r.num.getD c (.pure .zero)))))
    den := wSum (sub pick 4 0) (rs.map (fun r => sc r r.den)), count := rs.foldl (fun m r => m + r.count) 0, exp := k0,
    one := ((rs.find? (fun r => decide (r.count = 1))).map (·.one)).getD [], flags := rs.foldl (fun g r => g ||| r.flags) 0 }

/-- A value within 2^-26 of another, relative: which one is free (R130). -/
def nearby (pick : Nat) (v : Num) : Num := v.add ((v.mul (.ofInt ((pick % 17 : Nat) - 8))).scale (-29))

/-- The output row of a combined record (R130): its elements, whether the row is empty, whether it underflowed. With a count of
1 it is the one allowed value row: that row where `fits` says that the output format holds it, else each element within 2^-26
of it before conversion. -/
def finishRow (n : Nat) (pick : Nat → Nat) (fits : List Num → Bool) (r : Partial) : List WRes × Bool × Bool :=
  if r.count = 0 then (List.replicate n (.pure .zero), true, false)
  else if r.den.v.isZero then (List.replicate n (.pure .zero), false, true)
  else if r.count = 1 ∧ r.den.v.isFin ∧ r.num.all (fun x => x.v.isFin) then
    ((if fits r.one then r.one else (r.one.zipIdx).map (fun (v, k) => nearby (pick k) v)).map WRes.pure, false, false)
  else
    (r.num.map (fun a => a.bind (fun x => r.den.bind (fun d => (wRecip d).bind (fun w => wMul x w)))), false, false)

/-! ## Prefill on the arrays -/

/-- Tokens per key tile (Table 05-7): the largest power of two at most min(T, W_core). -/
def tileTokens (q : Seq) (width : Nat) : Nat := 2 ^ Nat.log2 (min q.pageTokens width)

/-- The largest value of a list of exponentials. -/
def largest (l : List Num) : Num := l.foldl (fun m x => if m.lt x then x else m) .zero

/-- floor(log2) of a finite nonzero value (R134). -/
def floorLog2 (x : Num) : Option Int :=
  match x with
  | .fin _ m e => if m = 0 then none else some (leadExp m e)
  | _ => none

/-- The format weight tiles take (R133). -/
def weightFmt (q : Seq) : Fmt := if (kvFmt q.fmtV).is16 then kvFmt q.fmtV else .mxe4m3

/-- A tile's weights converted, to nearest even with saturation, and the flags of the conversion. -/
def weights (q : Seq) (ws : List WRes) : List Num × BitVec 8 :=
  let f := weightFmt q
  let o := outRow f .one { ceil := false, ovf := false, sr := false } (fun _ => 0) ws
  (runVals f o.elems (fun b => o.scales.getD b 0), o.flags)

/-- A row's accumulators in prefill. -/
structure Acc where
  num : List Num
  den : WRes
  count : Nat
  exp : Option Int
  one : List Num := []
  flags : BitVec 8 := 0

/-- One weight tile into a row (R133, R134): `toks` with whether each is allowed for the row; a masked token contributes
nothing (R129). -/
def prefillTile (q : Seq) (d : List Byte) (pick : Nat → Nat) (qv : List Num) (toks : List (Hist × Bool)) (a : Acc) : Acc :=
  let es : List WRes := (toks.zipIdx).map (fun ((t, ok), k) =>
    if ok then
      let s := freeSum fp32Round (sub pick 5 k) ((qv.zip t.key).map (fun (x, y) => addend (x.mul y)))
      attExp d (scaleOnce (kvFmt q.fmtK) q.scaleK (.pure s))
    else .pure .zero)
  let top := floorLog2 (largest (es.map (·.v)))
  let a1 : Acc := match a.exp, top with
    | none, _ => { a with exp := some (top.getD 0) }
    | some k, some k' =>
      if k + 96 < k' then
        { a with num := a.num.map (fun x => fp32Round (x.scale (k - k'))), den := a.den.bind (fun x => wRound (x.scale (k - k'))), exp := some k' }
      else a
    | some _, none => a
  let k := a1.exp.getD 0
  let ws := es.map (fun e => e.bind (fun x => wRound (x.scale (-k))))
  let (vs, fl) := weights q ws
  let allowed := (toks.filter (fun t => t.2)).map (·.1)
  { num := (a1.num.zipIdx).map (fun (x, c) =>
      freeSum fp32Round (sub pick 6 c) (x :: ((vs.zip toks).filter (fun y => y.2.2)).map (fun (w, t, _) => addend (w.mul (t.value.getD c .zero)))))
    den := wSum (sub pick 7 0) (a1.den :: ws), count := a1.count + allowed.length, exp := a1.exp
    one := if allowed.isEmpty then a1.one else q.oneRow allowed, flags := a1.flags ||| fl }

/-- Query tokens per block (R133). -/
def blockRows (q : Seq) : Nat := 64 / q.qPerKv

/-- The tiles of one core's part of a stream: pieces of `n` tokens within a page or the slot. -/
def tilesOf (n : Nat) (rs : List HistRun) : List (List Hist) :=
  rs.flatMap (fun r => (List.range ((r.toks.length + n - 1) / n)).map (fun k => (r.toks.drop (n * k)).take n))

/-- The record of one core for one query row: tiles that the mask disallows for every row of its block are skipped. -/
def prefillRecord (q : Seq) (d : List Byte) (pick : Nat → Nat) (qv : List Num) (n : Nat) (ok : Nat → Bool) (okBlock : Nat → Bool)
    (rs : List HistRun) : Partial :=
  let a := (((tilesOf n rs).filter (fun l => l.any (fun t => okBlock t.pos))).zipIdx).foldl
    (fun (a : Acc) x => prefillTile q d (sub pick 8 x.2) qv (x.1.map (fun t => (t, ok t.pos))) a)
    { num := List.replicate q.dim .zero, den := .pure .zero, count := 0, exp := none }
  { num := a.num.map (fun x => scaleOnce (kvFmt q.fmtV) q.scaleV (.pure x)), den := a.den, count := a.count, exp := a.exp.getD 0,
    one := a.one, flags := a.flags }

/-- The precision in which rotated queries enter the arrays is not stated; within the bound of R135 it is the W-format or FP32,
freely (notes/assumptions/12.md). -/
def arrayQuery (pick : Nat) (x : Num) : Num := if pick % 2 = 0 then x else fp32Round x

/-! ## The operations -/

/-- One stream's part of the work: its runs, its length, and the positions allowed for each row. -/
structure StreamWork where
  head : Nat
  length : Nat
  runs : List HistRun

/-- The position of row j in a stream of a length (R128): after an own append, and without one, length − rows + j. -/
def rowPos (d : List Byte) (len j : Nat) : Int := (len : Int) - (attRows d : Int) + (j : Int)

/-- Read the history of the streams of the layer in order. -/
def readStreams (s : State) (c : OpCtx) (inBanks : Bool) (h : Nat) (masks : List (List Byte)) : List Nat → List StreamWork × Io
  | [] => ([], { s := s })
  | i :: rest =>
    match s.seq h, s.stream h i with
    | some q, some x =>
      let want (pk : Nat) : Bool := (List.range (attRows c.d)).any (fun j => attAllowed c.d (rowPos c.d x.length j) (masks.getD j []) pk)
      let (runs, io) := s.readHist c inBanks h i want (List.range x.table.length)
      match io.stop with
      | some _ => ([], io)
      | none =>
        let (more, io2) := readStreams io.s c inBanks h masks rest
        ({ head := i % q.kvHeads, length := x.length, runs := runs } :: more, { io2 with degraded := io.degraded || io2.degraded })
    | _, _ => ([], { s := s })

/-- The records of one row from one stream. -/
def rowRecords (prefill : Bool) (width : Nat → Nat) (q : Seq) (d : List Byte) (pick : Nat → Nat) (masks : List (List Byte)) (w : StreamWork)
    (j : Nat) (qv : List Num) : List Partial :=
  let ok (r pk : Nat) : Bool := attAllowed d (rowPos d w.length r) (masks.getD r []) pk
  if prefill then
    let b := blockRows q
    let rows := ((List.range b).map (fun k => j / b * b + k)).filter (fun r => decide (r < attRows d))
    let lead := ((w.runs.getLast?).map (·.pair)).getD 0
    let pairs := (lead :: w.runs.map (·.pair)).eraseDups
    (pairs.zipIdx).map (fun (p, k) => prefillRecord q d (sub pick 9 k) qv (tileTokens q (width p)) (ok j)
      (fun pk => rows.any (fun r => ok r pk)) (w.runs.filter (fun r => decide (r.pair = p))))
  else
    let keys := (w.runs.map (fun r => (r.pair, r.bank))).eraseDups
    (keys.zipIdx).map (fun (key, k) => decodeRecord q d (sub pick 10 k) qv
      ((w.runs.filter (fun r => decide ((r.pair, r.bank) = key))).flatMap (fun r => r.toks.filter (fun t => ok j t.pos))))

/-! ### The span vaults of a decode -/

/-- A vault takes a firmware sequence now: its banks run none, no access waits there, and the bank-sequence share is not 0
(R131, 06_bank_processing.md R147, R148, R163). -/
def State.banksFree (s : State) (pair : Nat) : Bool :=
  let v := s.vault pair
  v.seq.isNone && v.queue.isEmpty && v.held.isEmpty && v.back.isEmpty && !s.vaultShut pair && !s.vaultThrottled pair && decide (0 < s.bsShare pair)

/-- A span vault enters processor mode for the operation: its lines and merged writes are written out. One whose banks are not
free makes the operation wait (06_bank_processing.md R146 to R148). -/
def State.enterBanks (s : State) (pair : Nat) : State :=
  if s.banksFree pair then s.toArray pair else { s with run := { s.run with stalled := true } }

/-- The span vaults of streams of a sequence. -/
def Seq.spanVaults (q : Seq) (is : List Nat) : List Nat :=
  (is.flatMap (fun i => ((q.streams[i]?).map (fun x => (List.range x.span).map (fun k => x.lead + k))).getD [])).eraseDups

/-- Column cycles that a page of `toks` tokens takes for `g` query rows (R131). -/
def Seq.pageCycles (q : Seq) (g toks : Nat) : Nat :=
  let up (n : Nat) : Nat := (n + 31) / 32
  g * (up (toks * (q.kb + q.ks)) + up (toks * (q.vb + q.vs)) + (q.vb / 32 + 1) * ((toks + 3) / 4))

/-- The energy of a bank's page: 2.75 pJ for each column cycle and 0.30 nJ for each row activation, whose number is not stated
and free (06_bank_processing.md R169, 11_heat_path.md R301). -/
def State.chargePage (s : State) (pair bank cycles : Nat) : State :=
  let (n, t) := s.draw
  t.charge pair bank ((275 : Rat) / 100 * cycles + 300 * (n % (cycles + 1) : Nat))

/-- The score strip of each bank read holds scores the spec does not give: free bytes in its 16 rows (R116). -/
def State.scrawl (s : State) (pair bank : Nat) : State :=
  let (pick, t) := s.drawMany
  (List.range 512).foldl (fun (u : State) k =>
    u.storeWord pair (rowOffset bank (9216 - look s.settings.poolRows pair 0 + k / 32) (k % 32 * 32) / 32) (freeBytes (fun n => pick (32 * k + n)) 32)) t

/-- Bank-unit state the spec does not give, left by a firmware sequence (06_bank_processing.md R145). -/
def freeUnit (pick : Nat → Nat) (b : Nat) : BankUnit :=
  let g (n : Nat) : Nat := pick (1024 * b + n)
  { br := (List.range 8).map (fun k => (k, BitVec.ofNat 256 (g k))), acc := (List.range 256).map (fun k => (k, BitVec.ofNat 39 (g (8 + k))))
    s := (List.range 4).map (fun k => (k, BitVec.ofNat 39 (g (264 + k)))), cnt := BitVec.ofNat 32 (g 268)
    p := (List.range 4).map (fun k => (k, BitVec.ofNat 19 (g (269 + k)))), flags := BitVec.ofNat 8 (g 273 % 128), gen := BitVec.ofNat 32 (g 274)
    mxBlocks := g 275 }

/-- The firmware sequence of an order has run on a vault: the unit state it leaves is not given. -/
def State.leaveFirmware (s : State) (pair ord : Nat) : State :=
  let (pick, t) := s.drawMany
  t.setVault pair (fun v => { v with lastTag := some ord, units := (List.range 128).map (fun b => (b, freeUnit pick b)) })

/-- The whole attention of an operation whose own tokens have been appended; its output rows are written when it completes
(R144). -/
def attend (prefill : Bool) (c : OpCtx) (h : Nat) (s : State) (fl : BitVec 8) : State × Ending :=
  match s.seq h with
  | none => (s, rejectOp .rejectState 48)
  | some q =>
    let layer := field c.d 52 1
    let len := ((s.stream h (layer * q.kvHeads)).map (·.length)).getD 0
    let (masks, io1) := attMasks s c len
    let (qs, io2) := attQueries io1.s c q
    match io1.stop, io2.stop with
    | some e, _ => (io1.s, e)
    | none, some e => (io2.s, e)
    | none, none =>
      let s0 := if prefill then io2.s else (q.spanVaults (q.layerStreams layer)).foldl (fun (t : State) p => t.enterBanks p) io2.s
      let (work, io3) := readStreams s0 c (!prefill) h masks (q.layerStreams layer)
      match io3.stop with
      | some e => (io3.s, e)
      | none =>
        let (pick, s1) := io3.s.drawMany
        let f := dFmt c.d 90
        let (draw, s2) := s1.convDraws (((work.head?).bind (fun w => w.runs.getLast?.map (·.pair))).getD 0) (field c.d 91 1) (field c.d 148 4)
        let hb := headBytes q f
        let rows := (List.range (attRows c.d)).flatMap (fun j => (List.range q.qHeads).map (fun hq =>
          let k := j * q.qHeads + hq
          let w := work.getD (hq / q.qPerKv) { head := 0, length := 0, runs := [] }
          let qw := (q.rotate (rowPos c.d w.length j).toNat (qs.getD k [])).map (·.v)
          let qv := if prefill then qw.map (arrayQuery (pick 0)) else qw
          let out (vs : List WRes) : OutRow :=
            outRow f (outRecip f (field c.d 120 8 % 2 ^ 32)) (convOf (field c.d 91 1)) (fun n => draw (q.dim * k + n)) vs
          let fits (vs : List Num) : Bool :=
            let o := out (vs.map WRes.pure)
            (vs.zip (runVals f o.elems (fun b => o.scales.getD b 0))).all (fun (v, x) =>
              let y := if f.scaled then x.mul (fp32 (field c.d 120 4)) else x
              decide (y.isNan = v.isNan) && !v.lt y && !y.lt v)
          let rec' := combine (sub pick 11 k) q.dim (rowRecords prefill (fun p => (s2.core p).width) q c.d (sub pick 12 k) masks w j qv)
          let (vs, empty, under) := finishRow q.dim (sub pick 13 k) fits rec'
          let o := out vs
          (field c.d 96 8 + j * field c.d 104 4 + hq * hb, k, { o with flags := o.flags ||| rec'.flags }, empty, under)))
        let s3 := if prefill then s2 else
          ((work.flatMap (fun w => w.runs.filterMap (fun r => r.bank.map (fun b => (r.pair, b))))).eraseDups).foldl (fun (t : State) p => t.scrawl p.1 p.2)
            ((work.flatMap (fun w => w.runs.filterMap (fun r => r.bank.map (fun _ => r.pair)))).eraseDups.foldl (fun (t : State) p => t.leaveFirmware p c.ord) s2)
        let s4 := if prefill then s3 else work.foldl (fun (t : State) w => w.runs.foldl (fun (t : State) r => match r.bank with
          | some b => t.chargePage r.pair b (q.pageCycles (attRows c.d * q.qPerKv) r.toks.length)
          | none => t) t) s3
        let outs : List (Nat × List Byte) := rows.flatMap (fun (a, k, o, _, _) =>
          (a, packElems f.bits o.elems) :: (if f.mx then [(field c.d 120 8 + k * (q.dim / 32), o.scales.map (BitVec.ofNat 8))] else []))
        let g := rows.foldl (fun (g : BitVec 8) (_, _, o, _, u) => g ||| o.flags ||| setFlag 0 .underflowZero u) fl
        let read := nanIn (qs.flatten ++ work.flatMap (fun w => w.runs.flatMap (fun r => r.toks.flatMap (fun t => t.key ++ t.value))))
        (s4.putOff (outs.map (fun w => { space := 1, addr := w.1, bytes := w.2 })),
          { status := if rows.any (fun (_, _, _, e, _) => e) then .doneEmptyRow else .done, flags := g ||| read })

/-- Ranges of the operation that lie in a range sealed to another party. -/
def OpCtx.attSealed (c : OpCtx) (s : State) (q : Seq) : Bool :=
  let n := attRows c.d
  let len := ((q.streams[field c.d 52 1 * q.kvHeads]?).map (·.length)).getD 0 + (if attAppends c.d then n else 0)
  c.sealed s (field c.d 80 8) (spanBytes (field c.d 76 4) (q.qHeads * headBytes q (dFmt c.d 88)) n)
    || c.sealed s (field c.d 96 8) (spanBytes (field c.d 104 4) (q.qHeads * headBytes q (dFmt c.d 90)) n)
    || (decide (field c.d 89 1 = 3) && c.sealed s (field c.d 136 8) (spanBytes (field c.d 144 4) ((len + 7) / 8) n))
    || ((dFmt c.d 90).mx && c.sealed s (field c.d 120 8) (n * q.qHeads * (q.dim / 32)))
    || (attAppends c.d && c.appendSealed s q (appendSrc c.d) n)

/-- ATT_DECODE or ATT_PREFILL: checks at dispatch, the own append, then the attention. -/
def attOp (prefill : Bool) (c : OpCtx) (t : State) : State × Ending :=
  t.onSeq c (fun q => (limitIf (decide (q.layers ≤ field c.d 52 1)) 52).orElse (fun _ => if attAppends c.d then closedStop q else none))
    (attZero c.d) (fun h u =>
      if (u.seq h).any (fun q => c.attSealed u q) then (u, refused .sealedRange)
      else if attAppends c.d then
        match u.appendRows c h (appendSrc c.d) 0 (List.range (attRows c.d)) with
        | (v, some e, _) => (v, e)
        | (v, none, fl) => attend prefill c h v fl
      else attend prefill c h (u.retryFlush h (((u.seq h).map (fun q => q.layerStreams (field c.d 52 1))).getD [])) 0)

/-- ATT_DECODE. -/
def execOpAttDecode (tag : Nat) (op : Nat) (s : State) : Host.Outcome State Fault Refusal := .next (s.runOp .attDecode tag op (paged (attOp false)))

/-- ATT_PREFILL. -/
def execOpAttPrefill (tag : Nat) (op : Nat) (s : State) : Host.Outcome State Fault Refusal :=
  .next (s.runOp .attPrefill tag op (paged (attOp true)))

end Sys2Proof.Machine
end

