-- ==== Sys2Proof/Machine/Banks.lean ====
section
/-! DEFINITION. Bank units: instruction words, program admission, BANK_RUN, SEQUENCE_LOAD, sorties and the bank instructions
(06_bank_processing.md). -/

namespace Sys2Proof.Machine

open Sys2Proof

/-! ## Instruction words (Table 06-5) -/

/-- BI_OP. -/
def biOp (w : Nat) : Nat := bits w 58 6
/-- BI_FMT. -/
def biFmt (w : Nat) : Nat := bits w 54 4
/-- BI_RD. -/
def biRd (w : Nat) : Nat := bits w 51 3
/-- BI_RA. -/
def biRa (w : Nat) : Nat := bits w 48 3
/-- BI_PTR. -/
def biPtr (w : Nat) : Nat := bits w 46 2
/-- BI_INC. -/
def biInc (w : Nat) : Bool := bit w 45
/-- BI_MASK. -/
def biMask (w : Nat) : Bool := bit w 44
/-- BI_COND. -/
def biCond (w : Nat) : Nat := bits w 42 2
/-- BI_ADD. -/
def biAdd (w : Nat) : Bool := bit w 41
/-- BI_LIDX. -/
def biLidx (w : Nat) : Bool := bit w 40
/-- BI_LANE. -/
def biLane (w : Nat) : Nat := bits w 32 8
/-- BI_COUNT. -/
def biCount (w : Nat) : Nat := bits w 16 16
/-- BI_IMM. -/
def biImm (w : Nat) : Nat := bits w 0 16

/-- Opcodes (Table 06-6). -/
inductive BOp where
  | stop | loop | endl | setp | clra | ld | st | lda | sta | mac | axpy | scal | dot | exps | expw | rsum | rmax | sten | csel | rise
  deriving DecidableEq, Repr

/-- The opcode of a number. -/
def bop (n : Nat) : Option BOp :=
  match n with
  | 0x00 => some .stop
  | 0x01 => some .loop
  | 0x02 => some .endl
  | 0x03 => some .setp
  | 0x04 => some .clra
  | 0x08 => some .ld
  | 0x09 => some .st
  | 0x0A => some .lda
  | 0x0B => some .sta
  | 0x0C => some .mac
  | 0x0D => some .axpy
  | 0x0E => some .scal
  | 0x10 => some .dot
  | 0x11 => some .exps
  | 0x12 => some .expw
  | 0x14 => some .rsum
  | 0x15 => some .rmax
  | 0x18 => some .sten
  | 0x19 => some .csel
  | 0x1C => some .rise
  | _ => none

/-- Class M: one code-word access per column cycle. -/
def BOp.accesses : BOp → Bool
  | .stop => false
  | .loop => false
  | .endl => false
  | .setp => false
  | .clra => false
  | .exps => false
  | .rise => false
  | _ => true

/-- It takes an element format. -/
def BOp.hasFmt : BOp → Bool
  | .ld => false
  | .st => false
  | o => o.accesses

/-- A format marked for the bank unit (Table 02-1). -/
def Fmt.isBank : Fmt → Bool
  | .int8 => true
  | .e4m3 => true
  | .e5m2 => true
  | .mxfp4 => true
  | .mxe4m3 => true
  | .mxe5m2 => true
  | .mxint8 => true
  | .fp16 => true
  | .bf16 => true
  | _ => false

/-- The formats an opcode permits (Table 06-6). -/
def BOp.permits (o : BOp) (f : Fmt) : Bool :=
  match o with
  | .lda => f.isBank || decide (f = .fp32) || decide (f = .wc64)
  | .sta => (f.isBank && !f.mx) || decide (f = .fp32) || decide (f = .wc64)
  | .mac => f.isBank && !f.mx
  | .csel => f.isBank && !f.mx
  | .sten => f.isBank && !f.mx
  | _ => f.isBank

/-- Bits of the fields an opcode uses, BI_COND apart (R151). -/
def BOp.used (o : BOp) (w : Nat) : Nat :=
  let fmt := 0xF * 2 ^ 54
  let rd := 7 * 2 ^ 51
  let ra := 7 * 2 ^ 48
  let row := 3 * 2 ^ 46 + 2 ^ 45
  let lane := 2 ^ 40 + 0xFF * 2 ^ 32
  let add := 2 ^ 41
  match o with
  | .stop => 0
  | .loop => 0xFFFF * 2 ^ 16 + (if biCount w = 0 then 7 else 0)
  | .endl => 0
  | .setp => 3 * 2 ^ 46 + 0xC000 + (match biImm w / 2 ^ 14 with
      | 0 => 7
      | 1 => 0x3F
      | _ => 0x3FFF)
  | .clra => 0
  | .ld => rd + row
  | .st => ra + row
  | .lda => fmt + row + lane + add
  | .sta => fmt + row + lane
  | .mac => fmt + ra + row + lane + add
  | .axpy => fmt + row + lane + 0xFF
  | .scal => fmt + row + lane + 0xFF
  | .dot => fmt + row + lane + 3
  | .exps => rd + 2 ^ 44
  | .expw => fmt + ra + row + lane
  | .rsum => fmt + row + 3
  | .rmax => fmt + row + 3
  | .sten => fmt + rd + ra + row + lane + add + 0xFF
  | .csel => fmt + ra + row + lane + 7
  | .rise => 0x31FF

/-- Elements of a format in a code word. -/
def Fmt.perWord (f : Fmt) : Nat := 256 / f.bits

/-- The format of an instruction. -/
def biFormat (w : Nat) : Fmt := (fmtOf (biFmt w)).getD .fp16

/-- The highest lane an instruction reaches, with the indices of its outermost and innermost loops (R153). -/
def laneTop (o : BOp) (w out inn : Nat) : Nat :=
  let e := (biFormat w).perWord
  let l := biLane w + (if biLidx w then e * out else 0)
  match o with
  | .dot => l + inn * e + e - 1
  | .sten => max (l + e - 1) (biImm w % 256 + 2)
  | .lda => l + e - 1
  | .sta => l + e - 1
  | .mac => l + e - 1
  | .axpy => l + e - 1
  | .scal => l + e - 1
  | .expw => l + e - 1
  | .csel => l + e - 1
  | _ => 0

/-- A word breaks the admission rules by itself (R151, R152). -/
def wordBad (w : Nat) (enclosed : Bool) : Bool :=
  match bop (biOp w) with
  | none => true
  | some o =>
    let cond := biCond w
    let extra := if o.accesses ∧ cond ≠ 0 then 3 * 2 ^ 42 + 0xF * 2 ^ 16 else 0
    decide (w &&& (2 ^ 58 - 1 - (o.used w ||| extra)) ≠ 0) || decide (cond = 3)
      || (decide (cond ≠ 0) && (!o.accesses || !enclosed || decide (11 < biCount w % 16)))
      || (o.hasFmt && !((fmtOf (biFmt w)).map (fun f => o.permits f)).getD false)
      || (decide (o = .setp) && decide (biImm w / 2 ^ 14 = 3)) || (decide (o = .csel) && decide (5 < biImm w % 8))
      || (decide (o = .rise) && decide (256 < biImm w % 512))

/-- Bytes of a RISE record (R161). -/
def riseSize (w : Nat) : Nat := 8 * (biImm w % 512 + (if bit (biImm w) 12 then 3 else 0) + (if bit (biImm w) 13 then 4 else 0))

/-- What admission finds in a program: ill-formed, lanes out of range, the size of its RISE record. -/
structure ProgScan where
  bad : Bool := false
  lanes : Bool := false
  rises : Nat := 0
  size : Nat := 0

/-- Scan a program (R152, R153): `open'` lists the last index of each open loop, innermost first. -/
def scanProg : List Nat → List Nat → ProgScan → ProgScan
  | [], _, r => { r with bad := true }
  | w :: rest, open', r =>
    let inn := open'.headD 0
    let out := (open'.getLast?).getD 0
    match bop (biOp w) with
    | none => { r with bad := true }
    | some o =>
      let r1 : ProgScan := { r with bad := r.bad || wordBad w (!open'.isEmpty), lanes := r.lanes || decide (255 < laneTop o w out inn) }
      match o with
      | .stop => if rest.isEmpty then { r1 with bad := r1.bad || !open'.isEmpty } else { r1 with bad := true }
      | .loop => if 2 ≤ open'.length then { r1 with bad := true } else scanProg rest ((biCount w - 1) :: open') r1
      | .endl => if open'.isEmpty then { r1 with bad := true } else scanProg rest (open'.drop 1) r1
      | .rise =>
        let r2 : ProgScan := { r1 with bad := r1.bad || !open'.isEmpty || decide (0 < r1.rises), rises := r1.rises + 1, size := riseSize w }
        if rest.isEmpty then { r2 with bad := true } else scanProg rest open' r2
      | _ => if rest.isEmpty then { r1 with bad := true } else scanProg rest open' r1

/-! ## BANK_RUN -/

/-- Pairs and program of a BANK_RUN descriptor. -/
def brFirst (d : List Byte) : Nat := field d 48 2
/-- BR_PAIR_COUNT. -/
def brCount (d : List Byte) : Nat := field d 50 2
/-- BR_PROG_LEN. -/
def brLen (d : List Byte) : Nat := field d 64 2

/-- A module address field with ranges of `n` bytes, 0 standing for none where it may. -/
def State.brBase (s : State) (d : List Byte) (off n : Nat) (optional : Bool) : List Check :=
  let a := field d off 8
  if optional && decide (a = 0) then []
  else [(decide (a % 32 ≠ 0) || decide (farBase ≤ a) || !s.reachableRange a n, .rejectLimit, off)]

/-- A BANK_RUN with a zero count (R149). -/
def brZero (d : List Byte) : Bool := decide (brCount d = 0) || decide (brLen d = 0)

/-- The broadcast vector's format is not one Table 06-3 names (R41; notes/assumptions/54.md). -/
def brVecBad (v : Nat) : Bool :=
  match fmtByte v with
  | some b => b.cplx || !(b.fmt.is16 || decide (b.fmt = .fp32) || decide (b.fmt = .wc64))
  | none => true

/-- Bytes of the broadcast vector. -/
def brVecBytes (d : List Byte) : Nat := packedBytes ((fmtOf (field d 96 1 % 32)).getD .fp32).bits (field d 98 2)

/-- The admission checks of BANK_RUN, `prog` its program image as read (R149, R152, R153). A fault of the
program is no single field's. -/
def bankChecks (s : State) (d : List Byte) (prog : List (BitVec 64)) : List Check :=
  let n := brCount d
  let r := scanProg (prog.map BitVec.toNat) [] {}
  let live := decide (0 < brLen d)
  [(brVecBad (field d 96 1), .rejectFormat, 96), (convBad (field d 116 1), .rejectFormat, 116), (live && r.bad, .rejectFormat, noField)] ++
  [(decide (1023 < brFirst d), .rejectLimit, 48),
   (decide (1024 < n) || (List.range n).any (fun k => !s.pairPresent (brFirst d + k)), .rejectLimit, 50)] ++
  s.brBase d 56 (8 * brLen d) false ++
  [(decide (256 < brLen d), .rejectLimit, 64)] ++
  s.brBase d 72 (4096 * n) true ++ s.brBase d 80 (32768 * n) true ++
  [(!brVecBad (field d 96 1) && !s.inWork (field d 88 8) (brVecBytes d), .rejectLimit, 88), 
   (decide (256 < field d 98 2), .rejectLimit, 98), (notFinite (field d 100 4), .rejectLimit, 100), (notFinite (field d 104 4), .rejectLimit, 104),
   (notFinite (field d 108 4) || (fp32 (field d 108 4)).isZero, .rejectLimit, 108),
   (notFinite (field d 112 4) || (fp32 (field d 112 4)).isZero, .rejectLimit, 112),
   (decide (field d 128 8 % 32 ≠ 0) || (live && !s.inWork (field d 128 8) (128 * r.size)), .rejectLimit, 128),
   (decide (1 < field d 136 1), .rejectLimit, 136), (live && !r.bad && r.lanes, .rejectLimit, noField),
   (s.rangeInPool (field d 56 8) (8 * brLen d), .rejectState, 56),
   (decide (field d 72 8 ≠ 0) && s.rangeInPool (field d 72 8) (4096 * n), .rejectState, 72),
   (decide (field d 80 8 ≠ 0) && s.rangeInPool (field d 80 8) (32768 * n), .rejectState, 80)]

/-- What one pair's vault receives. -/
def seqReq (c : OpCtx) (prog : List (BitVec 64)) (k : Nat) : SeqReq :=
  let base (off n : Nat) : Nat := if field c.d off 8 = 0 then 0 else field c.d off 8 + n * k
  { ord := c.ord, tag := c.tag, op := c.op, prog := prog, keep := decide (field c.d 136 1 = 1), paramBase := base 72 4096, maskBase := base 80 32768,
    vecBase := field c.d 88 8, vecFmt := BitVec.ofNat 8 (field c.d 96 1), vecLen := field c.d 98 2, tau := BitVec.ofNat 32 (field c.d 100 4),
    offset := BitVec.ofNat 32 (field c.d 104 4), scaleS := BitVec.ofNat 32 (field c.d 108 4), scaleA := BitVec.ofNat 32 (field c.d 112 4),
    conv := BitVec.ofNat 8 (field c.d 116 1), seed := BitVec.ofNat 32 (field c.d 120 4), outBase := field c.d 128 8 }

/-- The pair that an ending of a bank sequence names. -/
def endingPair (e : Ending) : Nat := if e.status = .vaultLost then e.detail.toNat % 1024 else e.detail.toNat / 65536 % 1024

/-- The endings of two pairs joined (R167): the highest rank, the lowest pair on a tie; ended well, the longest cycle count. -/
def joinEndings (a b : Ending) : Ending :=
  if a.status.good ∧ b.status.good then
    { status := if a.status.rank ≤ b.status.rank then a.status else b.status, flags := a.flags ||| b.flags
      result := if a.result.toNat ≤ b.result.toNat then b.result else a.result }
  else if a.status.rank < b.status.rank then a
  else if b.status.rank < a.status.rank then b
  else if endingPair a ≤ endingPair b then a else b

/-- Some vault still holds or runs a sequence of an operation. -/
def State.bankBusy (s : State) (tag op : Nat) : Bool :=
  let mine (q : SeqReq) : Bool := decide (q.tag = tag) && decide (q.op = op)
  s.mem.vaults.any (fun e => e.2.queue.any mine || e.2.seq.any (fun x => mine x.req))

/-- An operation runs on while a vault has a sequence of it. -/
def State.keepBanking (s : State) (tag op : Nat) : State :=
  s.setOper tag op (fun x => match x.phase with
    | .running e => if s.bankBusy tag op then { x with phase := .banking e } else x
    | _ => x)

/-- BANK_RUN: every pair's vault receives its sequence; a pair lost since admission ends VAULT_LOST. -/
def bankRun (c : OpCtx) (s : State) : State × Ending :=
  let n := brCount c.d
  if brZero c.d then (s, { status := .doneEmpty })
  else if c.sealed s (field c.d 72 8) (if field c.d 72 8 = 0 then 0 else 4096 * n) || c.sealed s (field c.d 80 8) (if field c.d 80 8 = 0 then 0 else 32768 * n) then
    (s, refused .sealedRange)
  else
    let prog := (((s.oper c.tag c.op).map (·.prog)).getD [])
    (List.range n).foldl (fun (a : State × Ending) k =>
      let p := brFirst c.d + k
      if a.1.pairPresent p then
        ({ a.1.setVault p (fun v => { v with queue := v.queue ++ [seqReq c prog k] }) with
            run := { a.1.run with wrote := insertNat a.1.run.wrote p } }, a.2)
      else (a.1, joinEndings a.2 (vaultLostEnding p))) (s, { status := .done })

/-- BANK_RUN. -/
def execOpBankRun (tag : Nat) (op : Nat) (s : State) : Host.Outcome State Fault Refusal :=
  .next ((s.runOp .bankRun tag op bankRun).keepBanking tag op)

/-! ## A sequence on a vault -/

/-- The sequence of a vault ends with an ending: it joins its operation's, which has run when no vault is left with it. -/
def State.endBank (s : State) (pair : Nat) (r : SeqReq) (e : Ending) : State :=
  let t := s.setVault pair (fun v => { v with seq := none, lastMasks := (v.seq.map (fun q => q.masks)).getD v.lastMasks })
  t.setOper r.tag r.op (fun x => match x.phase with
    | .banking e0 => if t.bankBusy r.tag r.op then { x with phase := .banking (joinEndings e0 e) } else { x with phase := .running (joinEndings e0 e) }
    | _ => x)

/-- The sequence of a vault ends early (R167): units cleared, memory mode, held accesses served. -/
def State.failBank (s : State) (pair : Nat) (r : SeqReq) (e : Ending) : State :=
  ((s.setVault pair Vault.clearSeq).endBank pair r e).serveHeld pair

/-- Word k of a bank's parameters (Table 06-4). -/
def SeqSt.pw (q : SeqSt) (b k : Nat) : Nat := (look q.params (8 * b + k) 0).toNat

/-- BANK_EN of a bank. -/
def SeqSt.enabled (q : SeqSt) (b : Nat) : Bool := bit (q.pw b 0) 0

/-- The parameter table as read, or the one of BR_PARAM_BASE 0 (R150). -/
def paramTable (bs : Option (List Byte)) : SMap (BitVec 32) :=
  match bs with
  | none => (List.range 128).map (fun b => (8 * b, 1))
  | some l => (List.range 1024).map (fun k => (k, BitVec.ofNat 32 (field l (4 * k) 4)))

/-- The broadcast vector, converted exactly into the W-format. -/
def bcastOf (r : SeqReq) (bs : List Byte) : SMap (BitVec 39) :=
  let f := ((fmtByte r.vecFmt.toNat).map (·.fmt)).getD .fp32
  (List.range r.vecLen).map (fun k => (k, wBits (f.val (elemBits bs f.bits k))))

/-- Lane k of the broadcast buffer. -/
def SeqSt.lane (q : SeqSt) (k : Nat) : Num := wVal (look q.bcast k 0)

/-- What a read gives, or nothing for a base of 0. -/
def State.loadIf (s : State) (w : Who) (a n : Nat) : Option (List Byte) × Io :=
  if a = 0 then (none, { s := s })
  else
    let (bs, io) := s.load w a n
    (some bs, io)

/-- Arithmetic flags join those of an operation whose sequences run. -/
def State.bankFlags (s : State) (tag op : Nat) (fl : BitVec 8) : State :=
  s.setOper tag op (fun x => match x.phase with
    | .banking e => { x with phase := .banking { e with flags := e.flags ||| fl } }
    | _ => x)

/-- Load the first sequence of a vault's queue (R145, R147, R150); in processor mode only the items are loaded (R148). A NaN of
the broadcast vector is an operand read (02_number_formats.md R58). -/
def State.loadSeq (s : State) (pair : Nat) (r : SeqReq) : State :=
  let s0 := s.setVault pair (fun v => { v with queue := v.queue.drop 1 })
  let s1 := if (s.vault pair).processor then s0 else s0.toArray pair
  let w : Who := { pair := some pair, cls := 1, tag := r.tag, op := r.op, waits := true }
  let (ps, io1) := s1.loadIf w r.paramBase 4096
  let (ms, io2) := io1.s.loadIf w r.maskBase 32768
  let vf : Fmt := ((fmtByte r.vecFmt.toNat).map (fun b => b.fmt)).getD .fp32
  let (vs, io3) := io2.s.loadCore pair r.ord r.vecBase (packedBytes vf.bits r.vecLen)
  match ((io1.stop.orElse (fun _ => io2.stop)).orElse (fun _ => io3.stop)) with
  | some e => io3.s.failBank pair r (if e.status = .vaultLost then e else { e with detail := BitVec.ofNat 32 (pair * 65536) })
  | none =>
    let params := paramTable ps
    let keep := r.keep && decide ((io3.s.vault pair).lastTag = some r.ord)
    let (pick, t) := io3.s.drawMany
    let unit (v : Vault) (b : Nat) : BankUnit :=
      let u : BankUnit := if keep then look v.units b {} else {}
      { u with
        p := (List.range 4).map (fun k => (k, BitVec.ofNat 19 (look params (8 * b + k + 1) 0).toNat))
        gen := if r.seed = 0 then (look v.units b {}).gen else BitVec.ofNat 32 (pick b), cycles := 0, openRow := none }
    (t.setVault pair (fun v => { v with
      units := (List.range 128).map (fun b => (b, unit v b)), lastTag := some r.ord, loadedAt := t.now
      seq := some { req := r, pc := 0, prog := r.prog, bcast := bcastOf r vs, params := params, loops := [],
                    masks := match ms with
                      | some bs => writeBytes [] 0 bs
                      | none => if keep then v.lastMasks else []
                    afterM := false, degraded := t.narrow pair || io1.degraded || io2.degraded } })).bankFlags r.tag r.op
      (nanIn ((List.range r.vecLen).map (fun k => vf.val (elemBits vs vf.bits k))))

/-- A sequence may be loaded: the vault serves accesses, no DRAM point of it stands at throttle (11_heat_path.md R307), and
every access already received has been completed unless the vault stays in processor mode (R147, R148). -/
def State.mayLoad (s : State) (pair : Nat) : Bool :=
  let v := s.vault pair
  s.pairPresent pair && !s.vaultThrottled pair && !s.vaultShut pair && (v.processor || (v.held.isEmpty && v.back.isEmpty))

/-- SEQUENCE_LOAD (R147, R148): the vault has no sequence and one is received. Where an item lies in a vault that makes its read
wait, the load is made later (notes/assumptions/24.md). -/
def execSequenceLoad (pair : Fin 1024) (s : State) : Host.Outcome State Fault Refusal :=
  .next (match (s.vault pair).seq, (s.vault pair).queue with
    | none, r :: _ =>
      if s.mayLoad pair then
        let t := State.loadSeq { s with run := {} } pair r
        if t.run.stalled then s else t
      else s
    | _, _ => s)

/-! ## Sorties (R163 to R165) -/

/-- Sortie starts in use that have come in this period, in order. -/
def State.startsCome (s : State) (pair : Nat) : List Nat :=
  (((s.profileFor pair).starts).map (·.2)).filter (fun e => decide (e ≤ s.inPeriod))

/-- A sortie begins now: at the last start that has come, whose sequence was loaded by then, or, where a sortie, a slot, a
pause or held accesses kept the vault then, as soon as it is free (R283). -/
def State.startsNow (s : State) (pair : Nat) : Bool :=
  let v := s.vault pair
  match (s.startsCome pair).getLast? with
  | none => false
  | some e => decide (v.sorties < (s.startsCome pair).length) && decide (v.loadedAt + s.inPeriod ≤ s.now + e)
      && (decide (s.inPeriod = e) || decide (v.freedAt = some s.now) || decide (v.slotUntil = some s.now))

/-- SORTIE_START (R283): the first of a sequence takes the vault from memory mode to processor mode (R146, R147), with every
row closed. -/
def execSortieStart (pair : Fin 1024) (s : State) : Host.Outcome State Fault Refusal :=
  let v := s.vault pair
  .next (if v.seq.isSome && !s.vaultShut pair && s.time.nextBoundary.isNone && s.startsNow pair
      && decide (v.bsSpent < 2 * s.bsShare pair) && (nextHeld (s.classServed pair) [] v.held).isNone then
    (if v.processor then s else s.toArray pair).setVault pair (fun v => { v with
      sortie := some s.now, sortieSpent := 0, sorties := (s.startsCome pair).length, processor := true
      units := v.units.map (fun e => (e.1, { e.2 with openRow := none })) })
  else s)

/-- Half-nanoseconds of the vertical channel for n bytes of records (R161). -/
def State.riseTime (s : State) (pair n : Nat) : Nat := if s.narrow pair then (n * 5 + 383) / 384 else (n * 5 + 767) / 768

/-- The next instruction of a sequence. -/
def SeqSt.word (q : SeqSt) : Nat := ((q.prog[q.pc]?).map BitVec.toNat).getD 0

/-- Time of the records `a` to `b - 1` of a RISE of records of n bytes. -/
def State.recordsTime (s : State) (pair n a b : Nat) : Nat := s.riseTime pair (b * n) - s.riseTime pair (a * n)

/-- Time to the next instruction boundary in half-nanoseconds, at most (R154): of a RISE, its next record. -/
def State.nextCost (s : State) (pair : Nat) (q : SeqSt) : Nat :=
  match bop (biOp q.word) with
  | some .rise => s.recordsTime pair (riseSize q.word) q.rise (q.rise + 1)
  | some .clra => if q.afterM then 0 else 5
  | some .exps => if q.afterM then 0 else 5
  | some o => if o.accesses then 5 else 0
  | none => 0

/-- Instruction time `c` fits in the sortie, the share and the period (R163). -/
def State.fitsTime (s : State) (pair c : Nat) : Bool :=
  let v := s.vault pair
  decide (v.sortieSpent + c ≤ 2048) && decide (v.bsSpent + c ≤ 2 * s.bsShare pair) && decide (c ≤ 2 * (periodNs - s.inPeriod))

/-- The next instruction, or record of a RISE, fits. -/
def State.fits (s : State) (pair : Nat) (q : SeqSt) : Bool := s.fitsTime pair (s.nextCost pair q)

/-- Instruction time `c` ends before the next refresh or scrub slot begins (R164). -/
def State.beforeSlot (s : State) (pair c : Nat) : Bool := (s.slotIn pair).all (fun d => decide (c ≤ 2 * d))

/-- End a running sortie: an ordinary-access window opens (R163, R165). -/
def State.endSortie (s : State) (pair : Nat) : State :=
  (s.setVault pair (fun v => { v with sortie := none, sortieSpent := 0, freedAt := some s.now })).serveHeld pair

/-- SORTIE_END: the next instruction does not fit. -/
def execSortieEnd (pair : Fin 1024) (s : State) : Host.Outcome State Fault Refusal :=
  .next (match (s.vault pair).seq with
    | some q => if (s.vault pair).sortie.isSome && !s.fits pair q then s.endSortie pair else s
    | none => s)

/-! ## Instructions -/

/-- The sequence of a vault may execute an instruction of opcode `o` now: in a sortie, outside the slots, where it ends in time
(R163, R164). -/
def State.mayIssue (s : State) (pair : Nat) (o : BOp) : Option SeqSt :=
  match (s.vault pair).seq with
  | some q =>
    if (s.vault pair).sortie.isSome && (s.vault pair).pausedUntil.isNone && !s.inVaultSlot pair && decide (bop (biOp q.word) = some o) && s.fits pair q
        && s.beforeSlot pair (s.nextCost pair q) then some q else none
  | none => none

/-- The sequence state of a vault changed. -/
def State.setSeqSt (s : State) (pair : Nat) (f : SeqSt → SeqSt) : State := s.setVault pair (fun v => { v with seq := v.seq.map f })

/-- A bank unit changed. -/
def State.setUnit (s : State) (pair b : Nat) (f : BankUnit → BankUnit) : State := s.setVault pair (fun v => { v with units := upd v.units b {} f })

/-- A bank unit. -/
def State.unit (s : State) (pair b : Nat) : BankUnit := look (s.vault pair).units b {}

/-- Index of the innermost loop. -/
def SeqSt.inner (q : SeqSt) : Nat := (q.loops.head?.map (·.index)).getD 0
/-- Index of the outermost loop. -/
def SeqSt.outer (q : SeqSt) : Nat := (q.loops.getLast?.map (·.index)).getD 0

/-- A bank's count of a loop (R155). -/
def SeqSt.countOf (q : SeqSt) (b : Nat) (l : LoopSt) : Nat :=
  match l.param with
  | none => l.total
  | some k => q.pw b k

/-- Banks that run the sequence: enabled and not retired. -/
def State.seqBanks (s : State) (pair : Nat) (q : SeqSt) : List Nat := (List.range 128).filter (fun b => q.enabled b && !s.bankRetired pair b)

/-- Banks that execute the next instruction: those whose counts are not spent (R155). -/
def State.activeBanks (s : State) (pair : Nat) (q : SeqSt) : List Nat :=
  (s.seqBanks pair q).filter (fun b => q.loops.all (fun l => decide (l.index < q.countOf b l)))

/-- BI_COND lets a bank's access issue (R151); the last iteration is the bank's own. -/
def SeqSt.issues (q : SeqSt) (w b : Nat) : Bool :=
  match biCond w, q.loops with
  | 1, l :: _ => decide ((l.index + 1) % 2 ^ (biCount w % 16) = 0) || decide (l.index + 1 = q.countOf b l)
  | 2, l :: _ => decide (l.index % 2 ^ (biCount w % 16) = 0)
  | _, _ => true

/-- Detail of an ending at an instruction (R156). -/
def bankDetail (pair b pc : Nat) : BitVec 32 := BitVec.ofNat 32 (pair * 65536 + b * 256 + pc)

/-- Spend instruction time: half-nanoseconds of the sortie and the share. -/
def State.spend (s : State) (pair c : Nat) : State := s.setVault pair (fun v => { v with sortieSpent := v.sortieSpent + c, bsSpent := v.bsSpent + c })

/-- Step to the next instruction. -/
def State.stepPc (s : State) (pair : Nat) (afterM : Option Bool) : State :=
  s.setSeqSt pair (fun q => { q with pc := q.pc + 1, afterM := afterM.getD q.afterM })

/-! ### Unit arithmetic -/

/-- ACC lane k. -/
def BankUnit.accAt (u : BankUnit) (k : Nat) : Num := wVal (look u.acc k 0)
/-- Scalar lane k. -/
def BankUnit.sAt (u : BankUnit) (k : Nat) : Num := wVal (look u.s k 0)
/-- Register k as a number. -/
def BankUnit.reg (u : BankUnit) (k : Nat) : Nat := (look u.br k 0).toNat
/-- Pointer k. -/
def BankUnit.ptr (u : BankUnit) (k : Nat) : Nat := (look u.p k 0).toNat

/-- The flags that W-format results raise (02_number_formats.md R58): overflow, and a nonzero result flushed to zero. -/
def wFlags (g : BitVec 8) (vs : List WRes) : BitVec 8 := setFlag (setFlag g .wOverflow (vs.any (·.ovf))) .underflowZero (vs.any (·.flush))

/-- A scalar lane written. -/
def BankUnit.setS (u : BankUnit) (k : Nat) (v : WRes) : BankUnit := { u with s := put u.s k (wBits v.v), flags := wFlags u.flags [v] }

/-- Lanes from L written. -/
def BankUnit.setLanes (u : BankUnit) (l : Nat) (vs : List WRes) : BankUnit :=
  { u with acc := (vs.zipIdx).foldl (fun m (v, j) => put m (l + j) (wBits v.v)) u.acc, flags := wFlags u.flags vs }

/-- A register written. -/
def BankUnit.setReg (u : BankUnit) (k x : Nat) : BankUnit := { u with br := put u.br k (BitVec.ofNat 256 x) }

/-- Pointer k written. -/
def BankUnit.setPtr (u : BankUnit) (k x : Nat) : BankUnit := { u with p := put u.p k (BitVec.ofNat 19 x) }

/-- The elements of a code word read from a row, MX blocks scaled from BR7 (R158). -/
def BankUnit.elems (u : BankUnit) (f : Fmt) (x : Nat) : List Num × BankUnit :=
  let es := (List.range f.perWord).map (fun j => bits x (j * f.bits) f.bits)
  let vs := if f.mx then runVals f es (fun k => bits (u.reg 7) (8 * ((u.mxBlocks + k) % 32)) 8) else es.map f.val
  (vs, { u with mxBlocks := if f.mx then u.mxBlocks + f.perWord / 32 else u.mxBlocks, flags := u.flags ||| nanIn vs })

/-- Elements of a register in a format. -/
def BankUnit.regElems (u : BankUnit) (f : Fmt) (k : Nat) : List Num := (List.range f.perWord).map (fun j => f.val (bits (u.reg k) (j * f.bits) f.bits))

/-- Lane L + j for exact terms: added with one rounding, or overwritten (R157). -/
def BankUnit.accumulate (u : BankUnit) (l : Nat) (add : Bool) (vs : List Num) : BankUnit :=
  u.setLanes l ((vs.zipIdx).map (fun (v, j) => wRound (if add then (u.accAt (l + j)).add v else v)))

/-- The larger of two values (R157): NaN from either, and +0 above -0. -/
def wMax (a b : Num) : Num :=
  if a.isNan || b.isNan then .nan
  else if a.isZero && b.isZero then .fin (a.sign && b.sign) 0 0
  else if a.lt b then b else a

/-- A comparison of CSEL; with a NaN it is false. -/
def selects (c : Nat) (x y : Num) : Bool :=
  if x.isNan || y.isNan then false
  else match c with
    | 0 => x.lt y
    | 1 => x.le y
    | 2 => x.le y && y.le x
    | 3 => y.lt x
    | 4 => y.le x
    | _ => x.lt y || y.lt x

/-- First lane of an instruction: BI_LANE under BI_LIDX. -/
def SeqSt.first (q : SeqSt) (w : Nat) : Nat := biLane w + (if biLidx w then (biFormat w).perWord * q.outer else 0)

/-- A token index is allowed for a bank (R150). -/
def SeqSt.allowed (q : SeqSt) (b i : Nat) : Bool :=
  match bits (q.pw b 0) 1 2 with
  | 1 => decide (q.pw b 7 % 65536 ≤ i) && decide (i < q.pw b 7 / 65536)
  | 2 => decide (i < 2048) && bit (readByte q.masks (256 * b + i / 8)).toNat (i % 8)
  | _ => true

/-! ### Class M -/

/-- What an access of a bank does with its code word: the unit after it, and the word written for a write. -/
abbrev UnitOp := SeqSt → Nat → Nat → BankUnit → (Nat → Nat) → BankUnit × Option Nat

/-- One bank's access (R156): its check, its read or write, its pointer; an ending when it cannot be made. -/
def State.bankAccess (s : State) (pair b : Nat) (q : SeqSt) (w : Nat) (writes : Bool) (f : UnitOp) (pick : Nat → Nat) : State × Option Ending :=
  let u := s.unit pair b
  let p := u.ptr (biPtr w)
  let row := p / 32
  let off := rowOffset b row (p % 32 * 32)
  let stop (st : Status) (a : Nat) : Ending := { status := st, detail := bankDetail pair b q.pc, result := BitVec.ofNat 64 a }
  if 9216 ≤ row then (s, some (stop .rejectLimit 0))
  else if 9216 - look s.settings.poolRows pair 0 ≤ row then (s, some (stop .rejectState 0))
  else if s.isRetired pair off then (s, some (stop .pageRetired (modAddr pair (blockOf off * 4096))))
  else
    let s0 := (s.charge pair b (if u.openRow = some row then (275 : Rat) / 100 else (30275 : Rat) / 100)).setUnit pair b (fun u =>
      { u with cycles := u.cycles + 1, openRow := some row, p := if biInc w then put u.p (biPtr w) (BitVec.ofNat 19 (p + 1)) else u.p })
    if writes then
      let (u', x) := f q w 0 (s0.unit pair b) pick
      ((s0.setUnit pair b (fun _ => u')).writeWord pair (off / 32) 0 (leBytes 32 (x.getD 0)) (4096, 0), none)
    else match s0.readWord pair (off / 32) 2 with
      | (.ok bs, t) => (t.setUnit pair b (fun u => (f q w (leNat bs) u pick).1), none)
      | (.retired, t) => (t, some (stop .pageRetired (modAddr pair (blockOf off * 4096))))
      | (.bad, t) => (t, some (stop .memoryUncorrectable (modAddr pair off)))

/-- The accesses of the banks of one column cycle: each is made, and the sequence ends at the instruction boundary when one
could not be (R167); the lowest bank's ending is reported. -/
def State.bankAccesses (s : State) (pair : Nat) (q : SeqSt) (w : Nat) (writes : Bool) (f : UnitOp) (pick : Nat → Nat) : List Nat → State × Option Ending
  | [] => (s, none)
  | b :: rest =>
    let (t, e) := s.bankAccess pair b q w writes f (fun k => pick (k * 128 + b))
    let (u, e2) := State.bankAccesses t pair q w writes f pick rest
    (u, e.orElse (fun _ => e2))

/-- A class-M instruction: suppressed it takes no cycle; lanes above 255 end the sequence (R153); else every active bank makes
its access. -/
def State.classM (s : State) (pair : Nat) (o : BOp) (writes : Bool) (f : UnitOp) : State :=
  match s.mayIssue pair o with
  | none => s
  | some q =>
    let w := q.word
    match (s.activeBanks pair q).filter (q.issues w) with
    | [] => s.stepPc pair (some false)
    | b :: bs =>
      if 255 < laneTop o w q.outer q.inner then
        s.failBank pair q.req { status := .rejectLimit, detail := bankDetail pair b q.pc }
      else
        let (pick, s1) := s.drawMany
        match (s1.spend pair 5).bankAccesses pair q w writes f pick (b :: bs) with
        | (t, some e) => t.failBank pair q.req e
        | (t, none) => t.stepPc pair (some true)

/-- LD. -/
def execBankLd (pair : Fin 1024) (s : State) : Host.Outcome State Fault Refusal :=
  .next (s.classM pair .ld false (fun _ w x u _ =>
    (let v := u.setReg (biRd w) x
     if biRd w = 7 then { v with mxBlocks := 0 } else v, none)))

/-- ST. -/
def execBankSt (pair : Fin 1024) (s : State) : Host.Outcome State Fault Refusal :=
  .next (s.classM pair .st true (fun _ w _ u _ => (u, some (u.reg (biRa w)))))

/-- LDA. -/
def execBankLda (pair : Fin 1024) (s : State) : Host.Outcome State Fault Refusal :=
  .next (s.classM pair .lda false (fun q w x u _ =>
    let (vs, u1) := u.elems (biFormat w) x
    (u1.accumulate (q.first w) (biAdd w) vs, none)))

/-- A lane scaled by BR_SCALE_A, once (R158). -/
def SeqSt.scaled (q : SeqSt) (v : Num) : WRes := wMul v (fp32 q.req.scaleA.toNat)

/-- STA (R161). -/
def execBankSta (pair : Fin 1024) (s : State) : Host.Outcome State Fault Refusal :=
  .next (s.classM pair .sta true (fun q w _ u pick =>
    let f := biFormat w
    let o := outRow f .one (convOf q.req.conv.toNat) pick ((List.range f.perWord).map (fun j => q.scaled (u.accAt (q.first w + j))))
    ({ u with flags := u.flags ||| o.flags }, some (leNat (packElems f.bits o.elems)))))

/-- MAC. -/
def execBankMac (pair : Fin 1024) (s : State) : Host.Outcome State Fault Refusal :=
  .next (s.classM pair .mac false (fun q w x u _ =>
    let (vs, u1) := u.elems (biFormat w) x
    let ys := u1.regElems (biFormat w) (biRa w)
    (({ u1 with flags := u1.flags ||| nanIn ys } : BankUnit).accumulate (q.first w) (biAdd w) ((vs.zip ys).map (fun (a, b) => a.mul b)), none)))

/-- AXPY. -/
def execBankAxpy (pair : Fin 1024) (s : State) : Host.Outcome State Fault Refusal :=
  .next (s.classM pair .axpy false (fun q w x u _ =>
    let (vs, u1) := u.elems (biFormat w) x
    (u1.accumulate (q.first w) true (vs.map (fun v => (q.lane (biImm w % 256)).mul v)), none)))

/-- SCAL. -/
def execBankScal (pair : Fin 1024) (s : State) : Host.Outcome State Fault Refusal :=
  .next (s.classM pair .scal false (fun q w x u _ =>
    let (vs, u1) := u.elems (biFormat w) x
    (u1.accumulate (q.first w) false (vs.map (fun v => (q.lane (biImm w % 256)).mul v)), none)))

/-- A sum tree over exact terms in a free order: one rounding per addition (R157, notes/assumptions/12.md). -/
def treeFrom (pick : Nat → Nat) : Nat → List WRes → WRes
  | 0, l => l.headD (.pure .zero)
  | n + 1, l =>
    match l with
    | [] => .pure .zero
    | [x] => x
    | l =>
      let i := pick (2 * n) % l.length
      let r := takeOut l i
      let j := pick (2 * n + 1) % r.length
      let a := l.getD i (.pure .zero)
      let b := r.getD j (.pure .zero)
      let x := wRound (a.v.add b.v)
      treeFrom pick n ({ x with ovf := x.ovf || a.ovf || b.ovf, flush := x.flush || a.flush || b.flush } :: takeOut r j)

/-- Add a code word's sum tree to a scalar lane (R157). -/
def BankUnit.addTree (u : BankUnit) (k : Nat) (pick : Nat → Nat) (vs : List Num) : BankUnit :=
  u.setS k ((treeFrom pick vs.length (vs.map WRes.pure)).bind (fun x => wAdd (u.sAt k) x))

/-- DOT. -/
def execBankDot (pair : Fin 1024) (s : State) : Host.Outcome State Fault Refusal :=
  .next (s.classM pair .dot false (fun q w x u pick =>
    let (vs, u1) := u.elems (biFormat w) x
    let l := q.first w + q.inner * (biFormat w).perWord
    (u1.addTree (biImm w % 4) pick ((vs.zipIdx).map (fun (v, j) => v.mul (q.lane (l + j)))), none)))

/-- EXPW (R159): e from lane i mod 4 of BRa. -/
def execBankExpw (pair : Fin 1024) (s : State) : Host.Outcome State Fault Refusal :=
  .next (s.classM pair .expw false (fun q w x u _ =>
    let (vs, u1) := u.elems (biFormat w) x
    let e := Fmt.wc64.val (bits (u1.reg (biRa w)) (64 * (q.inner % 4)) 64)
    (({ u1 with flags := u1.flags ||| nanIn [e] } : BankUnit).accumulate (q.first w) true (vs.map (fun v => e.mul v)), none)))

/-- RSUM. -/
def execBankRsum (pair : Fin 1024) (s : State) : Host.Outcome State Fault Refusal :=
  .next (s.classM pair .rsum false (fun _ w x u pick =>
    let (vs, u1) := u.elems (biFormat w) x
    (u1.addTree (biImm w % 4) pick vs, none)))

/-- RMAX. -/
def execBankRmax (pair : Fin 1024) (s : State) : Host.Outcome State Fault Refusal :=
  .next (s.classM pair .rmax false (fun _ w x u _ =>
    let (vs, u1) := u.elems (biFormat w) x
    (u1.setS (biImm w % 4) (wRound (vs.foldl wMax (u1.sAt (biImm w % 4)))), none)))

/-- The stencil of R160 over a centre block with its neighbours. -/
def stencil (cm c0 cp left right : Num) (xs : List Num) : List WRes :=
  ((xs.zip ((left :: xs).zip (xs.drop 1 ++ [right])))).map (fun (x, (l, r)) =>
    (wRound ((cm.mul l).add (c0.mul x))).bind (fun a => wRound (a.add (cp.mul r))))

/-- STEN (R160). -/
def execBankSten (pair : Fin 1024) (s : State) : Host.Outcome State Fault Refusal :=
  .next (s.classM pair .sten false (fun q w x u _ =>
    let f := biFormat w
    let (rs, u1) := u.elems f x
    let ls := u1.regElems f (biRd w)
    let cs := u1.regElems f (biRa w)
    let k := biImm w % 256
    let outs := stencil (q.lane k) (q.lane (k + 1)) (q.lane (k + 2)) (ls.getLastD .zero) (rs.headD .zero) cs
    let l := q.first w
    let u2 := ({ u1 with flags := u1.flags ||| nanIn (ls.getLastD .zero :: cs) } : BankUnit).setLanes l ((outs.zipIdx).map (fun (v, j) => if biAdd w then v.bind (fun y => wAdd (u1.accAt (l + j)) y) else v))
    ((u2.setReg (biRd w) (u1.reg (biRa w))).setReg (biRa w) x, none)))

/-- CSEL. -/
def execBankCsel (pair : Fin 1024) (s : State) : Host.Outcome State Fault Refusal :=
  .next (s.classM pair .csel false (fun q w x u _ =>
    let (vs, u1) := u.elems (biFormat w) x
    let ys := u1.regElems (biFormat w) (biRa w)
    (({ u1 with flags := u1.flags ||| nanIn ys } : BankUnit).accumulate (q.first w) false
      ((vs.zip ys).map (fun (a, b) => if selects (biImm w % 8) a b then a else b)), none)))

/-! ### Class R -/

/-- A class-R instruction: one column cycle unless it follows a class-M instruction (R154). -/
def State.classR (s : State) (pair : Nat) (o : BOp) (f : SeqSt → Nat → Nat → BankUnit → BankUnit) : State :=
  match s.mayIssue pair o with
  | none => s
  | some q =>
    let act := s.activeBanks pair q
    let c := if q.afterM || act.isEmpty then 0 else 1
    let t := act.foldl (fun (t : State) b =>
      (if c = 0 then t else t.charge pair b ((275 : Rat) / 100)).setUnit pair b (fun u => { (f q q.word b u) with cycles := u.cycles + c })) s
    (t.spend pair (5 * c)).stepPc pair (some false)

/-- CLRA. -/
def execBankClra (pair : Fin 1024) (s : State) : Host.Outcome State Fault Refusal :=
  .next (s.classR pair .clra (fun _ _ _ u => { u with acc := [], s := [], cnt := 0 }))

/-- EXPS (R159). -/
def execBankExps (pair : Fin 1024) (s : State) : Host.Outcome State Fault Refusal :=
  .next (s.classR pair .exps (fun q w b u =>
    let sc := wMul (u.sAt 0) (fp32 q.req.scaleS.toNat)
    let e := sc.bind (smExp (fp32 q.req.tau.toNat) (fp32 q.req.offset.toNat))
    let masked := biMask w && !q.allowed b q.inner
    let e' : WRes := if masked then .pure .zero else e
    let u1 : BankUnit := if masked then u else { (u.setS 1 (e.bind (fun x => wAdd (u.sAt 1) x))) with cnt := u.cnt + 1 }
    let r := u1.reg (biRd w)
    let k := 64 * (q.inner % 4)
    let x := r - bits r k 64 * 2 ^ k + (Fmt.wc64.convert (convOf 0) 0 e'.v).bits * 2 ^ k
    { (u1.setReg (biRd w) x) with s := put u1.s 0 (wBits .zero), flags := wFlags u1.flags [e'] }))

/-! ### Class C -/

/-- The index after the ENDL that closes the loop opened at `pc`. -/
def afterLoop : List (BitVec 64) → Nat → Nat → Nat
  | [], pc, _ => pc
  | w :: rest, pc, depth =>
    match bop (biOp w.toNat) with
    | some .loop => afterLoop rest (pc + 1) (depth + 1)
    | some .endl => if depth = 0 then pc + 1 else afterLoop rest (pc + 1) (depth - 1)
    | _ => afterLoop rest (pc + 1) depth

/-- LOOP (R155): the body runs as often as the largest count of the banks; at 0 it is passed over. -/
def execBankLoop (pair : Fin 1024) (s : State) : Host.Outcome State Fault Refusal :=
  .next (match s.mayIssue pair .loop with
    | none => s
    | some q =>
      let w := q.word
      let src : Option Nat := if biCount w = 0 then some (biImm w % 8) else none
      let total := match src with
        | none => if (s.seqBanks pair q).isEmpty then 0 else biCount w
        | some k => (s.seqBanks pair q).foldl (fun m b => max m (q.pw b k)) 0
      s.setSeqSt pair (fun q =>
        if total = 0 then { q with pc := afterLoop (q.prog.drop (q.pc + 1)) (q.pc + 1) 0 }
        else { q with pc := q.pc + 1, loops := { body := q.pc + 1, index := 0, total := total, param := src } :: q.loops }))

/-- ENDL. -/
def execBankEndl (pair : Fin 1024) (s : State) : Host.Outcome State Fault Refusal :=
  .next (match s.mayIssue pair .endl with
    | none => s
    | some _ =>
      s.setSeqSt pair (fun q =>
        match q.loops with
        | l :: rest => if l.index + 1 < l.total then { q with pc := l.body, loops := { l with index := l.index + 1 } :: rest }
          else { q with pc := q.pc + 1, loops := rest }
        | [] => { q with pc := q.pc + 1 }))

/-- SETP, in its three modes. -/
def execBankSetp (pair : Fin 1024) (s : State) : Host.Outcome State Fault Refusal :=
  .next (match s.mayIssue pair .setp with
    | none => s
    | some q =>
      let w := q.word
      let i := biImm w
      let target (b : Nat) (u : BankUnit) : Nat :=
        match i / 2 ^ 14 with
        | 0 => q.pw b (i % 8)
        | 1 => q.pw b (i % 8) + q.outer * q.pw b (i / 8 % 8)
        | _ => (((u.ptr (biPtr w) : Int) + toInt 14 i) % (2 ^ 19 : Int)).toNat
      ((s.activeBanks pair q).foldl (fun (t : State) b => t.setUnit pair b (fun u => u.setPtr (biPtr w) (target b u))) s).stepPc pair none)

/-- END (R148, R167): the sequence ends; the vault returns to memory mode unless the next is already received. -/
def execBankEnd (pair : Fin 1024) (s : State) : Host.Outcome State Fault Refusal :=
  .next (match s.mayIssue pair .stop with
    | none => s
    | some q =>
      let us := (s.seqBanks pair q).map (s.unit pair)
      let e : Ending :=
        { status := if q.degraded then .doneDegraded else .done, flags := us.foldl (fun g u => g ||| u.flags) 0
          result := BitVec.ofNat 64 (us.foldl (fun m u => max m u.cycles) 0) }
      (((s.setVault pair (fun v => { v with processor := !v.queue.isEmpty })).endBank pair q.req e).endSortie pair))

/-! ### Class V -/

/-- One bank's record (R161). -/
def riseRecord (q : SeqSt) (w : Nat) (u : BankUnit) : List Byte × BankUnit :=
  let n := biImm w % 512
  let ls := (List.range n).map (fun k => q.scaled (u.accAt k))
  let tail := if bit (biImm w) 12 then [u.sAt 1, Num.ofInt u.cnt.toNat, .zero] else []
  let scal := if bit (biImm w) 13 then (List.range 4).map u.sAt else []
  let o := outRow .wc64 .one (convOf 0) (fun _ => 0) (ls ++ (tail ++ scal).map WRes.pure)
  (packElems 64 o.elems, { u with flags := u.flags ||| o.flags })

/-- The record of one bank is sent; the slot of a disabled or retired bank is written as zeros (R161). -/
def State.sendRecord (s : State) (pair : Nat) (q : SeqSt) (b : Nat) : State :=
  let n := riseSize q.word
  if (s.seqBanks pair q).contains b then
    let (bs, u) := riseRecord q q.word (s.unit pair b)
    (s.setUnit pair b (fun _ => u)).storeCore pair q.req.ord (q.req.outBase + b * n) bs
  else s.storeCore pair q.req.ord (q.req.outBase + b * n) (List.replicate n 0)

/-- How many records of a RISE go on from record `a` within the sortie, the share, the period and the time to the next slot:
every record boundary is an instruction boundary (R163, R164). -/
def State.recordsNow (s : State) (pair : Nat) (q : SeqSt) : Nat :=
  (((List.range (128 - q.rise)).map (fun k => s.recordsTime pair (riseSize q.word) q.rise (q.rise + k + 1))).filter (fun c =>
    s.fitsTime pair c && s.beforeSlot pair c)).length

/-- RISE: one record per bank at BR_OUT_BASE in the pair's core, as many as fit; with the last the sequence goes on. -/
def execBankRise (pair : Fin 1024) (s : State) : Host.Outcome State Fault Refusal :=
  .next (match s.mayIssue pair .rise with
    | none => s
    | some q =>
      let n := riseSize q.word
      if n = 0 then s.stepPc pair (some false)
      else
        let k := s.recordsNow pair q
        let t := ((List.range k).map (fun i => q.rise + i)).foldl (fun (t : State) b => t.sendRecord pair q b) s
        let lost := (List.range 128).any (fun b => q.enabled b && s.bankRetired pair b)
        let u := (t.spend pair (s.recordsTime pair n q.rise (q.rise + k))).setSeqSt pair (fun q =>
          { q with degraded := q.degraded || s.narrow pair || lost, rise := if q.rise + k = 128 then 0 else q.rise + k })
        if q.rise + k = 128 then u.stepPc pair (some false) else u)

end Sys2Proof.Machine
end

