-- ==== Sys2Proof/Machine/Health.lean ====
section
/-! DEFINITION. Refresh, canary rows, scrub, spare connections, narrow mode and vault loss (07_vaults_and_protection.md R181,
R195 to R203, 10_rack_time_rations.md R282). -/

namespace Sys2Proof.Machine

open Sys2Proof

/-! ## Refresh and canary rows -/

/-- Rows of a refresh round in each bank (R282). -/
def refreshRows : Nat := 9360

/-- A point as an event argument: tower, layer and site, one byte each (notes/assumptions/30.md). -/
def pointArg (p : Nat) : Nat :=
  let (t, l, x) := pointParts p
  t + 256 * l + 65536 * x

/-- A canary failure of a bank (R197): it is logged, doubling and halving take effect at the next boundary, and an estimate
below 85 °C there writes ESTIMATE_LOW (11_heat_path.md R303). -/
def State.canaryFail (s : State) (pair bank row : Nat) : State :=
  let t := (s.addLog pair bank 5 row 0 0xFF 5 0xFF (modAddr pair 0)).setVault pair (fun v =>
    { v with canaryAt := some s.now, canaryFrom := if v.halved then none else v.canaryFrom <|> some s.now })
  match look? s.thermal.estimates (s.bankPoint pair bank) with
  | some e => if e < 85 then t.postArgs 0x0207 (s.bankPoint pair bank) 1 (pointArg (s.bankPoint pair bank)) (ofInt 64 (e * 16).floor) row else t
  | none => t

/-- Time between two checks of a canary row: four refresh intervals (R196). -/
def State.canaryEvery (s : State) (pair : Nat) : Nat := 4 * (ms 32 / s.refreshMultiple pair)

/-- The canary rows a slot of `k` rows reads: those due, lowest first. -/
def State.canaryDue (s : State) (pair k : Nat) : List Nat :=
  ((List.range 4).filter (fun r => decide (look (s.vault pair).canaryRead r 0 + s.canaryEvery pair ≤ s.now))).take k

/-- REFRESH_SLOT (R282, R164): the slot begins at RATION_REF_OFFSET and pauses a sortie for its length. Canary rows that are due
are read, compared and rewritten in every bank, `canaryFlips` naming the bank and canary row of those found flipped (R196); the
other rows of the slot are refreshed. -/
def execRefreshSlot (pair : Fin 1024) (canaryFlips : List (Fin 128 × Fin 4)) (s : State) : Host.Outcome State Fault Refusal :=
  .next (if s.pairPresent pair && s.time.running && decide (s.inPeriod = s.refreshAt pair) && !s.inVaultSlot pair then
    let n := s.refreshLen pair
    let rows := s.canaryDue pair (n / 64)
    (canaryFlips.filter (fun f => rows.contains f.2.val)).foldl (fun (t : State) f => t.canaryFail pair f.1.val f.2.val)
      (s.setVault pair (fun v => { v with
        slotUntil := some (s.now + n), refreshRow := (v.refreshRow + (n / 64 - rows.length)) % refreshRows
        canaryRead := rows.foldl (fun m r => put m r s.now) v.canaryRead
        units := v.units.map (fun e => (e.1, { e.2 with openRow := none })) }))
  else s)

/-- CANARY_CLEAR (R197): at the first boundary after 10 s without a failure both effects end. -/
def execCanaryClear (pair : Fin 1024) (s : State) : Host.Outcome State Fault Refusal :=
  .next (match (s.vault pair).canaryAt with
    | some t =>
      if t + ms 10000 < s.now ∧ s.atBoundary then
        (s.setVault pair (fun v => { v with canaryAt := none, halved := false })).logVault pair 6 5 0xFF (modAddr pair 0)
      else s
    | none => s)

/-! ## Scrub (R195) -/

/-- The next code word of the patrol whose block is valid; none ends the pass. -/
def State.nextScrub (s : State) (pair : Nat) : Option Nat :=
  let v := s.vault pair
  if s.isValid pair (v.scrubAt / 128) then (if v.scrubAt < vaultWords then some v.scrubAt else none)
  else ((v.valid.filter (fun b => decide (v.scrubAt / 128 < b))).head?).map (fun b => 128 * b)

/-- Scrub one code word (R195): it is read and checked; a corrected word is written back and read again, and a symbol that
still errs is hard; an uncorrectable word becomes poison. -/
def State.scrubWord (s : State) (pair w : Nat) : State :=
  match look? (s.vault pair).cells w with
  | none => s
  | some _ => match s.checkWord pair w 1 with
    | (.ok bs, t) =>
      let u := t.storeWord pair w bs
      match ((look (u.vault pair).cells w {}).hard).head? with
      | some x => u.logWord pair w 2 x 1
      | none => u
    | (.lost, t) => (t.poisonWord pair w).logWord pair w 3 0xFF 1
    | (.poison, t) => t

/-- SCRUB_SLOT: in a period where the patrol is behind its pace, the slot patrols one code word (notes/assumptions/31.md) and
pauses a sortie. -/
def execScrubSlot (pair : Fin 1024) (s : State) : Host.Outcome State Fault Refusal :=
  .next (
    let p := s.profileFor pair
    if s.pairPresent pair && s.time.running && decide (s.inPeriod = p.scrubOffset.toNat) && decide (p.scrub ≠ 0) && !s.inVaultSlot pair
        && s.scrubBehind pair then
      let t := (s.readMap pair ((s.vault pair).scrubAt / 128) 1).setVault pair (fun v => { v with slotUntil := some (s.now + p.scrub.toNat) })
      match t.nextScrub pair with
      | some w => (t.scrubWord pair w).setVault pair (fun v => { v with scrubAt := w + 1 })
      | none => t.setVault pair (fun v => { v with scrubAt := 0, lateCount := 0, passStart := max (s.passStart pair + s.passNs) s.now })
    else s)

/-- SCRUB_LATE: the pass has overrun its interval; one entry per interval. -/
def execScrubLate (pair : Fin 1024) (s : State) : Host.Outcome State Fault Refusal :=
  .next (
    let v := s.vault pair
    if s.pairPresent pair && decide (s.passStart pair + s.passNs * (v.lateCount + 1) ≤ s.now) then
      (s.setVault pair (fun v => { v with lateCount := v.lateCount + 1 })).logVault pair 14 1 0xFF (modAddr pair 0)
    else s)

/-! ## Loss of a pair (R203, 01_seven_levels.md R21, R40) -/

/-- An operation in flight works on a pair: on its core, or on pages it has pinned there. -/
def State.worksOn (s : State) (c : Cmd) (i : Nat) (x : Oper) (pair : Nat) : Bool :=
  (match opKind (opCode x.desc) with
   | some k => k.coreUnit.isSome && decide (opPair x.desc = pair)
   | none => false)
  || s.kv.pins.any (fun p => decide (p.1 = c.tag) && decide (p.2.1 = i) && decide (p.2.2.1 = pair))

/-- The operations in flight on a pair end VAULT_LOST, its bank sequence and those it waits for too. -/
def State.loseWork (s : State) (pair : Nat) : State :=
  let t := s.setWarden (fun w => { w with tags := w.tags.map (fun c =>
    { c with order := c.order.map (fun o => { o with ops := (o.ops.zipIdx).map (fun (x, i) =>
        match x.phase with
        | .running _ => if s.worksOn c i x pair then { x with phase := .running (vaultLostEnding pair) } else x
        | _ => x) }) }) })
  let v := t.vault pair
  let u := t.setVault pair (fun v => { v.clearSeq with queue := [] })
  ((v.seq.map (·.req)).toList ++ v.queue).foldl (fun (x : State) r => x.endBank pair r (vaultLostEnding pair)) u

/-- Windows that name a pair are disabled, with an entry each (R177). -/
def State.dropWindows (s : State) (pair : Nat) : State :=
  (s.mem.windows.filter (fun e => e.2.enable && (windowPairs e.2.tower e.2.first e.2.count).contains pair)).foldl (fun (t : State) e =>
    ({ t with mem := { t.mem with windows := put t.mem.windows e.1 { e.2 with enable := false } } }).logVault pair 15 6 0xFF
      (windowBase + e.1 * 2 ^ 37)) s

/-- The accesses that wait at a lost vault end VAULT_LOST. -/
def State.dropHeldAccesses (s : State) (pair : Nat) : State :=
  ((s.vault pair).held ++ (s.vault pair).back).foldl (fun (t : State) h =>
      t.emit (h.ends { status := .vaultLost, result := BitVec.ofNat 64 (modAddr pair h.offset) }))
    (s.setVault pair (fun v => { v with held := [], back := [] }))

/-- A pair leaves service for a cause of Table 14-7 (R203): its merge buffer and slice lines are discarded, its work ends, its
windows go off, its pages are lost, the overlay and the geometry record say so. -/
def State.losePair (s : State) (pair cause : Nat) : State :=
  if s.geo.absent.contains pair then s
  else
    let t := (s.dropHeld pair (fun _ => true)).setVault pair (fun v => { v with pausedUntil := none })
    let u := (t.loseWork pair).dropHeldAccesses pair
    let g := { u with geo := { u.geo with absent := insertNat u.geo.absent pair } }
    let x := ((g.logVault pair 9 6 0xFF (modAddr pair 0)).overlayPair 1 pair 0 cause).geoChange 1 pair
    (x.dropWindows pair).losePages pair

/-! ## Spare connections (R181, R201, R202) -/

/-- Spares of a group: 4 of a channel group, 2 of a cache-bundle group. -/
def groupSpares (g : Nat) : Nat := if g < 64 then 4 else 2

/-- The half a data group lies in. -/
def groupHalf (g : Nat) : Bool := decide (18 ≤ g)

/-- Some data group of a half is exhausted. -/
def Vault.halfGone (v : Vault) (h : Bool) : Bool := v.groups.any (fun e => decide (e.1 < 36) && decide (groupHalf e.1 = h) && e.2.exhausted)

/-- Pause the vertical channel for a switch. -/
def State.pauseChannel (s : State) (pair n : Nat) : State :=
  s.setVault pair (fun v => { v with pausedUntil := some (max (v.pausedUntil.getD 0) (s.now + n)) })

/-- Enter narrow mode on the surviving half (R202): operations that cross the channel from now on end DONE_DEGRADED, and those in
flight that still do (01_seven_levels.md R40). -/
def State.enterNarrow (s : State) (pair : Nat) (upper : Bool) (group : Nat) : State :=
  let t := (s.setVault pair (fun v => { v with narrow := some upper })).pauseChannel pair (us 5)
  (((t.mayDegrade).logVault pair 8 6 group (modAddr pair 0)).overlayPair 7 pair 0 (ofBool upper)).geoChange 2 pair

/-- A failing connection of a group: a spare is switched in, or the group is exhausted (R201). -/
def State.groupFails (s : State) (pair g conn : Nat) : State :=
  let v := s.vault pair
  let x := look v.groups g {}
  if x.used < groupSpares g then
    let t := (s.setVault pair (fun v => { v with groups := put v.groups g { x with used := x.used + 1 } })).pauseChannel pair (us 2)
    (t.logVault pair 7 6 g (modAddr pair 0)).overlayPair 6 pair g (conn + 64 * x.used)
  else
    let t := s.setVault pair (fun v => { v with groups := put v.groups g { x with exhausted := true } })
    if 64 ≤ g then t.losePair pair 5
    else if 36 ≤ g then t.losePair pair 1
    else match v.narrow with
      | some upper => if groupHalf g = upper then t.losePair pair 1 else t
      | none => if v.halfGone (!groupHalf g) then t.losePair pair 1 else t.enterNarrow pair (!groupHalf g) g

/-- CHANNEL_GROUP_FAILING: groups 0 to 37 of the vertical channel, 64 to 79 of the cache bundle. -/
def execChannelGroupFailing (pair : Fin 1024) (group : Nat) (connection : Fin 64) (s : State) : Host.Outcome State Fault Refusal :=
  .next (if s.pairPresent pair && (decide (group < 38) || (decide (64 ≤ group) && decide (group < 80))) then
    settle s (s.groupFails pair group connection)
  else s)

/-- CHANNEL_PAUSE_END: the switch is over, at the latest when its time is; held accesses are served. -/
def execChannelPauseEnd (pair : Fin 1024) (s : State) : Host.Outcome State Fault Refusal :=
  .next (if (s.vault pair).pausedUntil.isSome then (s.setVault pair (fun v => { v with pausedUntil := none, freedAt := some s.now })).serveHeld pair else s)

/-! ## A slice out of service (R180) -/

/-- SLICE_FAIL (R180): the slice goes out of service; the dirty lines it loses become poison and are logged. Operations in flight
that the change affected end DONE_DEGRADED (01_seven_levels.md R40); which of them reach its tower's vaults is not stated, a free
choice for each (notes/assumptions/10.md). -/
def execSliceFail (tower : Fin 16) (s : State) : Host.Outcome State Fault Refusal :=
  .next (if s.hasTower tower && !(s.slice tower).failed then
      (((((s.slice tower).lines.filter (fun l => !l.dirty.isEmpty)).foldl (fun (t : State) l => t.badLine (l.line * 128 / 2 ^ 31) l) s).emptySlice
        tower).setSlice tower (fun c => { c with failed := true })).mayDegrade
    else s)

end Sys2Proof.Machine
end

