-- ==== Sys2Proof/Machine/Time.lean ====
section
/-! DEFINITION. Rack time: sources, locks, steps and beacons (10_rack_time_rations.md R272 to R279, 12_silman_and_seam.md
R347, R348). -/

namespace Sys2Proof.Machine

open Sys2Proof

/-- Rack time changed. -/
def State.setTime (s : State) (f : RackTime → RackTime) : State := { s with time := f s.time }

/-- This node is a time root now: TC_ROLE 1 and no lower emitter heard (R274, R348). RT_ROLE reads it. -/
def State.isRoot (s : State) : Bool := s.settings.tcRoot && s.time.lowerRoot.isNone

/-- The input may serve: auto or input only (R274). -/
def State.usesInput (s : State) : Bool := decide (s.settings.tcSource.toNat ≤ 1)

/-- The beacons may serve: auto or beacons only, and not at a root, which follows only the input (R274). -/
def State.usesBeacons (s : State) : Bool :=
  (decide (s.settings.tcSource.toNat = 0) || decide (s.settings.tcSource.toNat = 2)) && !s.isRoot

/-- The source that disciplines the count: the input is preferred (R274). -/
def State.pickSource (s : State) : RtSource :=
  if s.usesInput && s.time.inputLocked then .input
  else if s.usesBeacons && s.time.beaconsLocked then .beacons
  else .none

/-- The source whose frequency is followed while none is locked: LOCKING (Table 10-1). -/
def State.follows (s : State) : RtSource :=
  if s.usesInput && decide (2 ≤ s.time.ppsRun) then .input
  else if s.usesBeacons && decide (2 ≤ s.time.beaconRun) then .beacons
  else .none

/-- The error of the count against a source: source minus count, ns. -/
def State.sourceError (s : State) (r : RtSource) : Int :=
  match r with
  | .input => s.time.inputError
  | .beacons => s.time.beaconError
  | .none => 0

/-- The state changes: TIME_EVENT when it does (R273). -/
def State.toRtState (s : State) (st : RtState) (src : RtSource) : State :=
  let t := s.setTime (fun x => { x with state := st, source := src })
  if s.time.state = st then t else t.raise 40

/-- Input and beacons both locked and more than 1 µs apart: TIME_EVENT and TIME_CONFLICT, once for each disagreement
(R278). -/
def State.checkConflict (s : State) : State :=
  let d := s.time.inputError - s.time.beaconError
  let bad := s.time.inputLocked && s.time.beaconsLocked && decide (1000 < d.natAbs)
  let t := s.setTime (fun x => { x with conflict := bad })
  if bad && !s.time.conflict then (t.raise 40).postArgs 0x0308 s.lead 1 (ofInt 64 d) 0 0 else t

/-- The discipline is judged anew (R273 to R278): the first lock and a forward error above 1 µs call for a step at the next
boundary, any other error is slewed; a lost source leaves HOLDOVER after a lock. -/
def State.relock (s0 : State) : State :=
  let s := s0.checkConflict
  let p := s.pickSource
  let e := s.sourceError p
  let u := if p = .none then
      (if s.time.everLocked then
        (if s.time.state = .locked then
          (s.setTime (fun x => { x with slew := 0, stepPending := none, lockedAt := none,
                                        lossAt := some (s.now, s.errBound, x.lockedAt.any (fun t => decide (t + 600 * ms 1000 ≤ s.now))) })).toRtState
            .holdover .none
        else s.toRtState .holdover .none)
      else if s.follows = .none then (s.setTime (fun x => { x with stepPending := none })).toRtState .free .none
      else (s.setTime (fun x => { x with stepPending := none })).toRtState .locking s.follows)
    else if !s.time.everLocked then (s.setTime (fun x => { x with stepPending := some e })).toRtState .locking p
    else
      (s.setTime (fun x => { x with
        lossAt := none, lockedAt := if x.state = .locked then x.lockedAt else some s.now
        stepPending := if 1000 < e then some e else none, slew := if 1000 < e then 0 else e })).toRtState .locked p
  u.checkFallback

/-- The step that waits is applied at a boundary of the old count (R277): the count moves, the next boundary is the first
multiple of 4,096 ns at least 2,048 ns later, and an event record tells its size. -/
def State.applyStep (s : State) : State :=
  match s.time.stepPending with
  | none => s
  | some e =>
    let new := BitVec.ofInt 64 ((s.rtNow : Int) + e)
    let next := (new.toNat + 2048 + periodNs - 1) / periodNs * periodNs
    let t := s.setTime (fun x => { x with
      now := new, steps := x.steps + 1, lastStep := BitVec.ofInt 64 e, stepPending := none, slew := 0, everLocked := true
      nextBoundary := some (new, BitVec.ofNat 64 next), lastBoundary := none
      inputError := x.inputError - e, beaconError := x.beaconError - e })
    (t.postArgs 0x0307 s.lead 0 (ofInt 64 e) 0 0).relock

/-! ## The time-reference input (R273 to R275) -/

/-- Whole seconds nearest to a time. -/
def nearSeconds (t : Int) : Nat := ((t + 500000000) / 1000000000).toNat

/-- A PPS edge of the set kind arrives (R273 to R275, Table 10-2), with the frequency of the 25 MHz input against nominal. Once
locked, the input is lost only by its absence. -/
def execPpsEdge (rising : Bool) (freqPpb : Int) (s : State) : Host.Outcome State Fault Refusal :=
  .next (if !s.time.running ∨ rising = s.settings.tcFalling then s
  else
    let x := s.time
    let near := x.lastPps.any (fun t => decide (t + 1000000000 ≤ s.now + 1000) && decide (s.now ≤ t + 1000000000 + 1000))
    let ok := decide (freqPpb.natAbs ≤ 100000)
    let run := if near then x.ppsRun + 1 else 1
    let secs : Option (Nat × Nat) := match x.tcSeconds, x.seconds with
      | some v, _ => some (v.toNat, s.now)
      | none, some (c, t) => some (c + nearSeconds ((s.now : Int) - t), s.now)
      | none, none =>
        if s.settings.tcSource = 0 ∧ x.beaconsLocked then some (nearSeconds ((s.rtNow : Int) + x.beaconError), s.now) else none
    let t := s.setTime (fun y => { y with
      lastPps := some s.now, ppsRun := if ok then run else 0, tcSeconds := none, seconds := secs
      inputLocked := y.inputLocked || (ok && decide (3 ≤ run) && secs.isSome)
      inputError := match secs with
        | some (c, _) => (c : Int) * 1000000000 - s.rtNow
        | none => 0 })
    let u := t.relock
    if u.time.source = .input then u.setTime (fun y => { y with freqPpb := BitVec.ofInt 32 freqPpb }) else u)

/-- The 25 MHz input has been absent for 10 µs, or no PPS edge has come for 1.1 s: the input is lost (Table 10-2). -/
def execTrefLoss (s : State) : Host.Outcome State Fault Refusal :=
  .next (if s.time.lastPps.isSome then
    (s.setTime (fun x => { x with ppsRun := 0, lastPps := none, inputLocked := false })).relock else s)

/-- TIME_CONFIG (R274). -/
def execTimeConfig (ctrl : Fin 4) (slot : Fin 1024) (s : State) : Host.Outcome State Fault Refusal :=
  .next (s.serve 0x0100 ctrl slot (fun a t => a.checked t
    [(decide (3 < field a.b 24 1), .rejectFormat, 24), (decide (1 < field a.b 25 1), .rejectFormat, 25),
     (decide (1 < field a.b 26 1), .rejectFormat, 26), (decide (1 < field a.b 27 1), .rejectFormat, 27)]
    (fun t =>
      let root := decide (field a.b 25 1 = 1)
      let u := t.setSettings (fun x => { x with tcSource := BitVec.ofNat 2 (field a.b 24 1), tcRoot := root,
                                                tcFalling := decide (field a.b 26 1 = 1) })
      let v := u.setTime (fun x => { x with
        tcSeconds := if field a.b 27 1 = 1 then some (BitVec.ofNat 64 (field a.b 32 8)) else x.tcSeconds
        emitting := x.emitting && root, lowerRoot := if root then x.lowerRoot else none })
      a.done (if v.time.running then v.relock else v))))

/-! ## Beacons (12_silman_and_seam.md R347, R348) -/

/-- Ports that carry beacons: keyed and no boundary. -/
def State.beaconPorts (s : State) : List Nat :=
  (List.range 18).filter (fun n => s.hasSl n && decide ((s.sl n).state = .keyed) && decide ((s.sl n).role ≠ .boundary))

/-- An emitting node sends a beacon on every such port at each multiple of 10^6 ns of rack time. -/
def execBeaconEmit (s : State) : Host.Outcome State Fault Refusal :=
  .next (match s.links.nodeId with
    | some id =>
      if s.isRoot && s.time.running && decide (s.rtNow % 1000000 = 0) && decide (s.time.lastEmit ≠ some s.time.now) then
        s.beaconPorts.foldl (fun (t : State) n => t.sendUnseq n (.beacon (id.setWidth 16) 0 s.time.emitSeq s.time.now 0 (BitVec.ofNat 32 s.errBound)))
          (s.setTime (fun x => { x with emitting := true, lastEmit := some x.now, emitSeq := x.emitSeq + 1 }))
      else s
    | none => s)

/-- Path delay and residence as BC_CORR counts them, in 1/65,536 ns. -/
def beaconCorr (delay : BitVec 16) (residenceNs : Nat) : BitVec 64 := BitVec.ofNat 64 (delay.toNat * 4096 + residenceNs * 65536)

/-- Rack time at the arrival of a beacon (R347). -/
def beaconTime (m : BeaconMsg) (delay : BitVec 16) : Int := (m.originNs.toNat : Int) + (toInt 64 m.corr.toNat + delay.toNat * 4096) / 65536

/-- The frequency correction under beacons, which the spec does not state: a free value (notes/assumptions/10.md). -/
def State.beaconFreq (s : State) : State :=
  if s.time.source = .beacons then
    let (x, t) := s.draw
    t.setTime (fun y => { y with freqPpb := BitVec.ofNat 32 x })
  else s

/-- A beacon is taken from the port with the fewest hops, ties going to the lower number; each sequence number is
forwarded once (R347). Once locked, the beacons are lost only by their absence (10_rack_time_rations.md Table 10-2). -/
def State.takeBeacon (s : State) (n : Nat) (m : BeaconMsg) : State :=
  let x := s.time
  let hops := min 63 (m.hops.toNat + 1)
  let mine := decide (x.beaconPort = 0x1F) || decide (x.beaconPort.toNat = n)
    || decide (hops < x.beaconHops.toNat) || (decide (hops = x.beaconHops.toNat) && decide (n < x.beaconPort.toNat))
  if !mine then s
  else
    let e := beaconTime m (s.sl n).delay - s.rtNow
    let agree := decide (x.beaconPort.toNat = n) && decide ((e - x.beaconError).natAbs ≤ 100)
    let run := if agree then x.beaconRun + 1 else 1
    let t := s.setTime (fun y => { y with
      beaconPort := BitVec.ofNat 5 n, beaconHops := BitVec.ofNat 6 hops, beaconError := e, beaconRun := run
      beaconsLocked := y.beaconsLocked || decide (8 ≤ run), lastBeacon := some s.now, beaconSeq := some m.seq })
    let u := if x.beaconSeq = some m.seq then t
      else (t.beaconPorts.filter (fun p => p ≠ n)).foldl (fun (v : State) p =>
        v.sendUnseq p (.beacon m.root (m.hops + 1) m.seq m.originNs (m.corr + beaconCorr (s.sl n).delay m.residenceNs) m.rootErr)) t
    if u.time.running then u.relock.beaconFreq else u

/-- BEACON (R347, R348): an emitter that hears a lower root stops emitting and follows it; it ignores any other; a member
takes the beacon. -/
def execBeacon (port : Fin 18) (hdr : FlitHdr) (msg : BeaconMsg) (s : State) : Host.Outcome State Fault Refusal :=
  .next (s.rx port hdr .beacon (fun t =>
    if t.settings.tcRoot && t.links.nodeId.isSome then
      (if msg.root.toNat < t.links.ownNumber then
        (t.setTime (fun x => { x with lowerRoot := some t.now, emitting := false })).takeBeacon port msg
      else if t.isRoot then t else t.takeBeacon port msg)
    else t.takeBeacon port msg))

/-- No beacon for 10 ms: the beacons are lost (Table 10-2); the bound in holdover grows from its value at the loss, hops
included (10_rack_time_rations.md R276). -/
def execBeaconLoss (s : State) : Host.Outcome State Fault Refusal :=
  .next (match s.time.lastBeacon with
    | some t =>
      if t + ms 10 ≤ s.now then
        ((s.setTime (fun x => { x with beaconRun := 0, beaconsLocked := false, lastBeacon := none })).relock).setTime (fun x =>
          { x with beaconPort := 0x1F, beaconHops := 0 })
      else s
    | none => s)

/-- An emitter that has heard no lower root for 10 ms emits again (R348). -/
def execBeaconRootResume (s : State) : Host.Outcome State Fault Refusal :=
  .next (match s.time.lowerRoot with
    | some t => if t + ms 10 ≤ s.now then (s.setTime (fun x => { x with lowerRoot := none })).relock else s
    | none => s)

/-- The rack-time word of the sideband, every 1 µs (R356): the E count follows the W count within 5 ns in Twin mode. -/
def execSeamRackTimeWord (rackTime : BitVec 64) (s : State) : Host.Outcome State Fault Refusal :=
  .next (if s.twin && s.time.running && s.seam.mods.any (fun e => decide (e.2.state ≠ .out)) then
    { s with seam := { s.seam with eOffset := max (-5) (min 5 (toInt 64 (rackTime - s.time.now).toNat)), lastHeard := s.now } }
  else s)

end Sys2Proof.Machine
end

