-- ==== Sys2Proof/Machine/Boundary.lean ====
section
/-! DEFINITION. What takes effect at a ration-period boundary and at a power-frame boundary (00_scope.md R13, R507,
10_rack_time_rations.md R277, R280, R290 to R293). -/

namespace Sys2Proof.Machine

open Sys2Proof

/-- A retirement is listed. -/
def State.listRetired (s : State) (r : Retired) : State :=
  if s.mem.retired.contains r then s else { s with mem := { s.mem with retired := s.mem.retired ++ [r] } }

/-- A block is retired (07_vaults_and_protection.md R199): pages move off, the merge entries and lines of the range are dropped
without write-back, and a log entry is written. -/
def State.retireBlock (s : State) (pair block : Nat) : State :=
  let t := (s.listRetired { pair := pair, bank := none, block := block }).evacuateBlock s.mem.retired pair block
  (t.dropHeld pair (fun off => decide (blockOf off = block))).addLog pair 0xFF 10 (rowOf (block * 4096)) 0 0xFF 6 0xFF
    (modAddr pair (block * 4096))

/-- A bank is retired (R199): as a block, and the geometry record changes. -/
def State.retireBank (s : State) (pair bank : Nat) : State :=
  let t := (s.listRetired { pair := pair, bank := some bank, block := 0 }).evacuateBank s.mem.retired pair bank
  ((t.dropHeld pair (fun off => decide (bankOf off = bank))).addLog pair bank 11 0 0 0xFF 6 0xFF (modAddr pair (bank * 1024))).geoChange 3
    (pair + bank * 65536)

/-- A retired block is released with its valid bit clear (R200). -/
def State.unretireBlock (s : State) (pair block : Nat) : State :=
  State.zeroBlock { s with mem := { s.mem with retired := s.mem.retired.filter (fun r => r ≠ { pair := pair, bank := none, block := block }) } }
    pair block

/-- A window set at a boundary; with a named pair lost since its acceptance it is disabled at once and the command ends
VAULT_LOST (R175, R177). -/
def State.setWindow (s : State) (w : Nat) (win : Window) : State × Ending :=
  let put' (t : State) (x : Window) : State := { t with mem := { t.mem with windows := put t.mem.windows w x } }
  match (if win.enable then (windowPairs win.tower win.first win.count).find? (fun p => !s.pairPresent p) else none) with
  | some p =>
    ((put' s { win with enable := false }).logVault p 15 6 0xFF (windowBase + w * 2 ^ 37),
     { status := .vaultLost, detail := BitVec.ofNat 32 p, result := BitVec.ofNat 64 (modAddr p 0) })
  | none => (put' s win, { status := .done })

/-- A waiting effect takes place. -/
def State.applyEffect (s : State) (e : Effect) : State × Ending :=
  match e with
  | .vestibule kib => (s.setSettings (fun x => { x with vestibuleKib := kib }), { status := .done })
  | .window w en tower first count base size =>
    s.setWindow w { enable := en, tower := tower, first := first, count := count, base := base, size := size }
  | .retireBlock p k => (s.retireBlock p k, { status := .done })
  | .retireBank p b => (s.retireBank p b, { status := .done })
  | .unretireBlock p k => (s.unretireBlock p k, { status := .done })
  | .coolant pg flow => (s.setSettings (fun x => { x with clPg25 := pg, clFlowSet := some flow }), { status := .done })
  | .grant i rights node base size =>
    (s.setLinks (fun l => { l with grants := put l.grants i { rights := rights, node := node, base := base, size := size } }),
     { status := .done })

/-- The effects accepted strictly before the boundary, in order, each followed by its record (00_scope.md R507, 09_work_orders.md
R240). -/
def State.applyDeferred (s : State) : State :=
  let due := s.warden.deferred.filter (fun d => s.due d.accepted)
  due.foldl (fun (t : State) d =>
    let (u, e) := t.applyEffect d.effect
    u.endCmd d.tag e) (s.setWarden (fun w => { w with deferred := w.deferred.filter (fun d => !s.due d.accepted) }))

/-- The pending ring sets latched strictly before the boundary become the committed sets (R13, 08_warden_mailboxes.md R217). -/
def State.commitRingSets (s : State) : State :=
  ([0, 1] : List Nat).foldl (fun (t : State) p =>
    match (t.port p).pendingSet with
    | some (x, at') => if t.due at' then t.setPort p (fun h => h.commitRings x) else t
    | none => t) s

/-- The readings or the estimates of a tower change at this very instant. -/
def State.heatMovesNow (s : State) (tower : Nat) : Bool :=
  decide (s.thermal.lastSample = s.now) || decide (look? s.thermal.estimatedAt tower = some s.now)

/-- The refresh of a pair for temperature (11_heat_path.md R306): doubled once a DRAM point stands at 85 °C, and again single
once all lie below 82 °C. What moves at the instant of the boundary counts at the next one (00_scope.md R507). -/
def State.heatDoubles (s : State) (pair : Nat) : Bool :=
  if s.heatMovesNow (pair / 64) then (s.vault pair).refreshX2
  else
  let es := (List.range 8).filterMap (fun l => s.pointTemp (pointOf (pair / 64) (l + 1) (s.siteOf pair)))
  if es.any (fun e => decide (85 ≤ e.1)) then true
  else if es.all (fun e => decide (e.1 < 82)) then false
  else (s.vault pair).refreshX2

/-- A vault at the boundary: its sortie has ended, the shares and energy accounts start again, and the refresh multiple and the
canary halving take effect (R280 to R283, 06_bank_processing.md R169, 07_vaults_and_protection.md R197). -/
def State.vaultBoundary (s : State) (pair : Nat) : State :=
  let x2 := s.heatDoubles pair
  let due := (s.vault pair).canaryFrom.any s.due
  (s.setVault pair (fun v => { v with
    sortie := none, sortieSpent := 0, sorties := 0, bsSpent := 0, energy := [], swapSpent := 0, refreshX2 := x2
    freedAt := if v.sortie.isSome then some s.now else v.freedAt
    halved := v.halved || due, canaryFrom := if due then none else v.canaryFrom })).serveHeld pair

/-- The pairs whose vault holds something, and those whose points are known to be hot. -/
def State.busyPairs (s : State) : List Nat :=
  s.mem.vaults.map (·.1) ++ (if s.thermal.estimates.isEmpty && s.thermal.sensors.isEmpty then [] else
    (List.range 1024).filter (fun p => !has s.mem.vaults p && s.heatDoubles p))

/-- Inlet derating of an order code (11_heat_path.md Table 11-11): the inlet up to which the clock is full, in °C; the slope,
in tenths of a MHz per K; the clock at 48 °C, in tenths of a MHz. -/
def derating (f : Fuses) : Nat × Nat × Nat :=
  if orderCode f = 0x0E10 then (40, 375, 9000) else if orderCode f = 0x0960 then (45, 350, 9450) else (48, 0, 10 * f.clockMhz)

/-- The mean of readings in 1/16 °C, in °C. -/
def meanDeg (l : List Int) : Rat := deg (l.foldl (fun (a : Int) x => a + x) 0) / (l.length : Rat)

/-- The clock that the inlet, averaged over 10 s, allows, in tenths of a MHz (11_heat_path.md R318). -/
def State.clockLine (s : State) : Rat :=
  let (lim, slope, low) := derating s.fuses
  let full : Rat := ((10 * s.fuses.clockMhz : Nat) : Rat)
  if s.thermal.inlets.isEmpty then full
  else
    let m := meanDeg (s.thermal.inlets.map (·.2))
    if m ≤ (lim : Rat) then full else max (low : Rat) (full - (slope : Rat) * (m - (lim : Rat)))

/-- The core clock in force, in tenths of a MHz. -/
def State.clock10 (s : State) : Nat := s.thermal.clock.getD (10 * s.fuses.clockMhz)

/-- The core clock moves by at most one step of 12.5 MHz at a boundary, never above what the inlet allows
(11_heat_path.md R318; notes/assumptions/33.md). -/
def State.stepClock (s : State) : State :=
  let line := s.clockLine
  let full := 10 * s.fuses.clockMhz
  let c := s.clock10
  let n := if line < (c : Rat) then max (c - 125) (derating s.fuses).2.2
    else if ((c + 125 : Nat) : Rat) ≤ line ∨ line = (full : Rat) then min (c + 125) full else c
  { s with thermal := { s.thermal with clock := if n = full then none else some n } }

/-- A ration-period boundary begins now and has not been dealt with. -/
def State.boundaryNow (s : State) : Bool :=
  s.time.running && s.atBoundary && decide (s.time.lastBoundary ≠ some s.time.now)

/-- Everything that takes effect at a boundary, before a step of the count. -/
def State.boundary (s : State) : State :=
  let t := s.setTime (fun x => { x with lastBoundary := some x.now, nextBoundary := none, boundaries := x.boundaries + 1 })
  let u := ((t.commitRations).commitRingSets).applyDeferred
  let v := u.busyPairs.foldl (fun (x : State) p => x.vaultBoundary p) u.linkPeriod
  ((v.checkFallback).placeSlot).stepClock

/-- RATION_PERIOD_BOUNDARY (R280). -/
def execRationPeriodBoundary (s : State) : Host.Outcome State Fault Refusal :=
  .next (if s.boundaryNow then settle s (s.boundary.applyStep) else s)

/-- POWER_FRAME_BOUNDARY (R290 to R293): at a boundary a new schedule or its removal takes effect, the fallback ends where it
may, and the slot's ceiling comes into force. `inputW` is the mean power of the last 16 periods that the load asks for; the
governor holds it to the ceiling and the ramp. -/
def execPowerFrameBoundary (inputW : BitVec 16) (s : State) : Host.Outcome State Fault Refusal :=
  .next (if s.time.running && s.atBoundary then
    let t := (((s.commitSched).checkFallback).placeSlot).govern inputW.toNat
    { t with power := { t.power with above25Since := if 4 * t.power.inputW.toNat ≤ s.fuses.powerW then none else
                                       match s.power.above25Since with
                                       | some x => some x
                                       | none => some s.now } }
  else s)

end Sys2Proof.Machine
end

