-- ==== Sys2Proof/Machine/Events.lean ====
section
/-! DEFINITION. The event record (16_faults_blast_radius.md R444 to R447), Warden interrupts (08_warden_mailboxes.md R235 to R238) and the
Lantern's deferred vector 0 (18_register_maps.md R498). -/

namespace Sys2Proof.Machine

open Sys2Proof

/-! ## Record bytes -/

/-- A number or the mark of an implausible reading. -/
def orMark (o : Option Int) : Nat := (o.map (ofInt 16)).getD 0x8000

/-- The 32 bytes of a payload (Table 16-4; Table 07-7; 11_heat_path.md Table 11-9). -/
def Payload.bytes (p : Payload) : List Byte :=
  match p with
  | .args a b c d => leBytes 8 a.toNat ++ leBytes 8 b.toNat ++ leBytes 8 c.toNat ++ leBytes 8 d.toNat
  | .memLog e => e.bytes
  | .shutdown d inlet outlet flow flowSet powerW clockMhz time =>
    leBytes 1 d.cause ++ leBytes 1 (ofBool d.estimated + 2 * ofBool d.demoted + 4 * ofBool d.cleared) ++ leBytes 1 d.tower ++ leBytes 1 d.layer
      ++ leBytes 1 d.site ++ leBytes 1 0 ++ leBytes 2 (ofInt 16 d.temp) ++ leBytes 2 (orMark inlet) ++ leBytes 2 (orMark outlet)
      ++ leBytes 2 (flow.getD 0xFFFF) ++ leBytes 2 flowSet ++ leBytes 2 powerW ++ leBytes 2 clockMhz ++ leBytes 4 d.struck
      ++ leBytes 8 time.toNat

/-- Bytes 0x00 to 0x1B of a record. -/
def EventRec.head (r : EventRec) : List Byte :=
  leBytes 4 r.seq.toNat ++ leBytes 2 r.ev.kind.toNat ++ [r.ev.source, r.ev.severity] ++ leBytes 8 r.ev.time.toNat
    ++ leBytes 4 r.ev.pitch.toNat ++ [r.ev.rtState, r.flags] ++ leBytes 2 r.repeats.toNat ++ leBytes 4 0

/-- The 64 bytes of a record, with EV_CRC (Table 16-4). -/
def EventRec.bytes (r : EventRec) : List Byte :=
  r.head ++ leBytes 4 (crc32c (r.head ++ r.ev.payload.bytes)) ++ r.ev.payload.bytes

/-! ## Writing to flash -/

/-- Kinds of the protected area (Table 16-6). -/
def protectedKind (k : Nat) : Bool :=
  decide (k = 0x0201) || decide (k = 0x0306) || decide (k = 0x0401) || decide (k = 0x0405) || decide (k = 0x0503)
    || decide (k = 0x0505) || decide (k = 0x0602)

/-- Records the two areas hold. -/
def mainRoom : Nat := 258048

/-- Records of the protected area. -/
def protRoom : Nat := 4096

/-- A record into the main area, over its oldest record when it is full (R444). -/
def Events.toMain (e : Events) (r : EventRec) : Events :=
  { e with main := (if e.main.length < mainRoom then e.main else e.main.drop 1) ++ [r] }

/-- A record into its area (R444): a protected one over the oldest record without a standing latch; into the main area with
EV_FLAGS bit 1 when only standing latches are left. -/
def Events.place (e : Events) (r : EventRec) : Events :=
  if !protectedKind r.ev.kind.toNat then e.toMain r
  else if e.prot.length < protRoom then { e with prot := e.prot ++ [r] }
  else if e.prot.all (·.latched) then e.toMain { r with flags := r.flags ||| 2 }
  else { e with prot := dropFirst (fun x => !x.latched) e.prot ++ [r] }

/-- Write an event with the next EV_SEQ. A shutdown record carries the latch (11_heat_path.md R312). -/
def State.writeEvent (s : State) (ev : Event) (repeats : Nat) (late : Bool) : State :=
  let isShut := decide (ev.kind = 0x0201) && s.latchStands
  let r : EventRec := { seq := s.events.nextSeq, ev := ev, flags := BitVec.ofNat 8 (ofBool late),
                        repeats := BitVec.ofNat 16 (min repeats 65535), latched := isShut }
  let e := s.events.place r
  { s with
    events := { e with nextSeq := e.nextSeq + 1, sincePitch := e.sincePitch ++ [r.seq] }
    thermal := { s.thermal with latch := s.thermal.latch.map (fun d => if isShut then { d with written := true, evSeq := r.seq } else d) } }

/-- The window of a kind and source. -/
def Events.window (e : Events) (kind : BitVec 16) (unit : Nat) : Option RepeatWin :=
  e.windows.find? (fun w => decide (w.kind = kind) && decide (w.unit = unit))

/-- The windows without that of a kind and source. -/
def Events.dropWindow (e : Events) (kind : BitVec 16) (unit : Nat) : Events :=
  { e with windows := e.windows.filter (fun w => !(decide (w.kind = kind) && decide (w.unit = unit))) }

/-- A window closes: with a nonzero count one record with the payload of the last suppressed event is written (R446). -/
def State.closeWindow (s : State) (kind : BitVec 16) (unit : Nat) : State :=
  match s.events.window kind unit with
  | none => s
  | some w =>
    let t := { s with events := s.events.dropWindow kind unit }
    match w.last with
    | some ev => if 0 < w.suppressed then t.writeEvent ev w.suppressed false else t
    | none => t

/-- An event goes through its repeat window (R446). The window runs 1 s from EV_TIME. -/
def State.recordEvent (s : State) (ev : Event) (late : Bool) : State :=
  let s := match s.events.window ev.kind ev.unit with
    | some w => if w.closes ≤ s.now then s.closeWindow ev.kind ev.unit else s
    | none => s
  match s.events.window ev.kind ev.unit with
  | none =>
    let w : RepeatWin := { kind := ev.kind, unit := ev.unit, closes := s.now + 1000000000 - (s.rtNow - ev.time.toNat),
                           written := 1, suppressed := 0, last := none }
    State.writeEvent { s with events := { s.events with windows := s.events.windows ++ [w] } } ev 0 late
  | some w =>
    let w' : RepeatWin := if w.written < 16 then { w with written := w.written + 1 }
      else { w with suppressed := w.suppressed + 1, last := some ev }
    let e := s.events.dropWindow ev.kind ev.unit
    let t := { s with events := { e with windows := e.windows ++ [w'] } }
    if w.written < 16 then t.writeEvent ev 0 late else t

/-- EVENT_RECORD_WRITE: the oldest event not yet in flash goes through its window; records lost altogether are counted first,
in an EVENTS_LOST record (R445). -/
def execEventRecordWrite (s : State) : Host.Outcome State Fault Refusal :=
  .next (if s.lantern.stage = 0 then s
    else if 0 < s.events.lost then
      let ev := s.mkEvent 0x0603 s.lead 2 (.args (BitVec.ofNat 64 s.events.lost) 0 0 0)
      State.recordEvent { s with events := { s.events with lost := 0 } } ev false
    else match s.events.queue with
      | [] => s
      | ev :: r =>
        State.recordEvent { s with events := { s.events with queue := r, late := s.events.late - 1 } } ev (decide (0 < s.events.late)))

/-- EVENT_WINDOW_CLOSE: a window's second is over (R446). -/
def execEventWindowClose (kind : BitVec 16) (source : Nat) (s : State) : Host.Outcome State Fault Refusal :=
  .next (match s.events.window kind source with
    | some w => if s.lantern.stage ≠ 0 ∧ w.closes ≤ s.now then s.closeWindow kind source else s
    | none => s)

/-! ## Reading -/

/-- Two lists of records, each in EV_SEQ order, in one. -/
def mergeRecs : List EventRec → List EventRec → List EventRec
  | [], b => b
  | x :: a, b => b.filter (fun y => decide (y.seq.toNat < x.seq.toNat)) ++ [x]
      ++ mergeRecs a (b.filter (fun y => !decide (y.seq.toNat < x.seq.toNat)))

/-- The records of both areas in EV_SEQ order from a number on. -/
def Events.from' (e : Events) (q : Nat) : List EventRec :=
  mergeRecs (e.prot.filter (fun r => decide (q ≤ r.seq.toNat))) (e.main.filter (fun r => decide (q ≤ r.seq.toNat)))

/-- EVENT_READ copies records in EV_SEQ order, from both areas; its result is the number copied (R453). -/
def execEventRead (ctrl : Fin 4) (slot : Fin 1024) (s : State) : Host.Outcome State Fault Refusal :=
  .next (s.serve 0x0600 ctrl slot (fun a t => a.checked t
    [(a.noPort, .rejectFormat, noField), (decide (262144 < field a.b 28 4), .rejectFormat, 28),
     (decide (field a.b 32 8 % 64 ≠ 0), .rejectFormat, 32)]
    (fun t =>
      let part := (t.events.from' (field a.b 24 4)).take (field a.b 28 4)
      if field a.b 28 4 = 0 then a.finish t { status := .doneEmpty }
      else a.copyOut t (field a.b 32 8) (part.flatMap EventRec.bytes) part.length)))

/-! ## The Lantern status message -/

/-- LS_VECTOR0_DEFERRED: 10 µs after the previous vector-0 message a deferred one is sent (18_register_maps.md R498). -/
def execLsVector0Deferred (port : Fin 2) (s : State) : Host.Outcome State Fault Refusal :=
  let h := s.port port
  .next (match h.v0Last with
    | some t =>
      if s.hostRole port ∧ h.v0Deferred ∧ t + us 10 ≤ s.now then
        (s.setPort port (fun h => { h with v0Deferred := false, v0Last := some s.now })).msix port 0
      else s
    | none => s)

/-! ## Warden interrupts -/

/-- Core n is enabled. -/
def Ic.enabled (i : Ic) (n : Nat) : Bool := i.coreEn.getLsbD n

/-- Core n is awake. -/
def Ic.awake (i : Ic) (n : Nat) : Bool := i.coreAwake.getLsbD n

/-- Core n is enabled, awake and accepting interrupts (R236). -/
def Ic.eligible (i : Ic) (n : Nat) : Bool := i.enabled n && i.awake n && i.accepting.getLsbD n

/-- The cores from the round-robin pointer on, with wrap. -/
def Ic.order (i : Ic) : List Nat := (List.range 8).map (fun k => (i.rrNext.val + k) % 8)

/-- Sources always in the wake set (R238). -/
def forcedWake (src : Nat) : Bool := decide (src < 4) || (decide (32 ≤ src) && decide (src < 36))

/-- A source is in the wake set. -/
def Ic.wakes (i : Ic) (src : Nat) : Bool := forcedWake src || i.wakeMask.contains src

/-- Core n takes a pending source: the bit clears (notes/assumptions/19.md). -/
def State.takeSource (s : State) (cluster core src : Nat) : State :=
  (s.setIc cluster (fun i => { i with pending := removeNat i.pending src, handling := put i.handling core src })).emit
    (.take cluster core src)

/-- The Warden cores of a cluster are held in reset: by the watchdog, in a compute reset, by MOD_RESET_N (14_pitch.md Table 14-9,
16_faults_blast_radius.md R448). -/
def State.coresHeld (s : State) (cluster : Nat) : Bool := (s.wdog cluster).inReset || s.computeReset || s.board.resetLow

/-- The core that takes a fast source: the fast core, or while it is held in reset the lowest-numbered enabled core that
runs (R235). A sleeping fast core takes it once woken. -/
def Ic.fastTarget (i : Ic) : Option Nat :=
  if i.enabled i.fastCore.val then (if i.awake i.fastCore.val then some i.fastCore.val else none)
  else (List.range 8).find? (fun n => i.enabled n && i.awake n)

/-- FAST_INTERRUPT_DELIVERY (R235): the lowest pending source first (R236). -/
def execFastInterruptDelivery (cluster : Fin 2) (source : Fin 256) (s : State) : Host.Outcome State Fault Refusal :=
  let i := s.ic cluster
  .next (if source.val < 32 && i.pending.contains source.val && i.pending.all (fun x => decide (source.val ≤ x)) && !s.coresHeld cluster then
    match i.fastTarget with
    | some n => s.takeSource cluster n source
    | none => s
  else s)

/-- NORMAL_INTERRUPT_DELIVERY (R236): the lowest pending normal source goes to the first eligible core after the one that took
the previous one. -/
def execNormalInterruptDelivery (cluster : Fin 2) (source : Fin 256) (s : State) : Host.Outcome State Fault Refusal :=
  let i := s.ic cluster
  .next (if 32 ≤ source.val && i.pending.contains source.val && i.pending.all (fun x => decide (x < 32) || decide (source.val ≤ x))
      && !s.coresHeld cluster then
    match i.order.find? (fun n => i.eligible n) with
    | some n => (s.setIc cluster (fun i => { i with rrNext := Fin.ofNat 8 (n + 1) })).takeSource cluster n source
    | none => s
  else s)

/-- A core is woken; it accepts interrupts. -/
def Ic.wake (i : Ic) (n : Nat) : Ic :=
  { i with coreAwake := i.coreAwake ||| BitVec.ofNat 8 (2 ^ n), accepting := i.accepting ||| BitVec.ofNat 8 (2 ^ n) }

/-- LANTERN_WAKE (R235, R238): for a source of the wake set with no eligible core the Lantern wakes the core that the round-robin
rule would choose next, and for a fast source the fast core when it sleeps. -/
def execLanternWake (cluster : Fin 2) (source : Fin 256) (s : State) : Host.Outcome State Fault Refusal :=
  let i := s.ic cluster
  let who : Option Nat := if source.val < 32 then
      (if i.enabled i.fastCore.val && !i.awake i.fastCore.val then some i.fastCore.val else none)
    else if (List.range 8).any (fun n => i.eligible n) then none
    else i.order.find? (fun n => i.enabled n)
  .next (if i.wakes source && i.pending.contains source.val && !s.coresHeld cluster then
    match who with
    | some n => (s.setIc cluster (fun i => { i.wake n with wakeCount := i.wakeCount + 1 })).emit (.wake cluster n)
    | none => s
  else s)

/-- SLEEP_TIMER: the firmware's timer wakes an enabled core (R238). -/
def execSleepTimer (cluster : Fin 2) (core : Fin 8) (s : State) : Host.Outcome State Fault Refusal :=
  let i := s.ic cluster
  .next (if i.enabled core && !i.awake core && !s.coresHeld cluster then
    (s.setIc cluster (fun i => i.wake core)).emit (.wake cluster core)
  else s)

/-! ## The heartbeat watchdog (R448, R453) -/

/-- HEARTBEAT: a running cluster writes its heartbeat; a changed WD_PERIOD takes effect (R448, R453). -/
def execHeartbeat (cluster : Fin 2) (s : State) : Host.Outcome State Fault Refusal :=
  .next (if s.clusters.contains cluster.val && s.trust.loaded && !s.coresHeld cluster then
    s.setWdog cluster (fun w => { w with lastBeat := s.now, periodMs := s.settings.wdPeriodMs, warned := false })
  else s)

/-- The watchdog of a cluster runs: its firmware is loaded and it is not held in a reset. -/
def State.watched (s : State) (cluster : Nat) : Bool :=
  s.clusters.contains cluster && s.trust.loaded && !s.computeReset && !(s.wdog cluster).inReset

/-- WDOG_WARN asserts after half the period without a heartbeat (R448). -/
def execWdogWarn (cluster : Fin 2) (s : State) : Host.Outcome State Fault Refusal :=
  let w := s.wdog cluster
  .next (if s.watched cluster && !w.warned && decide (w.lastBeat + ms w.periodMs / 2 ≤ s.now) then
    (s.setWdog cluster (fun w => { w with warned := true })).raiseIn cluster 1
  else s)

/-- WDOG_CONFIG persists WD_PERIOD; it takes effect at the next heartbeat (R453). -/
def execWdogConfig (ctrl : Fin 4) (slot : Fin 1024) (s : State) : Host.Outcome State Fault Refusal :=
  .next (s.serve 0x0601 ctrl slot (fun a t => a.checked t
    [(decide (field a.b 24 2 < 20) || decide (1000 < field a.b 24 2), .rejectFormat, 24)]
    (fun t => a.done (t.setSettings (fun x => { x with wdPeriodMs := field a.b 24 2 })))))

end Sys2Proof.Machine
end

