-- ==== Sys2Proof/Machine/Ports.lean ====
section
/-! DEFINITION. Host ports: resets, training, TDI errors and BAR2 (13_host_far_ports.md R374 to R382). -/

namespace Sys2Proof.Machine

open Sys2Proof

/-! ## Errors of the TDI (R379) -/

/-- Sealed slots of a controller that are not Strike slots, taken without a record. -/
def State.dropSlots (s : State) (c : Nat) : State :=
  (s.warden.sealed.filter (fun e => decide (e.ctrl.val = c) && !isStrike (mbCmd (s.slotBytes e.ctrl e.slot)))).foldl (fun (t : State) e =>
    let u := t.takeSlot e
    if e.presented then u
    else (u.setIntake e.ctrl (fun i => { i with received := i.received ++ [e.seq] })).advanceSeq e.ctrl seqFuel) s

/-- Sealed ranges that need the TDI of a controller's port in RUN are released when it leaves RUN (15_trust_and_firmware.md
R421). -/
def State.releaseTdiRanges (s : State) (c : Nat) : State :=
  (s.trust.ranges.filter (fun r => r.needsTdi && decide (r.ctrl.val = c))).foldl (fun (t : State) r => t.releaseRange r) s

/-- A TDI enters ERROR (R379): the commands sealed by the port's controller end SECURITY_REFUSED with reason TDI_ERROR, their
records and those that wait for the port are discarded, held writes are not made. -/
def State.tdiFails (s : State) (p : Fin 2) : State :=
  let c := p.val
  let tags := (s.warden.tags.filter (fun x => decide (x.ctrl.val = c) && !isStrike x.code.toNat)).map (·.tag)
  let t := (s.setPort p (fun h => { h with tdi := .error, held := [] })).dropSlots c
  let u := t.markStruck tags .securityRefused (BitVec.ofNat 32 Reason.tdiError.code)
  let v := u.setWarden (fun w => { w with
    tags := w.tags.map (fun x => if x.ctrl.val = c then { x with discard := true } else x)
    records := w.records.filter (fun r => r.ctrl.val ≠ c) })
  (if tags.isEmpty then v else v.addJob { tags := tags, slotCount := 0, own := none }).releaseTdiRanges c

/-- The TDI of a port is locked or runs. -/
def HostPort.tdiHeld (h : HostPort) : Bool := decide (h.tdi = .configLocked) || decide (h.tdi = .run)

/-- TDI_ERROR: a configuration change that TDISP names, or a failure of the bound stream (R379). -/
def execTdiError (port : Fin 2) (s : State) : Host.Outcome State Fault Refusal :=
  .next (if s.hostRole port && (s.port port).tdiHeld then s.tdiFails port else s)

/-! ## Port resets (R381) -/

/-- An operation in flight moves data over a host port: a copy or an export between the device and that host. -/
def Cmd.overPort (c : Cmd) (x : Oper) (p : Nat) : Bool :=
  decide (c.ctrl.val = p) && (match opKind (opCode x.desc) with
    | some .dmCopy => decide ((dmSrc x.desc).space = 3) || decide ((dmDst x.desc).space = 3)
    | some .kvExport => decide (field x.desc 68 1 = 3)
    | _ => false)

/-- Operations in flight over a host port whose link went down end LINK_DOWN with detail 0x1F. -/
def State.hostLinkLost (s : State) (p : Nat) : State :=
  s.setWarden (fun w => { w with tags := w.tags.map (fun c =>
    { c with order := c.order.map (fun o => { o with ops := o.ops.map (fun x =>
        match x.phase with
        | .running _ => if c.overPort x p then { x with phase := .running { status := .linkDown, detail := 0x1F } } else x
        | _ => x) }) }) })

/-- The slots that stay sealed keep their bytes; every other slot of the port reads 0. -/
def State.keepSealed (s : State) (p : Nat) : State :=
  let kept := (s.warden.sealed.filter (fun e => decide (e.ctrl.val = p))).map (·.slot)
  s.setIntake p (fun i => { slots := i.slots.filter (fun e => kept.contains (e.1 / 256)) })

/-- The port's own fields at their reset values; a ring that was enabled counts as once enabled (R223). -/
def HostPort.cleared (h : HostPort) (up : Bool) : HostPort :=
  { linkUp := up, perst := h.perst, tdi := if h.tdi = .error then .error else .configUnlocked, v0Last := h.v0Last,
    rings := h.rings.map (fun e => (e.1, { everEnabled := e.2.everEnabled })) }

/-- A reset of one host port (R381): a locked or running TDI enters ERROR; configuration, MSI-X table, streams, rings, intake
and a standing rack-time latch return to reset; sealed slots are presented, to be taken and run. -/
def State.resetPort (s : State) (p : Fin 2) (up : Bool) : State :=
  let t := if (s.port p).tdiHeld then s.tdiFails p else s
  let u := (t.warden.sealed.filter (fun e => !e.presented && decide (e.ctrl.val = p.val))).foldl (fun (x : State) e => x.presentSlot e) t
  let v := ((u.keepSealed p).setPort p (fun h => h.cleared up))
  if up then v else v.hostLinkLost p

/-- HOST_PORT_RESET (R381): PERST#, a hot reset and a link-down reset take the link down; a function-level reset does not. -/
def execHostPortReset (port : Fin 2) (kind : PortResetKind) (s : State) : Host.Outcome State Fault Refusal :=
  .next (if s.hostRole port then
    (s.resetPort port (decide (kind = .functionLevel) && (s.port port).linkUp)).setPort port (fun h =>
      { h with perst := h.perst || decide (kind = .perst) })
  else s)

/-- The rails of the half a port stands on. -/
def State.railsOf (s : State) (half : Nat) : Rails := if half = 0 then s.board.railsW else s.board.railsE

/-- HOST_LINK_TRAIN (R382): PERST# is released and the port trains its link, from stage 2 on. -/
def execHostLinkTrain (port : Fin 2) (s : State) : Host.Outcome State Fault Refusal :=
  .next (if s.hostRole port && s.lanternOn && !(s.railsOf port).serHot && !(s.port port).linkUp then
    s.setPort port (fun h => { h with linkUp := true, perst := false })
  else s)

/-! ## BAR2 (R374) -/

/-- The TDI lets a BAR2 access through (Table 13-3). -/
def HostPort.bar2Open (h : HostPort) (tBit : Bool) : Bool :=
  match h.tdi with
  | .configUnlocked => true
  | .run => tBit
  | _ => false

/-- The range touches a sealed range that this access may not reach: only T-bit requests on the bound stream of the owner's
port reach one, where SO_FLAGS bit 0 is set (15_trust_and_firmware.md R420). -/
def State.bar2Sealed (s : State) (p : Nat) (tBit : Bool) (a n : Nat) : Bool :=
  let own := s.trust.ranges.filter (fun r => tBit && decide ((s.port p).tdi = .run) && r.needsTdi && decide (r.ctrl.val = p)
    && decide (r.epoch = s.own.epoch))
  State.sealedAgainst { s with trust := { s.trust with ranges := s.trust.ranges.filter (fun r => !own.contains r) } } 4 0 a n

/-- A retired block lies in the range. -/
def State.rangeRetired (s : State) (a n : Nat) : Bool :=
  (List.range (n / 4096 + 2)).any (fun k =>
    let x := max a ((a / 4096 + k) * 4096)
    decide (x < a + n) && (match s.reach x with
      | .vault p off => s.isRetired p off
      | _ => false))

/-- A BAR2 access ends with Completer Abort (R374). -/
def State.bar2Aborts (s : State) (p : Nat) (a n : Nat) (tBit : Bool) : Bool :=
  !(s.port p).bar2Open tBit || !s.ready || s.board.resetLow || !s.reachableRange a n || s.rangeInPool a n || s.rangeRetired a n || s.bar2Sealed p tBit a n

/-- A BAR2 access arrives: the port serves, and the address lies in the largest size of BAR2. -/
def State.bar2Here (s : State) (p a n : Nat) : Bool :=
  s.hostRole p && s.lanternOn && (s.port p).linkUp && decide (a + n ≤ farBase) && decide (0 < n)

/-- Lines that `n` bytes touch, at most. -/
def lineFuel (n : Nat) : Nat := n / 128 + 2

/-- A BAR2 access one of whose lines must wait at its vault: every line is offered, to be answered as it is served (R165, R374). -/
def State.offerBar2 (s : State) (l : List (Nat × Held)) : State := l.foldl (fun (t : State) x => t.access x.1 x.2) s

/-- BAR2_READ: a far access of class 1; uncorrectable data or poison returns a poisoned completion. -/
def execBar2Read (port : Fin 2) (offset : Nat) (len : Nat) (tBit : Bool) (s : State) : Host.Outcome State Fault Refusal :=
  .next (if !s.bar2Here port offset len then s
    else if s.bar2Aborts port offset len tBit then s.emit (.completerAbort port)
    else if s.someWaits (s.vaultAccesses 1 offset len false [] (some port)) then s.offerBar2 (s.vaultAccesses 1 offset len false [] (some port))
    else
      let (bs, io) := s.readDev {} offset len (lineFuel len)
      match io.stop with
      | none => io.s.emit (.bar2Data port bs)
      | some e => if e.status = .memoryUncorrectable then io.s.emit (.bar2Poisoned port) else io.s.emit (.completerAbort port))

/-- BAR2_WRITE: a non-owner's write is discarded and sets DENIED_WRITE (R230). -/
def execBar2Write (port : Fin 2) (offset : Nat) (data : List (BitVec 8)) (tBit : Bool) (s : State) : Host.Outcome State Fault Refusal :=
  .next (if !s.bar2Here port offset data.length then s
    else if !(s.port port).bar2Open tBit || !s.ready then s.emit (.completerAbort port)
    else if !s.owns port then s.deny port
    else if s.bar2Aborts port offset data.length tBit then s.emit (.completerAbort port)
    else if s.someWaits (s.vaultAccesses 1 offset data.length true data (some port)) then
      s.offerBar2 (s.vaultAccesses 1 offset data.length true data (some port))
    else
      let io := s.writeDev {} offset data (lineFuel data.length)
      match io.stop with
      | none => io.s
      | some _ => io.s.emit (.completerAbort port))

end Sys2Proof.Machine
end

