-- ==== Sys2Proof/Machine/FarTier.lean ====
section
/-! DEFINITION. The far tier's own events (13_host_far_ports.md R385 to R388). -/

namespace Sys2Proof.Machine

open Sys2Proof

/-- The range lies in the far tier's user capacity. -/
def State.farHas (s : State) (offset n : Nat) : Bool := decide (0 < n) && decide (offset + n ≤ s.geo.farTierMib * 2 ^ 20)

/-- FAR_TIER_READ: every unit is verified before a byte is delivered (R386, R388). -/
def execFarTierRead (offset : Nat) (len : Nat) (s : State) : Host.Outcome State Fault Refusal :=
  .next (if s.farHas offset len then
    let (bs, io) := s.farRead offset len
    match io.stop with
    | none => io.s.emit (.farTierData bs)
    | some e => io.s.emit (.accessEnds e.status (farBase + offset))
  else s)

/-- FAR_TIER_WRITE: unit by unit (R386, R387). -/
def execFarTierWrite (offset : Nat) (data : List (BitVec 8)) (s : State) : Host.Outcome State Fault Refusal :=
  .next (if s.farHas offset data.length then
    let io := s.farWrite offset data (4096, 0) (data.length / 256 + 2)
    match io.stop with
    | none => io.s
    | some e => io.s.emit (.accessEnds e.status (farBase + offset))
  else s)

/-- Transfers whose last byte is now in effect end (12_silman_and_seam.md R353). -/
def State.settleXfers (s : State) : State :=
  (s.links.xfers.filter (fun x => decide (x.len ≤ x.doneBytes))).foldl (fun (t : State) x => t.progress x 0 false) s

/-- FAR_TIER_INIT_COMPLETE: the device acknowledges the last write of a block's initialisation; its bit sets and the writes into
it have taken effect (R387). -/
def execFarTierInitComplete (block : Nat) (s : State) : Host.Outcome State Fault Refusal :=
  .next (if s.far.linkUp && s.far.initialising.any (fun e => decide (e.1 = block)) then
    (s.setFar (fun f => { f with initialising := f.initialising.filter (fun e => e.1 ≠ block), written := insertNat f.written block })).settleXfers
  else s)

/-- An operation in flight uses the far tier: one whose write is not acknowledged, or a copy or an export there. -/
def State.overFar (s : State) (c : Cmd) (i : Nat) (x : Oper) : Bool :=
  !s.farAcked c.tag i || (match opKind (opCode x.desc) with
    | some .dmCopy => decide ((dmSrc x.desc).space = 2) || decide ((dmDst x.desc).space = 2)
    | some .kvExport => decide (field x.desc 68 1 = 2)
    | _ => false)

/-- Operations in flight there end LINK_DOWN with detail 0x1F. -/
def State.farWorkLost (s : State) : State :=
  s.setWarden (fun w => { w with tags := w.tags.map (fun c =>
    { c with order := c.order.map (fun o => { o with ops := (o.ops.zipIdx).map (fun (x, i) =>
        match x.phase with
        | .running _ => if s.overFar c i x then { x with phase := .running { status := .linkDown, detail := 0x1F } } else x
        | _ => x) }) }) })

/-- The bytes of blocks whose initialisation was cut short: their bits stay clear, so they read as zeros. -/
def FarTier.dropInit (f : FarTier) : FarTier :=
  { f with bytes := f.initialising.foldl (fun m e => clearRange m (e.1 * 2 ^ 20) (2 ^ 20)) f.bytes, initialising := [] }

/-- FAR_TIER_LINK_LOSS: accesses in flight end LINK_DOWN, transfers that wait for an acknowledgement among them; PERST_N is driven low
before the retrain; a FAR_TIER event is written (R388, 17_module_electrical.md R467). -/
def execFarTierLinkLoss (s : State) : Host.Outcome State Fault Refusal :=
  .next (if s.far.linkUp then
    let t := (s.links.xfers.filter (fun x => s.xferInit x)).foldl (fun (t : State) x =>
      t.endXfer x { status := .linkDown, detail := 0x1F }) s.farWorkLost
    (t.setFar (fun f => { f.dropInit with linkUp := false, perstLow := true })).postArgs 0x0305 0 2 3 0 0
  else s)

/-- FAR_TIER_RETRAIN: the link to the device of this pitch is up again (R388). -/
def execFarTierRetrain (s : State) : Host.Outcome State Fault Refusal :=
  .next (if s.geo.heFarTier && decide (0 < s.geo.farTierMib) && !s.far.linkUp && !s.thermal.dropped then
    s.setFar (fun f => { f with linkUp := true, perstLow := false })
  else s)

end Sys2Proof.Machine
end

