-- ==== Sys2Proof/Machine/Heat.lean ====
section
/-! DEFINITION. Sensing, levels, throttling, shutdown and wear (11_heat_path.md R295 to R325). -/

namespace Sys2Proof.Machine

open Sys2Proof

/-- The thermal block changed. -/
def State.setThermal (s : State) (f : Thermal → Thermal) : State := { s with thermal := f s.thermal }

/-- The rules of the heat path apply: from the start of stage 5, until a shutdown drops the rails (14_pitch.md R392). -/
def State.heatOn (s : State) : Bool :=
  !s.thermal.dropped && (let g := s.lantern.stage.toNat
    (decide (5 ≤ g) && decide (g ≤ 9)) || decide (g = 0xB) || decide (g = 0xF))

/-- TH_FLOW_SET: the setpoint, or the order code's default (R323). -/
def State.flowSet (s : State) : Nat :=
  s.settings.clFlowSet.getD (if orderCode s.fuses = 0x0E10 then 4000 else if orderCode s.fuses = 0x0960 then 2700 else 1700)

/-- The core clock in force as TH_CLOCK_NOW_MHZ gives it; half a MHz is reported as one of its neighbours (notes/assumptions/33.md). -/
def State.clockMhz (s : State) : Nat :=
  s.clock10 / 10 + (if s.clock10 % 10 = 0 then 0 else Config.pick 0 s.clock10 % 2)

/-! ## Wear (R320, R321) -/

/-- Equivalents of a full cycle of range `d`, in 1/16 K. -/
def swingWear (d : Int) : Rat := if d ≤ 320 then 0 else (deg d / 40) * (deg d / 40)

/-- Close the cycles that the newest reversal completes: the open reversals, newest first, and what the cycles add. A cycle that
holds the oldest reversal counts as a half. -/
def rainflow : List Int → Nat → List Int × Rat
  | x :: a :: b :: rest, fuel + 1 =>
    if (x - a).natAbs < (a - b).natAbs then (x :: a :: b :: rest, 0)
    else if rest.isEmpty then ([x, a], swingWear (a - b).natAbs / 2)
    else
      let (l, w) := rainflow (x :: rest) fuel
      (l, w + swingWear (a - b).natAbs)
  | l, _ => (l, 0)

/-- The open reversals with a further sample: an extreme grows, a reversal of 2 K or more begins a new one (R320). -/
def pushSample (l : List Int) (x : Int) : List Int :=
  match l with
  | [] => [x]
  | [a] => if 32 ≤ (x - a).natAbs then [x, a] else [a]
  | a :: b :: rest =>
    if (b < a ∧ a ≤ x) ∨ (a < b ∧ x ≤ a) then x :: b :: rest
    else if 32 ≤ (x - a).natAbs then x :: a :: b :: rest
    else a :: b :: rest

/-- Residual half cycles (R320). -/
def residual : List Int → Rat
  | a :: b :: rest => swingWear (a - b).natAbs / 2 + residual (b :: rest)
  | _ => 0

/-- One sample of a tower's wear. -/
def Wear.sample (w : Wear) (x : Int) : Wear :=
  let (l, add) := rainflow (pushSample w.stack x) (w.stack.length + 1)
  { w with stack := l, count := w.count + add }

/-- A tower's count in equivalents: what closed cycles added, or the persisted one with its residual halves where that is higher. -/
def Wear.total (w : Wear) : Rat := max w.count w.persisted

/-- A tower's wear changed; at 80,000 equivalents WEAR_WARN sets and an event is written (R321). -/
def State.putWear (s : State) (tower : Nat) (w : Wear) : State :=
  let t := s.setThermal (fun x => { x with wear := put x.wear tower w })
  if (look s.thermal.wear tower {}).total < 80000 ∧ 80000 ≤ w.total then
    (t.setThermal (fun x => { x with wearWarn := true })).postArgs 0x0208 tower 1 tower w.total.floor.toNat 0
  else t

/-- Persist the counts of every tower, residual half cycles counted as halves (R320, R321). -/
def State.persistWear (s : State) : State :=
  (s.thermal.wear.foldl (fun (t : State) e => t.putWear e.1 { e.2 with persisted := e.2.count + residual e.2.stack }) s).setThermal
    (fun t => { t with wearAt := s.now })

/-- The hottest compute-tier point of a tower. -/
def State.hottestCompute (s : State) (tower : Nat) : Option Rat :=
  (List.range siteCount).foldl (fun (b : Option Rat) x => match s.pointTemp (pointOf tower 9 x) with
    | some (t, _) => (match b with
      | some y => some (max y t)
      | none => some t)
    | none => b) none

/-- SWING_SAMPLE: every 10 ms; at 80,000 equivalents WEAR_WARN sets and an event is written (R320, R321). -/
def execSwingSample (tower : Fin 16) (s : State) : Host.Outcome State Fault Refusal :=
  .next (match s.hottestCompute tower with
    | some t =>
      if s.hasTower tower && s.heatOn && decide (look s.thermal.lastSwing tower 0 + ms 10 ≤ s.now) then
        (s.setThermal (fun x => { x with lastSwing := put x.lastSwing tower s.now })).putWear tower
          ((look s.thermal.wear tower {}).sample (t * 16).floor)
      else s
    | none => s)

/-- WEAR_PERSIST: every 10 min (R321). -/
def execWearPersist (s : State) : Host.Outcome State Fault Refusal :=
  .next (if s.lanternOn && decide (s.thermal.wearAt + ms 600000 ≤ s.now) then s.persistWear else s)

/-! ## Shutdown (R310, R311) -/

/-- End every command not yet recorded with an abort status, Strike commands apart. -/
def State.abortAll (s : State) (st : Status) (d : BitVec 32) : State :=
  let tags := (s.warden.tags.filter (fun c => !isStrike c.code.toNat)).map (·.tag)
  let t := (s.strikeSlots s.strikableSlots st d).markStruck tags st d
  if tags.isEmpty then t else t.addJob { tags := tags, slotCount := 0, own := none }

/-- Demoted sensors lie in a tower. -/
def State.towerDemoted (s : State) (tower : Nat) : Bool :=
  s.settings.demoted.any (fun i => decide (i / 1440 = tower)) || s.thermal.sensors.any (fun e => decide (e.1 / 1440 = tower) && e.2.autoDemoted)

/-- The payload's view of a shutdown (Table 11-9). -/
def State.shutdownPayload (s : State) (d : Shutdown) : Payload :=
  .shutdown d s.thermal.inlet s.thermal.outlet s.thermal.flow s.flowSet s.power.inputW.toNat s.clockMhz s.time.now

/-- A shutdown begins (Table 11-8 step 1): it is latched, every command is struck with the abort status, the record is posted and
the wear counts persist. With a latch standing already, a coolant abort only outranks the thermal one in what is still struck
(09_work_orders.md R271). For a coolant cause the tower of the detail word and SD_TEMP are free values (notes/assumptions/10.md). -/
def State.shutdown (s : State) (cause : Nat) (est : Bool) (point : Nat) (temp : Int) : State :=
  let (x, s) := s.draw
  let (tw, la, si) := pointParts point
  let heat := decide (cause = 1)
  let st : Status := if heat then .thermalAbort else .coolantAbort
  let d : BitVec 32 := BitVec.ofNat 32 (if heat then tw + 16 * la else x % 16 + 240)
  if s.latchStands then
    if heat then s else s.markStruck ((s.warden.tags.filter (fun c => c.struck.isSome)).map (·.tag)) st d
  else
    let sd : Shutdown :=
      { cause := cause, estimated := est, demoted := heat && s.towerDemoted tw, tower := if heat then tw else 0xFF,
        layer := if heat then la else 0xFF, site := if heat then si else 0xFF, temp := if heat then temp else toInt 16 (x / 16),
        at' := s.now, cleared := false, struck := (s.warden.tags.filter (fun c => !isStrike c.code.toNat)).length,
        written := false, evSeq := 0 }
    let t := ((s.abortAll st d).setThermal (fun h => { h with
      latch := some sd, levelMax := if heat then .shutdown else h.levelMax, clLevel := if heat then h.clLevel else 3 })).persistWear
    let u := { t with lantern := { t.lantern with quickSet := t.lantern.quickSet.map (fun (q : QuickSet) => { q with spoiled := true }) } }
    (u.post 0x0201 u.lead 3 (s.shutdownPayload sd)).raiseFast (if heat then 2 else 3)

/-- A coolant shutdown or abort of the whole module: this device shuts down, and the other Lantern is told (R310, R33). A shutdown
that stands already is not told again. -/
def State.coolantStop (s : State) (cause : Nat) : State :=
  let t := s.shutdown cause false 0 0
  if s.latchStands then t else t.tell (.coolant cause)

/-- Module memory, caches, bank units and core stores lose their contents with their rails. -/
def State.loseMemory (s : State) : State :=
  { s with
    mem := { s.mem with bytes := [], fillMode := false, slices := s.mem.slices.map (fun e => (e.1, ({ failed := e.2.failed } : Slice))),
                        vaults := s.mem.vaults.map (fun e => (e.1, ({ groups := e.2.groups, narrow := e.2.narrow } : Vault))) }
    cores := { cores := s.cores.cores.map (fun e => (e.1, ({ arrays := e.2.arrays } : Core))) }
    kv := {} }

/-- The rails of every half of the device changed. -/
def State.setRails (s : State) (f : Rails → Rails) : State :=
  { s with board := { s.board with railsW := if s.geo.hasW then f s.board.railsW else s.board.railsW,
                                   railsE := if s.geo.hasE then f s.board.railsE else s.board.railsE } }

/-- SHUTDOWN_RAIL_DROP (Table 11-8 step 4): once the record is in flash, or 20 ms after the shutdown, the compute and memory rails
drop; memory contents are lost, and the estimator stops. -/
def execShutdownRailDrop (s : State) : Host.Outcome State Fault Refusal :=
  .next (match s.thermal.latch with
    | some d =>
      if s.latchStands && s.heatOn && (d.written || decide (d.at' + ms 20 ≤ s.now)) then
        (s.loseMemory.setRails (fun r => { r with vcomp := false, vdram := false, vbase := false })).setThermal (fun t =>
          { t with dropped := true, estimates := [], d := [], energy := [], pauses := [], blind := [] })
      else s
    | none => s)

/-- SHUTDOWN_PORT_DROP (step 5): 1 s after the shutdown the host ports, Silman ports, Seam and Warden clusters lose power; the
Lantern, module flash and I3C stay. -/
def execShutdownPortDrop (s : State) : Host.Outcome State Fault Refusal :=
  .next (match s.thermal.latch with
    | some d =>
      if s.latchStands && s.thermal.dropped && s.clusters.any (fun h => (s.railsOf h).vser) && decide (d.at' + ms 1000 ≤ s.now) then
        let t := s.hostPorts.foldl (fun (t : State) p => t.resetPort p false) s
        let u := t.setRails (fun r => { r with vser := false, vbaseSb := false })
        { u with
          links := { u.links with ports := u.links.ports.map (fun e => (e.1, ({ state := if e.2.state = .disabled then .disabled else .down, present := e.2.present } : SlPort))),
                                  nodeId := none }
          seam := { u.seam with mods := [] }
          far := { u.far with linkUp := false }
          trust := { u.trust with loaded := false } }
      else s
    | none => s)

/-! ## Levels (R304, R305) -/

/-- Warning, throttle and shutdown thresholds of a layer, in °C (Table 11-6). -/
def thresholds (layer : Nat) : Nat × Nat × Nat :=
  if layer = 0 then (100, 105, 115) else if layer = 9 then (95, 100, 110) else (92, 97, 108)

/-- The level of a point after its temperature is judged: entered at a threshold; throttle is left 3 K and warning 4 K below it;
shutdown latches (R304). -/
def nextLevel (layer : Nat) (old : Level) (t : Rat) : Level :=
  let (w, h, d) := thresholds layer
  let throttled := decide ((h : Rat) ≤ t) || (decide (old = .throttle) && decide ((h : Rat) - 3 ≤ t))
  let warned := decide ((w : Rat) ≤ t) || (decide (old ≠ .normal) && decide ((w : Rat) - 4 ≤ t))
  if old = .shutdown ∨ (d : Rat) ≤ t then .shutdown
  else if throttled then .throttle
  else if warned then .warning
  else .normal

/-- The points that may have a temperature: those with sensors, those beside them on the compute tier and the base region, and
those with an estimate. -/
def State.knownPoints (s : State) : List Nat :=
  let seen := s.thermal.sensors.foldl (fun (l : List Nat) e =>
    let p := e.1 / 2
    let (t, ly, x) := pointParts p
    let m := insertNat l p
    if ly = 0 ∨ ly = 9 then (adjacentSites x).foldl (fun (l : List Nat) y => insertNat l (pointOf t ly y)) m else m) []
  (s.thermal.estimates.foldl (fun (l : List Nat) e => insertNat l e.1) seen).filter (fun p => s.hasTower (pointParts p).1)

/-- The higher of two levels. -/
def Level.max (a b : Level) : Level := if a.code ≤ b.code then b else a

/-- A level of a point recorded; normal is not listed. -/
def putLevel (m : SMap Level) (p : Nat) (l : Level) : SMap Level := if l = .normal then del m p else put m p l

/-- Judge every point: the levels, TH_LEVEL_MAX with THERMAL on its change, and a shutdown where a point has reached its
threshold (R304, R305, R310). -/
def State.judge (s : State) : State :=
  let pts := s.knownPoints
  let lv := pts.foldl (fun (m : SMap Level) p => match s.pointTemp p with
    | some (t, _) => putLevel m p (nextLevel (pointParts p).2.1 (look m p .normal) t)
    | none => m) s.thermal.levels
  let top := lv.foldl (fun (m : Level) e => m.max e.2) (if s.thermal.levelMax = .shutdown then .shutdown else .normal)
  let t := s.setThermal (fun h => { h with levels := lv, levelMax := top })
  let u := if top = s.thermal.levelMax then t else (t.raiseFast 2).tell .protection
  match pts.find? (fun p => decide (look lv p .normal = .shutdown) && decide (s.levelOf p ≠ .shutdown)) with
  | some p => (match s.pointTemp p with
    | some (x, e) => u.shutdown 1 e p (x * 16).floor
    | none => u)
  | none => u

/-! ## Sampling (R295 to R300) -/

/-- A sensor as an event argument. -/
def sensorArg (i : Nat) : Nat := pointArg (i / 2) + 16777216 * (i % 2)

/-- Both readings of a point as an event argument: A in [15:0], B in [31:16]. -/
def State.readingsArg (s : State) (point : Nat) : Nat :=
  orMark (s.sensor (2 * point)).reading + 65536 * orMark (s.sensor (2 * point + 1)).reading

/-- A sensor is implausible (R297): its mean over 10 ms lies below the plausible inlet reading, or two readings 1 ms apart differ
by more than 5 K. -/
def Sensor.implausible (x : Sensor) (inlet : Option Int) : Bool :=
  (match inlet with
   | some i => decide (100 ≤ x.recent.length) && decide ((x.recent.take 100).foldl (fun (a : Int) r => a + r) 0 < 100 * i)
   | none => false)
  || (match x.recent[0]?, x.recent[10]? with
      | some a, some b => decide (80 < (a - b).natAbs)
      | _, _ => false)

/-- A reading of one sensor is taken. -/
def State.takeReading (s : State) (i : Nat) (v : Option Int) : State :=
  s.setThermal (fun t => { t with sensors := upd t.sensors i {} (fun x => match v with
    | some r => { x with reading := some r, recent := (r :: x.recent).take 101 }
    | none => { x with reading := none, recent := [] }) })

/-- An implausible sensor is demoted at once, with an event (R297). -/
def State.judgeSensor (s : State) (i : Nat) : State :=
  let x := s.sensor i
  if x.implausible s.thermal.inlet && !x.autoDemoted then
    (s.setThermal (fun t => { t with sensors := put t.sensors i { x with autoDemoted := true } })).postArgs 0x0203 i 1 (sensorArg i)
      (s.readingsArg (i / 2)) 0
  else s

/-- The sites whose sensors differ by more than 6 K (R298). -/
def State.trackDisagree (s : State) (point : Nat) : State :=
  let apart := match (s.sensor (2 * point)).reading, (s.sensor (2 * point + 1)).reading with
    | some a, some b => decide (96 < (a - b).natAbs)
    | _, _ => false
  s.setThermal (fun t =>
    let d := if apart then (if has t.disagree point then t.disagree else put t.disagree point (s.now, false)) else del t.disagree point
    { t with disagree := d, agreeSince := if !d.isEmpty then none else match t.agreeSince with
        | some x => some x
        | none => some s.now })

/-- One reading of a sample. -/
def State.takeSite (s : State) (r : SensorReading) : State :=
  let p := pointOf r.tower r.layer r.site
  if s.hasTower r.tower && hasSensors r.layer r.site then
    ((((s.takeReading (2 * p) r.a).takeReading (2 * p + 1) r.b).judgeSensor (2 * p)).judgeSensor (2 * p + 1)).trackDisagree p
  else s

/-- More than half the sensing sites of some layer of a tower have no plausible sensor (R300). -/
def State.isBlind (s : State) (tower : Nat) : Bool :=
  (List.range 10).any (fun l =>
    let sites := (List.range siteCount).filter (fun x => hasSensors l x)
    decide (sites.length < 2 * (sites.filter (fun x => (s.siteReading (pointOf tower l x)).isNone)).length))

/-- TH_BLIND of every sampled tower. -/
def State.judgeBlind (s : State) : State :=
  s.setThermal (fun t => { t with blind := (List.range 16).filter (fun k =>
    s.hasTower k && t.sensors.any (fun e => decide (e.1 / 1440 = k)) && s.isBlind k) })

/-- A base-region sensor of a half reads at or above a temperature in °C. -/
def State.baseAt (s : State) (half : Nat) (c : Int) : Bool :=
  s.thermal.sensors.any (fun e =>
    let (t, l, _) := pointParts (e.1 / 2)
    decide (t / 8 = half) && decide (l = 0) && (match s.plausible e.1 with
      | some r => decide (16 * c ≤ r)
      | none => false))

/-- VSER of a half follows its base region in IDLE and the first two stages: it drops at 85 °C, its host port goes silent, and it
returns below 75 °C (17_module_electrical.md R464). -/
def State.serHeat (s : State) (half : Fin 2) : State :=
  let hot (r : Rails) (b : Bool) : Rails := { r with serHot := b, vser := !b }
  let setHot (t : State) (b : Bool) : State :=
    { t with board := if half = 0 then { t.board with railsW := hot t.board.railsW b } else { t.board with railsE := hot t.board.railsE b } }
  if (s.railsOf half).serHot then (if s.baseAt half 75 then s else setHot s false)
  else if (s.idle || decide (s.lantern.stage.toNat ≤ 2)) && s.baseAt half 85 then
    setHot (if s.hostRole half then s.resetPort half false else s) true
  else s

/-- SENSOR_SAMPLE: every 100 µs (R295 to R300, R305). -/
def execSensorSample (readings : List SensorReading) (s : State) : Host.Outcome State Fault Refusal :=
  .next (if s.lanternOn && decide (s.thermal.lastSample + us 100 ≤ s.now) then
    let t := (readings.foldl State.takeSite s).setThermal (fun x => { x with lastSample := s.now })
    let u := ([0, 1] : List (Fin 2)).foldl (fun (x : State) h => if s.clusters.contains h.val then x.serHeat h else x) t
    settle s (if u.heatOn then u.judgeBlind.judge else u)
  else s)

/-- SENSOR_DISAGREE: a site has disagreed for more than 100 ms; the disagreement is counted once (R298). -/
def execSensorDisagree (tower : Fin 16) (layer : Fin 10) (site : Fin 72) (s : State) : Host.Outcome State Fault Refusal :=
  let p := pointOf tower layer site
  .next (match look? s.thermal.disagree p with
    | some (since, counted) =>
      if !counted && decide (since + ms 100 < s.now) then
        (s.setThermal (fun t => { t with sensorDisagree := true, disagreeCount := satSucc t.disagreeCount,
                                         disagree := put t.disagree p (since, true) })).postArgs 0x0204 (2 * p) 1 (sensorArg (2 * p))
          (s.readingsArg p) 0
      else s
    | none => s)

/-- SENSOR_DISAGREE_CLEAR: no site has disagreed for 10 s (R298). -/
def execSensorDisagreeClear (s : State) : Host.Outcome State Fault Refusal :=
  .next (match s.thermal.agreeSince with
    | some t => if t + ms 10000 ≤ s.now then s.setThermal (fun x => { x with sensorDisagree := false }) else s
    | none => s)

/-! ## The estimator (R301 to R303) -/

/-- Power of a cluster over the last 64 periods, in W. -/
def State.clusterPower (s : State) (point : Nat) : Rat := look s.thermal.energy point 0 / 262144 / 1000

/-- Coefficients of a tier, by its layer: rs, rn, rv (Table 11-5). -/
def tierCoef (layer : Nat) : Rat × Rat × Rat :=
  (if layer = 1 ∨ layer = 8 then 60 else if layer = 2 ∨ layer = 3 ∨ layer = 7 then 90 else 150, 25, 20)

/-- The mean power of the enabled clusters of a tier of a tower. -/
def State.meanPower (s : State) (tower layer : Nat) : Rat :=
  let l := (towerPairs tower).filter s.pairPresent
  if l.isEmpty then 0
  else (l.foldl (fun (a : Rat) p => a + s.clusterPower (pointOf tower layer (s.siteOf p))) 0) / (l.length : Rat)

/-- x[c]: a cluster's power above the mean; nothing is accounted outside the DRAM tiers. -/
def State.excess (s : State) (tower layer site : Nat) : Rat :=
  if layer = 0 ∨ 8 < layer then 0 else max (s.clusterPower (pointOf tower layer site) - s.meanPower tower layer) 0

/-- The listed positions on both sides of a value; the value itself where it is listed. -/
def bracket (l : List Nat) (v : Nat) : Option (Nat × Nat) :=
  match (l.filter (fun x => decide (x ≤ v))).getLast?, (l.filter (fun x => decide (v ≤ x))).head? with
  | some a, some b => some (a, b)
  | _, _ => none

/-- The weight of the upper position. -/
def upperWeight (a b v : Nat) : Rat := if a = b then 0 else ((v - a : Nat) : Rat) / ((b - a : Nat) : Rat)

/-- Columns of a layer that carry sensing sites. -/
def sensorCols (layer : Nat) : List Nat := if layer = 9 then List.range 9 else if layer = 0 then [0, 4, 8] else [1, 3, 5, 7]

/-- Rows of a layer that carry sensing sites. -/
def sensorRows (layer : Nat) : List Nat := if layer = 9 then List.range 8 else [1, 3, 5, 7]

/-- A weighted sum of readings; none when a reading that counts is missing. -/
def weigh : List (Rat × Option Int) → Option Rat
  | [] => some 0
  | (w, r) :: rest =>
    match weigh rest with
    | none => none
    | some a => if w = 0 then some a else r.map (fun x => a + w * deg x)

/-- Bilinear interpolation of the plausible sensing sites of a layer at a site; beyond the sensing sites, or beside a missing
one, the spec states no value: a free one (notes/assumptions/18.md). -/
def State.interpolate (s : State) (f : Nat → Nat) (tower layer site : Nat) : Rat :=
  let r := site / 9
  let c := site % 9
  let rd (y x : Nat) : Option Int := s.siteReading (pointOf tower layer (9 * y + x))
  match bracket (sensorRows layer) r, bracket (sensorCols layer) c with
  | some (r0, r1), some (c0, c1) =>
    let u := upperWeight r0 r1 r
    let v := upperWeight c0 c1 c
    (weigh [((1 - u) * (1 - v), rd r0 c0), ((1 - u) * v, rd r0 c1), (u * (1 - v), rd r1 c0), (u * v, rd r1 c1)]).getD
      (deg (toInt 16 (f (layer * siteCount + site))))
  | _, _ => deg (toInt 16 (f (layer * siteCount + site)))

/-- d[c] after an update (R302). -/
def State.nextD (s : State) (tower layer site : Nat) : Rat :=
  let (rs, rn, rv) := tierCoef layer
  let old := look s.thermal.d (pointOf tower layer site) 0
  let target := rs * s.excess tower layer site
    + rn * ((adjacentSites site).foldl (fun (a : Rat) y => a + s.excess tower layer y) 0)
    + rv * (s.excess tower (layer + 1) site + s.excess tower (layer - 1) site)
  old + (target - old) * 7 / 32

/-- The DRAM points of a tower, as layer and site. -/
def dramSites : List (Nat × Nat) := (List.range 8).flatMap (fun l => (List.range siteCount).map (fun x => (l + 1, x)))

/-- Update every DRAM point of a tower; the energy accounts start again (R301, R302). -/
def State.updateEstimates (s : State) (tower : Nat) : State :=
  let (f, t) := s.drawMany
  let ds := dramSites.map (fun (l, x) => (pointOf tower l x, s.nextD tower l x))
  let es := (dramSites.zip ds).map (fun ((l, x), (p, d)) =>
    (p, max (s.interpolate f tower l x) ((s.interpolate f tower (l + 1) x + s.interpolate f tower (l - 1) x) / 2) + d))
  t.setThermal (fun h => { h with
    d := ds.foldl (fun m (p, v) => if v = 0 then del m p else put m p v) h.d
    estimates := es.foldl (fun m (p, v) => put m p v) h.estimates
    energy := h.energy.filter (fun e => decide ((pointParts e.1).1 ≠ tower))
    lastEstimate := put h.lastEstimate tower s.time.boundaries
    estimatedAt := put h.estimatedAt tower s.now })

/-- ESTIMATOR_UPDATE: every 64 ration periods (R302); levels follow (R304). -/
def execEstimatorUpdate (tower : Fin 16) (s : State) : Host.Outcome State Fault Refusal :=
  .next (if s.hasTower tower && s.heatOn && decide (look s.thermal.lastEstimate tower 0 + 64 ≤ s.time.boundaries) then
    settle s (s.updateEstimates tower).judge
  else s)

/-! ## Throttling (R308, R309) -/

/-- The points of a unit: the pair's base and DRAM points, or the core's compute-tier point. -/
def State.unitPoints (s : State) (pair : Nat) (core : Bool) : List Nat :=
  (if core then [9] else List.range 9).map (fun l => pointOf (pair / 64) l (s.siteOf pair))

/-- Some point of a unit lies at or above its throttle threshold. -/
def State.unitHot (s : State) (pair : Nat) (core : Bool) : Bool :=
  (s.unitPoints pair core).any (fun p => match s.pointTemp p with
    | some (t, _) => decide (((thresholds (pointParts p).2.1).2.1 : Rat) ≤ t)
    | none => false)

/-- Every point of a unit lies below its throttle threshold less 3 K. -/
def State.unitCool (s : State) (pair : Nat) (core : Bool) : Bool :=
  (s.unitPoints pair core).all (fun p => match s.pointTemp p with
    | some (t, _) => decide (t < ((thresholds (pointParts p).2.1).2.1 : Rat) - 3)
    | none => true)

/-- The pause step of a unit. -/
def State.unitStep (s : State) (pair : Nat) (core : Bool) : Nat := look s.thermal.pauses (2 * pair + ofBool core) 0

/-- A neighbour of a unit stands at 6 steps or more with a point at its throttle threshold (R309). -/
def State.pressed (s : State) (pair : Nat) (core : Bool) : Bool :=
  (towerPairs (pair / 64)).any (fun q => s.pairPresent q && (adjacentSites (s.siteOf pair)).contains (s.siteOf q)
    && decide (6 ≤ s.unitStep q core) && s.unitHot q core)

/-- The next pause step of a unit (R308, R309). -/
def State.nextStep (s : State) (pair : Nat) (core : Bool) : Nat :=
  let k := s.unitStep pair core
  if s.unitHot pair core || s.pressed pair core then min (k + 1) 7
  else if s.unitCool pair core then k - 1
  else k

/-- THROTTLE_STEP: every 1 ms each unit's pause moves by one step. -/
def execThrottleStep (s : State) : Host.Outcome State Fault Refusal :=
  .next (if s.heatOn && decide (s.thermal.lastThrottle + ms 1 ≤ s.now) then
    s.setThermal (fun t => { t with
      lastThrottle := s.now
      pauses := ((List.range 2048).filter (fun i => s.pairPresent (i / 2))).filterMap (fun i =>
        let k := s.nextStep (i / 2) (decide (i % 2 = 1))
        if k = 0 then none else some (i, k)) })
  else s)

/-! ## Commands (R299, R322 to R324) -/

/-- COOLANT_CONFIG persists the fluid and the setpoint from the next ration-period boundary on. -/
def execCoolantConfig (ctrl : Fin 4) (slot : Fin 1024) (s : State) : Host.Outcome State Fault Refusal :=
  .next (s.serve 0x0200 ctrl slot (fun a t => a.checked t
    [(decide (1 < field a.b 24 1), .rejectFormat, 24),
     (decide (field a.b 26 2 < 1000) || decide (8000 < field a.b 26 2), .rejectFormat, 26)]
    (fun t => a.defer t (.coolant (decide (field a.b 24 1 = 1)) (field a.b 26 2)))))

/-- The checks of SENSOR_DEMOTE and SENSOR_RESTORE. -/
def sensorChecks (s : State) (b : List Byte) : List Check :=
  [(decide (15 < field b 24 1), .rejectFormat, 24), (decide (2 < field b 27 1), .rejectFormat, 27),
   (!s.hasTower (field b 24 1), .rejectLimit, 24), (decide (9 < field b 25 1), .rejectLimit, 25),
   (decide (72 ≤ field b 26 1) || !hasSensors (field b 25 1) (field b 26 1), .rejectLimit, 26)]

/-- The sensors named: SD_SENSOR 0 A, 1 B, 2 both. -/
def sensorsNamed (b : List Byte) : List Nat :=
  let p := pointOf (field b 24 1) (field b 25 1) (field b 26 1)
  match field b 27 1 with
  | 0 => [2 * p]
  | 1 => [2 * p + 1]
  | _ => [2 * p, 2 * p + 1]

/-- SENSOR_DEMOTE persists across pitch (R299). -/
def execSensorDemote (ctrl : Fin 4) (slot : Fin 1024) (s : State) : Host.Outcome State Fault Refusal :=
  .next (s.serve 0x0201 ctrl slot (fun a t => a.checked t (sensorChecks t a.b)
    (fun t => a.done (t.setSettings (fun x => { x with demoted := (sensorsNamed a.b).foldl insertNat x.demoted })))))

/-- SENSOR_RESTORE: rejected for a sensor that is implausible now (R299). -/
def execSensorRestore (ctrl : Fin 4) (slot : Fin 1024) (s : State) : Host.Outcome State Fault Refusal :=
  .next (s.serve 0x0202 ctrl slot (fun a t => a.checked t
    (sensorChecks t a.b ++ [((sensorsNamed a.b).any (fun i => (t.sensor i).implausible t.thermal.inlet), .rejectState, 27)])
    (fun t => a.done ((t.setSettings (fun x => { x with demoted := (sensorsNamed a.b).foldl removeNat x.demoted })).setThermal (fun h =>
      { h with sensors := h.sensors.map (fun e => if (sensorsNamed a.b).contains e.1 then (e.1, { e.2 with autoDemoted := false }) else e) })))))

/-- SWING_LIMIT_SET (R322): null array activity up to the floor writes nothing and delays no work. No rule persists the floor, so a
pitch loses it (14_pitch.md Table 14-8). -/
def execSwingLimitSet (ctrl : Fin 4) (slot : Fin 1024) (s : State) : Host.Outcome State Fault Refusal :=
  .next (s.serve 0x0204 ctrl slot (fun a t => a.checked t [(decide (100 < field a.b 24 1), .rejectFormat, 24)]
    (fun t => a.done (t.setThermal (fun x => { x with swingFloor := field a.b 24 1 })))))

/-- One entry of the sensor map (R324). -/
def State.mapEntry (s : State) (p : Nat) : List Byte :=
  let (t, l, x) := pointParts p
  let sn := hasSensors l x
  let here := s.hasTower t
  let rd (i : Nat) : Nat := if sn && here then orMark (s.sensor i).reading else 0x8000
  let e := if here then (match s.estimate p with
    | some v => ofInt 16 (v * 16).floor
    | none => 0x8000) else 0x8000
  leBytes 2 (rd (2 * p)) ++ leBytes 2 (rd (2 * p + 1)) ++ leBytes 2 e
    ++ leBytes 2 (ofBool (s.demoted (2 * p)) + 2 * ofBool (s.demoted (2 * p + 1)) + 4 * ofBool (!sn) + 8 * ofBool (!here))

/-- The first `n` bytes of the sensor map. -/
def State.sensorMap (s : State) (n : Nat) : List Byte := (((List.range ((n + 7) / 8)).flatMap s.mapEntry)).take n

/-- THERMAL_READ copies the first TR_LEN bytes of the sensor map to host memory (R324). -/
def execThermalRead (ctrl : Fin 4) (slot : Fin 1024) (s : State) : Host.Outcome State Fault Refusal :=
  .next (s.serve 0x0210 ctrl slot (fun a t => a.checked t
    [(a.noPort, .rejectFormat, noField), (decide (field a.b 24 8 % 64 ≠ 0), .rejectFormat, 24),
     (decide (92160 < field a.b 32 4), .rejectFormat, 32)]
    (fun t => if field a.b 32 4 = 0 then a.finish t { status := .doneEmpty }
      else a.copyOut t (field a.b 24 8) (t.sensorMap (field a.b 32 4)))))

/-! ## THERMAL_CLEAR (R312) -/

/-- The conditions of THERMAL_CLEAR: for a thermal latch the layer that caused it reads below 80 °C at every sensing site and
every estimate; for a coolant latch flow, inlet and outlet are plausible and within their limits. -/
def State.mayClear (s : State) : Bool :=
  match s.thermal.latch with
  | none => false
  | some d =>
    !d.cleared && (if d.cause = 1 then
      (List.range siteCount).all (fun x =>
        let p := pointOf d.tower d.layer x
        (match s.siteReading p with
         | some r => decide (r < 1280)
         | none => true)
        && (match s.estimate p with
          | some e => decide (e < 80)
          | none => true))
    else (match s.thermal.flow, s.thermal.inlet, s.thermal.outlet with
      | some f, some i, some o => decide (80 * s.flowSet ≤ 100 * f) && decide (i ≤ 800) && decide (o ≤ 1040)
      | _, _, _ => false))

/-- SD_FLAGS bit 2 sets in the shutdown's record, wherever it is; its latch stands no more. -/
def State.clearLatch (s : State) : State :=
  let pl (p : Payload) : Payload := match p with
    | .shutdown d a b c e f g h => .shutdown { d with cleared := true } a b c e f g h
    | p => p
  let rc (r : EventRec) : EventRec := if r.latched then { r with latched := false, ev := { r.ev with payload := pl r.ev.payload } } else r
  { s with
    thermal := { s.thermal with latch := s.thermal.latch.map (fun (d : Shutdown) => { d with cleared := true }) }
    events := { s.events with prot := s.events.prot.map rc, main := s.events.main.map rc,
                              queue := s.events.queue.map (fun e => { e with payload := pl e.payload }) } }

/-- THERMAL_CLEAR: the record is marked, a further one is written, its own record formed; a cold pitch follows (R312). -/
def execThermalClear (ctrl : Fin 4) (slot : Fin 1024) (s : State) : Host.Outcome State Fault Refusal :=
  .next (settle s (s.serve 0x0203 ctrl slot (fun a t => a.checked t [(!t.mayClear, .rejectState, noField)]
    (fun t =>
      let u := t.clearLatch.postArgs 0x0202 t.lead 0 ((t.thermal.latch.map (·.evSeq.toNat)).getD 0) 0 0
      a.done { u with lantern := { u.lantern with clearing := some (a.tag, u.now) } }))))

end Sys2Proof.Machine
end

