-- ==== Sys2Proof/Machine/Defects.lean ====
section
/-! DEFINITION. What the defect fuses and the overlay say of sites, arrays, connections and Seam modules, and the site map
(14_pitch.md R397 to R400, 03_cores_and_arrays.md R78). -/

namespace Sys2Proof.Machine

open Sys2Proof

/-- The union of the fused list and the overlay, in the order written, and what a full overlay no longer took in this pitch (R397). -/
def State.defects (s : State) : List OvEntry := s.fuses.defects ++ s.geo.overlay ++ s.geo.unkept

/-- The entry is of a kind and names a site. -/
def OvEntry.names (e : OvEntry) (kind tower site : Nat) : Bool :=
  decide (e.kind.toNat = kind) && decide (e.tower.toNat = tower) && decide (e.site.toNat = site)

/-- A list leaves a site out: SITE_BAD or PAIR_RETIRED. -/
def siteOut (l : List OvEntry) (tower site : Nat) : Bool := l.any (fun e => e.names 0x0A tower site || e.names 0x01 tower site)

/-- Column groups of an array of a site that are bypassed. -/
def bypassed (l : List OvEntry) (tower site array : Nat) : List Nat :=
  (l.filter (fun e => e.names 0x03 tower site && decide (e.sub.toNat = array))).foldl (fun (g : List Nat) e => insertNat g (e.detail.toNat % 16)) []

/-- The field of one array in PAIR_ARRAYS (R78): the groups bypassed, or 0xF above three. -/
def arrayField (l : List OvEntry) (tower site array : Nat) : Nat :=
  let n := (bypassed l tower site array).length
  if 3 < n then 0xF else n

/-- PAIR_ARRAYS of a site. -/
def siteArrays (l : List OvEntry) (tower site : Nat) : Nat :=
  (List.range 4).foldl (fun (m : Nat) a => m + arrayField l tower site a * 16 ^ a) 0

/-- Working arrays of a site. -/
def workingArrays (l : List OvEntry) (tower site : Nat) : Nat :=
  ((List.range 4).filter (fun a => decide (arrayField l tower site a ≠ 0xF))).length

/-- A site is good by fuses and overlay (R398). -/
def State.siteGood (s : State) (tower site : Nat) : Bool :=
  !siteOut s.defects tower site && decide (2 ≤ workingArrays s.defects tower site)

/-- The baseline: index i is served by the i-th site that the fuses alone leave good (R398 step 1). -/
def State.baseline (s : State) (tower i : Nat) : Option Nat :=
  ((List.range siteCount).filter (fun x => !siteOut s.fuses.defects tower x))[i]?

/-- The site that serves an index before remapping: the last SITE_MAP entry for it, else the baseline (step 2). -/
def State.serving (s : State) (tower i : Nat) : Option Nat :=
  match (s.defects.filter (fun e => decide (e.kind = 0x02) && decide (e.tower.toNat = tower) && decide (e.detail.toNat = i))).getLast? with
  | some e => some e.site.toNat
  | none => s.baseline tower i

/-- Whether some entry concerns a tower; without one its indices are served by the sites of their own numbers. -/
def State.towerMarked (s : State) (t : Nat) : Bool := s.defects.any (fun e => decide (e.tower.toNat = t))

/-- Resolve the indices from `i` on of a tower (step 3, 01_seven_levels.md R30): an index whose site is retired takes the lowest
good site that serves none, with a SITE_MAP entry, or is absent. -/
def State.resolveIdx (s : State) (t : Nat) (taken : List Nat) : Nat → State
  | 0 => s
  | k + 1 =>
    let i := 63 - k
    let p := 64 * t + i
    match s.serving t i with
    | none => State.resolveIdx { s with geo := { s.geo with absent := insertNat s.geo.absent p } } t taken k
    | some x =>
      if !siteOut s.defects t x then State.resolveIdx { s with geo := { s.geo with sites := put s.geo.sites p x } } t taken k
      else match (List.range siteCount).find? (fun y => s.siteGood t y && !taken.contains y) with
        | some y =>
          let u := s.appendOverlay 0x02 t y 0 i
          State.resolveIdx { u with geo := { u.geo with sites := put u.geo.sites p y } } t (y :: taken) k
        | none => State.resolveIdx { s with geo := { s.geo with sites := put s.geo.sites p x, absent := insertNat s.geo.absent p } } t taken k

/-- Resolve the site maps of the device's towers (R398). -/
def State.resolveSites (s : State) : State :=
  ((List.range 16).filter (fun t => s.hasTower t && s.towerMarked t)).foldl (fun (u : State) t =>
    u.resolveIdx t ((List.range 64).filterMap (fun i => u.serving t i)) 64) s

/-- Bring PAIR_ARRAYS, spare connections and narrow mode of a pair in line with its site (Table 14-5). -/
def State.applySite (s : State) (p : Nat) : State :=
  let t := p / 64
  let x := s.siteOf p
  let l := s.defects
  let u := if siteArrays l t x = 0 then s else s.setCore p (fun c => { c with arrays := BitVec.ofNat 16 (siteArrays l t x) })
  let gs := l.filter (fun e => e.names 0x06 t x)
  let na := (l.filter (fun e => e.names 0x07 t x)).getLast?
  if gs.isEmpty && na.isNone then u
  else u.setVault p (fun v => { v with
    groups := gs.foldl (fun (m : SMap Group) e => upd m e.sub.toNat {} (fun g => { g with used := g.used + 1 })) v.groups
    narrow := na.map (fun e => decide (e.detail.toNat % 2 = 1)) })

/-- Apply the defects of every present pair of a tower that some entry concerns. -/
def State.applySites (s : State) : State :=
  (((List.range 16).filter (fun t => s.hasTower t && s.towerMarked t)).flatMap towerPairs).foldl (fun (u : State) p =>
    if u.pairPresent p then u.applySite p else u) s

/-- A site is retired for a cause, in the pitch that finds it (R399). -/
def State.retireSite (s : State) (p cause : Nat) : State :=
  match s.serving (p / 64) (p % 64) with
  | some x => if siteOut s.defects (p / 64) x then s else s.appendOverlay 0x01 (p / 64) x 0 cause
  | none => s

/-- Stage 6 repairs a faulty row (R400): the lowest free spare row of its mat, or a HARD log entry when none is left. -/
def State.repairRow (s : State) (r : RowFault) : State :=
  let t := r.pair.val / 64
  match s.serving t (r.pair.val % 64) with
  | none => s
  | some x =>
    let used := (s.defects.filter (fun e => e.names 0x05 t x && decide (e.sub.toNat = r.bank.val)
      && decide (e.detail.toNat / 16384 % 8 = r.mat.val))).map (fun e => e.detail.toNat / 131072 % 16)
    let k := lowestFree used 0 16
    if k < 16 then s.appendOverlay 0x05 t x r.bank (r.row % 16384 + 16384 * r.mat.val + 131072 * k)
    else s.addLog r.pair r.bank 2 r.row 0 0xFF 0 0xFF (modAddr r.pair (rowOffset r.bank r.row 0))

/-- Stage 7 finds a cell fault: its column group is bypassed from now on (R78). -/
def State.addCell (s : State) (c : CoreFail) : State :=
  let t := c.pair.val / 64
  match s.serving t (c.pair.val % 64) with
  | none => s
  | some x => if (bypassed s.defects t x c.array).contains c.group.val then s else s.appendOverlay 0x03 t x c.array c.group

/-- Pairs left with fewer than two working arrays are retired (R78, R399). -/
def State.retireNarrow (s : State) : State :=
  (((List.range 16).filter (fun t => s.hasTower t && s.towerMarked t)).flatMap towerPairs).foldl (fun (u : State) p =>
    match u.serving (p / 64) (p % 64) with
    | some x => if workingArrays u.defects (p / 64) x < 2 then u.retireSite p 3 else u
    | none => u) s

/-! ## Seam modules -/

/-- A Seam module that trained, with what the lists say of its lanes (Table 14-7): out for good, at half width, spares in use. -/
def State.seamAtPitch (s : State) (trained : List (Fin 16)) (m : Nat) : SeamMod :=
  let l := s.defects.filter (fun e => decide (e.sub.toNat = m))
  let lanes := l.filter (fun e => decide (e.kind = 0x08))
  let spare (e : OvEntry) : Nat := e.detail.toNat / 128 % 8
  let drop := (lanes.filter (fun e => decide (spare e = 7))).getLast?
  let out := l.any (fun e => decide (e.kind = 0x09)) || !trained.any (fun x => decide (x.val = m))
  let used (d : Nat) : Nat := (lanes.filter (fun e => decide (spare e < 4) && decide (e.detail.toNat / 64 % 2 = d))).length
  let base : SeamMod := { sideband := (s.seamMod m).sideband, sparesWE := 4 - used 0, sparesEW := 4 - used 1 }
  if out then base
  else match drop with
    | some e => { base with state := .inService, width := 32, advert := 32, half := if e.detail.toNat % 64 < 32 then .high else .low,
                            failed := BitVec.ofNat 64 (2 ^ (e.detail.toNat % 64)) }
    | none => { base with state := .inService, width := 64 }

end Sys2Proof.Machine
end

