-- ==== Sys2Proof/Machine/Pitch.lean ====
section
/-! DEFINITION. Pitching: what a pitch keeps, its stages, halts, READY, quick sets and trial boots (14_pitch.md R389 to R401,
15_trust_and_firmware.md R426 to R434). -/

namespace Sys2Proof.Machine

open Sys2Proof

/-! ## What a pitch keeps (Table 14-8) -/

/-- The Silman ports before they train: DISABLED or DOWN by LK_PORT_EN, their cables as they stand. -/
def State.freshLinks (s : State) : Links :=
  { ports := (List.range 18).filterMap (fun n =>
      let en := s.settings.lkPortEn.getLsbD n
      if en || (s.sl n).present then some (n, ({ state := if en then .down else .disabled, present := (s.sl n).present } : SlPort)) else none) }

/-- Host ports with their links down and every field at reset; PERST# as it stands. -/
def State.freshPorts (s : State) : SMap HostPort := s.ports.map (fun e => (e.1, ({ perst := e.2.perst } : HostPort)))

/-- The I3C target: its address and settings survive a warm pitch (17_module_electrical.md R476). -/
def I3c.kept (x : I3c) (cold : Bool) : I3c :=
  if cold then {} else { address := x.address, ibiEn := x.ibiEn, mwl := x.mwl, mrl := x.mrl }

/-- The thermal block: latch and wear counts survive; automatic demotions last until a cold pitch (11_heat_path.md R297, R312, R321). -/
def State.keptThermal (s : State) (cold : Bool) : Thermal :=
  let w := s.thermal.wear.map (fun e => (e.1, ({ count := e.2.persisted, persisted := e.2.persisted } : Wear)))
  let heat := s.thermal.latch.any (fun d => d.cause = 1)
  { sensors := if cold then [] else s.thermal.sensors.filterMap (fun e => if e.2.autoDemoted then some (e.1, ({ autoDemoted := true } : Sensor)) else none)
    wear := w
    wearAt := s.now
    wearWarn := w.any (fun e => decide (80000 ≤ e.2.count))
    latch := s.thermal.latch
    levelMax := if s.latchStands && heat then .shutdown else .normal
    clLevel := if s.latchStands && !heat then 3 else 0
    lastPoll := s.thermal.lastPoll
    lostPoll := s.thermal.lostPoll }

/-- The device with everything lost that a pitch does not keep: persisted settings, overlay, retirement lists, wear counts, event
record and latches stay, and what lies outside the module. Banks to be released leave the retirement list (07_vaults_and_protection.md
R200). GEO_MODE is carried as the mode the device last ran in, until stage 2 decides. -/
def State.kept (s : State) (cold : Bool) : State :=
  { now := s.now
    fuses := s.fuses
    settings := s.settings
    board := { s.board with waitingReset := false }
    lantern := { count := s.lantern.count, quickSet := s.lantern.quickSet, start := s.now,
                 wasHalfTwin := if s.geo.mode = 2 then some (if s.geo.hasW then .w else .e) else s.lantern.wasHalfTwin }
    geo := { mode := s.geo.mode, hasW := s.geo.hasW, hasE := s.geo.hasE, overlay := s.geo.overlay }
    ports := s.freshPorts
    thermal := s.keptThermal cold
    mem := { retired := s.mem.retired.filter (fun r => !s.mem.releasing.contains r), hostW := s.mem.hostW, hostE := s.mem.hostE }
    links := s.freshLinks
    seam := { lastHeard := s.now }
    events := { s.events with sincePitch := [] }
    trust := { entropyOk := s.trust.entropyOk, drawn := s.trust.drawn, slotA := s.trust.slotA, slotB := s.trust.slotB, arb := s.trust.arb,
               arbCount := s.trust.arbCount, previous := s.trust.previous, chainW := s.trust.chainW, chainE := s.trust.chainE }
    i3c := s.i3c.kept cold
    out := s.out
    free := s.free
    pending := s.pending }

/-! ## Beginning a pitch -/

/-- PITCH_STAGE and PITCH_TIME_MS at a stage boundary (R393). -/
def State.toStage (s : State) (n : Nat) : State :=
  s.setLantern (fun l => { l with stage := BitVec.ofNat 4 n, timeMs := BitVec.ofNat 32 ((s.now - l.start) / 1000000) })

/-- The pitch runs for Split mode: a half pitching alone keeps the mode in which the other half runs (R407); else the persisted
setting decides (00_scope.md R5). -/
def State.pitchSplit (s : State) : Bool := s.settings.modeSplit || s.lantern.keepsSplit

/-- GEO_MODE, the halves and the role of H-E as the settings in force give them for this pitch. -/
def State.takeMode (s : State) : State :=
  let split := s.pitchSplit
  { s with geo := { s.geo with
      mode := if split then 1 else 0
      hasW := !split || decide (s.fuses.halfId = .w)
      hasE := !split || decide (s.fuses.halfId = .e)
      heFarTier := !split && s.settings.heFarTier } }

/-- What a pitch's Lantern starts from: its kind, how full it runs, and whether an input of both halves began it (R394, R407). -/
def Lantern.starting (l : Lantern) (kind : BitVec 2) (full both split : Bool) : Lantern :=
  { l with kind := kind, full := full, both := both, keepsSplit := split && !both }

/-- Stage 2 begins: the Lantern runs, PITCH_COUNT counts, rack time starts at 0, the serial rails rise, the fuses read (R390,
10_rack_time_rations.md R272, 08_warden_mailboxes.md R234). Until stage 4 finds no peer, a device that is not a Split half is both halves. -/
def State.enterStage2 (s : State) : State :=
  let t := State.takeMode { s with
    lantern := { s.lantern with count := s.lantern.count + 1 }
    geo := { s.geo with fusesRead := true }
    time := { running := true } }
  (t.setRails (fun r => { r with vser := !r.serHot })).toStage 2

/-- A warm pitch begins with stage 2 (R390). -/
def State.startWarm (s : State) (full both : Bool) : State :=
  (((s.persistWear.kept false).setLantern (fun l => l.starting 1 full both (decide (s.geo.mode = 1)))).setRails (fun r =>
    { r with vbase := false, vdram := false, vcomp := false })).enterStage2

/-- A cold pitch begins with stage 1: the always-on, flash and base standby rails rise (R390). -/
def State.startCold (s : State) (full both : Bool) : State :=
  (((s.kept true).setLantern (fun l => l.starting 0 full both (decide (s.geo.mode = 1)))).setRails (fun _ =>
    { vaon := true, vflash := true, vbaseSb := true })).toStage 1

/-- A cold pitch by command drops every rail of the device for 200 ms (R404). -/
def State.dropForCold (s : State) (full : Bool) : State :=
  (((s.persistWear.kept true).setLantern (fun l => { l with full := full, railsDropped := some s.now })).setRails (fun _ => {})).toStage 0

/-- A reset or pitch is asked for; a cold one that waits already prevails over a warm one (R405). -/
def State.askReset (s : State) (kind : Nat) (full : Bool) (tag : Option Nat) : State :=
  if s.lantern.job.any (fun j => decide (kind < j.kind)) then s
  else s.setLantern (fun l => { l with job := some { kind := kind, full := full, tag := tag, since := s.now } })

/-- A warm pitch that no RESET_DEVICE asked for: all work is struck as R404 does; the detail names no command (a free value,
notes/assumptions/10.md). -/
def State.strikeForPitch (s : State) (full : Bool) : State :=
  let (x, t) := s.draw
  (t.strikeEverything .struck (BitVec.ofNat 32 x) []).askReset 1 full none

/-! ## Trial failure (15_trust_and_firmware.md R428) -/

/-- A slot by its number: true is slot B. -/
def Trust.slot (t : Trust) (b : Bool) : FwSlot := if b then t.slotB else t.slotA

/-- A slot changed. -/
def Trust.setSlot (t : Trust) (b : Bool) (f : FwSlot → FwSlot) : Trust := if b then { t with slotB := f t.slotB } else { t with slotA := f t.slotA }

/-- The slot in a state. -/
def Trust.slotIn (t : Trust) (st : SlotState) : Option Bool :=
  if t.slotA.state = st then some false else if t.slotB.state = st then some true else none

/-- SlotState as a number (Table 15-8). -/
def SlotState.code : SlotState → Nat
  | .empty => 0
  | .staged => 1
  | .pending => 2
  | .trial => 3
  | .committed => 4
  | .superseded => 5

/-- The trial slot becomes EMPTY, the previous settings copy is restored and FW_TRIAL_FAIL written; `cause` counts the events of R428
from 1. -/
def State.endTrial (s : State) (cause : Nat) : State :=
  match s.trust.slotIn .trial with
  | none => s
  | some b =>
    let t := { s with
      settings := s.trust.previous.getD s.settings
      trust := { s.trust.setSlot b (fun f => { f with state := .empty }) with previous := none } }
    (t.postArgs 0x0503 t.lead 3 (ofBool b) cause 0).tell .trialFailed

/-- A trial fails by something that is no pitch itself: all work is struck and a full warm pitch onto the committed slot follows. -/
def State.failTrial (s : State) (cause : Nat) : State :=
  if (s.trust.slotIn .trial).isNone then s else ((s.endTrial cause).setTrust (fun t => { t with trialStart := none })).strikeForPitch true

/-! ## Halts (R393) -/

/-- The pitch halts with a cause and an event record; a halt after stage 3 fails a trial, a MODE_MISMATCH or a latch does not
(15_trust_and_firmware.md R428). -/
def State.halt (s : State) (cause : Nat) : State :=
  let t := ((s.setLantern (fun l => { l with halt := BitVec.ofNat 8 cause })).toStage 0xE).postArgs 0x0401 s.lead 3 cause 0 0
  if cause = 1 ∨ cause = 6 then t else t.failTrial 2

/-! ## Stage 1 (R390, 17_module_electrical.md R461) -/

/-- Stage 1 ends; retained SRAM that fails its check has lost an unknown number of records. -/
def State.endRails (s : State) (retentionOk : Bool) : State :=
  let t := if retentionOk && s.board.retained then s
    else State.postArgs { s with events := { s.events with queue := [], lost := 0, late := 0 } } 0x0603 s.lead 2 (2 ^ 64 - 1) 0 0
  State.enterStage2 { t with board := { t.board with retained := true } }

/-! ## Stage 2 -/

/-- Commit fuses of the field. -/
def commitFuses : Nat := 1024

/-- FW_COMMIT's steps 2 to 4 for a slot (15_trust_and_firmware.md R429, R432): FW_ARB with its commit count, the slots' states, the
revocations; the previous settings copy goes. -/
def State.commitSlot (s : State) (b : Bool) (count : Nat) : State :=
  let f := s.trust.slot b
  { s with
    fuses := { s.fuses with revoked := s.fuses.revoked ||| f.revoke }
    trust := { (s.trust.setSlot b (fun x => { x with state := .committed })).setSlot (!b) (fun x => { x with state := .superseded }) with
      arb := f.version, arbCount := count, previous := none, trialStart := none, trialReady := false,
      fwState := if s.trust.fwState = .trial then .committed else s.trust.fwState } }

/-- A commit whole: the next fuse is blown; once all are, the record alone governs, and the first such commit writes an event record
(15_trust_and_firmware.md R429, R430). -/
def State.commit (s : State) (b : Bool) : State :=
  if s.fuses.commitBlown < commitFuses then
    State.commitSlot { s with fuses := { s.fuses with commitBlown := s.fuses.commitBlown + 1 } } b (s.fuses.commitBlown + 1)
  else
    let t := s.commitSlot b (s.trust.arbCount + 1)
    if s.trust.arbCount ≤ commitFuses then t.postArgs 0x0505 t.lead 3 t.trust.arb.toNat 0 0 else t

/-- The highest MF_VERSION among the slots that hold an image. -/
def Trust.highestVersion (t : Trust) : Nat :=
  max (if t.slotA.state = .empty then 0 else t.slotA.version.toNat) (if t.slotB.state = .empty then 0 else t.slotB.version.toNat)

/-- The anti-rollback record counts as restored from an older copy: FW_ARB becomes the greater of its value and the highest version in
flash (15_trust_and_firmware.md R430). -/
def State.restoreArb (s : State) : State :=
  let v := max s.trust.arb.toNat s.trust.highestVersion
  (s.setTrust (fun t => { t with arb := BitVec.ofNat 32 v, arbCount := s.fuses.commitBlown })).postArgs 0x0505 s.lead 3 v 0 0

/-- The commit fuses and the record are compared (15_trust_and_firmware.md R430): an interrupted commit of a TRIAL slot is completed;
fuses ahead otherwise, or a record that fails authentication, restore FW_ARB; with all 1,024 fuses blown the record governs. -/
def State.settleCommits (s : State) (arbOk : Bool) : State :=
  let ahead := decide (s.trust.arbCount < s.fuses.commitBlown) && decide (s.fuses.commitBlown < commitFuses)
  match s.trust.slotIn .trial with
  | some b =>
    if arbOk && ahead && decide (s.fuses.commitBlown = s.trust.arbCount + 1) then s.commitSlot b s.fuses.commitBlown
    else if !arbOk || ahead then s.restoreArb else s
  | none => if !arbOk || ahead then s.restoreArb else s

/-- A PENDING slot may boot in this pitch: in Split mode only where both halves began it together (15_trust_and_firmware.md R433). -/
def State.pendingBoots (s : State) : Bool := decide (s.geo.mode ≠ 1) || s.lantern.both

/-- The quick set matches at stage 2 (R394): firmware measurement of the slot to boot, fused list, overlay count, mode, straps, variant
fuses; a PENDING slot that boots never matches (15_trust_and_firmware.md R427). -/
def State.quickMatches (s : State) (q : QuickSet) : Bool :=
  (match s.trust.slotIn .committed with
   | some b => decide (q.fwMeas = Config.shake256 ((s.trust.slot b).block 0) 32)
   | none => false)
  && !((s.trust.slotIn .pending).isSome && s.pendingBoots)
  && decide (q.defects = s.fuses.defects) && decide (q.overlayCount = s.geo.overlay.length) && decide (q.modeSplit = s.pitchSplit)
  && decide (q.straps = s.board.straps) && decide (q.clockMhz = s.fuses.clockMhz) && decide (q.powerW = s.fuses.powerW)
  && !q.spoiled && decide (q.uses < 8)

/-- PITCH_QUICK as stage 2 decides it. -/
def State.decideQuick (s : State) : State :=
  s.setLantern (fun l => { l with quick := s.settings.quickEn && !l.full && l.quickSet.any s.quickMatches })

/-- PITCH_IDLE_WHY: inlet above 50 °C; flow low or implausible (R392). -/
def State.idleReasons (s : State) : Nat :=
  ofBool (s.thermal.inlet.any (fun i => decide (800 < i)))
    + 2 * ofBool (match s.thermal.flow with
      | some f => decide (100 * f < 80 * s.flowSet)
      | none => true)

/-- Polls in a row that admit the module (R392). -/
def goodPollsNeeded : Nat := 3

/-- The coolant gate at the end of stage 2 (R392). -/
def State.gate (s : State) : State :=
  if goodPollsNeeded ≤ s.lantern.goodPolls then s.toStage 3
  else (s.setLantern (fun l => { l with idleWhy := BitVec.ofNat 2 s.idleReasons })).toStage 0xA

/-- IDLE is left for stage 3; the time held does not count against a trial (15_trust_and_firmware.md R428). -/
def State.leaveIdle (s : State) : State :=
  ((s.setLantern (fun l => { l with idleWhy := 0 })).setTrust (fun t => { t with trialStart := some s.now })).toStage 3

/-- Stage 2 ends: straps, keys, commit fuses and latches are known; the pitch halts, stays for recovery, waits for MOD_RESET_N, or goes
on through the coolant gate. -/
def State.endStage2 (s : State) (strapsW strapsE : Straps) (identityOk arbOk : Bool) (m0Mean : Int) : State :=
  let t := ((s.settleCommits arbOk).endTrial 6).takeMode
  let st := if t.geo.hasW then strapsW else strapsE
  let u : State := { t with
    board := { t.board with straps := st }
    lantern := { t.lantern with m0Mean := m0Mean }
    trust := { t.trust with identityOk := identityOk }
    far := { t.far with refclk := t.geo.heFarTier } }
  let v := if identityOk then u else u.postSecurity .identity u.lead
  if v.latchStands then v.halt 6
  else if orderCode v.fuses = 0 then v.halt 7
  else if (decide (v.geo.mode ≠ 1) || v.lantern.both) && decide (strapsW ≠ strapsE) then v.halt 8
  else if st.recovery then
    { v with trust := { v.trust with fwState := .recovery }, lantern := { v.lantern with heForward := true } }
  else if v.board.resetLow then { v.decideQuick with board := { v.board with waitingReset := true } }
  else v.decideQuick.gate

/-! ## Stage 3 (15_trust_and_firmware.md R426, R432) -/

/-- A slot that fails verification becomes EMPTY, with FW_SLOT; the check that failed is the boot's own finding, a free value
(notes/assumptions/10.md). -/
def State.slotFails (s : State) (b : Bool) : State :=
  let (x, t) := s.draw
  (t.setTrust (fun r => r.setSlot b (fun f => { f with state := .empty }))).postArgs 0x0502 t.lead 2
    (ofBool b + 256 * (s.trust.slot b).state.code + 65536 * (x % 4 + 7)) 0 0

/-- The settings at the first boot of a trial whose format differs (15_trust_and_firmware.md R432). -/
def State.switchFormat (s : State) (fmt : BitVec 16) : State :=
  if fmt = s.settings.fmt then s
  else
    let x := s.settings
    let t : State := { s with
      settings := { fmt := fmt, modeSplit := x.modeSplit, heFarTier := x.heFarTier, tpMinFw := x.tpMinFw, tpSameFw := x.tpSameFw }
      trust := { s.trust with previous := some x } }
    { t with links := t.freshLinks }.postArgs 0x0504 t.lead 1 (x.fmt.toNat + 65536 * fmt.toNat) 0 0

/-- A slot boots: its firmware is loaded, the Warden cores of the device run, the Rations in flash are committed
(10_rack_time_rations.md R287). -/
def State.bootSlot (s : State) (b : Bool) (st : FwState) : State :=
  let t : State := { s with
    trust := { s.trust with fwState := st, runB := b, loaded := true }
    rations := { shadow := s.settings.rations, committed := s.settings.rations } }
  t.clusters.foldl (fun (u : State) c =>
    (u.setIc c (fun i => { i with coreEn := 0xFF, coreAwake := 0xFF, accepting := 0xFF })).setWdog c (fun w =>
      { w with lastBeat := u.now, periodMs := u.settings.wdPeriodMs, warned := false, inReset := false })) t

/-- A PENDING slot is verified and boots as TRIAL; one that fails becomes EMPTY, and its trial has failed. -/
def State.tryPending (s : State) (okA okB : Bool) : State × Bool :=
  match s.trust.slotIn .pending with
  | none => (s, false)
  | some b =>
    if !s.pendingBoots then (s, false)
    else if (if b then okB else okA) && decide (s.trust.arb.toNat < (s.trust.slot b).version.toNat) then
      let t := (s.setTrust (fun r => { r.setSlot b (fun f => { f with state := .trial }) with
        trialStart := some (r.trialStart.getD s.lantern.start), trialReady := false })).switchFormat (s.trust.slot b).settingsFmt
      (t.bootSlot b .trial, true)
    else ((s.slotFails b).postArgs 0x0503 s.lead 3 (ofBool b) 1 0, false)

/-- The COMMITTED slot is verified and boots; none that lies below FW_ARB does. -/
def State.tryCommitted (s : State) (okA okB : Bool) : State × Bool :=
  match s.trust.slotIn .committed with
  | none => (s, false)
  | some b =>
    if !(if b then okB else okA) then (s.slotFails b, false)
    else if (s.trust.slot b).version.toNat < s.trust.arb.toNat then (s, false)
    else (s.bootSlot b .committed, true)

/-- The discovery record of this die (12_silman_and_seam.md R358). -/
def State.ownRecord (s : State) : Discovery :=
  { role := if s.geo.hasW then .w else .e, clockMhz := s.fuses.clockMhz, powerW := s.fuses.powerW, fwMeas := s.fwMeas,
    defectHash := Config.shake256 (s.fuses.defects.flatMap OvEntry.bytes) 32, dikHash := Config.dikHash s.lead, straps := s.board.straps }

/-- Stage 4 begins: the discovery record goes out. -/
def State.enterStage4 (s : State) : State :=
  ({ s with seam := { s.seam with searchFrom := s.now } }.emit (.discovery s.ownRecord)).toStage 4

/-- Stage 3 ends: AUTH_FAIL where no slot boots, MODE_MISMATCH where the strap does not confirm the mode (00_scope.md R6). -/
def State.endStage3 (s : State) (okA okB : Bool) : State :=
  let (t, trial) := s.tryPending okA okB
  let (u, up) := if trial then (t, true) else t.tryCommitted okA okB
  if !up then (u.setTrust (fun r => { r with fwState := .none, loaded := false })).halt 2
  else if u.pitchSplit ≠ u.board.straps.mode then
    ((u.setLantern (fun l => { l with modeMismatch := true })).postArgs 0x0405 u.lead 3 (ofBool u.pitchSplit + 2 * ofBool u.board.straps.mode) 0 0).halt 1
  else u.enterStage4

/-! ## Stage 4 (12_silman_and_seam.md R357, R358, R364) -/

/-- H-E's slots are forwarded from now on: those sealed earlier are presented now, in seal order (13_host_far_ports.md R382). -/
def State.forwardHe (s : State) : State :=
  if s.lantern.heForward then s
  else
    let early (e : SealedSlot) : Bool := e.presented && decide (e.ctrl = 1) && s.twin
    { s with
      lantern := { s.lantern with heForward := true }
      warden := { s.warden with
        sealed := s.warden.sealed.filter (fun e => !early e) ++ (s.warden.sealed.filter early).map (fun e => { e with presentedAt := s.now }) } }

/-- The Seam modules that trained take service, with what fuses and overlay say of their lanes. -/
def State.trainSeam (s : State) (trained : List (Fin 16)) : State :=
  { s with seam := { s.seam with mods := (List.range 16).map (fun m => (m, s.seamAtPitch trained m)), lastHeard := s.now } }

/-- The role of a Split die (12_silman_and_seam.md R357): by discovery, what the majority of its answering modules' orientation contacts
show; with the strap tied, its HALF_ID. Until stage 4 ends, and without a majority, HALF_ID stands (notes/assumptions/9.md). -/
def State.takeRole (s : State) (answering : List (Fin 16)) : State :=
  let w := (answering.filter (fun m => s.board.orient.getLsbD m.val)).length
  if s.geo.mode ≠ 1 ∨ s.board.straps.idSrc ∨ 2 * w = answering.length then s
  else { s with geo := { s.geo with hasW := decide (answering.length < 2 * w), hasE := decide (2 * w < answering.length) } }

/-- The half that goes on alone when the other gives no record: E where W's rails are down or E ran alone before (R451). -/
def State.survivor (s : State) : HalfRole :=
  if !s.board.railsW.vbaseSb || decide (s.lantern.wasHalfTwin = some .e) then .e else .w

/-- No peer at stage 4 (16_faults_blast_radius.md R451, R366): a Split half runs alone with SEAM_LOST; of a Twin device W goes on as
half-Twin, and E where its previous pitch ran so or its owner's port is its own; else the pitch stops with HALF_LOST. -/
def State.goAlone (s : State) : State :=
  if s.geo.mode = 1 then s.setLantern (fun l => { l with seamLost := true })
  else
    let h := s.survivor
    let on := decide (h = .w) || decide (s.lantern.wasHalfTwin = some .e)
    { s with
      geo := { s.geo with mode := 2, hasW := decide (h = .w), hasE := decide (h = .e), heFarTier := false }
      lantern := { s.lantern with halfLost := !on } }

/-- The fault of the discovery record that halts after stage 4, if any (R358, R389, R407). -/
def State.discoveryFault (s : State) (d : Discovery) (trained : Nat) : Option Nat :=
  if decide (d.role = .w) = s.geo.hasW then some 3
  else if d.clockMhz ≠ s.fuses.clockMhz ∨ d.powerW ≠ s.fuses.powerW ∨ d.fwMeas ≠ s.fwMeas then some 4
  else if s.geo.mode = 0 ∧ trained < 8 then some 5
  else if s.geo.mode = 1 ∧ !s.lantern.both ∧ d.straps ≠ s.board.straps then some 8
  else none

/-- Stage 5 begins: compute and DRAM rails rise, stage 8 starts beside it, the far tier's PERST_N is released (R390,
17_module_electrical.md R462, R467). -/
def State.enterStage5 (s : State) : State :=
  ((((s.setLantern (fun l => { l with stage8 := true })).setRails (fun r => { r with vbase := true, vdram := true, vcomp := true })).setFar
    (fun f => { f with perstLow := false })).setThermal (fun t => { t with dropped := false })).toStage 5

/-- PITCH_QUICK_MISS: a quick stage fell back to full work (R395). -/
def State.missed (s : State) (bit : Nat) (ok : Bool) : State :=
  if s.lantern.quick && !ok then s.setLantern (fun l => { l with quickMiss := l.quickMiss ||| BitVec.ofNat 4 (2 ^ bit) }) else s

/-- In Twin mode the other die's record must match the quick set as well (R394). -/
def State.quickPeer (s : State) : State :=
  if s.geo.mode = 0 ∧ s.lantern.quickSet.any (fun q => decide (q.peer ≠ s.seam.peer)) then s.setLantern (fun l => { l with quick := false }) else s

/-- Stage 4 ends. -/
def State.endStage4 (s : State) (trained : List (Fin 16)) (quickOk : Bool) : State :=
  let s := s.takeRole trained
  match s.seam.peer with
  | some d =>
    let t := (s.trainSeam trained).setLantern (fun l => { l with wasHalfTwin := none })
    (match s.discoveryFault d trained.length with
     | some c => State.halt { (if trained.isEmpty then t else t.forwardHe) with seam := { t.seam with degraded := decide (c = 5) } } c
     | none => ((t.quickPeer.missed 0 quickOk).forwardHe).enterStage5)
  | none =>
    let t := s.goAlone
    if t.lantern.halfLost then t else t.forwardHe.enterStage5

/-! ## Stages 5 to 7 and 9 -/

/-- Stage 5 ends: lost vaults retire their sites (R399). -/
def State.endStage5 (s : State) (lost : List (Fin 1024)) (quickOk : Bool) : State :=
  ((lost.foldl (fun (t : State) p => t.retireSite p 1) s).missed 1 quickOk).toStage 6

/-- The quick check of stage 6 also asks that the M0 mean of stage 2 lies within 10 K of the set's (R395). -/
def State.m0Near (s : State) : Bool := s.lantern.quickSet.any (fun q => decide ((q.m0Mean - s.lantern.m0Mean).natAbs ≤ 160))

/-- Stage 6 ends: faulty rows are repaired (R400). -/
def State.endStage6 (s : State) (rows : List RowFault) (quickOk : Bool) : State :=
  ((rows.foldl (fun (t : State) r => t.repairRow r) s).missed 2 (quickOk && s.m0Near)).toStage 7

/-- Stage 7 ends: cell faults bypass their column groups, except by a short test that passes; cores that fail retire their pairs
(R78, R395, R399). -/
def State.endStage7 (s : State) (cells : List CoreFail) (failed : List (Fin 1024)) (quickOk : Bool) : State :=
  let t := if s.lantern.quick && quickOk then s else cells.foldl (fun (t : State) c => t.addCell c) s
  let u := failed.foldl (fun (t : State) p => t.retireSite p 4) t
  (u.retireNarrow.missed 3 quickOk).toStage 9

/-- Valid-map self-test: a map that fails puts the device into fill mode (07_vaults_and_protection.md R193). -/
def State.checkMaps (s : State) (mapFail : Option (Fin 1024)) : State :=
  match mapFail with
  | some p => ({ s with mem := { s.mem with fillMode := true } }).logVault p 13 6 0xFF (modAddr p 0)
  | none => s

/-- The user capacity of a far-tier device in MiB: 8/9 of it, in multiples of 64 MiB, at most 16 TiB (13_host_far_ports.md R385). -/
def farCapacity (deviceMib : Nat) : Nat := min (deviceMib * 8 / 9 / 64 * 64) (16 * 2 ^ 20)

/-- The far tier as stage 9 finds it: attached, with a key of this pitch, absent or capped (13_host_far_ports.md R384 to R386). -/
def State.attachFar (s : State) (deviceMib : Nat) : State :=
  if !s.geo.heFarTier then s
  else if deviceMib = 0 then s.postArgs 0x0305 0 2 1 0 0
  else
    let u := s.withFarKey.getD s
    let t : State := { u with
      geo := { u.geo with farTierMib := farCapacity deviceMib }
      far := { u.far with linkUp := true } }
    if 16 * 2 ^ 20 < deviceMib * 8 / 9 / 64 * 64 then t.postArgs 0x0305 0 2 2 0 0 else t

/-- The quick set as READY records it (R396): anew after full work in a stage, else only its use is counted. -/
def State.recordQuick (s : State) : State :=
  let uses := if s.lantern.quick then (s.lantern.quickSet.map (fun (q : QuickSet) => q.uses + 1)).getD 0 else 0
  if s.lantern.quick && decide (s.lantern.quickMiss = 0) then
    s.setLantern (fun l => { l with quickSet := l.quickSet.map (fun (q : QuickSet) => { q with uses := uses }) })
  else
    let q : QuickSet :=
      { fwMeas := s.fwMeas, overlayCount := s.geo.overlay.length, modeSplit := s.pitchSplit, straps := s.board.straps,
        clockMhz := s.fuses.clockMhz, powerW := s.fuses.powerW, defects := s.fuses.defects, peer := s.seam.peer, m0Mean := s.lantern.m0Mean,
        uses := uses, spoiled := false }
    s.setLantern (fun l => { l with quickSet := some q })

/-- READY (R393): the record is built at GEO_GENERATION 2, the cores are released, scrub passes begin. -/
def State.becomeReady (s : State) : State :=
  let t : State := { s with
    geo := { s.geo with built := true, generation := 2, recHalves := BitVec.ofNat 2 s.halvesByte
                        recLanes := ((List.range 18).filter (fun n => s.hasSl n && decide ((s.sl n).lanes ≠ 0))).map (fun n => (n, (s.sl n).lanes)) }
    mem := { s.mem with scrubFrom := s.now }
    trust := { s.trust with trialReady := decide (s.trust.fwState = .trial) } }
  (t.recordQuick.toStage 0xF).postArgs 0x0402 (7 * 2 ^ 24) 1 2 7 0

/-- Stage 9 ends: maps, site map, arrays and connections, far tier, geometry record (R193, R398, R384). -/
def State.endStage9 (s : State) (mapFail : Option (Fin 1024)) (farDeviceMib : Nat) : State :=
  (((s.checkMaps mapFail).resolveSites.applySites).attachFar farDeviceMib).becomeReady

/-- A stage from 3 on goes on: no shutdown, reset or lost half has stopped the pitch. -/
def State.pitchGoes (s : State) : Bool :=
  !s.latchStands && s.lantern.job.isNone && s.lantern.clearing.isNone && !s.board.resetLow && !s.lantern.halfLost

/-- PITCH_STAGE_COMPLETE (R390): the stage the result belongs to ends. -/
def execPitchStageComplete (result : StageResult) (s : State) : Host.Outcome State Fault Refusal :=
  let at' (n : Nat) : Bool := decide (s.lantern.stage.toNat = n)
  .next (settle s (match result with
    | .rails ok => if at' 1 then s.endRails ok else s
    | .lantern w e i a m =>
      if at' 2 && !s.board.waitingReset && decide (s.trust.fwState ≠ .recovery) && s.lantern.job.isNone && s.lantern.clearing.isNone then
        s.endStage2 w e i a m
      else s
    | .idleRelease => if at' 0xA && s.pitchGoes && decide (goodPollsNeeded ≤ s.lantern.goodPolls) then s.leaveIdle else s
    | .firmware a b => if at' 3 && s.pitchGoes then s.endStage3 a b else s
    | .seam l q => if at' 4 && s.pitchGoes && (s.seam.peer.isSome || s.seam.noPeer) then s.endStage4 l q else s
    | .channel l q => if at' 5 && s.pitchGoes then s.endStage5 l q else s
    | .dram r q => if at' 6 && s.pitchGoes then s.endStage6 r q else s
    | .cores c f q => if at' 7 && s.pitchGoes then s.endStage7 c f q else s
    | .memory m f => if at' 9 && s.pitchGoes then s.endStage9 m f else s))

end Sys2Proof.Machine
end

