-- ==== Sys2Proof/Machine/Tray.lean ====
section
/-! DEFINITION. Polls of the tray sensor bus and what the readings do (11_heat_path.md R313 to R319, 14_pitch.md R392,
17_module_electrical.md R482, R483). -/

namespace Sys2Proof.Machine

open Sys2Proof

/-! ## The reply (Table 17-12) -/

/-- A reply is valid: eight bytes whose TS_CRC matches. -/
def trayValid (b : List Byte) : Bool := decide (b.length = 8) && decide (crc8 (b.take 7) = field b 7 1)

/-- TS_INLET, TS_OUTLET and TS_FLOW, where their valid bits are set. -/
structure Tray where
  inlet : Option Int
  outlet : Option Int
  flow : Option Nat
  deriving DecidableEq, Repr

/-- The readings of a valid reply. -/
def trayOf (b : List Byte) : Tray :=
  { inlet := if bit (field b 6 1) 0 then some (toInt 16 (field b 0 2)) else none
    outlet := if bit (field b 6 1) 1 then some (toInt 16 (field b 2 2)) else none
    flow := if bit (field b 6 1) 2 then some (field b 4 2) else none }

/-- The readings that are plausible within the limits of R314, for a setpoint; an implausible flow counts as 50 % of it, so the inlet
is held against the outlet then too. -/
def Tray.plausible (t : Tray) (set' : Nat) : Tray :=
  let hot (a b : Option Int) : Bool := match a, b with
    | some x, some y => decide (x ≤ y + 32)
    | _, _ => true
  let flows := match t.flow.filter (fun f => decide (f ≤ 12000)) with
    | some f => decide (set' ≤ 10 * f)
    | none => true
  { inlet := t.inlet.filter (fun i => decide (0 ≤ i) && decide (i ≤ 1120) && (!flows || hot t.inlet t.outlet))
    outlet := t.outlet.filter (fun o => decide (0 ≤ o) && decide (o ≤ 1440) && hot t.inlet t.outlet)
    flow := t.flow.filter (fun f => decide (f ≤ 12000)) }

/-- Some reading is implausible. -/
def Tray.poor (t : Tray) : Bool := t.inlet.isNone || t.outlet.isNone || t.flow.isNone

/-! ## Flow (R315, R316) -/

/-- The mean flow of the last second is below `pct` percent of the setpoint. -/
def State.flowBelow (s : State) (pct : Nat) : Bool :=
  let l := s.thermal.flows.map (·.2)
  !l.isEmpty && decide (100 * l.foldl (· + ·) 0 < pct * s.flowSet * l.length)

/-- CL_LEVEL as the mean flow sets it (Table 11-10): entered below 80 % and 60 %, left at 85 % and 65 %. -/
def State.nextFlowLevel (s : State) : BitVec 2 :=
  let c := s.thermal.clLevel.toNat
  if c = 3 then 3
  else if s.flowBelow 60 || (decide (2 ≤ c) && s.flowBelow 65) then 2
  else if s.flowBelow 80 || (decide (1 ≤ c) && s.flowBelow 85) then 1
  else 0

/-- TH_CEILING_W at level 2: the limit in the ratio of the mean flow to 60 % of the setpoint, at most the limit. -/
def State.flowCeiling (s : State) : Nat :=
  let l := s.thermal.flows.map (·.2)
  min s.fuses.powerW (s.fuses.powerW * l.foldl (· + ·) 0 * 10 / (6 * s.flowSet * l.length))

/-- The coolant level after a poll; COOLANT rises at each change, and leaving level 0 writes an event record. -/
def State.judgeFlow (s : State) : State :=
  let n := s.nextFlowLevel
  let t := s.setThermal (fun h => { h with clLevel := n, ceiling := if n = 2 then some s.flowCeiling else none })
  let u := if n = s.thermal.clLevel then t else (t.raiseFast 3).tell .protection
  if s.thermal.clLevel = 0 ∧ n ≠ 0 then
    u.postArgs 0x0205 u.lead 1 n.toNat (s.thermal.flow.getD 0xFFFF + 65536 * s.flowSet) 0
  else u

/-- A sudden stop of flow (R316): a reading of 0, or one below 10 % within 200 ms of one at or above 40 %. -/
def State.suddenStop (s : State) : Bool :=
  match s.thermal.flows with
  | [] => false
  | (at', f) :: older =>
    decide (f = 0)
      || (decide (10 * f < s.flowSet) && older.any (fun e => decide (at' ≤ e.1 + ms 200) && decide (40 * s.flowSet ≤ 100 * e.2)))

/-- What the readings do from stage 5 on: COOLANT_SENSOR, the inlet mark, the flow levels and the shutdowns with causes 2 to 5
(R314 to R318). -/
def State.actOnTray (s : State) (poor : Bool) : State :=
  if !s.heatOn then s
  else
    let t := s.setThermal (fun h => { h with
      coolantSensor := h.coolantSensor || poor
      inletHigh := decide ((48 : Rat) ≤ meanDeg (h.inlets.map (·.2))) })
    let u := t.judgeFlow
    if s.suddenStop then u.coolantStop 3
    else if s.flowBelow 40 then u.coolantStop 2
    else if 3 ≤ s.thermal.hotInlet then u.coolantStop 4
    else if 3 ≤ s.thermal.hotOutlet then u.coolantStop 5
    else u

/-- The coolant gate counts a poll, and the third good one in a row leaves IDLE (14_pitch.md R392). -/
def State.countPoll (s : State) (valid : Bool) : State :=
  let good := valid && decide (s.idleReasons = 0)
  let t := s.setLantern (fun l => { l with
    goodPolls := if good then l.goodPolls + 1 else 0
    idleWhy := if s.idle then BitVec.ofNat 2 s.idleReasons else l.idleWhy })
  if t.idle && t.pitchGoes && decide (goodPollsNeeded ≤ t.lantern.goodPolls) then t.leaveIdle else t

/-- The readings of a poll come into force. An implausible flow counts as 50 % of the setpoint, an implausible inlet as 48 °C (R314). -/
def State.takeTray (s : State) (x : Tray) (replied : Bool) : State :=
  s.setThermal (fun h => { h with
    inlet := x.inlet
    outlet := x.outlet
    flow := x.flow
    flows := (s.now, x.flow.getD (s.flowSet / 2)) :: h.flows.filter (fun e => decide (s.now < e.1 + ms 1000))
    inlets := (s.now, x.inlet.getD 768) :: h.inlets.filter (fun e => decide (s.now < e.1 + ms 10000))
    missed := if replied then 0 else h.missed
    hotInlet := if x.inlet.any (fun i => decide (800 < i)) then h.hotInlet + 1 else 0
    hotOutlet := if x.outlet.any (fun o => decide (1040 < o)) then h.hotOutlet + 1 else 0 })

/-- A poll without a valid reply: the third in a row makes every reading implausible (R313). -/
def State.missPoll (s : State) : State :=
  let t := s.setThermal (fun h => { h with missed := h.missed + 1, hotInlet := 0, hotOutlet := 0 })
  if 3 ≤ t.thermal.missed then (t.takeTray { inlet := none, outlet := none, flow := none } false).actOnTray true else t

/-- The reply of a poll acts. -/
def State.trayReply (s : State) (b : List Byte) : State :=
  if trayValid b then
    let x := (trayOf b).plausible s.flowSet
    ((s.takeTray x true).actOnTray x.poor).countPoll true
  else s.missPoll.countPoll false

/-- A poll ends; one that lost arbitration waits to be made again. -/
def State.endPoll (s : State) (half : Nat) (reply : TrayReply) : State :=
  match reply with
  | .bytes b => s.trayReply b
  | .silent => s.missPoll.countPoll false
  | .lost => s.setThermal (fun h => { h with lostPoll := put h.lostPoll half s.now })

/-- The Lantern of a half runs in this device. -/
def State.lanternHalf (s : State) (half : Nat) : Bool :=
  s.lanternOn && (if half = 0 then s.geo.hasW else s.geo.hasE) && (s.railsOf half).vaon

/-- A poll is due (17_module_electrical.md R482): W every 5 ms of its own count; E 2.5 ms after each W poll it sees, and every 5 ms on
its own count when it has seen none for 10 ms. -/
def State.pollDue (s : State) (half : Nat) : Bool :=
  let since (h n : Nat) : Bool := match look? s.thermal.lastPoll h with
    | some t => decide (t + n ≤ s.now)
    | none => true
  if half = 0 then since 0 (ms 5)
  else match look? s.thermal.lastPoll 0 with
    | none => since 1 (ms 5)
    | some w =>
      if w + ms 10 ≤ s.now then since 1 (ms 5)
      else decide (w + us 2500 ≤ s.now) && (match look? s.thermal.lastPoll 1 with
        | some e => decide (e ≤ w)
        | none => true)

/-- TRAY_POLL (R313, R482). -/
def execTrayPoll (half : Fin 2) (reply : TrayReply) (s : State) : Host.Outcome State Fault Refusal :=
  .next (if s.lanternHalf half && s.pollDue half then
    settle s ((s.setThermal (fun h => { h with lastPoll := put h.lastPoll half s.now, lostPoll := del h.lostPoll half })).endPoll half reply)
  else s)

/-- TRAY_POLL_RETRY: 200 µs after a lost arbitration the same poll is made again (17_module_electrical.md R482). -/
def execTrayPollRetry (half : Fin 2) (reply : TrayReply) (s : State) : Host.Outcome State Fault Refusal :=
  .next (match look? s.thermal.lostPoll half with
    | some t =>
      if s.lanternHalf half && decide (t + us 200 ≤ s.now) then
        settle s ((s.setThermal (fun h => { h with lostPoll := del h.lostPoll half })).endPoll half reply)
      else s
    | none => s)

/-- Density of the fluid in g/L: water 1,000, as the rise of 21.5 K in R315 gives; PG25's is not stated (notes/assumptions/34.md). -/
def State.density (s : State) : Nat := if s.settings.clPg25 then Config.pg25Density else 1000

/-- c_p of the fluid in J/(kg·K) (R314). -/
def State.heatCap (s : State) : Nat := if s.settings.clPg25 then 3950 else 4180

/-- The calorimetric rise P / (ṁ × c_p) in K. -/
def State.calRise (s : State) (flow : Nat) : Rat :=
  ((s.power.inputW.toNat * 60000000 : Nat) : Rat) / ((flow * s.density * s.heatCap : Nat) : Rat)

/-- CALORIMETRIC_CHECK (R314): with input power above 25 % of the limit for 10 s, a coolant rise that differs from the calorimetric one by
more than 3 K + 30 % sets COOLANT_SENSOR and writes an event record. -/
def execCalorimetricCheck (s : State) : Host.Outcome State Fault Refusal :=
  .next (match s.power.above25Since, s.thermal.inlet, s.thermal.outlet, s.thermal.flow with
    | some t, some i, some o, some f =>
      let c := s.calRise f
      let rise := deg (o - i)
      let off := if c ≤ rise then rise - c else c - rise
      if s.heatOn && decide (t + ms 10000 ≤ s.now) && decide (0 < f) && decide (3 + c * 3 / 10 < off) then
        (s.setThermal (fun h => { h with coolantSensor := true })).postArgs 0x0206 s.lead 1
          (ofInt 16 i + 65536 * ofInt 16 o + 2 ^ 32 * f) (ofInt 64 (c * 16).floor) 0
      else s
    | _, _, _, _ => s)

end Sys2Proof.Machine
end

