-- ==== Sys2Proof/Machine/Resets.lean ====
section
/-! DEFINITION. Compute reset, warm and cold pitch by command, MOD_RESET_N, watchdog resets and the loss of a half (14_pitch.md R403 to
R407, 16_faults_blast_radius.md R448 to R451, 11_heat_path.md R312). -/

namespace Sys2Proof.Machine

open Sys2Proof

/-! ## RESET_DEVICE (R403, R404, R406) -/

/-- Slots read FREE and MB_NEXT_SEQ 0; the counters of the intakes stay (Table 14-9 step 4). A Strike slot sealed before and not yet taken
keeps its bytes until it is. -/
def State.freeSlots (s : State) : State :=
  { s with intakes := s.intakes.map (fun e => (e.1, { e.2 with
      slots := e.2.slots.filter (fun x => s.warden.sealed.any (fun y => decide (y.ctrl.val = e.1) && decide (y.slot = x.1 / 256)))
      nextSeq := 0
      received := [] })) }

/-- A compute reset begins (Table 14-9 step 1): everything is struck but the reset command itself. -/
def Adm.computeReset (a : Adm) (s : State) : State :=
  let t := (s.strikeEverything .struck (strikeDetail (mbSeq a.b) a.ctrl) [a.tag]).freeSlots
  (t.setLantern (fun l => { l with
    kind := 2
    start := ((s.cmd a.tag).map (·.sealedAt)).getD s.now
    job := some { kind := 0, full := false, tag := some a.tag, since := s.now } })).toStage 0xB

/-- A warm or cold pitch by command (R404): everything is struck, this command's own record is DONE, and the pitch waits for the
records. -/
def Adm.pitch (a : Adm) (s : State) : State :=
  let t := s.strikeEverything .struck (strikeDetail (mbSeq a.b) a.ctrl) [a.tag]
  (a.done t).askReset (field a.b 24 1) (decide (field a.b 25 1 = 1)) none

/-- RESET_DEVICE. -/
def execResetDevice (ctrl : Fin 4) (slot : Fin 1024) (s : State) : Host.Outcome State Fault Refusal :=
  .next (settle s (s.serve 0x0401 ctrl slot (fun a t => a.checked t
    [(decide (2 < field a.b 24 1), .rejectFormat, 24), (decide (1 < field a.b 25 1), .rejectFormat, 25)]
    (fun t => if field a.b 24 1 = 0 then a.computeReset t else a.pitch t))))

/-- Merge buffers and dirty lines are written out and every slice is emptied (Table 14-9 step 3). -/
def State.flushStores (s : State) : State :=
  let t := s.mem.vaults.foldl (fun (t : State) e => t.flushMerge e.1) s
  let u := t.mem.slices.foldl (fun (u : State) e =>
    (e.2.lines.foldl (fun (x : State) l => x.evict l) u).setSlice e.1 (fun c => { c with bad := [] })) t
  u.mem.vaults.foldl (fun (t : State) e => t.flushMerge e.1) u

/-- Sealed ranges are zeroed and released (15_trust_and_firmware.md R421). -/
def State.releaseRanges (s : State) : State := s.trust.ranges.foldl (fun (t : State) r => t.releaseRange r) s

/-- Cores and bank units come out of reset: core stores, tiles and unit state are lost, sequences and the Bivouac setting end, the
check-value channels return to reset (Table 14-8, 05_attention_kv_cache.md R142, 16_faults_blast_radius.md R442). The count of
Bivouac nonces goes on, since the key stays (05_attention_kv_cache.md Table 05-10). -/
def State.resetUnits (s : State) : State :=
  { s with
    mem := { s.mem with vaults := s.mem.vaults.map (fun e => (e.1, { e.2.clearSeq with
      queue := [], held := [], back := [], merge := [], pausedUntil := none, lastTag := none, lastMasks := [] })) }
    cores := { cores := s.cores.cores.map (fun e => (e.1, ({ arrays := e.2.arrays } : Core))) }
    kv := { nonce := s.kv.nonce }
    cv := [] }

/-- The Warden cores of every cluster run again. -/
def State.restartWarden (s : State) : State :=
  s.clusters.foldl (fun (u : State) c =>
    (u.setIc c (fun i => { i with coreEn := 0xFF, coreAwake := 0xFF, accepting := 0xFF, handling := [] })).setWdog c (fun w =>
      { w with lastBeat := u.now, periodMs := u.settings.wdPeriodMs, warned := false, inReset := false })) s

/-- Cores that fail retire their pairs, cause 2 (Table 14-9 step 6). -/
def State.retireFailed (s : State) (failed : List (Fin 1024)) : State :=
  (failed.filter (fun p => s.pairPresent p)).foldl (fun (t : State) p => t.losePair p 2) s

/-- COMPUTE_RESET_COMPLETE (R403): once every record is written or waiting; firmware that no longer measures as at pitch begins a warm
pitch instead. -/
def execComputeResetComplete (fwOk : Bool) (failedCores : List (Fin 1024)) (s : State) : Host.Outcome State Fault Refusal :=
  .next (match s.lantern.job with
    | some j =>
      if s.computeReset && decide (j.kind = 0) && s.warden.strikes.isEmpty then
        if !fwOk then s.askReset 1 false none
        else
          let t := ((s.flushStores.releaseRanges.resetUnits).retireFailed failedCores).restartWarden
          let u := (t.setLantern (fun l => { l with job := none })).toStage 0xF
          settle s (match j.tag with
            | some g => u.endCmd g { status := .done, result := BitVec.ofNat 64 ((s.now - s.lantern.start) / 1000) }
            | none => u)
      else s
    | none => s)

/-- Every record has been written: none is left, and no command without one. -/
def State.recordsGone (s : State) : Bool := s.warden.strikes.isEmpty && s.warden.tags.isEmpty && s.warden.records.isEmpty

/-- RESET_PITCH_START (R404): the pitch asked for begins once the records are written, or after 2 ms. -/
def execResetPitchStart (s : State) : Host.Outcome State Fault Refusal :=
  .next (match s.lantern.job with
    | some j =>
      if decide (1 ≤ j.kind) && !s.board.resetLow && (s.recordsGone || decide (j.since + ms 2 ≤ s.now)) then
        settle s (if j.kind = 1 then s.startWarm j.full false else s.dropForCold j.full)
      else s
    | none => s)

/-- The record of a command has been written or delivered. -/
def State.recordGone (s : State) (tag : Nat) : Bool :=
  !s.warden.tags.any (fun c => decide (c.tag = tag)) && !s.warden.records.any (fun r => decide (r.tag = some tag))

/-- THERMAL_CLEAR_PITCH_START (11_heat_path.md R312): the cold pitch begins once the clear's record is written, or after 2 ms. -/
def execThermalClearPitchStart (s : State) : Host.Outcome State Fault Refusal :=
  .next (match s.lantern.clearing with
    | some (g, t) => if s.recordGone g || decide (t + ms 2 ≤ s.now) then settle s (s.dropForCold false) else s
    | none => s)

/-- COLD_PITCH_RAILS_RETURN (R404): 200 ms after its rails dropped the device begins stage 1. -/
def execColdPitchRailsReturn (s : State) : Host.Outcome State Fault Refusal :=
  .next (match s.lantern.railsDropped with
    | some t =>
      if decide (s.lantern.stage = 0) && s.board.inputOn && decide (t + ms 200 ≤ s.now) then settle s (s.startCold s.lantern.full false) else s
    | none => s)

/-! ## MOD_RESET_N (R404, R405, 17_module_electrical.md R472) -/

/-- A cold pitch stands before the end of stage 2: MOD_RESET_N only makes it wait there (17_module_electrical.md R472). -/
def State.coldWaits (s : State) : Bool :=
  decide (s.lantern.kind = 0) && (decide (s.lantern.stage = 1) || decide (s.lantern.stage = 2))

/-- Every domain but the Lantern is held in reset: work is lost and no record is written. -/
def State.holdReset (s : State) : State :=
  { s with
    ports := s.freshPorts
    intakes := []
    warden := {}
    cores := {}
    kv := {}
    cv := []
    links := s.freshLinks
    far := {}
    trust := { s.trust with loaded := false, ranges := [], bivKey := none }
    lantern := { s.lantern with job := s.lantern.job.filter (fun j => decide (j.kind = 2)), clearing := none } }

/-- MOD_RESET_N has been low for 10 µs. -/
def execModResetNAssert (s : State) : Host.Outcome State Fault Refusal :=
  .next (if s.board.resetLow then s
    else
      let t := { s with board := { s.board with resetLow := true } }
      if t.lantern.stage = 0 ∨ t.coldWaits then t else settle s t.holdReset)

/-- MOD_RESET_N is released: a waiting cold pitch goes on, else a warm pitch of both halves begins; a cold pitch asked for prevails
(R405). -/
def execModResetNRelease (s : State) : Host.Outcome State Fault Refusal :=
  .next (if !s.board.resetLow then s
    else
      let t := { s with board := { s.board with resetLow := false } }
      settle s (if t.board.waitingReset then State.gate { t with board := { t.board with waitingReset := false } }
        else if t.lantern.stage = 0 ∨ t.coldWaits then t
        else match t.lantern.job with
          | some j => t.dropForCold j.full
          | none => t.startWarm false true))

/-! ## Watchdog resets (16_faults_blast_radius.md R448, R449) -/

/-- Watchdog resets of a cluster within the last 10 min. -/
def State.recentResets (s : State) (c : Nat) : List Nat := (s.wdog c).resets.filter (fun t => decide (s.now < t + ms 600000))

/-- WATCHDOG_RESET: WD_PERIOD has passed without a heartbeat. The third within 10 min starts a warm pitch; one during a trial fails it. -/
def execWatchdogReset (cluster : Fin 2) (s : State) : Host.Outcome State Fault Refusal :=
  let w := s.wdog cluster
  .next (if s.watched cluster && decide (w.lastBeat + ms w.periodMs ≤ s.now) then
    let l := s.now :: s.recentResets cluster
    let t := (s.setWdog cluster (fun w => { w with inReset := true, resets := l })).postArgs 0x0601 cluster 2 cluster l.length 0
    settle s (if (s.trust.slotIn .trial).isSome then t.failTrial 4
      else if l.length = 3 then (t.postArgs 0x0602 cluster 3 cluster 3 0).strikeForPitch false
      else t)
  else s)

/-- WATCHDOG_RESTART (Table 16-7 steps 3 and 4): firmware that measures otherwise begins a warm pitch; the commands whose state fails its
check end FIRMWARE_FAULT with detail 1, by the path of R268. -/
def execWatchdogRestart (cluster : Fin 2) (fwOk : Bool) (badTags : List Nat) (s : State) : Host.Outcome State Fault Refusal :=
  .next (if s.clusters.contains cluster.val && (s.wdog cluster).inReset then
    if !fwOk then s.strikeForPitch false
    else
      let t := (s.setWdog cluster (fun w => { w with inReset := false, lastBeat := s.now, periodMs := s.settings.wdPeriodMs, warned := false })).setIc cluster
        (fun i => { i with coreEn := 0xFF, coreAwake := 0xFF, accepting := 0xFF, handling := [] })
      let bad := badTags.filter (fun g => (t.cmd g).isSome)
      settle s (if bad.isEmpty then t else (t.markStruck bad .firmwareFault 1).addJob { tags := bad, slotCount := 0, own := none })
  else s)

/-! ## Loss of a half (16_faults_blast_radius.md R450, R451) -/

/-- The Seam is silent: no module in service, no sideband answer, nothing heard for 10 ms. -/
def State.seamSilent (s : State) : Bool :=
  s.seam.mods.all (fun e => decide (e.2.state = .out) && !e.2.sideband) && !s.seam.mods.isEmpty && decide (s.seam.lastHeard + ms 10 ≤ s.now)

/-- HALF_LOSS_DETECT: every command ends LINK_DOWN, HALF_LOST is written, and the surviving half begins a full warm pitch when it is W, or
E under an owner on its own port; else it stops. When W is lost the I3C target of E comes without an address. -/
def execHalfLossDetect (s : State) : Host.Outcome State Fault Refusal :=
  .next (if s.twin && decide (s.geo.mode = 0) && s.lantern.stage8 && !s.lantern.halfLost && s.lantern.job.isNone && s.seamSilent then
    let east := !s.board.railsW.vbaseSb
    let on := !east || (s.own.valid && decide (s.own.id = 1))
    let t := (s.strikeEverything .linkDown 0x1E []).postArgs 0x0306 (ofBool east) 3 (ofBool (!east)) (ofBool on) 0
    let u : State := { t with
      geo := { t.geo with hasW := !east, hasE := east }
      i3c := if east then {} else t.i3c
      lantern := { t.lantern with halfLost := !on, wasHalfTwin := if on then some (if east then .e else .w) else none } }
    settle s (if on then u.askReset 1 true none else u)
  else s)

end Sys2Proof.Machine
end

