-- ==== Sys2Proof/Machine/Seam.lean ====
section
/-! DEFINITION. The Seam: frames, replay, lane sparing, width agreement, discovery (12_silman_and_seam.md R355 to R366). -/

namespace Sys2Proof.Machine

open Sys2Proof

/-! ## Modules leaving service (R363, R366) -/

/-- Bits of SEAM_WIDTH's first argument: module, width, half, cause (notes/assumptions/30.md). -/
def State.seamArg (s : State) (m cause : Nat) : Nat :=
  let x := s.seamMod m
  m + 256 * (if x.state = .out then 0 else x.width) + 65536 * x.half.code + 2 ^ 24 * cause

/-- SEAM_EVENT and a SEAM_WIDTH event record. -/
def State.seamEvent (s : State) (m cause : Nat) : State := (s.raise 38).postArgs 0x0304 m 1 (s.seamArg m cause) 0 0

/-- Operations whose Seam traffic a change slowed end DONE_DEGRADED (01_seven_levels.md R40); which of those in flight had traffic on the
module is not stated: a free choice for each (notes/assumptions/10.md). -/
def State.slowSeam (s : State) : State := if s.twin then s.mayDegrade else s

/-- Twin mode with fewer than 8 modules in service (R366): every command ends LINK_DOWN, an event record is written, a warm pitch
begins. A Split half with none sets SEAM_LOST. -/
def State.checkSeam (s : State) (m : Nat) : State :=
  if s.geo.mode = 0 ∧ s.seamServing < 8 ∧ s.lantern.stage8 ∧ s.lantern.job.isNone then
    ((s.strikeEverything .linkDown 0x1E []).seamEvent m 3).askReset 1 false none
  else if s.geo.mode = 1 ∧ s.seamServing = 0 then s.setLantern (fun l => { l with seamLost := true })
  else s

/-- Frames not delivered on a module that left are sent again, in order, on the lowest module in service (R362). -/
def State.moveFrames (s : State) (m : Nat) : State :=
  match s.seamUp.head? with
  | none => s
  | some n => ((s.seamMod m).replayBuf.map (fun e => e.2.take 0xE0) ++ (s.seamMod m).waiting).foldl (fun (t : State) h => t.sendFrame n h)
      (s.setSeamMod m (fun x => { x with replayBuf := [], waiting := [] }))

/-- A module leaves service. -/
def State.seamOut (s : State) (m : Nat) : State :=
  let t := (s.setSeamMod m (fun x => { x with state := .out, requested := false })).slowSeam
  ((t.geoChange 5 m).seamEvent m 2).checkSeam m

/-- A module begins to retrain (R363, R364); it counts as in service. -/
def State.seamRetrain (s : State) (m : Nat) (requested : Bool) : State :=
  s.setSeamMod m (fun x => { x with state := .retraining, requested := requested, peerAdvert := none, retrains := satSucc x.retrains })

/-- This side's advertisement (R364): after a reset of its logic, full width and no failed lanes. -/
def State.sendAdvert (s : State) (m : Nat) : State :=
  s.emit (.seamAdvert (Fin.ofNat 16 m) (s.seamMod m).advert (s.seamMod m).failed)

/-- This side asks for a retrain, and advertises. -/
def State.askRetrain (s : State) (m : Nat) : State :=
  ((s.seamRetrain m true).emit (.seamRetrain (Fin.ofNat 16 m))).sendAdvert m

/-- Something was heard over the Seam. -/
def State.heard (s : State) : State := { s with seam := { s.seam with lastHeard := s.now } }

/-! ## Lanes (R363) -/

/-- A half of a module without a lane of the set. -/
def freeHalf (failed : BitVec 64) : Option SeamHalf :=
  if failed.toNat % 2 ^ 32 = 0 then some .low else if failed.toNat / 2 ^ 32 = 0 then some .high else none

/-- A lane lies in the half in use. -/
def SeamMod.usesLane (x : SeamMod) (lane : Nat) : Bool :=
  match x.half with
  | .full => true
  | .low => decide (lane < 32)
  | .high => decide (32 ≤ lane)

/-- A failing lane (R363): a spare of its direction; else the 32-lane half without a failing lane; else the module leaves service. Each
step is kept in the overlay (14_pitch.md Table 14-7). -/
def State.laneFails (s : State) (m lane : Nat) (eToW : Bool) : State :=
  let x := s.seamMod m
  let spares := if eToW then x.sparesEW else x.sparesWE
  let code := lane + 64 * ofBool eToW
  let failed := x.failed ||| BitVec.ofNat 64 (2 ^ lane)
  if 0 < spares then
    let t := s.appendOverlay 8 0xFF 0xFF m (code + 128 * (4 - spares))
    ((t.setSeamMod m (fun y => if eToW then { y with sparesEW := y.sparesEW - 1 } else { y with sparesWE := y.sparesWE - 1 })).seamRetrain m false).sendAdvert m
  else if x.width = 64 then
    let t := (s.appendOverlay 8 0xFF 0xFF m (code + 128 * 7)).setSeamMod m (fun y =>
      { y with width := 32, advert := 32, failed := failed, half := (freeHalf failed).getD .low })
    (((t.slowSeam).geoChange 4 m).seamEvent m 1).seamRetrain m false |>.sendAdvert m
  else ((s.appendOverlay 9 0xFF 0xFF m 0).setSeamMod m (fun y => { y with failed := failed })).seamOut m

/-- SEAM_LANE_FAIL. -/
def execSeamLaneFail (mod : Fin 16) (lane : Fin 64) (eToW : Bool) (s : State) : Host.Outcome State Fault Refusal :=
  let x := s.seamMod mod
  .next (if x.state ≠ .out ∧ x.usesLane lane then settle s (s.laneFails mod lane eToW) else s)

/-- SEAM_SIDEBAND_FAIL: a module whose sideband fails leaves service (R356). -/
def execSeamSidebandFail (mod : Fin 16) (s : State) : Host.Outcome State Fault Refusal :=
  let t := s.setSeamMod mod (fun x => { x with sideband := false })
  .next (if (s.seamMod mod).state ≠ .out then settle s (t.seamOut mod) else t)

/-- SEAM_LOGIC_RESET: the module's logic on this side returns to full width with no failed lanes; its replay state survives (R364). -/
def execSeamLogicReset (mod : Fin 16) (s : State) : Host.Outcome State Fault Refusal :=
  .next (if (s.seamMod mod).state ≠ .out then
    s.setSeamMod mod (fun x => { x with advert := 64, failed := 0, peerAdvert := none, logicReset := true })
  else s)

/-! ## Frames (R359 to R362) -/

/-- The width tag this side expects and sends (R359). -/
def SeamMod.tag (x : SeamMod) : BitVec 2 :=
  if x.logicReset then 1
  else match x.half with
    | .full => 1
    | .low => 2
    | .high => 3

/-- The frames before a number have arrived at the other side and leave the replay buffer (R361). -/
def SeamMod.acked (x : SeamMod) (next : BitVec 16) : SeamMod :=
  { x with replayBuf := x.replayBuf.dropWhile (fun e => decide (((next - e.1).toNat - 1) < 64 ∧ e.1 ≠ next)) }

/-- Ask for the frames from the next expected on (R361). -/
def State.askFrames (s : State) (m : Nat) : State :=
  (s.setSeamMod m (fun x => { x with replays := satSucc x.replays })).emit (.seamReceive (Fin.ofNat 16 m) (s.seamMod m).rxNext)

/-- What the other half of a Split module tells acts here (14_pitch.md R407, 15_trust_and_firmware.md R433): also its coolant
shutdown, which takes this half too (11_heat_path.md R310). In Twin mode both Lanterns' state is this one state. -/
def State.told (s : State) (kind : Nat) : State :=
  let asks (b : Bool) : State :=
    if s.lantern.modeReq = some b then
      (s.setSettings (fun x => { x with modeSplit := b })).setLantern (fun l => { l with modeReq := none, modeReqPeer := none })
    else s.setLantern (fun l => { l with modeReqPeer := some b })
  if s.geo.mode ≠ 1 then s
  else match kind with
    | 1 => asks false
    | 2 => asks true
    | 3 => s.failTrial 7
    | 4 => (match s.trust.slotIn .trial with
      | some b => s.commit b
      | none => s)
    | 6 | 7 | 8 | 9 => if s.heatOn && !s.latchStands then s.shutdown (kind - 4) false 0 0 else s
    | _ => s

/-- A message on SV0 arrives: its second copy is dropped by its number (R360). The numbers of the last 64 messages are kept. -/
def State.takeMirror (s : State) (bs : List Byte) : State :=
  let n : BitVec 16 := BitVec.ofNat 16 (Config.mirrorNumber bs)
  if s.seam.sv0Seen.contains n then s
  else State.told { s with seam := { s.seam with sv0Seen := (n :: s.seam.sv0Seen).take 64 } } (Config.mirrorKind bs)

/-- A frame at the agreed width: CRC and parity, then go-back-N over SF_SEQ (R359, R361). -/
def State.takeFrame (s : State) (m : Nat) (parityOk : Bool) (bs : List Byte) : State :=
  let x := s.seamMod m
  let seq : BitVec 16 := BitVec.ofNat 16 (field bs 0xE4 2)
  if !parityOk || decide (bs.length ≠ 232) || decide (crc32c (bs.take 0xE0) ≠ field bs 0xE0 4) then s.askFrames m
  else
    let t := (s.setSeamMod m (fun y => y.acked (BitVec.ofNat 16 (field bs 0xE6 2)))).drainSeam m
    if seq = x.rxNext then
      let u := t.setSeamMod m (fun y => { y with rxNext := y.rxNext + 1 })
      if field bs 0 1 % 4 = 0 then u.takeMirror (bs.take 0xE0) else u
    else if (x.rxNext - seq).toNat ≤ seamReplayRoom then t
    else t.askFrames m

/-- SEAM_FRAME: a width tag that differs from the agreed width and half discards the frame unacknowledged and asks for a retrain
(R364). -/
def execSeamFrame (mod : Fin 16) (wt : BitVec 2) (parityOk : Bool) (content : List (BitVec 8)) (s : State) : Host.Outcome State Fault Refusal :=
  let x := s.seamMod mod
  .next (if x.state ≠ .inService then s
    else if wt ≠ x.tag then s.heard.askRetrain mod
    else settle s (s.heard.takeFrame mod parityOk content))

/-! ## Retraining (R364) -/

/-- SEAM_RETRAIN_REQUEST: requests from both sides start one retrain. -/
def execSeamRetrainRequest (mod : Fin 16) (s : State) : Host.Outcome State Fault Refusal :=
  let x := s.seamMod mod
  .next (match x.state with
    | .inService => (s.heard.seamRetrain mod true).sendAdvert mod
    | .retraining => s.heard.setSeamMod mod (fun y => { y with requested := true })
    | .out => s)

/-- SEAM_WIDTH_ADVERT: the other side's width and failed lanes. -/
def execSeamWidthAdvert (mod : Fin 16) (width : Nat) (failed : BitVec 64) (s : State) : Host.Outcome State Fault Refusal :=
  .next (if (s.seamMod mod).state = .retraining then s.heard.setSeamMod mod (fun x => { x with peerAdvert := some (width, failed) }) else s)

/-- SEAM_RECEIVE_STATE: the other side's next expected number; the frames it lacks are sent again, on this module, or on another when the
module leaves service (R362, R364). -/
def execSeamReceiveState (mod : Fin 16) (nextSeq : BitVec 16) (s : State) : Host.Outcome State Fault Refusal :=
  let t := s.heard.setSeamMod mod (fun x => x.acked nextSeq)
  .next (if (t.seamMod mod).replayBuf.isEmpty then t.drainSeam mod
    else if (t.seamMod mod).state = .out then t.moveFrames mod
    else ((t.seamMod mod).replayBuf.foldl (fun (u : State) e => u.emit (.seamFrame mod e.2)) (t.setSeamMod mod (fun x =>
      { x with replays := satSucc x.replays }))).drainSeam mod)

/-- The width and half both sides can use: the lesser advertisement, on a half without a lane that either side holds failed or the training
pattern found so (R364). -/
def agreedWidth (mine theirs : Nat) (failed : BitVec 64) : Option (Nat × SeamHalf) :=
  if 64 ≤ min mine theirs ∧ failed = 0 then some (64, .full) else (freeHalf failed).map (fun h => (32, h))

/-- The module takes up the agreed width: a change of width or half shows in the geometry and in an event, a requested retrain in an
event (R363, R364, Table 12-7). -/
def State.agree (s : State) (m : Nat) (w : Nat) (h : SeamHalf) (failed : BitVec 64) : State :=
  let x := s.seamMod m
  let t := s.setSeamMod m (fun y => { y with
    state := .inService, width := w, half := h, requested := false, logicReset := false
    advert := if y.failed ||| failed = 0 then y.advert else w })
  let u := if w ≠ x.width then (t.slowSeam).geoChange 4 m else t
  let v := if w ≠ x.width ∨ h ≠ x.half ∨ x.requested then u.seamEvent m (if x.requested then 4 else 1) else u
  v.emit (.seamReceive (Fin.ofNat 16 m) x.rxNext)

/-- SEAM_RETRAIN_COMPLETE: the training pattern has ended, naming the lanes it found failed. -/
def execSeamRetrainComplete (mod : Fin 16) (foundFailed : BitVec 64) (s : State) : Host.Outcome State Fault Refusal :=
  let x := s.seamMod mod
  .next (if x.state = .retraining then
    match x.peerAdvert with
    | some (w, f) =>
      let failed := x.failed ||| f ||| foundFailed
      settle s (match agreedWidth x.advert w failed with
        | some (n, h) => (s.setSeamMod mod (fun y => { y with failed := y.failed ||| foundFailed })).agree mod n h foundFailed
        | none => s.seamOut mod)
    | none => s
  else s)

/-! ## Discovery (R358) -/

/-- SEAM_DISCOVERY_RECORD: the other die's record at stage 4. -/
def execSeamDiscoveryRecord (rec : Discovery) (s : State) : Host.Outcome State Fault Refusal :=
  .next (if s.lantern.stage = 4 then { s with seam := { s.seam with peer := some rec, lastHeard := s.now } } else s)

/-- SEAM_NO_PEER: no record within 50 ms of the start of stage 4. -/
def execSeamNoPeer (s : State) : Host.Outcome State Fault Refusal :=
  .next (if decide (s.lantern.stage = 4) && s.seam.peer.isNone && decide (s.seam.searchFrom + ms 50 ≤ s.now) then
    { s with seam := { s.seam with noPeer := true } }
  else s)

end Sys2Proof.Machine
end

