-- ==== Sys2Proof/Machine/Firmware.lean ====
section
/-! DEFINITION. Firmware images, trust policy and sealed weights (15_trust_and_firmware.md R418 to R436). -/

namespace Sys2Proof.Machine

open Sys2Proof

/-! ## The manifest (Table 15-5, R423) -/

/-- Bytes of a block. -/
def fwBlockBytes : Nat := 65536

/-- MF_BLOCKS of block 0. -/
def mfBlocks (m : List Byte) : Nat := field m 8 2

/-- A manifest is valid (R423): its key is one of four and not revoked, its signature verifies, it does not revoke its own key, MF_BLOCKS is
in range. -/
def manifestOk (revoked : BitVec 4) (m : List Byte) : Bool :=
  let k := field m 0x0C 1
  decide (k < 4) && !revoked.getLsbD k && !bit (field m 0x0D 1) k && decide (1 ≤ mfBlocks m) && decide (mfBlocks m ≤ 1023)
    && Config.fwVerify k (m.take 0x8060) ((m.drop 0x8060).take 1280)

/-- A block of a slot is written and its stored CRC-32C holds. -/
def FwSlot.blockHolds (f : FwSlot) (i : Nat) : Bool :=
  match look? f.blocks i with
  | some (b, c) => decide (crc32c b = c.toNat)
  | none => false

/-- The verification of a slot: the first check that fails (R425). -/
def State.verifySlot (s : State) (f : FwSlot) : Option Reason :=
  let m := f.block 0
  let n := mfBlocks m
  if !((List.range (n + 1)).all f.blockHolds && f.blocks.all (fun e => f.blockHolds e.1)) then some .crcFail
  else if !manifestOk s.fuses.revoked m then some .signature
  else if field m 4 4 ≤ s.trust.arb.toNat then some .rollback
  else if !(List.range n).all (fun i => decide (Config.shake256 (f.block (i + 1)) 32 = (m.drop (0x80 + 32 * i)).take 32)) then some .blockHash
  else none

/-- The inactive slot: the one that does not run; in recovery the one that is not COMMITTED (R424, R434). -/
def Trust.inactive (t : Trust) : Bool :=
  if t.fwState = .recovery then decide (t.slotA.state = .committed) else !t.runB

/-- Firmware commands are closed while a slot is PENDING or TRIAL (R424), and on the E half of a Split module (R433). -/
def State.fwClosed (s : State) : Bool := (s.trust.slotIn .pending).isSome || (s.trust.slotIn .trial).isSome

/-- The E half of a Split module. -/
def State.fwElsewhere (s : State) : Bool := decide (s.geo.mode = 1) && !s.geo.hasW

/-- A slot with a block stored: EMPTY; block 0 gives what the manifest says of the image. -/
def FwSlot.store (f : FwSlot) (i : Nat) (bs : List Byte) (crc : Nat) : FwSlot :=
  let g := { f with state := .empty, blocks := put f.blocks i (bs, BitVec.ofNat 32 crc) }
  if i = 0 then
    { g with
      version := BitVec.ofNat 32 (field bs 4 4), settingsFmt := BitVec.ofNat 16 (field bs 0x0A 2), ifaceRev := BitVec.ofNat 16 (field bs 2 2)
      revoke := BitVec.ofNat 4 (field bs 0x0D 1) }
  else g

/-- FW_WRITE (R424): a block whose CRC-32C is not FW_CRC is refused before it is programmed. -/
def execFwWrite (ctrl : Fin 4) (slot : Fin 1024) (s : State) : Host.Outcome State Fault Refusal :=
  .next (s.serve 0x0510 ctrl slot (fun a t => a.checked t
    [(a.noPort, .rejectFormat, noField), (decide (1023 < field a.b 24 2), .rejectFormat, 24),
     (t.fwClosed || t.fwElsewhere, .rejectState, noField)]
    (fun t =>
      if !(t.port a.ctrl).linkUp then a.finish t { status := .linkDown, detail := 0x1F }
      else
        let bs := t.hostRead a.ctrl (field a.b 32 8) fwBlockBytes
        if crc32c bs ≠ field a.b 28 4 then a.finish t (refused .crcFail)
        else a.done (t.setTrust (fun r => r.setSlot r.inactive (fun f => f.store (field a.b 24 2) bs (field a.b 28 4)))))))

/-- FW_STAGE verifies the inactive slot (R425). -/
def execFwStage (ctrl : Fin 4) (slot : Fin 1024) (s : State) : Host.Outcome State Fault Refusal :=
  .next (s.serve 0x0511 ctrl slot (fun a t => a.checked t [(t.fwClosed || t.fwElsewhere, .rejectState, noField)]
    (fun t => match t.verifySlot (t.trust.slot t.trust.inactive) with
      | some r => a.finish t (refused r)
      | none => a.done (t.setTrust (fun r => r.setSlot r.inactive (fun f => { f with state := .staged }))))))

/-- FW_ACTIVATE: the STAGED slot boots as a trial at the next pitch (Table 15-6). -/
def execFwActivate (ctrl : Fin 4) (slot : Fin 1024) (s : State) : Host.Outcome State Fault Refusal :=
  .next (s.serve 0x0512 ctrl slot (fun a t => a.checked t
    [(t.fwClosed || t.fwElsewhere || decide ((t.trust.slot t.trust.inactive).state ≠ .staged), .rejectState, noField)]
    (fun t => a.done (t.setTrust (fun r => r.setSlot r.inactive (fun f => { f with state := .pending }))))))

/-- FW_COMMIT: only at READY in a trial (R429); one commit serves both halves of a Split module (R433). -/
def execFwCommit (ctrl : Fin 4) (slot : Fin 1024) (s : State) : Host.Outcome State Fault Refusal :=
  .next (settle s (s.serve 0x0513 ctrl slot (fun a t => a.checked t
    [(!t.ready || decide (t.trust.fwState ≠ .trial) || t.fwElsewhere, .rejectState, noField)]
    (fun t => match t.trust.slotIn .trial with
      | some b => a.done ((t.commit b).tell .committed)
      | none => a.finish t { status := .rejectState, detail := faultAt .slot noField }))))

/-- FW_ABANDON: a PENDING slot returns to STAGED, a trial fails, else nothing is to be done (R431). -/
def execFwAbandon (ctrl : Fin 4) (slot : Fin 1024) (s : State) : Host.Outcome State Fault Refusal :=
  .next (settle s (s.serve 0x0514 ctrl slot (fun a t => a.checked t [(t.fwElsewhere, .rejectState, noField)]
    (fun t =>
      if (t.trust.slotIn .trial).isSome then (a.done t).failTrial 5
      else match t.trust.slotIn .pending with
        | some b => a.done (t.setTrust (fun r => r.setSlot b (fun f => { f with state := .staged })))
        | none => a.finish t { status := .doneEmpty }))))

/-- TRIAL_TIMEOUT: READY not reached within 30 s of the pitch's start fails the trial; a halt with MODE_MISMATCH does not (R428). -/
def execTrialTimeout (s : State) : Host.Outcome State Fault Refusal :=
  .next (match s.trust.trialStart with
    | some t =>
      if decide (s.trust.fwState = .trial) && !s.trust.trialReady && decide (t + ms 30000 ≤ s.now) && s.lantern.job.isNone
          && !(s.halted && decide (s.lantern.halt = 1)) then settle s (s.failTrial 3)
      else s
    | none => s)

/-- TRUST_POLICY (R418). -/
def execTrustPolicy (ctrl : Fin 4) (slot : Fin 1024) (s : State) : Host.Outcome State Fault Refusal :=
  .next (s.serve 0x0520 ctrl slot (fun a t => a.checked t [(decide (1 < field a.b 28 1), .rejectFormat, 28)]
    (fun t => a.done (t.setSettings (fun x =>
      { x with tpMinFw := BitVec.ofNat 32 (field a.b 24 4), tpSameFw := decide (field a.b 28 1 = 1) })))))

/-! ## Sealed weights (R419 to R421) -/

/-- Bytes of a sealed object's header. -/
def sealHeader : Nat := 2048

/-- Plaintext bytes of a chunk. -/
def chunkBytes : Nat := 65536

/-- Chunks of a plaintext length. -/
def chunkCount (n : Nat) : Nat := (n + chunkBytes - 1) / chunkBytes

/-- Bytes of a whole object. -/
def objectBytes (n : Nat) : Nat := sealHeader + n + 16 * chunkCount n

/-- The range an object opens, in whole 4 KiB blocks. -/
def rangeBytes (n : Nat) : Nat := (n + 4095) / 4096 * 4096

/-- Read the source of an unseal in its space (R252). -/
def Adm.readSource (a : Adm) (s : State) (off n : Nat) : List Byte × Io :=
  let src := field a.b 32 8 + off
  if field a.b 24 1 = 1 then s.load { tag := a.tag } src n
  else if (s.port a.ctrl).linkUp then (s.hostRead a.ctrl src n, { s := s })
  else ([], { s := s, stop := some { status := .linkDown, detail := 0x1F } })

/-- The parameter checks of WEIGHTS_UNSEAL before the header is read. A window address is a module address once translated
(07_vaults_and_protection.md R171), and pool rows serve nothing else (05_attention_kv_cache.md R117). -/
def unsealChecks (s : State) (a : Adm) : List Check :=
  let sp := field a.b 24 1
  let dst := field a.b 48 8
  [(decide (sp = 3) && a.noPort, .rejectFormat, noField), (decide (sp ≠ 1) && decide (sp ≠ 3), .rejectFormat, 24),
   (decide (field a.b 40 8 < sealHeader), .rejectFormat, 40), (decide (dst % 4096 ≠ 0) || spaceOneBad dst, .rejectFormat, 48),
   (decide (sp = 1) && spaceOneBad (field a.b 32 8), .rejectFormat, 32),
   (decide (sp = 1) && !s.reachableRange (field a.b 32 8) (field a.b 40 8), .rejectLimit, 32),
   (decide (sp = 1) && s.rangeInPool (field a.b 32 8) (field a.b 40 8), .rejectState, 32),
   (decide (64 ≤ s.trust.ranges.length), .rejectLimit, noField)]

/-- The checks that need the header: its form, the chunk layout, and the range it opens. -/
def unsealHeaderChecks (s : State) (a : Adm) (h : List Byte) : List Check :=
  let n := field h 8 8
  let dst := field a.b 48 8
  [(decide (field h 0 2 ≠ 1), .rejectFormat, 32), (decide (field a.b 40 8 ≠ objectBytes n), .rejectFormat, 40),
   (!s.reachableRange dst (rangeBytes n), .rejectLimit, 48), (s.rangeInPool dst (rangeBytes n), .rejectState, 48)]

/-- The conditions of SO_FLAGS, SO_MIN_FW and SO_FW_MEAS hold. -/
def State.policyHolds (s : State) (ctrl : Fin 4) (h : List Byte) : Bool :=
  let meas := (h.drop 0x40).take 32
  (!bit (field h 2 2) 0 || (decide (ctrl.val < 2) && decide ((s.port ctrl).tdi = .run)))
    && (!bit (field h 2 2) 1 || decide (s.trust.fwState = .committed))
    && decide (field h 4 4 ≤ s.fwVersion) && (meas.all (· = 0) || decide (meas = s.fwMeas))

/-- The content key of an object, where decapsulation and the SO_WRAP tag hold. -/
def contentKey (h : List Byte) : Option (List Byte) :=
  let wrap := Config.shake256 ("CB9-WRAP".toUTF8.toList.map (fun b => BitVec.ofNat 8 b.toNat) ++ Config.kemSecret ((h.drop 0x60).take 1568) ++ h.take 0x60) 32
  Config.gcmDec wrap 0 (h.take 0x60) ((h.drop 0x680).take 48)

/-- How the chunks of an object went: the state, and the ending of the first that failed. -/
def Adm.openChunks (a : Adm) (h key : List Byte) (n : Nat) : State → List Nat → Io
  | s, [] => { s := s }
  | s, i :: rest =>
    let m := min chunkBytes (n - i * chunkBytes)
    let (bs, io) := a.readSource s (sealHeader + i * (chunkBytes + 16)) (m + 16)
    match io.stop with
    | some _ => io
    | none =>
      match Config.gcmDec key (field h 0x10 8 * 2 ^ 32 + i) (h.take 0x60) bs with
      | none => { io with stop := some (refused .sealTag) }
      | some p =>
        let w := io.s.store { tag := a.tag } (field a.b 48 8 + i * chunkBytes) (padTo p m)
        match w.stop with
        | some _ => w
        | none =>
          let r := Adm.openChunks a h key n w.s rest
          { r with degraded := r.degraded || w.degraded || io.degraded }

/-- The object opens: its range is sealed before the first byte is written, and zeroed and released when a chunk fails. An object of
SO_LEN 0 opens no range and ends DONE: no chunk is a count of the command (DESIGN CHOICE, notes/assumptions/55.md). -/
def Adm.openObject (a : Adm) (s : State) (h key : List Byte) : State :=
  let n := field h 8 8
  let r : SealedRange := { base := field a.b 48 8, size := rangeBytes n, ctrl := a.ctrl, epoch := ((s.cmd a.tag).map (·.epoch)).getD s.own.epoch,
                           needsTdi := bit (field h 2 2) 0, draining := false,
                           blocks := if field a.b 48 8 < windowBase then []
                             else (List.range (rangeBytes n / 4096)).map (fun k => s.canonical (field a.b 48 8 + 4096 * k)) }
  let t := if n = 0 then s else s.setTrust (fun x => { x with ranges := x.ranges ++ [r] })
  let io := a.openChunks h key n t (List.range (chunkCount n))
  match io.stop with
  | some e => a.finish (io.s.releaseRange r) e
  | none => a.finish io.s { status := if io.degraded then .doneDegraded else .done, result := BitVec.ofNat 64 n }

/-- The refusals of an unseal, in the order of R419, after sealed ranges (R420) and the die's own identity (R408). -/
def Adm.unseal (a : Adm) (s : State) (h : List Byte) : State :=
  let ep := ((s.cmd a.tag).map (·.epoch)).getD s.own.epoch
  if (decide (field a.b 24 1 = 1) && s.sealedAgainst a.ctrl ep (field a.b 32 8) (field a.b 40 8))
      || s.sealedAgainst a.ctrl ep (field a.b 48 8) (rangeBytes (field h 8 8)) then a.finish s (refused .sealedRange)
  else if !s.trust.identityOk then a.finish s (refused .identity)
  else if (h.drop 0x20).take 32 ≠ Config.sealHash s.lead then a.finish s (refused .sealTarget)
  else if !s.policyHolds a.ctrl h then a.finish s (refused .sealPolicy)
  else match contentKey h with
    | none => a.finish s (refused .sealTag)
    | some k => a.openObject s h k

/-- WEIGHTS_UNSEAL. -/
def execWeightsUnseal (ctrl : Fin 4) (slot : Fin 1024) (s : State) : Host.Outcome State Fault Refusal :=
  .next (s.serve 0x0530 ctrl slot (fun a t => a.checked t (unsealChecks t a) (fun t =>
    let (h, io) := a.readSource t 0 sealHeader
    match io.stop with
    | some e => a.finish io.s e
    | none => a.checked io.s (unsealHeaderChecks io.s a h) (fun t => a.unseal t h))))

/-- SEALED_RELEASE: the range that holds SR_ADDR is zeroed and released; one of another controller or epoch refuses (R420, R421). -/
def execSealedRelease (ctrl : Fin 4) (slot : Fin 1024) (s : State) : Host.Outcome State Fault Refusal :=
  .next (s.serve 0x0531 ctrl slot (fun a t =>
    let x := t.canonical (field a.b 24 8)
    match t.trust.ranges.find? (fun r => r.touches x 1) with
    | none => a.checked t [(true, .rejectLimit, 24)] id
    | some r =>
      if t.sealedAgainst a.ctrl (((t.cmd a.tag).map (·.epoch)).getD t.own.epoch) x 1 then a.finish t (refused .sealedRange)
      else a.done (t.releaseRange r)))

end Sys2Proof.Machine
end

