-- ==== Sys2Proof/Machine/Spdm.lean ====
section
/-! DEFINITION. The DOE mailbox of a host port: SPDM, IDE key management and TDISP (13_host_far_ports.md R376 to R380,
15_trust_and_firmware.md R414, R415). Codes of messages are those of DMTF SPDM 1.3 and PCIe 6.0
(PRESUMED, notes/assumptions/36.md). -/

namespace Sys2Proof.Machine

open Sys2Proof

/-- SPDM response codes. -/
inductive SpdmRsp where
  | digests
  | certificate
  | challengeAuth
  | version
  | measurements
  | capabilities
  | algorithms
  | keyExchange
  | finish
  | heartbeatAck
  | keyUpdateAck
  | endSessionAck
  | vendorDefined
  | error
  deriving DecidableEq, Repr

/-- The code of a response. -/
def SpdmRsp.code : SpdmRsp → Nat
  | .digests => 0x01
  | .certificate => 0x02
  | .challengeAuth => 0x03
  | .version => 0x04
  | .measurements => 0x60
  | .capabilities => 0x61
  | .algorithms => 0x63
  | .keyExchange => 0x64
  | .finish => 0x65
  | .heartbeatAck => 0x68
  | .keyUpdateAck => 0x69
  | .endSessionAck => 0x6C
  | .vendorDefined => 0x7E
  | .error => 0x7F

/-- SPDM error codes. -/
inductive SpdmErr where
  | invalidRequest
  | invalidSession
  | unexpectedRequest
  | unspecified
  | decryptError
  | sessionLimit
  | sessionRequired
  deriving DecidableEq, Repr

/-- The code of an error. -/
def SpdmErr.code : SpdmErr → Nat
  | .invalidRequest => 0x01
  | .invalidSession => 0x02
  | .unexpectedRequest => 0x04
  | .unspecified => 0x05
  | .decryptError => 0x06
  | .sessionLimit => 0x0A
  | .sessionRequired => 0x0B

/-- A response goes out on the port's DOE mailbox. -/
def State.spdmSay (s : State) (p : Fin 2) (r : SpdmRsp) (bs : List Byte) : State := s.emit (.spdm p (BitVec.ofNat 8 r.code) bs)

/-- An SPDM error response. -/
def State.spdmErr (s : State) (p : Fin 2) (e : SpdmErr) : State := s.spdmSay p .error (leBytes 1 e.code)

/-- A request that needs a key the module cannot use ends refused, and names its reason (R408, R410). -/
def State.spdmRefuse (s : State) (p : Fin 2) (r : Reason) : State :=
  s.spdmSay p .error (leBytes 1 SpdmErr.unspecified.code ++ leBytes 4 (0x05000000 + r.code))

/-- The DOE mailbox of a port answers: the Lantern serves the configuration space once the link is up (R382). -/
def State.doe (s : State) (p : Fin 2) : Bool := s.hostRole p && s.lanternOn && (s.port p).linkUp

/-- Answer a request on a port; with no mailbox there the request does not arrive. -/
def State.doeServe (s : State) (p : Fin 2) (go : State) : State := if s.doe p then go else s

/-- Answer a request that needs the algorithms negotiated. -/
def State.spdmServe (s : State) (p : Fin 2) (go : State) : State :=
  s.doeServe p (if (s.port p).spdmStep = 3 then go else s.spdmErr p .unexpectedRequest)

/-- GET_VERSION: the one version spoken is 1.3; negotiation begins again. -/
def execSpdmGetVersion (port : Fin 2) (s : State) : Host.Outcome State Fault Refusal :=
  .next (s.doeServe port ((s.setPort port (fun h => { h with spdmStep := 1 })).spdmSay port .version (leBytes 2 0x1300)))

/-- The bits of SPDM CAPABILITIES the responder sets: CERT_CAP, CHAL_CAP, MEAS_CAP with signature, ENCRYPT_CAP, MAC_CAP,
KEY_EX_CAP, HBEAT_CAP, KEY_UPD_CAP. -/
def spdmFlags : Nat := 2 + 4 + 16 + 64 + 128 + 512 + 8192 + 16384

/-- GET_CAPABILITIES. -/
def execSpdmGetCapabilities (port : Fin 2) (s : State) : Host.Outcome State Fault Refusal :=
  .next (s.doeServe port (if (s.port port).spdmStep = 1 ∨ (s.port port).spdmStep = 2 then
      (s.setPort port (fun h => { h with spdmStep := 2 })).spdmSay port .capabilities (leBytes 4 spdmFlags)
    else s.spdmErr port .unexpectedRequest))

/-- NEGOTIATE_ALGORITHMS: the one set offered is taken, or there is none in common. -/
def execSpdmNegotiateAlgorithms (port : Fin 2) (offersSet : Bool) (s : State) : Host.Outcome State Fault Refusal :=
  .next (s.doeServe port (if (s.port port).spdmStep < 2 then s.spdmErr port .unexpectedRequest
    else if offersSet then (s.setPort port (fun h => { h with spdmStep := 3 })).spdmSay port .algorithms (leBytes 1 1)
    else s.spdmErr port .invalidRequest))

/-- GET_DIGESTS: slot 0 holds the chain of R411. -/
def execSpdmGetDigests (port : Fin 2) (s : State) : Host.Outcome State Fault Refusal :=
  .next (s.spdmServe port (s.spdmSay port .digests (leBytes 1 1 ++ Config.shake256 s.chain 32)))

/-- GET_CERTIFICATE: slot 0 only. -/
def execSpdmGetCertificate (port : Fin 2) (certSlot : Nat) (offset : Nat) (len : Nat) (s : State) :
    Host.Outcome State Fault Refusal :=
  .next (s.spdmServe port (if certSlot ≠ 0 ∨ s.chain.length < offset then s.spdmErr port .invalidRequest
    else s.spdmSay port .certificate ((s.chain.drop offset).take len)))

/-- CHALLENGE: the chain's hash, a nonce, and the DIK's signature over both with the requester's nonce. -/
def execSpdmChallenge (port : Fin 2) (nonce : List (BitVec 8)) (s : State) : Host.Outcome State Fault Refusal :=
  let (n, t) := s.drawKey
  let body := Config.shake256 s.chain 32 ++ Config.entropy n 32
  .next (s.spdmServe port (if nonce.length ≠ 32 then s.spdmErr port .invalidRequest
    else if !s.trust.identityOk then s.spdmRefuse port .identity
    else t.spdmSay port .challengeAuth (body ++ Config.sign s.lead (nonce ++ body))))

/-- Measurement block 1 to 9: bytes 0x040 + 32 (k − 1) of Table 15-2 and the 31 after them. -/
def State.measurement (s : State) (p : Fin 2) (k : Nat) (nonce : List Byte) : List Byte :=
  ((s.reportBody (s.port p).tdi.code nonce).drop (0x040 + 32 * (k - 1))).take 32

/-- GET_MEASUREMENTS: blocks 1 to 9, and the whole signed report as block 0xF0; 0 asks how many blocks there are and 0xFF
asks for all of them. -/
def execSpdmGetMeasurements (port : Fin 2) (block : BitVec 8) (nonce : List (BitVec 8)) (s : State) :
    Host.Outcome State Fault Refusal :=
  let k := block.toNat
  let report := s.report (s.port port).tdi.code nonce
  .next (s.spdmServe port (
    if k = 0 then s.spdmSay port .measurements (leBytes 1 10)
    else if 1 ≤ k ∧ k ≤ 9 then s.spdmSay port .measurements (s.measurement port k nonce)
    else if k ≠ 0xF0 ∧ k ≠ 0xFF then s.spdmErr port .invalidRequest
    else if !s.trust.identityOk then s.spdmRefuse port .identity
    else if k = 0xF0 then s.spdmSay port .measurements report
    else s.spdmSay port .measurements ((List.range 9).flatMap (fun i => s.measurement port (i + 1) nonce) ++ report)))

/-! ## Sessions -/

/-- Bytes of an ML-KEM-1024 encapsulation key. -/
def kemKeyBytes : Nat := 1568

/-- The 12-bit coefficients packed in pairs in three bytes are all below q = 3,329. -/
def coefficientsOk : List Byte → Bool
  | a :: b :: c :: r =>
    decide (a.toNat + 256 * (b.toNat % 16) < 3329) && decide (b.toNat / 16 + 16 * c.toNat < 3329) && coefficientsOk r
  | _ => true

/-- The input checks of FIPS 203 on an encapsulation key: its length, and its coefficients reduced. -/
def kemInputOk (ek : List Byte) : Bool := decide (ek.length = kemKeyBytes) && coefficientsOk (ek.take 1536)

/-- Sessions a port holds at most. -/
def sessionLimit : Nat := 4

/-- The session of a port with an id. -/
def HostPort.session (h : HostPort) (id : Nat) : Option Session := h.sessions.find? (fun x => x.id = id)

/-- A session of a port changed. -/
def HostPort.setSession (h : HostPort) (id : Nat) (f : Session → Session) : HostPort :=
  { h with sessions := h.sessions.map (fun x => if x.id = id then f x else x) }

/-- A session of a port ends. -/
def HostPort.endSession (h : HostPort) (id : Nat) : HostPort := { h with sessions := h.sessions.filter (fun x => x.id ≠ id) }

/-- KEY_EXCHANGE (R415): the module encapsulates to the requester's key and signs the transcript; the session waits for
FINISH. -/
def execSpdmKeyExchange (port : Fin 2) (ek : List (BitVec 8)) (s : State) : Host.Outcome State Fault Refusal :=
  let (n, t) := s.drawKey
  let ct := Config.kemCt ek n
  let sig := Config.sign s.lead (ek ++ ct)
  let id := lowestFree ((s.port port).sessions.map (·.id)) 0 sessionLimit
  let sess : Session := { id := id, established := false, lastMsg := s.now, secret := Config.kemSecret ct, transcript := ek ++ ct ++ sig,
                          updates := 0 }
  .next (s.spdmServe port (
    if !s.trust.identityOk then s.spdmRefuse port .identity
    else if !s.trust.entropyOk then s.spdmRefuse port .entropy
    else if sessionLimit ≤ (s.port port).sessions.length then s.spdmErr port .sessionLimit
    else if !kemInputOk ek then s.spdmErr port .invalidRequest
    else (t.setPort port (fun h => { h with sessions := h.sessions ++ [sess] })).spdmSay port .keyExchange
      (leBytes 2 id ++ ct ++ sig)))

/-- FINISH: the requester proves the session with its HMAC; one that does not prove it ends the session. -/
def execSpdmFinish (port : Fin 2) (session : Nat) (hmac : List (BitVec 8)) (s : State) : Host.Outcome State Fault Refusal :=
  .next (s.spdmServe port (match (s.port port).session session with
    | none => s.spdmErr port .invalidSession
    | some x =>
      if x.established then s.spdmErr port .unexpectedRequest
      else if hmac = Config.hmac x.secret x.transcript then
        (s.setPort port (fun h => h.setSession session (fun y => { y with established := true, lastMsg := s.now }))).spdmSay port .finish []
      else (s.setPort port (fun h => h.endSession session)).spdmErr port .decryptError))

/-- Answer a message of an established session, which counts as its last. -/
def State.inSession (s : State) (p : Fin 2) (id : Nat) (go : Session → State → State) : State :=
  s.spdmServe p (match (s.port p).session id with
    | none => s.spdmErr p .invalidSession
    | some x =>
      if x.established then go x (s.setPort p (fun h => h.setSession id (fun y => { y with lastMsg := s.now })))
      else s.spdmErr p .unexpectedRequest)

/-- KEY_UPDATE: the session's keys are drawn on from its secret. -/
def execSpdmKeyUpdate (port : Fin 2) (session : Nat) (s : State) : Host.Outcome State Fault Refusal :=
  .next (s.inSession port session (fun x t =>
    (t.setPort port (fun h => h.setSession session (fun y =>
      { y with updates := y.updates + 1, secret := Config.hmac x.secret (leBytes 4 (x.updates + 1)) }))).spdmSay port .keyUpdateAck []))

/-- HEARTBEAT keeps a session alive. -/
def execSpdmHeartbeat (port : Fin 2) (session : Nat) (s : State) : Host.Outcome State Fault Refusal :=
  .next (s.inSession port session (fun _ t => t.spdmSay port .heartbeatAck []))

/-- END_SESSION. -/
def execSpdmEndSession (port : Fin 2) (session : Nat) (s : State) : Host.Outcome State Fault Refusal :=
  .next (s.inSession port session (fun _ t =>
    (t.setPort port (fun h => h.endSession session)).spdmSay port .endSessionAck []))

/-- A session with no message for 60 s ends. -/
def execSpdmSessionTimeout (port : Fin 2) (session : Nat) (s : State) : Host.Outcome State Fault Refusal :=
  .next (match (s.port port).session session with
    | some x => if x.lastMsg + ms 60000 ≤ s.now then s.setPort port (fun h => h.endSession session) else s
    | none => s)

/-! ## IDE key management and TDISP (R376 to R380) -/

/-- Make the held writes of a port, oldest first. -/
def State.flushHeld (s : State) (p : Fin 2) : State :=
  (s.port p).held.foldl (fun (t : State) w => t.putHost p w) (s.setPort p (fun h => { h with held := [] }))

/-- A vendor-defined response. -/
def State.vendorSay (s : State) (p : Fin 2) (code : Nat) (bs : List Byte) : State := s.spdmSay p .vendorDefined (leBytes 1 code ++ bs)

/-- TDISP_ERROR: the interface's state does not allow the request. -/
def State.tdispErr (s : State) (p : Fin 2) : State := s.vendorSay p 0x7F (leBytes 4 0x06)

/-- LOCK_INTERFACE binds a selective stream that has keys; from then on module writes to host memory are held. -/
def State.tdispLock (s : State) (p : Fin 2) (stream : Fin 5) : State :=
  if (s.port p).tdi = .configUnlocked ∧ stream ≠ 0 ∧ has (s.port p).ideKeys stream then
    let (n, t) := s.drawKey
    (t.setPort p (fun h => { h with tdi := .configLocked, tdiStream := some stream })).vendorSay p 0x03 (Config.entropy n 32)
  else s.tdispErr p

/-- START_INTERFACE: the held writes are made. -/
def State.tdispStart (s : State) (p : Fin 2) : State :=
  if (s.port p).tdi = .configLocked then
    ((s.setPort p (fun h => { h with tdi := .run })).flushHeld p).vendorSay p 0x06 []
  else s.tdispErr p

/-- STOP_INTERFACE: from any state to CONFIG_UNLOCKED, the one way out of ERROR (R379); no memory is cleared (R380), but for
the sealed ranges that need the TDI in RUN (15_trust_and_firmware.md R421). -/
def State.tdispStop (s : State) (p : Fin 2) : State :=
  let t := (s.setPort p (fun h => { h with tdi := .configUnlocked, tdiStream := none })).flushHeld p
  (if (s.port p).tdi = .run then t.releaseTdiRanges p.val else t).vendorSay p 0x07 []

/-- Stopping the stream a locked or running TDI is bound to is a failure of that stream (R379). -/
def State.ideStop (s : State) (p : Fin 2) (stream : Fin 5) : State :=
  let t := s.setPort p (fun h => { h with ideKeys := del h.ideKeys stream })
  (if (s.port p).tdiHeld ∧ (s.port p).tdiStream = some stream then t.tdiFails p else t).vendorSay p 0x06 []

/-- What a vendor-defined request does. -/
def State.vendorDo (s : State) (p : Fin 2) (req : VendorReq) : State :=
  match req with
  | .ideKeySet stream key => (s.setPort p (fun h => { h with ideKeys := put h.ideKeys stream key })).vendorSay p 0x03 []
  | .ideKeyStop stream => s.ideStop p stream
  | .tdispLock stream => s.tdispLock p stream
  | .tdispStart => s.tdispStart p
  | .tdispStop => s.tdispStop p
  | .tdispState => s.vendorSay p 0x05 (leBytes 1 (s.port p).tdi.code)

/-- VENDOR_DEFINED_REQUEST: key management and TDISP are refused on a session that is not secured (R376). -/
def execSpdmVendorDefined (port : Fin 2) (session : Option Nat) (req : VendorReq) (s : State) : Host.Outcome State Fault Refusal :=
  .next (match session with
    | none => s.spdmServe port (s.spdmErr port .sessionRequired)
    | some id => s.inSession port id (fun _ t => t.vendorDo port req))

end Sys2Proof.Machine
end

