-- ==== Sys2Proof/Machine/Electrical.lean ====
section
/-! DEFINITION. The 50 V input, power-fail and the rails (17_module_electrical.md R456 to R463). -/

namespace Sys2Proof.Machine

open Sys2Proof

/-- VIN stands where a start may count (R458): at or above 42 V, after an overvoltage at or below 58 V, with MATE_SNS low. -/
def Board.vinGood (b : Board) : Bool := decide (42000 ≤ b.vin) && (!b.overvolted || decide (b.vin ≤ 58000)) && !b.mateHigh

/-- How long VIN has stood there is counted from its first moment. -/
def Board.countVin (b : Board) (now : Nat) : Board :=
  { b with vinSince := if b.vinGood then some (b.vinSince.getD now) else none }

/-- The input switch closes and a cold pitch begins with stage 1; the 50 V input acts on both halves (R458, 14_pitch.md R407). -/
def State.powerUp (s : State) : State :=
  State.startCold { s with board := { s.board with inputOn := true, overvolted := false, failedAt := none } } false true

/-- Start: VIN has stood for 100 ms (R458). -/
def State.startDue (s : State) : Bool :=
  !s.board.inputOn && s.board.vinSince.any (fun t => decide (t + ms 100 ≤ s.now))

/-- VIN_APPLY: the voltage at VIN. -/
def execVinApply (milliVolts : Nat) (s : State) : Host.Outcome State Fault Refusal :=
  let t := { s with board := { s.board with vin := milliVolts }.countVin s.now }
  .next (if t.startDue then settle s t.powerUp else t)

/-- MATE_SNS_CHANGE (R456): going high opens the input switch. -/
def execMateSnsChange (high : Bool) (s : State) : Host.Outcome State Fault Refusal :=
  .next { s with board := { s.board with mateHigh := high, inputOn := s.board.inputOn && !high }.countVin s.now }

/-- OVERVOLTAGE (R458): VIN above 60 V for 10 µs opens the input switch. -/
def execOvervoltage (milliVolts : Nat) (s : State) : Host.Outcome State Fault Refusal :=
  .next (if 60000 < milliVolts then
    { s with board := { s.board with vin := milliVolts, inputOn := false, overvolted := true, vinSince := none } }
  else s)

/-- The rails that stay when every other is dropped: VAON and VFLASH. -/
def Rails.alwaysOn (r : Rails) : Rails := { vaon := r.vaon, vflash := r.vflash }

/-- The module has power: an always-on rail is up, or a cold pitch by command has its rails down for the moment. -/
def State.powered (s : State) : Bool := s.board.railsW.vaon || s.board.railsE.vaon || s.lantern.railsDropped.isSome

/-- POWER_FAIL (R460): every rail but VAON and VFLASH drops; work in flight is lost and no record is written; records of events not yet
in flash stay in retained SRAM and will be written late (16_faults_blast_radius.md R445). -/
def execPowerFail (s : State) : Host.Outcome State Fault Refusal :=
  .next (if s.powered && s.board.failedAt.isNone then
    let t := (s.kept true).setRails Rails.alwaysOn
    { t with
      board := { t.board with inputOn := false, failedAt := some s.now, vinSince := none }.countVin s.now
      lantern := { t.lantern with kind := 0 }
      events := { t.events with late := t.events.queue.length } }
  else s)

/-- RETENTION_HANDOFF (R460): after 2 ms the retention supply keeps only the retained SRAM. -/
def execRetentionHandoff (s : State) : Host.Outcome State Fault Refusal :=
  .next (match s.board.failedAt with
    | some t =>
      if t + ms 2 ≤ s.now then { s with board := { s.board with railsW := {}, railsE := {}, failedAt := none } } else s
    | none => s)

/-- RETENTION_EXPIRY (R461): without power, the retained SRAM loses its records. -/
def execRetentionExpiry (s : State) : Host.Outcome State Fault Refusal :=
  .next (if s.powered then s
    else { s with board := { s.board with retained := false }, events := { s.events with queue := [], lost := 0, late := 0 } })

/-! ## A rail out of regulation (R463) -/

/-- Every Seam module as a side sees it once the other half has gone silent: out of service, its sideband without an answer. -/
def State.seamGone (s : State) : State :=
  { s with seam := { s.seam with
      mods := (List.range 16).map (fun m => (m, { s.seamMod m with state := .out, sideband := false }))
      lastHeard := s.now } }

/-- The serial ports of a half lose their power. -/
def State.portsGone (s : State) (half : Fin 2) : State :=
  let t := if s.hostRole half then (s.setPort half (fun h => { h with linkUp := false })).hostLinkLost half else s
  { t with links := { t.links with ports := t.links.ports.map (fun e =>
      if e.1 / 9 = half.val then (e.1, ({ state := if e.2.state = .disabled then .disabled else .down, present := e.2.present } : SlPort)) else e) } }

/-- Drop the rails of one half but VAON and VFLASH. -/
def State.dropHalfRails (s : State) (half : Fin 2) : State :=
  { s with board := if half = 0 then { s.board with railsW := s.board.railsW.alwaysOn } else { s.board with railsE := s.board.railsE.alwaysOn } }

/-- RAIL_FAULT: in Twin mode the rest of the device loses a half, which HALF_LOSS_DETECT then finds; a device whose own and only half
faults has nothing but its Lantern left; in Split mode a fault of the other half leaves the Seam without a module (12_silman_and_seam.md
R366). -/
def execRailFault (half : Fin 2) (s : State) : Host.Outcome State Fault Refusal :=
  .next (if s.twin then
    if (s.railsOf half).vbaseSb then ((s.portsGone half).dropHalfRails half).seamGone else s
  else if s.clusters.contains half.val then
    if (s.railsOf half).vbaseSb then
      settle s ((((s.portsGone half).holdReset.loseMemory).dropHalfRails half).setThermal (fun t => { t with dropped := true }))
    else s
  else if s.geo.mode = 1 then
    settle s (s.seamGone.setLantern (fun l => { l with seamLost := true }))
  else s)

end Sys2Proof.Machine
end

