-- ==== Sys2Proof/Machine/RegMap.lean ====
section
/-! DEFINITION. What BAR0 reads: the register maps (18_register_maps.md Tables 18-1 to 18-7, 10_rack_time_rations.md Tables 10-4 and 10-5,
11_heat_path.md Table 11-13, 16_faults_blast_radius.md Table 16-2), word by word. Reserved fields read 0 (00_scope.md R9). -/

namespace Sys2Proof.Machine

open Sys2Proof

/-- The lower or upper word of a 64-bit value. -/
def halfOf (v : BitVec 64) (upper : Bool) : Nat := if upper then v.toNat / 2 ^ 32 else v.toNat % 2 ^ 32

/-! ## Identity and geometry (Table 18-2) -/

/-- A word of the identity and geometry block, on a port. -/
def State.identityWord (s : State) (p off : Nat) : Nat :=
  if off < 0x80 then field s.geoHeader off 4
  else if off = 0x80 then 0x0001 + 65536 * p
  else if off = 0x84 then (match s.links.nodeId with
    | some n => n.toNat + 32768
    | none => 0)
  else if off = 0x88 then (match s.i3c.address with
    | some a => a.toNat + 128
    | none => 0)
  else if off = 0x90 ∨ off = 0x94 then (if s.geo.hasW then halfOf s.fuses.serialW (decide (off = 0x94)) else 0)
  else if off = 0x98 ∨ off = 0x9C then (if s.geo.hasE then halfOf s.fuses.serialE (decide (off = 0x9C)) else 0)
  else if 0xA0 ≤ off ∧ off < 0xC0 then field (padTo (Config.dikHash s.lead) 32) (off - 0xA0) 4
  else 0

/-! ## Ownership (Table 18-3) -/

/-- OWN_ERR of a controller. -/
def OwnPort.err (o : OwnPort) : Nat := ofBool o.denied + 2 * ofBool o.handoverRefused + 4 * ofBool o.renewRefused

/-- A word of the ownership block, as controller c reads it. -/
def State.ownershipWord (s : State) (c off : Nat) : Nat :=
  match off with
  | 0x00 => s.ownWord c
  | 0x04 => s.leaseMs
  | 0x08 => s.own.epoch.toNat
  | 0x10 => halfOf s.own.nonce false
  | 0x14 => halfOf s.own.nonce true
  | 0x18 => halfOf (s.ownPort c).claimNonce false
  | 0x1C => halfOf (s.ownPort c).claimNonce true
  | 0x20 => (s.ownPort c).claimPrio.toNat + 256 * s.own.successor.val
  | 0x28 => (s.ownPort c).err
  | 0x2C => c
  | _ => 0

/-! ## Lantern status (Table 18-4) -/

/-- PITCH_LINKS_DONE: stage 8 has begun and every enabled Silman port is KEYED or FAILED (14_pitch.md R391). -/
def State.linksDone (s : State) : Bool :=
  s.lantern.stage8 && (List.range 18).all (fun n => !s.hasSl n || !s.settings.lkPortEn.getLsbD n
    || decide ((s.sl n).state = .keyed) || decide ((s.sl n).state = .failed))

/-- The pitch word at offset 0x010. -/
def State.pitchWord (s : State) : Nat :=
  s.lantern.stage.toNat + 16 * s.lantern.kind.toNat + 64 * ofBool s.lantern.quick + 128 * ofBool s.linksDone
    + 256 * s.lantern.quickMiss.toNat + 4096 * s.lantern.idleWhy.toNat + 65536 * s.lantern.halt.toNat

/-- The firmware word at offset 0x020. -/
def State.fwWord (s : State) : Nat :=
  s.trust.fwState.code + 4 * ofBool s.trust.runB + 16 * s.trust.slotA.state.code + 256 * s.trust.slotB.state.code
    + 65536 * (commitFuses - s.fuses.commitBlown)

/-- WD_RESETS_10MIN. -/
def State.wdResets (s : State) : Nat := min 255 ((s.recentResets 0).length + (s.recentResets 1).length)

/-- A word of the Lantern status block. -/
def State.lanternWord (s : State) (off : Nat) : Nat :=
  match off with
  | 0x00 => s.lsWord
  | 0x04 => s.lantern.changes.toNat
  | 0x10 => s.pitchWord
  | 0x14 => s.lantern.timeMs.toNat
  | 0x18 => s.lantern.count.toNat
  | 0x20 => s.fwWord
  | 0x24 => s.fwVersion
  | 0x28 => s.trust.arb.toNat
  | 0x30 => s.settings.wdPeriodMs + 65536 * s.wdResets
  | _ => 0

/-! ## Completion rings and intake (Table 18-5) -/

/-- The word of a ring's staged fields. -/
def RingCfg.word (c : RingCfg) (off : Nat) : Nat :=
  match off with
  | 0x00 => halfOf c.base false
  | 0x04 => halfOf c.base true
  | 0x08 => halfOf c.tailAddr false
  | 0x0C => halfOf c.tailAddr true
  | 0x10 => c.sizeLog2.toNat + 256 * ofBool c.enable + 65536 * c.vector.toNat
  | _ => 0

/-- The word of a ring. -/
def State.ringWord (s : State) (p ring off : Nat) : Nat :=
  let r := look (s.port p).rings ring {}
  match off with
  | 0x14 => r.modCount.toNat + 65536 * r.modTime.toNat
  | 0x18 => r.head.toNat
  | 0x1C => r.tail.toNat
  | 0x20 => s.crWaiting p ring
  | _ => (look (s.port p).shadow ring {}).word off

/-- A word of the completion-ring and intake block of a port. -/
def State.ringsWord (s : State) (p off : Nat) : Nat :=
  if off < 0x1000 then s.ringWord p (off / 64) (off % 64)
  else if 0x2000 ≤ off ∧ off < 0x3000 then (look (s.port p).committed ((off - 0x2000) / 64) {}).word (off % 64)
  else match off with
    | 0xF000 => (s.intake p).nextSeq.toNat
    | 0xF004 => (s.intake p).skips
    | 0xF008 => ofBool (s.intake p).skipSeen
    | 0xF00C => (s.intake p).lockedWrites
    | 0xF010 => (s.intake p).noRing
    | 0xF020 => 2 * ofBool (s.port p).pendingSet.isSome + 4 * ofBool (s.port p).applyErr
    | 0xF024 => (s.port p).errWhere.toNat
    | _ => 0

/-! ## Rations, rack time -/

/-- A word of a set of Rations. -/
def RationSet.word (r : RationSet) (off : Nat) : Nat := r.read16 off + 65536 * r.read16 (off + 2)

/-- A word of the Rations block: shadow copies, controls, and the committed view at 0x0800 (00_scope.md R12). -/
def State.rationsWord (s : State) (off : Nat) : Nat :=
  if off = 0x7F0 then 2 * ofBool s.rations.pendingSet.isSome + 4 * ofBool s.rations.applyErr
  else if off = 0x7F4 then s.rations.errWhere.toNat
  else if off < 0x7F0 then s.rations.shadow.word off
  else if 0x800 ≤ off ∧ off < 0xFF0 then s.rations.committed.word (off - 0x800)
  else 0

/-- RT_SOURCE as a number. -/
def RtSource.code : RtSource → Nat
  | .none => 0
  | .input => 1
  | .beacons => 2

/-- A word of the rack-time block (Table 10-5). -/
def State.timeWord (s : State) (off : Nat) : Nat :=
  match off with
  | 0x00 => halfOf s.time.now false
  | 0x04 => halfOf s.time.now true
  | 0x08 => rtStateCode s.time.state + 4 * s.time.source.code + 16 * s.settings.tcSource.toNat + 64 * ofBool s.isRoot
      + 128 * ofBool s.time.psFallback + 256 * s.time.beaconPort.toNat + 8192 * s.time.beaconHops.toNat
  | 0x0C => s.errBound
  | 0x10 => s.time.freqPpb.toNat
  | 0x14 => s.time.steps.toNat
  | 0x18 => halfOf s.time.lastStep false
  | 0x1C => halfOf s.time.lastStep true
  | 0x20 => s.effectiveCeiling + 65536 * s.power.slotNow.toNat
  | 0x24 => s.power.inputW.toNat
  | _ => 0

/-! ## Thermal (Table 11-13) -/

/-- How far a point stands above its warning threshold; the hottest point relative to its thresholds is the one with the largest
(notes/assumptions/38.md). -/
def State.heatAbove (s : State) (p : Nat) : Option Rat :=
  (s.pointTemp p).map (fun t => t.1 - ((thresholds (pointParts p).2.1).1 : Rat))

/-- The point of a list with the largest value; the first of those that tie. -/
def bestPoint (f : Nat → Option Rat) : List Nat → Option (Nat × Rat)
  | [] => none
  | p :: r => match f p, bestPoint f r with
    | some a, some (q, b) => if a < b then some (q, b) else some (p, a)
    | some a, none => some (p, a)
    | none, o => o

/-- TH_HOT_TOWER to TH_HOT_T. -/
def State.hotWord (s : State) : Nat :=
  match bestPoint s.heatAbove s.knownPoints with
  | some (p, _) => (match s.pointTemp p with
    | some (t, est) =>
      let (tower, layer, site) := pointParts p
      tower + 16 * layer + 256 * site + 32768 * ofBool est + 65536 * ofInt 16 (t * 16).floor
    | none => 0)
  | none => 0

/-- Sensors demoted, by the owner or by the module. -/
def State.demotedCount (s : State) : Nat :=
  s.settings.demoted.length + (s.thermal.sensors.filter (fun e => e.2.autoDemoted && !s.settings.demoted.contains e.1)).length

/-- The largest pause step in a tower; a blind tower is paused at 50 %, 4 steps (R300). -/
def State.towerPause (s : State) (t : Nat) : Nat :=
  (s.thermal.pauses.filter (fun e => decide (e.1 / 128 = t))).foldl (fun m e => max m e.2) (if s.thermal.blind.contains t then 4 else 0)

/-- TH_TOWER_T, TH_TOWER_LAYER and TH_TOWER_PAUSE of a tower. -/
def State.towerWord (s : State) (t : Nat) : Nat :=
  if !s.hasTower t then 0
  else
    let dram := s.knownPoints.filter (fun p => decide ((pointParts p).1 = t) && decide (1 ≤ (pointParts p).2.1) && decide ((pointParts p).2.1 ≤ 8))
    (match bestPoint (fun p => (s.pointTemp p).map (·.1)) dram with
     | some (p, v) => ofInt 16 (v * 16).floor + 65536 * (pointParts p).2.1
     | none => 0) + 2 ^ 20 * s.towerPause t

/-- The flags word of the thermal block. -/
def State.thermalFlags (s : State) : Nat :=
  s.thermal.levelMax.code + 4 * ofBool (s.mem.vaults.any (·.2.refreshX2)) + 8 * ofBool s.thermal.sensorDisagree + 16 * ofBool (!s.thermal.blind.isEmpty)
    + 256 * s.thermal.clLevel.toNat + 1024 * ofBool s.thermal.coolantSensor + 2048 * ofBool s.thermal.inletHigh + 4096 * ofBool s.thermal.wearWarn

/-- A word of the thermal block. -/
def State.thermalWord (s : State) (off : Nat) : Nat :=
  if 0x20 ≤ off ∧ off < 0x60 then s.towerWord ((off - 0x20) / 4)
  else if 0x60 ≤ off ∧ off < 0xA0 then
    let t := (off - 0x60) / 4
    if s.hasTower t then (look s.thermal.wear t {}).count.floor.toNat else 0
  else match off with
    | 0x00 => s.thermalFlags
    | 0x04 => s.hotWord
    | 0x08 => orMark s.thermal.inlet + 65536 * orMark s.thermal.outlet
    | 0x0C => s.thermal.flow.getD 0xFFFF + 65536 * s.flowSet
    | 0x10 => s.clockMhz + 65536 * s.thermal.ceiling.getD s.fuses.powerW
    | 0x14 => s.thermal.disagreeCount
    | 0x18 => s.demotedCount + 65536 * s.thermal.swingFloor
    | _ => 0

/-! ## Check-value channels, interrupt controllers, event log -/

/-- A word of the check-value block (16_faults_blast_radius.md R443). -/
def State.chanWord (s : State) (off : Nat) : Nat := if s.hasChan (off / 128) then (s.chan (off / 128)).word (off % 128) else 0

/-- 32 sources from 32 k on, as bits. -/
def sourceBits (f : Nat → Bool) (k : Nat) : Nat := (List.range 32).foldl (fun m i => m + ofBool (f (32 * k + i)) * 2 ^ i) 0

/-- A word of one cluster's region (Table 18-6). -/
def Ic.word (i : Ic) (off : Nat) : Nat :=
  if off < 0x20 then sourceBits (fun x => i.pending.contains x) (off / 4)
  else if off < 0x40 then sourceBits i.wakes ((off - 0x20) / 4)
  else if off = 0x40 then i.coreEn.toNat + 256 * i.coreAwake.toNat + 65536 * i.rrNext.val + 1048576 * i.fastCore.val
  else if off = 0x44 then i.wakeCount.toNat
  else 0

/-- A word of the interrupt controller view (R503). -/
def State.icWord (s : State) (off : Nat) : Nat :=
  if off < 0x100 then (s.ic s.lead).word off
  else if off < 0x200 ∧ s.twin then (s.ic 1).word (off - 0x100)
  else 0

/-- The record at a position of the window: among the newest 512, and written since the pitch (R447, R505). -/
def Events.at' (e : Events) (k : Nat) : Option EventRec :=
  (e.prot ++ e.main).find? (fun r => decide (r.seq.toNat % 512 = k) && decide (e.nextSeq.toNat ≤ r.seq.toNat + 512) && e.sincePitch.contains r.seq)

/-- EVW_OLDEST_SEQ; with no record in the main area the spec states none (notes/assumptions/10.md). -/
def Events.oldest (e : Events) : Nat :=
  match e.main with
  | r :: _ => r.seq.toNat
  | [] => Config.pick 0 0x447 % 2 ^ 32

/-- A word of the event-log window (Table 18-7). -/
def State.eventWord (s : State) (off : Nat) : Nat :=
  if 0x8000 ≤ off then
    match s.events.at' ((off - 0x8000) / 64) with
    | some r => field r.bytes (off % 64) 4
    | none => 0
  else match off with
    | 0x0 => s.events.nextSeq.toNat
    | 0x4 => s.events.oldest
    | 0x8 => s.events.prot.length + 65536 * ofBool ((s.events.prot ++ s.events.main).any (·.latched))
    | _ => 0

/-! ## The MSI-X table and pending bits (13_host_far_ports.md R372; their layout PRESUMED, notes/assumptions/37.md) -/

/-- A word of the MSI-X table: address, data, and the mask bit of a vector. -/
def HostPort.msixWord (h : HostPort) (off : Nat) : Nat :=
  let v := off / 16
  let e := (look h.msixTable v 0).toNat
  match off % 16 with
  | 0x0 => e % 2 ^ 32
  | 0x4 => e / 2 ^ 32 % 2 ^ 32
  | 0x8 => e / 2 ^ 64
  | _ => ofBool (!h.msixOpen.contains v)

/-! ## BAR0 (Table 18-1) -/

/-- The aligned 4-byte word at a BAR0 offset as a port's read returns it, but for the latch of RT_NOW. -/
def State.bar0Word (s : State) (p off : Nat) : Nat :=
  if off < 0x1000 then s.identityWord p off
  else if off < 0x2000 then s.ownershipWord p (off - 0x1000)
  else if off < 0x3000 then s.lanternWord (off - 0x2000)
  else if 0x10000 ≤ off ∧ off < 0x50000 then leNat (readBytes (s.intake p).slots (off - 0x10000) 4)
  else if 0x50000 ≤ off ∧ off < 0x60000 then s.ringsWord p (off - 0x50000)
  else if 0x60000 ≤ off ∧ off < 0x70000 then s.rationsWord (off - 0x60000)
  else if 0x70000 ≤ off ∧ off < 0x80000 then s.timeWord (off - 0x70000)
  else if 0x80000 ≤ off ∧ off < 0x90000 then s.thermalWord (off - 0x80000)
  else if 0x90000 ≤ off ∧ off < 0xA0000 then s.chanWord (off - 0x90000)
  else if 0xA0000 ≤ off ∧ off < 0xB0000 then s.icWord (off - 0xA0000)
  else if 0xB0000 ≤ off ∧ off < 0xC0000 then s.eventWord (off - 0xB0000)
  else if 0x100000 ≤ off ∧ off < 0x108000 then (s.port p).msixWord (off - 0x100000)
  else if 0x110000 ≤ off ∧ off < 0x110100 then sourceBits (fun x => (s.port p).msixPending.contains x) ((off - 0x110000) / 4)
  else 0

/-! ## Configuration space (13_host_far_ports.md R370)

What a host port's function answers to a configuration request; no row of the command table is such a request. -/

/-- Class code of the function: processing accelerator. -/
def classCode : Nat := 0x120000

/-- Device ID on every order code, mode and port. -/
def deviceId : Nat := 0xC900

/-- A word of the configuration space of a port in the host role: vendor ID and device ID, and the class code above an eight-bit
revision that the spec does not state (the places are PRESUMED PCIe's, notes/assumptions/37.md). -/
def State.configWord (s : State) (p off : Nat) : Option Nat :=
  if !s.hostRole p then none
  else if off = 0x00 then some (Config.vendorId.toNat + 65536 * deviceId)
  else if off = 0x08 then some (Config.revisionId.toNat + 256 * classCode)
  else none

/-- The byte at a BAR0 offset. -/
def State.bar0Byte (s : State) (p off : Nat) : Byte := BitVec.ofNat 8 (s.bar0Word p (off / 4 * 4) / 256 ^ (off % 4))

end Sys2Proof.Machine
end

