-- ==== Sys2Proof/Machine/RegWrite.lean ====
section
/-! DEFINITION. Writes of BAR0 registers (13_host_far_ports.md R373, 18_register_maps.md R491 to R502, 08_warden_mailboxes.md R230).
A write of 8 bytes acts on its lower word before its upper word (R496). -/

namespace Sys2Proof.Machine

open Sys2Proof

/-! ## Ownership (R496) -/

/-- The bits of offset 0x24 act one at a time, from bit 0 upward: OWN_CLAIM, OWN_RENEW, OWN_HANDOVER, OWN_ACCEPT, OWN_RELEASE. -/
def State.ownActions (s : State) (c : Fin 4) (w : Nat) : State :=
  let t := if bit w 0 then s.claim c (s.ownPort c).claimPrio (s.ownPort c).claimNonce [] else s
  let u := if bit w 1 then t.renew c else t
  let v := if bit w 2 then u.handover c else u
  let x := if bit w 3 then v.accept c else v
  if bit w 4 then x.release c else x

/-- The word at offset 0x20, field by field: OWN_SUCCESSOR from the owner only; a non-owner is denied only where it would change it. -/
def State.ownFields (s : State) (c : Nat) (w : Nat) : State :=
  let t := s.setOwnPort c (fun o => { o with claimPrio := BitVec.ofNat 8 w })
  if s.owns c then { t with own := { t.own with successor := Fin.ofNat 4 (bits w 8 2) } }
  else if bits w 8 2 = s.own.successor.val then t
  else t.deny c

/-- OWN_ERR: a 1 clears its bit. -/
def OwnPort.clearErr (o : OwnPort) (w : Nat) : OwnPort :=
  { o with denied := o.denied && !bit w 0, handoverRefused := o.handoverRefused && !bit w 1, renewRefused := o.renewRefused && !bit w 2 }

/-- A word written to the ownership block. -/
def State.ownWrite (s : State) (c : Fin 4) (off w : Nat) : State :=
  match off with
  | 0x18 => s.setOwnPort c (fun o => { o with claimNonce := setHalf o.claimNonce false w })
  | 0x1C => s.setOwnPort c (fun o => { o with claimNonce := setHalf o.claimNonce true w })
  | 0x20 => s.ownFields c w
  | 0x24 => s.ownActions c w
  | 0x28 => s.setOwnPort c (fun o => o.clearErr w)
  | _ => s

/-! ## Completion rings (Table 18-5) -/

/-- A word written to the staged fields of a ring. -/
def RingCfg.write (c : RingCfg) (off w : Nat) : RingCfg :=
  match off with
  | 0x00 => { c with base := setHalf c.base false w }
  | 0x04 => { c with base := setHalf c.base true w }
  | 0x08 => { c with tailAddr := setHalf c.tailAddr false w }
  | 0x0C => { c with tailAddr := setHalf c.tailAddr true w }
  | 0x10 => { c with sizeLog2 := BitVec.ofNat 5 w, enable := bit w 8, vector := BitVec.ofNat 11 (w / 65536) }
  | _ => c

/-- A word written to the completion-ring and intake block of a port, by its controller, owner or not (08_warden_mailboxes.md R217). A
cleared error comes before a new apply's. -/
def State.ringsWrite (s : State) (p off w : Nat) : State :=
  if off < 0x1000 then
    match off % 64 with
    | 0x14 => s.writeModeration (Fin.ofNat 2 p) (off / 64) (BitVec.ofNat 8 w) (BitVec.ofNat 10 (w / 65536))
    | 0x18 => s.writeHead p (off / 64) (BitVec.ofNat 32 w)
    | _ => if off % 64 < 0x14 then s.setPort p (fun h => { h with shadow := upd h.shadow (off / 64) {} (fun c => c.write (off % 64) w) }) else s
  else match off with
    | 0xF008 => if bit w 0 then s.setIntake p (fun i => { i with skipSeen := false }) else s
    | 0xF020 =>
      let t := if bit w 2 then s.setPort p (fun h => { h with applyErr := false }) else s
      if bit w 0 then t.applyRings p else t
    | _ => s

/-! ## Blocks the owner writes -/

/-- The word holds a field of the Rations block that the owner may write (Table 10-4). -/
def rationsWritable (off : Nat) : Bool :=
  (decide (off < 0x200) && decide (off % 32 < 0x18)) || (decide (0x200 ≤ off) && decide (off < 0x400))
    || (decide (0x400 ≤ off) && decide (off < 0x490) && decide (off % 8 = 0))
    || (decide (0x500 ≤ off) && decide (off < 0x520) && decide (off % 16 < 8)) || decide (off = 0x7F0)

/-- A word the owner writes to the Rations block: shadow fields and the apply controls. -/
def State.rationsWrite (s : State) (off w : Nat) : State :=
  if off = 0x7F0 then
    let t := if bit w 2 then { s with rations := { s.rations with applyErr := false } } else s
    if bit w 0 then t.applyRations else t
  else { s with rations := { s.rations with shadow := (s.rations.shadow.write16 off (w % 65536)).write16 (off + 2) (w / 65536) } }

/-- The word holds a field of a check-value channel that the owner may write (Table 16-2). -/
def chanWritable (off : Nat) : Bool :=
  decide (off < 0x28) || decide (off = 0x30) || decide (off = 0x34) || decide (off = 0x38)

/-- An owner's write acts; any other controller's is denied (R230). -/
def State.ownerWrite (s : State) (c : Nat) (go : State) : State := if s.owns c then go else s.deny c

/-! ## The MSI-X table (PCIe 6.0; PRESUMED, notes/assumptions/37.md) -/

/-- A word written to the MSI-X table: address, data, or the mask bit of vector control; clearing the mask of a pending vector sends
it. -/
def State.msixWrite (s : State) (p : Fin 2) (off w : Nat) : State :=
  let v := off / 16
  let entry (f : Nat → Nat) : State :=
    s.setPort p (fun h => { h with msixTable := upd h.msixTable v 0 (fun e => BitVec.ofNat 96 (f e.toNat)) })
  match off % 16 with
  | 0x0 => entry (fun e => e / 2 ^ 32 * 2 ^ 32 + w % 2 ^ 32)
  | 0x4 => entry (fun e => e / 2 ^ 64 * 2 ^ 64 + w % 2 ^ 32 * 2 ^ 32 + e % 2 ^ 32)
  | 0x8 => entry (fun e => w % 2 ^ 32 * 2 ^ 64 + e % 2 ^ 64)
  | _ =>
    if bit w 0 then s.setPort p (fun h => { h with msixOpen := removeNat h.msixOpen v })
    else
      let t := s.setPort p (fun h => { h with msixOpen := insertNat h.msixOpen v })
      if (s.port p).msixPending.contains v then
        (t.setPort p (fun h => { h with msixPending := removeNat h.msixPending v })).msix p v
      else t

/-! ## Writes by offset -/

/-- A word written outside the mailbox slots, by a port's controller. -/
def State.wordWrite (s : State) (p : Fin 2) (off w : Nat) : State :=
  let c := ctrlOf p
  if 0x1000 ≤ off ∧ off < 0x2000 then s.ownWrite c (off - 0x1000) w
  else if 0x50000 ≤ off ∧ off < 0x60000 then s.ringsWrite p (off - 0x50000) w
  else if 0x60000 ≤ off ∧ off < 0x70000 then
    if rationsWritable (off - 0x60000) then s.ownerWrite c (s.rationsWrite (off - 0x60000) w) else s
  else if 0x90000 ≤ off ∧ off < 0xA0000 then
    let o := off - 0x90000
    if s.hasChan (o / 128) && chanWritable (o % 128) then s.ownerWrite c (s.cvWord (o / 128) c (o % 128) w) else s
  else if 0x100000 ≤ off ∧ off < 0x108000 then s.msixWrite p (off - 0x100000) w
  else s

/-- A write of a slot's window (R209, R210): a discarded one is counted. -/
def State.slotWindow (s : State) (p : Fin 2) (off width : Nat) (value : BitVec 64) : State :=
  let o := off - 0x10000
  if (width = 4 ∨ width = 8) ∧ off % width = 0 then s.slotWrite (ctrlOf p) (o / 256) (o % 256) (leBytes width value.toNat)
  else s.lockedWrite (ctrlOf p)

/-- REGISTER_WRITE: an aligned write of 4 or 8 bytes acts word by word; another is discarded (R373). -/
def execRegisterWrite (port : Fin 2) (offset : Nat) (width : Nat) (value : BitVec 64) (s : State) : Host.Outcome State Fault Refusal :=
  .next (if !s.hostWrites port then s
    else if 0x10000 ≤ offset ∧ offset < 0x50000 then settle s (s.slotWindow port offset width value)
    else if width = 4 ∧ offset % 4 = 0 then settle s (s.wordWrite port offset (value.toNat % 2 ^ 32))
    else if width = 8 ∧ offset % 8 = 0 then
      settle s ((s.wordWrite port offset (value.toNat % 2 ^ 32)).wordWrite port (offset + 4) (value.toNat / 2 ^ 32))
    else s)

end Sys2Proof.Machine
end

