-- ==== Sys2Proof/Machine/I3c.lean ====
section
/-! DEFINITION. The I3C target (17_module_electrical.md R475 to R481). Byte orders and formats of common command codes are those of MIPI
I3C Basic (PRESUMED, notes/assumptions/39.md). -/

namespace Sys2Proof.Machine

open Sys2Proof

/-- The I3C state changed. -/
def State.setI3c (s : State) (f : I3c → I3c) : State := { s with i3c := f s.i3c }

/-- The device's target is active: its Lantern runs (R476). -/
def State.i3cActive (s : State) : Bool := s.lanternOn && (s.railsOf s.lead).vaon

/-- The target is active and holds an address. -/
def State.i3cHere (s : State) : Bool := s.i3cActive && s.i3c.address.isSome

/-- Answer traffic addressed to the target. -/
def State.i3cServe (s : State) (go : State) : State := if s.i3cHere then go else s

/-- Data the target delivers. -/
def State.i3cSay (s : State) (bs : List Byte) : State := s.emit (.i3cData bs)

/-! ## Private writes (Table 17-9) -/

/-- A private write of `n` bytes is taken where its length matches its operation and the maximum write length; else it is discarded
and counted (R477). -/
def State.i3cWrite (s : State) (n : Nat) (fits : Bool) (go : State) : State :=
  s.i3cServe (if fits && decide (n ≤ s.i3c.mwl.toNat) then go else s.lockedWrite 2)

/-- SLOT_WRITE (R478). -/
def execI3cSlotWrite (slot : BitVec 8) (offset : BitVec 16) (data : List (BitVec 8)) (s : State) : Host.Outcome State Fault Refusal :=
  .next (s.i3cWrite (4 + data.length)
    (decide (slot.toNat < 32) && decide (offset.toNat % 4 = 0) && decide (data.length % 4 = 0) && decide (4 ≤ data.length)
      && decide (offset.toNat + data.length ≤ 256))
    (s.slotWrite 2 slot.toNat offset.toNat data))

/-- SPACE_READ (R479). -/
def execI3cSpaceRead (space : BitVec 8) (offset : BitVec 64) (s : State) : Host.Outcome State Fault Refusal :=
  .next (s.i3cWrite 10 true (s.setI3c (fun x => { x with sel := .space space.toNat offset.toNat })))

/-- RECORD_READ (R480). -/
def execI3cRecordRead (s : State) : Host.Outcome State Fault Refusal :=
  .next (s.i3cWrite 1 true (s.setI3c (fun x => { x with sel := .record, fifoAt := if s.warden.bmcFifo.isEmpty then none else some s.now })))

/-- ATTEST_NONCE: a report for the nonce is prepared in space 2 (R477, R481); a die whose identity does not hold signs none
(15_trust_and_firmware.md R408). -/
def execI3cAttestNonce (nonce : List (BitVec 8)) (s : State) : Host.Outcome State Fault Refusal :=
  .next (s.i3cWrite (1 + nonce.length) (decide (nonce.length = 32))
    (if s.trust.identityOk then (s.setI3c (fun x => { x with report := s.report noTdi nonce })).ibi 0x02
     else s.setI3c (fun x => { x with report := [] })))

/-- I3C_WRITE_DISCARD: a write with an unknown operation code or a wrong length. -/
def execI3cWriteDiscard (s : State) : Host.Outcome State Fault Refusal := .next (s.i3cServe (s.lockedWrite 2))

/-! ## Private reads (Table 17-10) -/

/-- Bytes of space 0: BAR0 of the leading port, its mailbox and completion-ring ranges reading 0. -/
def State.space0 (s : State) (off n : Nat) : List Byte :=
  (List.range (min n (0xC0000 - off))).map (fun k =>
    let a := off + k
    if 0x10000 ≤ a ∧ a < 0x60000 then 0 else s.bar0Byte s.lead a)

/-- The full geometry record as the BMC reads it: before it is built, all but its early fields are 0. -/
def State.space1 (s : State) : List Byte := if s.geo.built then s.geoRecord else padTo s.geoHeader 8320

/-- `n` bytes of the event record from an offset on, up to the end of a record the module does not hold. -/
def Events.space (e : Events) (off n : Nat) : Nat → List Byte
  | 0 => []
  | k + 1 => match (e.prot ++ e.main).find? (fun r => decide (r.seq.toNat = off / 64)) with
    | none => []
    | some r =>
      let part := (r.bytes.drop (off % 64)).take n
      part ++ Events.space e (off + part.length) (n - part.length) k

/-- The I3C path status, 16 B. -/
def State.space5 (s : State) : List Byte :=
  leBytes 2 (s.intake 2).nextSeq.toNat ++ leBytes 4 (s.intake 2).skips ++ leBytes 4 (s.intake 2).lockedWrites
    ++ leBytes 1 s.warden.bmcFifo.length ++ leBytes 5 0

/-- The bytes a read of a space delivers. -/
def State.spaceBytes (s : State) (space off n : Nat) : List Byte :=
  match space with
  | 0 => s.space0 off n
  | 1 => (s.space1.drop off).take n
  | 2 => (s.i3c.report.drop off).take n
  | 3 => (s.chain.drop off).take n
  | 4 => s.events.space off n (n / 64 + 2)
  | 5 => (s.space5.drop off).take n
  | _ => []

/-- The oldest record of the FIFO is delivered; it leaves once all its 32 B have been (R480). -/
def State.readRecord (s : State) (n : Nat) : State :=
  match s.warden.bmcFifo with
  | [] => s.i3cSay []
  | r :: rest =>
    let t := s.i3cSay (r.bytes.take n)
    if 32 ≤ n then
      (t.setWarden (fun w => { w with bmcFifo := rest })).setI3c (fun x => { x with fifoAt := if rest.isEmpty then none else x.fifoAt })
    else t

/-- I3C_PRIVATE_READ of up to `len` bytes, and never more than the maximum read length. -/
def execI3cPrivateRead (len : Nat) (s : State) : Host.Outcome State Fault Refusal :=
  let n := min len s.i3c.mrl.toNat
  .next (s.i3cServe (match s.i3c.sel with
    | .none => s.i3cSay []
    | .space sp off =>
      let bs := s.spaceBytes sp off n
      (s.setI3c (fun x => { x with sel := .space sp (off + bs.length) })).i3cSay bs
    | .record => (s.setI3c (fun x => { x with sel := .none })).readRecord n))

/-! ## Common command codes (Table 17-8) -/

/-- The provisional ID, 48 bits: manufacturer, 0, 0xC900, the Lantern's instance, the low bits of the die's serial number. -/
def State.i3cPid (s : State) : Nat :=
  0x02E5 * 2 ^ 33 + 0xC900 * 2 ^ 16 + s.lead * 2 ^ 12 + (if s.lead = 0 then s.fuses.serialW else s.fuses.serialE).toNat % 2 ^ 12

/-- Bus characteristics. -/
def i3cBcr : Byte := 0x0E

/-- Device characteristics. -/
def i3cDcr : Byte := 0x00

/-- The provisional ID, most significant byte first. -/
def State.pidBytes (s : State) : List Byte := (leBytes 6 s.i3cPid).reverse

/-- ENTDAA: a target without an address reports its ID and characteristics and takes the address. -/
def execI3cEntdaa (address : BitVec 7) (s : State) : Host.Outcome State Fault Refusal :=
  .next (if s.i3cActive && s.i3c.address.isNone then
    (s.setI3c (fun x => { x with address := some address, hotJoinAt := none })).i3cSay (s.pidBytes ++ [i3cBcr, i3cDcr])
  else s)

/-- RSTDAA: the address is given up, and with it the interrupts due. -/
def execI3cRstdaa (s : State) : Host.Outcome State Fault Refusal :=
  .next (s.i3cServe (s.setI3c (fun x => { x with address := none, ibiDue := [], ibiRetryAt := none })))

/-- SETNEWDA. -/
def execI3cSetnewda (address : BitVec 7) (s : State) : Host.Outcome State Fault Refusal :=
  .next (s.i3cServe (s.setI3c (fun x => { x with address := some address })))

/-- GETPID. -/
def execI3cGetpid (s : State) : Host.Outcome State Fault Refusal := .next (s.i3cServe (s.i3cSay s.pidBytes))

/-- GETBCR. -/
def execI3cGetbcr (s : State) : Host.Outcome State Fault Refusal := .next (s.i3cServe (s.i3cSay [i3cBcr]))

/-- GETDCR. -/
def execI3cGetdcr (s : State) : Host.Outcome State Fault Refusal := .next (s.i3cServe (s.i3cSay [i3cDcr]))

/-- GETSTATUS: the number of the interrupt that is due first, 0 for none. -/
def execI3cGetstatus (s : State) : Host.Outcome State Fault Refusal :=
  .next (s.i3cServe (s.i3cSay [0, (s.i3c.ibiDue.head?).getD 0]))

/-- ENEC: in-band interrupts are enabled. -/
def execI3cEnec (ibi : Bool) (s : State) : Host.Outcome State Fault Refusal :=
  .next (s.i3cServe (s.setI3c (fun x => { x with ibiEn := x.ibiEn || ibi })))

/-- DISEC: in-band interrupts are disabled, and none is kept (R481). -/
def execI3cDisec (ibi : Bool) (s : State) : Host.Outcome State Fault Refusal :=
  .next (s.i3cServe (if ibi then s.setI3c (fun x => { x with ibiEn := false, ibiDue := [], ibiRetryAt := none }) else s))

/-- A 16-bit number, most significant byte first. -/
def be16 (v : BitVec 16) : List Byte := (leBytes 2 v.toNat).reverse

/-- GETMWL. -/
def execI3cGetmwl (s : State) : Host.Outcome State Fault Refusal := .next (s.i3cServe (s.i3cSay (be16 s.i3c.mwl)))

/-- SETMWL may lower the maximum write length below 288 B. -/
def execI3cSetmwl (len : BitVec 16) (s : State) : Host.Outcome State Fault Refusal :=
  .next (s.i3cServe (s.setI3c (fun x => { x with mwl := if len.toNat < 288 then len else 288 })))

/-- GETMRL, with the one byte of an interrupt's payload. -/
def execI3cGetmrl (s : State) : Host.Outcome State Fault Refusal := .next (s.i3cServe (s.i3cSay (be16 s.i3c.mrl ++ [1])))

/-- SETMRL may lower the maximum read length below 256 B. -/
def execI3cSetmrl (len : BitVec 16) (s : State) : Host.Outcome State Fault Refusal :=
  .next (s.i3cServe (s.setI3c (fun x => { x with mrl := if len.toNat < 256 then len else 256 })))

/-! ## Hot-Join and in-band interrupts (R476, R481) -/

/-- HOT_JOIN_REQUEST: an active target without an address asks for one, every 100 ms. -/
def execHotJoinRequest (s : State) : Host.Outcome State Fault Refusal :=
  .next (if s.i3cActive && s.i3c.address.isNone && s.i3c.hotJoinAt.all (fun t => decide (t + ms 100 ≤ s.now)) then
    (s.setI3c (fun x => { x with hotJoinAt := some s.now })).emit .hotJoin
  else s)

/-- The interrupt due first is sent; one that is NACKed waits for 1 ms. -/
def State.sendIbi (s : State) (acked : Bool) : State :=
  match s.i3c.ibiDue with
  | [] => s
  | b :: r =>
    (s.setI3c (fun x => if acked then { x with ibiDue := r, ibiRetryAt := none } else { x with ibiRetryAt := some (s.now + ms 1) })).emit (.ibi b)

/-- IBI_SEND. -/
def execIbiSend (acked : Bool) (s : State) : Host.Outcome State Fault Refusal :=
  .next (s.i3cServe (if s.i3c.ibiEn && s.i3c.ibiRetryAt.isNone then s.sendIbi acked else s))

/-- IBI_RETRY: 1 ms after a NACK. -/
def execIbiRetry (acked : Bool) (s : State) : Host.Outcome State Fault Refusal :=
  .next (s.i3cServe (if s.i3c.ibiEn && s.i3c.ibiRetryAt.any (fun t => decide (t ≤ s.now)) then s.sendIbi acked else s))

/-- RECORDS_WAITING_REMINDER: every 10 ms while the FIFO stays non-empty with no RECORD_READ. -/
def execRecordsWaitingReminder (s : State) : Host.Outcome State Fault Refusal :=
  .next (if !s.warden.bmcFifo.isEmpty && s.i3c.fifoAt.any (fun t => decide (t + ms 10 ≤ s.now)) then
    (s.setI3c (fun x => { x with fifoAt := some s.now })).ibi 0x01
  else s)

end Sys2Proof.Machine
end

