-- ==== Sys2Proof/Machine/Submit.lean ====
section
/-! DEFINITION. Admission of work orders (09_work_orders.md R242 to R255). -/

namespace Sys2Proof.Machine

open Sys2Proof

/-! ## The order header (Table 09-2) -/

/-- ORD_OPS. -/
def ordOps (h : List Byte) : Nat := field h 2 2

/-- ORD_FLAGS. -/
def ordFlags (h : List Byte) : Nat := field h 4 4

/-- ORD_RESULT_OP. -/
def ordResultOp (h : List Byte) : Nat := field h 16 2

/-- Address of descriptor i. -/
def descAddr (addr i : Nat) : Nat := addr + 64 + 256 * i

/-- The checks of the header's own fields; an ORD_RESULT_OP that names no operation is at fault (notes/assumptions/40.md). -/
def headerChecks (s : State) (addr : Nat) (h : List Byte) : List Check :=
  [(decide (field h 0 2 ≠ 1), .rejectFormat, 0x0000),
   (decide (ordResultOp h ≠ 0xFFFF) && decide (ordOps h ≤ ordResultOp h), .rejectFormat, 0x0010),
   (decide (ordOps h ≠ 0) && !s.reachableRange (descAddr addr 0) (256 * ordOps h), .rejectLimit, 0x0002),
   (decide (ordOps h ≠ 0) && s.rangeInPool (descAddr addr 0) (256 * ordOps h), .rejectState, 0x0002)]

/-! ## Descriptors (R245, R251, R253, R255) -/

/-- The indices that precede operation i, directly or through others, `descs` being the descriptors before it. -/
def ancestors (descs : List Oper) (i : Nat) (d : List Byte) : List Nat :=
  (List.range i).reverse.foldl (fun (l : List Nat) j =>
    if l.contains j then l ++ ((descs[j]?).map (fun x => opDeps x.desc)).getD [] else l) (opDeps d)

/-- The operation's descriptor begins with a handle field. -/
def OpKind.takesHandle : OpKind → Bool
  | .seqFork => true
  | .seqClose => true
  | .seqFree => true
  | .seqTruncate => true
  | .seqPreempt => true
  | .seqResume => true
  | .attAppend => true
  | .attDecode => true
  | .attPrefill => true
  | .kvWrite => true
  | .kvExport => true
  | _ => false

/-- A handle field that names an operation names a SEQ_OPEN or SEQ_FORK among the predecessors (R251). -/
def handleBad (descs : List Oper) (i : Nat) (d : List Byte) : Bool :=
  let h := field d 48 4
  let k := h % 65536
  bit h 31 && !((ancestors descs i d).contains k
    && (descs[k]?).any (fun x => decide (opCode x.desc = 0x20) || decide (opCode x.desc = 0x21)))

/-- The checks of a descriptor's header. -/
def descHeaderChecks (descs : List Oper) (i : Nat) (d : List Byte) : List Check :=
  [((opKind (opCode d)).isNone, .rejectFormat, 0), (decide (opFence d = 3) || decide (opClass d = 3), .rejectFormat, 4),
   (decide (6 < opNdep d), .rejectFormat, 5)]
  ++ (List.range (min 6 (opNdep d))).map (fun k => (decide (i ≤ field d (8 + 2 * k) 2), .rejectFormat, 8 + 2 * k))
  ++ [((opKind (opCode d)).any OpKind.takesHandle && handleBad descs i d, .rejectFormat, 48)]

/-- The checks of an operation's parameters, for a command of a controller. -/
def opChecks (s : State) (ctrl : Fin 4) (d : List Byte) (prog : List (BitVec 64)) : List Check :=
  match opKind (opCode d) with
  | some .mm => mmChecks s d
  | some .sfApply => sfChecks s d
  | some .softmax => smChecks s d
  | some .norm => nmChecks s d
  | some .dmCopy => dmChecks s ctrl d
  | some .memZero => mzChecks s d
  | some .bankRun => bankChecks s d prog
  | some .seqOpen => seqOpenChecks s d
  | some .attAppend => appendChecks s d
  | some .attDecode => attChecks s d
  | some .attPrefill => attChecks s d
  | some .kvWrite => kvWriteChecks s d
  | some .kvExport => kvExportChecks s ctrl d
  | _ => []

/-- The pair of a core operation must be present. -/
def pairChecks (s : State) (d : List Byte) : List Check :=
  [((((opKind (opCode d)).bind OpKind.coreUnit).isSome) && !s.pairPresent (opPair d), .rejectLimit, 2)]

/-- A check that rejects for format, or for a zero where zero is invalid. -/
def formatCheck (c : Check) : Bool := decide (c.2.1 = .rejectFormat) || decide (c.2.1 = .rejectInvalidZero)

/-- Every check of a descriptor in its order: format, then limits, then state (R253). -/
def descChecks (s : State) (ctrl : Fin 4) (descs : List Oper) (i : Nat) (d : List Byte) (prog : List (BitVec 64)) : List Check :=
  let l := opChecks s ctrl d prog
  descHeaderChecks descs i d ++ l.filter formatCheck ++ pairChecks s d ++ l.filter (fun c => !formatCheck c)

/-! ## Reading -/

/-- How an order ends that cannot be read (R253): the address of the code word or block, and the descriptor's index, 0xFFFF for the
header. -/
def unreadable (e : Ending) (i : Nat) : Ending := { status := e.status, detail := BitVec.ofNat 32 i, result := e.result }

/-- The words of a program image. -/
def progWords (bs : List Byte) (n : Nat) : List (BitVec 64) := (List.range n).map (fun k => BitVec.ofNat 64 (field bs (8 * k) 8))

/-- The program image of a BANK_RUN is read once, where there is one that can be (06_bank_processing.md R152). -/
def State.readProg (s : State) (c : Cmd) (d : List Byte) : List (BitVec 64) × State × Option Ending :=
  let a := field d 56 8
  let n := brLen d
  if opKind (opCode d) ≠ some .bankRun ∨ n = 0 ∨ 256 < n ∨ a % 32 ≠ 0 ∨ farBase ≤ a ∨ !s.reachableRange a (8 * n) then ([], s, none)
  else if s.sealedAgainst c.ctrl c.epoch a (8 * n) then ([], s, some { refused .sealedRange with result := 0xFFFF })
  else
    let (bs, io) := s.load {} a (8 * n)
    (progWords bs n, io.s, io.stop)

/-- Read and check the descriptors in ascending index (R253): how the order ends where one fails, or its operations. -/
def State.readDescs (s : State) (c : Cmd) (addr i : Nat) (acc : List Oper) : Nat → State × Except Ending (List Oper)
  | 0 => (s, .ok acc)
  | n + 1 =>
    let (d, io) := s.load {} (descAddr addr i) 256
    match io.stop with
    | some e => (io.s, .error (unreadable e i))
    | none =>
      let (prog, t, stop) := io.s.readProg c d
      match stop with
      | some e => (t, .error (if e.status = .securityRefused then e else unreadable e i))
      | none =>
        match firstFault .descriptor (descChecks t c.ctrl acc i d prog) with
        | some (st, det) =>
          let e : Ending := { status := st, detail := det }
          (t.writeOpstat addr i (opstat e) 0, .error { e with result := BitVec.ofNat 64 i })
        | none => State.readDescs t c addr (i + 1) (acc ++ [{ desc := d, prog := prog }]) n

/-! ## Admission -/

/-- ORD_START_NS is met at once: no start time, or a boundary at or after it has come (R259, 10_rack_time_rations.md R289). -/
def State.startMet (s : State) (h : List Byte) : Bool :=
  !bit (ordFlags h) 2 || decide (field h 8 8 ≤ s.rtNow / periodNs * periodNs)

/-- The order as admitted. -/
def orderOf (s : State) (addr : Nat) (h : List Byte) (ops : List Oper) : Order :=
  { addr := addr, cont := bit (ordFlags h) 0, serial := bit (ordFlags h) 1,
    startNs := if bit (ordFlags h) 2 then some (BitVec.ofNat 64 (field h 8 8)) else none,
    resultOp := BitVec.ofNat 16 (ordResultOp h), started := s.startMet h, ops := ops }

/-- The sequence handles an order names outright, for the tag mirror (R265). -/
def ordHandles (ops : List Oper) : List Nat :=
  ops.foldl (fun (l : List Nat) x =>
    if (opKind (opCode x.desc)).any OpKind.takesHandle && !bit (field x.desc 48 4) 31 then insertNat l (field x.desc 48 4 % 65536) else l) []

/-- OPSTAT and OPRESULT of every descriptor are written 0 (R244). -/
def State.zeroOpstats (s : State) (addr n : Nat) : State :=
  (List.range n).foldl (fun (t : State) i => t.writeOpstat addr i 0 0) s

/-- The order is admitted whole. -/
def State.admitOrder (s : State) (tag addr : Nat) (h : List Byte) (ops : List Oper) : State :=
  (s.zeroOpstats addr ops.length).setCmd tag (fun c =>
    { c with order := some (orderOf s addr h ops), handles := ordHandles ops })

/-- The header is read and checked, then the descriptors. -/
def Adm.readOrder (a : Adm) (s : State) (c : Cmd) (addr : Nat) : State :=
  let (h, io) := s.load {} addr 64
  match io.stop with
  | some e => a.finish io.s (unreadable e 0xFFFF)
  | none =>
    match firstFault .header (headerChecks io.s addr h) with
    | some (st, det) => a.finish io.s { status := st, detail := det, result := 0xFFFF }
    | none =>
      if ordOps h = 0 then a.finish io.s { status := .doneEmpty }
      else if io.s.sealedAgainst c.ctrl c.epoch addr (64 + 256 * ordOps h) then a.finish io.s { refused .sealedRange with result := 0xFFFF }
      else match io.s.readDescs c addr 0 [] (ordOps h) with
        | (t, .error e) => a.finish t e
        | (t, .ok ops) => t.admitOrder a.tag addr h ops

/-- The checks of ORD_ADDR (R243, Table 09-14, 05_attention_kv_cache.md R117): a module address, whose header lies in memory. -/
def ordAddrChecks (s : State) (addr : Nat) : List Check :=
  [(decide (addr % 256 ≠ 0) || spaceOneBad addr, .rejectFormat, 24), (!s.reachableRange addr 64, .rejectLimit, 24),
   (s.rangeInPool addr 64, .rejectState, 24)]

/-- SUBMIT_ORDER. -/
def execSubmitOrder (ctrl : Fin 4) (slot : Fin 1024) (s : State) : Host.Outcome State Fault Refusal :=
  .next (s.serve 0x0001 ctrl slot (fun a t => a.checked t (ordAddrChecks t (field a.b 24 8)) (fun t =>
    match t.cmd a.tag with
    | none => t
    | some c =>
      if t.sealedAgainst c.ctrl c.epoch (field a.b 24 8) 64 then a.finish t { refused .sealedRange with result := 0xFFFF }
      else a.readOrder t c (field a.b 24 8))))

end Sys2Proof.Machine
end

