-- ==== Sys2Proof/Machine/Dispatch.lean ====
section
/-! DEFINITION. The dispatch table: one arm for every command of spec/opcode_table.json. -/

namespace Sys2Proof.Machine

open Sys2Proof

/-- What a command does to everything but the queue. -/
def exec (i : Instr) (s : State) : Host.Outcome State Fault Refusal :=
  match i with
  | .sealWordWrite port slot word first => Sys2Proof.Machine.execSealWordWrite port slot word first s
  | .sealGapRelease ctrl slot => Sys2Proof.Machine.execSealGapRelease ctrl slot s
  | .registerWrite port offset width value => Sys2Proof.Machine.execRegisterWrite port offset width value s
  | .rationApply port => Sys2Proof.Machine.execRationApply port s
  | .crApply port => Sys2Proof.Machine.execCrApply port s
  | .crHeadWrite port ring head => Sys2Proof.Machine.execCrHeadWrite port ring head s
  | .ownClaim port => Sys2Proof.Machine.execOwnClaim port s
  | .ownRenew port => Sys2Proof.Machine.execOwnRenew port s
  | .ownHandover port => Sys2Proof.Machine.execOwnHandover port s
  | .ownAccept port => Sys2Proof.Machine.execOwnAccept port s
  | .ownRelease port => Sys2Proof.Machine.execOwnRelease port s
  | .claimWindowEnd => Sys2Proof.Machine.execClaimWindowEnd s
  | .leaseExpiry => Sys2Proof.Machine.execLeaseExpiry s
  | .quietEnd => Sys2Proof.Machine.execQuietEnd s
  | .handoverLapse => Sys2Proof.Machine.execHandoverLapse s
  | .submitOrder ctrl slot => Sys2Proof.Machine.execSubmitOrder ctrl slot s
  | .geometryRead ctrl slot => Sys2Proof.Machine.execGeometryRead ctrl slot s
  | .coreConfig ctrl slot => Sys2Proof.Machine.execCoreConfig ctrl slot s
  | .modeSet ctrl slot => Sys2Proof.Machine.execModeSet ctrl slot s
  | .kvPool ctrl slot => Sys2Proof.Machine.execKvPool ctrl slot s
  | .bivouacSet ctrl slot => Sys2Proof.Machine.execBivouacSet ctrl slot s
  | .kvMapRead ctrl slot => Sys2Proof.Machine.execKvMapRead ctrl slot s
  | .memWindowSet ctrl slot => Sys2Proof.Machine.execMemWindowSet ctrl slot s
  | .memScrubSet ctrl slot => Sys2Proof.Machine.execMemScrubSet ctrl slot s
  | .memRetire ctrl slot => Sys2Proof.Machine.execMemRetire ctrl slot s
  | .memUnretire ctrl slot => Sys2Proof.Machine.execMemUnretire ctrl slot s
  | .memErrlogRead ctrl slot => Sys2Proof.Machine.execMemErrlogRead ctrl slot s
  | .ringAdopt ctrl slot => Sys2Proof.Machine.execRingAdopt ctrl slot s
  | .strikeOrder ctrl slot => Sys2Proof.Machine.execStrikeOrder ctrl slot s
  | .strikeSeq ctrl slot => Sys2Proof.Machine.execStrikeSeq ctrl slot s
  | .strikeAll ctrl slot => Sys2Proof.Machine.execStrikeAll ctrl slot s
  | .unitStop tag op => Sys2Proof.Machine.execUnitStop tag op s
  | .strikeRecords => Sys2Proof.Machine.execStrikeRecords s
  | .ctlClaim ctrl slot => Sys2Proof.Machine.execCtlClaim ctrl slot s
  | .ctlRenew ctrl slot => Sys2Proof.Machine.execCtlRenew ctrl slot s
  | .ctlHandover ctrl slot => Sys2Proof.Machine.execCtlHandover ctrl slot s
  | .ctlAccept ctrl slot => Sys2Proof.Machine.execCtlAccept ctrl slot s
  | .ctlRelease ctrl slot => Sys2Proof.Machine.execCtlRelease ctrl slot s
  | .ctlOwnStatus ctrl slot => Sys2Proof.Machine.execCtlOwnStatus ctrl slot s
  | .timeConfig ctrl slot => Sys2Proof.Machine.execTimeConfig ctrl slot s
  | .powerSlotsSet ctrl slot => Sys2Proof.Machine.execPowerSlotsSet ctrl slot s
  | .powerSlotsRead ctrl slot => Sys2Proof.Machine.execPowerSlotsRead ctrl slot s
  | .coolantConfig ctrl slot => Sys2Proof.Machine.execCoolantConfig ctrl slot s
  | .sensorDemote ctrl slot => Sys2Proof.Machine.execSensorDemote ctrl slot s
  | .sensorRestore ctrl slot => Sys2Proof.Machine.execSensorRestore ctrl slot s
  | .thermalClear ctrl slot => Sys2Proof.Machine.execThermalClear ctrl slot s
  | .thermalClearPitchStart => Sys2Proof.Machine.execThermalClearPitchStart s
  | .swingLimitSet ctrl slot => Sys2Proof.Machine.execSwingLimitSet ctrl slot s
  | .thermalRead ctrl slot => Sys2Proof.Machine.execThermalRead ctrl slot s
  | .linkConfig ctrl slot => Sys2Proof.Machine.execLinkConfig ctrl slot s
  | .linkEnumerate ctrl slot => Sys2Proof.Machine.execLinkEnumerate ctrl slot s
  | .linkRouteSet ctrl slot => Sys2Proof.Machine.execLinkRouteSet ctrl slot s
  | .linkRetrain ctrl slot => Sys2Proof.Machine.execLinkRetrain ctrl slot s
  | .linkGrant ctrl slot => Sys2Proof.Machine.execLinkGrant ctrl slot s
  | .linkStatusRead ctrl slot => Sys2Proof.Machine.execLinkStatusRead ctrl slot s
  | .linkCopy ctrl slot => Sys2Proof.Machine.execLinkCopy ctrl slot s
  | .linkCopyTimeout xfer => Sys2Proof.Machine.execLinkCopyTimeout xfer s
  | .pitchConfig ctrl slot => Sys2Proof.Machine.execPitchConfig ctrl slot s
  | .resetDevice ctrl slot => Sys2Proof.Machine.execResetDevice ctrl slot s
  | .computeResetComplete fwOk failedCores => Sys2Proof.Machine.execComputeResetComplete fwOk failedCores s
  | .defectRead ctrl slot => Sys2Proof.Machine.execDefectRead ctrl slot s
  | .attest ctrl slot => Sys2Proof.Machine.execAttest ctrl slot s
  | .certRead ctrl slot => Sys2Proof.Machine.execCertRead ctrl slot s
  | .fwWrite ctrl slot => Sys2Proof.Machine.execFwWrite ctrl slot s
  | .fwStage ctrl slot => Sys2Proof.Machine.execFwStage ctrl slot s
  | .fwActivate ctrl slot => Sys2Proof.Machine.execFwActivate ctrl slot s
  | .fwCommit ctrl slot => Sys2Proof.Machine.execFwCommit ctrl slot s
  | .fwAbandon ctrl slot => Sys2Proof.Machine.execFwAbandon ctrl slot s
  | .trialTimeout => Sys2Proof.Machine.execTrialTimeout s
  | .trustPolicy ctrl slot => Sys2Proof.Machine.execTrustPolicy ctrl slot s
  | .weightsUnseal ctrl slot => Sys2Proof.Machine.execWeightsUnseal ctrl slot s
  | .sealedRelease ctrl slot => Sys2Proof.Machine.execSealedRelease ctrl slot s
  | .eventRead ctrl slot => Sys2Proof.Machine.execEventRead ctrl slot s
  | .wdogConfig ctrl slot => Sys2Proof.Machine.execWdogConfig ctrl slot s
  | .opNop tag op => Sys2Proof.Machine.execOpNop tag op s
  | .opMm tag op => Sys2Proof.Machine.execOpMm tag op s
  | .opSfApply tag op => Sys2Proof.Machine.execOpSfApply tag op s
  | .opSoftmax tag op => Sys2Proof.Machine.execOpSoftmax tag op s
  | .opNorm tag op => Sys2Proof.Machine.execOpNorm tag op s
  | .opDmCopy tag op => Sys2Proof.Machine.execOpDmCopy tag op s
  | .opMemZero tag op => Sys2Proof.Machine.execOpMemZero tag op s
  | .opBankRun tag op => Sys2Proof.Machine.execOpBankRun tag op s
  | .opSeqOpen tag op => Sys2Proof.Machine.execOpSeqOpen tag op s
  | .opSeqFork tag op => Sys2Proof.Machine.execOpSeqFork tag op s
  | .opSeqClose tag op => Sys2Proof.Machine.execOpSeqClose tag op s
  | .opSeqFree tag op => Sys2Proof.Machine.execOpSeqFree tag op s
  | .opSeqTruncate tag op => Sys2Proof.Machine.execOpSeqTruncate tag op s
  | .opSeqPreempt tag op => Sys2Proof.Machine.execOpSeqPreempt tag op s
  | .opSeqResume tag op => Sys2Proof.Machine.execOpSeqResume tag op s
  | .opAttAppend tag op => Sys2Proof.Machine.execOpAttAppend tag op s
  | .opAttDecode tag op => Sys2Proof.Machine.execOpAttDecode tag op s
  | .opAttPrefill tag op => Sys2Proof.Machine.execOpAttPrefill tag op s
  | .opKvWrite tag op => Sys2Proof.Machine.execOpKvWrite tag op s
  | .opKvExport tag op => Sys2Proof.Machine.execOpKvExport tag op s
  | .orderStart tag => Sys2Proof.Machine.execOrderStart tag s
  | .operationComplete tag op => Sys2Proof.Machine.execOperationComplete tag op s
  | .completionRecordWrite ctrl ring => Sys2Proof.Machine.execCompletionRecordWrite ctrl ring s
  | .moderationTimeout port ring => Sys2Proof.Machine.execModerationTimeout port ring s
  | .bankEnd pair => Sys2Proof.Machine.execBankEnd pair s
  | .bankLoop pair => Sys2Proof.Machine.execBankLoop pair s
  | .bankEndl pair => Sys2Proof.Machine.execBankEndl pair s
  | .bankSetp pair => Sys2Proof.Machine.execBankSetp pair s
  | .bankClra pair => Sys2Proof.Machine.execBankClra pair s
  | .bankLd pair => Sys2Proof.Machine.execBankLd pair s
  | .bankSt pair => Sys2Proof.Machine.execBankSt pair s
  | .bankLda pair => Sys2Proof.Machine.execBankLda pair s
  | .bankSta pair => Sys2Proof.Machine.execBankSta pair s
  | .bankMac pair => Sys2Proof.Machine.execBankMac pair s
  | .bankAxpy pair => Sys2Proof.Machine.execBankAxpy pair s
  | .bankScal pair => Sys2Proof.Machine.execBankScal pair s
  | .bankDot pair => Sys2Proof.Machine.execBankDot pair s
  | .bankExps pair => Sys2Proof.Machine.execBankExps pair s
  | .bankExpw pair => Sys2Proof.Machine.execBankExpw pair s
  | .bankRsum pair => Sys2Proof.Machine.execBankRsum pair s
  | .bankRmax pair => Sys2Proof.Machine.execBankRmax pair s
  | .bankSten pair => Sys2Proof.Machine.execBankSten pair s
  | .bankCsel pair => Sys2Proof.Machine.execBankCsel pair s
  | .bankRise pair => Sys2Proof.Machine.execBankRise pair s
  | .sequenceLoad pair => Sys2Proof.Machine.execSequenceLoad pair s
  | .sortieStart pair => Sys2Proof.Machine.execSortieStart pair s
  | .sortieEnd pair => Sys2Proof.Machine.execSortieEnd pair s
  | .refreshSlot pair canaryFlips => Sys2Proof.Machine.execRefreshSlot pair canaryFlips s
  | .canaryClear pair => Sys2Proof.Machine.execCanaryClear pair s
  | .scrubSlot pair => Sys2Proof.Machine.execScrubSlot pair s
  | .scrubLate pair => Sys2Proof.Machine.execScrubLate pair s
  | .rationPeriodBoundary => Sys2Proof.Machine.execRationPeriodBoundary s
  | .nearRead pair offset len => Sys2Proof.Machine.execNearRead pair offset len s
  | .nearWrite pair offset data => Sys2Proof.Machine.execNearWrite pair offset data s
  | .farRead core addr len cls => Sys2Proof.Machine.execFarRead core addr len cls s
  | .farWrite core addr data cls => Sys2Proof.Machine.execFarWrite core addr data cls s
  | .mergeEntryIdle pair word => Sys2Proof.Machine.execMergeEntryIdle pair word s
  | .accessPromote pair index => Sys2Proof.Machine.execAccessPromote pair index s
  | .sliceFail tower => Sys2Proof.Machine.execSliceFail tower s
  | .channelGroupFailing pair group connection => Sys2Proof.Machine.execChannelGroupFailing pair group connection s
  | .bar2Read port offset len tBit => Sys2Proof.Machine.execBar2Read port offset len tBit s
  | .bar2Write port offset data tBit => Sys2Proof.Machine.execBar2Write port offset data tBit s
  | .rtNowLowRead port => Sys2Proof.Machine.execRtNowLowRead port s
  | .rtNowHighRead port => Sys2Proof.Machine.execRtNowHighRead port s
  | .cvGo port chan => Sys2Proof.Machine.execCvGo port chan s
  | .cvReset port chan => Sys2Proof.Machine.execCvReset port chan s
  | .cvCheck port chan => Sys2Proof.Machine.execCvCheck port chan s
  | .cvCompare chan => Sys2Proof.Machine.execCvCompare chan s
  | .cvAbort port chan => Sys2Proof.Machine.execCvAbort port chan s
  | .cvFeedB port chan value => Sys2Proof.Machine.execCvFeedB port chan value s
  | .cvFeedH port chan value => Sys2Proof.Machine.execCvFeedH port chan value s
  | .cvFeedW port chan value => Sys2Proof.Machine.execCvFeedW port chan value s
  | .cvScanEnd chan => Sys2Proof.Machine.execCvScanEnd chan s
  | .fastInterruptDelivery cluster source => Sys2Proof.Machine.execFastInterruptDelivery cluster source s
  | .normalInterruptDelivery cluster source => Sys2Proof.Machine.execNormalInterruptDelivery cluster source s
  | .lanternWake cluster source => Sys2Proof.Machine.execLanternWake cluster source s
  | .sleepTimer cluster core => Sys2Proof.Machine.execSleepTimer cluster core s
  | .heartbeat cluster => Sys2Proof.Machine.execHeartbeat cluster s
  | .wdogWarn cluster => Sys2Proof.Machine.execWdogWarn cluster s
  | .watchdogReset cluster => Sys2Proof.Machine.execWatchdogReset cluster s
  | .watchdogRestart cluster fwOk badTags => Sys2Proof.Machine.execWatchdogRestart cluster fwOk badTags s
  | .sensorSample readings => Sys2Proof.Machine.execSensorSample readings s
  | .sensorDisagree tower layer site => Sys2Proof.Machine.execSensorDisagree tower layer site s
  | .sensorDisagreeClear => Sys2Proof.Machine.execSensorDisagreeClear s
  | .throttleStep => Sys2Proof.Machine.execThrottleStep s
  | .estimatorUpdate tower => Sys2Proof.Machine.execEstimatorUpdate tower s
  | .shutdownRailDrop => Sys2Proof.Machine.execShutdownRailDrop s
  | .shutdownPortDrop => Sys2Proof.Machine.execShutdownPortDrop s
  | .trayPoll half reply => Sys2Proof.Machine.execTrayPoll half reply s
  | .trayPollRetry half reply => Sys2Proof.Machine.execTrayPollRetry half reply s
  | .calorimetricCheck => Sys2Proof.Machine.execCalorimetricCheck s
  | .swingSample tower => Sys2Proof.Machine.execSwingSample tower s
  | .wearPersist => Sys2Proof.Machine.execWearPersist s
  | .ppsEdge rising freqPpb => Sys2Proof.Machine.execPpsEdge rising freqPpb s
  | .trefLoss => Sys2Proof.Machine.execTrefLoss s
  | .beaconEmit => Sys2Proof.Machine.execBeaconEmit s
  | .beacon port hdr msg => Sys2Proof.Machine.execBeacon port hdr msg s
  | .beaconLoss => Sys2Proof.Machine.execBeaconLoss s
  | .beaconRootResume => Sys2Proof.Machine.execBeaconRootResume s
  | .powerFrameBoundary inputW => Sys2Proof.Machine.execPowerFrameBoundary inputW s
  | .silmanPresenceChange port present => Sys2Proof.Machine.execSilmanPresenceChange port present s
  | .partnerDetect port lanes => Sys2Proof.Machine.execPartnerDetect port lanes s
  | .trainingComplete port goodLanes peerPort => Sys2Proof.Machine.execTrainingComplete port goodLanes peerPort s
  | .trainingOverrun port => Sys2Proof.Machine.execTrainingOverrun port s
  | .laneFailing port lane => Sys2Proof.Machine.execLaneFailing port lane s
  | .fcAckTimer port => Sys2Proof.Machine.execFcAckTimer port s
  | .flitIdle port hdr => Sys2Proof.Machine.execFlitIdle port hdr s
  | .fcAcknowledge port hdr next credits => Sys2Proof.Machine.execFcAcknowledge port hdr next credits s
  | .fcReplayRequest port hdr next credits => Sys2Proof.Machine.execFcReplayRequest port hdr next credits s
  | .kxHello port random chain => Sys2Proof.Machine.execKxHello port random chain s
  | .kxKemKey port ek report => Sys2Proof.Machine.execKxKemKey port ek report s
  | .kxKemCt port ct report => Sys2Proof.Machine.execKxKemCt port ct report s
  | .kxFinish port signature => Sys2Proof.Machine.execKxFinish port signature s
  | .kxAbort port reason => Sys2Proof.Machine.execKxAbort port reason s
  | .keyExchangeTimeout port => Sys2Proof.Machine.execKeyExchangeTimeout port s
  | .keyExchangeRetry port => Sys2Proof.Machine.execKeyExchangeRetry port s
  | .rekey port => Sys2Proof.Machine.execRekey port s
  | .oldKeyExpiry port => Sys2Proof.Machine.execOldKeyExpiry port s
  | .enumToken port hdr msg => Sys2Proof.Machine.execEnumToken port hdr msg s
  | .enumReturn port hdr msg => Sys2Proof.Machine.execEnumReturn port hdr msg s
  | .enumCross port hdr msg => Sys2Proof.Machine.execEnumCross port hdr msg s
  | .enumBoundary port hdr msg => Sys2Proof.Machine.execEnumBoundary port hdr msg s
  | .enumTimeout port => Sys2Proof.Machine.execEnumTimeout port s
  | .enumCommit port hdr msg => Sys2Proof.Machine.execEnumCommit port hdr msg s
  | .commitTakeEffect => Sys2Proof.Machine.execCommitTakeEffect s
  | .commitFloodRepeat => Sys2Proof.Machine.execCommitFloodRepeat s
  | .linkEnumerateComplete => Sys2Proof.Machine.execLinkEnumerateComplete s
  | .pendingIdLapse => Sys2Proof.Machine.execPendingIdLapse s
  | .enumJoin port hdr => Sys2Proof.Machine.execEnumJoin port hdr s
  | .delayExchangeStart port t1 => Sys2Proof.Machine.execDelayExchangeStart port t1 s
  | .delayReq port hdr msg t2 t3 => Sys2Proof.Machine.execDelayReq port hdr msg t2 t3 s
  | .delayResp port hdr msg t4 => Sys2Proof.Machine.execDelayResp port hdr msg t4 s
  | .remoteWrite port hdr msg => Sys2Proof.Machine.execRemoteWrite port hdr msg s
  | .remoteRead port hdr msg => Sys2Proof.Machine.execRemoteRead port hdr msg s
  | .remoteReadData port hdr msg => Sys2Proof.Machine.execRemoteReadData port hdr msg s
  | .remoteWriteAck port hdr msg => Sys2Proof.Machine.execRemoteWriteAck port hdr msg s
  | .remoteRefuse port hdr msg => Sys2Proof.Machine.execRemoteRefuse port hdr msg s
  | .mgmtSlot port hdr slot bytes => Sys2Proof.Machine.execMgmtSlot port hdr slot bytes s
  | .mgmtCompletion port hdr record => Sys2Proof.Machine.execMgmtCompletion port hdr record s
  | .mgmtOwnershipNotice port hdr notice => Sys2Proof.Machine.execMgmtOwnershipNotice port hdr notice s
  | .seamFrame mod wt parityOk content => Sys2Proof.Machine.execSeamFrame mod wt parityOk content s
  | .seamRetrainRequest mod => Sys2Proof.Machine.execSeamRetrainRequest mod s
  | .seamWidthAdvert mod width failed => Sys2Proof.Machine.execSeamWidthAdvert mod width failed s
  | .seamReceiveState mod nextSeq => Sys2Proof.Machine.execSeamReceiveState mod nextSeq s
  | .seamRetrainComplete mod foundFailed => Sys2Proof.Machine.execSeamRetrainComplete mod foundFailed s
  | .seamRackTimeWord rackTime => Sys2Proof.Machine.execSeamRackTimeWord rackTime s
  | .seamLaneFail mod lane eToW => Sys2Proof.Machine.execSeamLaneFail mod lane eToW s
  | .seamDiscoveryRecord rec => Sys2Proof.Machine.execSeamDiscoveryRecord rec s
  | .seamNoPeer => Sys2Proof.Machine.execSeamNoPeer s
  | .halfLossDetect => Sys2Proof.Machine.execHalfLossDetect s
  | .hostPortReset port kind => Sys2Proof.Machine.execHostPortReset port kind s
  | .hostLinkTrain port => Sys2Proof.Machine.execHostLinkTrain port s
  | .tdiError port => Sys2Proof.Machine.execTdiError port s
  | .spdmGetVersion port => Sys2Proof.Machine.execSpdmGetVersion port s
  | .spdmGetCapabilities port => Sys2Proof.Machine.execSpdmGetCapabilities port s
  | .spdmNegotiateAlgorithms port offersSet => Sys2Proof.Machine.execSpdmNegotiateAlgorithms port offersSet s
  | .spdmGetDigests port => Sys2Proof.Machine.execSpdmGetDigests port s
  | .spdmGetCertificate port certSlot offset len => Sys2Proof.Machine.execSpdmGetCertificate port certSlot offset len s
  | .spdmChallenge port nonce => Sys2Proof.Machine.execSpdmChallenge port nonce s
  | .spdmGetMeasurements port block nonce => Sys2Proof.Machine.execSpdmGetMeasurements port block nonce s
  | .spdmKeyExchange port ek => Sys2Proof.Machine.execSpdmKeyExchange port ek s
  | .spdmFinish port session hmac => Sys2Proof.Machine.execSpdmFinish port session hmac s
  | .spdmKeyUpdate port session => Sys2Proof.Machine.execSpdmKeyUpdate port session s
  | .spdmHeartbeat port session => Sys2Proof.Machine.execSpdmHeartbeat port session s
  | .spdmEndSession port session => Sys2Proof.Machine.execSpdmEndSession port session s
  | .spdmVendorDefined port session req => Sys2Proof.Machine.execSpdmVendorDefined port session req s
  | .spdmSessionTimeout port session => Sys2Proof.Machine.execSpdmSessionTimeout port session s
  | .farTierRead offset len => Sys2Proof.Machine.execFarTierRead offset len s
  | .farTierWrite offset data => Sys2Proof.Machine.execFarTierWrite offset data s
  | .farTierInitComplete block => Sys2Proof.Machine.execFarTierInitComplete block s
  | .farTierLinkLoss => Sys2Proof.Machine.execFarTierLinkLoss s
  | .vinApply milliVolts => Sys2Proof.Machine.execVinApply milliVolts s
  | .mateSnsChange high => Sys2Proof.Machine.execMateSnsChange high s
  | .overvoltage milliVolts => Sys2Proof.Machine.execOvervoltage milliVolts s
  | .powerFail => Sys2Proof.Machine.execPowerFail s
  | .retentionHandoff => Sys2Proof.Machine.execRetentionHandoff s
  | .railFault half => Sys2Proof.Machine.execRailFault half s
  | .modResetNAssert => Sys2Proof.Machine.execModResetNAssert s
  | .modResetNRelease => Sys2Proof.Machine.execModResetNRelease s
  | .pitchStageComplete result => Sys2Proof.Machine.execPitchStageComplete result s
  | .eventRecordWrite => Sys2Proof.Machine.execEventRecordWrite s
  | .eventWindowClose kind source => Sys2Proof.Machine.execEventWindowClose kind source s
  | .lsVector0Deferred port => Sys2Proof.Machine.execLsVector0Deferred port s
  | .i3cSlotWrite slot offset data => Sys2Proof.Machine.execI3cSlotWrite slot offset data s
  | .i3cSpaceRead space offset => Sys2Proof.Machine.execI3cSpaceRead space offset s
  | .i3cRecordRead => Sys2Proof.Machine.execI3cRecordRead s
  | .i3cAttestNonce nonce => Sys2Proof.Machine.execI3cAttestNonce nonce s
  | .i3cPrivateRead len => Sys2Proof.Machine.execI3cPrivateRead len s
  | .i3cEntdaa address => Sys2Proof.Machine.execI3cEntdaa address s
  | .i3cRstdaa => Sys2Proof.Machine.execI3cRstdaa s
  | .i3cSetnewda address => Sys2Proof.Machine.execI3cSetnewda address s
  | .i3cGetpid => Sys2Proof.Machine.execI3cGetpid s
  | .i3cGetbcr => Sys2Proof.Machine.execI3cGetbcr s
  | .i3cGetdcr => Sys2Proof.Machine.execI3cGetdcr s
  | .i3cGetstatus => Sys2Proof.Machine.execI3cGetstatus s
  | .i3cEnec ibi => Sys2Proof.Machine.execI3cEnec ibi s
  | .i3cDisec ibi => Sys2Proof.Machine.execI3cDisec ibi s
  | .i3cGetmwl => Sys2Proof.Machine.execI3cGetmwl s
  | .i3cSetmwl len => Sys2Proof.Machine.execI3cSetmwl len s
  | .i3cGetmrl => Sys2Proof.Machine.execI3cGetmrl s
  | .i3cSetmrl len => Sys2Proof.Machine.execI3cSetmrl len s
  | .hotJoinRequest => Sys2Proof.Machine.execHotJoinRequest s
  | .ibiSend acked => Sys2Proof.Machine.execIbiSend acked s
  | .ibiRetry acked => Sys2Proof.Machine.execIbiRetry acked s
  | .recordsWaitingReminder => Sys2Proof.Machine.execRecordsWaitingReminder s
  | .intakeBacklog => Sys2Proof.Machine.execIntakeBacklog s
  | .commandCodeNotDefined ctrl slot => Sys2Proof.Machine.execCommandCodeNotDefined ctrl slot s
  | .uncorrectableCodeword port lane => Sys2Proof.Machine.execUncorrectableCodeword port lane s
  | .reservedFlitType port hdr flitType kind => Sys2Proof.Machine.execReservedFlitType port hdr flitType kind s
  | .seamSidebandFail mod => Sys2Proof.Machine.execSeamSidebandFail mod s
  | .seamLogicReset mod => Sys2Proof.Machine.execSeamLogicReset mod s
  | .channelPauseEnd pair => Sys2Proof.Machine.execChannelPauseEnd pair s
  | .farTierRetrain => Sys2Proof.Machine.execFarTierRetrain s
  | .coldPitchRailsReturn => Sys2Proof.Machine.execColdPitchRailsReturn s
  | .resetPitchStart => Sys2Proof.Machine.execResetPitchStart s
  | .entropyHealthTest pass => Sys2Proof.Machine.execEntropyHealthTest pass s
  | .retentionExpiry => Sys2Proof.Machine.execRetentionExpiry s
  | .i3cWriteDiscard => Sys2Proof.Machine.execI3cWriteDiscard s

end Sys2Proof.Machine
end

