-- ==== Sys2Proof/WellFormed.lean ====
section
/-! DEFINITION. Which operands a command can carry: the ranges and lengths the spec gives messages, slots, tags and
accesses that the types of Syntax.lean do not already force. A meaning is total and does not rest on these checks. -/

namespace Sys2Proof

/-- Slots of a controller's path (08_warden_mailboxes.md Table 08-2). -/
def slotsOf (c : Fin 4) : Nat :=
  match c with
  | 0 => 1024
  | 1 => 1024
  | 2 => 32
  | 3 => 256

/-- A slot of the controller's path. -/
def slotOk (c : Fin 4) (k : Fin 1024) : Bool := decide (k.val < slotsOf c)

/-- Completion rings of a controller: 64 on a host port, one FIFO or frame path for the BMC and the peer (Table 08-2). -/
def ringCount (c : Fin 4) : Nat :=
  match c with
  | 0 => 64
  | 1 => 64
  | 2 => 1
  | 3 => 1

/-- A command tag: 16 bits (08_warden_mailboxes.md Table 08-3). -/
def tagOk (t : Nat) : Bool := decide (t < 65536)

/-- A tray reply has eight bytes (17_module_electrical.md R483). -/
def TrayReply.wf (r : TrayReply) : Bool :=
  match r with
  | .bytes b => decide (b.length = 8)
  | .silent => true
  | .lost => true

/-- The data of a remote-memory message fits in its flits (12_silman_and_seam.md R352). -/
def RemoteMsg.wf (m : RemoteMsg) : Bool := decide (m.data.length < 65536)

/-- A stream key has 32 bytes (15_trust_and_firmware.md R414). -/
def VendorReq.wf (r : VendorReq) : Bool :=
  match r with
  | .ideKeySet _ key => decide (key.length = 32)
  | .ideKeyStop _ => true
  | .tdispLock _ => true
  | .tdispStart => true
  | .tdispStop => true
  | .tdispState => true

/-- A faulty row is one of the 9,216 rows of its bank (07_vaults_and_protection.md Table 07-2). -/
def StageResult.wf (r : StageResult) : Bool :=
  match r with
  | .dram rows _ => rows.all (fun f => decide (f.row < 9216))
  | _ => true

/-- The operands of a command are ones the spec lets it carry. -/
def Instr.wf (i : Instr) : Bool :=
  match i with
  | .sealWordWrite _ _ _ _ => true
  | .sealGapRelease c k => slotOk c k
  | .registerWrite _ o w v => (decide (w = 4) || decide (w = 8)) && decide (o % w = 0) && decide (o < 2 ^ 26) && decide (v.toNat < 2 ^ (8 * w))
  | .rationApply _ => true
  | .crApply _ => true
  | .crHeadWrite _ _ _ => true
  | .ownClaim _ => true
  | .ownRenew _ => true
  | .ownHandover _ => true
  | .ownAccept _ => true
  | .ownRelease _ => true
  | .claimWindowEnd => true
  | .leaseExpiry => true
  | .quietEnd => true
  | .handoverLapse => true
  | .submitOrder c k => slotOk c k
  | .geometryRead c k => slotOk c k
  | .coreConfig c k => slotOk c k
  | .modeSet c k => slotOk c k
  | .kvPool c k => slotOk c k
  | .bivouacSet c k => slotOk c k
  | .kvMapRead c k => slotOk c k
  | .memWindowSet c k => slotOk c k
  | .memScrubSet c k => slotOk c k
  | .memRetire c k => slotOk c k
  | .memUnretire c k => slotOk c k
  | .memErrlogRead c k => slotOk c k
  | .ringAdopt c k => slotOk c k
  | .strikeOrder c k => slotOk c k
  | .strikeSeq c k => slotOk c k
  | .strikeAll c k => slotOk c k
  | .unitStop t k => tagOk t && decide (k < 65535)
  | .strikeRecords => true
  | .ctlClaim c k => slotOk c k
  | .ctlRenew c k => slotOk c k
  | .ctlHandover c k => slotOk c k
  | .ctlAccept c k => slotOk c k
  | .ctlRelease c k => slotOk c k
  | .ctlOwnStatus c k => slotOk c k
  | .timeConfig c k => slotOk c k
  | .powerSlotsSet c k => slotOk c k
  | .powerSlotsRead c k => slotOk c k
  | .coolantConfig c k => slotOk c k
  | .sensorDemote c k => slotOk c k
  | .sensorRestore c k => slotOk c k
  | .thermalClear c k => slotOk c k
  | .thermalClearPitchStart => true
  | .swingLimitSet c k => slotOk c k
  | .thermalRead c k => slotOk c k
  | .linkConfig c k => slotOk c k
  | .linkEnumerate c k => slotOk c k
  | .linkRouteSet c k => slotOk c k
  | .linkRetrain c k => slotOk c k
  | .linkGrant c k => slotOk c k
  | .linkStatusRead c k => slotOk c k
  | .linkCopy c k => slotOk c k
  | .linkCopyTimeout _ => true
  | .pitchConfig c k => slotOk c k
  | .resetDevice c k => slotOk c k
  | .computeResetComplete _ _ => true
  | .defectRead c k => slotOk c k
  | .attest c k => slotOk c k
  | .certRead c k => slotOk c k
  | .fwWrite c k => slotOk c k
  | .fwStage c k => slotOk c k
  | .fwActivate c k => slotOk c k
  | .fwCommit c k => slotOk c k
  | .fwAbandon c k => slotOk c k
  | .trialTimeout => true
  | .trustPolicy c k => slotOk c k
  | .weightsUnseal c k => slotOk c k
  | .sealedRelease c k => slotOk c k
  | .eventRead c k => slotOk c k
  | .wdogConfig c k => slotOk c k
  | .opNop t k => tagOk t && decide (k < 65535)
  | .opMm t k => tagOk t && decide (k < 65535)
  | .opSfApply t k => tagOk t && decide (k < 65535)
  | .opSoftmax t k => tagOk t && decide (k < 65535)
  | .opNorm t k => tagOk t && decide (k < 65535)
  | .opDmCopy t k => tagOk t && decide (k < 65535)
  | .opMemZero t k => tagOk t && decide (k < 65535)
  | .opBankRun t k => tagOk t && decide (k < 65535)
  | .opSeqOpen t k => tagOk t && decide (k < 65535)
  | .opSeqFork t k => tagOk t && decide (k < 65535)
  | .opSeqClose t k => tagOk t && decide (k < 65535)
  | .opSeqFree t k => tagOk t && decide (k < 65535)
  | .opSeqTruncate t k => tagOk t && decide (k < 65535)
  | .opSeqPreempt t k => tagOk t && decide (k < 65535)
  | .opSeqResume t k => tagOk t && decide (k < 65535)
  | .opAttAppend t k => tagOk t && decide (k < 65535)
  | .opAttDecode t k => tagOk t && decide (k < 65535)
  | .opAttPrefill t k => tagOk t && decide (k < 65535)
  | .opKvWrite t k => tagOk t && decide (k < 65535)
  | .opKvExport t k => tagOk t && decide (k < 65535)
  | .orderStart t => tagOk t
  | .operationComplete t k => tagOk t && decide (k < 65535)
  | .completionRecordWrite c r => decide (r < ringCount c)
  | .moderationTimeout _ _ => true
  | .bankEnd _ => true
  | .bankLoop _ => true
  | .bankEndl _ => true
  | .bankSetp _ => true
  | .bankClra _ => true
  | .bankLd _ => true
  | .bankSt _ => true
  | .bankLda _ => true
  | .bankSta _ => true
  | .bankMac _ => true
  | .bankAxpy _ => true
  | .bankScal _ => true
  | .bankDot _ => true
  | .bankExps _ => true
  | .bankExpw _ => true
  | .bankRsum _ => true
  | .bankRmax _ => true
  | .bankSten _ => true
  | .bankCsel _ => true
  | .bankRise _ => true
  | .sequenceLoad _ => true
  | .sortieStart _ => true
  | .sortieEnd _ => true
  | .refreshSlot _ _ => true
  | .canaryClear _ => true
  | .scrubSlot _ => true
  | .scrubLate _ => true
  | .rationPeriodBoundary => true
  | .nearRead _ o n => decide (o + n ≤ 2 ^ 31)
  | .nearWrite _ o d => decide (o + d.length ≤ 2 ^ 31)
  | .farRead _ a n _ => decide (a + n ≤ 2 ^ 64)
  | .farWrite _ a d _ => decide (a + d.length ≤ 2 ^ 64)
  | .mergeEntryIdle _ w => decide (w < 2 ^ 26)
  | .accessPromote _ _ => true
  | .sliceFail _ => true
  | .channelGroupFailing _ g _ => decide (g < 38) || (decide (64 ≤ g) && decide (g < 80))
  | .bar2Read _ o n _ => decide (o + n ≤ 2 ^ 42)
  | .bar2Write _ o d _ => decide (o + d.length ≤ 2 ^ 42)
  | .rtNowLowRead _ => true
  | .rtNowHighRead _ => true
  | .cvGo _ _ => true
  | .cvReset _ _ => true
  | .cvCheck _ _ => true
  | .cvCompare _ => true
  | .cvAbort _ _ => true
  | .cvFeedB _ _ _ => true
  | .cvFeedH _ _ _ => true
  | .cvFeedW _ _ _ => true
  | .cvScanEnd _ => true
  | .fastInterruptDelivery _ _ => true
  | .normalInterruptDelivery _ _ => true
  | .lanternWake _ _ => true
  | .sleepTimer _ _ => true
  | .heartbeat _ => true
  | .wdogWarn _ => true
  | .watchdogReset _ => true
  | .watchdogRestart _ _ ts => ts.all tagOk
  | .sensorSample _ => true
  | .sensorDisagree _ _ _ => true
  | .sensorDisagreeClear => true
  | .throttleStep => true
  | .estimatorUpdate _ => true
  | .shutdownRailDrop => true
  | .shutdownPortDrop => true
  | .trayPoll _ r => r.wf
  | .trayPollRetry _ r => r.wf
  | .calorimetricCheck => true
  | .swingSample _ => true
  | .wearPersist => true
  | .ppsEdge _ _ => true
  | .trefLoss => true
  | .beaconEmit => true
  | .beacon _ _ _ => true
  | .beaconLoss => true
  | .beaconRootResume => true
  | .powerFrameBoundary _ => true
  | .silmanPresenceChange _ _ => true
  | .partnerDetect _ n => decide (n ≤ 4)
  | .trainingComplete _ _ _ => true
  | .trainingOverrun _ => true
  | .laneFailing _ _ => true
  | .fcAckTimer _ => true
  | .flitIdle _ _ => true
  | .fcAcknowledge _ _ _ _ => true
  | .fcReplayRequest _ _ _ _ => true
  | .kxHello _ n c => decide (n.length = 32) && decide (c.length ≤ 16384)
  | .kxKemKey _ _ _ => true
  | .kxKemCt _ _ _ => true
  | .kxFinish _ _ => true
  | .kxAbort _ _ => true
  | .keyExchangeTimeout _ => true
  | .keyExchangeRetry _ => true
  | .rekey _ => true
  | .oldKeyExpiry _ => true
  | .enumToken _ _ _ => true
  | .enumReturn _ _ _ => true
  | .enumCross _ _ _ => true
  | .enumBoundary _ _ _ => true
  | .enumTimeout _ => true
  | .enumCommit _ _ _ => true
  | .commitTakeEffect => true
  | .commitFloodRepeat => true
  | .linkEnumerateComplete => true
  | .pendingIdLapse => true
  | .enumJoin _ _ => true
  | .delayExchangeStart _ _ => true
  | .delayReq _ _ _ _ _ => true
  | .delayResp _ _ _ _ => true
  | .remoteWrite _ _ m => m.wf
  | .remoteRead _ _ m => m.wf
  | .remoteReadData _ _ m => m.wf
  | .remoteWriteAck _ _ m => m.wf
  | .remoteRefuse _ _ m => m.wf
  | .mgmtSlot _ _ k b => decide (k.toNat < 256) && decide (b.length = 256)
  | .mgmtCompletion _ _ r => decide (r.length = 32)
  | .mgmtOwnershipNotice _ _ _ => true
  | .seamFrame _ _ _ _ => true
  | .seamRetrainRequest _ => true
  | .seamWidthAdvert _ w _ => decide (w ≤ 64)
  | .seamReceiveState _ _ => true
  | .seamRetrainComplete _ _ => true
  | .seamRackTimeWord _ => true
  | .seamLaneFail _ _ _ => true
  | .seamDiscoveryRecord r => decide (r.fwMeas.length = 32) && decide (r.defectHash.length = 32) && decide (r.dikHash.length = 32)
  | .seamNoPeer => true
  | .halfLossDetect => true
  | .hostPortReset _ _ => true
  | .hostLinkTrain _ => true
  | .tdiError _ => true
  | .spdmGetVersion _ => true
  | .spdmGetCapabilities _ => true
  | .spdmNegotiateAlgorithms _ _ => true
  | .spdmGetDigests _ => true
  | .spdmGetCertificate _ k o n => decide (k < 8) && decide (o < 65536) && decide (n < 65536)
  | .spdmChallenge _ n => decide (n.length = 32)
  | .spdmGetMeasurements _ _ n => decide (n.length = 32)
  | .spdmKeyExchange _ _ => true
  | .spdmFinish _ k h => decide (k < 65536) && decide (h.length = 32)
  | .spdmKeyUpdate _ k => decide (k < 65536)
  | .spdmHeartbeat _ k => decide (k < 65536)
  | .spdmEndSession _ k => decide (k < 65536)
  | .spdmVendorDefined _ k r => k.all (fun x => decide (x < 65536)) && r.wf
  | .spdmSessionTimeout _ k => decide (k < 65536)
  | .farTierRead o n => decide (o + n ≤ 2 ^ 44)
  | .farTierWrite o d => decide (o + d.length ≤ 2 ^ 44)
  | .farTierInitComplete b => decide (b < 2 ^ 28)
  | .farTierLinkLoss => true
  | .vinApply _ => true
  | .mateSnsChange _ => true
  | .overvoltage _ => true
  | .powerFail => true
  | .retentionHandoff => true
  | .railFault _ => true
  | .modResetNAssert => true
  | .modResetNRelease => true
  | .pitchStageComplete r => r.wf
  | .eventRecordWrite => true
  | .eventWindowClose _ k => decide (k < 2 ^ 32)
  | .lsVector0Deferred _ => true
  | .i3cSlotWrite k _ d => decide (k.toNat < 32) && decide (d.length ≤ 256)
  | .i3cSpaceRead _ _ => true
  | .i3cRecordRead => true
  | .i3cAttestNonce n => decide (n.length = 32)
  | .i3cPrivateRead n => decide (n < 65536)
  | .i3cEntdaa _ => true
  | .i3cRstdaa => true
  | .i3cSetnewda _ => true
  | .i3cGetpid => true
  | .i3cGetbcr => true
  | .i3cGetdcr => true
  | .i3cGetstatus => true
  | .i3cEnec _ => true
  | .i3cDisec _ => true
  | .i3cGetmwl => true
  | .i3cSetmwl _ => true
  | .i3cGetmrl => true
  | .i3cSetmrl _ => true
  | .hotJoinRequest => true
  | .ibiSend _ => true
  | .ibiRetry _ => true
  | .recordsWaitingReminder => true
  | .intakeBacklog => true
  | .commandCodeNotDefined c k => slotOk c k
  | .uncorrectableCodeword _ _ => true
  | .reservedFlitType _ _ _ _ => true
  | .seamSidebandFail _ => true
  | .seamLogicReset _ => true
  | .channelPauseEnd _ => true
  | .farTierRetrain => true
  | .coldPitchRailsReturn => true
  | .resetPitchStart => true
  | .entropyHealthTest _ => true
  | .retentionExpiry => true
  | .i3cWriteDiscard => true

end Sys2Proof
end

