-- ==== Sys2Proof/Safety.lean ====
section
/-! DEFINITION. The terms statements are made in: which part of the state a command may change, what it means that a
command answers a next state, and the properties of a state that every step keeps. -/

namespace Sys2Proof.Machine

open Sys2Proof

/-- The parts of the state, by which statements say what a command leaves alone. -/
inductive Part where
  /-- The time base. -/
  | now
  | fuses
  | settings
  | board
  /-- The Lantern status block and the pitch sequencer, but LS_CHANGES. -/
  | lantern
  /-- LS_CHANGES. -/
  | lsChanges
  | geo
  /-- Phase, owner, nonce, epoch, lease, offer and successor: the ownership block but its claims and its per-controller
  fields. -/
  | own
  /-- The claims that stand in the claim window. -/
  | claims
  /-- The per-controller fields of the ownership block. -/
  | ownPorts
  | intakes
  | ports
  /-- Interrupt controllers. -/
  | ics
  | wdogs
  /-- Sealed slots. -/
  | sealed
  /-- The BMC's record FIFO. -/
  | bmcFifo
  /-- Tags, records, strikes and the rest of the Warden. -/
  | commands
  | rations
  | time
  | power
  | thermal
  /-- Module memory, its vaults, slices, windows, log and retirements. -/
  | mem
  /-- The memories of the two hosts. -/
  | hostMem
  | far
  | cores
  | kv
  | links
  | seam
  | cv
  | events
  | trust
  | i3c
  | out
  /-- The count of free values drawn. -/
  | free
  /-- What the operation being run has met. -/
  | run
  /-- The queue. -/
  | pending
  deriving DecidableEq, Repr

/-- Two states agree on a part. -/
def Part.same (p : Part) (s t : State) : Prop :=
  match p with
  | .now => t.now = s.now
  | .fuses => t.fuses = s.fuses
  | .settings => t.settings = s.settings
  | .board => t.board = s.board
  | .lantern => t.lantern = { s.lantern with changes := t.lantern.changes }
  | .lsChanges => t.lantern.changes = s.lantern.changes
  | .geo => t.geo = s.geo
  | .own => t.own = { s.own with ports := t.own.ports, claims := t.own.claims }
  | .claims => t.own.claims = s.own.claims
  | .ownPorts => t.own.ports = s.own.ports
  | .intakes => t.intakes = s.intakes
  | .ports => t.ports = s.ports
  | .ics => t.warden.ics = s.warden.ics
  | .wdogs => t.warden.wdogs = s.warden.wdogs
  | .sealed => t.warden.sealed = s.warden.sealed
  | .bmcFifo => t.warden.bmcFifo = s.warden.bmcFifo
  | .commands =>
    t.warden = { s.warden with ics := t.warden.ics, wdogs := t.warden.wdogs, sealed := t.warden.sealed,
                               bmcFifo := t.warden.bmcFifo }
  | .rations => t.rations = s.rations
  | .time => t.time = s.time
  | .power => t.power = s.power
  | .thermal => t.thermal = s.thermal
  | .mem => t.mem = { s.mem with hostW := t.mem.hostW, hostE := t.mem.hostE }
  | .hostMem => t.mem.hostW = s.mem.hostW ∧ t.mem.hostE = s.mem.hostE
  | .far => t.far = s.far
  | .cores => t.cores = s.cores
  | .kv => t.kv = s.kv
  | .links => t.links = s.links
  | .seam => t.seam = s.seam
  | .cv => t.cv = s.cv
  | .events => t.events = s.events
  | .trust => t.trust = s.trust
  | .i3c => t.i3c = s.i3c
  | .out => t.out = s.out
  | .free => t.free = s.free
  | .run => t.run = s.run
  | .pending => t.pending = s.pending

/-- From `s` to `t` only the listed parts may have changed: every other part is the same. -/
structure Only (parts : List Part) (s t : State) : Prop where
  same : ∀ p : Part, p ∉ parts → p.same s t

/-- The command answers a next state, and that state has the property. -/
def Answers (i : Instr) (s : State) (P : State → Prop) : Prop := ∃ t : State, exec i s = .next t ∧ P t

/-- The admission of the command with this code from slot `k` of controller `c`: the slot is presented and may be taken
now, no Strike has ended it, and it passes the checks R253 makes before a command's own; the state right after it, and the
admitted command with its tag and its copy of the slot. -/
def State.admission (s : State) (code : Nat) (c : Fin 4) (k : Fin 1024) : Option (State × Adm) :=
  match s.ready? code c k with
  | none => none
  | some e =>
    let b := s.slotBytes c k
    let t := s.takeSlot e
    match e.struck, t.refusal e b with
    | none, none => some (t.admitCmd e b, { tag := t.nextTag, ctrl := c, b := b })
    | _, _ => none

/-- The oldest waiting record for a controller, and on a host port for a ring, that may be written now (R218, R219, R286). -/
def State.nextRec (s : State) (c : Fin 4) (ring : Nat) : Option Rec :=
  s.warden.records.find? (fun r => decide (r.ctrl = c) && (decide (2 ≤ c.val) || decide (r.ring.toNat = ring)) && s.mayRecord r)

/-- The controller owns the device exactly in the phases "owned" and "handover offered". -/
def State.ownOk (s : State) : Prop := s.own.valid = true ↔ (s.own.phase = .owned ∨ s.own.phase = .offer)

/-- What a fuse holds stays: the serials, the variant, the half and the fused defects are as they were, and a blown fuse
stays blown. -/
def Fuses.keep (f g : Fuses) : Prop :=
  g.serialW = f.serialW ∧ g.serialE = f.serialE ∧ g.clockMhz = f.clockMhz ∧ g.powerW = f.powerW ∧ g.halfId = f.halfId
    ∧ g.defects = f.defects ∧ f.commitBlown ≤ g.commitBlown ∧ f.revoked &&& g.revoked = f.revoked

/-- The state in which a dispatched operation begins: what its fence covers is written out, and it holds its place. -/
def State.opStart (s : State) (c : OpCtx) : State := (s.fenceFlush c).setOper c.tag c.op (fun x => { x with phase := .held })

/-- Operation `op` of the order with this tag has made its accesses in the state and will complete with the ending, or with
DONE_DEGRADED where one of them was degraded. -/
def State.ranTo (s : State) (tag op : Nat) (e : Ending) : State :=
  s.setOper tag op (fun x => { x with phase := .running (s.run.ending e), wrote := s.run.wrote, late := s.run.late })

/-- The state with the page tables an operation changed written into their blocks. -/
def State.tabled (s : State) : State := s.touchTables.writeTables

/-- The operation meets no vault on which it must wait. -/
def State.unstalled (s : State) : Prop := s.run.stalled = false

/-- Operation `op` of an order names a sequence in use and is dispatched now: what it runs with, the sequence's handle, the
sequence as it stood, and the state with the sequence resumed where it was pre-empted. -/
def State.atSeq (s : State) (k : OpKind) (tag op : Nat) : Option (OpCtx × Nat × Seq × State) :=
  match s.toDispatch k tag op with
  | none => none
  | some c =>
    match c.handle with
    | none => none
    | some h =>
      match (s.opStart c).seq h with
      | none => none
      | some q =>
        match ((s.opStart c).noteHandle c.tag h).resume c.cmd.ctrl h with
        | (v, none) => if h = 0 then none else some (c, h, q, v)
        | (_, some _) => none

/-- Operation `op` of an order runs on a core now: what it runs with, and the state in which it starts, its core present, its
ranges in the work area and what it reads there readable. -/
def State.atCore (s : State) (k : OpKind) (tag op : Nat) (ranges : List Byte → List CoreRange) : Option (OpCtx × State) :=
  match s.toDispatch k tag op with
  | none => none
  | some c =>
    if !(s.opStart c).pairPresent c.pair || !(ranges c.d).all (fun r => (s.opStart c).inWork r.addr r.len) then none
    else match ((s.opStart c).serialized c.pair (ranges c.d)).coreGuard c.pair c.ord (ranges c.d) with
      | (none, u) => some (c, u)
      | (some _, _) => none

/-- A class-M instruction of opcode `o` issues on a vault now, some bank issues it, and every bank that does makes its access:
the state after the accesses. -/
def State.bankTurn (s : State) (pair : Nat) (o : BOp) (writes : Bool) (f : UnitOp) : Option State :=
  match s.mayIssue pair o with
  | none => none
  | some q =>
    match (s.activeBanks pair q).filter (q.issues q.word) with
    | [] => none
    | b :: bs =>
      if 255 < laneTop o q.word q.outer q.inner then none
      else match ((s.drawMany.2).spend pair 5).bankAccesses pair q q.word writes f s.drawMany.1 (b :: bs) with
        | (t, none) => some t
        | (_, some _) => none

/-- A flit of a kind arrives on port `n` and is accepted: the port carries the kind, its check and its key phase hold, and a
sequenced flit has the next number. The state right after: its acknowledgement and credits are taken, and a sequenced flit
is counted and its buffer owed. -/
def State.accepted (s : State) (n : Nat) (h : FlitHdr) (k : FlitKind) : Option State :=
  let prot := decide ((s.sl n).state = .keyed) && k.prot
  if !s.hasSl n || !(s.sl n).carries k || !h.check || (prot && h.keyPhase != (s.sl n).keyPhase && (s.sl n).oldKey.isNone) then none
  else
    let u := if prot then s.takePhase n h else s
    let t := if k.unheeded then u else u.takeHeader n h
    if !k.seqd then some t
    else if h.seq = (t.sl n).next then
      some (t.setSl n (fun p => { p with rxNext := p.rxNext + 1, ackDue := true, owed := upd p.owed h.vc 0 (· + 1) }))
    else none

end Sys2Proof.Machine
end

