-- ==== Sys2Proof/Certificates/Slice0/Obligations.lean ====
section
/-! DEFINITION. The statements about the model, for the provers. -/

open Sys2Proof Sys2Proof.Machine

/-- For every command and state, a step of a state with that command at the front of its queue is the command's effect
on the state with the queue's rest. -/
def Obligations.StepRunsFront : Prop :=
  ∀ (s : State) (c : Instr) (rest : List Instr), s.pending = c :: rest →
    step s = exec c { s with pending := rest }

/-- With no command waiting a step advances the time base by 1 ns; rack time counts by one while it runs without a slew
and stands while it does not run; where no vault holds an access and no remote message waits, nothing but the time
base, rack time and the check-value channels changes. That an idle step is one nanosecond is the model's choice
(assumption 1). -/
def Obligations.IdleStep : Prop :=
  ∀ s : State, s.pending = [] →
    ∃ t : State, step s = .next t ∧ t.now = s.now + 1
      ∧ (s.time.running = true → s.time.slew = 0 → t.time = { s.time with now := s.time.now + 1 })
      ∧ (s.time.running = false → t.time = s.time)
      ∧ ((∀ e ∈ s.mem.vaults, e.2.held = [] ∧ e.2.back = []) → s.links.parked = [] → Only [.now, .time, .cv] s t)

/-- Whatever the command and the state, where a command answers a next state the time base and the queue are as they
were: a command takes no time of its own and submits no other command. -/
def Obligations.CommandsKeepTimeAndQueue : Prop :=
  ∀ (i : Instr) (s t : State), exec i s = .next t → t.now = s.now ∧ t.pending = s.pending

/-- No command of the table stops the block: in every state every command answers a next state, with its effect, its
rejection or, where its condition does not hold, none. That an event whose condition does not hold leaves the state
is the model's choice (assumption 2). -/
def Obligations.EveryCommandAnswers : Prop :=
  ∀ (i : Instr) (s : State), ∃ t : State, exec i s = .next t

/-- State.reset meets the ownership invariant: OWN_VALID is 0 and the phase is 0, with an empty queue. -/
def Obligations.ResetOwnership : Prop :=
  State.reset.ownOk ∧ State.reset.own.valid = false ∧ State.reset.own.phase = .opened ∧ State.reset.own.epoch = 0
    ∧ State.reset.pending = []

/-- For every state in which OWN_VALID is set exactly in the phases owned and handover offered, and every step from it,
the next state is such a state again. -/
def Obligations.OwnershipKept : Prop :=
  ∀ s t : State, s.ownOk → step s = .next t → t.ownOk

/-- In every step the serial numbers, the variant fuses, the half and the fused defect list stay as they are, blown
commit fuses do not become fewer and a blown revocation fuse stays blown. -/
def Obligations.FusesKept : Prop :=
  ∀ s t : State, step s = .next t → s.fuses.keep t.fuses

/-- When the command just admitted from a slot ends with an ending, one record is formed after those that wait, with the
command's tag, the slot's MB_HOST_TAG, the ending's status and result and the rack time, and no admitted command
holds the tag any more. -/
def Obligations.CommandEndsWithRecord : Prop :=
  ∀ (s u : State) (code : Nat) (c : Fin 4) (k : Fin 1024) (a : Adm) (e : Ending), s.admission code c k = some (u, a) →
    ∃ r : Rec, (a.finish u e).warden.records = u.warden.records ++ [r] ∧ r.tag = some a.tag ∧ r.hostTag = mbHostTag a.b
      ∧ r.status = e.status ∧ r.result = e.result ∧ r.time = u.time.now ∧ (a.finish u e).cmd a.tag = none

/-- A claim in phase 0 opens the claim window of 50 ms and a claim in phase 2, 3 or 4 is refused; the owner's renewal
restarts its lease of 2,000 ms; its handover offers the device to a present successor for 100 ms; the named
successor's acceptance makes it owner with its claim nonce and counts OWN_EPOCH; the owner's release clears
OWN_VALID, counts OWN_EPOCH and starts the quiet phase of 250 ms. -/
def Obligations.OwnershipWrites : Prop :=
  (∀ (s : State) (p : Fin 2), s.hostWrites p = true → s.own.phase = .opened → s.own.claims = [] →
      ∃ t : State, exec (.ownClaim p) s = .next t ∧ Only [.own, .claims, .ownPorts] s t
        ∧ t.own = { s.own with
            phase := .window, windowEnd := s.now + 50000000, ports := t.own.ports
            claims := [{ ctrl := ctrlOf p, prio := (s.ownPort p).claimPrio, nonce := (s.ownPort p).claimNonce, tags := [] }] }
        ∧ (t.ownPort p).result = .pending)
  ∧ (∀ (s : State) (p : Fin 2), s.hostWrites p = true → s.own.phase = .owned ∨ s.own.phase = .offer ∨ s.own.phase = .quiet →
      ∃ t : State, exec (.ownClaim p) s = .next t ∧ Only [.ownPorts] s t ∧ (t.ownPort p).result = .refused)
  ∧ (∀ (s : State) (p : Fin 2), s.hostWrites p = true → s.owns p = true →
      exec (.ownRenew p) s = .next { s with own := { s.own with leaseEnd := s.now + 2000000000 } })
  ∧ (∀ (s : State) (p : Fin 2), s.hostWrites p = true → s.owns p = true → s.own.phase ≠ .offer →
      s.present s.own.successor = true → s.own.successor ≠ ctrlOf p →
      exec (.ownHandover p) s = .next { s with own := { s.own with
        phase := .offer, offerTo := s.own.successor, offerEnd := s.now + 100000000 } })
  ∧ (∀ (s : State) (p : Fin 2), s.hostWrites p = true → s.offered p = true →
      ∃ t : State, exec (.ownAccept p) s = .next t ∧ t.own.phase = .owned ∧ t.own.valid = true ∧ t.own.id = ctrlOf p
        ∧ t.own.nonce = (s.ownPort p).claimNonce ∧ t.own.epoch = s.own.epoch + 1 ∧ t.own.leaseEnd = s.now + 2000000000
        ∧ t.settings = s.settings ∧ t.rations = s.rations ∧ t.events = s.events ∧ t.cores = s.cores ∧ t.kv = s.kv)
  ∧ (∀ (s : State) (p : Fin 2), s.hostWrites p = true → s.owns p = true →
      ∃ t : State, exec (.ownRelease p) s = .next t ∧ t.own.phase = .quiet ∧ t.own.valid = false ∧ t.own.id = 0
        ∧ t.own.nonce = 0 ∧ t.own.epoch = s.own.epoch + 1 ∧ t.own.quietEnd = s.now + 250000000
        ∧ t.settings = s.settings ∧ t.rations = s.rations ∧ t.events = s.events ∧ t.cores = s.cores ∧ t.kv = s.kv)

/-- At the end of the claim window the best claim of a present controller takes the device; an expired lease ends
ownership and starts the quiet phase; the quiet phase ends in phase 0; an offer not accepted in time lapses and the
owner stays owner. -/
def Obligations.OwnershipTimers : Prop :=
  (∀ (s : State) (w : Claim), s.own.phase = .window → s.own.windowEnd ≤ s.now →
      electBest (s.own.claims.filter (fun c => s.present c.ctrl)) = some w →
      ∃ t : State, exec .claimWindowEnd s = .next t ∧ t.own.phase = .owned ∧ t.own.valid = true ∧ t.own.id = w.ctrl
        ∧ t.own.nonce = w.nonce ∧ t.own.epoch = s.own.epoch + 1 ∧ t.own.leaseEnd = s.now + 2000000000 ∧ t.own.claims = [])
  ∧ (∀ s : State, s.own.valid = true → s.own.leaseEnd ≤ s.now →
      ∃ t : State, exec .leaseExpiry s = .next t ∧ t.own.phase = .quiet ∧ t.own.valid = false ∧ t.own.id = 0 ∧ t.own.nonce = 0
        ∧ t.own.epoch = s.own.epoch + 1 ∧ t.own.quietEnd = s.now + 250000000)
  ∧ (∀ s : State, s.own.phase = .quiet → s.own.quietEnd ≤ s.now →
      exec .quietEnd s = .next { s with own := { s.own with phase := .opened } })
  ∧ (∀ s : State, s.own.phase = .offer → s.own.offerEnd ≤ s.now →
      exec .handoverLapse s = .next { s with own := { s.own with phase := .owned } })

/-- The claim the election takes is one of the claims in the window, and no claim in the window is preferred to it: none
has a lower priority number, or with an equal one a lower nonce, or with both equal a lower controller ID. -/
def Obligations.ElectionPicksBest : Prop :=
  ∀ (l : List Claim) (w : Claim), electBest l = some w → w ∈ l ∧
    ∀ x ∈ l, ¬ (x.prio < w.prio) ∧ (x.prio = w.prio → ¬ (x.nonce < w.nonce))
      ∧ (x.prio = w.prio → x.nonce = w.nonce → ¬ (x.ctrl < w.ctrl))

/-- CTL_CLAIM in phase 0 enters its claim and waits; CTL_RENEW, CTL_HANDOVER, CTL_ACCEPT and CTL_RELEASE act as the
register writes and end DONE; CTL_OWN_STATUS ends DONE with the ownership word and OWN_EPOCH as its result and the
lease as its detail. -/
def Obligations.OwnershipCommands : Prop :=
  ∀ (s u : State) (c : Fin 4) (k : Fin 1024) (a : Adm), 2 ≤ c.val →
    (s.admission 0x0F10 c k = some (u, a) → s.own.phase = .opened → s.own.claims = [] →
      ∃ t : State, exec (.ctlClaim c k) s = .next t ∧ t.own.phase = .window ∧ t.own.windowEnd = s.now + 50000000
        ∧ t.own.claims = [{ ctrl := c, prio := BitVec.ofNat 8 (field a.b 24 1), nonce := BitVec.ofNat 64 (field a.b 32 8), tags := [a.tag] }]
        ∧ (t.ownPort c).result = .pending)
    ∧ (s.admission 0x0F11 c k = some (u, a) → s.owns c = true →
      exec (.ctlRenew c k) s = .next (a.done { u with own := { u.own with leaseEnd := u.now + 2000000000 } }))
    ∧ (s.admission 0x0F12 c k = some (u, a) → s.owns c = true → s.own.phase = .owned → field a.b 24 1 ≤ 3 →
      s.present (field a.b 24 1) = true → field a.b 24 1 ≠ c.val →
      exec (.ctlHandover c k) s = .next (a.done { u with own := { u.own with
        successor := Fin.ofNat 4 (field a.b 24 1), phase := .offer, offerTo := Fin.ofNat 4 (field a.b 24 1)
        offerEnd := u.now + 100000000 } }))
    ∧ (s.admission 0x0F13 c k = some (u, a) → s.offered c = true →
      exec (.ctlAccept c k) s = .next (a.done (u.gainOwner c (u.ownPort c).claimNonce)))
    ∧ (s.admission 0x0F14 c k = some (u, a) → s.owns c = true →
      exec (.ctlRelease c k) s = .next (a.done u.loseOwner))
    ∧ (s.admission 0x0F15 c k = some (u, a) →
      exec (.ctlOwnStatus c k) s = .next (a.done u (u.ownWord c + 2 ^ 32 * u.own.epoch.toNat) u.leaseMs))

/-- A seal word with MB_SEALED written to an empty slot of a host port, with no slot held and no number marked received,
is presented at once and moves MB_NEXT_SEQ past its number when that is the expected one, and is held with
MB_NEXT_SEQ in place when its number is 1 to 1,023 ahead; a write to a sealed slot only counts in MB_LOCKED_WRITES. -/
def Obligations.SealWrites : Prop :=
  (∀ (s : State) (p : Fin 2) (k : Fin 1024) (w : BitVec 32), s.hostWrites p = true → s.isSealed p k = false →
      s.computeReset = false → w.toNat / 2 ^ 31 = 1 → isStrike (w.toNat % 65536) = false →
      BitVec.ofNat 15 (w.toNat / 65536) = (s.intake p).nextSeq → s.warden.sealed = [] → (s.intake p).received = [] →
      ∃ (t : State) (e : SealedSlot), exec (.sealWordWrite p k w none) s = .next t ∧ t.warden.sealed = [e] ∧ e.ctrl = ctrlOf p
        ∧ e.slot = k.val ∧ e.presented = true ∧ e.stale = false ∧ e.asOwner = s.owns p ∧ e.presentedAt = s.now
        ∧ (t.intake p).nextSeq = (s.intake p).nextSeq + 1 ∧ t.sealWord p k = w.toNat
        ∧ Only [.intakes, .sealed, .ics] s t)
  ∧ (∀ (s : State) (p : Fin 2) (k : Fin 1024) (w : BitVec 32), s.hostWrites p = true → s.isSealed p k = false →
      s.computeReset = false → w.toNat / 2 ^ 31 = 1 → isStrike (w.toNat % 65536) = false →
      BitVec.ofNat 15 (w.toNat / 65536) ≠ (s.intake p).nextSeq →
      (BitVec.ofNat 15 (w.toNat / 65536) - (s.intake p).nextSeq).toNat < 1024 → s.warden.sealed = [] →
      ∃ (t : State) (e : SealedSlot), exec (.sealWordWrite p k w none) s = .next t ∧ t.warden.sealed = [e] ∧ e.presented = false
        ∧ e.at' = s.now ∧ (t.intake p).nextSeq = (s.intake p).nextSeq ∧ t.sealWord p k = w.toNat
        ∧ Only [.intakes, .sealed] s t)
  ∧ (∀ (s : State) (p : Fin 2) (k : Fin 1024) (w : BitVec 32) (f : Option (BitVec 32)), s.hostWrites p = true → s.isSealed p k = true →
      ∃ t : State, exec (.sealWordWrite p k w f) s = .next t ∧ Only [.intakes] s t
        ∧ t.intake p = { s.intake p with lockedWrites := satSucc (s.intake p).lockedWrites })

/-- When the only slot of the scanner has been held for 1 ms, d numbers ahead of MB_NEXT_SEQ with none of them received,
it is presented, MB_NEXT_SEQ passes its number, and the d missing numbers are added to MB_SEQ_SKIPS, with
MB_SKIP_SEEN set. -/
def Obligations.GapRelease : Prop :=
  ∀ (s : State) (e : SealedSlot), s.warden.sealed = [e] → e.presented = false → e.slot < 1024 → e.at' + 1000000 ≤ s.now →
    (s.intake e.ctrl).received = [] → e.seq ≠ (s.intake e.ctrl).nextSeq → (e.seq - (s.intake e.ctrl).nextSeq).toNat < 1024 →
    (s.intake e.ctrl).skips ≤ 2 ^ 32 - 1 →
    ∃ t : State, exec (.sealGapRelease e.ctrl (Fin.ofNat 1024 e.slot)) s = .next t
      ∧ t.warden.sealed = [{ e with presented := true, presentedAt := s.now }] ∧ (t.intake e.ctrl).nextSeq = e.seq + 1
      ∧ (t.intake e.ctrl).skips = satAdd (s.intake e.ctrl).skips (e.seq - (s.intake e.ctrl).nextSeq).toNat
      ∧ (t.intake e.ctrl).skipSeen = true ∧ Only [.intakes, .sealed, .ics] s t

/-- A presented slot the scanner forwards that has waited more than 100 µs sets INTAKE_BACKLOG; with no presented slot
that has waited more than 20 µs the flag clears; an admitted slot whose command code Table 09-1 does not define ends
REJECT_FORMAT naming MB_CMD. -/
def Obligations.IntakeStates : Prop :=
  (∀ (s : State) (e : SealedSlot), e ∈ s.warden.sealed → e.presented = true → s.slotForwarded e = true → e.presentedAt + 100000 < s.now →
      ∃ t : State, exec .intakeBacklog s = .next t ∧ t.lantern.backlog = true
        ∧ Only [.lantern, .lsChanges, .ports, .hostMem, .i3c, .out] s t)
  ∧ (∀ s : State, (∀ e ∈ s.warden.sealed, e.presented = true → s.now ≤ e.presentedAt + 20000) →
      ∃ t : State, exec .intakeBacklog s = .next t ∧ t.lantern.backlog = false
        ∧ Only [.lantern, .lsChanges, .ports, .hostMem, .i3c, .out] s t)
  ∧ (∀ (s u : State) (c : Fin 4) (k : Fin 1024) (a : Adm), cmdInfo (mbCmd (s.slotBytes c k)) = none →
      s.admission (mbCmd (s.slotBytes c k)) c k = some (u, a) →
      exec (.commandCodeNotDefined c k) s = .next (a.finish u { status := .rejectFormat, detail := 0x10000 }))

/-- The oldest waiting record for an enabled ring with room leaves the completion buffer and counts CR_TAIL; one for the
BMC leaves it for its FIFO of 16 records; one for controller 3 leaves it while the peer is present; a full FIFO
takes none; a ring whose moderation time has passed since its first unsignalled record sends its vector and has no
unsignalled record any more. -/
def Obligations.RingRecords : Prop :=
  (∀ (s : State) (p : Fin 2) (ring : Nat) (r : Rec), ring ≤ 63 → s.nextRec (ctrlOf p) ring = some r →
      (look (s.port p).rings ring {}).everEnabled = true → (s.port p).ringOn ring = true → (s.port p).ringFull ring = false →
      s.hostOpen p = true →
      ∃ t : State, exec (.completionRecordWrite (ctrlOf p) ring) s = .next t
        ∧ t.warden.records.length + 1 = s.warden.records.length
        ∧ (look (t.port p).rings ring {}).tail = (look (s.port p).rings ring {}).tail + 1
        ∧ (look (t.port p).rings ring {}).head = (look (s.port p).rings ring {}).head
        ∧ Only [.commands, .ports, .hostMem, .out] s t)
  ∧ (∀ (s : State) (ring : Nat) (r : Rec), s.nextRec 2 ring = some r → s.warden.bmcFifo.length < 16 →
      ∃ t : State, exec (.completionRecordWrite 2 ring) s = .next t ∧ t.warden.bmcFifo = s.warden.bmcFifo ++ [r]
        ∧ t.warden.records.length + 1 = s.warden.records.length ∧ Only [.commands, .bmcFifo, .i3c] s t)
  ∧ (∀ (s : State) (ring : Nat), 16 ≤ s.warden.bmcFifo.length → exec (.completionRecordWrite 2 ring) s = .next s)
  ∧ (∀ (s : State) (ring : Nat) (r : Rec), s.nextRec 3 ring = some r → s.present 3 = true →
      ∃ t : State, exec (.completionRecordWrite 3 ring) s = .next t
        ∧ t.warden.records.length + 1 = s.warden.records.length ∧ Only [.commands, .links, .out] s t)
  ∧ (∀ (s : State) (p : Fin 2) (ring : Fin 64), (look (s.port p).rings ring {}).modTime ≠ 0 → 0 < (look (s.port p).rings ring {}).unsignalled →
      (look (s.port p).rings ring {}).firstUnsignalled + 1000 * (look (s.port p).rings ring {}).modTime.toNat ≤ s.now →
      ∃ t : State, exec (.moderationTimeout p ring) s = .next t ∧ (look (t.port p).rings ring {}).unsignalled = 0
        ∧ t = (s.setRing p ring (fun r => { r with unsignalled := 0 })).msix p (look (s.port p).committed ring {}).vector.toNat
        ∧ Only [.ports, .hostMem, .out] s t)

/-- The owner's RATION_APPLY with no apply pending latches a consistent shadow set and reports the first fault of an
inconsistent one; CR_APPLY on a port does the same with its ring set and clears the port's intake counts; a write of
CR_HEAD within the ring is taken; with an apply pending RATION_APPLY does nothing. -/
def Obligations.StagedApply : Prop :=
  (∀ (s : State) (p : Fin 2), s.hostWrites p = true → s.owns p = true → s.rations.pendingSet = none → s.rations.shadow.fault = none →
      exec (.rationApply p) s = .next { s with rations := { s.rations with pendingSet := some (s.rations.shadow, s.now) } })
  ∧ (∀ (s : State) (p : Fin 2) (o : Nat), s.hostWrites p = true → s.owns p = true → s.rations.pendingSet = none → s.rations.shadow.fault = some o →
      exec (.rationApply p) s = .next { s with rations := { s.rations with applyErr := true, errWhere := BitVec.ofNat 16 o } })
  ∧ (∀ (s : State) (p : Fin 2), s.hostWrites p = true → s.owns p = true → s.rations.pendingSet.isSome = true → exec (.rationApply p) s = .next s)
  ∧ (∀ (s : State) (p : Fin 2), s.hostWrites p = true → (s.port p).pendingSet = none → ringsFault (s.port p).shadow = none →
      ∃ t : State, exec (.crApply p) s = .next t ∧ (t.port p).pendingSet = some ((s.port p).shadow, s.now)
        ∧ (t.port p).committed = (s.port p).committed ∧ (t.intake p).skips = 0 ∧ (t.intake p).lockedWrites = 0 ∧ (t.intake p).noRing = 0
        ∧ Only [.ports, .intakes] s t)
  ∧ (∀ (s : State) (p : Fin 2) (o : Nat), s.hostWrites p = true → (s.port p).pendingSet = none → ringsFault (s.port p).shadow = some o →
      ∃ t : State, exec (.crApply p) s = .next t ∧ (t.port p).pendingSet = none ∧ (t.port p).applyErr = true
        ∧ (t.port p).errWhere = BitVec.ofNat 16 o ∧ Only [.ports, .intakes] s t)
  ∧ (∀ (s : State) (p : Fin 2) (ring : Fin 64) (h : BitVec 32), s.hostWrites p = true →
      ((look (s.port p).rings ring {}).tail - h).toNat ≤ 2 ^ (look (s.port p).committed ring {}).sizeLog2.toNat →
      ∃ t : State, exec (.crHeadWrite p ring h) s = .next t
        ∧ look (t.port p).rings ring {} = { look (s.port p).rings ring {} with head := h } ∧ Only [.ports] s t)

/-- A read of the low half delivers the low half of the live count and latches its upper half for the port; a read of
the high half delivers the latch, where one stands, and releases it, else the live upper half. -/
def Obligations.RackTimeReads : Prop :=
  (∀ (s : State) (p : Fin 2), s.hostReads p = true →
      ∃ t : State, exec (.rtNowLowRead p) s = .next t ∧ t.out = s.out ++ [.readReply p (BitVec.ofNat 64 (s.rtNow % 2 ^ 32))]
        ∧ t.port p = { s.port p with rtLatch := some (BitVec.ofNat 32 (s.rtNow / 2 ^ 32)) } ∧ Only [.ports, .out] s t)
  ∧ (∀ (s : State) (p : Fin 2) (v : BitVec 32), s.hostReads p = true → (s.port p).rtLatch = some v →
      ∃ t : State, exec (.rtNowHighRead p) s = .next t ∧ t.out = s.out ++ [.readReply p (v.setWidth 64)]
        ∧ t.port p = { s.port p with rtLatch := none } ∧ Only [.ports, .out] s t)
  ∧ (∀ (s : State) (p : Fin 2), s.hostReads p = true → (s.port p).rtLatch = none →
      exec (.rtNowHighRead p) s = .next { s with out := s.out ++ [.readReply p (BitVec.ofNat 64 (s.rtNow / 2 ^ 32))] })

/-- GEOMETRY_READ, DEFECT_READ and MEM_ERRLOG_READ of a controller on a host port, with parameters in range: with a
length or number above 0 and the port's link up they write what they read (the record's first bytes, the entries of
the fused list or the overlay from the first one named, the log entries from the sequence number on) to the host
address of the slot and end DONE, DEFECT_READ and MEM_ERRLOG_READ with the number of entries as the result; while
the link is down they end LINK_DOWN with detail 0x1F; a length or number of 0 ends DONE_EMPTY. -/
def Obligations.GeometryCommands : Prop :=
  ∀ (s u : State) (c : Fin 4) (k : Fin 1024) (a : Adm), c.val < 2 →
    (s.admission 0x0010 c k = some (u, a) → field a.b 24 8 % 64 = 0 → field a.b 32 2 ≤ 8320 →
      (0 < field a.b 32 2 → (u.port c).linkUp = true →
        exec (.geometryRead c k) s = .next (a.done (u.hostWrite c (field a.b 24 8) (u.geoRecord.take (field a.b 32 2)))))
      ∧ (0 < field a.b 32 2 → (u.port c).linkUp = false →
        exec (.geometryRead c k) s = .next (a.finish u { status := .linkDown, detail := 0x1F }))
      ∧ (field a.b 32 2 = 0 → exec (.geometryRead c k) s = .next (a.finish u { status := .doneEmpty })))
    ∧ (s.admission 0x0410 c k = some (u, a) → field a.b 24 1 ≤ 1 → field a.b 32 4 ≤ 65536 → field a.b 40 8 % 64 = 0 →
      (field a.b 24 1 = 0 → 0 < field a.b 32 4 → (u.port c).linkUp = true →
        exec (.defectRead c k) s = .next (a.done
          (u.hostWrite c (field a.b 40 8) (((u.fuses.defects.drop (field a.b 28 4)).take (field a.b 32 4)).flatMap OvEntry.bytes))
          ((u.fuses.defects.drop (field a.b 28 4)).take (field a.b 32 4)).length))
      ∧ (field a.b 24 1 = 1 → 0 < field a.b 32 4 → (u.port c).linkUp = true →
        exec (.defectRead c k) s = .next (a.done
          (u.hostWrite c (field a.b 40 8) (((u.geo.overlay.drop (field a.b 28 4)).take (field a.b 32 4)).flatMap OvEntry.bytes))
          ((u.geo.overlay.drop (field a.b 28 4)).take (field a.b 32 4)).length))
      ∧ (0 < field a.b 32 4 → (u.port c).linkUp = false →
        exec (.defectRead c k) s = .next (a.finish u { status := .linkDown, detail := 0x1F }))
      ∧ (field a.b 32 4 = 0 → exec (.defectRead c k) s = .next (a.finish u { status := .doneEmpty })))
    ∧ (s.admission 0x0044 c k = some (u, a) → field a.b 26 2 ≤ 16384 →
      (0 < field a.b 26 2 → (u.port c).linkUp = true →
        exec (.memErrlogRead c k) s = .next (a.done
          (u.hostWrite c (field a.b 32 8) (((logFrom u.mem.log (field a.b 24 2)).take (field a.b 26 2)).flatMap LogEntry.bytes))
          ((logFrom u.mem.log (field a.b 24 2)).take (field a.b 26 2)).length))
      ∧ (0 < field a.b 26 2 → (u.port c).linkUp = false →
        exec (.memErrlogRead c k) s = .next (a.finish u { status := .linkDown, detail := 0x1F }))
      ∧ (field a.b 26 2 = 0 → exec (.memErrlogRead c k) s = .next (a.finish u { status := .doneEmpty })))

/-- With parameters in range CORE_CONFIG defers the new Vestibule size to the next ration-period boundary while no
Vestibule holds a key or value; MODE_SET in Twin mode persists the mode at once; in Split mode it records this
half's request, telling the partner, with result 1 until the other half has asked for the same mode; PITCH_CONFIG
persists PC_QUICK_EN and, outside Split mode, the role of H-E; MEM_SCRUB_SET persists an interval of 1 to 168 hours.
Each of the four persisting ones ends DONE. -/
def Obligations.SettingCommands : Prop :=
  ∀ (s u : State) (c : Fin 4) (k : Fin 1024) (a : Adm),
    (s.admission 0x0020 c k = some (u, a) → field a.b 24 2 % 64 = 0 → 64 ≤ field a.b 24 2 → field a.b 24 2 ≤ 512 → u.vestibulesHold = false →
      exec (.coreConfig c k) s = .next (u.setWarden (fun w => { w with
        deferred := w.deferred ++ [{ tag := a.tag, effect := .vestibule (field a.b 24 2), accepted := u.now }] })))
    ∧ (s.admission 0x0021 c k = some (u, a) → field a.b 24 1 ≤ 1 → u.geo.mode ≠ 1 →
      exec (.modeSet c k) s = .next (a.done { u with settings := { u.settings with modeSplit := decide (field a.b 24 1 = 1) } }))
    ∧ (s.admission 0x0021 c k = some (u, a) → field a.b 24 1 = 0 → u.geo.mode = 1 → u.lantern.modeReqPeer ≠ some false →
      exec (.modeSet c k) s = .next (a.done ((u.tell .asksTwin).setLantern (fun l => { l with modeReq := some false })) 1))
    ∧ (s.admission 0x0021 c k = some (u, a) → field a.b 24 1 = 0 → u.geo.mode = 1 → u.lantern.modeReqPeer = some false →
      exec (.modeSet c k) s = .next (a.done (((u.tell .asksTwin).setSettings (fun x => { x with modeSplit := false })).setLantern
        (fun l => { l with modeReq := none, modeReqPeer := none }))))
    ∧ (s.admission 0x0400 c k = some (u, a) → field a.b 24 1 ≤ 1 → field a.b 25 1 ≤ 1 → u.geo.mode ≠ 1 →
      exec (.pitchConfig c k) s = .next (a.done { u with settings := { u.settings with
        quickEn := decide (field a.b 25 1 = 1), heFarTier := decide (field a.b 24 1 = 1) } }))
    ∧ (s.admission 0x0400 c k = some (u, a) → field a.b 24 1 ≤ 1 → field a.b 25 1 ≤ 1 → u.geo.mode = 1 →
      exec (.pitchConfig c k) s = .next (a.done { u with settings := { u.settings with quickEn := decide (field a.b 25 1 = 1) } }))
    ∧ (s.admission 0x0041 c k = some (u, a) → 1 ≤ field a.b 24 1 → field a.b 24 1 ≤ 168 →
      exec (.memScrubSet c k) s = .next (a.done { u with settings := { u.settings with scrubHours := field a.b 24 1 } }))

/-- MEM_WINDOW_SET of a disabled window, or of an enabled one of some present pairs within their vaults that hold no
page pool, defers the window to the next ration-period boundary, and an enabled one of no pair or no bytes ends
DONE_EMPTY; MEM_RETIRE (of a block while the retired and the retiring blocks are below 65,536) and MEM_UNRETIRE of a
block defer it, MEM_RETIRE of a bank defers it, MEM_UNRETIRE of a bank records it for the next pitch and ends DONE;
RING_ADOPT into an enabled ring of its own port ends DONE, is noted, and every waiting record of owner's work bound
to the source ring at admission waits for the target ring. -/
def Obligations.MemoryCommands : Prop :=
  ∀ (s u : State) (c : Fin 4) (k : Fin 1024) (a : Adm),
    (s.admission 0x0040 c k = some (u, a) → field a.b 24 1 ≤ 15 → field a.b 25 1 = 0 →
      exec (.memWindowSet c k) s = .next (a.defer u (.window (field a.b 24 1) false (field a.b 26 1) (field a.b 27 1) (field a.b 28 1)
        (field a.b 32 4) (field a.b 36 4))))
    ∧ (s.admission 0x0040 c k = some (u, a) → field a.b 24 1 ≤ 15 → field a.b 25 1 = 1 → field a.b 26 1 ≤ 15 →
      0 < field a.b 28 1 → field a.b 27 1 + field a.b 28 1 ≤ 64 → field a.b 32 4 % 4096 = 0 → field a.b 36 4 % 4096 = 0 → 0 < field a.b 36 4 →
      field a.b 32 4 + field a.b 36 4 ≤ vaultBytes → u.hasTower (field a.b 26 1) = true →
      (∀ p ∈ windowPairs (field a.b 26 1) (field a.b 27 1) (field a.b 28 1), u.pairPresent p = true ∧ look u.settings.poolRows p 0 = 0) →
      exec (.memWindowSet c k) s = .next (a.defer u (.window (field a.b 24 1) true (field a.b 26 1) (field a.b 27 1) (field a.b 28 1)
        (field a.b 32 4) (field a.b 36 4))))
    ∧ (s.admission 0x0040 c k = some (u, a) → field a.b 24 1 ≤ 15 → field a.b 25 1 = 1 → field a.b 26 1 ≤ 15 →
      field a.b 27 1 ≤ 63 → field a.b 27 1 + field a.b 28 1 ≤ 64 → field a.b 32 4 % 4096 = 0 → field a.b 36 4 % 4096 = 0 →
      field a.b 32 4 + field a.b 36 4 ≤ vaultBytes → u.hasTower (field a.b 26 1) = true → field a.b 28 1 = 0 ∨ field a.b 36 4 = 0 →
      (∀ p ∈ windowPairs (field a.b 26 1) (field a.b 27 1) (field a.b 28 1), u.pairPresent p = true) →
      exec (.memWindowSet c k) s = .next (a.finish u { status := .doneEmpty }))
    ∧ (s.admission 0x0042 c k = some (u, a) → field a.b 24 1 = 1 → u.pairPresent (field a.b 40 2) = true → field a.b 42 1 ≤ 127 →
      exec (.memRetire c k) s = .next (a.defer u (.retireBank (field a.b 40 2) (field a.b 42 1))))
    ∧ (∀ p b : Nat, s.admission 0x0042 c k = some (u, a) → field a.b 24 1 = 0 → field a.b 32 8 % 4096 = 0 → u.blockNamed (field a.b 32 8) = some (p, b) →
      u.retiredBlocks + u.retiringBlocks < 65536 → field a.b 32 8 < farBase →
      exec (.memRetire c k) s = .next (a.defer u (.retireBlock p b)))
    ∧ (∀ p b : Nat, s.admission 0x0043 c k = some (u, a) → field a.b 24 1 = 0 → field a.b 32 8 % 4096 = 0 → u.blockNamed (field a.b 32 8) = some (p, b) →
      field a.b 32 8 < farBase → exec (.memUnretire c k) s = .next (a.defer u (.unretireBlock p b)))
    ∧ (s.admission 0x0043 c k = some (u, a) → field a.b 24 1 = 1 → u.pairPresent (field a.b 40 2) = true → field a.b 42 1 ≤ 127 →
      exec (.memUnretire c k) s = .next (a.done { u with mem := { u.mem with
        releasing := u.mem.releasing ++ [{ pair := field a.b 40 2, bank := some (field a.b 42 1), block := 0 }] } }))
    ∧ (s.admission 0x0050 c k = some (u, a) → c.val < 2 → field a.b 24 1 ≤ 3 → field a.b 25 1 ≤ 63 → field a.b 26 1 ≤ 63 →
      (u.port c).ringOn (field a.b 26 1) = true →
      exec (.ringAdopt c k) s = .next ((a.done u).setWarden (fun w => { w with
        adoptions := ⟨Fin.ofNat 4 (field a.b 24 1), BitVec.ofNat 16 (field a.b 25 1), c, BitVec.ofNat 16 (field a.b 26 1), u.warden.nextAdm⟩ :: w.adoptions
        records := w.records.map (fun r =>
          if decide (field a.b 24 1 < 2) && decide (r.bound = (Fin.ofNat 4 (field a.b 24 1), BitVec.ofNat 16 (field a.b 25 1))) && r.adoptable
          then { r with ctrl := c, ring := BitVec.ofNat 16 (field a.b 26 1) } else r) })))

/-- KV_POOL of 0 or of 32 to 9,216 rows in multiples of 16, for a present pair whose pool is empty and which no enabled
window meets, writes out the tower cache's lines and the merge buffer of the pair, sets its pool and ends DONE;
BIVOUAC_SET with no record held and a range of whole granules sets the Bivouac, or none for size 0; KV_MAP_READ of
entries of a stream copies them to host memory. -/
def Obligations.CacheCommands : Prop :=
  ∀ (s u : State) (c : Fin 4) (k : Fin 1024) (a : Adm),
    (s.admission 0x0030 c k = some (u, a) → u.pairPresent (field a.b 24 2) = true → 32 ≤ field a.b 26 2 → field a.b 26 2 ≤ 9216 →
      field a.b 26 2 % 16 = 0 → u.poolHolds (field a.b 24 2) = false → u.poolMeetsWindow (field a.b 24 2) (field a.b 26 2) = false →
      exec (.kvPool c k) s = .next (a.done (((u.flushSlice (field a.b 24 2)).flushMerge (field a.b 24 2)).setSettings
        (fun x => { x with poolRows := put x.poolRows (field a.b 24 2) (field a.b 26 2) }))))
    ∧ (s.admission 0x0030 c k = some (u, a) → u.pairPresent (field a.b 24 2) = true → field a.b 26 2 = 0 → u.poolHolds (field a.b 24 2) = false →
      exec (.kvPool c k) s = .next (a.done (((u.flushSlice (field a.b 24 2)).flushMerge (field a.b 24 2)).setSettings
        (fun x => { x with poolRows := del x.poolRows (field a.b 24 2) }))))
    ∧ (s.admission 0x0030 c k = some (u, a) → u.pairPresent (field a.b 24 2) = true → field a.b 26 2 ≤ 9216 → field a.b 26 2 % 16 = 0 →
      (field a.b 26 2 = 0 ∨ 32 ≤ field a.b 26 2) → u.poolHolds (field a.b 24 2) = true →
      exec (.kvPool c k) s = .next (a.finish u { status := .rejectState, detail := faultAt .slot 26 }))
    ∧ (s.admission 0x0031 c k = some (u, a) → field a.b 24 1 = 2 → field a.b 32 8 % 65536 = 0 → field a.b 40 8 % 65536 = 0 →
      field a.b 32 8 + field a.b 40 8 ≤ u.geo.farTierMib * 2 ^ 20 → u.kv.records = [] →
      exec (.bivouacSet c k) s = .next (a.done { u with kv := { u.kv with
        bivouac := if field a.b 40 8 = 0 then none else some (true, field a.b 32 8, field a.b 40 8), bivPort := if c = 1 then 1 else 0 } }))
    ∧ (s.admission 0x0031 c k = some (u, a) → field a.b 24 1 = 3 → c.val < 2 → field a.b 32 8 % 65536 = 0 → field a.b 40 8 % 65536 = 0 →
      u.kv.records = [] →
      exec (.bivouacSet c k) s = .next (a.done { u with kv := { u.kv with
        bivouac := if field a.b 40 8 = 0 then none else some (false, field a.b 32 8, field a.b 40 8), bivPort := if c = 1 then 1 else 0 } }))
    ∧ (∀ x : Stream, s.admission 0x0032 c k = some (u, a) → c.val < 2 → field a.b 24 4 % 65536 ≠ 0 →
      u.stream (field a.b 24 4 % 65536) (field a.b 28 2) = some x → 0 < field a.b 40 4 → (u.port c).linkUp = true →
      exec (.kvMapRead c k) s = .next (a.done (u.hostWrite c (field a.b 48 8)
        ((List.range (field a.b 40 4)).flatMap (fun n => leBytes 8 (x.pte (field a.b 32 8 + n)).word)))))

/-- Of a dispatched operation that meets no vault on which it must wait: SEQ_OPEN whose placements and frequencies can
be read, whose spans are present and pooled and whose slots fit opens a sequence of empty streams under a handle of
1 to 65,535 not in use and runs to DONE with the handle as its result, and one of no stream runs to DONE_EMPTY;
SEQ_CLOSE flushes every slot, closes the sequence and runs to DONE; SEQ_FREE drops the sequence's references, ends
its handle and runs to DONE; SEQ_FORK makes an open sequence with the same tables, one reference more for each
resident entry, and runs to DONE with its handle; SEQ_RESUME leaves the sequence resumed and runs to DONE;
SEQ_PREEMPT of a sequence that no other operation in flight names swaps it out and runs to DONE; SEQ_TRUNCATE of an
open sequence retries the flush of full slots and cuts every stream; one that names no sequence in use runs to
REJECT_STATE at byte 48. The page tables stand in the pool rows after each. -/
def Obligations.SequenceOps : Prop :=
  (∀ (s : State) (tag op : Nat) (c : OpCtx), s.toDispatch .seqOpen tag op = some c → field c.d 48 2 * field c.d 50 1 = 0 →
      (s.opStart c).tabled.unstalled →
      exec (.opSeqOpen tag op) s = .next ((s.opStart c).tabled.ranTo tag op { status := .doneEmpty }))
  ∧ (∀ (s v w : State) (tag op h nf : Nat) (c : OpCtx) (pb fb : List Byte) (io io2 : Io), s.toDispatch .seqOpen tag op = some c →
      0 < field c.d 48 2 * field c.d 50 1 → nf = (if field c.d 80 1 = 0 then 0 else field c.d 82 2 / 2) →
      c.sealed (s.opStart c) (field c.d 72 8) (2 * (field c.d 48 2 * field c.d 50 1)) = false →
      c.sealed (s.opStart c) (field c.d 88 8) (4 * nf) = false → (s.opStart c).kv.seqs.length < 65535 →
      (s.opStart c).load c.who (field c.d 72 8) (2 * (field c.d 48 2 * field c.d 50 1)) = (pb, io) → io.stop = none →
      io.s.load c.who (field c.d 88 8) (4 * nf) = (fb, io2) → io2.stop = none →
      (∀ x ∈ (numbers 2 (field c.d 48 2 * field c.d 50 1) pb).map streamOf, io2.s.spanOk x = true) → io2.s.newHandle = (h, v) →
      State.reserveSlots { v with kv := { v.kv with seqs := put v.kv.seqs h { seqOf c.d with
        streams := (numbers 2 (field c.d 48 2 * field c.d 50 1) pb).map streamOf
        ropeFreq := (numbers 4 nf fb).map (BitVec.ofNat 32), lastUse := v.time.now } } } h = some w →
      (w.noteHandle c.tag h).tabled.unstalled →
      exec (.opSeqOpen tag op) s = .next ((w.noteHandle c.tag h).tabled.ranTo tag op { status := .done, result := BitVec.ofNat 64 h }))
  ∧ (∀ (s v : State) (h : Nat), s.newHandle = (h, v) → s.kv.seqs.length < 65535 → 1 ≤ h ∧ h ≤ 65535 ∧ s.seq h = none)
  ∧ (∀ (s v w : State) (tag op h : Nat) (c : OpCtx) (q : Seq), s.atSeq .seqClose tag op = some (c, h, q, v) → v.flushAll 1 h = some w →
      (w.setSeq h (fun q => { q with closed := true })).tabled.unstalled →
      exec (.opSeqClose tag op) s = .next ((w.setSeq h (fun q => { q with closed := true })).tabled.ranTo tag op { status := .done }))
  ∧ (∀ (s v : State) (tag op h : Nat) (c : OpCtx) (q : Seq), s.atSeq .seqFree tag op = some (c, h, q, v) → (v.freeSeq h).tabled.unstalled →
      exec (.opSeqFree tag op) s = .next ((v.freeSeq h).tabled.ranTo tag op { status := .done }) ∧ (v.freeSeq h).seq h = none)
  ∧ (∀ (s v w y : State) (tag op h k : Nat) (c : OpCtx) (q r : Seq), s.atSeq .seqFork tag op = some (c, h, q, v) → v.seq h = some r →
      v.kv.seqs.length < 65535 → v.newHandle = (k, w) →
      (State.reserveSlots { w with kv := { w.kv with seqs := put w.kv.seqs k { r with
        closed := false, lastUse := w.time.now, streams := r.streams.map (fun x => { x with slotHeld := false, blocks := [] }) } } } k).bind
        (fun z => z.needBlocks k) = some y →
      (((r.streams.flatMap (fun x => x.table.filter Pte.resident)).foldl
        (fun (z : State) e => z.onPage e (fun g => { g with refs := g.refs + 1 })) y).noteHandle c.tag k).tabled.unstalled →
      exec (.opSeqFork tag op) s = .next ((((r.streams.flatMap (fun x => x.table.filter Pte.resident)).foldl
        (fun (z : State) e => z.onPage e (fun g => { g with refs := g.refs + 1 })) y).noteHandle c.tag k).tabled.ranTo tag op
          { status := .done, result := BitVec.ofNat 64 k }))
  ∧ (∀ (s v : State) (tag op h : Nat) (c : OpCtx) (q : Seq), s.atSeq .seqResume tag op = some (c, h, q, v) → v.tabled.unstalled →
      exec (.opSeqResume tag op) s = .next (v.tabled.ranTo tag op { status := .done }))
  ∧ (∀ (s v : State) (tag op h : Nat) (c : OpCtx) (q : Seq), s.toDispatch .seqPreempt tag op = some c → c.handle = some h → h ≠ 0 →
      (s.opStart c).seq h = some q → (s.opStart c).seqBusyBut tag op h = false → ((s.opStart c).noteHandle c.tag h).swapOut h = .ok v →
      v.tabled.unstalled → exec (.opSeqPreempt tag op) s = .next (v.tabled.ranTo tag op { status := .done }))
  ∧ (∀ (s v w : State) (tag op h n : Nat) (c : OpCtx) (q : Seq) (e : Ending), s.atSeq .seqTruncate tag op = some (c, h, q, v) → q.closed = false →
      n = ((v.seq h).map (fun q => q.streams.length)).getD 0 →
      (v.retryFlush h (List.range n)).truncStreams h (field c.d 56 8) (List.range n) = (w, e) → w.tabled.unstalled →
      exec (.opSeqTruncate tag op) s = .next (w.tabled.ranTo tag op e))
  ∧ (∀ (s : State) (tag op : Nat) (c : OpCtx) (k : OpKind) (i : Nat → Nat → Instr),
      (k, i) ∈ [(OpKind.seqFork, Instr.opSeqFork), (.seqClose, .opSeqClose), (.seqFree, .opSeqFree), (.seqResume, .opSeqResume),
        (.seqTruncate, .opSeqTruncate), (.seqPreempt, .opSeqPreempt), (.attAppend, .opAttAppend), (.kvWrite, .opKvWrite), (.kvExport, .opKvExport)] →
      s.toDispatch k tag op = some c → (∀ h, c.handle = some h → h = 0 ∨ (s.opStart c).seq h = none) → (s.opStart c).tabled.unstalled →
      exec (i tag op) s = .next ((s.opStart c).tabled.ranTo tag op { status := .rejectState, detail := 48 }))

/-- Of an operation dispatched on a present core with its ranges in the work area, readable and free of what another is
still to write: SF_APPLY, SOFTMAX and NORM with no zero length compute their rows, to be stored as they complete,
and run to DONE with the flags they raise, SOFTMAX to DONE_EMPTY_ROW where a row was empty; with a zero length they
run to DONE_EMPTY; MM with a zero dimension leaves the tiles, or with MM_CLEAR clears those it names, and runs to
DONE; with no zero dimension, with tiles and kept buffers free of parity errors, it loads the rows of B it has not
kept, runs on its operands and ends DONE with its flags. On a lost core each of these and DM_COPY run to VAULT_LOST.
A single allowed entry of a softmax row becomes 1, a row without one zeros, and a sum of one term is that term
rounded once. Which tiles MM_CLEAR clears with no array in use is the model's choice (assumption 56). -/
def Obligations.CoreOperations : Prop :=
  (∀ (s u v : State) (tag op : Nat) (c : OpCtx) (pick : Nat → Nat) (ws : List (Nat × List Byte)) (fl : BitVec 8), s.atCore .sfApply tag op sfRanges = some (c, u) → 0 < field c.d 52 4 →
      u.convDraws c.pair (field c.d 116 1) (field c.d 120 4) = (pick, v) → sfApply (v.reader c.pair c.ord) c.d pick = (ws, fl) → (v.storeLate ws).unstalled →
      exec (.opSfApply tag op) s = .next ((v.storeLate ws).ranTo tag op { status := .done, flags := fl }))
  ∧ (∀ (s u v : State) (tag op : Nat) (c : OpCtx) (pick : Nat → Nat) (ws : List (Nat × List Byte)) (fl : BitVec 8) (emp : Bool), s.atCore .softmax tag op smRanges = some (c, u) → 0 < field c.d 48 4 → 0 < field c.d 52 2 →
      u.convDraws c.pair (field c.d 145 1) (field c.d 148 4) = (pick, v) → softmax (v.reader c.pair c.ord) c.d pick = (ws, fl, emp) → (v.storeLate ws).unstalled →
      exec (.opSoftmax tag op) s = .next ((v.storeLate ws).ranTo tag op { status := if emp then .doneEmptyRow else .done, flags := fl }))
  ∧ (∀ (s u v : State) (tag op : Nat) (c : OpCtx) (pick : Nat → Nat) (ws : List (Nat × List Byte)) (fl : BitVec 8), s.atCore .norm tag op nmRanges = some (c, u) → 0 < field c.d 52 4 → 0 < field c.d 50 2 →
      u.convDraws c.pair (field c.d 122 1) (field c.d 128 4) = (pick, v) → norm (v.reader c.pair c.ord) c.d pick = (ws, fl) → (v.storeLate ws).unstalled →
      exec (.opNorm tag op) s = .next ((v.storeLate ws).ranTo tag op { status := .done, flags := fl }))
  ∧ (∀ (s u : State) (tag op : Nat) (c : OpCtx), s.atCore .mm tag op mmRunRanges = some (c, u) → mmM c.d = 0 ∨ mmN c.d = 0 ∨ mmK c.d = 0 → u.unstalled
      →
      exec (.opMm tag op) s = .next (State.ranTo (if bit (field c.d 144 1) 0
        then u.setCore c.pair (fun x => x.setTiles c.ord true (mmN c.d) (mmTiles c.d) (fun _ _ _ => 0) 0) else u) tag op { status := .done }))
  ∧ (∀ (s u : State) (tag op : Nat) (c : OpCtx) (bs : List (List Byte)) (io : Io), s.atCore .mm tag op mmRunRanges = some (c, u) → 0 < mmM c.d → 0 < mmN c.d
      → 0 < mmK c.d → mmN c.d ≤ (u.core c.pair).width → (∀ r ∈ mmBRuns c.d, mmSpace c.d = 0 ∨ c.sealed u (spaceAddr (mmSpace c.d) r.1) r.2 = false)
      → (u.core c.pair).badTile c.d c.ord = none → (u.mmKept c = [] ∨ (u.core c.pair).badBuf c.d = none) → u.mmLoadB c.who (u.reader c.pair c.ord) (mmSpace c.d) ((mmBRuns c.d).drop (u.mmKept c).length) = (bs, io)
      → io.stop = none → (io.s.mmRun c (u.mmKept c ++ bs)).1.unstalled →
      exec (.opMm tag op) s = .next ((io.s.mmRun c (u.mmKept c ++ bs)).1.ranTo tag op
        { status := .done, flags := (io.s.mmRun c (u.mmKept c ++ bs)).2 }))
  ∧ (∀ (s : State) (tag op : Nat) (c : OpCtx) (k : OpKind) (i : Nat → Nat → Instr), (k, i) ∈ [(OpKind.mm, Instr.opMm), (.sfApply, .opSfApply), (.softmax, .opSoftmax), (.norm, .opNorm), (.dmCopy, .opDmCopy)] → s.toDispatch k tag op = some c → (s.opStart c).unstalled
      → (s.opStart c).pairPresent c.pair = false →
      exec (i tag op) s = .next ((s.opStart c).ranTo tag op
        { status := .vaultLost, detail := BitVec.ofNat 32 c.pair, result := BitVec.ofNat 64 (c.pair * 2 ^ 31) }))
  ∧ (∀ (s : State) (tag op : Nat) (c : OpCtx), s.toDispatch .sfApply tag op = some c → (s.opStart c).unstalled → (s.opStart c).pairPresent c.pair = true
      → field c.d 52 4 = 0 →
      exec (.opSfApply tag op) s = .next ((s.opStart c).ranTo tag op { status := .doneEmpty }))
  ∧ (∀ (s : State) (tag op : Nat) (c : OpCtx), s.toDispatch .softmax tag op = some c → (s.opStart c).unstalled → (s.opStart c).pairPresent c.pair = true
      → (field c.d 48 4 = 0 ∨ field c.d 52 2 = 0) →
      exec (.opSoftmax tag op) s = .next ((s.opStart c).ranTo tag op { status := .doneEmpty }))
  ∧ (∀ (s : State) (tag op : Nat) (c : OpCtx), s.toDispatch .norm tag op = some c → (s.opStart c).unstalled → (s.opStart c).pairPresent c.pair = true
      → (field c.d 52 4 = 0 ∨ field c.d 50 2 = 0) →
      exec (.opNorm tag op) s = .next ((s.opStart c).ranTo tag op { status := .doneEmpty }))
  ∧ (∀ tau b x : Machine.Num, x.isInf = false → (smRow tau b true [(x, true)]).sum.v.isFin = true →
      (smRow tau b false [(x, true)]).ys = [.pure .one])
  ∧ (∀ (tau b : Machine.Num) (xs : List (Machine.Num × Bool)), (∀ x ∈ xs, x.2 = false) → (smRow tau b true xs).sum.v.isFin = true →
      (smRow tau b false xs).ys = List.replicate xs.length (.pure .zero) ∧ (smRow tau b false xs).empty = true)
  ∧ (∀ (rnd : Machine.Num → Machine.Num) (pick : Nat → Nat) (x : Machine.Num), x.isZero = false → freeSum rnd pick [x] = rnd x)

/-- DM_COPY with no zero length, dispatched on a present core, with neither side sealed to another party and every row
read, runs to DONE, or to DONE_DEGRADED where an access was, with its rows to be written at the destination as it
completes; with a zero length it runs to DONE_EMPTY; with a side sealed to another it runs to SECURITY_REFUSED and
writes nothing. MEM_ZERO of a range outside other parties' sealed ranges zeroes its blocks in order and runs to
DONE; of length 0 it runs to DONE_EMPTY. -/
def Obligations.CopyOperations : Prop :=
  (∀ (s u : State) (tag op : Nat) (c : OpCtx) (rows : List (Nat × List Byte)) (io : Io), s.atCore .dmCopy tag op (fun d => (dmRanges d).map (fun r => { r with wr := true })) = some (c, u) → 0 < dmLen c.d → 0 < dmRows c.d
      → c.sideSealed u (dmSrc c.d) = false → c.sideSealed u (dmDst c.d) = false → u.sideReadAll c (dmSrc c.d) (dmLen c.d) (List.range (dmRows c.d)) = (rows, io)
      → io.stop = none → io.s.unstalled →
      exec (.opDmCopy tag op) s = .next ((io.s.putOff (rows.map (fun r => { space := (dmDst c.d).space, addr := (dmDst c.d).row r.1, bytes := r.2 }))).ranTo
        tag op { status := if io.degraded then .doneDegraded else .done }))
  ∧ (∀ (s : State) (tag op : Nat) (c : OpCtx), s.toDispatch .dmCopy tag op = some c → (s.opStart c).unstalled → (s.opStart c).pairPresent c.pair = true
      → (dmLen c.d = 0 ∨ dmRows c.d = 0) →
      exec (.opDmCopy tag op) s = .next ((s.opStart c).ranTo tag op { status := .doneEmpty }))
  ∧ (∀ (s u : State) (tag op : Nat) (c : OpCtx), s.atCore .dmCopy tag op (fun d => (dmRanges d).map (fun r => { r with wr := true })) = some (c, u) → 0 < dmLen c.d → 0 < dmRows c.d
      → (c.sideSealed u (dmSrc c.d) = true ∨ c.sideSealed u (dmDst c.d) = true) → u.unstalled →
      exec (.opDmCopy tag op) s = .next (u.ranTo tag op (refused .sealedRange)))
  ∧ (∀ (s : State) (tag op : Nat) (c : OpCtx), s.toDispatch .memZero tag op = some c → field c.d 56 8 = 0 → (s.opStart c).unstalled
      →
      exec (.opMemZero tag op) s = .next ((s.opStart c).ranTo tag op { status := .doneEmpty }))
  ∧ (∀ (s : State) (tag op : Nat) (c : OpCtx) (io : Io), s.toDispatch .memZero tag op = some c → 0 < field c.d 56 8 → c.sealed (s.opStart c) (field c.d 48 8) (field c.d 56 8) = false
      → (s.opStart c).zeroBlocks (field c.d 48 8) (field c.d 56 8 / 4096) = io → io.stop = none → io.s.unstalled
      →
      exec (.opMemZero tag op) s = .next (io.s.ranTo tag op { status := if io.degraded then .doneDegraded else .done }))

/-- Of an operation dispatched on a sequence in use that meets no vault on which it must wait: ATT_APPEND of rows to a
layer of an open sequence runs to DONE with the flags of its rows when every row is appended, and to what stopped it
otherwise; KV_WRITE within a stream retries the flush of its full slot and overwrites its tokens, and beyond the
stream's length it runs to REJECT_LIMIT at byte 56; KV_EXPORT of a stream's pages retries that flush and reads them,
to be written at the destination as it completes; ATT_DECODE and ATT_PREFILL append their own tokens first where
they bring any, or else retry the flush of the layer's full slots, and then attend; a count of 0, or a window of 0,
runs to DONE_EMPTY. An output row to which no token was allowed is zeros and empty. -/
def Obligations.CacheOperations : Prop :=
  (∀ (s v w : State) (tag op h : Nat) (c : OpCtx) (q : Seq) (e : Option Ending) (fl : BitVec 8), s.atSeq .attAppend tag op = some (c, h, q, v) → field c.d 52 1 < q.layers → q.closed = false
      → 0 < field c.d 54 2 → (∀ r, v.seq h = some r → c.appendSealed v r (appendSrc c.d) (field c.d 54 2) = false) → v.appendRows c h (appendSrc c.d) 0 (List.range (field c.d 54 2)) = (w, e, fl)
      → w.tabled.unstalled →
      exec (.opAttAppend tag op) s = .next (w.tabled.ranTo tag op (e.getD { status := .done, flags := fl })))
  ∧ (∀ (s v : State) (tag op h : Nat) (c : OpCtx) (q : Seq), s.atSeq .attAppend tag op = some (c, h, q, v) → field c.d 52 1 < q.layers → q.closed = false
      → field c.d 54 2 = 0 → (s.opStart c).tabled.unstalled →
      exec (.opAttAppend tag op) s = .next ((s.opStart c).tabled.ranTo tag op { status := .doneEmpty }))
  ∧ (∀ (s v w : State) (tag op h : Nat) (c : OpCtx) (q : Seq) (x : Stream) (e : Ending), s.atSeq .kvWrite tag op = some (c, h, q, v) → q.streams[field c.d 52 2]? = some x → field c.d 56 8 + field c.d 64 4 ≤ x.length
      → 0 < field c.d 64 4 → (∀ r, v.seq h = some r → c.sealed v (field c.d 72 8)
        (spanBytes (field c.d 80 4) (if field c.d 54 1 = 1 then r.vb else r.kb) (field c.d 64 4)) = false) → (v.retryFlush h [field c.d 52 2]).writeTokens c h (field c.d 52 2) (decide (field c.d 54 1 = 1)) (List.range (field c.d 64 4)) = (w, e)
      → w.tabled.unstalled →
      exec (.opKvWrite tag op) s = .next (w.tabled.ranTo tag op e))
  ∧ (∀ (s v : State) (tag op h : Nat) (c : OpCtx) (q : Seq) (x : Stream), s.atSeq .kvWrite tag op = some (c, h, q, v) → q.streams[field c.d 52 2]? = some x → field c.d 56 8 ≤ x.length
      → field c.d 64 4 = 0 → (s.opStart c).tabled.unstalled →
      exec (.opKvWrite tag op) s = .next ((s.opStart c).tabled.ranTo tag op { status := .doneEmpty }))
  ∧ (∀ (s v : State) (tag op h : Nat) (c : OpCtx) (q : Seq) (x : Stream), s.atSeq .kvWrite tag op = some (c, h, q, v) → q.streams[field c.d 52 2]? = some x → x.length < field c.d 56 8 + field c.d 64 4
      → (s.opStart c).tabled.unstalled →
      exec (.opKvWrite tag op) s = .next ((s.opStart c).tabled.ranTo tag op { status := .rejectLimit, detail := 56 }))
  ∧ (∀ (s v w : State) (tag op h : Nat) (c : OpCtx) (q : Seq) (e : Ending), s.atSeq .kvExport tag op = some (c, h, q, v) → field c.d 52 2 < q.streams.length → 0 < field c.d 64 4
      → (∀ r, v.seq h = some r → field c.d 68 1 ≠ 3 →
        c.sealed v (spaceAddr (field c.d 68 1) (field c.d 72 8)) (field c.d 64 4 * r.pageBytes) = false) → (v.retryFlush h [field c.d 52 2]).exportPages c h (field c.d 52 2) (List.range (field c.d 64 4)) = (w, e) → w.tabled.unstalled
      →
      exec (.opKvExport tag op) s = .next (w.tabled.ranTo tag op e))
  ∧ (∀ (s v : State) (tag op h : Nat) (c : OpCtx) (q : Seq), s.atSeq .kvExport tag op = some (c, h, q, v) → field c.d 52 2 < q.streams.length → field c.d 64 4 = 0
      → (s.opStart c).tabled.unstalled →
      exec (.opKvExport tag op) s = .next ((s.opStart c).tabled.ranTo tag op { status := .doneEmpty }))
  ∧ (∀ (s v w : State) (tag op h : Nat) (c : OpCtx) (q : Seq) (e : Ending), s.atSeq .attDecode tag op = some (c, h, q, v) → field c.d 52 1 < q.layers → attZero c.d = false
      → field c.d 53 1 = 0 → (∀ r, v.seq h = some r → c.attSealed v r = false) → attend false c h (v.retryFlush h (((v.seq h).map (fun r => r.layerStreams (field c.d 52 1))).getD [])) 0 = (w, e)
      → w.tabled.unstalled →
      exec (.opAttDecode tag op) s = .next (w.tabled.ranTo tag op e))
  ∧ (∀ (s v u w : State) (tag op h : Nat) (c : OpCtx) (q : Seq) (fl : BitVec 8) (e : Ending), s.atSeq .attDecode tag op = some (c, h, q, v) → field c.d 52 1 < q.layers → attZero c.d = false
      → field c.d 53 1 = 1 → q.closed = false → (∀ r, v.seq h = some r → c.attSealed v r = false)
      → v.appendRows c h (appendSrc c.d) 0 (List.range (attRows c.d)) = (u, none, fl) → attend false c h u fl = (w, e) → w.tabled.unstalled
      →
      exec (.opAttDecode tag op) s = .next (w.tabled.ranTo tag op e))
  ∧ (∀ (s v : State) (tag op h : Nat) (c : OpCtx) (q : Seq), s.atSeq .attDecode tag op = some (c, h, q, v) → field c.d 52 1 < q.layers → q.closed = false
      → attZero c.d = true → (s.opStart c).tabled.unstalled →
      exec (.opAttDecode tag op) s = .next ((s.opStart c).tabled.ranTo tag op { status := .doneEmpty }))
  ∧ (∀ (s v w : State) (tag op h : Nat) (c : OpCtx) (q : Seq) (e : Ending), s.atSeq .attPrefill tag op = some (c, h, q, v) → field c.d 52 1 < q.layers → attZero c.d = false
      → field c.d 53 1 = 0 → (∀ r, v.seq h = some r → c.attSealed v r = false) → attend true c h (v.retryFlush h (((v.seq h).map (fun r => r.layerStreams (field c.d 52 1))).getD [])) 0 = (w, e)
      → w.tabled.unstalled →
      exec (.opAttPrefill tag op) s = .next (w.tabled.ranTo tag op e))
  ∧ (∀ (s v u w : State) (tag op h : Nat) (c : OpCtx) (q : Seq) (fl : BitVec 8) (e : Ending), s.atSeq .attPrefill tag op = some (c, h, q, v) → field c.d 52 1 < q.layers → attZero c.d = false
      → field c.d 53 1 = 1 → q.closed = false → (∀ r, v.seq h = some r → c.attSealed v r = false)
      → v.appendRows c h (appendSrc c.d) 0 (List.range (attRows c.d)) = (u, none, fl) → attend true c h u fl = (w, e) → w.tabled.unstalled
      →
      exec (.opAttPrefill tag op) s = .next (w.tabled.ranTo tag op e))
  ∧ (∀ (s v : State) (tag op h : Nat) (c : OpCtx) (q : Seq), s.atSeq .attPrefill tag op = some (c, h, q, v) → field c.d 52 1 < q.layers → q.closed = false
      → attZero c.d = true → (s.opStart c).tabled.unstalled →
      exec (.opAttPrefill tag op) s = .next ((s.opStart c).tabled.ranTo tag op { status := .doneEmpty }))
  ∧ (∀ (n : Nat) (pick : Nat → Nat) (fits : List Machine.Num → Bool) (r : Partial), r.count = 0 →
      (finishRow n pick fits r).1 = List.replicate n (.pure .zero) ∧ (finishRow n pick fits r).2.1 = true)

/-- LD, ST, LDA, STA, MAC, AXPY, SCAL, DOT, EXPW, RSUM, RMAX, STEN and CSEL, issued by at least one bank with lanes in
range and every access possible, leave every issuing bank's unit and code word as the effect written out here makes
them and step to the next instruction; issued by no bank they take no cycle and step on; with a lane above 255 they
end the sequence REJECT_LIMIT naming the pair, the bank and the instruction. -/
def Obligations.BankAccesses : Prop :=
  ∀ (s t : State) (pair : Fin 1024),
    (s.bankTurn pair .ld false (fun _ w x u _ =>
        ({ u with br := put u.br (biRd w) (BitVec.ofNat 256 x), mxBlocks := if biRd w = 7 then 0 else u.mxBlocks }, none)) = some t →
      exec (.bankLd pair) s = .next (t.stepPc pair (some true)))
    ∧ (s.bankTurn pair .st true (fun _ w _ u _ => (u, some (look u.br (biRa w) 0).toNat)) = some t →
      exec (.bankSt pair) s = .next (t.stepPc pair (some true)))
    ∧ (s.bankTurn pair .lda false (fun q w x u _ =>
        ((u.elems (biFormat w) x).2.accumulate (q.first w) (biAdd w) (u.elems (biFormat w) x).1, none)) = some t →
      exec (.bankLda pair) s = .next (t.stepPc pair (some true)))
    ∧ (s.bankTurn pair .sta true (fun q w _ u pick =>
        let o := outRow (biFormat w) .one (convOf q.req.conv.toNat) pick
          ((List.range (biFormat w).perWord).map (fun j => wMul (u.accAt (q.first w + j)) (fp32 q.req.scaleA.toNat)))
        ({ u with flags := u.flags ||| o.flags }, some (leNat (packElems (biFormat w).bits o.elems)))) = some t →
      exec (.bankSta pair) s = .next (t.stepPc pair (some true)))
    ∧ (s.bankTurn pair .mac false (fun q w x u _ =>
        let (vs, v) := u.elems (biFormat w) x
        let ys := v.regElems (biFormat w) (biRa w)
        (({ v with flags := v.flags ||| nanIn ys } : BankUnit).accumulate (q.first w) (biAdd w) ((vs.zip ys).map (fun (a, b) => a.mul b)), none)) = some t →
      exec (.bankMac pair) s = .next (t.stepPc pair (some true)))
    ∧ (s.bankTurn pair .axpy false (fun q w x u _ =>
        ((u.elems (biFormat w) x).2.accumulate (q.first w) true
          ((u.elems (biFormat w) x).1.map (fun v => (q.lane (biImm w % 256)).mul v)), none)) = some t →
      exec (.bankAxpy pair) s = .next (t.stepPc pair (some true)))
    ∧ (s.bankTurn pair .scal false (fun q w x u _ =>
        ((u.elems (biFormat w) x).2.accumulate (q.first w) false
          ((u.elems (biFormat w) x).1.map (fun v => (q.lane (biImm w % 256)).mul v)), none)) = some t →
      exec (.bankScal pair) s = .next (t.stepPc pair (some true)))
    ∧ (s.bankTurn pair .dot false (fun q w x u pick =>
        ((u.elems (biFormat w) x).2.addTree (biImm w % 4) pick (((u.elems (biFormat w) x).1.zipIdx).map
          (fun (v, j) => v.mul (q.lane (q.first w + q.inner * (biFormat w).perWord + j)))), none)) = some t →
      exec (.bankDot pair) s = .next (t.stepPc pair (some true)))
    ∧ (s.bankTurn pair .expw false (fun q w x u _ =>
        let (vs, v) := u.elems (biFormat w) x
        let e := Fmt.wc64.val (bits (v.reg (biRa w)) (64 * (q.inner % 4)) 64)
        (({ v with flags := v.flags ||| nanIn [e] } : BankUnit).accumulate (q.first w) true (vs.map (fun y => e.mul y)), none)) = some t →
      exec (.bankExpw pair) s = .next (t.stepPc pair (some true)))
    ∧ (s.bankTurn pair .rsum false (fun _ w x u pick =>
        ((u.elems (biFormat w) x).2.addTree (biImm w % 4) pick (u.elems (biFormat w) x).1, none)) = some t →
      exec (.bankRsum pair) s = .next (t.stepPc pair (some true)))
    ∧ (s.bankTurn pair .rmax false (fun _ w x u _ =>
        let (vs, v) := u.elems (biFormat w) x
        (v.setS (biImm w % 4) (wRound (vs.foldl wMax (v.sAt (biImm w % 4)))), none)) = some t →
      exec (.bankRmax pair) s = .next (t.stepPc pair (some true)))
    ∧ (s.bankTurn pair .sten false (fun q w x u _ =>
        let (rs, v) := u.elems (biFormat w) x
        let outs := stencil (q.lane (biImm w % 256)) (q.lane (biImm w % 256 + 1)) (q.lane (biImm w % 256 + 2))
          ((v.regElems (biFormat w) (biRd w)).getLastD .zero) (rs.headD .zero) (v.regElems (biFormat w) (biRa w))
        let v2 := ({ v with flags := v.flags ||| nanIn ((v.regElems (biFormat w) (biRd w)).getLastD .zero :: v.regElems (biFormat w) (biRa w)) } : BankUnit).setLanes (q.first w) ((outs.zipIdx).map (fun (y, j) =>
          if biAdd w then y.bind (fun z => wAdd (v.accAt (q.first w + j)) z) else y))
        ((v2.setReg (biRd w) (v.reg (biRa w))).setReg (biRa w) x, none)) = some t →
      exec (.bankSten pair) s = .next (t.stepPc pair (some true)))
    ∧ (s.bankTurn pair .csel false (fun q w x u _ =>
        let (vs, v) := u.elems (biFormat w) x
        let ys := v.regElems (biFormat w) (biRa w)
        (({ v with flags := v.flags ||| nanIn ys } : BankUnit).accumulate (q.first w) false
          ((vs.zip ys).map (fun (a, b) => if selects (biImm w % 8) a b then a else b)), none)) = some t →
      exec (.bankCsel pair) s = .next (t.stepPc pair (some true)))
    ∧ (∀ (q : SeqSt) (o : BOp) (i : Fin 1024 → Instr), (o, i) ∈ [(BOp.ld, Instr.bankLd), (.st, .bankSt), (.lda, .bankLda), (.sta, .bankSta),
        (.mac, .bankMac), (.axpy, .bankAxpy), (.scal, .bankScal), (.dot, .bankDot), (.expw, .bankExpw), (.rsum, .bankRsum), (.rmax, .bankRmax),
        (.sten, .bankSten), (.csel, .bankCsel)] → s.mayIssue pair o = some q →
      ((∀ b ∈ s.activeBanks pair q, q.issues q.word b = false) → exec (i pair) s = .next (s.stepPc pair (some false)))
      ∧ (∀ (b : Nat) (bs : List Nat), (s.activeBanks pair q).filter (q.issues q.word) = b :: bs → 255 < laneTop o q.word q.outer q.inner →
        exec (i pair) s = .next (s.failBank pair q.req { status := .rejectLimit, detail := BitVec.ofNat 32 (pair * 65536 + b * 256 + q.pc) })))

/-- A dispatched BANK_RUN with a pair and an instruction, of present pairs, with its tables not sealed to another party,
puts its sequence into every pair's queue and is in progress while a vault holds it; one without runs to DONE_EMPTY;
SEQUENCE_LOAD loads the first sequence received; SORTIE_START opens a sortie in processor mode, with every row
closed; SORTIE_END ends it where the next instruction does not fit and serves the accesses the vault holds; LOOP
enters its body or, with a total of 0, passes it; ENDL goes round or leaves the loop; SETP sets the pointer of every
active bank; CLRA clears its accumulators; EXPS clears the score, counts an allowed token and steps on; RISE sends
the records that fit, from the one it stands at, and steps on with the last; END ends the sequence DONE, or
DONE_DEGRADED, with the flags of its banks and the longest cycle count. Where the notes/assumptions/29.md choice
matters (a record at a time), the statement follows it. -/
def Obligations.BankControl : Prop :=
  (∀ (s : State) (tag op : Nat) (c : OpCtx), s.toDispatch .bankRun tag op = some c → brCount c.d = 0 ∨ brLen c.d = 0 →
      (s.opStart c).unstalled → exec (.opBankRun tag op) s = .next (((s.opStart c).ranTo tag op { status := .doneEmpty }).keepBanking tag op))
  ∧ (∀ (s : State) (tag op : Nat) (c : OpCtx) (x : Oper), s.toDispatch .bankRun tag op = some c → 0 < brCount c.d → 0 < brLen c.d →
      (s.opStart c).trust.ranges = [] → (∀ k < brCount c.d, (s.opStart c).pairPresent (brFirst c.d + k) = true) →
      (s.opStart c).oper c.tag c.op = some x → (s.opStart c).unstalled →
      exec (.opBankRun tag op) s = .next ((((List.range (brCount c.d)).foldl (fun (t : State) k =>
        { t.setVault (brFirst c.d + k) (fun v => { v with queue := v.queue ++ [seqReq c x.prog k] }) with
          run := { t.run with wrote := insertNat t.run.wrote (brFirst c.d + k) } }) (s.opStart c)).ranTo tag op
          { status := .done }).keepBanking tag op))
  ∧ (∀ (s : State) (pair : Fin 1024) (r : SeqReq) (rest : List SeqReq), (s.vault pair).seq = none → (s.vault pair).queue = r :: rest →
      s.mayLoad pair = true → (State.loadSeq { s with run := {} } pair r).unstalled →
      exec (.sequenceLoad pair) s = .next (State.loadSeq { s with run := {} } pair r))
  ∧ (∀ (s : State) (pair : Fin 1024), (s.vault pair).seq.isSome = true → s.vaultShut pair = false → s.time.nextBoundary = none →
      s.startsNow pair = true → (s.vault pair).bsSpent < 2 * s.bsShare pair → (s.vault pair).held = [] →
      exec (.sortieStart pair) s = .next ((if (s.vault pair).processor then s else s.toArray pair).setVault pair (fun v => { v with
        sortie := some s.now, sortieSpent := 0, sorties := (s.startsCome pair).length, processor := true
        units := v.units.map (fun e => (e.1, { e.2 with openRow := none })) })))
  ∧ (∀ (s : State) (pair : Fin 1024) (q : SeqSt), (s.vault pair).seq = some q → (s.vault pair).sortie.isSome = true → s.fits pair q = false →
      exec (.sortieEnd pair) s = .next ((s.setVault pair (fun v => { v with sortie := none, sortieSpent := 0, freedAt := some s.now })).serveHeld pair))
  ∧ (∀ (s : State) (pair : Fin 1024) (q : SeqSt),
      (s.mayIssue pair .loop = some q → 0 < biCount q.word → s.seqBanks pair q ≠ [] →
        exec (.bankLoop pair) s = .next (s.setSeqSt pair (fun q' => { q' with
          pc := q'.pc + 1, loops := { body := q'.pc + 1, index := 0, total := biCount q.word, param := none } :: q'.loops })))
      ∧ (s.mayIssue pair .loop = some q → biCount q.word = 0 →
        0 < (s.seqBanks pair q).foldl (fun m b => max m (q.pw b (biImm q.word % 8))) 0 →
        exec (.bankLoop pair) s = .next (s.setSeqSt pair (fun q' => { q' with pc := q'.pc + 1, loops := {
          body := q'.pc + 1, index := 0, total := (s.seqBanks pair q).foldl (fun m b => max m (q.pw b (biImm q.word % 8))) 0
          param := some (biImm q.word % 8) } :: q'.loops })))
      ∧ (s.mayIssue pair .loop = some q → biCount q.word = 0 → (∀ b ∈ s.seqBanks pair q, q.pw b (biImm q.word % 8) = 0) →
        exec (.bankLoop pair) s = .next (s.setSeqSt pair (fun q' => { q' with pc := afterLoop (q'.prog.drop (q'.pc + 1)) (q'.pc + 1) 0 })))
      ∧ (∀ (l : LoopSt) (rest : List LoopSt), s.mayIssue pair .endl = some q → q.loops = l :: rest → l.index + 1 < l.total →
        ∃ t : State, exec (.bankEndl pair) s = .next t
          ∧ (t.vault pair).seq = some { q with pc := l.body, loops := { l with index := l.index + 1 } :: rest })
      ∧ (∀ (l : LoopSt) (rest : List LoopSt), s.mayIssue pair .endl = some q → q.loops = l :: rest → l.total ≤ l.index + 1 →
        ∃ t : State, exec (.bankEndl pair) s = .next t ∧ (t.vault pair).seq = some { q with pc := q.pc + 1, loops := rest })
      ∧ (s.mayIssue pair .setp = some q →
        exec (.bankSetp pair) s = .next (((s.activeBanks pair q).foldl (fun (t : State) b =>
          t.setUnit pair b (fun u => { u with p := put u.p (biPtr q.word) (BitVec.ofNat 19 (
            if biImm q.word / 2 ^ 14 = 0 then q.pw b (biImm q.word % 8)
            else if biImm q.word / 2 ^ 14 = 1 then q.pw b (biImm q.word % 8) + q.outer * q.pw b (biImm q.word / 8 % 8)
            else (((u.ptr (biPtr q.word) : Int) + toInt 14 (biImm q.word)) % (2 ^ 19 : Int)).toNat)) })) s).stepPc pair none))
      ∧ (s.mayIssue pair .clra = some q →
        exec (.bankClra pair) s = .next ((((s.activeBanks pair q).foldl (fun (t : State) b =>
          (if (if q.afterM || (s.activeBanks pair q).isEmpty then 0 else 1) = 0 then t else t.charge pair b ((275 : Rat) / 100)).setUnit pair b
            (fun u => { u with acc := [], s := [], cnt := 0, cycles := u.cycles + (if q.afterM || (s.activeBanks pair q).isEmpty then 0 else 1) })) s).spend
              pair (5 * (if q.afterM || (s.activeBanks pair q).isEmpty then 0 else 1))).stepPc pair (some false)))
      ∧ (s.mayIssue pair .exps = some q → ∃ t : State, exec (.bankExps pair) s = .next t ∧ Only [.mem, .thermal] s t
          ∧ (t.vault pair).seq = some { q with pc := q.pc + 1, afterM := false }
          ∧ ∀ b ∈ s.activeBanks pair q, look (t.unit pair b).s 0 0 = wBits .zero
            ∧ (t.unit pair b).cnt = (s.unit pair b).cnt + (if biMask q.word && !q.allowed b q.inner then 0 else 1)
            ∧ (t.unit pair b).acc = (s.unit pair b).acc ∧ (t.unit pair b).p = (s.unit pair b).p)
      ∧ (s.mayIssue pair .rise = some q → riseSize q.word = 0 → exec (.bankRise pair) s = .next (s.stepPc pair (some false)))
      ∧ (∀ (k : Nat) (t : State), s.mayIssue pair .rise = some q → 0 < riseSize q.word → k = s.recordsNow pair q →
        t = ((((List.range k).map (fun i => q.rise + i)).foldl (fun (t : State) b =>
          if (t.seqBanks pair q).contains b
          then (t.setUnit pair b (fun _ => (riseRecord q q.word (t.unit pair b)).2)).storeCore pair q.req.ord (q.req.outBase + b * riseSize q.word)
            (riseRecord q q.word (t.unit pair b)).1
          else t.storeCore pair q.req.ord (q.req.outBase + b * riseSize q.word) (List.replicate (riseSize q.word) 0)) s).spend pair
            (s.recordsTime pair (riseSize q.word) q.rise (q.rise + k))).setSeqSt pair (fun x => { x with
              degraded := x.degraded || s.narrow pair || (List.range 128).any (fun b => q.enabled b && s.bankRetired pair b)
              rise := if x.rise + k = 128 then 0 else x.rise + k }) →
        (q.rise + k = 128 → exec (.bankRise pair) s = .next (t.stepPc pair (some false)))
        ∧ (q.rise + k ≠ 128 → exec (.bankRise pair) s = .next t))
      ∧ (s.mayIssue pair .stop = some q →
        exec (.bankEnd pair) s = .next (((s.setVault pair (fun v => { v with processor := !v.queue.isEmpty })).endBank pair q.req
          { status := if q.degraded then .doneDegraded else .done
            flags := ((s.seqBanks pair q).map (s.unit pair)).foldl (fun g u => g ||| u.flags) 0
            result := BitVec.ofNat 64 (((s.seqBanks pair q).map (s.unit pair)).foldl (fun m u => max m u.cycles) 0) }).endSortie pair)))

/-- SUBMIT_ORDER of an address that is a multiple of 256 in readable memory outside every pool and every sealed range
reads the order header; an order of no operation ends DONE_EMPTY; an order whose descriptors are all accepted is
admitted whole, with every OPSTAT written 0; an order one of whose descriptors is not accepted ends as that
descriptor says, and none of it is admitted; an address that is no multiple of 256 ends REJECT_FORMAT naming it. -/
def Obligations.OrderAdmission : Prop :=
  ∀ (s u : State) (c : Fin 4) (k : Fin 1024) (a : Adm) (x : Cmd), s.admission 0x0001 c k = some (u, a) → u.cmd a.tag = some x →
    (∀ (h : List Byte) (io : Io), field a.b 24 8 % 256 = 0 → field a.b 24 8 < farBase → u.reachableRange (field a.b 24 8) 64 = true →
      u.rangeInPool (field a.b 24 8) 64 = false → u.trust.ranges = [] → u.load {} (field a.b 24 8) 64 = (h, io) → io.stop = none →
      field h 0 2 = 1 →
      (ordOps h = 0 → ordResultOp h = 0xFFFF → exec (.submitOrder c k) s = .next (a.finish io.s { status := .doneEmpty }))
      ∧ (∀ (t : State) (ops : List Oper), 0 < ordOps h → ordResultOp h = 0xFFFF ∨ ordResultOp h < ordOps h →
        io.s.reachableRange (field a.b 24 8 + 64) (256 * ordOps h) = true → io.s.rangeInPool (field a.b 24 8 + 64) (256 * ordOps h) = false →
        io.s.trust.ranges = [] → io.s.readDescs x (field a.b 24 8) 0 [] (ordOps h) = (t, .ok ops) →
        exec (.submitOrder c k) s = .next ((t.zeroOpstats (field a.b 24 8) ops.length).setCmd a.tag (fun y =>
          { y with order := some (orderOf t (field a.b 24 8) h ops), handles := ordHandles ops })))
      ∧ (∀ (t : State) (e : Ending), 0 < ordOps h → ordResultOp h = 0xFFFF ∨ ordResultOp h < ordOps h →
        io.s.reachableRange (field a.b 24 8 + 64) (256 * ordOps h) = true → io.s.rangeInPool (field a.b 24 8 + 64) (256 * ordOps h) = false →
        io.s.trust.ranges = [] → io.s.readDescs x (field a.b 24 8) 0 [] (ordOps h) = (t, .error e) →
        exec (.submitOrder c k) s = .next (a.finish t e)))
    ∧ (field a.b 24 8 % 256 ≠ 0 → exec (.submitOrder c k) s = .next (a.finish u { status := .rejectFormat, detail := 0x10018, result := 0xFFFF }))

/-- A dispatched NOP that meets no vault on which it must wait runs to DONE; an order with a start time starts at a
ration-period boundary at or after it; an operation that has run and is not struck makes the writes it put off and
completes: OPSTAT and OPRESULT are written, its pins released, the operations that will now never run are settled, a
core operation's completion source is asserted in the cluster of its half, and with the last operation the order
ends. An operation that holds no place yet is not dispatched to a unit of a core that another occupies. That results
are written as an operation completes is the model's choice (assumption 24). -/
def Obligations.OrderProgress : Prop :=
  (∀ (s : State) (tag op : Nat) (c : OpCtx), s.toDispatch .nop tag op = some c → (s.opStart c).unstalled →
      exec (.opNop tag op) s = .next ((s.opStart c).ranTo tag op { status := .done }))
  ∧ (∀ (s : State) (tag : Nat) (c : Cmd) (o : Order) (n : BitVec 64), s.cmd tag = some c → c.order = some o → o.started = false → o.startNs = some n →
      n.toNat ≤ s.rtNow → s.atBoundary = true →
      exec (.orderStart tag) s = .next (s.setCmd tag (fun c => { c with order := c.order.map (fun o => { o with started := true }) })))
  ∧ (∀ (s t : State) (tag op : Nat) (c : Cmd) (o : Order) (x y : Oper) (e f : Ending) (io : Io), s.cmd tag = some c → c.order = some o →
      s.oper tag op = some x → x.phase = .running e → c.struck = none → (s.wdog s.lead).inReset = false → s.farAcked tag op = true →
      State.writeLate { s with run := {} } { cmd := c, tag := tag, op := op, d := x.desc } x.late = io → io.s.unstalled → io.s.oper tag op = some y →
      f = io.stop.getD (io.s.run.ending e) →
      t = io.s.setOper tag op (fun z => { z with phase := .running f, late := [], wrote := io.s.run.wrote.foldl insertNat z.wrote }) →
      t.farAcked tag op = true →
      ((opKind (opCode x.desc)).bind OpKind.coreUnit = none →
        exec (.operationComplete tag op) s = .next (((((t.setOper tag op (fun z => { z with phase := .completed f })).writeOpstat o.addr op
          (opstat f) f.result.toNat).releasePins tag op).setCmd tag (fun c => { c with order := c.order.map settleAfter })).endOrder tag))
      ∧ (∀ k, (opKind (opCode x.desc)).bind OpKind.coreUnit = some k →
        ∃ u : State, u = (((t.setOper tag op (fun z => { z with phase := .completed f })).writeOpstat o.addr op
          (opstat f) f.result.toNat).releasePins tag op).setCmd tag (fun c => { c with order := c.order.map settleAfter })
        ∧ exec (.operationComplete tag op) s = .next ((u.raiseIn (u.pairCluster (opPair x.desc)) (64 + opPair x.desc / 8)).endOrder tag)))
  ∧ (∀ (s : State) (tag op : Nat) (c : OpCtx) (k : OpKind) (n : Nat), s.toDispatch k tag op = some c → k.coreUnit = some n →
      (s.oper tag op).map (·.phase) ≠ some .held →
      ∀ (y : Cmd) (o : Order) (x : Oper), y ∈ s.warden.tags → y.order = some o → x ∈ o.ops → x.occupies (opPair c.d) n = false)

/-- The ending an order's record is formed from is that of an operation that completed, none that completed has a status
of higher rank, and of those with an equal rank it is the one of lowest index; CPL_OPS_DONE counts the completed
operations whose status satisfies dependents. -/
def Obligations.WorstEnding : Prop :=
  (∀ (l : List (Nat × Ending)) (i : Nat) (e : Ending), worst l = some (i, e) →
      (i, e) ∈ l ∧ (∀ x ∈ l, e.status.rank ≤ x.2.status.rank) ∧ (l.Pairwise (fun a b => a.1 < b.1) → ∀ x ∈ l, x.2.status.rank = e.status.rank → i ≤ x.1))
  ∧ (∀ (o : Order) (i : Nat) (e : Ending), (i, e) ∈ o.completed ↔ ∃ x : Oper, o.ops[i]? = some x ∧ x.phase = .completed e)
  ∧ (∀ (o : Order) (i : Nat) (e : Ending), worst o.completed = some (i, e) → e.status.good = false →
      o.ending none = { status := e.status, detail := e.detail, result := BitVec.ofNat 64 i })

/-- STRIKE_ORDER of the owner strikes the commands and sealed slots of the controller and number it names, STRIKE_SEQ
the commands that name its handle, STRIKE_ALL every command not yet recorded and every sealed slot: with no target
it ends DONE_EMPTY; with targets the sealed slots are struck, the commands are marked and the Strike's own record
waits. A unit of a struck command that has stopped is cleared and its pins released; when every unit has stopped the
records are written, then the Strike's own with the number struck. -/
def Obligations.Strikes : Prop :=
  (∀ (s u : State) (c : Fin 4) (k : Fin 1024) (a : Adm) (x : Cmd),
    (s.admission 0x0F01 c k = some (u, a) → u.cmd a.tag = some x → x.asOwner = true → field a.b 24 1 ≤ 3 → field a.b 26 2 ≤ 32767 →
      exec (.strikeOrder c k) s = .next (a.strike u
        ((u.strikable.filter (fun y => decide (y.ctrl.val = field a.b 24 1) && decide (y.seq.toNat = field a.b 26 2))).map (·.tag))
        (u.strikableSlots.filter (fun e => decide (e.ctrl.val = field a.b 24 1) && decide (e.seq.toNat = field a.b 26 2)))))
    ∧ (s.admission 0x0F01 c k = some (u, a) → u.cmd a.tag = some x → x.asOwner = false → field a.b 24 1 ≤ 3 → field a.b 26 2 ≤ 32767 →
      field a.b 24 1 ≠ c.val →
      exec (.strikeOrder c k) s = .next (a.finish u { status := .rejectNotOwner, detail := 0x1FFFF }))
    ∧ (s.admission 0x0F02 c k = some (u, a) → bit (field a.b 24 4) 31 = false →
      exec (.strikeSeq c k) s = .next (a.strike u ((u.strikable.filter (fun y => y.handles.contains (field a.b 24 4 % 65536))).map (·.tag)) []))
    ∧ (s.admission 0x0F03 c k = some (u, a) →
      exec (.strikeAll c k) s = .next (a.strike u (u.strikable.map (·.tag)) u.strikableSlots))
    ∧ a.strike u [] [] = a.finish u { status := .doneEmpty }
    ∧ (∀ (tags : List Nat) (slots : List SealedSlot), tags ≠ [] ∨ slots ≠ [] →
      a.strike u tags slots = ((u.strikeSlots slots .struck (strikeDetail (mbSeq a.b) a.ctrl)).markStruck tags .struck (strikeDetail (mbSeq a.b) a.ctrl)).setWarden
        (fun w => { w with strikes := w.strikes ++ [{ tags := tags, slotCount := slots.length, own := some a.tag }] })))
  ∧ (∀ (s : State) (tag op : Nat) (c : Cmd) (x : Oper), s.cmd tag = some c → s.oper tag op = some x → c.struck.isSome = true →
      x.phase.inFlight = true → x.stopped = false →
      exec (.unitStop tag op) s = .next (((s.stopBanks tag op).releasePins tag op).setOper tag op (fun y => { y with stopped := true })))
  ∧ (∀ (s : State) (j : StrikeJob), s.warden.strikes = [j] → s.jobReady j = true →
      exec .strikeRecords s = .next ((s.setWarden (fun w => { w with strikes := [] })).finishJob j))
  ∧ (∀ s : State, (∀ j ∈ s.warden.strikes, s.jobReady j = false) → exec .strikeRecords s = .next s)

/-- A write to a port that takes none, or of another width or alignment than an aligned 4 or 8 B outside the slots,
changes nothing. A 4 B write into a slot writes the slot; one to the ownership block acts there whoever makes it; a
writable word of the Rations block or of a check-value channel acts for the owner and is denied to any other
controller; an 8 B write acts on its lower word and then on its upper word. -/
def Obligations.RegisterWrites : Prop :=
  (∀ (s : State) (p : Fin 2) (off width : Nat) (v : BitVec 64), s.hostWrites p = false → exec (.registerWrite p off width v) s = .next s)
  ∧ (∀ (s : State) (p : Fin 2) (off width : Nat) (v : BitVec 64), off < 0x10000 ∨ 0x50000 ≤ off → ¬ (width = 4 ∧ off % 4 = 0) → ¬ (width = 8 ∧ off % 8 = 0) →
      exec (.registerWrite p off width v) s = .next s)
  ∧ (∀ (s : State) (p : Fin 2) (k : Fin 1024) (o : Nat) (v : BitVec 64), s.hostWrites p = true → o < 256 → o % 4 = 0 →
      exec (.registerWrite p (0x10000 + 256 * k + o) 4 v) s = .next (settle s (s.slotWrite (ctrlOf p) k o (leBytes 4 v.toNat))))
  ∧ (∀ (s : State) (p : Fin 2) (o : Nat) (v : BitVec 64), s.hostWrites p = true → o < 0x1000 → o % 4 = 0 →
      exec (.registerWrite p (0x1000 + o) 4 v) s = .next (settle s (s.ownWrite (ctrlOf p) o (v.toNat % 2 ^ 32))))
  ∧ (∀ (s : State) (p : Fin 2) (o : Nat) (v : BitVec 64), s.hostWrites p = true → o < 0x10000 → o % 4 = 0 →
      exec (.registerWrite p (0x50000 + o) 4 v) s = .next (settle s (s.ringsWrite p o (v.toNat % 2 ^ 32))))
  ∧ (∀ (s : State) (p : Fin 2) (o : Nat) (v : BitVec 64), s.hostWrites p = true → o < 0x10000 → o % 4 = 0 → rationsWritable o = true →
      exec (.registerWrite p (0x60000 + o) 4 v) s
        = .next (settle s (if s.owns (ctrlOf p) then s.rationsWrite o (v.toNat % 2 ^ 32) else s.deny (ctrlOf p))))
  ∧ (∀ (s : State) (p : Fin 2) (n o : Nat) (v : BitVec 64), s.hostWrites p = true → n < 512 → o < 128 → o % 4 = 0 → s.hasChan n = true → chanWritable o = true →
      exec (.registerWrite p (0x90000 + 128 * n + o) 4 v) s
        = .next (settle s (if s.owns (ctrlOf p) then s.cvWord n (ctrlOf p) o (v.toNat % 2 ^ 32) else s.deny (ctrlOf p))))
  ∧ (∀ (s : State) (p : Fin 2) (o : Nat) (v : BitVec 64), s.hostWrites p = true → o < 0x8000 → o % 4 = 0 →
      exec (.registerWrite p (0x100000 + o) 4 v) s = .next (settle s (s.msixWrite p o (v.toNat % 2 ^ 32))))
  ∧ (∀ (s : State) (p : Fin 2) (off : Nat) (v : BitVec 64), s.hostWrites p = true → off < 0x10000 ∨ 0x50000 ≤ off → off % 8 = 0 →
      exec (.registerWrite p off 8 v) s
        = .next (settle s ((s.wordWrite p off (v.toNat % 2 ^ 32)).wordWrite p (off + 4) (v.toNat / 2 ^ 32))))

/-- TIME_CONFIG with parameters in range takes source, role, edge and seconds and judges the discipline anew. A PPS edge
of the set kind a second after the last, with the 25 MHz input within 100 ppm, counts the run and names the next
second; the third in a row locks the input; an edge out of tolerance or not a second after the last starts the run
anew and leaves a lock as it is. Losing the input or the beacons ends their lock. A root emits a numbered beacon on
every beacon port at each millisecond; an accepted beacon is taken, by a root in command of its own number only from
a lower root; 10 ms without a lower root end its reign. The sideband word keeps the E count within 5 ns of the W
count. -/
def Obligations.RackTimeSources : Prop :=
  (∀ (s u : State) (c : Fin 4) (k : Fin 1024) (a : Adm), s.admission 0x0100 c k = some (u, a) → field a.b 24 1 ≤ 3 → field a.b 25 1 ≤ 1 →
      field a.b 26 1 ≤ 1 → field a.b 27 1 ≤ 1 →
      ∃ v : State, v = { u with
          settings := { u.settings with tcSource := BitVec.ofNat 2 (field a.b 24 1), tcRoot := decide (field a.b 25 1 = 1),
                                        tcFalling := decide (field a.b 26 1 = 1) }
          time := { u.time with tcSeconds := if field a.b 27 1 = 1 then some (BitVec.ofNat 64 (field a.b 32 8)) else u.time.tcSeconds,
                                emitting := u.time.emitting && decide (field a.b 25 1 = 1),
                                lowerRoot := if field a.b 25 1 = 1 then u.time.lowerRoot else none } }
        ∧ exec (.timeConfig c k) s = .next (a.done (if v.time.running then v.relock else v)))
  ∧ (∀ (s : State) (rising : Bool) (f : Int), s.time.running = false ∨ rising = s.settings.tcFalling → exec (.ppsEdge rising f) s = .next s)
  ∧ (∀ (s : State) (rising : Bool) (f : Int) (t0 sec t1 : Nat), s.time.running = true → rising ≠ s.settings.tcFalling → s.time.lastPps = some t0 →
      t0 + 1000000000 ≤ s.now + 1000 → s.now ≤ t0 + 1000000000 + 1000 → f.natAbs ≤ 100000 → s.time.tcSeconds = none → s.time.seconds = some (sec, t1) →
      ∃ v : State, v = State.relock { s with time := { s.time with
          lastPps := some s.now, ppsRun := s.time.ppsRun + 1, seconds := some (sec + nearSeconds ((s.now : Int) - t1), s.now)
          inputLocked := s.time.inputLocked || decide (3 ≤ s.time.ppsRun + 1)
          inputError := ((sec + nearSeconds ((s.now : Int) - t1) : Nat) : Int) * 1000000000 - s.rtNow } }
        ∧ exec (.ppsEdge rising f) s
          = .next (if v.time.source = .input then { v with time := { v.time with freqPpb := BitVec.ofInt 32 f } } else v))
  ∧ (∀ (s : State) (rising : Bool) (f : Int) (sec : BitVec 64), s.time.running = true → rising ≠ s.settings.tcFalling →
      100000 < f.natAbs ∨ s.time.lastPps = none ∨ (∃ t0 : Nat, s.time.lastPps = some t0 ∧ (s.now + 1000 < t0 + 1000000000 ∨ t0 + 1000000000 + 1000 < s.now)) →
      s.time.tcSeconds = some sec →
      ∃ v : State, v = State.relock { s with time := { s.time with
          lastPps := some s.now, ppsRun := if f.natAbs ≤ 100000 then 1 else 0, tcSeconds := none, seconds := some (sec.toNat, s.now)
          inputError := (sec.toNat : Int) * 1000000000 - s.rtNow } }
        ∧ exec (.ppsEdge rising f) s
          = .next (if v.time.source = .input then { v with time := { v.time with freqPpb := BitVec.ofInt 32 f } } else v))
  ∧ (∀ (s : State) (t : Nat), s.time.lastPps = some t →
      exec .trefLoss s = .next (State.relock { s with time := { s.time with ppsRun := 0, lastPps := none, inputLocked := false } }))
  ∧ (∀ (s : State) (id : BitVec 12), s.links.nodeId = some id → s.isRoot = true → s.time.running = true → s.rtNow % 1000000 = 0 →
      s.time.lastEmit ≠ some s.time.now →
      exec .beaconEmit s = .next (s.beaconPorts.foldl (fun (t : State) n => t.sendUnseq n (.beacon (id.setWidth 16) 0 s.time.emitSeq s.time.now 0 (BitVec.ofNat 32 s.errBound)))
        { s with time := { s.time with emitting := true, lastEmit := some s.time.now, emitSeq := s.time.emitSeq + 1 } }))
  ∧ (∀ (s t : State) (p : Fin 18) (h : FlitHdr) (m : BeaconMsg), s.accepted p h .beacon = some t → t.settings.tcRoot = false ∨ t.links.nodeId = none →
      exec (.beacon p h m) s = .next (t.takeBeacon p m))
  ∧ (∀ (s t : State) (p : Fin 18) (h : FlitHdr) (m : BeaconMsg) (id : BitVec 12), s.accepted p h .beacon = some t → t.settings.tcRoot = true →
      t.links.nodeId = some id → m.root.toNat < id.toNat →
      exec (.beacon p h m) s = .next (State.takeBeacon { t with time := { t.time with lowerRoot := some t.now, emitting := false } } p m))
  ∧ (∀ (s t : State) (p : Fin 18) (h : FlitHdr) (m : BeaconMsg) (id : BitVec 12), s.accepted p h .beacon = some t → t.settings.tcRoot = true →
      t.links.nodeId = some id → id.toNat ≤ m.root.toNat → t.time.lowerRoot = none → exec (.beacon p h m) s = .next t)
  ∧ (∀ (s : State) (t : Nat), s.time.lastBeacon = some t →
      (t + 10000000 ≤ s.now → ∃ v : State, v = State.relock { s with time := { s.time with beaconRun := 0, beaconsLocked := false, lastBeacon := none } }
        ∧ exec .beaconLoss s = .next { v with time := { v.time with beaconPort := 0x1F, beaconHops := 0 } })
      ∧ (s.now < t + 10000000 → exec .beaconLoss s = .next s))
  ∧ (∀ (s : State) (t : Nat), s.time.lowerRoot = some t →
      (t + 10000000 ≤ s.now → exec .beaconRootResume s = .next (State.relock { s with time := { s.time with lowerRoot := none } }))
      ∧ (s.now < t + 10000000 → exec .beaconRootResume s = .next s))
  ∧ (∀ (s : State) (w : BitVec 64), s.twin = true → s.time.running = true → s.seam.mods.any (fun e => decide (e.2.state ≠ .out)) = true →
      exec (.seamRackTimeWord w) s = .next { s with seam := { s.seam with
        eOffset := max (-5) (min 5 (toInt 64 (w - s.time.now).toNat)), lastHeard := s.now } })

/-- An accepted schedule of no slots ends DONE_EMPTY; any other, or a removal, waits as the next schedule with its
command, and one that already waited ends DONE. POWER_SLOTS_READ from a host port copies the schedule in force to
host memory and its result is the number of bytes. -/
def Obligations.PowerSlots : Prop :=
  ∀ (s u : State) (c : Fin 4) (k : Fin 1024) (a : Adm),
    (s.admission 0x0110 c k = some (u, a) → firstFault .slot (psChecks u a.b) = none →
      (field a.b 24 1 = 1 → field a.b 26 1 = 0 → exec (.powerSlotsSet c k) s = .next (a.finish u { status := .doneEmpty }))
      ∧ (field a.b 24 1 = 0 → u.power.next = none →
        exec (.powerSlotsSet c k) s = .next { u with power := { u.power with next := some (none, a.tag, u.now) } })
      ∧ (field a.b 24 1 = 1 → field a.b 26 1 ≠ 0 → u.power.next = none →
        exec (.powerSlotsSet c k) s = .next { u with power := { u.power with next := some (some (psSched a.b), a.tag, u.now) } })
      ∧ (∀ (p : Option PowerSched) (tag n : Nat), field a.b 24 1 = 1 → field a.b 26 1 ≠ 0 → u.power.next = some (p, tag, n) →
        ∃ v : State, v = u.endCmd tag { status := .done }
          ∧ exec (.powerSlotsSet c k) s = .next { v with power := { v.power with next := some (some (psSched a.b), a.tag, v.now) } }))
    ∧ (∀ (o : Nat) (st : Status) (d : BitVec 32), s.admission 0x0110 c k = some (u, a) → mbCmd a.b ≠ 1 → firstFault .slot (psChecks u a.b) = some (st, d) →
      exec (.powerSlotsSet c k) s = .next (a.finish u { status := st, detail := d }))
    ∧ (s.admission 0x0111 c k = some (u, a) → c.val ≤ 1 → field a.b 24 8 % 64 = 0 → (u.port c).linkUp = true →
      exec (.powerSlotsRead c k) s
        = .next (a.done (u.hostWrite c (field a.b 24 8) (psBytes u.power.sched)) (psBytes u.power.sched).length))

/-- A boundary not yet dealt with commits what waits, steps the clock and then the count; at any other time the event
changes nothing, so no boundary is dealt with twice. At a boundary the power-frame event puts schedule, fallback and
slot in force, takes as the input power what the governor makes of the load's, which is never above the bound and,
where the ramp reaches the bound, within the ramp of the schedule, and holds since when it exceeds a quarter of the
limit; the governor pauses nothing where the load asks for less than the ceiling, the ramp gives it and no lower
ceiling comes (that it takes its measures freely otherwise is the model's choice, assumption 58). One boundary moves
the core clock by 12.5 MHz at most and keeps it between the order code's lowest clock and the fused one. -/
def Obligations.Boundaries : Prop :=
  (∀ s : State, s.boundaryNow = true → exec .rationPeriodBoundary s = .next (settle s (s.boundary.applyStep)))
  ∧ (∀ s : State, s.boundaryNow = false → exec .rationPeriodBoundary s = .next s)
  ∧ (∀ s : State, s.time.lastBoundary = some s.time.now → exec .rationPeriodBoundary s = .next s)
  ∧ (∀ (s : State) (w : BitVec 16), s.time.running = true → s.atBoundary = true →
      ∃ v g : State, v = (s.commitSched.checkFallback).placeSlot ∧ g = v.govern w.toNat
        ∧ exec (.powerFrameBoundary w) s = .next { g with power := { g.power with
            above25Since := if 4 * g.power.inputW.toNat ≤ s.fuses.powerW then none else some (s.power.above25Since.getD s.now) } }
        ∧ g.power.inputW.toNat = v.governed w.toNat ∧ v.governed w.toNat ≤ v.powerBound
        ∧ (∀ p : PowerSched, v.power.sched = some p → v.power.inputW.toNat - p.rampW.toNat * ((v.now - v.power.readAt) / 1000) ≤ v.powerBound →
          v.power.inputW.toNat ≤ v.governed w.toNat + p.rampW.toNat * ((v.now - v.power.readAt) / 1000)
            ∧ v.governed w.toNat ≤ v.power.inputW.toNat + p.rampW.toNat * ((v.now - v.power.readAt) / 1000))
        ∧ (v.governed w.toNat = w.toNat → w.toNat < v.effectiveCeiling → v.lowerComes = false → g.power.pause = 0 ∧ g.power.hold = false))
  ∧ (∀ (s : State) (w : BitVec 16), s.atBoundary = false → exec (.powerFrameBoundary w) s = .next s)
  ∧ (∀ s : State, (derating s.fuses).2.2 ≤ s.clock10 → s.clock10 ≤ 10 * s.fuses.clockMhz →
      s.stepClock.clock10 ≤ s.clock10 + 125 ∧ s.clock10 ≤ s.stepClock.clock10 + 125 ∧ (derating s.fuses).2.2 ≤ s.stepClock.clock10
        ∧ s.stepClock.clock10 ≤ 10 * s.fuses.clockMhz)

/-- COOLANT_CONFIG with a fluid and a setpoint in range waits for the next boundary. SENSOR_DEMOTE of a named sensor
persists its demotion; SENSOR_RESTORE takes it back, also one the module made, unless the sensor is implausible now,
when it ends REJECT_STATE. SWING_LIMIT_SET sets its floor. THERMAL_READ copies the map, or ends DONE_EMPTY for no
bytes. THERMAL_CLEAR clears the latch, writes an event and forms its own record where its conditions hold, and ends
REJECT_STATE where they do not. -/
def Obligations.HeatCommands : Prop :=
  ∀ (s u : State) (c : Fin 4) (k : Fin 1024) (a : Adm),
    (s.admission 0x0200 c k = some (u, a) → field a.b 24 1 ≤ 1 → 1000 ≤ field a.b 26 2 → field a.b 26 2 ≤ 8000 →
      exec (.coolantConfig c k) s = .next { u with warden := { u.warden with
        deferred := u.warden.deferred ++ [{ tag := a.tag, effect := .coolant (decide (field a.b 24 1 = 1)) (field a.b 26 2), accepted := u.now }] } })
    ∧ (s.admission 0x0201 c k = some (u, a) → firstFault .slot (sensorChecks u a.b) = none →
      exec (.sensorDemote c k) s = .next (a.done { u with settings := { u.settings with demoted := (sensorsNamed a.b).foldl insertNat u.settings.demoted } }))
    ∧ (s.admission 0x0202 c k = some (u, a) → firstFault .slot (sensorChecks u a.b) = none →
      ((∀ i ∈ sensorsNamed a.b, (u.sensor i).implausible u.thermal.inlet = false) →
        exec (.sensorRestore c k) s = .next (a.done { u with
          settings := { u.settings with demoted := (sensorsNamed a.b).foldl removeNat u.settings.demoted }
          thermal := { u.thermal with sensors := u.thermal.sensors.map (fun e =>
            if (sensorsNamed a.b).contains e.1 then (e.1, { e.2 with autoDemoted := false }) else e) } }))
      ∧ (∀ i ∈ sensorsNamed a.b, (u.sensor i).implausible u.thermal.inlet = true →
        exec (.sensorRestore c k) s = .next (a.finish u { status := .rejectState, detail := 0x1001B })))
    ∧ (s.admission 0x0204 c k = some (u, a) → field a.b 24 1 ≤ 100 →
      exec (.swingLimitSet c k) s = .next (a.done { u with thermal := { u.thermal with swingFloor := field a.b 24 1 } }))
    ∧ (s.admission 0x0210 c k = some (u, a) → c.val ≤ 1 → field a.b 24 8 % 64 = 0 → field a.b 32 4 ≤ 92160 →
      (field a.b 32 4 = 0 → exec (.thermalRead c k) s = .next (a.finish u { status := .doneEmpty }))
      ∧ (field a.b 32 4 ≠ 0 → (u.port c).linkUp = true →
        exec (.thermalRead c k) s = .next (a.done (u.hostWrite c (field a.b 24 8) (u.sensorMap (field a.b 32 4))))))
    ∧ (s.admission 0x0203 c k = some (u, a) →
      (u.mayClear = true → ∃ v : State, v = u.clearLatch.postArgs 0x0202 u.lead 0 ((u.thermal.latch.map (·.evSeq.toNat)).getD 0) 0 0
        ∧ exec (.thermalClear c k) s = .next (settle s (a.done { v with lantern := { v.lantern with clearing := some (a.tag, v.now) } })))
      ∧ (u.mayClear = false → exec (.thermalClear c k) s = .next (settle s (a.finish u { status := .rejectState, detail := 0x1FFFF }))))

/-- A sample at least 100 µs after the last takes its readings, heats or cools the serial rails and, while the heat path
applies, judges every point. A site that has disagreed for more than 100 ms counts once, and 10 s without any
disagreement clear the flag. Every 64 periods a tower's estimates are renewed, every millisecond each unit's pause
takes its next step, every 10 ms a tower's hottest compute point is a sample of its wear, every 10 min the counts
persist, residual half cycles added; the sample or the persisting that brings a tower's count to 80,000 equivalents
sets WEAR_WARN and writes an event. A point at its shutdown threshold stands at shutdown and stays there; throttle
is left 3 K and warning 4 K below their thresholds. Nothing is done before its time. -/
def Obligations.HeatSensing : Prop :=
  (∀ (s : State) (l : List SensorReading), s.lanternOn = true → s.thermal.lastSample + 100000 ≤ s.now →
      ∃ t u : State, t = (l.foldl State.takeSite s).setThermal (fun x => { x with lastSample := s.now })
        ∧ u = ([0, 1] : List (Fin 2)).foldl (fun (x : State) h => if s.clusters.contains h.val then x.serHeat h else x) t
        ∧ exec (.sensorSample l) s = .next (settle s (if u.heatOn then u.judgeBlind.judge else u)))
  ∧ (∀ (s : State) (l : List SensorReading), s.now < s.thermal.lastSample + 100000 → exec (.sensorSample l) s = .next s)
  ∧ (∀ (s : State) (t : Fin 16) (l : Fin 10) (x : Fin 72) (since : Nat), look? s.thermal.disagree (pointOf t l x) = some (since, false) →
      since + 100000000 < s.now →
      ∃ p : Nat, p = pointOf t l x ∧ exec (.sensorDisagree t l x) s
        = .next (State.postArgs { s with thermal := { s.thermal with sensorDisagree := true, disagreeCount := satSucc s.thermal.disagreeCount,
                                                                     disagree := put s.thermal.disagree p (since, true) } }
            0x0204 (2 * p) 1 (sensorArg (2 * p)) (s.readingsArg p) 0))
  ∧ (∀ (s : State) (t : Fin 16) (l : Fin 10) (x : Fin 72) (since : Nat) (counted : Bool), look? s.thermal.disagree (pointOf t l x) = some (since, counted) →
      counted = true ∨ s.now ≤ since + 100000000 → exec (.sensorDisagree t l x) s = .next s)
  ∧ (∀ (s : State) (t : Nat), s.thermal.agreeSince = some t → t + 10000000000 ≤ s.now →
      exec .sensorDisagreeClear s = .next { s with thermal := { s.thermal with sensorDisagree := false } })
  ∧ (∀ (s : State) (t : Fin 16), s.hasTower t = true → s.heatOn = true → look s.thermal.lastEstimate t 0 + 64 ≤ s.time.boundaries →
      exec (.estimatorUpdate t) s = .next (settle s (s.updateEstimates t).judge))
  ∧ (∀ (s : State), s.heatOn = true → s.thermal.lastThrottle + 1000000 ≤ s.now →
      exec .throttleStep s = .next { s with thermal := { s.thermal with
        lastThrottle := s.now
        pauses := ((List.range 2048).filter (fun i => s.pairPresent (i / 2))).filterMap (fun i =>
          if s.nextStep (i / 2) (decide (i % 2 = 1)) = 0 then none else some (i, s.nextStep (i / 2) (decide (i % 2 = 1)))) } })
  ∧ (∀ (s : State) (t : Fin 16) (x : Rat), s.hottestCompute t = some x → s.hasTower t = true → s.heatOn = true →
      look s.thermal.lastSwing t 0 + 10000000 ≤ s.now →
      ∃ (w : Wear) (u : State), w = (look s.thermal.wear t {}).sample (x * 16).floor
        ∧ u = { s with thermal := { s.thermal with lastSwing := put s.thermal.lastSwing t s.now, wear := put s.thermal.wear t w } }
        ∧ exec (.swingSample t) s = .next (if (look s.thermal.wear t {}).total < 80000 ∧ 80000 ≤ w.total then
            State.postArgs { u with thermal := { u.thermal with wearWarn := true } } 0x0208 t 1 t w.total.floor.toNat 0 else u))
  ∧ (∀ s : State, s.lanternOn = true → s.thermal.wearAt + 600000000000 ≤ s.now →
      ∃ t : State, t = s.thermal.wear.foldl (fun (t : State) (e : Nat × Wear) =>
          if (look t.thermal.wear e.1 {}).total < 80000 ∧ 80000 ≤ max e.2.count (e.2.count + Machine.residual e.2.stack)
          then State.postArgs { t with thermal := { t.thermal with
              wear := put t.thermal.wear e.1 { e.2 with persisted := e.2.count + Machine.residual e.2.stack }, wearWarn := true } }
            0x0208 e.1 1 e.1 (max e.2.count (e.2.count + Machine.residual e.2.stack)).floor.toNat 0
          else { t with thermal := { t.thermal with wear := put t.thermal.wear e.1 { e.2 with persisted := e.2.count + Machine.residual e.2.stack } } }) s
        ∧ exec .wearPersist s = .next { t with thermal := { t.thermal with wearAt := s.now } })
  ∧ (∀ (layer : Nat) (old : Level) (t : Rat), old = .shutdown ∨ ((thresholds layer).2.2 : Rat) ≤ t → nextLevel layer old t = .shutdown)
  ∧ (∀ (layer : Nat) (t : Rat), t < ((thresholds layer).2.2 : Rat) →
      (((thresholds layer).2.1 : Rat) - 3 ≤ t → nextLevel layer .throttle t = .throttle)
      ∧ (t < ((thresholds layer).1 : Rat) - 4 → t < ((thresholds layer).2.1 : Rat) - 3 → nextLevel layer .warning t = .normal ∧ nextLevel layer .throttle t = .normal))

/-- With no latch standing a shutdown is latched with its cause, TH_CL_LEVEL 3 for a coolant cause; with one standing a
thermal cause changes nothing but the count of free values. Once the record is in flash or 20 ms after the shutdown
the compute and memory rails drop and memory contents are lost; 1 s after it the ports, the Seam and the clusters
lose power; before, nothing happens. The cold pitch after THERMAL_CLEAR begins once the clear's record is gone or
after 2 ms. -/
def Obligations.Shutdowns : Prop :=
  (∀ (s : State) (cause : Nat) (est : Bool) (point : Nat) (temp : Int), s.latchStands = false →
      ∃ d : Shutdown, (s.shutdown cause est point temp).thermal.latch = some d ∧ d.cause = cause ∧ d.at' = s.now ∧ d.cleared = false
        ∧ (cause = 1 → d.temp = temp ∧ d.tower = (pointParts point).1 ∧ d.layer = (pointParts point).2.1 ∧ d.site = (pointParts point).2.2)
        ∧ (cause ≠ 1 → (s.shutdown cause est point temp).thermal.clLevel = 3))
  ∧ (∀ (s : State) (est : Bool) (point : Nat) (temp : Int), s.latchStands = true → s.shutdown 1 est point temp = s.draw.2)
  ∧ (∀ (s : State) (d : Shutdown), s.thermal.latch = some d → d.cleared = false → s.heatOn = true → d.written = true ∨ d.at' + 20000000 ≤ s.now →
      ∃ t : State, exec .shutdownRailDrop s = .next t ∧ t.thermal.dropped = true ∧ t.mem.bytes = [] ∧ t.kv = {}
        ∧ (s.geo.hasW = true → t.board.railsW = { s.board.railsW with vcomp := false, vdram := false, vbase := false })
        ∧ (s.geo.hasE = true → t.board.railsE = { s.board.railsE with vcomp := false, vdram := false, vbase := false })
        ∧ Only [.board, .thermal, .mem, .cores, .kv] s t)
  ∧ (∀ (s : State) (d : Shutdown), s.thermal.latch = some d → d.written = false → s.now < d.at' + 20000000 → exec .shutdownRailDrop s = .next s)
  ∧ (∀ (s : State) (d : Shutdown), s.thermal.latch = some d → d.cleared = false → s.thermal.dropped = true →
      s.clusters.any (fun h => (s.railsOf h).vser) = true → d.at' + 1000000000 ≤ s.now →
      ∃ t : State, exec .shutdownPortDrop s = .next t ∧ t.seam.mods = [] ∧ t.far.linkUp = false ∧ t.trust.loaded = false ∧ t.links.nodeId = none)
  ∧ (∀ (s : State) (d : Shutdown), s.thermal.latch = some d → s.now < d.at' + 1000000000 → exec .shutdownPortDrop s = .next s)
  ∧ (∀ (s : State) (tag t : Nat), s.lantern.clearing = some (tag, t) → s.recordGone tag = true ∨ t + 2000000 ≤ s.now →
      exec .thermalClearPitchStart s = .next (settle s (s.dropForCold false)))
  ∧ (∀ (s : State) (tag t : Nat), s.lantern.clearing = some (tag, t) → s.recordGone tag = false → s.now < t + 2000000 →
      exec .thermalClearPitchStart s = .next s)

/-- A poll that is due on a half whose Lantern runs is noted and its reply acts; one that is not due changes nothing. A
reply whose checksum fails acts as no reply; a poll that lost arbitration is made again after 200 µs. The third poll
in a row without a reply leaves every reading implausible: the flow counts as half the setpoint and the inlet as 48
°C. A flow of 0 is a sudden stop. With the input above a quarter of the limit for 10 s, a coolant rise more than 3 K
and 30 % off the calorimetric one sets COOLANT_SENSOR. -/
def Obligations.TrayPolls : Prop :=
  (∀ (s : State) (h : Fin 2) (r : TrayReply), s.lanternHalf h = true → s.pollDue h = true →
      exec (.trayPoll h r) s = .next (settle s (State.endPoll { s with thermal := { s.thermal with
        lastPoll := put s.thermal.lastPoll h s.now, lostPoll := del s.thermal.lostPoll h } } h r)))
  ∧ (∀ (s : State) (h : Fin 2) (r : TrayReply), s.pollDue h = false → exec (.trayPoll h r) s = .next s)
  ∧ (∀ (s : State) (h : Fin 2) (r : TrayReply) (t : Nat), look? s.thermal.lostPoll h = some t → s.lanternHalf h = true → t + 200000 ≤ s.now →
      exec (.trayPollRetry h r) s = .next (settle s (State.endPoll { s with thermal := { s.thermal with lostPoll := del s.thermal.lostPoll h } } h r)))
  ∧ (∀ (s : State) (h : Fin 2) (r : TrayReply) (t : Nat), look? s.thermal.lostPoll h = some t → s.now < t + 200000 → exec (.trayPollRetry h r) s = .next s)
  ∧ (∀ (s : State) (h : Nat) (b : List Byte), trayValid b = false → s.endPoll h (.bytes b) = s.endPoll h .silent)
  ∧ (∀ (s : State) (h : Nat), s.endPoll h .lost = { s with thermal := { s.thermal with lostPoll := put s.thermal.lostPoll h s.now } })
  ∧ (∀ s : State, 2 ≤ s.thermal.missed → s.heatOn = false →
      ∃ t : State, s.missPoll = t ∧ t.thermal.inlet = none ∧ t.thermal.outlet = none ∧ t.thermal.flow = none
        ∧ t.thermal.flows.head? = some (s.now, s.flowSet / 2) ∧ t.thermal.inlets.head? = some (s.now, 768))
  ∧ (∀ (s : State) (t : Nat) (older : List (Nat × Nat)), s.thermal.flows = (t, 0) :: older → s.suddenStop = true)
  ∧ (∀ (s : State) (t f : Nat) (i o : Int), s.power.above25Since = some t → s.thermal.inlet = some i → s.thermal.outlet = some o → s.thermal.flow = some f →
      s.heatOn = true → t + 10000000000 ≤ s.now → 0 < f → 3 + s.calRise f * 3 / 10 < |deg (o - i) - s.calRise f| →
      exec .calorimetricCheck s = .next (State.postArgs { s with thermal := { s.thermal with coolantSensor := true } } 0x0206 s.lead 1
        (ofInt 16 i + 65536 * ofInt 16 o + 2 ^ 32 * f) (ofInt 64 (s.calRise f * 16).floor) 0))
  ∧ (∀ s : State, s.power.above25Since = none → exec .calorimetricCheck s = .next s)

/-- RESET_DEVICE 0 begins a compute reset in stage 0xB; 1 and 2 end every other command, complete this one and ask for a
warm or cold pitch. A compute reset whose records are written restarts units and Warden and answers the elapsed
microseconds in READY, or asks for a warm pitch when the firmware measures otherwise. A pitch that was asked for
begins once the records are gone or after 2 ms. MOD_RESET_N low holds every domain but the Lantern; at its release a
cold pitch that was asked for prevails over the warm one. 200 ms after a cold pitch dropped its rails stage 1
begins. -/
def Obligations.Resets : Prop :=
  (∀ (s u : State) (c : Fin 4) (k : Fin 1024) (a : Adm), s.admission 0x0401 c k = some (u, a) → field a.b 25 1 ≤ 1 →
      (field a.b 24 1 = 0 → exec (.resetDevice c k) s = .next (settle s (a.computeReset u)) ∧ (a.computeReset u).lantern.stage = 0xB)
      ∧ (field a.b 24 1 = 1 ∨ field a.b 24 1 = 2 → ∃ v : State, v = u.strikeEverything .struck (strikeDetail (mbSeq a.b) c) [a.tag]
        ∧ exec (.resetDevice c k) s = .next (settle s ((a.done v).askReset (field a.b 24 1) (decide (field a.b 25 1 = 1)) none))))
  ∧ (∀ (s : State) (cores : List (Fin 1024)) (j : ResetJob), s.lantern.job = some j → s.computeReset = true → j.kind = 0 → s.warden.strikes = [] →
      (exec (.computeResetComplete false cores) s = .next (s.askReset 1 false none))
      ∧ (∀ (u : State) (g : Nat), j.tag = some g → u = (State.setLantern ((s.flushStores.releaseRanges.resetUnits).retireFailed cores).restartWarden
          (fun l => { l with job := none })).toStage 0xF →
        exec (.computeResetComplete true cores) s
          = .next (settle s (u.endCmd g { status := .done, result := BitVec.ofNat 64 ((s.now - s.lantern.start) / 1000) }))))
  ∧ (∀ (s : State) (cores : List (Fin 1024)) (ok : Bool), s.warden.strikes ≠ [] → exec (.computeResetComplete ok cores) s = .next s)
  ∧ (∀ s : State, s.resetUnits.kv = { nonce := s.kv.nonce } ∧ s.resetUnits.cv = [] ∧ Only [.mem, .cores, .kv, .cv] s s.resetUnits)
  ∧ (∀ (s : State) (j : ResetJob), s.lantern.job = some j → 1 ≤ j.kind → s.board.resetLow = false → s.recordsGone = true ∨ j.since + 2000000 ≤ s.now →
      exec .resetPitchStart s = .next (settle s (if j.kind = 1 then s.startWarm j.full false else s.dropForCold j.full)))
  ∧ (∀ (s : State) (j : ResetJob), s.lantern.job = some j → s.recordsGone = false → s.now < j.since + 2000000 → exec .resetPitchStart s = .next s)
  ∧ (∀ (s : State) (t : Nat), s.lantern.railsDropped = some t → s.lantern.stage = 0 → s.board.inputOn = true →
      (t + 200000000 ≤ s.now → exec .coldPitchRailsReturn s = .next (settle s (s.startCold s.lantern.full false)))
      ∧ (s.now < t + 200000000 → exec .coldPitchRailsReturn s = .next s))
  ∧ (∀ s : State, s.board.resetLow = true → exec .modResetNAssert s = .next s)
  ∧ (∀ s : State, s.board.resetLow = false → s.lantern.stage ≠ 0 → s.coldWaits = false →
      ∃ t : State, exec .modResetNAssert s = .next t ∧ t.board.resetLow = true ∧ t.warden = {} ∧ t.intakes = [] ∧ t.cores = {} ∧ t.kv = {} ∧ t.cv = [] ∧ t.far = {}
        ∧ t.trust = { s.trust with loaded := false, ranges := [], bivKey := none }
        ∧ t.time = s.time ∧ t.mem.bytes = s.mem.bytes ∧ t.own = s.own ∧ t.rations = s.rations)
  ∧ (∀ s : State, s.board.resetLow = false → s.lantern.stage = 0 ∨ s.coldWaits = true →
      exec .modResetNAssert s = .next { s with board := { s.board with resetLow := true } })
  ∧ (∀ s : State, s.board.resetLow = false → exec .modResetNRelease s = .next s)
  ∧ (∀ (s t : State), s.board.resetLow = true → t = { s with board := { s.board with resetLow := false } } → s.board.waitingReset = false →
      s.lantern.stage ≠ 0 → s.coldWaits = false →
      (s.lantern.job = none → exec .modResetNRelease s = .next (settle s (t.startWarm false true)))
      ∧ (∀ j : ResetJob, s.lantern.job = some j → exec .modResetNRelease s = .next (settle s (t.dropForCold j.full))))
  ∧ (∀ s : State, s.board.resetLow = true → s.board.waitingReset = true →
      exec .modResetNRelease s = .next (settle s (State.gate { s with board := { s.board with resetLow := false, waitingReset := false } })))

/-- The lowest pending source, when fast, goes to the fast core that is awake, or, where that core is held, to the
lowest enabled one that is awake; the lowest pending normal source goes to the first eligible core after the last
one, which moves the pointer. The Lantern wakes a core for a wake source that nobody can take, the fast core for a
fast one, and the sleep timer wakes its core. A heartbeat resets the watchdog and takes up its configured period;
half a period without one warns, a whole one resets the cluster, and the third reset within 10 min strikes all for a
warm pitch. A restart with firmware that measures right runs again. A silent Seam in Twin mode ends every command
LINK_DOWN and leaves one half: W where its supply stands, else E, which goes on only under an owner on its own port. -/
def Obligations.WardenWatch : Prop :=
  (∀ (s : State) (h : Fin 2) (x : Fin 256) (n : Nat), x.val < 32 → (s.ic h).pending.contains x.val = true →
      (∀ y ∈ (s.ic h).pending, x.val ≤ y) → s.coresHeld h = false → (s.ic h).fastTarget = some n →
      exec (.fastInterruptDelivery h x) s = .next (s.takeSource h n x))
  ∧ (∀ (i : Ic) (n : Nat), i.fastTarget = some n ↔ (i.enabled i.fastCore.val = true ∧ i.awake i.fastCore.val = true ∧ n = i.fastCore.val) ∨
      (i.enabled i.fastCore.val = false ∧ n < 8 ∧ i.enabled n = true ∧ i.awake n = true ∧ ∀ m, m < n → (i.enabled m && i.awake m) = false))
  ∧ (∀ (s : State) (h : Fin 2) (x : Fin 256) (n : Nat), 32 ≤ x.val → (s.ic h).pending.contains x.val = true → s.coresHeld h = false →
      (∀ y ∈ (s.ic h).pending, y < 32 ∨ x.val ≤ y) → (s.ic h).order.find? (fun n => (s.ic h).eligible n) = some n →
      exec (.normalInterruptDelivery h x) s = .next ((s.setIc h (fun i => { i with rrNext := Fin.ofNat 8 (n + 1) })).takeSource h n x))
  ∧ (∀ (s : State) (h : Fin 2) (x : Fin 256) (n : Nat), 32 ≤ x.val → (s.ic h).wakes x = true → (s.ic h).pending.contains x.val = true → s.coresHeld h = false →
      (∀ k, k < 8 → (s.ic h).eligible k = false) → (s.ic h).order.find? (fun n => (s.ic h).enabled n) = some n →
      exec (.lanternWake h x) s = .next ((s.setIc h (fun i => { i.wake n with wakeCount := i.wakeCount + 1 })).emit (.wake h n)))
  ∧ (∀ (s : State) (h : Fin 2) (x : Fin 256), x.val < 32 → (s.ic h).wakes x = true → (s.ic h).pending.contains x.val = true → s.coresHeld h = false →
      (s.ic h).enabled (s.ic h).fastCore.val = true → (s.ic h).awake (s.ic h).fastCore.val = false →
      exec (.lanternWake h x) s = .next ((s.setIc h (fun i => { i.wake (s.ic h).fastCore.val with wakeCount := i.wakeCount + 1 })).emit (.wake h (s.ic h).fastCore.val)))
  ∧ (∀ (s : State) (h : Fin 2) (k : Fin 8), (s.ic h).enabled k = true → (s.ic h).awake k = false → s.coresHeld h = false →
      exec (.sleepTimer h k) s = .next ((s.setIc h (fun i => i.wake k)).emit (.wake h k)))
  ∧ (∀ (s : State) (h : Fin 2), s.clusters.contains h.val = true → s.trust.loaded = true → s.coresHeld h = false →
      exec (.heartbeat h) s = .next (s.setWdog h (fun w => { w with lastBeat := s.now, periodMs := s.settings.wdPeriodMs, warned := false })))
  ∧ (∀ (s : State) (h : Fin 2), s.watched h = true → (s.wdog h).warned = false → (s.wdog h).lastBeat + 1000000 * (s.wdog h).periodMs / 2 ≤ s.now →
      exec (.wdogWarn h) s = .next ((s.setWdog h (fun w => { w with warned := true })).raiseIn h 1))
  ∧ (∀ (s u : State) (c : Fin 4) (k : Fin 1024) (a : Adm), s.admission 0x0601 c k = some (u, a) → 20 ≤ field a.b 24 2 → field a.b 24 2 ≤ 1000 →
      exec (.wdogConfig c k) s = .next (a.done { u with settings := { u.settings with wdPeriodMs := field a.b 24 2 } }))
  ∧ (∀ (s t : State) (h : Fin 2) (n : Nat), s.watched h = true → (s.wdog h).lastBeat + 1000000 * (s.wdog h).periodMs ≤ s.now → n = (s.recentResets h).length + 1 →
      s.trust.slotIn .trial = none →
      t = (s.setWdog h (fun w => { w with inReset := true, resets := s.now :: s.recentResets h })).postArgs 0x0601 h 2 h n 0 →
      (n ≠ 3 → exec (.watchdogReset h) s = .next (settle s t))
      ∧ (n = 3 → exec (.watchdogReset h) s = .next (settle s ((t.postArgs 0x0602 h 3 h 3 0).strikeForPitch false))))
  ∧ (∀ (s : State) (h : Fin 2), s.now < (s.wdog h).lastBeat + 1000000 * (s.wdog h).periodMs → exec (.watchdogReset h) s = .next s)
  ∧ (∀ (s : State) (h : Fin 2), s.clusters.contains h.val = true → (s.wdog h).inReset = true →
      exec (.watchdogRestart h false []) s = .next (s.strikeForPitch false)
      ∧ exec (.watchdogRestart h true []) s = .next (settle s ((s.setWdog h (fun w =>
          { w with inReset := false, lastBeat := s.now, periodMs := s.settings.wdPeriodMs, warned := false })).setIc h
            (fun i => { i with coreEn := 0xFF, coreAwake := 0xFF, accepting := 0xFF, handling := [] }))))
  ∧ (∀ (s : State) (east on : Bool), s.twin = true → s.geo.mode = 0 → s.lantern.stage8 = true → s.lantern.halfLost = false → s.lantern.job = none → s.seamSilent = true →
      east = !s.board.railsW.vbaseSb → on = (!east || (s.own.valid && decide (s.own.id = 1))) →
      ∃ t u : State, t = (s.strikeEverything .linkDown 0x1E []).postArgs 0x0306 (ofBool east) 3 (ofBool (!east)) (ofBool on) 0
        ∧ u = { t with
            geo := { t.geo with hasW := !east, hasE := east }
            i3c := if east then {} else t.i3c
            lantern := { t.lantern with halfLost := !on, wasHalfTwin := if on then some (if east then .e else .w) else none } }
        ∧ exec .halfLossDetect s = .next (settle s (if on then u.askReset 1 true none else u)))
  ∧ (∀ s : State, s.seamSilent = false → exec .halfLossDetect s = .next s)

/-- The oldest queued event of a kind and source with no window standing is written with the next EV_SEQ and opens its
window, of a second from EV_TIME; the second to the sixteenth of a window are written, the seventeenth is counted
and kept instead. Lost records are told first. A window whose second is over closes, writing one record for what it
suppressed. EVENT_READ copies records in EV_SEQ order, its result their number. A deferred vector-0 message is sent
10 µs after the previous one. -/
def Obligations.EventRecord : Prop :=
  (∀ (s : State) (ev : Event) (r : List Event), s.lantern.stage ≠ 0 → s.events.lost = 0 → s.events.queue = ev :: r →
      s.events.window ev.kind ev.unit = none →
      ∃ w : RepeatWin, w.kind = ev.kind ∧ w.unit = ev.unit ∧ w.written = 1 ∧ w.suppressed = 0 ∧ w.closes = s.now + 1000000000 - (s.rtNow - ev.time.toNat)
        ∧ exec .eventRecordWrite s = .next (State.writeEvent { s with events := { s.events with
            queue := r, late := s.events.late - 1, windows := s.events.windows ++ [w] } } ev 0 (decide (0 < s.events.late))))
  ∧ (∀ (s : State) (ev : Event) (r : List Event) (w : RepeatWin), s.lantern.stage ≠ 0 → s.events.lost = 0 → s.events.queue = ev :: r →
      s.events.window ev.kind ev.unit = some w → s.now < w.closes → w.written < 16 →
      ∃ t : State, Only [.events] s t ∧ t.events.queue = r ∧ { w with written := w.written + 1 } ∈ t.events.windows ∧ t.events.nextSeq = s.events.nextSeq
        ∧ exec .eventRecordWrite s = .next (t.writeEvent ev 0 (decide (0 < s.events.late))))
  ∧ (∀ (s : State) (ev : Event) (r : List Event) (w : RepeatWin), s.lantern.stage ≠ 0 → s.events.lost = 0 → s.events.queue = ev :: r →
      s.events.window ev.kind ev.unit = some w → s.now < w.closes → 16 ≤ w.written →
      ∃ t : State, exec .eventRecordWrite s = .next t ∧ t.events.main = s.events.main ∧ t.events.prot = s.events.prot ∧ t.events.nextSeq = s.events.nextSeq
        ∧ t.events.queue = r ∧ { w with suppressed := w.suppressed + 1, last := some ev } ∈ t.events.windows ∧ Only [.events] s t)
  ∧ (∀ (s : State) (ev : Event) (n : Nat) (late : Bool), ∃ r : EventRec, r.seq = s.events.nextSeq ∧ r.ev = ev
        ∧ (s.writeEvent ev n late).events = { s.events.place r with nextSeq := (s.events.place r).nextSeq + 1,
                                                                    sincePitch := (s.events.place r).sincePitch ++ [r.seq] })
  ∧ (∀ s : State, s.lantern.stage ≠ 0 → s.events.lost = 0 → s.events.queue = [] → exec .eventRecordWrite s = .next s)
  ∧ (∀ s : State, s.lantern.stage ≠ 0 → 0 < s.events.lost →
      exec .eventRecordWrite s = .next (State.recordEvent { s with events := { s.events with lost := 0 } }
        (s.mkEvent 0x0603 s.lead 2 (.args (BitVec.ofNat 64 s.events.lost) 0 0 0)) false))
  ∧ (∀ (s : State) (kind : BitVec 16) (src : Nat) (w : RepeatWin), s.events.window kind src = some w → s.lantern.stage ≠ 0 →
      (w.closes ≤ s.now → exec (.eventWindowClose kind src) s = .next (s.closeWindow kind src))
      ∧ (s.now < w.closes → exec (.eventWindowClose kind src) s = .next s))
  ∧ (∀ (s : State) (kind : BitVec 16) (src : Nat) (w : RepeatWin) (ev : Event), s.events.window kind src = some w → w.last = some ev →
      s.closeWindow kind src = if 0 < w.suppressed then State.writeEvent { s with events := s.events.dropWindow kind src } ev w.suppressed false
        else { s with events := s.events.dropWindow kind src })
  ∧ (∀ (s u : State) (c : Fin 4) (k : Fin 1024) (a : Adm), s.admission 0x0600 c k = some (u, a) → c.val ≤ 1 → 0 < field a.b 28 4 → field a.b 28 4 ≤ 262144 →
      field a.b 32 8 % 64 = 0 → (u.port c).linkUp = true →
      ∃ l : List EventRec, l = (u.events.from' (field a.b 24 4)).take (field a.b 28 4)
        ∧ exec (.eventRead c k) s = .next (a.done (u.hostWrite c (field a.b 32 8) (l.flatMap EventRec.bytes)) l.length))
  ∧ (∀ (s : State) (p : Fin 2) (t : Nat), (s.port p).v0Last = some t → s.hostRole p = true → (s.port p).v0Deferred = true →
      (t + 10000 ≤ s.now → exec (.lsVector0Deferred p) s = .next ((s.setPort p (fun h => { h with v0Deferred := false, v0Last := some s.now })).msix p 0))
      ∧ (s.now < t + 10000 → exec (.lsVector0Deferred p) s = .next s))

/-- LINK_CONFIG with parameters in range persists them and enables or disables each port at once. LINK_RETRAIN of a port
in the device clears its keys and failed lanes and trains it again. LINK_ROUTE_SET overrides one route.
LINK_ENUMERATE at the fabric root starts a pass, and ends REJECT_STATE elsewhere. LINK_GRANT waits for the next
boundary, and ends DONE_EMPTY for a range of no bytes. LINK_STATUS_READ copies the status. LINK_COPY of no bytes
ends DONE_EMPTY; any other becomes a transfer and is sent from offset 0. A transfer without progress for 10 ms ends
LINK_DOWN. -/
def Obligations.LinkCommands : Prop :=
  (∀ (s u : State) (c : Fin 4) (k : Fin 1024) (a : Adm),
    (s.admission 0x0300 c k = some (u, a) → field a.b 24 4 < 2 ^ 18 → field a.b 30 2 < 4096 ∨ field a.b 30 2 = 0xFFFF → field a.b 32 1 ≤ 1 → field a.b 33 1 ≤ 1 →
      (∀ n, n < 18 → bit (field a.b 24 4) n = true → u.hasSl n = true) →
      exec (.linkConfig c k) s = .next (a.done ((List.range 18).foldl (fun (v : State) n => v.enableSl n (bit (field a.b 24 4) n))
        { u with settings := { u.settings with
          lkPortEn := BitVec.ofNat 18 (field a.b 24 4), lkDomain := BitVec.ofNat 16 (field a.b 28 2), lkPeerNode := BitVec.ofNat 16 (field a.b 30 2)
          lkFabricRoot := decide (field a.b 32 1 = 1), lkAutoJoin := decide (field a.b 33 1 = 1) } })))
    ∧ (s.admission 0x0303 c k = some (u, a) → field a.b 24 1 ≤ 17 → u.hasSl (field a.b 24 1) = true → (u.sl (field a.b 24 1)).state = .keyed →
      (u.sl (field a.b 24 1)).present = true →
      exec (.linkRetrain c k) s = .next (a.done ((u.dropKeys (field a.b 24 1)).setSl (field a.b 24 1) (fun p =>
        { p with failedLanes := 0, step5 := false, kxFailedAt := none, peerPort := 0xFF, peerNode := 0xFFFF, trainStart := u.now, state := .training }))))
    ∧ (s.admission 0x0302 c k = some (u, a) → field a.b 24 2 ≤ 4095 →
      (field a.b 26 1 < 18 ∧ u.hasSl (field a.b 26 1) = true) ∨ field a.b 26 1 = 0x1E ∨ field a.b 26 1 = 0x1F →
      exec (.linkRouteSet c k) s = .next (a.done { u with links := { u.links with overrides := put u.links.overrides (field a.b 24 2) (field a.b 26 1) } }))
    ∧ (s.admission 0x0301 c k = some (u, a) → field a.b 24 1 ≤ 1 →
      (u.settings.lkFabricRoot = true → u.links.job = none → u.links.enumTag = none →
        exec (.linkEnumerate c k) s = .next (u.startPass (decide (field a.b 24 1 = 1)) (some a.tag)))
      ∧ (u.settings.lkFabricRoot = false → exec (.linkEnumerate c k) s = .next (a.finish u { status := .rejectState, detail := 0x1FFFF })))
    ∧ (s.admission 0x0304 c k = some (u, a) → field a.b 24 1 ≤ 15 → field a.b 25 1 ≤ 3 → field a.b 26 2 ≤ 4095 ∨ field a.b 26 2 = 0xFFFF →
      (field a.b 25 1 = 0 → exec (.linkGrant c k) s = .next (a.defer u
        (.grant (field a.b 24 1) 0 (BitVec.ofNat 16 (field a.b 26 2)) (field a.b 32 8) (field a.b 40 8))))
      ∧ (field a.b 25 1 ≠ 0 → field a.b 32 8 % 4096 = 0 → field a.b 40 8 = 0 → exec (.linkGrant c k) s = .next (a.finish u { status := .doneEmpty }))
      ∧ (field a.b 25 1 ≠ 0 → field a.b 32 8 % 4096 = 0 → field a.b 40 8 % 4096 = 0 → 0 < field a.b 40 8 → field a.b 32 8 + field a.b 40 8 ≤ farBase →
        u.reachableRange (field a.b 32 8) (field a.b 40 8) = true → u.rangeInPool (field a.b 32 8) (field a.b 40 8) = false → u.trust.ranges = [] →
        exec (.linkGrant c k) s = .next (a.defer u
          (.grant (field a.b 24 1) (BitVec.ofNat 8 (field a.b 25 1)) (BitVec.ofNat 16 (field a.b 26 2)) (field a.b 32 8) (field a.b 40 8)))))
    ∧ (s.admission 0x0310 c k = some (u, a) → c.val ≤ 1 → field a.b 24 8 % 64 = 0 → 0 < field a.b 32 2 → field a.b 32 2 ≤ 896 → (u.port c).linkUp = true →
      exec (.linkStatusRead c k) s = .next (a.done (u.hostWrite c (field a.b 24 8) (u.linkStatus.take (field a.b 32 2)))))
    ∧ (s.admission 0x0320 c k = some (u, a) → field a.b 24 1 ≤ 1 → field a.b 25 1 ≤ 2 → field a.b 26 2 ≤ 4095 → field a.b 48 8 ≤ 2 ^ 40 →
      u.links.route (field a.b 26 2) ≠ 0x1F → u.reachableRange (field a.b 32 8) (field a.b 48 8) = true →
      (field a.b 48 8 = 0 → exec (.linkCopy c k) s = .next (a.finish u { status := .doneEmpty }))
      ∧ (0 < field a.b 48 8 → u.rangeInPool (field a.b 32 8) (field a.b 48 8) = false → u.trust.ranges = [] →
        ∃ x : Xfer, x.num = u.links.nextXfer ∧ x.tag = a.tag ∧ x.get = decide (field a.b 24 1 = 1) ∧ x.cls = Fin.ofNat 3 (field a.b 25 1)
          ∧ x.node = BitVec.ofNat 12 (field a.b 26 2) ∧ x.local' = field a.b 32 8 ∧ x.remote = field a.b 40 8 ∧ x.len = field a.b 48 8 ∧ x.doneBytes = 0
          ∧ exec (.linkCopy c k) s = .next (State.sendXfer { u with links := { u.links with nextXfer := u.links.nextXfer + 1, xfers := u.links.xfers ++ [x] } }
              x 0 ((field a.b 48 8 + 255) / 256)))))
  ∧ (∀ (s : State) (n : BitVec 16) (x : Xfer), s.xfer n = some x →
      (x.lastProgress + 10000000 ≤ s.now → x.doneBytes < x.len → exec (.linkCopyTimeout n) s
        = .next (s.endXfer x { status := .linkDown, detail := BitVec.ofNat 32 x.port.val, result := x.node.setWidth 64 }))
      ∧ (s.now < x.lastProgress + 10000000 → exec (.linkCopyTimeout n) s = .next s))

/-- A plugged port looks for a partner, one whose plug is lost goes DOWN with its lanes; a partner on two lanes begins
training of a DOWN port; training that completes on two or four lanes takes the port to UP_CLEAR with fresh counters
and begins the key exchange, and to FAILED without them; a step that overruns begins again. A lane that fails on a
keyed port of four leaves the pair without a failed lane, and the port is FAILED where there is none. An accepted
IDLE flit is consumed, an accepted FC flit releases the replay buffer up to FC_NEXT, adds its credits and, as a
REPLAY_REQUEST, resends the rest; the receiver acknowledges what is due; an uncorrectable codeword on an active lane
counts and asks for a replay, and the 17th within 1 ms fails the lane; an accepted flit of a reserved type or kind
is dropped and counted, and a reserved KEY kind abandons the exchange. -/
def Obligations.PortTraining : Prop :=
  (∀ (s : State) (p : Fin 18), exec (.silmanPresenceChange p true) s = .next (s.setSl p (fun x => { x with present := true })))
  ∧ (∀ (s : State) (p : Fin 18), (s.sl p).state = .keyed ∨ (s.sl p).state = .upClear →
      exec (.silmanPresenceChange p false) s = .next ((((s.setSl p (fun x => { x with present := false })).dropKeys p).setSl p (fun x =>
        { x with state := .down, failedLanes := 0xF })).setLanes p 0 2))
  ∧ (∀ (s : State) (p : Fin 18), (s.sl p).state = .training → exec (.silmanPresenceChange p false) s
      = .next ((s.setSl p (fun x => { x with present := false })).setSl p (fun x => { x with state := .down })))
  ∧ (∀ (s : State) (p : Fin 18), (s.sl p).state = .down ∨ (s.sl p).state = .disabled ∨ (s.sl p).state = .failed →
      exec (.silmanPresenceChange p false) s = .next (s.setSl p (fun x => { x with present := false })))
  ∧ (∀ (s : State) (p : Fin 18) (n : Nat), s.hasSl p = true → s.lantern.stage8 = true → (s.sl p).state = .down → (s.sl p).present = true → (s.sl p).failedLanes ≠ 0xF →
      (2 ≤ n → exec (.partnerDetect p n) s = .next (s.setSl p (fun x => { x with state := .training, trainStart := s.now, peerPort := 0xFF, peerNode := 0xFFFF })))
      ∧ (n < 2 → exec (.partnerDetect p n) s = .next s))
  ∧ (∀ (s u v : State) (p : Fin 18) (good : BitVec 4) (q : Option (Fin 18)) (w : Nat), s.hasSl p = true → (s.sl p).state = .training → w = lanesFor good →
      v = (if (s.sl p).lanes ≠ w ∧ s.ready = true then u.setLanes p w 3 else u.setSl p (fun x => { x with lanes := w })) →
      (w ≠ 0 → u = s.setSl p (fun x => { x with
          state := .upClear, failedLanes := ~~~good, txSeq := 0, txUnseq := 0, rxNext := 0, replayBuf := [], waiting := [], owed := [], badWords := []
          credits := [(0, 16), (1, 128), (2, 128), (3, 64)], ackDue := false, keyPhase := false, linkKey := [], oldKey := none
          tagFailTimes := [], kx := none, kxFailedAt := none, step5 := true, delayAt := none
          peerPort := (q.map (fun r => BitVec.ofNat 8 r.val)).getD 0xFF }) → exec (.trainingComplete p good q) s = .next (v.startKx p false))
      ∧ (w = 0 → u = s.setSl p (fun x => { x with state := .failed, failedLanes := ~~~good }) → exec (.trainingComplete p good q) s = .next v))
  ∧ (∀ (s : State) (p : Fin 18), s.hasSl p = true → (s.sl p).state = .training →
      (((s.sl p).trainStart + 150000000 ≤ s.now → exec (.trainingOverrun p) s = .next (s.setSl p (fun x => { x with trainStart := s.now }))))
      ∧ (s.now < (s.sl p).trainStart + 150000000 → exec (.trainingOverrun p) s = .next s))
  ∧ (∀ (s u : State) (p : Fin 18) (l : Fin 4) (w : Nat), s.hasSl p = true → (s.sl p).state = .keyed → (s.sl p).lanes = 4 → (s.sl p).step5 = false →
      w = lanesFor (~~~((s.sl p).failedLanes ||| BitVec.ofNat 4 (1 <<< l.val))) → u = s.setSl p (fun x => { x with failedLanes := (s.sl p).failedLanes ||| BitVec.ofNat 4 (1 <<< l.val), delayAt := none, badWords := [] }) →
      (w ≠ 0 → exec (.laneFailing p l) s = .next ((u.setSl p (fun x => { x with state := .keyed })).setLanes p w 1))
      ∧ (w = 0 → exec (.laneFailing p l) s = .next (((u.dropKeys p).setSl p (fun x => { x with state := .failed })).setLanes p 0 1)))
  ∧ (∀ (s t : State) (p : Fin 18) (h : FlitHdr), s.accepted p h .idle = some t → exec (.flitIdle p h) s = .next t)
  ∧ (∀ (s t : State) (p : Fin 18) (h : FlitHdr) (n : BitVec 32) (cr : Credits), s.accepted p h .fc = some t →
      exec (.fcAcknowledge p h n cr) s = .next ((t.setSl p (fun x => (x.release n.toNat (2 ^ 32)).credit4 cr)).drainTx p)
      ∧ exec (.fcReplayRequest p h n cr) s = .next (((t.setSl p (fun x => (x.release n.toNat (2 ^ 32)).credit4 cr)).replay p).drainTx p))
  ∧ (∀ (s : State) (p : Fin 18), s.kxAble p = true → (s.sl p).ackDue = true ∨ (s.sl p).owed ≠ [] → exec (.fcAckTimer p) s = .next (s.sendAck p))
  ∧ (∀ (s : State) (p : Fin 18), (s.sl p).ackDue = false → (s.sl p).owed = [] → exec (.fcAckTimer p) s = .next s)
  ∧ (∀ (s u : State) (p : Fin 18) (l : Fin 4) (b : List Nat), s.kxAble p = true → (s.sl p).active l = true →
      b = s.now :: (look (s.sl p).badWords l.val []).filter (fun t => decide (s.now < t + 1000000)) →
      u = (s.setSl p (fun x => { x with fecUncorr := satSucc x.fecUncorr, badWords := put x.badWords l.val b })).askReplay p →
      (b.length ≤ 16 → exec (.uncorrectableCodeword p l) s = .next u) ∧ (16 < b.length → exec (.uncorrectableCodeword p l) s = exec (.laneFailing p l) u))
  ∧ (∀ (s : State) (p : Fin 18) (l : Fin 4), (s.sl p).active l = false → exec (.uncorrectableCodeword p l) s = .next s)
  ∧ (∀ (s t : State) (p : Fin 18) (h : FlitHdr) (ty : BitVec 4) (k : BitVec 8), reservedFlit ty.toNat k.toNat = true →
      (ty ≠ 7 → ty ≠ 6 → ty ≠ 4 → s.accepted p h { FlitKind.fc with unheeded := true } = some t →
        exec (.reservedFlitType p h ty k) s = .next (t.setSl p (fun x => { x with drops := satSucc x.drops })))
      ∧ (ty = 6 → s.accepted p h { FlitKind.delay with unheeded := true } = some t →
        exec (.reservedFlitType p h ty k) s = .next (t.setSl p (fun x => { x with drops := satSucc x.drops })))
      ∧ (ty = 4 → s.accepted p h (.enum false) = some t → exec (.reservedFlitType p h ty k) s = .next (t.setSl p (fun x => { x with drops := satSucc x.drops })))
      ∧ (∀ x, ty = 7 → s.kxAble p = true → (s.sl p).kx = some x → exec (.reservedFlitType p h ty k) s = .next (s.kxAgain p x)))
  ∧ (∀ (s : State) (p : Fin 18) (h : FlitHdr), exec (.reservedFlitType p h 3 1) s = .next s)

/-- A HELLO with a chain that does not hold is refused; with one that holds it is kept, and the initiator answers with
KEM_KEY, or refuses without entropy; a second HELLO, or one to a die whose identity does not hold, does nothing.
KEM_KEY whose report is accepted is answered with KEM_CT and FINISH; KEM_CT with FINISH; a FINISH that verifies
settles the exchange; each message that fails its check is refused, and ABORT fails the exchange. A failed exchange
leaves KEYED and is tried again after 10 s; one not complete after 1 s starts again. A settled first exchange makes
the port KEYED; rekeying toggles the phase and keeps the old key until 1 ms after the first flit of the new phase. -/
def Obligations.KeyExchange : Prop :=
  (∀ (s : State) (p : Fin 18) (r ch : List Byte) (x : Kx), s.kxAble p = true → (s.sl p).kx = some x → x.peerHello = none →
      ∃ v : State, v = s.setKx p (fun y => { y with peerHello := some (r, ch) })
        ∧ (Config.chainOk ch = false → exec (.kxHello p r ch) s = .next (v.kxRefuse p .peerAttest))
        ∧ (Config.chainOk ch = true → v.initiates ch = false → exec (.kxHello p r ch) s = .next v)
        ∧ (Config.chainOk ch = true → v.initiates ch = true → v.trust.entropyOk = true →
          exec (.kxHello p r ch) s = .next ((v.drawKey.2.setKx p (fun y =>
            { y with kemKey := some (Config.kemKey v.drawKey.1, v.drawKey.2.report noTdi r) })).sendKey p 2 (Config.kemKey v.drawKey.1 ++ v.drawKey.2.report noTdi r)))
        ∧ (Config.chainOk ch = true → v.initiates ch = true → v.trust.entropyOk = false → exec (.kxHello p r ch) s = .next (v.kxRefuse p .entropy)))
  ∧ (∀ (s : State) (p : Fin 18) (r ch : List Byte), s.kxAble p = true → (s.sl p).kx = none → s.trust.identityOk = false → exec (.kxHello p r ch) s = .next s)
  ∧ (∀ (s : State) (p : Fin 18) (r ch : List Byte) (x : Kx), s.kxAble p = true → (s.sl p).kx = some x → x.peerHello.isSome = true → exec (.kxHello p r ch) s = .next s)
  ∧ (∀ (s : State) (p : Fin 18) (ek rep : List Byte) (x : Kx) (r ch : List Byte), s.kxAble p = true → (s.sl p).kx = some x → x.peerHello = some (r, ch) →
      s.initiates ch = false → x.kemKey = none →
      (s.acceptsReport x rep = false → exec (.kxKemKey p ek rep) s = .next (s.kxRefuse p .peerAttest))
      ∧ (s.acceptsReport x rep = true → s.trust.entropyOk = true → exec (.kxKemKey p ek rep) s
        = .next (((s.drawKey.2.setKx p (fun y => { y with kemKey := some (ek, rep), kemCt := some (Config.kemCt ek s.drawKey.1, s.drawKey.2.report noTdi r) })).sendKey p 3
            (Config.kemCt ek s.drawKey.1 ++ s.drawKey.2.report noTdi r)).sendFinish p))
      ∧ (s.acceptsReport x rep = true → s.trust.entropyOk = false → exec (.kxKemKey p ek rep) s = .next (s.kxRefuse p .entropy)))
  ∧ (∀ (s : State) (p : Fin 18) (ct rep : List Byte) (x : Kx), s.kxAble p = true → (s.sl p).kx = some x → x.kemKey.isSome = true → x.kemCt = none →
      (s.acceptsReport x rep = false → exec (.kxKemCt p ct rep) s = .next (s.kxRefuse p .peerAttest))
      ∧ (s.acceptsReport x rep = true → exec (.kxKemCt p ct rep) s = .next (((s.setKx p (fun y => { y with kemCt := some (ct, rep) })).sendFinish p).kxSettle p)))
  ∧ (∀ (s : State) (p : Fin 18) (sig : List Byte) (x : Kx) (r ch : List Byte), s.kxAble p = true → (s.sl p).kx = some x → x.peerHello = some (r, ch) →
      x.kemCt.isSome = true → x.finGot = false →
      (Config.verify ch (finishDigest (s.transcript x) (!s.initiates ch)) sig = true →
        exec (.kxFinish p sig) s = .next ((s.setKx p (fun y => { y with finGot := true })).kxSettle p))
      ∧ (Config.verify ch (finishDigest (s.transcript x) (!s.initiates ch)) sig = false → exec (.kxFinish p sig) s = .next (s.kxRefuse p .peerAttest)))
  ∧ (∀ (s : State) (p : Fin 18) (r : BitVec 8) (x : Kx), s.kxAble p = true → (s.sl p).kx = some x → exec (.kxAbort p r) s = .next (s.kxFail p))
  ∧ (∀ (s : State) (p : Fin 18), (s.kxFail p).sl p = { s.sl p with
        state := if (s.sl p).state = .keyed then .upClear else (s.sl p).state, linkKey := []
        oldKey := none, tagFailTimes := [], kx := none, kxFailedAt := some s.now, step5 := false })
  ∧ (∀ (s : State) (p : Fin 18) (x : Kx), s.kxAble p = true → (s.sl p).kx = some x →
      (x.started + 1000000000 ≤ s.now → exec (.keyExchangeTimeout p) s = .next (s.kxAgain p x))
      ∧ (s.now < x.started + 1000000000 → exec (.keyExchangeTimeout p) s = .next s))
  ∧ (∀ (s : State) (p : Fin 18) (t : Nat), s.hasSl p = true → (s.sl p).state = .upClear → (s.sl p).kx = none → (s.sl p).kxFailedAt = some t →
      (t + 10000000000 ≤ s.now → exec (.keyExchangeRetry p) s = .next ((s.setSl p (fun x => { x with kxFailedAt := none })).startKx p false))
      ∧ (s.now < t + 10000000000 → exec (.keyExchangeRetry p) s = .next s))
  ∧ (∀ (s : State) (p : Fin 18), s.hasSl p = true → (s.sl p).state = .keyed → (s.sl p).kx = none → exec (.rekey p) s = .next (s.startKx p true))
  ∧ (∀ (s : State) (p : Fin 18) (k : List Byte) (t : Nat), (s.sl p).oldKey = some (k, some t) →
      (t + 1000000 ≤ s.now → exec (.oldKeyExpiry p) s = .next (s.setSl p (fun x => { x with oldKey := none })))
      ∧ (s.now < t + 1000000 → exec (.oldKeyExpiry p) s = .next s))
  ∧ (∀ (s : State) (n : Nat) (x : Kx), x.rekey = true → ((s.kxComplete n x).sl n).keyPhase = !(s.sl n).keyPhase
        ∧ ((s.kxComplete n x).sl n).oldKey = some ((s.sl n).linkKey, none) ∧ ((s.kxComplete n x).sl n).kx = none ∧ ((s.kxComplete n x).sl n).state = (s.sl n).state)
  ∧ (∀ (s : State) (n : Nat) (x : Kx), x.rekey = false → ∃ t : State, (t.sl n).state = .keyed ∧ (t.sl n).kx = none ∧ (t.sl n).oldKey = none ∧ (t.sl n).keyedAt = s.now
      ∧ (t.sl n).step5 = false ∧ (∀ m, m ≠ n → t.sl m = s.sl m) ∧ s.kxComplete n x = (((t.sl n).replayBuf.foldl (fun (u : State) e => u.emitSeq n e) t).drainTx n).sendJoin n)
  ∧ (∀ (s : State) (n : Nat) (x : Kx), (s.sl n).kx = some x →
      s.kxSettle n = if x.finSent = true ∧ x.finGot = true then s.kxComplete n x else s)

/-- An accepted TOKEN of another domain is answered BOUNDARY; one at a node numbered in its epoch on another port than
its upstream is answered CROSS; an unnumbered node takes the next ID and passes the token on. RETURN routes its
subtree and the token goes on, or aborts; CROSS and BOUNDARY mark the port and the token goes on; no answer for 100
ms aborts. COMMIT is forwarded and dates what is pending; that comes into force at the first boundary 1 ms later, is
repeated by the root every 100 ms, ends LINK_ENUMERATE 1 ms after the first flood, and lapses after 1 s without one.
A JOIN notice at node 0, when it is a root with LK_AUTO_JOIN, starts an incremental pass, or, while a pass or its
pending numbers stand, waits until they take effect or lapse; at another node it is dropped, unless it is routed on.
The lower node of a keyed link asks for the path delay every 100 ms, is answered with the two times, and keeps the
delay of the answer to its last request. -/
def Obligations.Enumeration : Prop :=
  (∀ (s t : State) (p : Fin 18) (h : FlitHdr) (m : EnumMsg), s.accepted p h (.enum true) = some t →
      (t.links.elsewhere m.domain = true → exec (.enumToken p h m) s = .next ((t.setSl p (fun x => { x with role := .boundary, peerNode := m.node })).sendEnum p 4 false
        t.links.domain m.epoch m.next.toNat t.links.ownNumber))
      ∧ (∀ id, t.links.elsewhere m.domain = false → t.links.idIn m.epoch = some id → t.links.upIn m.epoch ≠ some p.val →
        exec (.enumToken p h m) s = .next ((t.setSl p (fun x => { x with role := .cross, peerNode := m.node })).sendEnum p 3 false m.domain m.epoch m.next.toNat id.toNat))
      ∧ (∀ u v : State, t.links.elsewhere m.domain = false → t.links.idIn m.epoch = none → u = t.setLinks (fun l => { l with hops := m.hops.toNat + 1 }) →
        m.next.toNat < 4096 → v = (u.takeId (tokenJob p t.now m)).passToken { tokenJob p t.now m with next := m.next.toNat + 1 } → v.links.overflow = false →
        exec (.enumToken p h m) s = .next (v.setSl p (fun x => { x with peerNode := m.node, role := .upstream }))))
  ∧ (∀ (s t : State) (p : Fin 18) (h : FlitHdr) (m : EnumMsg) (j : TokenJob), s.accepted p h (.enum false) = some t → t.awaits p = some j →
      (m.abort = true → exec (.enumReturn p h m) s = .next (t.finishToken { j with fault := some m.node }))
      ∧ (m.abort = false → j.first < m.next.toNat → exec (.enumReturn p h m) s
        = .next (((t.setSl p (fun x => { x with peerNode := m.node, role := .downstream })).setLinks
            (fun l => { l with pendingRoutes := routeIds l.pendingRoutes p j.first (m.next.toNat - j.first) })).passToken { j with next := m.next.toNat, awaiting := none }))
      ∧ exec (.enumCross p h m) s = .next ((t.setSl p (fun x => { x with role := .cross, peerNode := m.node })).passToken { j with awaiting := none })
      ∧ exec (.enumBoundary p h m) s = .next ((t.setSl p (fun x => { x with role := .boundary, peerNode := m.node })).passToken { j with awaiting := none }))
  ∧ (∀ (s : State) (p : Fin 18) (j : TokenJob), s.awaits p = some j →
      (j.sentAt + 100000000 ≤ s.now → exec (.enumTimeout p) s = .next (s.finishToken { j with fault := some (BitVec.ofNat 16 s.links.ownNumber) }))
      ∧ (s.now < j.sentAt + 100000000 → exec (.enumTimeout p) s = .next s))
  ∧ (∀ (s t : State) (p : Fin 18) (h : FlitHdr) (m : EnumMsg) (i : BitVec 12) (n : Nat), s.accepted p h (.enum false) = some t →
      t.links.pendingId = some (i, m.epoch, n) → t.links.commitAt = none → (∀ k, k < 18 → (t.sl k).role ≠ .downstream) →
      exec (.enumCommit p h m) s = .next { t with links := { t.links with commitAt := some (t.now, m.epoch) } })
  ∧ (∀ (s : State) (t n : Nat) (e : BitVec 32) (i : BitVec 12), s.links.commitAt = some (t, e) → s.links.pendingId = some (i, e, n) →
      (s.atBoundary = true → t + 1000000 ≤ s.now → ∃ u : State, u = { s with links := { s.links with
          nodeId := some i, domain := s.links.pendingDomain, epoch := e, pendingId := none, commitAt := none, overrides := []
          routes := put s.links.pendingRoutes i.toNat 0x1E, pendingRoutes := [], defaultRoute := s.links.pendingUp.getD 0x1F
          upstream := s.links.pendingUp.map slPort, pendingUp := none } }
        ∧ exec .commitTakeEffect s = .next (if s.links.nodeId = some i then u else u.dropXfers).joinAgain)
      ∧ (s.now < t + 1000000 → exec .commitTakeEffect s = .next s))
  ∧ (∀ (s : State) (first last : Nat), s.links.flood = some (first, last) → last + 100000000 ≤ s.now →
      (s.now ≤ first + 1000000000 → exec .commitFloodRepeat s = .next (State.floodCommit { s with links := { s.links with flood := some (first, s.now) } }))
      ∧ (first + 1000000000 < s.now → exec .commitFloodRepeat s = .next { s with links := { s.links with flood := none } }))
  ∧ (∀ (s : State) (tag first last : Nat), s.links.enumTag = some tag → s.links.flood = some (first, last) →
      (first + 1000000 ≤ s.now → exec .linkEnumerateComplete s = .next (State.endCmd { s with links := { s.links with enumTag := none } } tag
        { status := .done, result := BitVec.ofNat 64 s.links.nextFree }))
      ∧ (s.now < first + 1000000 → exec .linkEnumerateComplete s = .next s))
  ∧ (∀ (s : State) (i : BitVec 12) (e : BitVec 32) (t : Nat), s.links.pendingId = some (i, e, t) →
      (s.links.commitAt = none → t + 1000000000 ≤ s.now → exec .pendingIdLapse s
        = .next (State.joinAgain { s with links := { s.links with pendingId := none, pendingRoutes := [], pendingUp := none } }))
      ∧ (s.now < t + 1000000000 → exec .pendingIdLapse s = .next s))
  ∧ (∀ (s t : State) (p : Fin 18) (h : FlitHdr), s.accepted p h .routed = some t → t.links.route h.dst.toNat = 0x1E →
      (t.links.nodeId = some 0 → exec (.enumJoin p h) s = .next t.joinNoticed)
      ∧ (t.links.nodeId ≠ some 0 → exec (.enumJoin p h) s = .next (t.slDrop p)))
  ∧ (∀ s : State,
      (s.settings.lkAutoJoin = true → s.links.root = true → s.links.job = none → s.links.pendingId = none → s.joinNoticed = s.startPass false s.links.enumTag)
      ∧ (s.settings.lkAutoJoin = true → s.links.root = true → s.links.job.isSome = true ∨ s.links.pendingId.isSome = true →
        s.joinNoticed = { s with links := { s.links with joinDue := true } })
      ∧ (s.settings.lkAutoJoin = false ∨ s.links.root = false → s.joinNoticed = s)
      ∧ (s.links.joinDue = true → s.joinAgain = State.joinNoticed { s with links := { s.links with joinDue := false } })
      ∧ (s.links.joinDue = false → s.joinAgain = s))
  ∧ (∀ (s t : State) (p : Fin 18) (h : FlitHdr), s.accepted p h .routed = some t → t.links.route h.dst.toNat < 18 → h.hops ≠ 63 →
      exec (.enumJoin p h) s = .next (t.sendSeq (t.links.route h.dst.toNat) h.vc (.forwarded h.vc (h.hops + 1) h.src h.dst 4 none [])))
  ∧ (∀ (s : State) (p : Fin 18) (t1 : BitVec 64), s.hasSl p = true → (s.sl p).state = .keyed → s.asksDelay p = true → (s.sl p).delayAt = none →
      exec (.delayExchangeStart p t1) s = .next ((s.setSl p (fun x => { x with delayId := x.delayId + 1, delayT1 := some t1, delayAt := some s.now })).sendUnseq p
        (.delayReq ((s.sl p).delayId + 1) t1)))
  ∧ (∀ (s : State) (p : Fin 18) (t1 : BitVec 64) (t : Nat), (s.sl p).delayAt = some t → s.now < t + 100000000 → exec (.delayExchangeStart p t1) s = .next s)
  ∧ (∀ (s t : State) (p : Fin 18) (h : FlitHdr) (m : DelayMsg) (t2 t3 t4 : BitVec 64), s.accepted p h .delay = some t →
      exec (.delayReq p h m t2 t3) s = .next (t.sendUnseq p (.delayResp m.id m.t1 t2 t3))
      ∧ (∀ t1, (t.sl p).delayT1 = some t1 → m.id = (t.sl p).delayId →
        exec (.delayResp p h m t4) s = .next (t.setSl p (fun x => { x with delayT1 := none, delay := pathDelay t1 m.t2 m.t3 t4 })))
      ∧ (m.id ≠ (t.sl p).delayId → exec (.delayResp p h m t4) s = .next t))

/-- An accepted request for this node that meets no vault where it must wait is served and answered on VC2, or at once
where this node made it: without a grant, or in the rows of a pool, it is refused with reason 1 and touches nothing;
a granted write outside sealed ranges stores its bytes, a granted read delivers them. One that must wait is kept,
behind those kept already. A reply reaches the transfer it names, and moves nothing when it names none. A frame of
the peer on its path writes its slot; a completion or an ownership notice only arrives; a frame of any other node is
dropped. That a message waits as a core's access does is the model's choice (assumption 24), and so is the refusal
in a pool that a grant covers (assumption 57). -/
def Obligations.RemoteMemory : Prop :=
  (∀ (s t : State) (p : Fin 18) (h : FlitHdr) (m : RemoteMsg), s.accepted p h .routed = some t → t.links.route h.dst.toNat = 0x1E →
      (∀ w : Bool, t.msgWaits (if w then 1 else 2) m = false →
        t.granted h.src.toNat (if w then 1 else 0) m.addr.toNat m.len.toNat = false ∨ t.rangeInPool m.addr.toNat m.len.toNat = true →
        exec (if w then .remoteWrite p h m else .remoteRead p h m) s
          = .next (t.answer h.src.toNat 5 (mkMsg m.cls.toNat m.xfer 1 m.len.toNat m.offset.toNat m.addr.toNat [])))
      ∧ (∀ io : Io, t.msgWaits 1 m = false → t.granted h.src.toNat 1 m.addr.toNat m.len.toNat = true → t.rangeInPool m.addr.toNat m.len.toNat = false →
        t.trust.ranges = [] → t.store { pair := none, cls := m.cls.toNat } m.addr.toNat (padTo m.data m.len.toNat) = io → io.stop = none →
        exec (.remoteWrite p h m) s = .next (io.s.answer h.src.toNat 4 (mkMsg m.cls.toNat m.xfer 0 m.len.toNat m.offset.toNat m.addr.toNat [])))
      ∧ (∀ (bs : List Byte) (io : Io), t.msgWaits 2 m = false → t.granted h.src.toNat 0 m.addr.toNat m.len.toNat = true → t.rangeInPool m.addr.toNat m.len.toNat = false →
        t.trust.ranges = [] → t.load { pair := none, cls := m.cls.toNat } m.addr.toNat m.len.toNat = (bs, io) → io.stop = none →
        exec (.remoteRead p h m) s = .next (io.s.answer h.src.toNat 3 (mkMsg m.cls.toNat m.xfer 0 m.len.toNat m.offset.toNat m.addr.toNat bs)))
      ∧ (∀ w : Bool, t.msgWaits (if w then 1 else 2) m = true → exec (if w then .remoteWrite p h m else .remoteRead p h m) s
          = .next { t with links := { t.links with parked := t.links.parked ++ [(h.src.toNat, if w then 1 else 2, m)] } })
      ∧ (t.msgWaits 3 m = false → exec (.remoteReadData p h m) s = .next (t.takeReply h.src.toNat 3 m))
      ∧ (t.msgWaits 3 m = true → exec (.remoteReadData p h m) s
          = .next { t with links := { t.links with parked := t.links.parked ++ [(h.src.toNat, 3, m)] } })
      ∧ exec (.remoteWriteAck p h m) s = .next (t.takeReply h.src.toNat 4 m)
      ∧ exec (.remoteRefuse p h m) s = .next (t.takeReply h.src.toNat 5 m)
      ∧ (∀ n : Nat, t.xfer m.xfer = none → t.takeReply h.src.toNat n m = t)
      ∧ (∀ x : Xfer, t.xfer m.xfer = some x → x.node.toNat = h.src.toNat → m.offset.toNat + m.len.toNat ≤ x.len → x.get = false →
        t.takeReply h.src.toNat 4 m = t.progress x m.len.toNat false ∧ t.takeReply h.src.toNat 5 m = t.endXfer x (x.refused m)))
  ∧ (∀ (s : State) (n k : Nat) (m : RemoteMsg),
      (s.links.route n ≠ 0x1E → s.answer n k m = s.sendData n 2 k m) ∧ (s.links.route n = 0x1E → s.answer n k m = s.replyArrives n k m))
  ∧ (∀ (s t : State) (p : Fin 18) (h : FlitHdr) (n : BitVec 16) (bs : List Byte), s.accepted p h .routed = some t → t.links.route h.dst.toNat = 0x1E →
      (t.present 3 = true → h.src.toNat = t.settings.lkPeerNode.toNat → t.lanternOn = true → n.toNat < slotCount 3 →
        exec (.mgmtSlot p h n bs) s = .next ((t.slotWrite 3 n.toNat 4 ((padTo bs 256).drop 4)).slotWrite 3 n.toNat 0 ((padTo bs 256).take 4)))
      ∧ (t.present 3 = true → h.src.toNat = t.settings.lkPeerNode.toNat →
        exec (.mgmtCompletion p h bs) s = .next t ∧ exec (.mgmtOwnershipNotice p h bs) s = .next t)
      ∧ (h.src.toNat ≠ t.settings.lkPeerNode.toNat →
        exec (.mgmtSlot p h n bs) s = .next (t.slDrop p) ∧ exec (.mgmtCompletion p h bs) s = .next (t.slDrop p)
          ∧ exec (.mgmtOwnershipNotice p h bs) s = .next (t.slDrop p)))

/-- A frame of another width tag than the agreed one asks for a retrain, any other is heard and taken; a whole frame
with the expected number moves the expected number and releases what it acknowledges, so that the frames that waited
for room go, a broken one is asked for again. A retrain request makes the module retrain and advertise; an
advertisement is kept while it retrains; at the end of the training pattern the lesser width on a half free of
failed lanes is agreed, or the module leaves service. The other side's receive state releases frames and the rest
are sent again, and the frames that waited for room go. A failing lane takes a spare of its direction first; a
failed sideband takes the module out; a logic reset returns it to full width. The discovery record is kept at stage
4, and 50 ms without one there mean no peer. -/
def Obligations.SeamEvents : Prop :=
  (∀ (s : State) (m : Fin 16) (wt : BitVec 2) (par : Bool) (bs : List Byte), (s.seamMod m).state = .inService →
      (wt ≠ (s.seamMod m).tag → exec (.seamFrame m wt par bs) s = .next (s.heard.askRetrain m))
      ∧ (wt = (s.seamMod m).tag → exec (.seamFrame m wt par bs) s = .next (settle s (s.heard.takeFrame m par bs))))
  ∧ (∀ (s : State) (m : Fin 16) (wt : BitVec 2) (par : Bool) (bs : List Byte), (s.seamMod m).state ≠ .inService → exec (.seamFrame m wt par bs) s = .next s)
  ∧ (∀ (s : State) (m : Nat) (bs : List Byte), bs.length = 232 → crc32c (bs.take 0xE0) = field bs 0xE0 4 → BitVec.ofNat 16 (field bs 0xE4 2) = (s.seamMod m).rxNext → field bs 0 1 % 4 ≠ 0 →
      s.takeFrame m true bs = ((s.setSeamMod m (fun y => y.acked (BitVec.ofNat 16 (field bs 0xE6 2)))).drainSeam m).setSeamMod m (fun y => { y with rxNext := y.rxNext + 1 }))
  ∧ (∀ (s : State) (m : Nat) (par : Bool) (bs : List Byte), par = false ∨ crc32c (bs.take 0xE0) ≠ field bs 0xE0 4 → s.takeFrame m par bs = s.askFrames m)
  ∧ (∀ (s : State) (m : Fin 16), (s.seamMod m).state = .inService → exec (.seamRetrainRequest m) s = .next ((s.heard.seamRetrain m true).sendAdvert m))
  ∧ (∀ (s : State) (m : Fin 16) (w : Nat) (f : BitVec 64), (s.seamMod m).state = .retraining →
      exec (.seamWidthAdvert m w f) s = .next (s.heard.setSeamMod m (fun x => { x with peerAdvert := some (w, f) })))
  ∧ (∀ (s t : State) (m : Fin 16) (n : BitVec 16), t = s.heard.setSeamMod m (fun x => x.acked n) →
      ((t.seamMod m).replayBuf = [] → exec (.seamReceiveState m n) s = .next (t.drainSeam m))
      ∧ ((t.seamMod m).replayBuf ≠ [] → (t.seamMod m).state ≠ .out → exec (.seamReceiveState m n) s
        = .next (((t.seamMod m).replayBuf.foldl (fun (u : State) e => u.emit (.seamFrame m e.2)) (t.setSeamMod m (fun x => { x with replays := satSucc x.replays }))).drainSeam m))
      ∧ ((t.seamMod m).replayBuf ≠ [] → (t.seamMod m).state = .out → exec (.seamReceiveState m n) s = .next (t.moveFrames m)))
  ∧ (∀ (s : State) (m : Fin 16) (found : BitVec 64) (w : Nat) (f : BitVec 64), (s.seamMod m).state = .retraining → (s.seamMod m).peerAdvert = some (w, f) →
      (∀ (n : Nat) (h : SeamHalf), agreedWidth (s.seamMod m).advert w ((s.seamMod m).failed ||| f ||| found) = some (n, h) →
        exec (.seamRetrainComplete m found) s = .next (settle s ((s.setSeamMod m (fun y => { y with failed := y.failed ||| found })).agree m n h found)))
      ∧ (agreedWidth (s.seamMod m).advert w ((s.seamMod m).failed ||| f ||| found) = none →
        exec (.seamRetrainComplete m found) s = .next (settle s (s.seamOut m))))
  ∧ (∀ (mine theirs : Nat) (failed : BitVec 64), (∀ n h, agreedWidth mine theirs failed = some (n, h) → n ≤ 64
        ∧ (h = .full ↔ n = 64) ∧ (h = .low → failed.toNat % 2 ^ 32 = 0) ∧ (h = .high → failed.toNat / 2 ^ 32 = 0) ∧ (h = .full → failed = 0 ∧ 64 ≤ mine ∧ 64 ≤ theirs)))
  ∧ (∀ (s : State) (m : Fin 16) (l : Fin 64) (d : Bool), (s.seamMod m).state ≠ .out → (s.seamMod m).usesLane l = true →
      exec (.seamLaneFail m l d) s = .next (settle s (s.laneFails m l d)))
  ∧ (∀ (s : State) (m l : Nat), 0 < (s.seamMod m).sparesWE →
      s.laneFails m l false = (((s.appendOverlay 8 0xFF 0xFF m (l + 128 * (4 - (s.seamMod m).sparesWE))).setSeamMod m (fun y => { y with sparesWE := y.sparesWE - 1 })).seamRetrain
        m false).sendAdvert m)
  ∧ (∀ (s : State) (m : Fin 16), (s.seamMod m).state ≠ .out →
      exec (.seamSidebandFail m) s = .next (settle s ((s.setSeamMod m (fun x => { x with sideband := false })).seamOut m))
      ∧ exec (.seamLogicReset m) s = .next (s.setSeamMod m (fun x => { x with advert := 64, failed := 0, peerAdvert := none, logicReset := true })))
  ∧ (∀ (s : State) (r : Discovery), s.lantern.stage = 4 →
      exec (.seamDiscoveryRecord r) s = .next { s with seam := { s.seam with peer := some r, lastHeard := s.now } })
  ∧ (∀ (s : State) (r : Discovery), s.lantern.stage ≠ 4 → exec (.seamDiscoveryRecord r) s = .next s ∧ exec .seamNoPeer s = .next s)
  ∧ (∀ s : State, s.lantern.stage = 4 → s.seam.peer = none →
      (s.seam.searchFrom + 50000000 ≤ s.now → exec .seamNoPeer s = .next { s with seam := { s.seam with noPeer := true } })
      ∧ (s.now < s.seam.searchFrom + 50000000 → exec .seamNoPeer s = .next s))

/-- Version, capabilities and algorithms are negotiated in that order; a later request before them is unexpected.
Digests, the certificate chain, the challenge and the measurements then read what they name, the signed ones under
the module's identity. KEY_EXCHANGE with a key that passes the input checks makes a session, which FINISH
establishes by its HMAC or ends. An established session's key update, heartbeat, end and vendor-defined requests
act; a session with no message for 60 s ends. The codes of the messages and the steps of negotiation are the model's
choice (assumption 36). -/
def Obligations.SpdmMailbox : Prop :=
  (∀ (s : State) (p : Fin 2), s.doe p = true →
      exec (.spdmGetVersion p) s = .next ((s.setPort p (fun h => { h with spdmStep := 1 })).emit (.spdm p 0x04 (leBytes 2 0x1300)))
      ∧ ((s.port p).spdmStep = 1 ∨ (s.port p).spdmStep = 2 →
        exec (.spdmGetCapabilities p) s = .next ((s.setPort p (fun h => { h with spdmStep := 2 })).emit (.spdm p 0x61 (leBytes 4 0x62D6))))
      ∧ (2 ≤ (s.port p).spdmStep →
        exec (.spdmNegotiateAlgorithms p true) s = .next ((s.setPort p (fun h => { h with spdmStep := 3 })).emit (.spdm p 0x63 (leBytes 1 1)))
        ∧ exec (.spdmNegotiateAlgorithms p false) s = .next (s.emit (.spdm p 0x7F (leBytes 1 1))))
      ∧ ((s.port p).spdmStep ≠ 3 → exec (.spdmGetDigests p) s = .next (s.emit (.spdm p 0x7F (leBytes 1 4)))))
  ∧ (∀ (s : State) (p : Fin 2), s.doe p = true → (s.port p).spdmStep = 3 →
      exec (.spdmGetDigests p) s = .next (s.emit (.spdm p 0x01 (leBytes 1 1 ++ Config.shake256 s.chain 32)))
      ∧ (∀ off len, off ≤ s.chain.length → exec (.spdmGetCertificate p 0 off len) s = .next (s.emit (.spdm p 0x02 ((s.chain.drop off).take len))))
      ∧ (∀ (nonce body : List Byte), nonce.length = 32 → s.trust.identityOk = true → body = Config.shake256 s.chain 32 ++ Config.entropy s.trust.drawn 32 →
        exec (.spdmChallenge p nonce) s = .next (State.emit { s with trust := { s.trust with drawn := s.trust.drawn + 1 } }
          (.spdm p 0x03 (body ++ Config.sign s.lead (nonce ++ body)))))
      ∧ (∀ (k : BitVec 8) (nonce : List Byte), 1 ≤ k.toNat → k.toNat ≤ 9 →
        exec (.spdmGetMeasurements p k nonce) s = .next (s.emit (.spdm p 0x60 (((s.reportBody (s.port p).tdi.code nonce).drop (0x020 + 32 * k.toNat)).take 32))))
      ∧ (∀ nonce, s.trust.identityOk = true → exec (.spdmGetMeasurements p 0xF0 nonce) s = .next (s.emit (.spdm p 0x60 (s.report (s.port p).tdi.code nonce))))
      ∧ (∀ nonce, s.trust.identityOk = false → exec (.spdmGetMeasurements p 0xF0 nonce) s
        = .next (s.emit (.spdm p 0x7F (leBytes 1 5 ++ leBytes 4 (0x05000000 + Reason.identity.code)))))
      ∧ (∀ (ek ct sig : List Byte) (id : Nat), s.trust.identityOk = true → s.trust.entropyOk = true → (s.port p).sessions.length < 4 → kemInputOk ek = true →
        ct = Config.kemCt ek s.trust.drawn → sig = Config.sign s.lead (ek ++ ct) → id = lowestFree ((s.port p).sessions.map (·.id)) 0 4 →
        exec (.spdmKeyExchange p ek) s = .next (((s.setTrust (fun t => { t with drawn := t.drawn + 1 })).setPort p (fun h => { h with sessions := h.sessions ++
          [{ id := id, established := false, lastMsg := s.now, secret := Config.kemSecret ct, transcript := ek ++ ct ++ sig, updates := 0 }] })).emit
            (.spdm p 0x64 (leBytes 2 id ++ ct ++ sig))))
      ∧ (∀ (ek : List Byte), s.trust.identityOk = true → s.trust.entropyOk = true → (s.port p).sessions.length < 4 → kemInputOk ek = false →
        exec (.spdmKeyExchange p ek) s = .next (s.emit (.spdm p 0x7F (leBytes 1 1))))
      ∧ (∀ (n : Nat) (x : Session), (s.port p).session n = some x → x.established = false →
        exec (.spdmFinish p n (Config.hmac x.secret x.transcript)) s = .next ((s.setPort p (fun h => h.setSession n
          (fun y => { y with established := true, lastMsg := s.now }))).emit (.spdm p 0x65 []))
        ∧ (∀ m, m ≠ Config.hmac x.secret x.transcript → exec (.spdmFinish p n m) s = .next ((s.setPort p (fun h => h.endSession n)).emit (.spdm p 0x7F (leBytes 1 6))))))
  ∧ (∀ (s t : State) (p : Fin 2) (n : Nat) (x : Session), s.doe p = true → (s.port p).spdmStep = 3 → (s.port p).session n = some x → x.established = true →
      t = s.setPort p (fun h => h.setSession n (fun y => { y with lastMsg := s.now })) →
      exec (.spdmKeyUpdate p n) s = .next ((t.setPort p (fun h => h.setSession n (fun y =>
        { y with updates := y.updates + 1, secret := Config.hmac x.secret (leBytes 4 (x.updates + 1)) }))).emit (.spdm p 0x69 []))
      ∧ exec (.spdmHeartbeat p n) s = .next (t.emit (.spdm p 0x68 []))
      ∧ exec (.spdmEndSession p n) s = .next ((t.setPort p (fun h => h.endSession n)).emit (.spdm p 0x6C []))
      ∧ (∀ st key, exec (.spdmVendorDefined p (some n) (.ideKeySet st key)) s
        = .next ((t.setPort p (fun h => { h with ideKeys := put h.ideKeys st key })).emit (.spdm p 0x7E (leBytes 1 3))))
      ∧ (∀ st : Fin 5, (t.port p).tdi = .configUnlocked → st ≠ 0 → has (t.port p).ideKeys st = true → exec (.spdmVendorDefined p (some n) (.tdispLock st)) s
        = .next (((t.setTrust (fun y => { y with drawn := y.drawn + 1 })).setPort p (fun h => { h with tdi := .configLocked, tdiStream := some st })).emit
            (.spdm p 0x7E (leBytes 1 3 ++ Config.entropy s.trust.drawn 32))))
      ∧ ((t.port p).tdi = .configLocked → exec (.spdmVendorDefined p (some n) .tdispStart) s
        = .next (((t.setPort p (fun h => { h with tdi := .run })).flushHeld p).emit (.spdm p 0x7E (leBytes 1 6))))
      ∧ ((t.port p).tdi ≠ .run → exec (.spdmVendorDefined p (some n) .tdispStop) s
        = .next (((t.setPort p (fun h => { h with tdi := .configUnlocked, tdiStream := none })).flushHeld p).emit (.spdm p 0x7E (leBytes 1 7)))))
  ∧ (∀ (s : State) (p : Fin 2) (r : VendorReq), s.doe p = true → (s.port p).spdmStep = 3 →
      exec (.spdmVendorDefined p none r) s = .next (s.emit (.spdm p 0x7F (leBytes 1 11))))
  ∧ (∀ (s : State) (p : Fin 2) (n : Nat) (x : Session), (s.port p).session n = some x →
      (x.lastMsg + 60000000000 ≤ s.now → exec (.spdmSessionTimeout p n) s = .next (s.setPort p (fun h => h.endSession n)))
      ∧ (s.now < x.lastMsg + 60000000000 → exec (.spdmSessionTimeout p n) s = .next s))

/-- A link trains from stage 2 on, and PERST# is released with it. A port reset returns the port's own state to reset,
keeps its sealed slots, sends a locked or running TDI to ERROR and, unless it is function-level, takes the link
down. A TDI error ends a locked or running TDI in ERROR and discards its held writes. BAR2 reads deliver the bytes
of device memory, or a poisoned completion when they are uncorrectable, BAR2 writes of the owner store them; where a
line must wait at its vault, every line is offered to its vault's queue and answered as it is served; either aborts
while the TDI does not let it through or the module is not in READY, and a non-owner's write is denied. Far-tier
reads and writes act on its bytes; a finished initialisation marks its block written; a link loss drops PERST_N,
cuts initialisations short and is recorded, and a retrain brings the link back. -/
def Obligations.HostPorts : Prop :=
  (∀ (s : State) (p : Fin 2), s.hostRole p = true → s.lantern.stage.toNat ≥ 2 → (s.port p).linkUp = false → (s.railsOf p).serHot = false →
      exec (.hostLinkTrain p) s = .next (s.setPort p (fun h => { h with linkUp := true, perst := false })))
  ∧ (∀ (s u : State) (p : Fin 2) (k : PortResetKind), s.hostRole p = true → exec (.hostPortReset p k) s = .next u →
      (u.port p).linkUp = (decide (k = .functionLevel) && (s.port p).linkUp) ∧ (u.port p).spdmStep = 0 ∧ (u.port p).sessions = [] ∧ (u.port p).ideKeys = []
      ∧ (u.port p).msixTable = [] ∧ (u.port p).msixOpen = [] ∧ (u.port p).shadow = [] ∧ (u.port p).committed = [] ∧ (u.port p).rtLatch = none ∧ (u.port p).held = []
      ∧ ((u.port p).tdi = .error ∨ (u.port p).tdi = .configUnlocked) ∧ ((s.port p).tdiHeld = true → (u.port p).tdi = .error)
      ∧ (k = .perst → (u.port p).perst = true))
  ∧ (∀ (s : State) (p : Fin 2) (k : PortResetKind), s.hostRole p = true → ∃ u, exec (.hostPortReset p k) s = .next u)
  ∧ (∀ (s : State) (p : Fin 2), s.hostRole p = true → (s.port p).tdi = .configLocked ∨ (s.port p).tdi = .run →
      exec (.tdiError p) s = .next (s.tdiFails p) ∧ ((s.tdiFails p).port p).tdi = .error ∧ ((s.tdiFails p).port p).held = []
      ∧ ∀ r ∈ (s.tdiFails p).warden.records, r.ctrl.val ≠ p.val)
  ∧ (∀ (s : State) (p : Fin 2), (s.port p).tdi = .configUnlocked ∨ (s.port p).tdi = .error → exec (.tdiError p) s = .next s)
  ∧ (∀ (s : State) (p : Fin 2) (off n : Nat) (tb : Bool) (bs : List Byte) (io : Io), s.bar2Here p off n = true → s.bar2Aborts p off n tb = false →
      s.someWaits (s.vaultAccesses 1 off n false [] (some p)) = false → s.readDev {} off n (n / 128 + 2) = (bs, io) →
      (io.stop = none → exec (.bar2Read p off n tb) s = .next (io.s.emit (.bar2Data p bs)))
      ∧ (∀ e, io.stop = some e → e.status = .memoryUncorrectable → exec (.bar2Read p off n tb) s = .next (io.s.emit (.bar2Poisoned p))))
  ∧ (∀ (s : State) (p : Fin 2) (off n : Nat) (tb : Bool) (l : List (Nat × Held)), s.bar2Here p off n = true → s.bar2Aborts p off n tb = false →
      l = s.vaultAccesses 1 off n false [] (some p) → s.someWaits l = true → exec (.bar2Read p off n tb) s = .next (l.foldl (fun (t : State) x => t.access x.1 x.2) s))
  ∧ (∀ (s : State) (p : Fin 2) (off n : Nat) (tb : Bool), s.bar2Here p off n = true → s.lantern.stage ≠ 0xF ∨ (s.port p).tdi = .configLocked ∨ (s.port p).tdi = .error
        ∨ ((s.port p).tdi = .run ∧ tb = false) →
      exec (.bar2Read p off n tb) s = .next (s.emit (.completerAbort p)) ∧ ∀ d, d.length = n → exec (.bar2Write p off d tb) s = .next (s.emit (.completerAbort p)))
  ∧ (∀ (s : State) (p : Fin 2) (off : Nat) (d : List Byte) (tb : Bool) (io : Io), s.bar2Here p off d.length = true → s.owns p = true → s.bar2Aborts p off d.length tb = false →
      s.someWaits (s.vaultAccesses 1 off d.length true d (some p)) = false →
      s.writeDev {} off d (d.length / 128 + 2) = io → io.stop = none → exec (.bar2Write p off d tb) s = .next io.s)
  ∧ (∀ (s : State) (p : Fin 2) (off : Nat) (d : List Byte) (tb : Bool) (l : List (Nat × Held)), s.bar2Here p off d.length = true → s.owns p = true →
      s.bar2Aborts p off d.length tb = false → l = s.vaultAccesses 1 off d.length true d (some p) → s.someWaits l = true →
      exec (.bar2Write p off d tb) s = .next (l.foldl (fun (t : State) x => t.access x.1 x.2) s))
  ∧ (∀ (s : State) (p : Fin 2) (off : Nat) (d : List Byte) (tb : Bool), s.bar2Here p off d.length = true →
      (s.port p).tdi = .configUnlocked ∨ ((s.port p).tdi = .run ∧ tb = true) → s.lantern.stage = 0xF → s.owns p = false →
      exec (.bar2Write p off d tb) s = .next (s.deny p))
  ∧ (∀ (s : State) (off n : Nat) (bs : List Byte) (io : Io), 0 < n → off + n ≤ s.geo.farTierMib * 2 ^ 20 → s.farRead off n = (bs, io) →
      (io.stop = none → exec (.farTierRead off n) s = .next (io.s.emit (.farTierData bs)))
      ∧ (∀ e, io.stop = some e → exec (.farTierRead off n) s = .next (io.s.emit (.accessEnds e.status (farBase + off)))))
  ∧ (∀ (s : State) (off : Nat) (d : List Byte) (io : Io), 0 < d.length → off + d.length ≤ s.geo.farTierMib * 2 ^ 20 → s.farWrite off d (4096, 0) (d.length / 256 + 2) = io →
      (io.stop = none → exec (.farTierWrite off d) s = .next io.s)
      ∧ (∀ e, io.stop = some e → exec (.farTierWrite off d) s = .next (io.s.emit (.accessEnds e.status (farBase + off)))))
  ∧ (∀ (s : State) (b : Nat) (t : Nat × Nat), s.far.linkUp = true → (b, t) ∈ s.far.initialising →
      exec (.farTierInitComplete b) s = .next (State.settleXfers { s with far := { s.far with
        initialising := s.far.initialising.filter (fun e => e.1 ≠ b), written := insertNat s.far.written b } }))
  ∧ (∀ s : State, s.far.linkUp = true → ∃ u, exec .farTierLinkLoss s = .next u ∧ u.far.linkUp = false ∧ u.far.perstLow = true ∧ u.far.initialising = []
      ∧ u.far.written = s.far.written)
  ∧ (∀ s : State, s.geo.heFarTier = true → 0 < s.geo.farTierMib → s.far.linkUp = false → s.thermal.dropped = false →
      exec .farTierRetrain s = .next { s with far := { s.far with linkUp := true, perstLow := false } })

/-- VIN is kept with the time since which it has stood good: at or above 42 V, at or below 58 V after an overvoltage,
with MATE_SNS low (that the 100 ms count only while MATE_SNS is low is the model's choice, assumption 8); 100 ms of
it close the switch and begin a cold pitch. MATE_SNS going high, and more than 60 V, open the switch. A power-fail
keeps only VAON and VFLASH, and 2 ms later no rail. The retained SRAM loses its records when retention ends without
power. A rail fault drops one half's rails, and what a rail fault of the other half does to a Split module is the
loss of its Seam. -/
def Obligations.Electrical : Prop :=
  (∀ (s t : State) (v : Nat), t = { s with board := { s.board with vin := v, vinSince :=
        if 42000 ≤ v ∧ (s.board.overvolted = false ∨ v ≤ 58000) ∧ s.board.mateHigh = false then some (s.board.vinSince.getD s.now) else none } } →
      (s.board.inputOn = true ∨ (∀ w, t.board.vinSince = some w → s.now < w + 100000000) → exec (.vinApply v) s = .next t)
      ∧ (∀ w, s.board.inputOn = false → t.board.vinSince = some w → w + 100000000 ≤ s.now → ∃ u, exec (.vinApply v) s = .next u ∧ u.board.inputOn = true
          ∧ u.board.overvolted = false ∧ u.lantern.stage = 1 ∧ u.lantern.kind = 0 ∧ u.board.vin = v))
  ∧ (∀ (s : State) (h : Bool), ∃ u, exec (.mateSnsChange h) s = .next u ∧ u.board.mateHigh = h ∧ u.board.inputOn = (s.board.inputOn && !h) ∧ u.board.vin = s.board.vin
      ∧ (h = true → u.board.vinSince = none) ∧ Only [.board] s u)
  ∧ (∀ (s : State) (v : Nat), (60000 < v → exec (.overvoltage v) s
        = .next { s with board := { s.board with vin := v, inputOn := false, overvolted := true, vinSince := none } })
      ∧ (v ≤ 60000 → exec (.overvoltage v) s = .next s))
  ∧ (∀ s : State, (s.board.railsW.vaon = true ∨ s.board.railsE.vaon = true) → s.board.failedAt = none → ∃ u, exec .powerFail s = .next u ∧ u.board.inputOn = false
      ∧ u.board.failedAt = some s.now ∧ (s.geo.hasW = true → u.board.railsW = ({ vaon := s.board.railsW.vaon, vflash := s.board.railsW.vflash } : Rails))
      ∧ (s.geo.hasE = true → u.board.railsE = ({ vaon := s.board.railsE.vaon, vflash := s.board.railsE.vflash } : Rails)) ∧ u.fuses = s.fuses ∧ u.settings = s.settings ∧ u.warden.tags = []
      ∧ u.mem.vaults = [] ∧ u.events.late = u.events.queue.length)
  ∧ (∀ (s : State) (t : Nat), s.board.failedAt = some t →
      (t + 2000000 ≤ s.now → exec .retentionHandoff s = .next { s with board := { s.board with railsW := {}, railsE := {}, failedAt := none } })
      ∧ (s.now < t + 2000000 → exec .retentionHandoff s = .next s) ∧ exec .powerFail s = .next s)
  ∧ (∀ s : State, (s.powered = false → exec .retentionExpiry s = .next { s with
        board := { s.board with retained := false }, events := { s.events with queue := [], lost := 0, late := 0 } })
      ∧ (s.powered = true → exec .retentionExpiry s = .next s))
  ∧ (∀ (s : State) (h : Fin 2), s.geo.hasW = true → s.geo.hasE = true → (s.railsOf h).vbaseSb = true → ∃ u, exec (.railFault h) s = .next u
      ∧ u.railsOf h = ({ vaon := (s.railsOf h).vaon, vflash := (s.railsOf h).vflash } : Rails) ∧ (∀ m, m < 16 → (u.seamMod m).state = .out ∧ (u.seamMod m).sideband = false)
      ∧ u.lantern = s.lantern ∧ u.mem = s.mem)
  ∧ (∀ (s : State) (h : Fin 2), s.geo.hasW = true → s.geo.hasE = true → (s.railsOf h).vbaseSb = false → exec (.railFault h) s = .next s)
  ∧ (∀ (s : State) (h : Fin 2), s.geo.mode = 1 → s.geo.hasW = true → s.geo.hasE = false → h = 1 → ∃ u, exec (.railFault h) s = .next u ∧ u.lantern.seamLost = true
      ∧ ∀ m, m < 16 → (u.seamMod m).state = .out)
  ∧ (∀ (s : State) (h : Fin 2), s.geo.hasW = true → s.geo.hasE = false → h = 0 → s.board.railsW.vbaseSb = true → ∃ u, exec (.railFault h) s = .next u
      ∧ u.thermal.dropped = true ∧ u.board.railsW = ({ vaon := s.board.railsW.vaon, vflash := s.board.railsW.vflash } : Rails))

/-- At an active target that holds an address: a slot write of fitting length and form writes the slot, any private
write that does not fit or is unknown is discarded and counted; a space read is selected and read on, a nonce
prepares a report. The common command codes read the identity, characteristics and limits, set the address and the
limits within the module's, and enable or disable interrupts. An active target without an address takes the one it
is assigned, and asks for one every 100 ms. The interrupt due first is sent, and again 1 ms after a NACK; a reminder
is due every 10 ms while records wait. Byte orders of the command codes are MIPI I3C's (assumption 39). -/
def Obligations.I3cTarget : Prop :=
  (∀ s : State, s.i3cHere = true →
      (∀ (k : BitVec 8) (o : BitVec 16) (d : List Byte), k.toNat < 32 → o.toNat % 4 = 0 → d.length % 4 = 0 → 4 ≤ d.length → o.toNat + d.length ≤ 256 → 4 + d.length ≤ s.i3c.mwl.toNat →
        exec (.i3cSlotWrite k o d) s = .next (s.slotWrite 2 k.toNat o.toNat d))
      ∧ (∀ (k : BitVec 8) (o : BitVec 16) (d : List Byte), 32 ≤ k.toNat ∨ o.toNat % 4 ≠ 0 ∨ d.length % 4 ≠ 0 ∨ d.length < 4 ∨ 256 < o.toNat + d.length ∨ s.i3c.mwl.toNat < 4 + d.length →
        exec (.i3cSlotWrite k o d) s = exec .i3cWriteDiscard s)
      ∧ exec .i3cWriteDiscard s = .next (s.setIntake 2 (fun i => { i with lockedWrites := satSucc i.lockedWrites }))
      ∧ (∀ (sp : BitVec 8) (o : BitVec 64), 10 ≤ s.i3c.mwl.toNat → exec (.i3cSpaceRead sp o) s = .next { s with i3c := { s.i3c with sel := .space sp.toNat o.toNat } })
      ∧ (∀ nonce : List Byte, nonce.length = 32 → 33 ≤ s.i3c.mwl.toNat → s.trust.identityOk = true →
        exec (.i3cAttestNonce nonce) s = .next (State.ibi { s with i3c := { s.i3c with report := s.report noTdi nonce } } 0x02))
      ∧ (∀ (len sp o : Nat) (bs : List Byte), s.i3c.sel = .space sp o → bs = s.spaceBytes sp o (min len s.i3c.mrl.toNat) →
        exec (.i3cPrivateRead len) s = .next (State.emit { s with i3c := { s.i3c with sel := .space sp (o + bs.length) } } (.i3cData bs)))
      ∧ (∀ len, s.i3c.sel = .none → exec (.i3cPrivateRead len) s = .next (s.emit (.i3cData [])))
      ∧ exec .i3cRstdaa s = .next { s with i3c := { s.i3c with address := none, ibiDue := [], ibiRetryAt := none } }
      ∧ (∀ a, exec (.i3cSetnewda a) s = .next { s with i3c := { s.i3c with address := some a } })
      ∧ exec .i3cGetpid s = .next (s.emit (.i3cData (leBytes 6 (0x02E5 * 2 ^ 33 + 0xC900 * 2 ^ 16 + s.lead * 2 ^ 12
          + (if s.lead = 0 then s.fuses.serialW else s.fuses.serialE).toNat % 2 ^ 12)).reverse))
      ∧ exec .i3cGetbcr s = .next (s.emit (.i3cData [0x0E])) ∧ exec .i3cGetdcr s = .next (s.emit (.i3cData [0x00]))
      ∧ exec .i3cGetstatus s = .next (s.emit (.i3cData [0, (s.i3c.ibiDue.head?).getD 0]))
      ∧ exec (.i3cEnec true) s = .next { s with i3c := { s.i3c with ibiEn := true } } ∧ exec (.i3cEnec false) s = .next s
      ∧ exec (.i3cDisec true) s = .next { s with i3c := { s.i3c with ibiEn := false, ibiDue := [], ibiRetryAt := none } } ∧ exec (.i3cDisec false) s = .next s
      ∧ exec .i3cGetmwl s = .next (s.emit (.i3cData (leBytes 2 s.i3c.mwl.toNat).reverse))
      ∧ (∀ n : BitVec 16, exec (.i3cSetmwl n) s = .next { s with i3c := { s.i3c with mwl := BitVec.ofNat 16 (min n.toNat 288) } })
      ∧ exec .i3cGetmrl s = .next (s.emit (.i3cData ((leBytes 2 s.i3c.mrl.toNat).reverse ++ [1])))
      ∧ (∀ n : BitVec 16, exec (.i3cSetmrl n) s = .next { s with i3c := { s.i3c with mrl := BitVec.ofNat 16 (min n.toNat 256) } })
      ∧ (∀ (b : BitVec 8) (r : List (BitVec 8)), s.i3c.ibiEn = true → s.i3c.ibiDue = b :: r →
        (s.i3c.ibiRetryAt = none → exec (.ibiSend true) s = .next (State.emit { s with i3c := { s.i3c with ibiDue := r, ibiRetryAt := none } } (.ibi b))
          ∧ exec (.ibiSend false) s = .next (State.emit { s with i3c := { s.i3c with ibiRetryAt := some (s.now + 1000000) } } (.ibi b)))
        ∧ (∀ t, s.i3c.ibiRetryAt = some t → t ≤ s.now →
          exec (.ibiRetry true) s = .next (State.emit { s with i3c := { s.i3c with ibiDue := r, ibiRetryAt := none } } (.ibi b)))
        ∧ (∀ t, s.i3c.ibiRetryAt = some t → s.now < t → exec (.ibiRetry true) s = .next s ∧ exec (.ibiSend true) s = .next s))
      ∧ (s.i3c.ibiEn = false → exec (.ibiSend true) s = .next s ∧ exec (.ibiRetry true) s = .next s))
  ∧ (∀ (s : State) (a : BitVec 7), s.i3cActive = true → s.i3c.address = none →
      (∃ pid, exec .i3cGetpid { s with i3c := { s.i3c with address := some a } } = .next (State.emit { s with i3c := { s.i3c with address := some a } } (.i3cData pid))
        ∧ exec (.i3cEntdaa a) s = .next (State.emit { s with i3c := { s.i3c with address := some a, hotJoinAt := none } } (.i3cData (pid ++ [0x0E, 0x00]))))
      ∧ ((∀ t, s.i3c.hotJoinAt = some t → t + 100000000 ≤ s.now) → exec .hotJoinRequest s = .next (State.emit { s with i3c := { s.i3c with hotJoinAt := some s.now } } .hotJoin))
      ∧ (∀ t, s.i3c.hotJoinAt = some t → s.now < t + 100000000 → exec .hotJoinRequest s = .next s)
      ∧ exec .i3cWriteDiscard s = .next s)
  ∧ (∀ (s : State) (r : Rec) (l : List Rec) (t : Nat), s.warden.bmcFifo = r :: l → s.i3c.fifoAt = some t →
      (t + 10000000 ≤ s.now → exec .recordsWaitingReminder s = .next (State.ibi { s with i3c := { s.i3c with fifoAt := some s.now } } 0x01))
      ∧ (s.now < t + 10000000 → exec .recordsWaitingReminder s = .next s))

/-- At an active target with an address, RECORD_READ followed by a read delivers the bytes of the oldest record of the
BMC's FIFO, 32 of them, each field least significant byte first. The record leaves the FIFO when the read takes all
32; a read that ends early delivers its first bytes and leaves it in place. With the FIFO empty the read carries no
data. The reads are bounded by the maximum read length, a write by the maximum write length. -/
def Obligations.RecordRead : Prop :=
  ∀ s : State, s.i3cHere = true → 1 ≤ s.i3c.mwl.toNat → ∃ t, exec .i3cRecordRead s = .next t ∧ t.warden.bmcFifo = s.warden.bmcFifo ∧ t.out = s.out
    ∧ (∀ (r : Rec) (l : List Rec) (n : Nat), s.warden.bmcFifo = r :: l →
        r.bytes.length = 32 ∧ field r.bytes 0 8 = r.hostTag.toNat ∧ field r.bytes 8 2 = r.status.code ∧ field r.bytes 10 2 = r.opsDone.toNat
        ∧ field r.bytes 12 4 = r.detail.toNat ∧ field r.bytes 16 8 = r.time.toNat ∧ field r.bytes 24 8 = r.result.toNat
        ∧ (32 ≤ n → 32 ≤ s.i3c.mrl.toNat → ∃ u, exec (.i3cPrivateRead n) t = .next u ∧ u.out = s.out ++ [.i3cData r.bytes] ∧ u.warden.bmcFifo = l)
        ∧ (n < 32 → ∃ u, exec (.i3cPrivateRead n) t = .next u ∧ u.out = s.out ++ [.i3cData (r.bytes.take (min n s.i3c.mrl.toNat))] ∧ u.warden.bmcFifo = r :: l))
    ∧ (∀ n, s.warden.bmcFifo = [] → ∃ u, exec (.i3cPrivateRead n) t = .next u ∧ u.out = s.out ++ [.i3cData []] ∧ u.warden.bmcFifo = [])

/-- An admitted FW_ABANDON that the half accepts returns a PENDING slot to STAGED and ends DONE. During a trial it ends
DONE and fails the trial: the slot becomes EMPTY, the previous settings return, all work is struck and a warm pitch
is asked for. At other times it completes DONE_EMPTY. On the E half of a Split module it is rejected, as every
firmware command there. -/
def Obligations.FwAbandon : Prop :=
  (∀ (s u : State) (c : Fin 4) (k : Fin 1024) (a : Adm), s.admission 0x0514 c k = some (u, a) →
      (u.fwElsewhere = false →
        (∀ b, u.trust.slotIn .trial = none → u.trust.slotIn .pending = some b →
          exec (.fwAbandon c k) s = .next (settle s (State.endCmd { u with trust := u.trust.setSlot b (fun f => { f with state := .staged }) } a.tag { status := .done })))
        ∧ ((u.trust.slotIn .trial).isSome = true → exec (.fwAbandon c k) s = .next (settle s ((u.endCmd a.tag { status := .done }).failTrial 5)))
        ∧ (u.trust.slotIn .trial = none → u.trust.slotIn .pending = none → exec (.fwAbandon c k) s = .next (settle s (u.endCmd a.tag { status := .doneEmpty }))))
      ∧ (u.fwElsewhere = true → exec (.fwAbandon c k) s = .next (settle s (u.endCmd a.tag { status := .rejectState, detail := 0x1FFFF }))))
  ∧ (∀ (v : State) (b : Bool) (n : Nat), v.trust.slotIn .trial = some b → ((v.failTrial n).trust.slot b).state = .empty
      ∧ (v.failTrial n).settings = v.trust.previous.getD v.settings ∧ (v.failTrial n).lantern.job.isSome = true ∧ (v.failTrial n).trust.trialStart = none
      ∧ v.events.queue.length ≤ (v.failTrial n).events.queue.length)

/-- FW_WRITE stores a block whose check holds in the inactive slot and refuses another; FW_STAGE stages the slot if
every check of its verification holds and else names the first that fails; FW_ACTIVATE makes a staged slot pending;
FW_COMMIT commits the trial slot at READY; a trial not at READY within 30 s of its pitch's start fails. TRUST_POLICY
takes its settings. ATTEST copies the report for its nonce, CERT_READ the chain. WEIGHTS_UNSEAL of an object in
device memory checks its header and then opens it or names the first refusal: an object opens as a sealed range, its
chunks are decrypted and stored in turn, the command ends with SO_LEN as its RESULT, and a chunk that fails releases
the range; SEALED_RELEASE zeroes and releases the range, is refused to another controller or epoch, and ends
REJECT_LIMIT where there is none. A noise source that fails its test closes the module's entropy and is recorded
once. -/
def Obligations.FirmwareCommands : Prop :=
  (∀ (s u : State) (c : Fin 4) (k : Fin 1024) (a : Adm),
    (s.admission 0x0510 c k = some (u, a) → c.val ≤ 1 → field a.b 24 2 ≤ 1023 → field a.b 32 8 % 64 = 0 → u.fwClosed = false → u.fwElsewhere = false → (u.port c).linkUp = true →
      ∀ bs, bs = u.hostRead c (field a.b 32 8) 65536 →
      (crc32c bs = field a.b 28 4 → exec (.fwWrite c k) s = .next (a.done { u with trust := u.trust.setSlot u.trust.inactive (fun f => f.store (field a.b 24 2) bs (crc32c bs)) }))
      ∧ (crc32c bs ≠ field a.b 28 4 → exec (.fwWrite c k) s = .next (a.finish u { status := .securityRefused, detail := BitVec.ofNat 32 Reason.crcFail.code })))
    ∧ (s.admission 0x0511 c k = some (u, a) → u.fwClosed = false → u.fwElsewhere = false →
      exec (.fwStage c k) s = .next (match u.verifySlot (u.trust.slot u.trust.inactive) with
        | some r => a.finish u { status := .securityRefused, detail := BitVec.ofNat 32 r.code }
        | none => a.done { u with trust := u.trust.setSlot u.trust.inactive (fun f => { f with state := .staged }) }))
    ∧ (s.admission 0x0512 c k = some (u, a) → u.fwClosed = false → u.fwElsewhere = false →
      ((u.trust.slot u.trust.inactive).state = .staged →
        exec (.fwActivate c k) s = .next (a.done { u with trust := u.trust.setSlot u.trust.inactive (fun f => { f with state := .pending }) }))
      ∧ ((u.trust.slot u.trust.inactive).state ≠ .staged → exec (.fwActivate c k) s = .next (a.finish u { status := .rejectState, detail := 0x1FFFF })))
    ∧ (s.admission 0x0513 c k = some (u, a) → u.lantern.stage = 0xF → u.fwElsewhere = false →
      (∀ b, u.trust.fwState = .trial → u.trust.slotIn .trial = some b → exec (.fwCommit c k) s = .next (settle s (a.done ((u.commit b).tell .committed))))
      ∧ (u.trust.fwState ≠ .trial → exec (.fwCommit c k) s = .next (settle s (a.finish u { status := .rejectState, detail := 0x1FFFF }))))
    ∧ (s.admission 0x0520 c k = some (u, a) →
      (field a.b 28 1 ≤ 1 → exec (.trustPolicy c k) s = .next (a.done { u with settings := { u.settings with tpMinFw := BitVec.ofNat 32 (field a.b 24 4), tpSameFw := decide (field a.b 28 1 = 1) } }))
      ∧ (1 < field a.b 28 1 → exec (.trustPolicy c k) s = .next (a.finish u { status := .rejectFormat, detail := 0x10000 + 28 })))
    ∧ (s.admission 0x0500 c k = some (u, a) → c.val ≤ 1 → field a.b 56 8 % 64 = 0 →
      (u.trust.identityOk = true → (u.port c).linkUp = true → exec (.attest c k) s = .next (a.done (u.hostWrite c (field a.b 56 8)
        (u.report (u.port c).tdi.code ((a.b.drop 24).take 32)))))
      ∧ (u.trust.identityOk = false → exec (.attest c k) s = .next (a.finish u { status := .securityRefused, detail := BitVec.ofNat 32 Reason.identity.code })))
    ∧ (s.admission 0x0501 c k = some (u, a) → c.val ≤ 1 → field a.b 24 8 % 64 = 0 → field a.b 32 2 ≤ 16384 →
      (field a.b 32 2 = 0 → exec (.certRead c k) s = .next (a.finish u { status := .doneEmpty, result := BitVec.ofNat 64 u.chain.length }))
      ∧ (field a.b 32 2 ≠ 0 → (u.port c).linkUp = true → exec (.certRead c k) s
        = .next (a.done (u.hostWrite c (field a.b 24 8) (u.chain.take (field a.b 32 2))) u.chain.length)))
    ∧ (s.admission 0x0530 c k = some (u, a) → field a.b 24 1 = 1 → field a.b 48 8 % 4096 = 0 → spaceOneBad (field a.b 48 8) = false → spaceOneBad (field a.b 32 8) = false → u.trust.ranges.length < 64 →
      u.reachableRange (field a.b 32 8) (field a.b 40 8) = true → u.rangeInPool (field a.b 32 8) (field a.b 40 8) = false → ∀ h io, u.load { tag := a.tag } (field a.b 32 8) 2048 = (h, io) → io.stop = none →
      field h 0 2 = 1 → field a.b 40 8 = 2048 + field h 8 8 + 16 * ((field h 8 8 + 65535) / 65536) → io.s.reachableRange (field a.b 48 8) (rangeBytes (field h 8 8)) = true →
      io.s.rangeInPool (field a.b 48 8) (rangeBytes (field h 8 8)) = false → exec (.weightsUnseal c k) s = .next (a.unseal io.s h))
    ∧ (s.admission 0x0531 c k = some (u, a) →
      ∀ x e, x = u.canonical (field a.b 24 8) → e = ((u.cmd a.tag).map (·.epoch)).getD u.own.epoch →
      (∀ r, u.trust.ranges.find? (fun r => r.touches x 1) = some r →
        (u.sealedAgainst c e x 1 = false → exec (.sealedRelease c k) s = .next (a.done (u.releaseRange r)))
        ∧ (u.sealedAgainst c e x 1 = true → exec (.sealedRelease c k) s = .next (a.finish u { status := .securityRefused, detail := BitVec.ofNat 32 Reason.sealedRange.code })))
      ∧ (u.trust.ranges.find? (fun r => r.touches x 1) = none → exec (.sealedRelease c k) s = .next (a.finish u { status := .rejectLimit, detail := 0x10000 + 24 }))))
  ∧ (∀ (s : State) (r : SealedRange), r.blocks = [] →
      s.releaseRange r = State.setTrust (s.zeroRange r.base r.size) (fun t => { t with ranges := t.ranges.filter (fun x => x ≠ r) }))
  ∧ (∀ (v : State) (a : Adm) (h : List Byte) (e : BitVec 32), e = ((v.cmd a.tag).map (·.epoch)).getD v.own.epoch →
      (v.sealedAgainst a.ctrl e (field a.b 48 8) (rangeBytes (field h 8 8)) = true → a.unseal v h = a.finish v (refused .sealedRange))
      ∧ (v.sealedAgainst a.ctrl e (field a.b 48 8) (rangeBytes (field h 8 8)) = false →
        (field a.b 24 1 = 1 → v.sealedAgainst a.ctrl e (field a.b 32 8) (field a.b 40 8) = false) →
      (v.trust.identityOk = false → a.unseal v h = a.finish v (refused .identity))
      ∧ (v.trust.identityOk = true → a.unseal v h = if (h.drop 0x20).take 32 = Config.sealHash v.lead then
            (if v.policyHolds a.ctrl h then
              (match contentKey h with
               | some key => a.openObject v h key
               | none => a.finish v (refused .sealTag))
             else a.finish v (refused .sealPolicy))
          else a.finish v (refused .sealTarget))))
  ∧ (∀ (v : State) (a : Adm) (h key : List Byte) (r : SealedRange) (io : Io), 0 < field h 8 8 → field a.b 48 8 < windowBase →
      r = { base := field a.b 48 8, size := rangeBytes (field h 8 8), ctrl := a.ctrl, epoch := ((v.cmd a.tag).map (·.epoch)).getD v.own.epoch,
            needsTdi := bit (field h 2 2) 0, draining := false } →
      a.openChunks h key (field h 8 8) { v with trust := { v.trust with ranges := v.trust.ranges ++ [r] } } (List.range ((field h 8 8 + 65535) / 65536)) = io →
      a.openObject v h key = match io.stop with
        | some e => a.finish (io.s.releaseRange r) e
        | none => a.finish io.s { status := if io.degraded then .doneDegraded else .done, result := BitVec.ofNat 64 (field h 8 8) })
  ∧ (∀ (v : State) (a : Adm) (h key bs : List Byte) (i n m : Nat) (rest : List Nat) (io : Io), m = min 65536 (n - i * 65536) →
      a.readSource v (2048 + i * 65552) (m + 16) = (bs, io) → io.stop = none →
      a.openChunks h key n v (i :: rest) = match Config.gcmDec key (field h 0x10 8 * 2 ^ 32 + i) (h.take 0x60) bs with
        | none => { io with stop := some { status := .securityRefused, detail := BitVec.ofNat 32 Reason.sealTag.code } }
        | some p =>
          let w := io.s.store { tag := a.tag } (field a.b 48 8 + i * 65536) (padTo p m)
          if w.stop.isSome then w
          else { a.openChunks h key n w.s rest with degraded := (a.openChunks h key n w.s rest).degraded || w.degraded || io.degraded })
  ∧ (∀ (s : State) (t : Nat), s.trust.trialStart = some t →
      (s.trust.fwState = .trial → s.trust.trialReady = false → t + 30000000000 ≤ s.now → s.lantern.job = none → s.lantern.halt ≠ 1 → exec .trialTimeout s = .next (settle s (s.failTrial 3)))
      ∧ (s.now < t + 30000000000 ∨ s.trust.trialReady = true → exec .trialTimeout s = .next s))
  ∧ (∀ s : State, exec (.entropyHealthTest true) s = .next { s with trust := { s.trust with entropyOk := true } }
      ∧ (s.trust.entropyLogged = false → exec (.entropyHealthTest false) s
        = .next (State.postSecurity { s with trust := { s.trust with entropyOk := false, entropyLogged := true } } .entropy s.lead))
      ∧ (s.trust.entropyLogged = true → exec (.entropyHealthTest false) s = .next { s with trust := { s.trust with entropyOk := false, entropyLogged := true } }))

/-- A core's near and far accesses go to their lines one by one; a far write marked class 0 counts as class 1. An access
to a free vault with time for its class is served at once; behind a sortie, a pause, a slot or an older access to
its code words it joins the holding queue, or waits at its port when 64 are held; a held access is promoted by its
class's time; a merge entry is written out after 1,024 ns. A failed slice loses its lines. A refresh slot reads the
canary rows that are due and refreshes other rows in the rest of its time, and closes open rows; the effects of its
canary failures end at a boundary more than 10 s later. A scrub slot patrols one code word, and a pass that overruns
is logged. A failing connection takes a spare of its group with a pause; without one a data group narrows the vault
and a clock, address or cache connection loses it, and the pause ends with the held accesses served. That a scrub
slot patrols one code word is the model's choice (assumption 31). -/
def Obligations.VaultEvents : Prop :=
  (∀ (s : State) (p : Fin 1024) (cl : Fin 3), s.lantern.stage = 0xF → s.pairPresent p = true →
      (∀ o n, o + n ≤ 2 ^ 31 → exec (.nearRead p o n) s
        = .next ((linePieces (modAddr p o) n).foldl (fun (t : State) x => t.coreAccess p 1 x.1 (some x.2.2) []) s))
      ∧ (∀ o (d : List Byte), o + d.length ≤ 2 ^ 31 → exec (.nearWrite p o d) s
        = .next ((linePieces (modAddr p o) d.length).foldl (fun (t : State) x => t.coreAccess p 1 x.1 none ((d.drop x.2.1).take x.2.2)) s))
      ∧ (∀ a n, exec (.farRead p a n cl) s = .next ((linePieces a n).foldl (fun (t : State) x => t.coreAccess p cl x.1 (some x.2.2) []) s))
      ∧ (∀ a (d : List Byte), cl ≠ 0 → exec (.farWrite p a d cl) s
        = .next ((linePieces a d.length).foldl (fun (t : State) x => t.coreAccess p cl x.1 none ((d.drop x.2.1).take x.2.2)) s))
      ∧ (∀ a (d : List Byte), exec (.farWrite p a d 0) s = exec (.farWrite p a d 1) s))
  ∧ (∀ (s : State) (p : Fin 1024) (cl : Fin 3), s.lantern.stage ≠ 0xF ∨ s.pairPresent p = false →
      (∀ o n, exec (.nearRead p o n) s = .next s) ∧ (∀ o d, exec (.nearWrite p o d) s = .next s)
      ∧ (∀ a n, exec (.farRead p a n cl) s = .next s) ∧ (∀ a d, exec (.farWrite p a d cl) s = .next s))
  ∧ (∀ (s : State) (p off core n a : Nat) (cl : Fin 3) (h : Held), s.reach a = .vault p off →
      h = { write := false, offset := off, len := n, data := [], cls := cl, arrived := s.now, classSince := s.now, near := decide (p = core), core := core } →
      s.coreAccess core cl a (some n) [] = s.access p h
      ∧ (p = core → (s.vault p).sortie.isSome = true ∨ (s.vault p).pausedUntil.isSome = true ∨ s.inVaultSlot p = true ∨ s.classServed p cl = false → s.access p h = s.setVault p (fun v => v.offer h))
      ∧ (s.behind p h = true → s.access p h = s.setVault p (fun v => v.offer h))
      ∧ (s.behind p h = false → (s.vault p).sortie = none → (s.vault p).pausedUntil = none → s.inVaultSlot p = false → s.classServed p cl = true →
          s.access p h = s.serveAccess p h))
  ∧ (∀ (v : Vault) (h : Held), (v.back = [] → v.held.length < 64 → v.offer h = { v with held := v.held ++ [h] })
      ∧ (v.back ≠ [] ∨ 64 ≤ v.held.length → v.offer h = { v with back := v.back ++ [h] }))
  ∧ (∀ (s u : State) (p : Nat) (h : Held), u = (if h.cls = 2 then s.setVault p (fun v => { v with swapSpent := v.swapSpent + s.accessTime p h }) else s) →
      (∀ bs io, h.write = false → u.readLine p h.offset h.len h.near h.cls.val = (bs, io) → io.stop = none → s.serveAccess p h = io.s.emit (h.gives p bs))
      ∧ (∀ io, h.write = true → u.writeLine p h.offset h.data h.near h.cls.val (4096, 0) = io → io.stop = none → s.serveAccess p h = io.s))
  ∧ (∀ (s : State) (p : Fin 1024) (w : Nat) (e : MergeEntry), (s.vault p).entry w = some e →
      (e.writtenAt + 1024 ≤ s.now → exec (.mergeEntryIdle p w) s = .next (s.writeOut p e)) ∧ (s.now < e.writtenAt + 1024 → exec (.mergeEntryIdle p w) s = .next s))
  ∧ (∀ (s : State) (p : Fin 1024) (i : Nat) (h : Held), (s.vault p).held[i]? = some h →
      (h.cls = 1 → h.classSince + 16384 ≤ s.now → exec (.accessPromote p i) s
        = .next ((s.setVault p (fun v => { v with held := v.held.set i { h with cls := 0, classSince := s.now } })).serveHeld p))
      ∧ (h.cls = 2 → h.classSince + 65536 ≤ s.now → (s.profileFor p).swap ≠ 0 → exec (.accessPromote p i) s
        = .next ((s.setVault p (fun v => { v with held := v.held.set i { h with cls := 1, classSince := s.now } })).serveHeld p))
      ∧ (h.cls = 0 ∨ s.now < h.classSince + 16384 ∨ (h.cls = 2 ∧ (s.now < h.classSince + 65536 ∨ (s.profileFor p).swap = 0)) → exec (.accessPromote p i) s = .next s))
  ∧ (∀ (s : State) (t : Fin 16), s.hasTower t = true → (s.slice t).failed = false → ∃ u, exec (.sliceFail t) s = .next u ∧ (u.slice t).failed = true ∧ (u.slice t).lines = [])
  ∧ (∀ (s : State) (p : Fin 1024), ((s.vault p).pausedUntil.isSome = true → exec (.channelPauseEnd p) s = .next ((s.setVault p (fun v => { v with pausedUntil := none, freedAt := some s.now })).serveHeld p))
      ∧ ((s.vault p).pausedUntil = none → exec (.channelPauseEnd p) s = .next s))
  ∧ (∀ (s : State) (p : Fin 1024) (l : List (Fin 128 × Fin 4)), s.pairPresent p = true → s.time.running = true → s.inPeriod = s.refreshAt p → s.inVaultSlot p = false →
      ∀ rows, rows = s.canaryDue p (s.refreshLen p / 64) →
      exec (.refreshSlot p l) s = .next ((l.filter (fun f => rows.contains f.2.val)).foldl (fun (t : State) f => t.canaryFail p f.1.val f.2.val) (s.setVault p (fun v => { v with
        slotUntil := some (s.now + s.refreshLen p), refreshRow := (v.refreshRow + (s.refreshLen p / 64 - rows.length)) % 9360
        canaryRead := rows.foldl (fun m r => put m r s.now) v.canaryRead, units := v.units.map (fun e => (e.1, { e.2 with openRow := none })) }))))
  ∧ (∀ (s : State) (p : Fin 1024) (l : List (Fin 128 × Fin 4)), s.inPeriod ≠ s.refreshAt p → exec (.refreshSlot p l) s = .next s)
  ∧ (∀ (s : State) (p : Fin 1024) (t : Nat), (s.vault p).canaryAt = some t →
      (t + 10000000000 < s.now → s.atBoundary = true → exec (.canaryClear p) s
        = .next ((s.setVault p (fun v => { v with canaryAt := none, halved := false })).logVault p 6 5 0xFF (modAddr p 0)))
      ∧ (s.now ≤ t + 10000000000 ∨ s.atBoundary = false → exec (.canaryClear p) s = .next s))
  ∧ (∀ (s t : State) (p : Fin 1024), s.pairPresent p = true → s.time.running = true → s.inPeriod = (s.profileFor p).scrubOffset.toNat → (s.profileFor p).scrub ≠ 0 →
      s.inVaultSlot p = false → s.scrubBehind p = true → t = (s.readMap p ((s.vault p).scrubAt / 128) 1).setVault p (fun v => { v with slotUntil := some (s.now + (s.profileFor p).scrub.toNat) }) →
      (∀ w, t.nextScrub p = some w → exec (.scrubSlot p) s = .next ((t.scrubWord p w).setVault p (fun v => { v with scrubAt := w + 1 })))
      ∧ (t.nextScrub p = none → exec (.scrubSlot p) s
        = .next (t.setVault p (fun v => { v with scrubAt := 0, lateCount := 0, passStart := max (s.passStart p + s.passNs) s.now }))))
  ∧ (∀ (s : State) (p : Fin 1024), s.pairPresent p = true →
      (s.passStart p + s.passNs * ((s.vault p).lateCount + 1) ≤ s.now → exec (.scrubLate p) s
        = .next ((s.setVault p (fun v => { v with lateCount := v.lateCount + 1 })).logVault p 14 1 0xFF (modAddr p 0)))
      ∧ (s.now < s.passStart p + s.passNs * ((s.vault p).lateCount + 1) → exec (.scrubLate p) s = .next s))
  ∧ (∀ (s : State) (p : Fin 1024) (g : Nat) (n : Fin 64) (x : Group), s.pairPresent p = true → g < 38 → look (s.vault p).groups g {} = x →
      (x.used < 4 → exec (.channelGroupFailing p g n) s = .next (settle s ((((s.setVault p (fun v => { v with groups := put v.groups g { x with used := x.used + 1 } })).pauseChannel p 2000).logVault
        p 7 6 g (modAddr p 0)).overlayPair 6 p g (n.val + 64 * x.used))))
      ∧ (∀ t, t = s.setVault p (fun v => { v with groups := put v.groups g { x with exhausted := true } }) → 4 ≤ x.used →
        (36 ≤ g → exec (.channelGroupFailing p g n) s = .next (settle s (t.losePair p 1)))
        ∧ (g < 36 → (s.vault p).narrow = none → (s.vault p).halfGone (!groupHalf g) = false →
          exec (.channelGroupFailing p g n) s = .next (settle s (t.enterNarrow p (!groupHalf g) g)))))
  ∧ (∀ (s : State) (p : Fin 1024) (g : Nat) (n : Fin 64) (x : Group), s.pairPresent p = true → 64 ≤ g → g < 80 → look (s.vault p).groups g {} = x →
      (x.used < 2 → exec (.channelGroupFailing p g n) s = .next (settle s ((((s.setVault p (fun v => { v with groups := put v.groups g { x with used := x.used + 1 } })).pauseChannel p 2000).logVault
        p 7 6 g (modAddr p 0)).overlayPair 6 p g (n.val + 64 * x.used))))
      ∧ (2 ≤ x.used → exec (.channelGroupFailing p g n) s = .next (settle s ((s.setVault p (fun v => { v with groups := put v.groups g { x with exhausted := true } })).losePair p 5))))

/-- At a channel the device shows, an owner's GO begins a scan with what it latches, or only marks an overrun while the
channel is busy; RESET returns the running state; CHECK asks for a compare once the FIFO is empty; ABORT ends a
scan; a feed of one, two or four bytes enters the FIFO, or is lost with an overrun while a scan runs or the FIFO is
full. A non-owner's write is denied. The compare sets CV_MATCH or CV_MISMATCH. A scan's end takes up its bytes and
compares, or shows the fault and the address it stopped at. What an aborted scan leaves in the running state is a
free value (assumption 23). -/
def Obligations.CheckValues : Prop :=
  (∀ (s : State) (p : Fin 2) (c : Fin 16), s.hostWrites p = true → s.hasChan c = true → s.owns p = true →
      ((s.chan c).scanning = false → (s.chan c).checking = false → (s.chan c).fifo = [] → (s.chan c).continue' = false →
        exec (.cvGo p c) s = .next (s.setChan c (fun x => { x with scanning := true, match' := false, latched := some (x.alg, x.start.toNat, x.len.toNat), by' := ctrlOf p, crc := if x.alg then 0 else 0xFFFFFFFF, doneBytes := 0 })))
      ∧ ((s.chan c).scanning = true → exec (.cvGo p c) s = .next (s.setChan c (fun x => { x with overrun := true })))
      ∧ exec (.cvReset p c) s = .next (s.setChan c (fun x => { x with crc := if x.alg then 0 else 0xFFFFFFFF, doneBytes := 0, match' := false }))
      ∧ ((s.chan c).scanning = false → (s.chan c).checking = false → exec (.cvCheck p c) s = .next (s.setChan c (fun x => { x with checking := true, match' := false })))
      ∧ ((s.chan c).scanning = true → ∃ u, exec (.cvAbort p c) s = .next u ∧ (u.chan c).scanning = false ∧ (u.chan c).match' = (s.chan c).match' ∧ (u.chan c).mismatch = (s.chan c).mismatch
        ∧ (∀ n, n ≠ c.val → u.chan n = s.chan n))
      ∧ ((s.chan c).scanning = false → exec (.cvAbort p c) s = .next s)
      ∧ (∀ v : BitVec 32, ((s.chan c).scanning = false → (s.chan c).fifo.length < 16 →
          exec (.cvFeedB p c v) s = .next (s.setChan c (fun x => { x with fifo := x.fifo ++ [leBytes 1 v.toNat] }))
          ∧ exec (.cvFeedH p c v) s = .next (s.setChan c (fun x => { x with fifo := x.fifo ++ [leBytes 2 v.toNat] }))
          ∧ exec (.cvFeedW p c v) s = .next (s.setChan c (fun x => { x with fifo := x.fifo ++ [leBytes 4 v.toNat] })))
        ∧ ((s.chan c).scanning = true ∨ 16 ≤ (s.chan c).fifo.length → exec (.cvFeedW p c v) s = .next (s.setChan c (fun x => { x with overrun := true }))
          ∧ exec (.cvFeedH p c v) s = exec (.cvFeedW p c v) s ∧ exec (.cvFeedB p c v) s = exec (.cvFeedW p c v) s)))
  ∧ (∀ (s : State) (p : Fin 2) (c : Fin 16), s.hostWrites p = true → s.hasChan c = true → s.owns p = false →
      exec (.cvGo p c) s = .next (s.deny p) ∧ exec (.cvReset p c) s = .next (s.deny p) ∧ exec (.cvCheck p c) s = .next (s.deny p) ∧ exec (.cvAbort p c) s = .next (s.deny p)
      ∧ ∀ v, exec (.cvFeedB p c v) s = .next (s.deny p) ∧ exec (.cvFeedH p c v) s = .next (s.deny p) ∧ exec (.cvFeedW p c v) s = .next (s.deny p))
  ∧ (∀ (s : State) (c : Fin 16), (s.chan c).checking = true → (s.chan c).fifo = [] → ∃ u, exec (.cvCompare c) s = .next u ∧ (u.chan c).checking = false
      ∧ ((s.chan c).alg = true → (s.chan c).overrun = false → (s.chan c).crc = (s.chan c).expect → (u.chan c).match' = true ∧ (u.chan c).mismatch = (s.chan c).mismatch)
      ∧ ((s.chan c).alg = false → (s.chan c).overrun = false → ((s.chan c).crc.toNat % 2 ^ 32) ^^^ 0xFFFFFFFF = (s.chan c).expect.toNat % 2 ^ 32 →
          (u.chan c).match' = true ∧ (u.chan c).mismatch = (s.chan c).mismatch)
      ∧ ((s.chan c).overrun = true → (u.chan c).mismatch = true))
  ∧ (∀ (s : State) (c : Fin 16), (s.chan c).checking = false ∨ (s.chan c).fifo ≠ [] → exec (.cvCompare c) s = .next s)
  ∧ (∀ (s u : State) (c : Fin 16) (alg : Bool) (start len n : Nat) (crc : BitVec 64) (f : Option (Nat × Nat)) (t : State), (s.chan c).scanning = true →
      (s.chan c).latched = some (alg, start, len) → s.cvScan alg (s.chan c).by' (s.chan c).crc start len (len / 128 + 2) = (t, crc, n, f) →
      u = t.setChan c (fun x => { x with scanning := false, crc := crc, doneBytes := x.doneBytes + BitVec.ofNat 64 n }) →
      (f = none → exec (.cvScanEnd c) s = .next (u.cvDoCompare c))
      ∧ (∀ k a, f = some (k, a) → exec (.cvScanEnd c) s
        = .next (u.setChan c (fun x => { x with fault := true, faultKind := BitVec.ofNat 8 k, faultAddr := BitVec.ofNat 64 a }))))
  ∧ (∀ (s : State) (c : Fin 16), (s.chan c).scanning = false → exec (.cvScanEnd c) s = .next s)

/-- A stage's result is taken only in that stage, from stage 3 on only while nothing has stopped the pitch, in stage 4
only with the other half's record or its absence known. Stage 2 halts on a shutdown latch, an invalid variant or a
strap conflict, stays for recovery, waits while MOD_RESET_N is low, and else goes through the coolant gate to stage
3 or IDLE, which is left once three polls in a row were good. Stage 3 with neither a pending nor a committed slot
halts. Stages 5, 6 and 7 lead to 6, 7 and 9. Stage 9 ends in READY, with the geometry record built at generation 2. -/
def Obligations.PitchStages : Prop :=
  (∀ (s : State) (ok : Bool), s.lantern.stage = 1 → exec (.pitchStageComplete (.rails ok)) s = .next (settle s (s.endRails ok)))
  ∧ (∀ (s : State) (w e : Straps) (i a : Bool) (m : Int), s.lantern.stage = 2 → s.board.waitingReset = false → s.trust.fwState ≠ .recovery → s.lantern.job = none →
      s.lantern.clearing = none → exec (.pitchStageComplete (.lantern w e i a m)) s = .next (settle s (s.endStage2 w e i a m)))
  ∧ (∀ (s u : State) (w e : Straps) (i a : Bool) (m : Int), u = s.endStage2 w e i a m →
      (s.latchStands = true → u.lantern.halt = 6 ∧ u.lantern.stage = 0xE)
      ∧ (s.latchStands = false → orderCode s.fuses = 0 → u.lantern.halt = 7 ∧ u.lantern.stage = 0xE)
      ∧ (s.latchStands = false → orderCode s.fuses ≠ 0 → s.lantern.both = true → w ≠ e → u.lantern.halt = 8 ∧ u.lantern.stage = 0xE)
      ∧ (s.latchStands = false → orderCode s.fuses ≠ 0 → w = e →
        (w.recovery = true → u.trust.fwState = .recovery ∧ u.lantern.heForward = true ∧ u.lantern.stage = s.lantern.stage)
        ∧ (w.recovery = false → s.board.resetLow = true → u.board.waitingReset = true ∧ u.lantern.stage = s.lantern.stage)
        ∧ (w.recovery = false → s.board.resetLow = false → u.lantern.stage = if 3 ≤ s.lantern.goodPolls then 3 else 0xA)))
  ∧ (∀ (s : State), s.lantern.stage = 0xA → s.pitchGoes = true → 3 ≤ s.lantern.goodPolls → exec (.pitchStageComplete .idleRelease) s = .next (settle s s.leaveIdle)
      ∧ s.leaveIdle.lantern.stage = 3 ∧ s.leaveIdle.lantern.idleWhy = 0)
  ∧ (∀ (s : State), s.lantern.goodPolls < 3 → exec (.pitchStageComplete .idleRelease) s = .next s)
  ∧ (∀ (s : State), (3 ≤ s.lantern.goodPolls → s.gate.lantern.stage = 3) ∧ (s.lantern.goodPolls < 3 → s.gate.lantern.stage = 0xA))
  ∧ (∀ (s : State) (c : Nat), (s.halt c).lantern.halt = BitVec.ofNat 8 c ∧ (s.halt c).lantern.stage = 0xE)
  ∧ (∀ (s : State) (a b : Bool), s.lantern.stage = 3 → s.pitchGoes = true → exec (.pitchStageComplete (.firmware a b)) s = .next (settle s (s.endStage3 a b)))
  ∧ (∀ (s : State) (b : Bool), s.trust.slotIn .pending = none → s.trust.slotIn .committed = none → ∃ u : State, s.endStage3 b b = u.halt 2 ∧ u.trust.fwState = .none ∧ u.trust.loaded = false)
  ∧ (∀ (s : State) (l : List (Fin 16)) (q : Bool), s.lantern.stage = 4 → s.pitchGoes = true → s.seam.peer.isSome = true ∨ s.seam.noPeer = true →
      exec (.pitchStageComplete (.seam l q)) s = .next (settle s (s.endStage4 l q)))
  ∧ (∀ (s : State) (l : List (Fin 1024)) (q : Bool), s.lantern.stage = 5 → s.pitchGoes = true → ∃ u, exec (.pitchStageComplete (.channel l q)) s = .next u ∧ u.lantern.stage = 6)
  ∧ (∀ (s : State) (l : List RowFault) (q : Bool), s.lantern.stage = 6 → s.pitchGoes = true → ∃ u, exec (.pitchStageComplete (.dram l q)) s = .next u ∧ u.lantern.stage = 7)
  ∧ (∀ (s : State) (l : List CoreFail) (f : List (Fin 1024)) (q : Bool), s.lantern.stage = 7 → s.pitchGoes = true →
      ∃ u, exec (.pitchStageComplete (.cores l f q)) s = .next u ∧ u.lantern.stage = 9)
  ∧ (∀ (s : State) (m : Option (Fin 1024)) (f : Nat), s.lantern.stage = 9 → s.pitchGoes = true →
      ∃ u, exec (.pitchStageComplete (.memory m f)) s = .next u ∧ u.lantern.stage = 0xF ∧ u.geo.built = true ∧ u.geo.generation = 2 ∧ u.mem.scrubFrom = s.now)
  ∧ (∀ (s : State) (r : StageResult) (n : Nat), n = (match r with
        | .rails _ => 1 | .lantern .. => 2 | .idleRelease => 0xA | .firmware .. => 3 | .seam .. => 4 | .channel .. => 5 | .dram .. => 6 | .cores .. => 7 | .memory .. => 9) →
      s.lantern.stage.toNat ≠ n ∨ (3 ≤ n ∧ s.pitchGoes = false) → exec (.pitchStageComplete r) s = .next s)

/-- Two byte memories in canonical form that read the same at every address are the same data. Bytes written together
read back together, and every address outside them reads as before. -/
def Obligations.MemoryCanonical : Prop :=
  (∀ m n : Mem, Mem.wf m = true → Mem.wf n = true → (∀ a, readByte m a = readByte n a) → m = n)
  ∧ (∀ (m : Mem) (a : Nat) (bs : List Byte), readBytes (writeBytes m a bs) a bs.length = bs)
  ∧ (∀ (m : Mem) (a : Nat) (bs : List Byte) (x : Nat), Mem.wf m = true → x < a ∨ a + bs.length ≤ x → readByte (writeBytes m a bs) x = readByte m x)
  ∧ (∀ (m : Mem) (a n x : Nat), Mem.wf m = true → readByte (clearRange m a n) x = if a ≤ x ∧ x < a + n then 0 else readByte m x)
end

