-- ==== Sys2Proof/Laws/Only.lean ====
section
/-! SUPPORT. How "only these parts changed" composes: reflexivity, one update after another, folds. -/

namespace Sys2Proof.Machine

open Sys2Proof

/-- One list of parts lies within another. -/
def within (l L : List Part) : Bool := l.all (fun p => L.contains p)

theorem within_mem {l L : List Part} (h : within l L = true) {p : Part} (hp : p ∈ l) : p ∈ L := by
  simp only [within, List.all_eq_true] at h
  simpa using h p hp

theorem within_self {L : List Part} : within L L = true := by
  simp [within]

theorem within_trans {k l L : List Part} (h : within k l = true) (g : within l L = true) : within k L = true := by
  simp only [within, List.all_eq_true] at h g ⊢
  exact fun p hp => g p (by simpa using h p hp)

theorem Only.refl {L : List Part} {s : State} : Only L s s := by
  refine ⟨fun p _ => ?_⟩
  cases p <;> simp [Part.same]

theorem Part.same_trans {p : Part} {s t u : State} (h : p.same s t) (g : p.same t u) : p.same s u := by
  cases p <;> simp only [Part.same] at h g ⊢ <;> first
    | exact g.trans h
    | exact ⟨g.1.trans h.1, g.2.trans h.2⟩
    | (rw [g, h])

theorem Only.trans {L : List Part} {s t u : State} (h : Only L s t) (g : Only L t u) : Only L s u :=
  ⟨fun p hp => Part.same_trans (h.same p hp) (g.same p hp)⟩

theorem Only.mono {l L : List Part} {s t : State} (w : within l L = true) (h : Only l s t) : Only L s t :=
  ⟨fun p hp => h.same p (fun hq => hp (within_mem w hq))⟩

theorem Only.after {l L : List Part} {s t u : State} (g : Only l t u) (w : within l L = true) (h : Only L s t) :
    Only L s u := h.trans (g.mono w)

theorem Only.foldl {α : Type} {L : List Part} {f : State → α → State} (l : List α) {s t : State}
    (hf : ∀ u a, Only L u (f u a)) (h : Only L s t) : Only L s (l.foldl f t) := by
  induction l generalizing t with
  | nil => exact h
  | cons a r ih => exact ih (h.trans (hf t a))

theorem Only.foldr {α : Type} {L : List Part} {f : α → State → State} (l : List α) {s t : State}
    (hf : ∀ u a, Only L u (f a u)) (h : Only L s t) : Only L s (l.foldr f t) := by
  induction l with
  | nil => exact h
  | cons a r ih => exact ih.trans (hf _ a)

/-- Every state the option can hold was reached by changing only the listed parts. -/
structure OnlyO (L : List Part) (s : State) (o : Option State) : Prop where
  of : ∀ t : State, o = some t → Only L s t

theorem OnlyO.none {L : List Part} {s : State} : OnlyO L s none := ⟨fun _ h => nomatch h⟩

theorem OnlyO.some {L : List Part} {s t : State} (h : Only L s t) : OnlyO L s (some t) :=
  ⟨fun u g => by injection g with g; exact g ▸ h⟩

theorem OnlyO.after {l L : List Part} {s t : State} {o : Option State} (g : OnlyO l t o) (w : within l L = true)
    (h : Only L s t) : OnlyO L s o := ⟨fun u e => (g.of u e).after w h⟩

theorem OnlyO.map {α : Type} {L : List Part} {s : State} {o : Option α} {f : α → State} (hf : ∀ a, Only L s (f a)) :
    OnlyO L s (o.map f) := by
  cases o with
  | none => exact OnlyO.none
  | some a => exact OnlyO.some (hf a)

theorem OnlyO.mapState {L : List Part} {s : State} {o : Option State} {f : State → State} (hf : ∀ u, Only L u (f u))
    (h : OnlyO L s o) : OnlyO L s (o.map f) := by
  cases o with
  | none => exact OnlyO.none
  | some t => exact OnlyO.some ((h.of t rfl).trans (hf t))

theorem OnlyO.bind {L : List Part} {s : State} {o : Option State} {f : State → Option State}
    (hf : ∀ u, OnlyO L u (f u)) (h : OnlyO L s o) : OnlyO L s (o.bind f) := by
  cases o with
  | none => exact OnlyO.none
  | some t => exact ⟨fun u e => (h.of t rfl).trans ((hf t).of u e)⟩

theorem OnlyO.getD {L : List Part} {s d : State} {o : Option State} (h : OnlyO L s o) (hd : Only L s d) :
    Only L s (o.getD d) := by
  cases o with
  | none => exact hd
  | some t => exact h.of t rfl

theorem OnlyO.foldl {β : Type} {L : List Part} {s : State} {f : State → β → Option State} (l : List β)
    {o : Option State} (hf : ∀ u b, OnlyO L u (f u b)) (h : OnlyO L s o) :
    OnlyO L s (l.foldl (fun t b => t.bind (fun u => f u b)) o) := by
  induction l generalizing o with
  | nil => exact h
  | cons b r ih => exact ih (OnlyO.bind (fun u => hf u b) h)

/-- Every state the result can hold was reached by changing only the listed parts. -/
structure OnlyE {α : Type} (L : List Part) (s : State) (o : Except α State) : Prop where
  of : ∀ t : State, o = .ok t → Only L s t

theorem OnlyE.error {α : Type} {L : List Part} {s : State} {a : α} : OnlyE L s (.error a) := ⟨fun _ h => nomatch h⟩

theorem OnlyE.ok {α : Type} {L : List Part} {s t : State} (h : Only L s t) : OnlyE (α := α) L s (.ok t) :=
  ⟨fun u g => by injection g with g; exact g ▸ h⟩

theorem OnlyE.after {α : Type} {l L : List Part} {s t : State} {o : Except α State} (g : OnlyE l t o) (w : within l L = true)
    (h : Only L s t) : OnlyE L s o := ⟨fun u e => (g.of u e).after w h⟩

theorem OnlyE.bind {α : Type} {L : List Part} {s : State} {o : Except α State} {f : State → Except α State}
    (hf : ∀ u, OnlyE L u (f u)) (h : OnlyE L s o) : OnlyE L s (o.bind f) := by
  cases o with
  | error a => exact OnlyE.error
  | ok t => exact ⟨fun u e => (h.of t rfl).trans ((hf t).of u e)⟩

theorem OnlyE.foldl {α β : Type} {L : List Part} {s : State} {f : State → β → Except α State} (l : List β)
    {o : Except α State} (hf : ∀ u b, OnlyE L u (f u b)) (h : OnlyE L s o) :
    OnlyE L s (l.foldl (fun t b => t.bind (fun u => f u b)) o) := by
  induction l generalizing o with
  | nil => exact h
  | cons b r ih => exact ih (OnlyE.bind (fun u => hf u b) h)

/-- Whether it goes on or stops, the state was reached by changing only the listed parts. -/
structure OnlyS {α : Type} (L : List Part) (s : State) (o : Except (State × α) State) : Prop where
  of : ∀ t : State, o = .ok t → Only L s t
  ofError : ∀ (t : State) (a : α), o = .error (t, a) → Only L s t

theorem OnlyS.error {α : Type} {L : List Part} {s t : State} {a : α} (h : Only L s t) : OnlyS L s (.error (t, a)) :=
  ⟨(fun _ g => nomatch g), fun u b g => by injection g with g; injection g with g; exact g ▸ h⟩

theorem OnlyS.ok {α : Type} {L : List Part} {s t : State} (h : Only L s t) : OnlyS (α := α) L s (.ok t) :=
  ⟨fun u g => (by injection g with g; exact g ▸ h), (fun _ _ g => nomatch g)⟩

theorem OnlyS.after {α : Type} {l L : List Part} {s t : State} {o : Except (State × α) State} (g : OnlyS l t o)
    (w : within l L = true) (h : Only L s t) : OnlyS L s o :=
  ⟨fun u e => (g.of u e).after w h, fun u a e => (g.ofError u a e).after w h⟩

theorem Only.foldlPair {α β : Type} {L : List Part} {f : State × β → α → State × β} {l : List α} {i : State × β}
    {s : State} (hf : ∀ acc a, Only L acc.1 (f acc a).1) (h : Only L s i.1) : Only L s (l.foldl f i).1 := by
  induction l generalizing i with
  | nil => exact h
  | cons a r ih => exact ih (h.trans (hf i a))

theorem Only.foldlPair' {α β : Type} {L : List Part} {f : State × β → α → State × β} {l : List α} {i : State × β}
    {s u : State} {c : β} (hq : l.foldl f i = (u, c)) (hf : ∀ acc a, Only L acc.1 (f acc a).1) (h : Only L s i.1) :
    Only L s u := by
  have g := Only.foldlPair (l := l) hf h
  rw [hq] at g
  exact g

/-- `Only` of a state that is written out field by field. -/
def OnlyMk (L : List Part) (s t : State) : Prop := Only L s t

theorem OnlyMk.mark {L : List Part} {s : State} {a0 a1 a2 a3 a4 a5 a6 a7 a8 a9 a10 a11 a12 a13 a14 a15 a16 a17 a18 a19 a20 a21 a22 a23 a24 a25 a26 a27} :
    Only L s (State.mk a0 a1 a2 a3 a4 a5 a6 a7 a8 a9 a10 a11 a12 a13 a14 a15 a16 a17 a18 a19 a20 a21 a22 a23 a24 a25 a26 a27) = OnlyMk L s (State.mk a0 a1 a2 a3 a4 a5 a6 a7 a8 a9 a10 a11 a12 a13 a14 a15 a16 a17 a18 a19 a20 a21 a22 a23 a24 a25 a26 a27) := rfl

/-- An update of a state whose changed fields all lie in the listed parts. -/
theorem OnlyMk.of {L : List Part} {s x : State} {a1 a2 a3 a4 a5 a6 a7 a8 a9 a10 a11 a12 a13 a14 a15 a16 a17 a18 a19 a20 a21 a22 a23 a24 a25 a26}
    (h : Only L s x)
    (g : ∀ p : Part, p ∉ L → p.same x (State.mk x.now a1 a2 a3 a4 a5 a6 a7 a8 a9 a10 a11 a12 a13 a14 a15 a16 a17 a18 a19 a20 a21 a22 a23 a24 a25 a26 x.pending)) :
    OnlyMk L s (State.mk x.now a1 a2 a3 a4 a5 a6 a7 a8 a9 a10 a11 a12 a13 a14 a15 a16 a17 a18 a19 a20 a21 a22 a23 a24 a25 a26 x.pending) :=
  h.trans ⟨g⟩

theorem Only.setWarden {L : List Part} {s t : State} {f : Warden → Warden}
    (w : Only L t { t with warden := f t.warden }) (h : Only L s t) : Only L s (t.setWarden f) := h.trans w

end Sys2Proof.Machine
end

