-- ==== Sys2Proof/Laws/Frames1.lean ====
section
/-! SUPPORT. Which parts of the state each operation and each meaning of Machine/Ops.lean to Machine/Orders.lean can change, one
lemma each. -/

namespace Sys2Proof.Machine

open Sys2Proof

/-! ## Machine/Ops.lean -/

theorem State.draw_only (s : State) :
    Only [.free] s (State.draw s).2 := by
  unfold State.draw
  iterate 24 all_goals try (first
    | with_reducible exact Only.refl
    | with_reducible assumption
    | decide
    | dsimp only [id]
    | simp only [OnlyMk.mark]
    | ((with_reducible refine OnlyMk.of ?_ ?_); rotate_left; focus (intro p hp; cases p <;> first | exact absurd (by decide) hp | rfl | exact ⟨rfl, rfl⟩)))

theorem State.draw_only' {s : State} {r0 : _} {t0 : State} (hq : State.draw s = (r0, t0)) :
    Only [.free] s t0 := by
  have gq := State.draw_only s
  rw [hq] at gq
  exact gq

theorem State.drawMany_only (s : State) : Only [.free] s (State.drawMany s).2 :=
  ⟨fun p hp => by cases p <;> first | exact absurd (by decide) hp | rfl | exact ⟨rfl, rfl⟩⟩

theorem State.drawMany_only' {s : State} {r0 : _} {t0 : State} (hq : State.drawMany s = (r0, t0)) : Only [.free] s t0 := by
  have gq := State.drawMany_only s
  rw [hq] at gq
  exact gq

theorem State.drawIf_only {c : Prop} [Decidable c] {s t : State} {f g : Nat → Nat}
    (hq : (if c then (f, s) else s.drawMany) = (g, t)) : Only [.free] s t := by
  split at hq
  · injection hq with _ hq
    exact hq ▸ Only.refl
  · exact State.drawMany_only' hq

theorem State.setPort_only (s : State) (p : Nat) (f : HostPort → HostPort) :
    Only [.ports] s (State.setPort s p f) := by
  unfold State.setPort
  iterate 24 all_goals try (first
    | with_reducible exact Only.refl
    | with_reducible assumption
    | decide
    | dsimp only [id]
    | simp only [OnlyMk.mark]
    | ((with_reducible refine OnlyMk.of ?_ ?_); rotate_left; focus (intro p hp; cases p <;> first | exact absurd (by decide) hp | rfl | exact ⟨rfl, rfl⟩)))

theorem State.setIntake_only (s : State) (c : Nat) (f : Intake → Intake) :
    Only [.intakes] s (State.setIntake s c f) := by
  unfold State.setIntake
  iterate 24 all_goals try (first
    | with_reducible exact Only.refl
    | with_reducible assumption
    | decide
    | dsimp only [id]
    | simp only [OnlyMk.mark]
    | ((with_reducible refine OnlyMk.of ?_ ?_); rotate_left; focus (intro p hp; cases p <;> first | exact absurd (by decide) hp | rfl | exact ⟨rfl, rfl⟩)))

theorem State.setVault_only (s : State) (p : Nat) (f : Vault → Vault) :
    Only [.mem] s (State.setVault s p f) := by
  unfold State.setVault
  iterate 24 all_goals try (first
    | with_reducible exact Only.refl
    | with_reducible assumption
    | decide
    | dsimp only [id]
    | simp only [OnlyMk.mark]
    | ((with_reducible refine OnlyMk.of ?_ ?_); rotate_left; focus (intro p hp; cases p <;> first | exact absurd (by decide) hp | rfl | exact ⟨rfl, rfl⟩)))

theorem State.setCore_only (s : State) (p : Nat) (f : Core → Core) :
    Only [.cores] s (State.setCore s p f) := by
  unfold State.setCore
  iterate 24 all_goals try (first
    | with_reducible exact Only.refl
    | with_reducible assumption
    | decide
    | dsimp only [id]
    | simp only [OnlyMk.mark]
    | ((with_reducible refine OnlyMk.of ?_ ?_); rotate_left; focus (intro p hp; cases p <;> first | exact absurd (by decide) hp | rfl | exact ⟨rfl, rfl⟩)))

theorem State.setSl_only (s : State) (n : Nat) (f : SlPort → SlPort) :
    Only [.links] s (State.setSl s n f) := by
  unfold State.setSl
  iterate 24 all_goals try (first
    | with_reducible exact Only.refl
    | with_reducible assumption
    | decide
    | dsimp only [id]
    | simp only [OnlyMk.mark]
    | ((with_reducible refine OnlyMk.of ?_ ?_); rotate_left; focus (intro p hp; cases p <;> first | exact absurd (by decide) hp | rfl | exact ⟨rfl, rfl⟩)))

theorem State.setSeamMod_only (s : State) (m : Nat) (f : SeamMod → SeamMod) :
    Only [.seam] s (State.setSeamMod s m f) := by
  unfold State.setSeamMod
  iterate 24 all_goals try (first
    | with_reducible exact Only.refl
    | with_reducible assumption
    | decide
    | dsimp only [id]
    | simp only [OnlyMk.mark]
    | ((with_reducible refine OnlyMk.of ?_ ?_); rotate_left; focus (intro p hp; cases p <;> first | exact absurd (by decide) hp | rfl | exact ⟨rfl, rfl⟩)))

theorem State.setIc_only (s : State) (c : Nat) (f : Ic → Ic) :
    Only [.ics] s (State.setIc s c f) := by
  unfold State.setIc
  iterate 24 all_goals try (first
    | with_reducible exact Only.refl
    | with_reducible assumption
    | decide
    | dsimp only [id]
    | simp only [OnlyMk.mark]
    | ((with_reducible refine OnlyMk.of ?_ ?_); rotate_left; focus (intro p hp; cases p <;> first | exact absurd (by decide) hp | rfl | exact ⟨rfl, rfl⟩)))

theorem State.setSealed_only (s : State) (f : List SealedSlot → List SealedSlot) :
    Only [.sealed] s (State.setSealed s f) := by
  unfold State.setSealed
  iterate 24 all_goals try (first
    | with_reducible exact Only.refl
    | with_reducible assumption
    | decide
    | dsimp only [id]
    | with_reducible refine Only.setWarden ?_ ?_
    | simp only [OnlyMk.mark]
    | ((with_reducible refine OnlyMk.of ?_ ?_); rotate_left; focus (intro p hp; cases p <;> first | exact absurd (by decide) hp | rfl | exact ⟨rfl, rfl⟩)))

theorem State.setWdog_only (s : State) (c : Nat) (f : Wdog → Wdog) :
    Only [.wdogs] s (State.setWdog s c f) := by
  unfold State.setWdog
  iterate 24 all_goals try (first
    | with_reducible exact Only.refl
    | with_reducible assumption
    | decide
    | dsimp only [id]
    | simp only [OnlyMk.mark]
    | ((with_reducible refine OnlyMk.of ?_ ?_); rotate_left; focus (intro p hp; cases p <;> first | exact absurd (by decide) hp | rfl | exact ⟨rfl, rfl⟩)))

theorem State.setOwnPort_only (s : State) (c : Nat) (f : OwnPort → OwnPort) :
    Only [.ownPorts] s (State.setOwnPort s c f) := by
  unfold State.setOwnPort
  iterate 24 all_goals try (first
    | with_reducible exact Only.refl
    | with_reducible assumption
    | decide
    | dsimp only [id]
    | simp only [OnlyMk.mark]
    | ((with_reducible refine OnlyMk.of ?_ ?_); rotate_left; focus (intro p hp; cases p <;> first | exact absurd (by decide) hp | rfl | exact ⟨rfl, rfl⟩)))

theorem State.setChan_only (s : State) (c : Nat) (f : CvChan → CvChan) :
    Only [.cv] s (State.setChan s c f) := by
  unfold State.setChan
  iterate 24 all_goals try (first
    | with_reducible exact Only.refl
    | with_reducible assumption
    | decide
    | dsimp only [id]
    | simp only [OnlyMk.mark]
    | ((with_reducible refine OnlyMk.of ?_ ?_); rotate_left; focus (intro p hp; cases p <;> first | exact absurd (by decide) hp | rfl | exact ⟨rfl, rfl⟩)))

theorem State.emit_only (s : State) (o : Out) :
    Only [.out] s (State.emit s o) := by
  unfold State.emit
  iterate 24 all_goals try (first
    | with_reducible exact Only.refl
    | with_reducible assumption
    | decide
    | dsimp only [id]
    | simp only [OnlyMk.mark]
    | ((with_reducible refine OnlyMk.of ?_ ?_); rotate_left; focus (intro p hp; cases p <;> first | exact absurd (by decide) hp | rfl | exact ⟨rfl, rfl⟩)))

theorem State.post_only (s : State) (kind : Nat) (unit : Nat) (sev : Nat) (p : Payload) :
    Only [.events] s (State.post s kind unit sev p) := by
  unfold State.post
  iterate 24 all_goals try (first
    | with_reducible exact Only.refl
    | with_reducible assumption
    | decide
    | dsimp only [id]
    | simp only [OnlyMk.mark]
    | ((with_reducible refine OnlyMk.of ?_ ?_); rotate_left; focus (intro p hp; cases p <;> first | exact absurd (by decide) hp | rfl | exact ⟨rfl, rfl⟩)))

theorem State.postArgs_only (s : State) (kind : Nat) (unit : Nat) (sev : Nat) (a0 : Nat) (a1 : Nat) (a2 : Nat) :
    Only [.events] s (State.postArgs s kind unit sev a0 a1 a2) := by
  unfold State.postArgs
  iterate 24 all_goals try (first
    | with_reducible exact Only.refl
    | with_reducible assumption
    | decide
    | dsimp only [id]
    | with_reducible apply Only.after (State.post_only ..))

theorem State.raiseIn_only (s : State) (cluster : Nat) (src : Nat) :
    Only [.ics] s (State.raiseIn s cluster src) := by
  unfold State.raiseIn
  iterate 24 all_goals try (first
    | with_reducible exact Only.refl
    | with_reducible assumption
    | decide
    | dsimp only [id]
    | with_reducible apply Only.after (State.setIc_only ..))

theorem State.raise_only (s : State) (src : Nat) :
    Only [.ics] s (State.raise s src) := by
  unfold State.raise
  iterate 24 all_goals try (first
    | with_reducible exact Only.refl
    | with_reducible assumption
    | decide
    | dsimp only [id]
    | with_reducible apply Only.after (State.raiseIn_only ..))

theorem State.raiseFast_only (s : State) (src : Nat) :
    Only [.ics] s (State.raiseFast s src) := by
  unfold State.raiseFast
  iterate 24 all_goals try (first
    | with_reducible exact Only.refl
    | with_reducible assumption
    | decide
    | dsimp only [id]
    | with_reducible apply Only.after (State.raiseIn_only ..)
    | with_reducible refine Only.foldl _ ?_ ?_
    | with_reducible refine Only.foldlPair ?_ ?_
    | with_reducible refine Only.foldlPair' (by assumption) ?_ ?_
    | with_reducible intro _)

theorem State.putHost_only (s : State) (p : Fin 2) (w : HostOut) :
    Only [.hostMem, .out] s (State.putHost s p w) := by
  unfold State.putHost
  iterate 24 all_goals try (first
    | with_reducible exact Only.refl
    | with_reducible assumption
    | decide
    | dsimp only [id]
    | with_reducible apply Only.after (State.emit_only ..)
    | simp only [OnlyMk.mark]
    | ((with_reducible refine OnlyMk.of ?_ ?_); rotate_left; focus (intro p hp; cases p <;> first | exact absurd (by decide) hp | rfl | exact ⟨rfl, rfl⟩))
    | with_reducible intro _
    | split)

theorem State.sendHost_only (s : State) (p : Fin 2) (w : HostOut) :
    Only [.ports, .hostMem, .out] s (State.sendHost s p w) := by
  unfold State.sendHost
  iterate 24 all_goals try (first
    | with_reducible exact Only.refl
    | with_reducible assumption
    | decide
    | dsimp only [id]
    | with_reducible apply Only.after (State.setPort_only ..)
    | with_reducible apply Only.after (State.putHost_only ..)
    | with_reducible intro _
    | split)

theorem State.msix_only (s : State) (p : Fin 2) (v : Nat) :
    Only [.ports, .hostMem, .out] s (State.msix s p v) := by
  unfold State.msix
  iterate 24 all_goals try (first
    | with_reducible exact Only.refl
    | with_reducible assumption
    | decide
    | dsimp only [id]
    | with_reducible apply Only.after (State.sendHost_only ..)
    | with_reducible apply Only.after (State.setPort_only ..)
    | with_reducible intro _
    | split)

theorem State.ibi_only (s : State) (b : BitVec 8) :
    Only [.i3c] s (State.ibi s b) := by
  unfold State.ibi
  iterate 24 all_goals try (first
    | with_reducible exact Only.refl
    | with_reducible assumption
    | decide
    | dsimp only [id]
    | simp only [OnlyMk.mark]
    | ((with_reducible refine OnlyMk.of ?_ ?_); rotate_left; focus (intro p hp; cases p <;> first | exact absurd (by decide) hp | rfl | exact ⟨rfl, rfl⟩))
    | with_reducible intro _
    | split)

theorem State.signalV0_only (s : State) (p : Fin 2) :
    Only [.ports, .hostMem, .out] s (State.signalV0 s p) := by
  unfold State.signalV0
  iterate 24 all_goals try (first
    | with_reducible exact Only.refl
    | with_reducible assumption
    | decide
    | dsimp only [id]
    | with_reducible apply Only.after (State.setPort_only ..)
    | with_reducible apply Only.after (State.msix_only ..)
    | with_reducible intro _
    | split)

theorem State.signalLs_only (s : State) :
    Only [.lsChanges, .ports, .hostMem, .i3c, .out] s (State.signalLs s) := by
  unfold State.signalLs
  iterate 24 all_goals try (first
    | with_reducible exact Only.refl
    | with_reducible assumption
    | decide
    | dsimp only [id]
    | with_reducible apply Only.after (State.ibi_only ..)
    | with_reducible apply Only.after (State.signalV0_only ..)
    | with_reducible refine Only.foldl _ ?_ ?_
    | with_reducible refine Only.foldlPair ?_ ?_
    | with_reducible refine Only.foldlPair' (by assumption) ?_ ?_
    | simp only [OnlyMk.mark]
    | ((with_reducible refine OnlyMk.of ?_ ?_); rotate_left; focus (intro p hp; cases p <;> first | exact absurd (by decide) hp | rfl | exact ⟨rfl, rfl⟩))
    | with_reducible intro _)

theorem settle_only (s : State) (t : State) :
    Only [.lsChanges, .ports, .hostMem, .i3c, .out] t (settle s t) := by
  unfold settle
  iterate 24 all_goals try (first
    | with_reducible exact Only.refl
    | with_reducible assumption
    | decide
    | dsimp only [id]
    | with_reducible apply Only.after (State.signalLs_only ..)
    | with_reducible intro _
    | split)

theorem State.geoChange_only (s : State) (cause : Nat) (unit : Nat) :
    Only [.lsChanges, .geo, .ports, .hostMem, .events, .i3c, .out] s (State.geoChange s cause unit) := by
  unfold State.geoChange
  iterate 24 all_goals try (first
    | with_reducible exact Only.refl
    | with_reducible assumption
    | decide
    | dsimp only [id]
    | with_reducible apply Only.after (State.postArgs_only ..)
    | with_reducible apply Only.after (State.signalLs_only ..)
    | simp only [OnlyMk.mark]
    | ((with_reducible refine OnlyMk.of ?_ ?_); rotate_left; focus (intro p hp; cases p <;> first | exact absurd (by decide) hp | rfl | exact ⟨rfl, rfl⟩))
    | with_reducible intro _
    | split)

/-! ## Machine/Flits.lean -/

theorem State.emitSeq_only (s : State) (n : Nat) (e : Replay) :
    Only [.out] s (State.emitSeq s n e) := by
  unfold State.emitSeq
  iterate 24 all_goals try (first
    | with_reducible exact Only.refl
    | with_reducible assumption
    | decide
    | dsimp only [id]
    | with_reducible apply Only.after (State.emit_only ..))

theorem State.drainTx_only (s : State) (n : Nat) :
    Only [.links, .out] s (State.drainTx s n) := by
  unfold State.drainTx
  iterate 24 all_goals try (first
    | with_reducible exact Only.refl
    | with_reducible assumption
    | decide
    | dsimp only [id]
    | with_reducible apply Only.after (State.emitSeq_only ..)
    | with_reducible apply Only.after (State.setSl_only ..)
    | with_reducible refine Only.foldl _ ?_ ?_
    | with_reducible refine Only.foldlPair ?_ ?_
    | with_reducible refine Only.foldlPair' (by assumption) ?_ ?_
    | with_reducible intro _
    | split)

theorem State.linkPeriod_only (s : State) :
    Only [.links, .out] s (State.linkPeriod s) := by
  unfold State.linkPeriod
  iterate 24 all_goals try (first
    | with_reducible exact Only.refl
    | with_reducible assumption
    | decide
    | dsimp only [id]
    | with_reducible apply Only.after (State.drainTx_only ..)
    | with_reducible apply Only.after (State.setSl_only ..)
    | with_reducible refine Only.foldl _ ?_ ?_
    | with_reducible refine Only.foldlPair ?_ ?_
    | with_reducible refine Only.foldlPair' (by assumption) ?_ ?_
    | with_reducible intro _)

theorem State.sendSeq_only (s : State) (n : Nat) (vc : Fin 4) (f : Flit) :
    Only [.links, .out] s (State.sendSeq s n vc f) := by
  unfold State.sendSeq
  iterate 24 all_goals try (first
    | with_reducible exact Only.refl
    | with_reducible assumption
    | decide
    | dsimp only [id]
    | with_reducible apply Only.after (State.drainTx_only ..)
    | with_reducible apply Only.after (State.setSl_only ..)
    | with_reducible intro _
    | split)

theorem State.sendUnseq_only (s : State) (n : Nat) (f : Flit) :
    Only [.links, .out] s (State.sendUnseq s n f) := by
  unfold State.sendUnseq
  iterate 24 all_goals try (first
    | with_reducible exact Only.refl
    | with_reducible assumption
    | decide
    | dsimp only [id]
    | with_reducible apply Only.after (State.emit_only ..)
    | with_reducible apply Only.after (State.setSl_only ..)
    | with_reducible intro _
    | split)

theorem State.toPeer_only (s : State) (mk : BitVec 12 → Flit) :
    Only [.links, .out] s (State.toPeer s mk) := by
  unfold State.toPeer
  iterate 24 all_goals try (first
    | with_reducible exact Only.refl
    | with_reducible assumption
    | decide
    | dsimp only [id]
    | with_reducible apply Only.after (State.sendSeq_only ..)
    | with_reducible intro _
    | split)

/-! ## Machine/Vaults.lean -/

theorem State.addLog_only (s : State) (pair : Nat) (bank : Nat) (kind : Nat) (row : Nat) (col : Nat) (symbol : Nat) (source : Nat) (group : Nat) (addr : Nat) :
    Only [.ics, .mem, .events] s (State.addLog s pair bank kind row col symbol source group addr) := by
  unfold State.addLog
  iterate 24 all_goals try (first
    | with_reducible exact Only.refl
    | with_reducible assumption
    | decide
    | dsimp only [id]
    | with_reducible apply Only.after (State.raise_only ..)
    | with_reducible apply Only.after (State.post_only ..)
    | simp only [OnlyMk.mark]
    | ((with_reducible refine OnlyMk.of ?_ ?_); rotate_left; focus (intro p hp; cases p <;> first | exact absurd (by decide) hp | rfl | exact ⟨rfl, rfl⟩))
    | with_reducible intro _
    | split)

theorem State.logWord_only (s : State) (pair : Nat) (w : Nat) (kind : Nat) (symbol : Nat) (source : Nat) :
    Only [.ics, .mem, .events] s (State.logWord s pair w kind symbol source) := by
  unfold State.logWord
  iterate 24 all_goals try (first
    | with_reducible exact Only.refl
    | with_reducible assumption
    | decide
    | dsimp only [id]
    | with_reducible apply Only.after (State.addLog_only ..))

theorem State.logVault_only (s : State) (pair : Nat) (kind : Nat) (source : Nat) (group : Nat) (addr : Nat) :
    Only [.ics, .mem, .events] s (State.logVault s pair kind source group addr) := by
  unfold State.logVault
  iterate 24 all_goals try (first
    | with_reducible exact Only.refl
    | with_reducible assumption
    | decide
    | dsimp only [id]
    | with_reducible apply Only.after (State.addLog_only ..))

theorem State.checkWord_only (s : State) (pair : Nat) (w : Nat) (src : Nat) :
    Only [.ics, .mem, .events, .free] s (State.checkWord s pair w src).2 := by
  unfold State.checkWord
  iterate 24 all_goals try (first
    | with_reducible exact Only.refl
    | with_reducible assumption
    | decide
    | dsimp only [id]
    | with_reducible refine Only.after (State.drawIf_only (by assumption)) (by decide) ?_
    | with_reducible apply Only.after (State.drawMany_only ..)
    | with_reducible refine Only.after (State.drawMany_only' (hq := by assumption)) (by decide) ?_
    | with_reducible apply Only.after (State.setVault_only ..)
    | with_reducible apply Only.after (State.logWord_only ..)
    | with_reducible intro _
    | split)

theorem State.checkWord_only' {s : State} {pair : Nat} {w : Nat} {src : Nat} {r0 : _} {t0 : State} (hq : State.checkWord s pair w src = (r0, t0)) :
    Only [.ics, .mem, .events, .free] s t0 := by
  have gq := State.checkWord_only s pair w src
  rw [hq] at gq
  exact gq

theorem State.setValid_only (s : State) (pair : Nat) (block : Nat) :
    Only [.mem] s (State.setValid s pair block) := by
  unfold State.setValid
  iterate 24 all_goals try (first
    | with_reducible exact Only.refl
    | with_reducible assumption
    | decide
    | dsimp only [id]
    | with_reducible apply Only.after (State.setVault_only ..))

theorem State.poisonBlock_only (s : State) (pair : Nat) (block : Nat) :
    Only [.mem] s (State.poisonBlock s pair block) := by
  unfold State.poisonBlock
  iterate 24 all_goals try (first
    | with_reducible exact Only.refl
    | with_reducible assumption
    | decide
    | dsimp only [id]
    | with_reducible apply Only.after (State.setValid_only ..)
    | with_reducible apply Only.after (State.setVault_only ..)
    | with_reducible refine Only.foldl _ ?_ ?_
    | with_reducible refine Only.foldlPair ?_ ?_
    | with_reducible refine Only.foldlPair' (by assumption) ?_ ?_
    | simp only [OnlyMk.mark]
    | ((with_reducible refine OnlyMk.of ?_ ?_); rotate_left; focus (intro p hp; cases p <;> first | exact absurd (by decide) hp | rfl | exact ⟨rfl, rfl⟩)))

theorem State.readMap_only (s : State) (pair : Nat) (block : Nat) (src : Nat) :
    Only [.ics, .mem, .events] s (State.readMap s pair block src) := by
  unfold State.readMap
  iterate 24 all_goals try (first
    | with_reducible exact Only.refl
    | with_reducible assumption
    | decide
    | dsimp only [id]
    | with_reducible apply Only.after (State.setVault_only ..)
    | with_reducible apply Only.after (State.addLog_only ..)
    | with_reducible apply Only.after (State.poisonBlock_only ..)
    | with_reducible refine Only.foldl _ ?_ ?_
    | with_reducible refine Only.foldlPair ?_ ?_
    | with_reducible refine Only.foldlPair' (by assumption) ?_ ?_
    | with_reducible intro _
    | split)

theorem State.readWord_only (s : State) (pair : Nat) (w : Nat) (src : Nat) :
    Only [.ics, .mem, .events, .free] s (State.readWord s pair w src).2 := by
  unfold State.readWord
  iterate 24 all_goals try (first
    | with_reducible exact Only.refl
    | with_reducible assumption
    | decide
    | dsimp only [id]
    | with_reducible apply Only.after (State.readMap_only ..)
    | with_reducible apply Only.after (State.checkWord_only ..)
    | with_reducible refine Only.after (State.checkWord_only' (hq := by assumption)) (by decide) ?_
    | with_reducible apply Only.after (State.logWord_only ..)
    | with_reducible intro _
    | split)

theorem State.readWord_only' {s : State} {pair : Nat} {w : Nat} {src : Nat} {r0 : _} {t0 : State} (hq : State.readWord s pair w src = (r0, t0)) :
    Only [.ics, .mem, .events, .free] s t0 := by
  have gq := State.readWord_only s pair w src
  rw [hq] at gq
  exact gq

theorem State.fillBlock_only (s : State) (pair : Nat) (block : Nat) :
    Only [.ics, .mem, .events] s (State.fillBlock s pair block) := by
  unfold State.fillBlock
  iterate 24 all_goals try (first
    | with_reducible exact Only.refl
    | with_reducible assumption
    | decide
    | dsimp only [id]
    | with_reducible apply Only.after (State.readMap_only ..)
    | with_reducible apply Only.after (State.setValid_only ..)
    | with_reducible apply Only.after (State.setVault_only ..)
    | simp only [OnlyMk.mark]
    | ((with_reducible refine OnlyMk.of ?_ ?_); rotate_left; focus (intro p hp; cases p <;> first | exact absurd (by decide) hp | rfl | exact ⟨rfl, rfl⟩))
    | with_reducible intro _
    | split)

theorem State.storeWord_only (s : State) (pair : Nat) (w : Nat) (bs : List Byte) :
    Only [.ics, .mem, .events] s (State.storeWord s pair w bs) := by
  unfold State.storeWord
  iterate 24 all_goals try (first
    | with_reducible exact Only.refl
    | with_reducible assumption
    | decide
    | dsimp only [id]
    | with_reducible apply Only.after (State.fillBlock_only ..)
    | with_reducible apply Only.after (State.setVault_only ..)
    | simp only [OnlyMk.mark]
    | ((with_reducible refine OnlyMk.of ?_ ?_); rotate_left; focus (intro p hp; cases p <;> first | exact absurd (by decide) hp | rfl | exact ⟨rfl, rfl⟩)))

theorem State.poisonWord_only (s : State) (pair : Nat) (w : Nat) :
    Only [.ics, .mem, .events] s (State.poisonWord s pair w) := by
  unfold State.poisonWord
  iterate 24 all_goals try (first
    | with_reducible exact Only.refl
    | with_reducible assumption
    | decide
    | dsimp only [id]
    | with_reducible apply Only.after (State.setVault_only ..)
    | with_reducible apply Only.after (State.fillBlock_only ..))

theorem State.failOwners_only (s : State) (owners : List (Nat × Nat)) (addr : Nat) :
    Only [.commands] s (State.failOwners s owners addr) := by
  unfold State.failOwners
  iterate 24 all_goals try (first
    | with_reducible exact Only.refl
    | with_reducible assumption
    | decide
    | dsimp only [id]
    | simp only [OnlyMk.mark]
    | ((with_reducible refine OnlyMk.of ?_ ?_); rotate_left; focus (intro p hp; cases p <;> first | exact absurd (by decide) hp | rfl | exact ⟨rfl, rfl⟩)))

theorem State.writeOut_only (s : State) (pair : Nat) (e : MergeEntry) :
    Only [.ics, .commands, .mem, .events, .free] s (State.writeOut s pair e) := by
  unfold State.writeOut
  iterate 24 all_goals try (first
    | with_reducible exact Only.refl
    | with_reducible assumption
    | decide
    | dsimp only [id]
    | with_reducible apply Only.after (State.setVault_only ..)
    | with_reducible apply Only.after (State.storeWord_only ..)
    | with_reducible apply Only.after (State.readMap_only ..)
    | with_reducible apply Only.after (State.checkWord_only ..)
    | with_reducible refine Only.after (State.checkWord_only' (hq := by assumption)) (by decide) ?_
    | with_reducible apply Only.after (State.failOwners_only ..)
    | with_reducible apply Only.after (State.logWord_only ..)
    | with_reducible apply Only.after (State.poisonWord_only ..)
    | with_reducible intro _
    | split)

theorem State.flushMerge_only (s : State) (pair : Nat) :
    Only [.ics, .commands, .mem, .events, .free] s (State.flushMerge s pair) := by
  unfold State.flushMerge
  iterate 24 all_goals try (first
    | with_reducible exact Only.refl
    | with_reducible assumption
    | decide
    | dsimp only [id]
    | with_reducible apply Only.after (State.writeOut_only ..)
    | with_reducible refine Only.foldl _ ?_ ?_
    | with_reducible refine Only.foldlPair ?_ ?_
    | with_reducible refine Only.foldlPair' (by assumption) ?_ ?_
    | with_reducible intro _)

theorem State.mergeWrite_only (s : State) (pair : Nat) (w : Nat) (pos : Nat) (bs : List Byte) (who : Nat × Nat) :
    Only [.ics, .commands, .mem, .events, .free] s (State.mergeWrite s pair w pos bs who) := by
  unfold State.mergeWrite
  iterate 24 all_goals try (first
    | with_reducible exact Only.refl
    | with_reducible assumption
    | decide
    | dsimp only [id]
    | with_reducible apply Only.after (State.writeOut_only ..)
    | with_reducible apply Only.after (State.setVault_only ..)
    | with_reducible intro _
    | split)

theorem State.writeWord_only (s : State) (pair : Nat) (w : Nat) (pos : Nat) (bs : List Byte) (who : Nat × Nat) :
    Only [.ics, .commands, .mem, .events, .free] s (State.writeWord s pair w pos bs who) := by
  unfold State.writeWord
  iterate 24 all_goals try (first
    | with_reducible exact Only.refl
    | with_reducible assumption
    | decide
    | dsimp only [id]
    | with_reducible apply Only.after (State.storeWord_only ..)
    | with_reducible apply Only.after (State.setVault_only ..)
    | with_reducible apply Only.after (State.mergeWrite_only ..)
    | with_reducible intro _
    | split)

theorem State.setSlice_only (s : State) (t : Nat) (f : Slice → Slice) :
    Only [.mem] s (State.setSlice s t f) := by
  unfold State.setSlice
  iterate 24 all_goals try (first
    | with_reducible exact Only.refl
    | with_reducible assumption
    | decide
    | dsimp only [id]
    | simp only [OnlyMk.mark]
    | ((with_reducible refine OnlyMk.of ?_ ?_); rotate_left; focus (intro p hp; cases p <;> first | exact absurd (by decide) hp | rfl | exact ⟨rfl, rfl⟩)))

theorem State.writeBack_only (s : State) (pair : Nat) (l : Line) :
    Only [.ics, .commands, .mem, .events, .free] s (State.writeBack s pair l) := by
  unfold State.writeBack
  iterate 24 all_goals try (first
    | with_reducible exact Only.refl
    | with_reducible assumption
    | decide
    | dsimp only [id]
    | with_reducible apply Only.after (State.writeWord_only ..)
    | with_reducible refine Only.foldl _ ?_ ?_
    | with_reducible refine Only.foldlPair ?_ ?_
    | with_reducible refine Only.foldlPair' (by assumption) ?_ ?_
    | with_reducible intro _
    | split)

theorem State.dropLine_only (s : State) (line : Nat) :
    Only [.mem] s (State.dropLine s line) := by
  unfold State.dropLine
  iterate 24 all_goals try (first
    | with_reducible exact Only.refl
    | with_reducible assumption
    | decide
    | dsimp only [id]
    | with_reducible apply Only.after (State.setSlice_only ..))

theorem State.badLine_only (s : State) (pair : Nat) (l : Line) :
    Only [.ics, .mem, .events] s (State.badLine s pair l) := by
  unfold State.badLine
  iterate 24 all_goals try (first
    | with_reducible exact Only.refl
    | with_reducible assumption
    | decide
    | dsimp only [id]
    | with_reducible apply Only.after (State.dropLine_only ..)
    | with_reducible apply Only.after (State.logWord_only ..)
    | with_reducible apply Only.after (State.poisonWord_only ..)
    | with_reducible refine Only.foldl _ ?_ ?_
    | with_reducible refine Only.foldlPair ?_ ?_
    | with_reducible refine Only.foldlPair' (by assumption) ?_ ?_
    | with_reducible intro _
    | split)

theorem State.lineOf_only (s : State) (pair : Nat) (off : Nat) :
    Only [.ics, .mem, .events] s (State.lineOf s pair off).2 := by
  unfold State.lineOf
  iterate 24 all_goals try (first
    | with_reducible exact Only.refl
    | with_reducible assumption
    | decide
    | dsimp only [id]
    | with_reducible apply Only.after (State.badLine_only ..)
    | with_reducible intro _
    | split)

theorem State.lineOf_only' {s : State} {pair : Nat} {off : Nat} {r0 : _} {t0 : State} (hq : State.lineOf s pair off = (r0, t0)) :
    Only [.ics, .mem, .events] s t0 := by
  have gq := State.lineOf_only s pair off
  rw [hq] at gq
  exact gq

theorem State.evict_only (s : State) (l : Line) :
    Only [.ics, .commands, .mem, .events, .free] s (State.evict s l) := by
  unfold State.evict
  iterate 24 all_goals try (first
    | with_reducible exact Only.refl
    | with_reducible assumption
    | decide
    | dsimp only [id]
    | with_reducible apply Only.after (State.badLine_only ..)
    | with_reducible apply Only.after (State.dropLine_only ..)
    | with_reducible apply Only.after (State.writeBack_only ..)
    | with_reducible intro _
    | split)

theorem State.makeRoom_only (s : State) (line : Nat) :
    Only [.ics, .commands, .mem, .events, .free] s (State.makeRoom s line) := by
  unfold State.makeRoom
  iterate 24 all_goals try (first
    | with_reducible exact Only.refl
    | with_reducible assumption
    | decide
    | dsimp only [id]
    | with_reducible apply Only.after (State.draw_only ..)
    | with_reducible refine Only.after (State.draw_only' (hq := by assumption)) (by decide) ?_
    | with_reducible apply Only.after (State.evict_only ..)
    | with_reducible intro _
    | split)

theorem State.allocate_only (s : State) (line : Nat) (data : List Byte) (dirty : List Nat) :
    Only [.ics, .commands, .mem, .events, .free] s (State.allocate s line data dirty) := by
  unfold State.allocate
  iterate 24 all_goals try (first
    | with_reducible exact Only.refl
    | with_reducible assumption
    | decide
    | dsimp only [id]
    | with_reducible apply Only.after (State.setSlice_only ..)
    | with_reducible apply Only.after (State.makeRoom_only ..))

theorem State.flushSlice_only (s : State) (pair : Nat) :
    Only [.ics, .commands, .mem, .events, .free] s (State.flushSlice s pair) := by
  unfold State.flushSlice
  iterate 24 all_goals try (first
    | with_reducible exact Only.refl
    | with_reducible assumption
    | decide
    | dsimp only [id]
    | with_reducible apply Only.after (State.evict_only ..)
    | with_reducible refine Only.foldl _ ?_ ?_
    | with_reducible refine Only.foldlPair ?_ ?_
    | with_reducible refine Only.foldlPair' (by assumption) ?_ ?_
    | with_reducible intro _)

theorem State.dropHeld_only (s : State) (pair : Nat) (inRange : Nat → Bool) :
    Only [.mem] s (State.dropHeld s pair inRange) := by
  unfold State.dropHeld
  iterate 24 all_goals try (first
    | with_reducible exact Only.refl
    | with_reducible assumption
    | decide
    | dsimp only [id]
    | with_reducible apply Only.after (State.setSlice_only ..)
    | with_reducible apply Only.after (State.setVault_only ..))

theorem Io.halt_only (s : State) (st : Status) (detail : Nat) (result : Nat) (deg : Bool) :
    Only [] s (Io.halt s st detail result deg).s := by
  unfold Io.halt
  iterate 24 all_goals try (first
    | with_reducible exact Only.refl)

theorem State.readWords_only (s : State) (pair : Nat) (w : Nat) (src : Nat) (x1 : Nat) :
    Only [.ics, .mem, .events, .free] s (State.readWords s pair w src x1).2.1 := by
  fun_induction State.readWords s pair w src x1
  all_goals try simp_all only
  iterate 24 all_goals try (first
    | with_reducible exact Only.refl
    | with_reducible assumption
    | decide
    | dsimp only [id]
    | with_reducible apply Only.after (State.readWord_only ..)
    | with_reducible refine Only.after (State.readWord_only' (hq := by assumption)) (by decide) ?_
    | with_reducible refine Only.trans ?_ (by assumption))

theorem State.readWords_only' {s : State} {pair : Nat} {w : Nat} {src : Nat} {x1 : Nat} {r0 : _} {t0 : State} {c0 : _} (hq : State.readWords s pair w src x1 = (r0, t0, c0)) :
    Only [.ics, .mem, .events, .free] s t0 := by
  have gq := State.readWords_only s pair w src x1
  rw [hq] at gq
  exact gq

theorem State.fillWords_only (s : State) (pair : Nat) (w : Nat) (src : Nat) (x1 : Nat) :
    Only [.ics, .mem, .events, .free] s (State.fillWords s pair w src x1).2 := by
  fun_induction State.fillWords s pair w src x1
  all_goals try simp_all only
  iterate 24 all_goals try (first
    | with_reducible exact Only.refl
    | with_reducible assumption
    | decide
    | dsimp only [id]
    | with_reducible apply Only.after (State.readWord_only ..)
    | with_reducible refine Only.after (State.readWord_only' (hq := by assumption)) (by decide) ?_
    | with_reducible refine Only.trans ?_ (by assumption))

theorem State.fillWords_only' {s : State} {pair : Nat} {w : Nat} {src : Nat} {x1 : Nat} {r0 : _} {t0 : State} (hq : State.fillWords s pair w src x1 = (r0, t0)) :
    Only [.ics, .mem, .events, .free] s t0 := by
  have gq := State.fillWords_only s pair w src x1
  rw [hq] at gq
  exact gq

theorem State.dirtyLineOf_only (s : State) (pair : Nat) (off : Nat) :
    Only [.ics, .mem, .events] s (State.dirtyLineOf s pair off).2 := by
  unfold State.dirtyLineOf
  iterate 24 all_goals try (first
    | with_reducible exact Only.refl
    | with_reducible assumption
    | decide
    | dsimp only [id]
    | with_reducible apply Only.after (State.lineOf_only ..)
    | with_reducible refine Only.after (State.lineOf_only' (hq := by assumption)) (by decide) ?_
    | with_reducible intro _
    | split)

theorem State.dirtyLineOf_only' {s : State} {pair : Nat} {off : Nat} {r0 : _} {t0 : State} (hq : State.dirtyLineOf s pair off = (r0, t0)) :
    Only [.ics, .mem, .events] s t0 := by
  have gq := State.dirtyLineOf_only s pair off
  rw [hq] at gq
  exact gq

theorem State.readLine_only (s : State) (pair : Nat) (off : Nat) (n : Nat) (near : Bool) (cls : Nat) :
    Only [.ics, .commands, .mem, .events, .free] s (State.readLine s pair off n near cls).2.s := by
  unfold State.readLine
  iterate 24 all_goals try (first
    | with_reducible exact Only.refl
    | with_reducible assumption
    | decide
    | dsimp only [Io.halt]
    | with_reducible apply Only.after (Io.halt_only ..)
    | with_reducible apply Only.after (State.dirtyLineOf_only ..)
    | with_reducible refine Only.after (State.dirtyLineOf_only' (hq := by assumption)) (by decide) ?_
    | with_reducible apply Only.after (State.lineOf_only ..)
    | with_reducible refine Only.after (State.lineOf_only' (hq := by assumption)) (by decide) ?_
    | with_reducible apply Only.after (State.fillWords_only ..)
    | with_reducible refine Only.after (State.fillWords_only' (hq := by assumption)) (by decide) ?_
    | with_reducible apply Only.after (State.allocate_only ..)
    | with_reducible apply Only.after (State.readWords_only ..)
    | with_reducible refine Only.after (State.readWords_only' (hq := by assumption)) (by decide) ?_
    | with_reducible intro _
    | split)

theorem State.readLine_only' {s : State} {pair : Nat} {off : Nat} {n : Nat} {near : Bool} {cls : Nat} {r0 : _} {t0 : Io} (hq : State.readLine s pair off n near cls = (r0, t0)) :
    Only [.ics, .commands, .mem, .events, .free] s t0.s := by
  have gq := State.readLine_only s pair off n near cls
  rw [hq] at gq
  exact gq

theorem State.writeWords_only (s : State) (pair : Nat) (off : Nat) (bs : List Byte) (who : Nat × Nat) (x1 : Nat) :
    Only [.ics, .commands, .mem, .events, .free] s (State.writeWords s pair off bs who x1) := by
  fun_induction State.writeWords s pair off bs who x1
  iterate 24 all_goals try (first
    | with_reducible exact Only.refl
    | with_reducible assumption
    | decide
    | dsimp only [id]
    | with_reducible apply Only.after (State.writeWord_only ..)
    | with_reducible refine Only.trans ?_ (by assumption))

theorem State.writeLine_only (s : State) (pair : Nat) (off : Nat) (bs : List Byte) (near : Bool) (cls : Nat) (who : Nat × Nat) :
    Only [.ics, .commands, .mem, .events, .free] s (State.writeLine s pair off bs near cls who).s := by
  unfold State.writeLine
  iterate 24 all_goals try (first
    | with_reducible exact Only.refl
    | with_reducible assumption
    | decide
    | dsimp only [Io.halt]
    | with_reducible apply Only.after (Io.halt_only ..)
    | with_reducible apply Only.after (State.lineOf_only ..)
    | with_reducible refine Only.after (State.lineOf_only' (hq := by assumption)) (by decide) ?_
    | with_reducible apply Only.after (State.writeWords_only ..)
    | with_reducible apply Only.after (State.evict_only ..)
    | with_reducible apply Only.after (State.setSlice_only ..)
    | with_reducible apply Only.after (State.allocate_only ..)
    | with_reducible refine Only.foldl _ ?_ ?_
    | with_reducible refine Only.foldlPair ?_ ?_
    | with_reducible refine Only.foldlPair' (by assumption) ?_ ?_
    | with_reducible intro _
    | split)

theorem reachStop_only (s : State) (x1 : Reach) :
    Only [] s (reachStop s x1).s := by
  unfold reachStop
  iterate 24 all_goals try (first
    | with_reducible exact Only.refl
    | with_reducible assumption
    | decide
    | dsimp only [Io.halt]
    | with_reducible apply Only.after (Io.halt_only ..)
    | with_reducible intro _
    | split)

theorem State.zeroBlock_only (s : State) (pair : Nat) (block : Nat) :
    Only [.ics, .mem, .events] s (State.zeroBlock s pair block) := by
  unfold State.zeroBlock
  iterate 24 all_goals try (first
    | with_reducible exact Only.refl
    | with_reducible assumption
    | decide
    | dsimp only [id]
    | with_reducible apply Only.after (State.dropHeld_only ..)
    | with_reducible apply Only.after (State.readMap_only ..)
    | with_reducible apply Only.after (State.setVault_only ..)
    | simp only [OnlyMk.mark]
    | ((with_reducible refine OnlyMk.of ?_ ?_); rotate_left; focus (intro p hp; cases p <;> first | exact absurd (by decide) hp | rfl | exact ⟨rfl, rfl⟩))
    | with_reducible intro _
    | split)

theorem State.zeroRange_only (s : State) (a : Nat) (n : Nat) :
    Only [.ics, .mem, .events] s (State.zeroRange s a n) := by
  unfold State.zeroRange
  iterate 24 all_goals try (first
    | with_reducible exact Only.refl
    | with_reducible assumption
    | decide
    | dsimp only [id]
    | with_reducible apply Only.after (State.zeroBlock_only ..)
    | with_reducible refine Only.foldl _ ?_ ?_
    | with_reducible refine Only.foldlPair ?_ ?_
    | with_reducible refine Only.foldlPair' (by assumption) ?_ ?_
    | with_reducible intro _
    | split)

theorem State.releaseRange_only (s : State) (r : SealedRange) :
    Only [.ics, .mem, .events, .trust] s (State.releaseRange s r) := by
  unfold State.releaseRange
  iterate 24 all_goals try (first
    | with_reducible exact Only.refl
    | with_reducible assumption
    | decide
    | dsimp only [id]
    | with_reducible apply Only.after (State.zeroRange_only ..)
    | with_reducible refine Only.foldl _ ?_ ?_
    | with_reducible refine Only.foldlPair ?_ ?_
    | with_reducible refine Only.foldlPair' (by assumption) ?_ ?_
    | simp only [OnlyMk.mark]
    | ((with_reducible refine OnlyMk.of ?_ ?_); rotate_left; focus (intro p hp; cases p <;> first | exact absurd (by decide) hp | rfl | exact ⟨rfl, rfl⟩))
    | with_reducible intro _
    | split)

theorem State.sweepRanges_only (s : State) :
    Only [.ics, .mem, .events, .trust] s (State.sweepRanges s) := by
  unfold State.sweepRanges
  iterate 24 all_goals try (first
    | with_reducible exact Only.refl
    | with_reducible assumption
    | decide
    | dsimp only [id]
    | with_reducible apply Only.after (State.releaseRange_only ..)
    | with_reducible refine Only.foldl _ ?_ ?_
    | with_reducible refine Only.foldlPair ?_ ?_
    | with_reducible refine Only.foldlPair' (by assumption) ?_ ?_
    | with_reducible intro _)

theorem State.drainRanges_only (s : State) :
    Only [.ics, .mem, .events, .trust] s (State.drainRanges s) := by
  unfold State.drainRanges
  iterate 24 all_goals try (first
    | with_reducible exact Only.refl
    | with_reducible assumption
    | decide
    | dsimp only [id]
    | with_reducible apply Only.after (State.sweepRanges_only ..)
    | simp only [OnlyMk.mark]
    | ((with_reducible refine OnlyMk.of ?_ ?_); rotate_left; focus (intro p hp; cases p <;> first | exact absurd (by decide) hp | rfl | exact ⟨rfl, rfl⟩)))

/-! ## Machine/Records.lean -/

theorem State.addRec_only (s : State) (r : Rec) :
    Only [.commands] s (State.addRec s r) := by
  unfold State.addRec
  iterate 24 all_goals try (first
    | with_reducible exact Only.refl
    | with_reducible assumption
    | decide
    | dsimp only [id]
    | simp only [OnlyMk.mark]
    | ((with_reducible refine OnlyMk.of ?_ ?_); rotate_left; focus (intro p hp; cases p <;> first | exact absurd (by decide) hp | rfl | exact ⟨rfl, rfl⟩)))

theorem State.setCmd_only (s : State) (tag : Nat) (f : Cmd → Cmd) :
    Only [.commands] s (State.setCmd s tag f) := by
  unfold State.setCmd
  iterate 24 all_goals try (first
    | with_reducible exact Only.refl
    | with_reducible assumption
    | decide
    | dsimp only [id]
    | simp only [OnlyMk.mark]
    | ((with_reducible refine OnlyMk.of ?_ ?_); rotate_left; focus (intro p hp; cases p <;> first | exact absurd (by decide) hp | rfl | exact ⟨rfl, rfl⟩)))

theorem State.endCmd_only (s : State) (tag : Nat) (e : Ending) (opsDone : Nat) :
    Only [.ics, .commands, .mem, .events, .trust] s (State.endCmd s tag e opsDone) := by
  unfold State.endCmd
  iterate 24 all_goals try (first
    | with_reducible exact Only.refl
    | with_reducible assumption
    | decide
    | dsimp only [id]
    | with_reducible apply Only.after (State.sweepRanges_only ..)
    | with_reducible apply Only.after (State.addRec_only ..)
    | simp only [OnlyMk.mark]
    | ((with_reducible refine OnlyMk.of ?_ ?_); rotate_left; focus (intro p hp; cases p <;> first | exact absurd (by decide) hp | rfl | exact ⟨rfl, rfl⟩))
    | with_reducible intro _
    | split)

theorem State.hostWrite_only (s : State) (p : Nat) (a : Nat) (bs : List Byte) :
    Only [.ports, .hostMem, .out] s (State.hostWrite s p a bs) := by
  unfold State.hostWrite
  iterate 24 all_goals try (first
    | with_reducible exact Only.refl
    | with_reducible assumption
    | decide
    | dsimp only [id]
    | with_reducible apply Only.after (State.sendHost_only ..))

theorem State.setRing_only (s : State) (p : Nat) (ring : Nat) (f : Ring → Ring) :
    Only [.ports] s (State.setRing s p ring f) := by
  unfold State.setRing
  iterate 24 all_goals try (first
    | with_reducible exact Only.refl
    | with_reducible assumption
    | decide
    | dsimp only [id]
    | with_reducible apply Only.after (State.setPort_only ..))

theorem State.signalRing_only (s : State) (p : Fin 2) (ring : Nat) :
    Only [.ports, .hostMem, .out] s (State.signalRing s p ring) := by
  unfold State.signalRing
  iterate 24 all_goals try (first
    | with_reducible exact Only.refl
    | with_reducible assumption
    | decide
    | dsimp only [id]
    | with_reducible apply Only.after (State.msix_only ..)
    | with_reducible apply Only.after (State.setRing_only ..))

theorem State.ringWrite_only (s : State) (p : Fin 2) (ring : Nat) (r : Rec) :
    Only [.ports, .hostMem, .out] s (State.ringWrite s p ring r) := by
  unfold State.ringWrite
  iterate 24 all_goals try (first
    | with_reducible exact Only.refl
    | with_reducible assumption
    | decide
    | dsimp only [id]
    | with_reducible apply Only.after (State.hostWrite_only ..)
    | with_reducible apply Only.after (State.setRing_only ..)
    | with_reducible apply Only.after (State.signalRing_only ..)
    | with_reducible intro _
    | split)

theorem State.dropRec_only (s : State) (f : Rec → Bool) :
    Only [.commands] s (State.dropRec s f) := by
  unfold State.dropRec
  iterate 24 all_goals try (first
    | with_reducible exact Only.refl
    | with_reducible assumption
    | decide
    | dsimp only [id]
    | simp only [OnlyMk.mark]
    | ((with_reducible refine OnlyMk.of ?_ ?_); rotate_left; focus (intro p hp; cases p <;> first | exact absurd (by decide) hp | rfl | exact ⟨rfl, rfl⟩)))

theorem State.recToRing_only (s : State) (p : Fin 2) (ring : Nat) (r : Rec) (sel : Rec → Bool) :
    Only [.intakes, .ports, .ics, .commands, .hostMem, .out] s (State.recToRing s p ring r sel) := by
  unfold State.recToRing
  iterate 24 all_goals try (first
    | with_reducible exact Only.refl
    | with_reducible assumption
    | decide
    | dsimp only [id]
    | with_reducible apply Only.after (State.setIntake_only ..)
    | with_reducible apply Only.after (State.dropRec_only ..)
    | with_reducible apply Only.after (State.raise_only ..)
    | with_reducible apply Only.after (State.ringWrite_only ..)
    | with_reducible intro _
    | split)

theorem State.recToFifo_only (s : State) (r : Rec) (sel : Rec → Bool) :
    Only [.bmcFifo, .commands, .i3c] s (State.recToFifo s r sel) := by
  unfold State.recToFifo
  iterate 24 all_goals try (first
    | with_reducible exact Only.refl
    | with_reducible assumption
    | decide
    | dsimp only [id]
    | with_reducible apply Only.after (State.dropRec_only ..)
    | with_reducible apply Only.after (State.ibi_only ..)
    | simp only [OnlyMk.mark]
    | ((with_reducible refine OnlyMk.of ?_ ?_); rotate_left; focus (intro p hp; cases p <;> first | exact absurd (by decide) hp | rfl | exact ⟨rfl, rfl⟩))
    | with_reducible intro _
    | split)

theorem State.recToPeer_only (s : State) (r : Rec) (sel : Rec → Bool) :
    Only [.commands, .links, .out] s (State.recToPeer s r sel) := by
  unfold State.recToPeer
  iterate 24 all_goals try (first
    | with_reducible exact Only.refl
    | with_reducible assumption
    | decide
    | dsimp only [id]
    | with_reducible apply Only.after (State.toPeer_only ..)
    | with_reducible apply Only.after (State.dropRec_only ..)
    | with_reducible intro _
    | split)

theorem execCompletionRecordWrite_only (ctrl : Fin 4) (ring : Nat) (s : State) (t : State) (hq : execCompletionRecordWrite ctrl ring s = .next t) :
    Only [.intakes, .ports, .ics, .bmcFifo, .commands, .hostMem, .links, .i3c, .out] s t := by
  unfold execCompletionRecordWrite at hq
  injection hq with hq
  subst hq
  iterate 24 all_goals try (first
    | with_reducible exact Only.refl
    | with_reducible assumption
    | decide
    | dsimp only [id]
    | with_reducible apply Only.after (State.recToRing_only ..)
    | with_reducible apply Only.after (State.recToFifo_only ..)
    | with_reducible apply Only.after (State.recToPeer_only ..)
    | with_reducible intro _
    | split)

theorem execModerationTimeout_only (port : Fin 2) (ring : Fin 64) (s : State) (t : State) (hq : execModerationTimeout port ring s = .next t) :
    Only [.ports, .hostMem, .out] s t := by
  unfold execModerationTimeout at hq
  injection hq with hq
  subst hq
  iterate 24 all_goals try (first
    | with_reducible exact Only.refl
    | with_reducible assumption
    | decide
    | dsimp only [id]
    | with_reducible apply Only.after (State.signalRing_only ..)
    | with_reducible intro _
    | split)

theorem State.writeModeration_only (s : State) (p : Fin 2) (ring : Nat) (count : BitVec 8) (time : BitVec 10) :
    Only [.ports, .hostMem, .out] s (State.writeModeration s p ring count time) := by
  unfold State.writeModeration
  iterate 24 all_goals try (first
    | with_reducible exact Only.refl
    | with_reducible assumption
    | decide
    | dsimp only [id]
    | with_reducible apply Only.after (State.setRing_only ..)
    | with_reducible apply Only.after (State.signalRing_only ..)
    | with_reducible intro _
    | split)

theorem State.writeHead_only (s : State) (p : Nat) (ring : Nat) (head : BitVec 32) :
    Only [.ports] s (State.writeHead s p ring head) := by
  unfold State.writeHead
  iterate 24 all_goals try (first
    | with_reducible exact Only.refl
    | with_reducible assumption
    | decide
    | dsimp only [id]
    | with_reducible apply Only.after (State.setRing_only ..)
    | with_reducible intro _
    | split)

theorem execCrHeadWrite_only (port : Fin 2) (ring : Fin 64) (head : BitVec 32) (s : State) (t : State) (hq : execCrHeadWrite port ring head s = .next t) :
    Only [.ports] s t := by
  unfold execCrHeadWrite at hq
  injection hq with hq
  subst hq
  iterate 24 all_goals try (first
    | with_reducible exact Only.refl
    | with_reducible assumption
    | decide
    | dsimp only [id]
    | with_reducible apply Only.after (State.writeHead_only ..)
    | with_reducible intro _
    | split)

theorem State.applyRings_only (s : State) (p : Nat) :
    Only [.intakes, .ports] s (State.applyRings s p) := by
  unfold State.applyRings
  iterate 24 all_goals try (first
    | with_reducible exact Only.refl
    | with_reducible assumption
    | decide
    | dsimp only [id]
    | with_reducible apply Only.after (State.setIntake_only ..)
    | with_reducible apply Only.after (State.setPort_only ..)
    | with_reducible intro _
    | split)

theorem execCrApply_only (port : Fin 2) (s : State) (t : State) (hq : execCrApply port s = .next t) :
    Only [.intakes, .ports] s t := by
  unfold execCrApply at hq
  injection hq with hq
  subst hq
  iterate 24 all_goals try (first
    | with_reducible exact Only.refl
    | with_reducible assumption
    | decide
    | dsimp only [id]
    | with_reducible apply Only.after (State.applyRings_only ..)
    | with_reducible intro _
    | split)

/-! ## Machine/Ownership.lean -/

theorem State.notifyOwner_only (s : State) :
    Only [.ports, .ics, .hostMem, .links, .i3c, .out] s (State.notifyOwner s) := by
  unfold State.notifyOwner
  iterate 24 all_goals try (first
    | with_reducible exact Only.refl
    | with_reducible assumption
    | decide
    | dsimp only [id]
    | with_reducible apply Only.after (State.raiseFast_only ..)
    | with_reducible apply Only.after (State.toPeer_only ..)
    | with_reducible apply Only.after (State.ibi_only ..)
    | with_reducible apply Only.after (State.msix_only ..)
    | with_reducible refine Only.foldl _ ?_ ?_
    | with_reducible refine Only.foldlPair ?_ ?_
    | with_reducible refine Only.foldlPair' (by assumption) ?_ ?_
    | with_reducible intro _)

theorem State.loseOwner_only (s : State) :
    Only [.own, .ownPorts, .ports, .ics, .mem, .hostMem, .links, .events, .trust, .i3c, .out] s (State.loseOwner s) := by
  unfold State.loseOwner
  iterate 24 all_goals try (first
    | with_reducible exact Only.refl
    | with_reducible assumption
    | decide
    | dsimp only [id]
    | with_reducible apply Only.after (State.setOwnPort_only ..)
    | with_reducible apply Only.after (State.drainRanges_only ..)
    | with_reducible apply Only.after (State.notifyOwner_only ..)
    | simp only [OnlyMk.mark]
    | ((with_reducible refine OnlyMk.of ?_ ?_); rotate_left; focus (intro p hp; cases p <;> first | exact absurd (by decide) hp | rfl | exact ⟨rfl, rfl⟩)))

theorem State.gainOwner_only (s : State) (c : Fin 4) (nonce : BitVec 64) :
    Only [.own, .claims, .ownPorts, .ports, .ics, .mem, .hostMem, .links, .events, .trust, .i3c, .out] s (State.gainOwner s c nonce) := by
  unfold State.gainOwner
  iterate 24 all_goals try (first
    | with_reducible exact Only.refl
    | with_reducible assumption
    | decide
    | dsimp only [id]
    | with_reducible apply Only.after (State.setOwnPort_only ..)
    | with_reducible apply Only.after (State.drainRanges_only ..)
    | with_reducible apply Only.after (State.notifyOwner_only ..)
    | simp only [OnlyMk.mark]
    | ((with_reducible refine OnlyMk.of ?_ ?_); rotate_left; focus (intro p hp; cases p <;> first | exact absurd (by decide) hp | rfl | exact ⟨rfl, rfl⟩))
    | with_reducible intro _
    | split)

theorem State.claim_only (s : State) (c : Fin 4) (prio : BitVec 8) (nonce : BitVec 64) (tags : List Nat) :
    Only [.own, .claims, .ownPorts] s (State.claim s c prio nonce tags) := by
  unfold State.claim
  iterate 24 all_goals try (first
    | with_reducible exact Only.refl
    | with_reducible assumption
    | decide
    | dsimp only [id]
    | with_reducible apply Only.after (State.setOwnPort_only ..)
    | simp only [OnlyMk.mark]
    | ((with_reducible refine OnlyMk.of ?_ ?_); rotate_left; focus (intro p hp; cases p <;> first | exact absurd (by decide) hp | rfl | exact ⟨rfl, rfl⟩))
    | with_reducible intro _
    | split)

theorem State.settleClaim_only (s : State) (cl : Claim) (r : ClaimResult) :
    Only [.ownPorts, .ics, .commands, .mem, .events, .trust] s (State.settleClaim s cl r) := by
  unfold State.settleClaim
  iterate 24 all_goals try (first
    | with_reducible exact Only.refl
    | with_reducible assumption
    | decide
    | dsimp only [id]
    | with_reducible apply Only.after (State.endCmd_only ..)
    | with_reducible apply Only.after (State.setOwnPort_only ..)
    | with_reducible refine Only.foldl _ ?_ ?_
    | with_reducible refine Only.foldlPair ?_ ?_
    | with_reducible refine Only.foldlPair' (by assumption) ?_ ?_
    | with_reducible intro _)

theorem execClaimWindowEnd_only (s : State) (t : State) (hq : execClaimWindowEnd s = .next t) :
    Only [.own, .claims, .ownPorts, .ports, .ics, .commands, .mem, .hostMem, .links, .events, .trust, .i3c, .out] s t := by
  unfold execClaimWindowEnd at hq
  injection hq with hq
  subst hq
  iterate 24 all_goals try (first
    | with_reducible exact Only.refl
    | with_reducible assumption
    | decide
    | dsimp only [id]
    | with_reducible apply Only.after (State.settleClaim_only ..)
    | with_reducible apply Only.after (State.gainOwner_only ..)
    | with_reducible refine Only.foldl _ ?_ ?_
    | with_reducible refine Only.foldlPair ?_ ?_
    | with_reducible refine Only.foldlPair' (by assumption) ?_ ?_
    | simp only [OnlyMk.mark]
    | ((with_reducible refine OnlyMk.of ?_ ?_); rotate_left; focus (intro p hp; cases p <;> first | exact absurd (by decide) hp | rfl | exact ⟨rfl, rfl⟩))
    | with_reducible intro _
    | split)

theorem State.deny_only (s : State) (c : Nat) :
    Only [.ownPorts] s (State.deny s c) := by
  unfold State.deny
  iterate 24 all_goals try (first
    | with_reducible exact Only.refl
    | with_reducible assumption
    | decide
    | dsimp only [id]
    | with_reducible apply Only.after (State.setOwnPort_only ..))

theorem State.renew_only (s : State) (c : Nat) :
    Only [.own, .ownPorts] s (State.renew s c) := by
  unfold State.renew
  iterate 24 all_goals try (first
    | with_reducible exact Only.refl
    | with_reducible assumption
    | decide
    | dsimp only [id]
    | with_reducible apply Only.after (State.setOwnPort_only ..)
    | with_reducible apply Only.after (State.deny_only ..)
    | simp only [OnlyMk.mark]
    | ((with_reducible refine OnlyMk.of ?_ ?_); rotate_left; focus (intro p hp; cases p <;> first | exact absurd (by decide) hp | rfl | exact ⟨rfl, rfl⟩))
    | with_reducible intro _
    | split)

theorem State.handover_only (s : State) (c : Nat) :
    Only [.own, .ownPorts] s (State.handover s c) := by
  unfold State.handover
  iterate 24 all_goals try (first
    | with_reducible exact Only.refl
    | with_reducible assumption
    | decide
    | dsimp only [id]
    | with_reducible apply Only.after (State.deny_only ..)
    | with_reducible apply Only.after (State.setOwnPort_only ..)
    | simp only [OnlyMk.mark]
    | ((with_reducible refine OnlyMk.of ?_ ?_); rotate_left; focus (intro p hp; cases p <;> first | exact absurd (by decide) hp | rfl | exact ⟨rfl, rfl⟩))
    | with_reducible intro _
    | split)

theorem State.accept_only (s : State) (c : Fin 4) :
    Only [.own, .claims, .ownPorts, .ports, .ics, .mem, .hostMem, .links, .events, .trust, .i3c, .out] s (State.accept s c) := by
  unfold State.accept
  iterate 24 all_goals try (first
    | with_reducible exact Only.refl
    | with_reducible assumption
    | decide
    | dsimp only [id]
    | with_reducible apply Only.after (State.gainOwner_only ..)
    | with_reducible apply Only.after (State.setOwnPort_only ..)
    | with_reducible intro _
    | split)

theorem State.release_only (s : State) (c : Nat) :
    Only [.own, .ownPorts, .ports, .ics, .mem, .hostMem, .links, .events, .trust, .i3c, .out] s (State.release s c) := by
  unfold State.release
  iterate 24 all_goals try (first
    | with_reducible exact Only.refl
    | with_reducible assumption
    | decide
    | dsimp only [id]
    | with_reducible apply Only.after (State.loseOwner_only ..)
    | with_reducible apply Only.after (State.deny_only ..)
    | with_reducible intro _
    | split)

theorem execOwnClaim_only (port : Fin 2) (s : State) (t : State) (hq : execOwnClaim port s = .next t) :
    Only [.own, .claims, .ownPorts] s t := by
  unfold execOwnClaim at hq
  injection hq with hq
  subst hq
  iterate 24 all_goals try (first
    | with_reducible exact Only.refl
    | with_reducible assumption
    | decide
    | dsimp only [id]
    | with_reducible apply Only.after (State.claim_only ..)
    | with_reducible intro _
    | split)

theorem execOwnRenew_only (port : Fin 2) (s : State) (t : State) (hq : execOwnRenew port s = .next t) :
    Only [.own, .ownPorts] s t := by
  unfold execOwnRenew at hq
  injection hq with hq
  subst hq
  iterate 24 all_goals try (first
    | with_reducible exact Only.refl
    | with_reducible assumption
    | decide
    | dsimp only [id]
    | with_reducible apply Only.after (State.renew_only ..)
    | with_reducible intro _
    | split)

theorem execOwnHandover_only (port : Fin 2) (s : State) (t : State) (hq : execOwnHandover port s = .next t) :
    Only [.own, .ownPorts] s t := by
  unfold execOwnHandover at hq
  injection hq with hq
  subst hq
  iterate 24 all_goals try (first
    | with_reducible exact Only.refl
    | with_reducible assumption
    | decide
    | dsimp only [id]
    | with_reducible apply Only.after (State.handover_only ..)
    | with_reducible intro _
    | split)

theorem execOwnAccept_only (port : Fin 2) (s : State) (t : State) (hq : execOwnAccept port s = .next t) :
    Only [.own, .claims, .ownPorts, .ports, .ics, .mem, .hostMem, .links, .events, .trust, .i3c, .out] s t := by
  unfold execOwnAccept at hq
  injection hq with hq
  subst hq
  iterate 24 all_goals try (first
    | with_reducible exact Only.refl
    | with_reducible assumption
    | decide
    | dsimp only [id]
    | with_reducible apply Only.after (State.accept_only ..)
    | with_reducible intro _
    | split)

theorem execOwnRelease_only (port : Fin 2) (s : State) (t : State) (hq : execOwnRelease port s = .next t) :
    Only [.own, .ownPorts, .ports, .ics, .mem, .hostMem, .links, .events, .trust, .i3c, .out] s t := by
  unfold execOwnRelease at hq
  injection hq with hq
  subst hq
  iterate 24 all_goals try (first
    | with_reducible exact Only.refl
    | with_reducible assumption
    | decide
    | dsimp only [id]
    | with_reducible apply Only.after (State.release_only ..)
    | with_reducible intro _
    | split)

theorem execLeaseExpiry_only (s : State) (t : State) (hq : execLeaseExpiry s = .next t) :
    Only [.own, .ownPorts, .ports, .ics, .mem, .hostMem, .links, .events, .trust, .i3c, .out] s t := by
  unfold execLeaseExpiry at hq
  injection hq with hq
  subst hq
  iterate 24 all_goals try (first
    | with_reducible exact Only.refl
    | with_reducible assumption
    | decide
    | dsimp only [id]
    | with_reducible apply Only.after (State.loseOwner_only ..)
    | with_reducible intro _
    | split)

theorem execQuietEnd_only (s : State) (t : State) (hq : execQuietEnd s = .next t) :
    Only [.own] s t := by
  unfold execQuietEnd at hq
  injection hq with hq
  subst hq
  iterate 24 all_goals try (first
    | with_reducible exact Only.refl
    | with_reducible assumption
    | decide
    | dsimp only [id]
    | simp only [OnlyMk.mark]
    | ((with_reducible refine OnlyMk.of ?_ ?_); rotate_left; focus (intro p hp; cases p <;> first | exact absurd (by decide) hp | rfl | exact ⟨rfl, rfl⟩))
    | with_reducible intro _
    | split)

theorem execHandoverLapse_only (s : State) (t : State) (hq : execHandoverLapse s = .next t) :
    Only [.own] s t := by
  unfold execHandoverLapse at hq
  injection hq with hq
  subst hq
  iterate 24 all_goals try (first
    | with_reducible exact Only.refl
    | with_reducible assumption
    | decide
    | dsimp only [id]
    | simp only [OnlyMk.mark]
    | ((with_reducible refine OnlyMk.of ?_ ?_); rotate_left; focus (intro p hp; cases p <;> first | exact absurd (by decide) hp | rfl | exact ⟨rfl, rfl⟩))
    | with_reducible intro _
    | split)

/-! ## Machine/Intake.lean -/

theorem State.lockedWrite_only (s : State) (c : Nat) :
    Only [.intakes] s (State.lockedWrite s c) := by
  unfold State.lockedWrite
  iterate 24 all_goals try (first
    | with_reducible exact Only.refl
    | with_reducible assumption
    | decide
    | dsimp only [id]
    | with_reducible apply Only.after (State.setIntake_only ..))

theorem State.presentSlot_only (s : State) (e : SealedSlot) :
    Only [.ics, .sealed] s (State.presentSlot s e) := by
  unfold State.presentSlot
  iterate 24 all_goals try (first
    | with_reducible exact Only.refl
    | with_reducible assumption
    | decide
    | dsimp only [id]
    | with_reducible apply Only.after (State.raise_only ..)
    | with_reducible apply Only.after (State.setSealed_only ..))

theorem State.presentHeld_only (s : State) (c : Nat) (seq : BitVec 15) :
    Only [.ics, .sealed] s (State.presentHeld s c seq) := by
  unfold State.presentHeld
  iterate 24 all_goals try (first
    | with_reducible exact Only.refl
    | with_reducible assumption
    | decide
    | dsimp only [id]
    | with_reducible apply Only.after (State.presentSlot_only ..)
    | with_reducible apply Only.after (State.setSealed_only ..)
    | with_reducible refine Only.foldl _ ?_ ?_
    | with_reducible refine Only.foldlPair ?_ ?_
    | with_reducible refine Only.foldlPair' (by assumption) ?_ ?_
    | with_reducible intro _
    | split)

theorem State.passSeq_only (s : State) (c : Nat) :
    Only [.intakes, .ics, .sealed] s (State.passSeq s c) := by
  unfold State.passSeq
  iterate 24 all_goals try (first
    | with_reducible exact Only.refl
    | with_reducible assumption
    | decide
    | dsimp only [id]
    | with_reducible apply Only.after (State.presentHeld_only ..)
    | with_reducible apply Only.after (State.setIntake_only ..))

theorem State.advanceSeq_only (s : State) (c : Nat) (x1 : Nat) :
    Only [.intakes, .ics, .sealed] s (State.advanceSeq s c x1) := by
  fun_induction State.advanceSeq s c x1
  iterate 24 all_goals try (first
    | with_reducible exact Only.refl
    | with_reducible assumption
    | decide
    | dsimp only [id]
    | with_reducible apply Only.after (State.passSeq_only ..)
    | with_reducible refine Only.trans ?_ (by assumption))

theorem State.scanSeal_only (s : State) (c : Fin 4) (slot : Nat) :
    Only [.intakes, .ics, .sealed] s (State.scanSeal s c slot) := by
  unfold State.scanSeal
  iterate 24 all_goals try (first
    | with_reducible exact Only.refl
    | with_reducible assumption
    | decide
    | dsimp only [id]
    | with_reducible apply Only.after (State.setSealed_only ..)
    | with_reducible apply Only.after (State.raiseFast_only ..)
    | with_reducible apply Only.after (State.presentSlot_only ..)
    | with_reducible apply Only.after (State.advanceSeq_only ..)
    | with_reducible apply Only.after (State.setIntake_only ..)
    | with_reducible intro _
    | split)

theorem State.slotWrite_only (s : State) (c : Fin 4) (slot : Nat) (off : Nat) (bs : List Byte) :
    Only [.intakes, .ics, .sealed] s (State.slotWrite s c slot off bs) := by
  unfold State.slotWrite
  iterate 24 all_goals try (first
    | with_reducible exact Only.refl
    | with_reducible assumption
    | decide
    | dsimp only [id]
    | with_reducible apply Only.after (State.lockedWrite_only ..)
    | with_reducible apply Only.after (State.setIntake_only ..)
    | with_reducible apply Only.after (State.scanSeal_only ..)
    | with_reducible intro _
    | split)

theorem execSealWordWrite_only (port : Fin 2) (slot : Fin 1024) (word : BitVec 32) (first : Option (BitVec 32)) (s : State) (t : State) (hq : execSealWordWrite port slot word first s = .next t) :
    Only [.intakes, .ics, .sealed] s t := by
  unfold execSealWordWrite at hq
  injection hq with hq
  subst hq
  iterate 24 all_goals try (first
    | with_reducible exact Only.refl
    | with_reducible assumption
    | decide
    | dsimp only [id]
    | with_reducible apply Only.after (State.slotWrite_only ..)
    | with_reducible intro _
    | split)

theorem State.passGap_only (s : State) (c : Nat) (x1 : Nat) :
    Only [.intakes, .ics, .sealed] s (State.passGap s c x1) := by
  fun_induction State.passGap s c x1
  iterate 24 all_goals try (first
    | with_reducible exact Only.refl
    | with_reducible assumption
    | decide
    | dsimp only [id]
    | with_reducible apply Only.after (State.setIntake_only ..)
    | with_reducible apply Only.after (State.passSeq_only ..)
    | with_reducible refine Only.trans ?_ (by assumption)
    | with_reducible intro _
    | split
    | dsimp +zetaDelta only)

theorem execSealGapRelease_only (ctrl : Fin 4) (slot : Fin 1024) (s : State) (t : State) (hq : execSealGapRelease ctrl slot s = .next t) :
    Only [.intakes, .ics, .sealed] s t := by
  unfold execSealGapRelease at hq
  injection hq with hq
  subst hq
  iterate 24 all_goals try (first
    | with_reducible exact Only.refl
    | with_reducible assumption
    | decide
    | dsimp only [id]
    | with_reducible apply Only.after (State.advanceSeq_only ..)
    | with_reducible apply Only.after (State.passGap_only ..)
    | with_reducible intro _
    | split)

theorem execIntakeBacklog_only (s : State) (t : State) (hq : execIntakeBacklog s = .next t) :
    Only [.lantern, .lsChanges, .ports, .hostMem, .i3c, .out] s t := by
  unfold execIntakeBacklog at hq
  injection hq with hq
  subst hq
  iterate 24 all_goals try (first
    | with_reducible exact Only.refl
    | with_reducible assumption
    | decide
    | dsimp only [id]
    | with_reducible apply Only.after (settle_only ..)
    | simp only [OnlyMk.mark]
    | ((with_reducible refine OnlyMk.of ?_ ?_); rotate_left; focus (intro p hp; cases p <;> first | exact absurd (by decide) hp | rfl | exact ⟨rfl, rfl⟩)))

theorem State.takeSlot_only (s : State) (e : SealedSlot) :
    Only [.intakes, .sealed] s (State.takeSlot s e) := by
  unfold State.takeSlot
  iterate 24 all_goals try (first
    | with_reducible exact Only.refl
    | with_reducible assumption
    | decide
    | dsimp only [id]
    | with_reducible apply Only.after (State.setIntake_only ..)
    | with_reducible apply Only.after (State.setSealed_only ..))

theorem State.endSlot_only (s : State) (c : Fin 4) (b : List Byte) (st : Status) (detail : BitVec 32) (tagged : Bool) (result : Nat) :
    Only [.commands] s (State.endSlot s c b st detail tagged result) := by
  unfold State.endSlot
  iterate 24 all_goals try (first
    | with_reducible exact Only.refl
    | with_reducible assumption
    | decide
    | dsimp only [id]
    | with_reducible apply Only.after (State.addRec_only ..))

theorem State.admitCmd_only (s : State) (e : SealedSlot) (b : List Byte) :
    Only [.commands] s (State.admitCmd s e b) := by
  unfold State.admitCmd
  iterate 24 all_goals try (first
    | with_reducible exact Only.refl
    | with_reducible assumption
    | decide
    | dsimp only [id]
    | with_reducible refine Only.setWarden ?_ ?_
    | simp only [OnlyMk.mark]
    | ((with_reducible refine OnlyMk.of ?_ ?_); rotate_left; focus (intro p hp; cases p <;> first | exact absurd (by decide) hp | rfl | exact ⟨rfl, rfl⟩)))

theorem State.serve_only {L : List Part} {s0 : State} {s : State} {code : Nat} {c : Fin 4} {slot : Fin 1024} {body : Adm → State → State} (hs : Only L s0 s) (w : within [.intakes, .sealed, .commands] L = true) (hb : ∀ u0 u1, Only L u1 (body u0 u1)) :
    Only L s0 (State.serve s code c slot body) := by
  unfold State.serve
  iterate 24 all_goals try (first
    | with_reducible exact Only.refl
    | with_reducible assumption
    | with_reducible refine Only.trans ?_ (hb ..)
    | exact within_trans (by decide) w
    | decide
    | dsimp only [id]
    | with_reducible apply Only.after (State.takeSlot_only ..)
    | with_reducible apply Only.after (State.endSlot_only ..)
    | with_reducible apply Only.after (State.admitCmd_only ..)
    | with_reducible intro _
    | split)

theorem Adm.finish_only (a : Adm) (s : State) (e : Ending) :
    Only [.ics, .commands, .mem, .events, .trust] s (Adm.finish a s e) := by
  unfold Adm.finish
  iterate 24 all_goals try (first
    | with_reducible exact Only.refl
    | with_reducible assumption
    | decide
    | dsimp only [id]
    | with_reducible apply Only.after (State.endCmd_only ..))

theorem Adm.done_only (a : Adm) (s : State) (result : Nat) (detail : Nat) :
    Only [.ics, .commands, .mem, .events, .trust] s (Adm.done a s result detail) := by
  unfold Adm.done
  iterate 24 all_goals try (first
    | with_reducible exact Only.refl
    | with_reducible assumption
    | decide
    | dsimp only [id]
    | with_reducible apply Only.after (State.endCmd_only ..))

theorem Adm.checked_only {L : List Part} {s0 : State} {a : Adm} {s : State} {l : List Check} {go : State → State} (hs : Only L s0 s) (w : within [.ics, .commands, .mem, .events, .trust] L = true) (hb : ∀ u0, Only L u0 (go u0)) :
    Only L s0 (Adm.checked a s l go) := by
  unfold Adm.checked
  iterate 24 all_goals try (first
    | with_reducible exact Only.refl
    | with_reducible assumption
    | with_reducible refine Only.trans ?_ (hb ..)
    | exact within_trans (by decide) w
    | decide
    | dsimp only [id]
    | with_reducible apply Only.after (State.endCmd_only ..)
    | with_reducible intro _
    | split)

theorem Adm.copyOut_only (a : Adm) (s : State) (addr : Nat) (bs : List Byte) (result : Nat) :
    Only [.ports, .ics, .commands, .mem, .hostMem, .events, .trust, .out] s (Adm.copyOut a s addr bs result) := by
  unfold Adm.copyOut
  iterate 24 all_goals try (first
    | with_reducible exact Only.refl
    | with_reducible assumption
    | decide
    | dsimp only [id]
    | with_reducible apply Only.after (Adm.done_only ..)
    | with_reducible apply Only.after (State.hostWrite_only ..)
    | with_reducible apply Only.after (Adm.finish_only ..)
    | with_reducible intro _
    | split)

theorem execCommandCodeNotDefined_only (ctrl : Fin 4) (slot : Fin 1024) (s : State) (t : State) (hq : execCommandCodeNotDefined ctrl slot s = .next t) :
    Only [.intakes, .ics, .sealed, .commands, .mem, .events, .trust] s t := by
  unfold execCommandCodeNotDefined at hq
  injection hq with hq
  subst hq
  iterate 24 all_goals try (first
    | with_reducible exact Only.refl
    | with_reducible assumption
    | decide
    | dsimp only [id]
    | with_reducible refine State.serve_only ?_ (by decide) ?_
    | with_reducible refine Adm.checked_only ?_ (by decide) ?_
    | with_reducible intro _
    | split)

/-! ## Machine/Rations.lean -/

theorem State.applyRations_only (s : State) :
    Only [.rations] s (State.applyRations s) := by
  unfold State.applyRations
  iterate 24 all_goals try (first
    | with_reducible exact Only.refl
    | with_reducible assumption
    | decide
    | dsimp only [id]
    | simp only [OnlyMk.mark]
    | ((with_reducible refine OnlyMk.of ?_ ?_); rotate_left; focus (intro p hp; cases p <;> first | exact absurd (by decide) hp | rfl | exact ⟨rfl, rfl⟩))
    | with_reducible intro _
    | split)

theorem execRationApply_only (port : Fin 2) (s : State) (t : State) (hq : execRationApply port s = .next t) :
    Only [.ownPorts, .rations] s t := by
  unfold execRationApply at hq
  injection hq with hq
  subst hq
  iterate 24 all_goals try (first
    | with_reducible exact Only.refl
    | with_reducible assumption
    | decide
    | dsimp only [id]
    | with_reducible apply Only.after (State.applyRations_only ..)
    | with_reducible apply Only.after (State.deny_only ..)
    | with_reducible intro _
    | split)

theorem State.commitRations_only (s : State) :
    Only [.settings, .rations] s (State.commitRations s) := by
  unfold State.commitRations
  iterate 24 all_goals try (first
    | with_reducible exact Only.refl
    | with_reducible assumption
    | decide
    | dsimp only [id]
    | simp only [OnlyMk.mark]
    | ((with_reducible refine OnlyMk.of ?_ ?_); rotate_left; focus (intro p hp; cases p <;> first | exact absurd (by decide) hp | rfl | exact ⟨rfl, rfl⟩))
    | with_reducible intro _
    | split)

theorem execRtNowLowRead_only (port : Fin 2) (s : State) (t : State) (hq : execRtNowLowRead port s = .next t) :
    Only [.ports, .out] s t := by
  unfold execRtNowLowRead at hq
  injection hq with hq
  subst hq
  iterate 24 all_goals try (first
    | with_reducible exact Only.refl
    | with_reducible assumption
    | decide
    | dsimp only [id]
    | with_reducible apply Only.after (State.emit_only ..)
    | with_reducible apply Only.after (State.setPort_only ..)
    | with_reducible intro _
    | split)

theorem execRtNowHighRead_only (port : Fin 2) (s : State) (t : State) (hq : execRtNowHighRead port s = .next t) :
    Only [.ports, .out] s t := by
  unfold execRtNowHighRead at hq
  injection hq with hq
  subst hq
  iterate 24 all_goals try (first
    | with_reducible exact Only.refl
    | with_reducible assumption
    | decide
    | dsimp only [id]
    | with_reducible apply Only.after (State.emit_only ..)
    | with_reducible apply Only.after (State.setPort_only ..)
    | with_reducible intro _
    | split)

theorem execPowerSlotsSet_only (ctrl : Fin 4) (slot : Fin 1024) (s : State) (t : State) (hq : execPowerSlotsSet ctrl slot s = .next t) :
    Only [.intakes, .ics, .sealed, .commands, .power, .mem, .events, .trust] s t := by
  unfold execPowerSlotsSet at hq
  injection hq with hq
  subst hq
  iterate 24 all_goals try (first
    | with_reducible exact Only.refl
    | with_reducible assumption
    | decide
    | dsimp only [id]
    | with_reducible refine State.serve_only ?_ (by decide) ?_
    | with_reducible refine Adm.checked_only ?_ (by decide) ?_
    | with_reducible apply Only.after (Adm.finish_only ..)
    | with_reducible apply Only.after (State.endCmd_only ..)
    | simp only [OnlyMk.mark]
    | ((with_reducible refine OnlyMk.of ?_ ?_); rotate_left; focus (intro p hp; cases p <;> first | exact absurd (by decide) hp | rfl | exact ⟨rfl, rfl⟩))
    | with_reducible intro _
    | split)

theorem execPowerSlotsRead_only (ctrl : Fin 4) (slot : Fin 1024) (s : State) (t : State) (hq : execPowerSlotsRead ctrl slot s = .next t) :
    Only [.intakes, .ports, .ics, .sealed, .commands, .mem, .hostMem, .events, .trust, .out] s t := by
  unfold execPowerSlotsRead at hq
  injection hq with hq
  subst hq
  iterate 24 all_goals try (first
    | with_reducible exact Only.refl
    | with_reducible assumption
    | decide
    | dsimp only [id]
    | with_reducible refine State.serve_only ?_ (by decide) ?_
    | with_reducible refine Adm.checked_only ?_ (by decide) ?_
    | with_reducible apply Only.after (Adm.copyOut_only ..)
    | with_reducible intro _)

theorem State.setPower_only (s : State) (f : Power → Power) :
    Only [.power] s (State.setPower s f) := by
  unfold State.setPower
  iterate 24 all_goals try (first
    | with_reducible exact Only.refl
    | with_reducible assumption
    | decide
    | dsimp only [id]
    | simp only [OnlyMk.mark]
    | ((with_reducible refine OnlyMk.of ?_ ?_); rotate_left; focus (intro p hp; cases p <;> first | exact absurd (by decide) hp | rfl | exact ⟨rfl, rfl⟩)))

theorem State.govern_only (s0 : State) (asked : Nat) :
    Only [.power, .free] s0 (State.govern s0 asked) := by
  unfold State.govern
  iterate 24 all_goals try (first
    | with_reducible exact Only.refl
    | with_reducible assumption
    | decide
    | dsimp only [id]
    | with_reducible apply Only.after (State.setPower_only ..)
    | with_reducible apply Only.after (State.draw_only ..)
    | with_reducible refine Only.after (State.draw_only' (hq := by assumption)) (by decide) ?_
    | with_reducible intro _
    | split)

theorem State.checkFallback_only (s : State) :
    Only [.ics, .time] s (State.checkFallback s) := by
  unfold State.checkFallback
  iterate 24 all_goals try (first
    | with_reducible exact Only.refl
    | with_reducible assumption
    | decide
    | dsimp only [id]
    | with_reducible apply Only.after (State.raise_only ..)
    | simp only [OnlyMk.mark]
    | ((with_reducible refine OnlyMk.of ?_ ?_); rotate_left; focus (intro p hp; cases p <;> first | exact absurd (by decide) hp | rfl | exact ⟨rfl, rfl⟩))
    | with_reducible intro _
    | split)

theorem State.commitSched_only (s : State) :
    Only [.ics, .commands, .time, .power, .mem, .events, .trust] s (State.commitSched s) := by
  unfold State.commitSched
  iterate 24 all_goals try (first
    | with_reducible exact Only.refl
    | with_reducible assumption
    | decide
    | dsimp only [id]
    | with_reducible apply Only.after (State.endCmd_only ..)
    | simp only [OnlyMk.mark]
    | ((with_reducible refine OnlyMk.of ?_ ?_); rotate_left; focus (intro p hp; cases p <;> first | exact absurd (by decide) hp | rfl | exact ⟨rfl, rfl⟩))
    | with_reducible intro _
    | split)

theorem State.placeSlot_only (s : State) :
    Only [.time, .power] s (State.placeSlot s) := by
  unfold State.placeSlot
  iterate 24 all_goals try (first
    | with_reducible exact Only.refl
    | with_reducible assumption
    | decide
    | dsimp only [id]
    | simp only [OnlyMk.mark]
    | ((with_reducible refine OnlyMk.of ?_ ?_); rotate_left; focus (intro p hp; cases p <;> first | exact absurd (by decide) hp | rfl | exact ⟨rfl, rfl⟩))
    | with_reducible intro _
    | split)

/-! ## Machine/Access.lean -/

theorem State.setFar_only (s : State) (f : FarTier → FarTier) :
    Only [.far] s (State.setFar s f) := by
  unfold State.setFar
  iterate 24 all_goals try (first
    | with_reducible exact Only.refl
    | with_reducible assumption
    | decide
    | dsimp only [id]
    | simp only [OnlyMk.mark]
    | ((with_reducible refine OnlyMk.of ?_ ?_); rotate_left; focus (intro p hp; cases p <;> first | exact absurd (by decide) hp | rfl | exact ⟨rfl, rfl⟩)))

theorem State.withFarKey_only (s : State) :
    OnlyO [.far, .trust] s (State.withFarKey s) := by
  unfold State.withFarKey
  iterate 24 all_goals try (first
    | with_reducible exact Only.refl
    | with_reducible assumption
    | decide
    | dsimp only [id]
    | with_reducible exact OnlyO.none
    | with_reducible refine OnlyO.some ?_
    | with_reducible refine OnlyO.mapState ?_ ?_
    | with_reducible refine OnlyO.map ?_
    | with_reducible refine OnlyO.bind ?_ ?_
    | simp only [OnlyMk.mark]
    | ((with_reducible refine OnlyMk.of ?_ ?_); rotate_left; focus (intro p hp; cases p <;> first | exact absurd (by decide) hp | rfl | exact ⟨rfl, rfl⟩))
    | with_reducible intro _
    | split)

theorem State.withFarKey_only' {s : State} {t0 : State} (hq : State.withFarKey s = some t0) :
    Only [.far, .trust] s t0 :=
  (State.withFarKey_only s).of _ hq

theorem State.farCheck_only (s : State) (u : Nat) :
    Only [.events] s (State.farCheck s u).2 := by
  unfold State.farCheck
  iterate 24 all_goals try (first
    | with_reducible exact Only.refl
    | with_reducible assumption
    | decide
    | dsimp only [id]
    | with_reducible apply Only.after (State.postArgs_only ..)
    | with_reducible intro _
    | split)

theorem State.farCheck_only' {s : State} {u : Nat} {r0 : _} {t0 : State} (hq : State.farCheck s u = (r0, t0)) :
    Only [.events] s t0 := by
  have gq := State.farCheck_only s u
  rw [hq] at gq
  exact gq

theorem State.farChecks_only (s : State) (u : Nat) (x1 : Nat) :
    Only [.events] s (State.farChecks s u x1).2 := by
  fun_induction State.farChecks s u x1
  all_goals try simp_all only
  iterate 24 all_goals try (first
    | with_reducible exact Only.refl
    | with_reducible assumption
    | decide
    | dsimp only [id]
    | with_reducible apply Only.after (State.farCheck_only ..)
    | with_reducible refine Only.after (State.farCheck_only' (hq := by assumption)) (by decide) ?_
    | with_reducible refine Only.trans ?_ (by assumption))

theorem State.farChecks_only' {s : State} {u : Nat} {x1 : Nat} {r0 : _} {t0 : State} (hq : State.farChecks s u x1 = (r0, t0)) :
    Only [.events] s t0 := by
  have gq := State.farChecks_only s u x1
  rw [hq] at gq
  exact gq

theorem State.farRead_only (s : State) (f : Nat) (n : Nat) :
    Only [.events] s (State.farRead s f n).2.s := by
  unfold State.farRead
  iterate 24 all_goals try (first
    | with_reducible exact Only.refl
    | with_reducible assumption
    | decide
    | dsimp only [Io.halt]
    | with_reducible apply Only.after (State.farChecks_only ..)
    | with_reducible refine Only.after (State.farChecks_only' (hq := by assumption)) (by decide) ?_
    | with_reducible intro _
    | split)

theorem State.farRead_only' {s : State} {f : Nat} {n : Nat} {r0 : _} {t0 : Io} (hq : State.farRead s f n = (r0, t0)) :
    Only [.events] s t0.s := by
  have gq := State.farRead_only s f n
  rw [hq] at gq
  exact gq

theorem State.farWriteUnit_only (s : State) (f : Nat) (bs : List Byte) (who : Nat × Nat) :
    Only [.far, .events, .trust] s (State.farWriteUnit s f bs who).s := by
  unfold State.farWriteUnit
  iterate 24 all_goals try (first
    | with_reducible exact Only.refl
    | with_reducible assumption
    | decide
    | dsimp only [Io.halt]
    | with_reducible apply OnlyO.after (State.withFarKey_only ..)
    | with_reducible refine Only.after (State.withFarKey_only' (hq := by assumption)) (by decide) ?_
    | with_reducible apply Only.after (State.setFar_only ..)
    | with_reducible apply Only.after (State.farCheck_only ..)
    | with_reducible refine Only.after (State.farCheck_only' (hq := by assumption)) (by decide) ?_
    | with_reducible exact OnlyO.none
    | with_reducible refine OnlyO.some ?_
    | with_reducible refine OnlyO.mapState ?_ ?_
    | with_reducible refine OnlyO.map ?_
    | with_reducible refine OnlyO.bind ?_ ?_
    | with_reducible intro _
    | split)

theorem State.farWrite_only (s : State) (f : Nat) (bs : List Byte) (who : Nat × Nat) (x1 : Nat) :
    Only [.far, .events, .trust] s (State.farWrite s f bs who x1).s := by
  fun_induction State.farWrite s f bs who x1
  iterate 24 all_goals try (first
    | with_reducible exact Only.refl
    | with_reducible assumption
    | decide
    | dsimp only [Io.halt]
    | with_reducible apply Only.after (State.farWriteUnit_only ..)
    | with_reducible refine Only.trans ?_ (by assumption))

theorem State.touch_only (s : State) (pair : Nat) (cls : Nat) (off : Nat) (n : Nat) (write : Bool) (near : Bool) :
    Only [.run] s (State.touch s pair cls off n write near) := by
  unfold State.touch
  iterate 24 all_goals try (first
    | with_reducible exact Only.refl
    | with_reducible assumption
    | decide
    | dsimp only [id]
    | simp only [OnlyMk.mark]
    | ((with_reducible refine OnlyMk.of ?_ ?_); rotate_left; focus (intro p hp; cases p <;> first | exact absurd (by decide) hp | rfl | exact ⟨rfl, rfl⟩)))

theorem State.runDegraded_only (s : State) (b : Bool) :
    Only [.run] s (State.runDegraded s b) := by
  unfold State.runDegraded
  iterate 24 all_goals try (first
    | with_reducible exact Only.refl
    | with_reducible assumption
    | decide
    | dsimp only [id]
    | simp only [OnlyMk.mark]
    | ((with_reducible refine OnlyMk.of ?_ ?_); rotate_left; focus (intro p hp; cases p <;> first | exact absurd (by decide) hp | rfl | exact ⟨rfl, rfl⟩)))

theorem State.reaches_only (s : State) (w : Who) (pair : Nat) (off : Nat) (n : Nat) (write : Bool) :
    Only [.run] s (State.reaches s w pair off n write) := by
  unfold State.reaches
  iterate 24 all_goals try (first
    | with_reducible exact Only.refl
    | with_reducible assumption
    | decide
    | dsimp only [id]
    | with_reducible apply Only.after (State.touch_only ..)
    | with_reducible intro _
    | split)

theorem Io.noted_only {L : List Part} {s : State} {io : Io} (w : Who) (hr : within [.run] L = true) (h : Only L s io.s) :
    Only L s (io.noted w).s := by
  unfold Io.noted
  split
  · exact (State.runDegraded_only ..).after hr h
  · exact h

theorem State.readPiece_only (s : State) (w : Who) (a : Nat) (n : Nat) :
    Only [.ics, .commands, .mem, .events, .free, .run] s (State.readPiece s w a n).2.s := by
  unfold State.readPiece
  split
  · exact Io.noted_only w (by decide) ((State.readLine_only ..).after (by decide) ((State.reaches_only ..).after (by decide) Only.refl))
  · exact (State.farRead_only ..).mono (by decide)
  · exact (reachStop_only ..).mono (by decide)

theorem State.readPiece_only' {s : State} {w : Who} {a : Nat} {n : Nat} {r0 : _} {t0 : Io} (hq : State.readPiece s w a n = (r0, t0)) :
    Only [.ics, .commands, .mem, .events, .free, .run] s t0.s := by
  have gq := State.readPiece_only s w a n
  rw [hq] at gq
  exact gq

theorem State.writePiece_only (s : State) (w : Who) (a : Nat) (bs : List Byte) :
    Only [.ics, .commands, .mem, .far, .events, .trust, .free, .run] s (State.writePiece s w a bs).s := by
  unfold State.writePiece
  split
  · exact Io.noted_only w (by decide) ((State.writeLine_only ..).after (by decide) ((State.reaches_only ..).after (by decide) Only.refl))
  · exact (State.farWrite_only ..).mono (by decide)
  · exact (reachStop_only ..).mono (by decide)

theorem State.readDev_only (s : State) (w : Who) (a : Nat) (n : Nat) (x1 : Nat) :
    Only [.ics, .commands, .mem, .events, .free, .run] s (State.readDev s w a n x1).2.s := by
  fun_induction State.readDev s w a n x1
  all_goals try simp_all only
  iterate 24 all_goals try (first
    | with_reducible exact Only.refl
    | with_reducible assumption
    | decide
    | dsimp only [Io.halt]
    | with_reducible apply Only.after (State.readPiece_only ..)
    | with_reducible refine Only.after (State.readPiece_only' (hq := by assumption)) (by decide) ?_
    | with_reducible refine Only.trans ?_ (by assumption))

theorem State.readDev_only' {s : State} {w : Who} {a : Nat} {n : Nat} {x1 : Nat} {r0 : _} {t0 : Io} (hq : State.readDev s w a n x1 = (r0, t0)) :
    Only [.ics, .commands, .mem, .events, .free, .run] s t0.s := by
  have gq := State.readDev_only s w a n x1
  rw [hq] at gq
  exact gq

theorem State.writeDev_only (s : State) (w : Who) (a : Nat) (bs : List Byte) (x1 : Nat) :
    Only [.ics, .commands, .mem, .far, .events, .trust, .free, .run] s (State.writeDev s w a bs x1).s := by
  fun_induction State.writeDev s w a bs x1
  iterate 24 all_goals try (first
    | with_reducible exact Only.refl
    | with_reducible assumption
    | decide
    | dsimp only [Io.halt]
    | with_reducible apply Only.after (State.writePiece_only ..)
    | with_reducible refine Only.trans ?_ (by assumption))

theorem State.load_only (s : State) (w : Who) (a : Nat) (n : Nat) :
    Only [.ics, .commands, .mem, .events, .free, .run] s (State.load s w a n).2.s := by
  unfold State.load
  iterate 24 all_goals try (first
    | with_reducible exact Only.refl
    | with_reducible assumption
    | decide
    | dsimp only [Io.halt]
    | with_reducible apply Only.after (State.readDev_only ..))

theorem State.load_only' {s : State} {w : Who} {a : Nat} {n : Nat} {r0 : _} {t0 : Io} (hq : State.load s w a n = (r0, t0)) :
    Only [.ics, .commands, .mem, .events, .free, .run] s t0.s := by
  have gq := State.load_only s w a n
  rw [hq] at gq
  exact gq

theorem State.store_only (s : State) (w : Who) (a : Nat) (bs : List Byte) :
    Only [.ics, .commands, .mem, .far, .events, .trust, .free, .run] s (State.store s w a bs).s := by
  unfold State.store
  iterate 24 all_goals try (first
    | with_reducible exact Only.refl
    | with_reducible assumption
    | decide
    | dsimp only [Io.halt]
    | with_reducible apply Only.after (State.writeDev_only ..))

theorem State.loadCore_only (s : State) (pair : Nat) (tag : Nat) (a : Nat) (n : Nat) :
    Only [.cores, .events] s (State.loadCore s pair tag a n).2.s := by
  unfold State.loadCore
  iterate 24 all_goals try (first
    | with_reducible exact Only.refl
    | with_reducible assumption
    | decide
    | dsimp only [Io.halt]
    | with_reducible apply Only.after (State.postArgs_only ..)
    | with_reducible apply Only.after (State.setCore_only ..)
    | with_reducible intro _
    | split)

theorem State.loadCore_only' {s : State} {pair : Nat} {tag : Nat} {a : Nat} {n : Nat} {r0 : _} {t0 : Io} (hq : State.loadCore s pair tag a n = (r0, t0)) :
    Only [.cores, .events] s t0.s := by
  have gq := State.loadCore_only s pair tag a n
  rw [hq] at gq
  exact gq

theorem State.storeCore_only (s : State) (pair : Nat) (tag : Nat) (a : Nat) (bs : List Byte) :
    Only [.cores] s (State.storeCore s pair tag a bs) := by
  unfold State.storeCore
  iterate 24 all_goals try (first
    | with_reducible exact Only.refl
    | with_reducible assumption
    | decide
    | dsimp only [id]
    | with_reducible apply Only.after (State.setCore_only ..))

/-! ## Machine/Cv.lean -/

theorem State.cvDoCompare_only (s : State) (c : Nat) :
    Only [.ports, .ics, .hostMem, .cv, .out] s (State.cvDoCompare s c) := by
  unfold State.cvDoCompare
  iterate 24 all_goals try (first
    | with_reducible exact Only.refl
    | with_reducible assumption
    | decide
    | dsimp only [id]
    | with_reducible apply Only.after (State.setChan_only ..)
    | with_reducible apply Only.after (State.raise_only ..)
    | with_reducible apply Only.after (State.msix_only ..)
    | with_reducible intro _
    | split)

theorem State.cvWrite_only {L : List Part} {s0 : State} {s : State} {port : Fin 2} {c : Nat} {go : State → State} (hs : Only L s0 s) (w : within [.ownPorts] L = true) (hb : ∀ u0, Only L u0 (go u0)) :
    Only L s0 (State.cvWrite s port c go) := by
  unfold State.cvWrite
  iterate 24 all_goals try (first
    | with_reducible exact Only.refl
    | with_reducible assumption
    | with_reducible refine Only.trans ?_ (hb ..)
    | exact within_trans (by decide) w
    | decide
    | dsimp only [id]
    | with_reducible apply Only.after (State.deny_only ..)
    | with_reducible intro _
    | split)

theorem State.cvDoGo_only (s : State) (c : Nat) (by' : Fin 4) :
    Only [.cv] s (State.cvDoGo s c by') := by
  unfold State.cvDoGo
  iterate 24 all_goals try (first
    | with_reducible exact Only.refl
    | with_reducible assumption
    | decide
    | dsimp only [id]
    | with_reducible apply Only.after (State.setChan_only ..))

theorem State.cvDoReset_only (s : State) (c : Nat) :
    Only [.cv] s (State.cvDoReset s c) := by
  unfold State.cvDoReset
  iterate 24 all_goals try (first
    | with_reducible exact Only.refl
    | with_reducible assumption
    | decide
    | dsimp only [id]
    | with_reducible apply Only.after (State.setChan_only ..))

theorem State.cvDoCheck_only (s : State) (c : Nat) :
    Only [.cv] s (State.cvDoCheck s c) := by
  unfold State.cvDoCheck
  iterate 24 all_goals try (first
    | with_reducible exact Only.refl
    | with_reducible assumption
    | decide
    | dsimp only [id]
    | with_reducible apply Only.after (State.setChan_only ..))

theorem State.cvDoAbort_only (s : State) (c : Nat) :
    Only [.cv, .free] s (State.cvDoAbort s c) := by
  unfold State.cvDoAbort
  iterate 24 all_goals try (first
    | with_reducible exact Only.refl
    | with_reducible assumption
    | decide
    | dsimp only [id]
    | with_reducible apply Only.after (State.draw_only ..)
    | with_reducible refine Only.after (State.draw_only' (hq := by assumption)) (by decide) ?_
    | with_reducible apply Only.after (State.setChan_only ..)
    | with_reducible intro _
    | split)

theorem State.cvDoFeed_only (s : State) (c : Nat) (bs : List Byte) :
    Only [.cv] s (State.cvDoFeed s c bs) := by
  unfold State.cvDoFeed
  iterate 24 all_goals try (first
    | with_reducible exact Only.refl
    | with_reducible assumption
    | decide
    | dsimp only [id]
    | with_reducible apply Only.after (State.setChan_only ..))

theorem execCvGo_only (port : Fin 2) (chan : Fin 16) (s : State) (t : State) (hq : execCvGo port chan s = .next t) :
    Only [.ownPorts, .cv] s t := by
  unfold execCvGo at hq
  injection hq with hq
  subst hq
  iterate 24 all_goals try (first
    | with_reducible exact Only.refl
    | with_reducible assumption
    | decide
    | dsimp only [id]
    | with_reducible refine State.cvWrite_only ?_ (by decide) ?_
    | with_reducible apply Only.after (State.cvDoGo_only ..)
    | with_reducible intro _)

theorem execCvReset_only (port : Fin 2) (chan : Fin 16) (s : State) (t : State) (hq : execCvReset port chan s = .next t) :
    Only [.ownPorts, .cv] s t := by
  unfold execCvReset at hq
  injection hq with hq
  subst hq
  iterate 24 all_goals try (first
    | with_reducible exact Only.refl
    | with_reducible assumption
    | decide
    | dsimp only [id]
    | with_reducible refine State.cvWrite_only ?_ (by decide) ?_
    | with_reducible apply Only.after (State.cvDoReset_only ..)
    | with_reducible intro _)

theorem execCvCheck_only (port : Fin 2) (chan : Fin 16) (s : State) (t : State) (hq : execCvCheck port chan s = .next t) :
    Only [.ownPorts, .cv] s t := by
  unfold execCvCheck at hq
  injection hq with hq
  subst hq
  iterate 24 all_goals try (first
    | with_reducible exact Only.refl
    | with_reducible assumption
    | decide
    | dsimp only [id]
    | with_reducible refine State.cvWrite_only ?_ (by decide) ?_
    | with_reducible apply Only.after (State.cvDoCheck_only ..)
    | with_reducible intro _)

theorem execCvAbort_only (port : Fin 2) (chan : Fin 16) (s : State) (t : State) (hq : execCvAbort port chan s = .next t) :
    Only [.ownPorts, .cv, .free] s t := by
  unfold execCvAbort at hq
  injection hq with hq
  subst hq
  iterate 24 all_goals try (first
    | with_reducible exact Only.refl
    | with_reducible assumption
    | decide
    | dsimp only [id]
    | with_reducible refine State.cvWrite_only ?_ (by decide) ?_
    | with_reducible apply Only.after (State.cvDoAbort_only ..)
    | with_reducible intro _)

theorem execCvCompare_only (chan : Fin 16) (s : State) (t : State) (hq : execCvCompare chan s = .next t) :
    Only [.ports, .ics, .hostMem, .cv, .out] s t := by
  unfold execCvCompare at hq
  injection hq with hq
  subst hq
  iterate 24 all_goals try (first
    | with_reducible exact Only.refl
    | with_reducible assumption
    | decide
    | dsimp only [id]
    | with_reducible apply Only.after (State.cvDoCompare_only ..)
    | with_reducible intro _
    | split)

theorem execCvFeedB_only (port : Fin 2) (chan : Fin 16) (value : BitVec 32) (s : State) (t : State) (hq : execCvFeedB port chan value s = .next t) :
    Only [.ownPorts, .cv] s t := by
  unfold execCvFeedB at hq
  injection hq with hq
  subst hq
  iterate 24 all_goals try (first
    | with_reducible exact Only.refl
    | with_reducible assumption
    | decide
    | dsimp only [id]
    | with_reducible refine State.cvWrite_only ?_ (by decide) ?_
    | with_reducible apply Only.after (State.cvDoFeed_only ..)
    | with_reducible intro _)

theorem execCvFeedH_only (port : Fin 2) (chan : Fin 16) (value : BitVec 32) (s : State) (t : State) (hq : execCvFeedH port chan value s = .next t) :
    Only [.ownPorts, .cv] s t := by
  unfold execCvFeedH at hq
  injection hq with hq
  subst hq
  iterate 24 all_goals try (first
    | with_reducible exact Only.refl
    | with_reducible assumption
    | decide
    | dsimp only [id]
    | with_reducible refine State.cvWrite_only ?_ (by decide) ?_
    | with_reducible apply Only.after (State.cvDoFeed_only ..)
    | with_reducible intro _)

theorem execCvFeedW_only (port : Fin 2) (chan : Fin 16) (value : BitVec 32) (s : State) (t : State) (hq : execCvFeedW port chan value s = .next t) :
    Only [.ownPorts, .cv] s t := by
  unfold execCvFeedW at hq
  injection hq with hq
  subst hq
  iterate 24 all_goals try (first
    | with_reducible exact Only.refl
    | with_reducible assumption
    | decide
    | dsimp only [id]
    | with_reducible refine State.cvWrite_only ?_ (by decide) ?_
    | with_reducible apply Only.after (State.cvDoFeed_only ..)
    | with_reducible intro _)

theorem State.cvScan_only (s : State) (alg : Bool) (by' : Fin 4) (crc : BitVec 64) (a : Nat) (n : Nat) (x1 : Nat) :
    Only [.ics, .commands, .mem, .events, .free, .run] s (State.cvScan s alg by' crc a n x1).1 := by
  fun_induction State.cvScan s alg by' crc a n x1
  all_goals try simp_all only
  iterate 24 all_goals try (first
    | with_reducible exact Only.refl
    | with_reducible assumption
    | decide
    | dsimp only [id]
    | with_reducible apply Only.after (State.readPiece_only ..)
    | with_reducible refine Only.after (State.readPiece_only' (hq := by assumption)) (by decide) ?_
    | with_reducible refine Only.trans ?_ (by assumption))

theorem State.cvScan_only' {s : State} {alg : Bool} {by' : Fin 4} {crc : BitVec 64} {a : Nat} {n : Nat} {x1 : Nat} {r0 : _} {t0 : State} (hq : State.cvScan s alg by' crc a n x1 = (t0, r0)) :
    Only [.ics, .commands, .mem, .events, .free, .run] s t0 := by
  have gq := State.cvScan_only s alg by' crc a n x1
  rw [hq] at gq
  exact gq

theorem execCvScanEnd_only (chan : Fin 16) (s : State) (t : State) (hq : execCvScanEnd chan s = .next t) :
    Only [.ports, .ics, .commands, .mem, .hostMem, .cv, .events, .out, .free, .run] s t := by
  unfold execCvScanEnd at hq
  injection hq with hq
  subst hq
  iterate 24 all_goals try (first
    | with_reducible exact Only.refl
    | with_reducible assumption
    | decide
    | dsimp only [id]
    | with_reducible apply Only.after (State.cvScan_only ..)
    | with_reducible refine Only.after (State.cvScan_only' (hq := by assumption)) (by decide) ?_
    | with_reducible apply Only.after (State.setChan_only ..)
    | with_reducible apply Only.after (State.cvDoCompare_only ..)
    | with_reducible intro _
    | split)

theorem State.cvWord_only (s : State) (c : Nat) (by' : Fin 4) (off : Nat) (w : Nat) :
    Only [.cv, .free] s (State.cvWord s c by' off w) := by
  unfold State.cvWord
  iterate 24 all_goals try (first
    | with_reducible exact Only.refl
    | with_reducible assumption
    | decide
    | dsimp only [id]
    | with_reducible apply Only.after (State.cvDoGo_only ..)
    | with_reducible apply Only.after (State.cvDoReset_only ..)
    | with_reducible apply Only.after (State.cvDoCheck_only ..)
    | with_reducible apply Only.after (State.cvDoAbort_only ..)
    | with_reducible apply Only.after (State.cvDoFeed_only ..)
    | with_reducible apply Only.after (State.setChan_only ..)
    | with_reducible intro _
    | split)

/-! ## Machine/Waiting.lean -/

theorem State.serveAccess_only (s0 : State) (pair : Nat) (h : Held) :
    Only [.ics, .commands, .mem, .events, .out, .free] s0 (State.serveAccess s0 pair h) := by
  unfold State.serveAccess
  iterate 24 all_goals try (first
    | with_reducible exact Only.refl
    | with_reducible assumption
    | decide
    | dsimp only [id]
    | with_reducible apply Only.after (State.setVault_only ..)
    | with_reducible apply Only.after (State.writeLine_only ..)
    | with_reducible apply Only.after (State.emit_only ..)
    | with_reducible apply Only.after (State.readLine_only ..)
    | with_reducible refine Only.after (State.readLine_only' (hq := by assumption)) (by decide) ?_
    | with_reducible intro _
    | split)

theorem State.serveSome_only (s : State) (pair : Nat) (x1 : Nat) :
    Only [.ics, .commands, .mem, .events, .out, .free] s (State.serveSome s pair x1) := by
  fun_induction State.serveSome s pair x1
  iterate 24 all_goals try (first
    | with_reducible exact Only.refl
    | with_reducible assumption
    | decide
    | dsimp only [id]
    | with_reducible apply Only.after (State.serveAccess_only ..)
    | with_reducible apply Only.after (State.setVault_only ..)
    | with_reducible refine Only.trans ?_ (by assumption))

theorem State.serveHeld_only (s : State) (pair : Nat) :
    Only [.ics, .commands, .mem, .events, .out, .free] s (State.serveHeld s pair) := by
  unfold State.serveHeld
  iterate 24 all_goals try (first
    | with_reducible exact Only.refl
    | with_reducible assumption
    | decide
    | dsimp only [id]
    | with_reducible apply Only.after (State.serveSome_only ..)
    | with_reducible intro _
    | split)

theorem State.access_only (s : State) (pair : Nat) (h : Held) :
    Only [.ics, .commands, .mem, .events, .out, .free] s (State.access s pair h) := by
  unfold State.access
  iterate 24 all_goals try (first
    | with_reducible exact Only.refl
    | with_reducible assumption
    | decide
    | dsimp only [id]
    | with_reducible apply Only.after (State.setVault_only ..)
    | with_reducible apply Only.after (State.serveAccess_only ..)
    | with_reducible intro _
    | split)

theorem State.coreAccess_only (s : State) (core : Nat) (cls : Fin 3) (a : Nat) (rd : Option Nat) (data : List Byte) :
    Only [.ics, .commands, .mem, .far, .events, .trust, .out, .free] s (State.coreAccess s core cls a rd data) := by
  unfold State.coreAccess
  iterate 24 all_goals try (first
    | with_reducible exact Only.refl
    | with_reducible assumption
    | decide
    | dsimp only [id]
    | with_reducible apply Only.after (State.access_only ..)
    | with_reducible apply Only.after (State.farRead_only ..)
    | with_reducible refine Only.after (State.farRead_only' (hq := by assumption)) (by decide) ?_
    | with_reducible apply Only.after (State.emit_only ..)
    | with_reducible apply Only.after (State.farWrite_only ..)
    | with_reducible apply Only.after (reachStop_only ..)
    | with_reducible intro _
    | split)

theorem State.coreRead_only (s : State) (core : Nat) (cls : Fin 3) (a : Nat) (n : Nat) :
    Only [.ics, .commands, .mem, .far, .events, .trust, .out, .free] s (State.coreRead s core cls a n) := by
  unfold State.coreRead
  iterate 24 all_goals try (first
    | with_reducible exact Only.refl
    | with_reducible assumption
    | decide
    | dsimp only [id]
    | with_reducible apply Only.after (State.coreAccess_only ..)
    | with_reducible refine Only.foldl _ ?_ ?_
    | with_reducible refine Only.foldlPair ?_ ?_
    | with_reducible refine Only.foldlPair' (by assumption) ?_ ?_
    | with_reducible intro _
    | split)

theorem State.coreWrite_only (s : State) (core : Nat) (cls : Fin 3) (a : Nat) (bs : List Byte) :
    Only [.ics, .commands, .mem, .far, .events, .trust, .out, .free] s (State.coreWrite s core cls a bs) := by
  unfold State.coreWrite
  iterate 24 all_goals try (first
    | with_reducible exact Only.refl
    | with_reducible assumption
    | decide
    | dsimp only [id]
    | with_reducible apply Only.after (State.coreAccess_only ..)
    | with_reducible refine Only.foldl _ ?_ ?_
    | with_reducible refine Only.foldlPair ?_ ?_
    | with_reducible refine Only.foldlPair' (by assumption) ?_ ?_
    | with_reducible intro _
    | split)

theorem State.openWindows_only (s : State) :
    Only [.ics, .commands, .mem, .events, .out, .free] s (State.openWindows s) := by
  unfold State.openWindows
  iterate 24 all_goals try (first
    | with_reducible exact Only.refl
    | with_reducible assumption
    | decide
    | dsimp only [id]
    | with_reducible apply Only.after (State.serveHeld_only ..)
    | with_reducible refine Only.foldl _ ?_ ?_
    | with_reducible refine Only.foldlPair ?_ ?_
    | with_reducible refine Only.foldlPair' (by assumption) ?_ ?_
    | with_reducible intro _)

theorem execNearRead_only (pair : Fin 1024) (offset : Nat) (len : Nat) (s : State) (t : State) (hq : execNearRead pair offset len s = .next t) :
    Only [.ics, .commands, .mem, .far, .events, .trust, .out, .free] s t := by
  unfold execNearRead at hq
  injection hq with hq
  subst hq
  iterate 24 all_goals try (first
    | with_reducible exact Only.refl
    | with_reducible assumption
    | decide
    | dsimp only [id]
    | with_reducible apply Only.after (State.coreRead_only ..)
    | with_reducible intro _
    | split)

theorem execNearWrite_only (pair : Fin 1024) (offset : Nat) (data : List (BitVec 8)) (s : State) (t : State) (hq : execNearWrite pair offset data s = .next t) :
    Only [.ics, .commands, .mem, .far, .events, .trust, .out, .free] s t := by
  unfold execNearWrite at hq
  injection hq with hq
  subst hq
  iterate 24 all_goals try (first
    | with_reducible exact Only.refl
    | with_reducible assumption
    | decide
    | dsimp only [id]
    | with_reducible apply Only.after (State.coreWrite_only ..)
    | with_reducible intro _
    | split)

theorem execFarRead_only (core : Fin 1024) (addr : Nat) (len : Nat) (cls : Fin 3) (s : State) (t : State) (hq : execFarRead core addr len cls s = .next t) :
    Only [.ics, .commands, .mem, .far, .events, .trust, .out, .free] s t := by
  unfold execFarRead at hq
  injection hq with hq
  subst hq
  iterate 24 all_goals try (first
    | with_reducible exact Only.refl
    | with_reducible assumption
    | decide
    | dsimp only [id]
    | with_reducible apply Only.after (State.coreRead_only ..))

theorem execFarWrite_only (core : Fin 1024) (addr : Nat) (data : List (BitVec 8)) (cls : Fin 3) (s : State) (t : State) (hq : execFarWrite core addr data cls s = .next t) :
    Only [.ics, .commands, .mem, .far, .events, .trust, .out, .free] s t := by
  unfold execFarWrite at hq
  injection hq with hq
  subst hq
  iterate 24 all_goals try (first
    | with_reducible exact Only.refl
    | with_reducible assumption
    | decide
    | dsimp only [id]
    | with_reducible apply Only.after (State.coreWrite_only ..))

theorem execMergeEntryIdle_only (pair : Fin 1024) (word : Nat) (s : State) (t : State) (hq : execMergeEntryIdle pair word s = .next t) :
    Only [.ics, .commands, .mem, .events, .free] s t := by
  unfold execMergeEntryIdle at hq
  injection hq with hq
  subst hq
  iterate 24 all_goals try (first
    | with_reducible exact Only.refl
    | with_reducible assumption
    | decide
    | dsimp only [id]
    | with_reducible apply Only.after (State.writeOut_only ..)
    | with_reducible intro _
    | split)

theorem execAccessPromote_only (pair : Fin 1024) (index : Nat) (s : State) (t : State) (hq : execAccessPromote pair index s = .next t) :
    Only [.ics, .commands, .mem, .events, .out, .free] s t := by
  unfold execAccessPromote at hq
  injection hq with hq
  subst hq
  iterate 24 all_goals try (first
    | with_reducible exact Only.refl
    | with_reducible assumption
    | decide
    | dsimp only [id]
    | with_reducible apply Only.after (State.serveHeld_only ..)
    | with_reducible apply Only.after (State.setVault_only ..)
    | with_reducible intro _
    | split)

theorem State.emptySlice_only (s : State) (tower : Nat) :
    Only [.mem] s (State.emptySlice s tower) := by
  unfold State.emptySlice
  iterate 24 all_goals try (first
    | with_reducible exact Only.refl
    | with_reducible assumption
    | decide
    | dsimp only [id]
    | with_reducible apply Only.after (State.setSlice_only ..))

/-! ## Machine/Orders.lean -/

theorem State.setOper_only (s : State) (tag : Nat) (i : Nat) (f : Oper → Oper) :
    Only [.commands] s (State.setOper s tag i f) := by
  unfold State.setOper
  iterate 24 all_goals try (first
    | with_reducible exact Only.refl
    | with_reducible assumption
    | decide
    | dsimp only [id]
    | with_reducible apply Only.after (State.setCmd_only ..))

theorem State.fenceFlush_only (s : State) (c : OpCtx) :
    Only [.ics, .commands, .mem, .events, .free, .run] s (State.fenceFlush s c) := by
  unfold State.fenceFlush
  iterate 24 all_goals try (first
    | with_reducible exact Only.refl
    | with_reducible assumption
    | decide
    | dsimp only [id]
    | with_reducible apply Only.after (State.flushMerge_only ..)
    | with_reducible refine Only.foldl _ ?_ ?_
    | with_reducible refine Only.foldlPair ?_ ?_
    | with_reducible refine Only.foldlPair' (by assumption) ?_ ?_
    | simp only [OnlyMk.mark]
    | ((with_reducible refine OnlyMk.of ?_ ?_); rotate_left; focus (intro p hp; cases p <;> first | exact absurd (by decide) hp | rfl | exact ⟨rfl, rfl⟩))
    | with_reducible intro _
    | split)

theorem State.putOff_only (s : State) (l : List LateWrite) :
    Only [.run] s (State.putOff s l) := by
  unfold State.putOff
  iterate 24 all_goals try (first
    | with_reducible exact Only.refl
    | with_reducible assumption
    | decide
    | dsimp only [id]
    | simp only [OnlyMk.mark]
    | ((with_reducible refine OnlyMk.of ?_ ?_); rotate_left; focus (intro p hp; cases p <;> first | exact absurd (by decide) hp | rfl | exact ⟨rfl, rfl⟩)))

theorem State.runOp_only {L : List Part} {s0 : State} {s : State} {k : OpKind} {tag : Nat} {i : Nat} {body : OpCtx → State → State × Ending} (hs : Only L s0 s) (w : within [.ics, .commands, .mem, .events, .free, .run] L = true) (hb : ∀ u0 u1, Only L u1 (body u0 u1).1) :
    Only L s0 (State.runOp s k tag i body) := by
  unfold State.runOp
  iterate 24 all_goals try (first
    | with_reducible exact Only.refl
    | with_reducible assumption
    | with_reducible refine Only.trans ?_ (hb ..)
    | exact within_trans (by decide) w
    | decide
    | dsimp only [id]
    | with_reducible apply Only.after (State.setOper_only ..)
    | with_reducible apply Only.after (State.fenceFlush_only ..)
    | with_reducible intro _
    | split)

theorem State.writeOpstat_only (s : State) (addr : Nat) (i : Nat) (stat : Nat) (result : Nat) :
    Only [.ics, .commands, .mem, .far, .events, .trust, .free, .run] s (State.writeOpstat s addr i stat result) := by
  unfold State.writeOpstat
  iterate 24 all_goals try (first
    | with_reducible exact Only.refl
    | with_reducible assumption
    | decide
    | dsimp only [id]
    | with_reducible apply Only.after (State.store_only ..)
    | with_reducible intro _
    | split)

theorem State.endOrder_only (s : State) (tag : Nat) :
    Only [.ics, .commands, .mem, .events, .trust] s (State.endOrder s tag) := by
  unfold State.endOrder
  iterate 24 all_goals try (first
    | with_reducible exact Only.refl
    | with_reducible assumption
    | decide
    | dsimp only [id]
    | with_reducible apply Only.after (State.endCmd_only ..)
    | with_reducible intro _
    | split)

theorem State.releasePins_only (s : State) (tag : Nat) (i : Nat) :
    Only [.kv] s (State.releasePins s tag i) := by
  unfold State.releasePins
  iterate 24 all_goals try (first
    | with_reducible exact Only.refl
    | with_reducible assumption
    | decide
    | dsimp only [id]
    | simp only [OnlyMk.mark]
    | ((with_reducible refine OnlyMk.of ?_ ?_); rotate_left; focus (intro p hp; cases p <;> first | exact absurd (by decide) hp | rfl | exact ⟨rfl, rfl⟩)))

theorem execOrderStart_only (tag : Nat) (s : State) (t : State) (hq : execOrderStart tag s = .next t) :
    Only [.commands] s t := by
  unfold execOrderStart at hq
  injection hq with hq
  subst hq
  iterate 24 all_goals try (first
    | with_reducible exact Only.refl
    | with_reducible assumption
    | decide
    | dsimp only [id]
    | with_reducible apply Only.after (State.setCmd_only ..)
    | with_reducible intro _
    | split)

theorem execOpNop_only (tag : Nat) (op : Nat) (s : State) (t : State) (hq : execOpNop tag op s = .next t) :
    Only [.ics, .commands, .mem, .events, .free, .run] s t := by
  unfold execOpNop at hq
  injection hq with hq
  subst hq
  iterate 24 all_goals try (first
    | with_reducible exact Only.refl
    | with_reducible assumption
    | decide
    | dsimp only [id]
    | with_reducible refine State.runOp_only ?_ (by decide) ?_
    | with_reducible intro _)

theorem State.cancelTag_only (s : State) (tag : Nat) :
    Only [.claims, .commands, .power, .links] s (State.cancelTag s tag) := by
  unfold State.cancelTag
  iterate 24 all_goals try (first
    | with_reducible exact Only.refl
    | with_reducible assumption
    | decide
    | dsimp only [id]
    | simp only [OnlyMk.mark]
    | ((with_reducible refine OnlyMk.of ?_ ?_); rotate_left; focus (intro p hp; cases p <;> first | exact absurd (by decide) hp | rfl | exact ⟨rfl, rfl⟩)))

theorem State.markStruck_only (s : State) (tags : List Nat) (st : Status) (d : BitVec 32) :
    Only [.claims, .commands, .power, .links] s (State.markStruck s tags st d) := by
  unfold State.markStruck
  iterate 24 all_goals try (first
    | with_reducible exact Only.refl
    | with_reducible assumption
    | decide
    | dsimp only [id]
    | with_reducible apply Only.after (State.cancelTag_only ..)
    | with_reducible apply Only.after (State.setCmd_only ..)
    | with_reducible refine Only.foldl _ ?_ ?_
    | with_reducible refine Only.foldlPair ?_ ?_
    | with_reducible refine Only.foldlPair' (by assumption) ?_ ?_
    | with_reducible intro _)

theorem State.addJob_only (s : State) (j : StrikeJob) :
    Only [.commands] s (State.addJob s j) := by
  unfold State.addJob
  iterate 24 all_goals try (first
    | with_reducible exact Only.refl
    | with_reducible assumption
    | decide
    | dsimp only [id]
    | with_reducible refine Only.setWarden ?_ ?_
    | simp only [OnlyMk.mark]
    | ((with_reducible refine OnlyMk.of ?_ ?_); rotate_left; focus (intro p hp; cases p <;> first | exact absurd (by decide) hp | rfl | exact ⟨rfl, rfl⟩)))

theorem State.strikeSlots_only (s : State) (l : List SealedSlot) (st : Status) (d : BitVec 32) :
    Only [.intakes, .ics, .sealed, .commands] s (State.strikeSlots s l st d) := by
  unfold State.strikeSlots
  iterate 24 all_goals try (first
    | with_reducible exact Only.refl
    | with_reducible assumption
    | decide
    | dsimp only [id]
    | with_reducible apply Only.after (State.endSlot_only ..)
    | with_reducible apply Only.after (State.takeSlot_only ..)
    | with_reducible apply Only.after (State.setSealed_only ..)
    | with_reducible apply Only.after (State.advanceSeq_only ..)
    | with_reducible apply Only.after (State.setIntake_only ..)
    | with_reducible refine Only.foldl _ ?_ ?_
    | with_reducible refine Only.foldlPair ?_ ?_
    | with_reducible refine Only.foldlPair' (by assumption) ?_ ?_
    | with_reducible intro _
    | split)

theorem Adm.strike_only (a : Adm) (s : State) (tags : List Nat) (slots : List SealedSlot) :
    Only [.claims, .intakes, .ics, .sealed, .commands, .power, .mem, .links, .events, .trust] s (Adm.strike a s tags slots) := by
  unfold Adm.strike
  iterate 24 all_goals try (first
    | with_reducible exact Only.refl
    | with_reducible assumption
    | decide
    | dsimp only [id]
    | with_reducible apply Only.after (Adm.finish_only ..)
    | with_reducible apply Only.after (State.addJob_only ..)
    | with_reducible apply Only.after (State.markStruck_only ..)
    | with_reducible apply Only.after (State.strikeSlots_only ..)
    | with_reducible intro _
    | split)

theorem execStrikeOrder_only (ctrl : Fin 4) (slot : Fin 1024) (s : State) (t : State) (hq : execStrikeOrder ctrl slot s = .next t) :
    Only [.claims, .intakes, .ics, .sealed, .commands, .power, .mem, .links, .events, .trust] s t := by
  unfold execStrikeOrder at hq
  injection hq with hq
  subst hq
  iterate 24 all_goals try (first
    | with_reducible exact Only.refl
    | with_reducible assumption
    | decide
    | dsimp only [id]
    | with_reducible refine State.serve_only ?_ (by decide) ?_
    | with_reducible refine Adm.checked_only ?_ (by decide) ?_
    | with_reducible apply Only.after (Adm.strike_only ..)
    | with_reducible apply Only.after (Adm.finish_only ..)
    | with_reducible intro _
    | split)

theorem execStrikeSeq_only (ctrl : Fin 4) (slot : Fin 1024) (s : State) (t : State) (hq : execStrikeSeq ctrl slot s = .next t) :
    Only [.claims, .intakes, .ics, .sealed, .commands, .power, .mem, .links, .events, .trust] s t := by
  unfold execStrikeSeq at hq
  injection hq with hq
  subst hq
  iterate 24 all_goals try (first
    | with_reducible exact Only.refl
    | with_reducible assumption
    | decide
    | dsimp only [id]
    | with_reducible refine State.serve_only ?_ (by decide) ?_
    | with_reducible refine Adm.checked_only ?_ (by decide) ?_
    | with_reducible apply Only.after (Adm.strike_only ..)
    | with_reducible intro _)

theorem execStrikeAll_only (ctrl : Fin 4) (slot : Fin 1024) (s : State) (t : State) (hq : execStrikeAll ctrl slot s = .next t) :
    Only [.claims, .intakes, .ics, .sealed, .commands, .power, .mem, .links, .events, .trust] s t := by
  unfold execStrikeAll at hq
  injection hq with hq
  subst hq
  iterate 24 all_goals try (first
    | with_reducible exact Only.refl
    | with_reducible assumption
    | decide
    | dsimp only [id]
    | with_reducible refine State.serve_only ?_ (by decide) ?_
    | with_reducible apply Only.after (Adm.strike_only ..)
    | with_reducible intro _)

theorem State.mayDegrade_only (s : State) :
    Only [.commands, .free] s (State.mayDegrade s) := by
  unfold State.mayDegrade
  iterate 24 all_goals try (first
    | with_reducible exact Only.refl
    | with_reducible assumption
    | decide
    | dsimp only [id]
    | with_reducible refine Only.after (State.drawIf_only (by assumption)) (by decide) ?_
    | with_reducible apply Only.after (State.drawMany_only ..)
    | with_reducible refine Only.after (State.drawMany_only' (hq := by assumption)) (by decide) ?_
    | with_reducible refine Only.setWarden ?_ ?_
    | simp only [OnlyMk.mark]
    | ((with_reducible refine OnlyMk.of ?_ ?_); rotate_left; focus (intro p hp; cases p <;> first | exact absurd (by decide) hp | rfl | exact ⟨rfl, rfl⟩)))

theorem State.stopBanks_only (s : State) (tag : Nat) (op : Nat) :
    Only [.ics, .commands, .mem, .events, .out, .free] s (State.stopBanks s tag op) := by
  unfold State.stopBanks
  iterate 24 all_goals try (first
    | with_reducible exact Only.refl
    | with_reducible assumption
    | decide
    | dsimp only [id]
    | with_reducible apply Only.after (State.serveHeld_only ..)
    | with_reducible apply Only.after (State.setVault_only ..)
    | with_reducible refine Only.foldl _ ?_ ?_
    | with_reducible refine Only.foldlPair ?_ ?_
    | with_reducible refine Only.foldlPair' (by assumption) ?_ ?_
    | with_reducible intro _)

theorem execUnitStop_only (tag : Nat) (op : Nat) (s : State) (t : State) (hq : execUnitStop tag op s = .next t) :
    Only [.ics, .commands, .mem, .kv, .events, .out, .free] s t := by
  unfold execUnitStop at hq
  injection hq with hq
  subst hq
  iterate 24 all_goals try (first
    | with_reducible exact Only.refl
    | with_reducible assumption
    | decide
    | dsimp only [id]
    | with_reducible apply Only.after (State.setOper_only ..)
    | with_reducible apply Only.after (State.releasePins_only ..)
    | with_reducible apply Only.after (State.stopBanks_only ..)
    | with_reducible intro _
    | split)

theorem State.recordStruck_only (s : State) (tag : Nat) :
    Only [.ics, .commands, .mem, .far, .events, .trust, .free, .run] s (State.recordStruck s tag) := by
  unfold State.recordStruck
  iterate 24 all_goals try (first
    | with_reducible exact Only.refl
    | with_reducible assumption
    | decide
    | dsimp only [id]
    | with_reducible apply Only.after (State.endCmd_only ..)
    | with_reducible apply Only.after (State.writeOpstat_only ..)
    | with_reducible refine Only.foldl _ ?_ ?_
    | with_reducible refine Only.foldlPair ?_ ?_
    | with_reducible refine Only.foldlPair' (by assumption) ?_ ?_
    | with_reducible intro _
    | split)

theorem State.finishJob_only (s : State) (j : StrikeJob) :
    Only [.ics, .commands, .mem, .far, .events, .trust, .free, .run] s (State.finishJob s j) := by
  unfold State.finishJob
  iterate 24 all_goals try (first
    | with_reducible exact Only.refl
    | with_reducible assumption
    | decide
    | dsimp only [id]
    | with_reducible apply Only.after (State.recordStruck_only ..)
    | with_reducible apply Only.after (State.endCmd_only ..)
    | with_reducible refine Only.foldl _ ?_ ?_
    | with_reducible refine Only.foldlPair ?_ ?_
    | with_reducible refine Only.foldlPair' (by assumption) ?_ ?_
    | with_reducible intro _
    | split)

theorem execStrikeRecords_only (s : State) (t : State) (hq : execStrikeRecords s = .next t) :
    Only [.ics, .commands, .mem, .far, .events, .trust, .free, .run] s t := by
  unfold execStrikeRecords at hq
  injection hq with hq
  subst hq
  iterate 24 all_goals try (first
    | with_reducible exact Only.refl
    | with_reducible assumption
    | decide
    | dsimp only [id]
    | with_reducible apply Only.after (State.finishJob_only ..)
    | with_reducible refine Only.foldl _ ?_ ?_
    | with_reducible refine Only.foldlPair ?_ ?_
    | with_reducible refine Only.foldlPair' (by assumption) ?_ ?_
    | with_reducible refine Only.setWarden ?_ ?_
    | simp only [OnlyMk.mark]
    | ((with_reducible refine OnlyMk.of ?_ ?_); rotate_left; focus (intro p hp; cases p <;> first | exact absurd (by decide) hp | rfl | exact ⟨rfl, rfl⟩))
    | with_reducible intro _)

theorem State.strikeEverything_only (s : State) (st : Status) (d : BitVec 32) (keep : List Nat) :
    Only [.claims, .intakes, .ics, .sealed, .commands, .power, .links] s (State.strikeEverything s st d keep) := by
  unfold State.strikeEverything
  iterate 24 all_goals try (first
    | with_reducible exact Only.refl
    | with_reducible assumption
    | decide
    | dsimp only [id]
    | with_reducible apply Only.after (State.markStruck_only ..)
    | with_reducible apply Only.after (State.strikeSlots_only ..)
    | with_reducible apply Only.after (State.addJob_only ..)
    | with_reducible intro _
    | split)

end Sys2Proof.Machine
end

