-- ==== Sys2Proof/Laws/Frames2.lean ====
section
/-! SUPPORT. Which parts of the state each operation and each meaning of Machine/Mirror.lean to Machine/Moves.lean can change, one
lemma each. -/

namespace Sys2Proof.Machine

open Sys2Proof

/-! ## Machine/Mirror.lean -/

theorem State.sendFrame_only (s : State) (m : Nat) (head : List Byte) :
    Only [.seam, .out] s (State.sendFrame s m head) := by
  unfold State.sendFrame
  iterate 24 all_goals try (first
    | with_reducible exact Only.refl
    | with_reducible assumption
    | decide
    | dsimp only [id]
    | with_reducible apply Only.after (State.setSeamMod_only ..)
    | with_reducible apply Only.after (State.emit_only ..)
    | with_reducible intro _
    | split)

theorem State.drainSeam_only (s : State) (m : Nat) :
    Only [.seam, .out] s (State.drainSeam s m) := by
  unfold State.drainSeam
  iterate 24 all_goals try (first
    | with_reducible exact Only.refl
    | with_reducible assumption
    | decide
    | dsimp only [id]
    | with_reducible apply Only.after (State.sendFrame_only ..)
    | with_reducible apply Only.after (State.setSeamMod_only ..)
    | with_reducible refine Only.foldl _ ?_ ?_
    | with_reducible refine Only.foldlPair ?_ ?_
    | with_reducible refine Only.foldlPair' (by assumption) ?_ ?_
    | with_reducible intro _)

theorem State.tell_only (s : State) (x : Mirror) :
    Only [.seam, .out] s (State.tell s x) := by
  unfold State.tell
  iterate 24 all_goals try (first
    | with_reducible exact Only.refl
    | with_reducible assumption
    | decide
    | dsimp only [id]
    | with_reducible apply Only.after (State.sendFrame_only ..)
    | with_reducible refine Only.foldl _ ?_ ?_
    | with_reducible refine Only.foldlPair ?_ ?_
    | with_reducible refine Only.foldlPair' (by assumption) ?_ ?_
    | simp only [OnlyMk.mark]
    | ((with_reducible refine OnlyMk.of ?_ ?_); rotate_left; focus (intro p hp; cases p <;> first | exact absurd (by decide) hp | rfl | exact ⟨rfl, rfl⟩))
    | with_reducible intro _
    | split)

/-! ## Machine/Geometry.lean -/

theorem State.asBuilt_only (s : State) :
    Only [.geo] s (State.asBuilt s) := by
  unfold State.asBuilt
  iterate 24 all_goals try (first
    | with_reducible exact Only.refl
    | with_reducible assumption
    | decide
    | dsimp only [id]
    | simp only [OnlyMk.mark]
    | ((with_reducible refine OnlyMk.of ?_ ?_); rotate_left; focus (intro p hp; cases p <;> first | exact absurd (by decide) hp | rfl | exact ⟨rfl, rfl⟩))
    | with_reducible intro _
    | split)

theorem execGeometryRead_only (ctrl : Fin 4) (slot : Fin 1024) (s : State) (t : State) (hq : execGeometryRead ctrl slot s = .next t) :
    Only [.geo, .intakes, .ports, .ics, .sealed, .commands, .mem, .hostMem, .events, .trust, .out] s t := by
  unfold execGeometryRead at hq
  injection hq with hq
  subst hq
  iterate 24 all_goals try (first
    | with_reducible exact Only.refl
    | with_reducible assumption
    | decide
    | dsimp only [id]
    | with_reducible refine State.serve_only ?_ (by decide) ?_
    | with_reducible refine Adm.checked_only ?_ (by decide) ?_
    | with_reducible apply Only.after (Adm.finish_only ..)
    | with_reducible apply Only.after (Adm.copyOut_only ..)
    | with_reducible intro _
    | split)

theorem State.appendOverlay_only (s : State) (kind : Nat) (tower : Nat) (site : Nat) (sub : Nat) (detail : Nat) :
    Only [.geo, .events] s (State.appendOverlay s kind tower site sub detail) := by
  unfold State.appendOverlay
  iterate 24 all_goals try (first
    | with_reducible exact Only.refl
    | with_reducible assumption
    | decide
    | dsimp only [id]
    | with_reducible apply Only.after (State.postArgs_only ..)
    | simp only [OnlyMk.mark]
    | ((with_reducible refine OnlyMk.of ?_ ?_); rotate_left; focus (intro p hp; cases p <;> first | exact absurd (by decide) hp | rfl | exact ⟨rfl, rfl⟩))
    | with_reducible intro _
    | split)

theorem State.overlayPair_only (s : State) (kind : Nat) (pair : Nat) (sub : Nat) (detail : Nat) :
    Only [.geo, .events] s (State.overlayPair s kind pair sub detail) := by
  unfold State.overlayPair
  iterate 24 all_goals try (first
    | with_reducible exact Only.refl
    | with_reducible assumption
    | decide
    | dsimp only [id]
    | with_reducible apply Only.after (State.appendOverlay_only ..))

theorem execDefectRead_only (ctrl : Fin 4) (slot : Fin 1024) (s : State) (t : State) (hq : execDefectRead ctrl slot s = .next t) :
    Only [.intakes, .ports, .ics, .sealed, .commands, .mem, .hostMem, .events, .trust, .out] s t := by
  unfold execDefectRead at hq
  injection hq with hq
  subst hq
  iterate 24 all_goals try (first
    | with_reducible exact Only.refl
    | with_reducible assumption
    | decide
    | dsimp only [id]
    | with_reducible refine State.serve_only ?_ (by decide) ?_
    | with_reducible refine Adm.checked_only ?_ (by decide) ?_
    | with_reducible apply Only.after (Adm.finish_only ..)
    | with_reducible apply Only.after (Adm.copyOut_only ..)
    | with_reducible intro _
    | split)

theorem State.setSettings_only (s : State) (f : Settings → Settings) :
    Only [.settings] s (State.setSettings s f) := by
  unfold State.setSettings
  iterate 24 all_goals try (first
    | with_reducible exact Only.refl
    | with_reducible assumption
    | decide
    | dsimp only [id]
    | simp only [OnlyMk.mark]
    | ((with_reducible refine OnlyMk.of ?_ ?_); rotate_left; focus (intro p hp; cases p <;> first | exact absurd (by decide) hp | rfl | exact ⟨rfl, rfl⟩)))

theorem State.setLantern_only (s : State) (f : Lantern → Lantern) :
    Only [.lantern, .lsChanges] s (State.setLantern s f) := by
  unfold State.setLantern
  iterate 24 all_goals try (first
    | with_reducible exact Only.refl
    | with_reducible assumption
    | decide
    | dsimp only [id]
    | simp only [OnlyMk.mark]
    | ((with_reducible refine OnlyMk.of ?_ ?_); rotate_left; focus (intro p hp; cases p <;> first | exact absurd (by decide) hp | rfl | exact ⟨rfl, rfl⟩)))

theorem execPitchConfig_only (ctrl : Fin 4) (slot : Fin 1024) (s : State) (t : State) (hq : execPitchConfig ctrl slot s = .next t) :
    Only [.settings, .intakes, .ics, .sealed, .commands, .mem, .events, .trust] s t := by
  unfold execPitchConfig at hq
  injection hq with hq
  subst hq
  iterate 24 all_goals try (first
    | with_reducible exact Only.refl
    | with_reducible assumption
    | decide
    | dsimp only [id]
    | with_reducible refine State.serve_only ?_ (by decide) ?_
    | with_reducible refine Adm.checked_only ?_ (by decide) ?_
    | with_reducible apply Only.after (Adm.done_only ..)
    | with_reducible apply Only.after (State.setSettings_only ..)
    | with_reducible intro _)

theorem execModeSet_only (ctrl : Fin 4) (slot : Fin 1024) (s : State) (t : State) (hq : execModeSet ctrl slot s = .next t) :
    Only [.settings, .lantern, .lsChanges, .intakes, .ics, .sealed, .commands, .mem, .seam, .events, .trust, .out] s t := by
  unfold execModeSet at hq
  injection hq with hq
  subst hq
  iterate 24 all_goals try (first
    | with_reducible exact Only.refl
    | with_reducible assumption
    | decide
    | dsimp only [id]
    | with_reducible refine State.serve_only ?_ (by decide) ?_
    | with_reducible refine Adm.checked_only ?_ (by decide) ?_
    | with_reducible apply Only.after (State.tell_only ..)
    | with_reducible apply Only.after (Adm.done_only ..)
    | with_reducible apply Only.after (State.setSettings_only ..)
    | with_reducible apply Only.after (State.setLantern_only ..)
    | with_reducible intro _
    | split)

theorem Adm.defer_only (a : Adm) (s : State) (e : Effect) :
    Only [.commands] s (Adm.defer a s e) := by
  unfold Adm.defer
  iterate 24 all_goals try (first
    | with_reducible exact Only.refl
    | with_reducible assumption
    | decide
    | dsimp only [id]
    | with_reducible refine Only.setWarden ?_ ?_
    | simp only [OnlyMk.mark]
    | ((with_reducible refine OnlyMk.of ?_ ?_); rotate_left; focus (intro p hp; cases p <;> first | exact absurd (by decide) hp | rfl | exact ⟨rfl, rfl⟩)))

theorem execMemErrlogRead_only (ctrl : Fin 4) (slot : Fin 1024) (s : State) (t : State) (hq : execMemErrlogRead ctrl slot s = .next t) :
    Only [.intakes, .ports, .ics, .sealed, .commands, .mem, .hostMem, .events, .trust, .out] s t := by
  unfold execMemErrlogRead at hq
  injection hq with hq
  subst hq
  iterate 24 all_goals try (first
    | with_reducible exact Only.refl
    | with_reducible assumption
    | decide
    | dsimp only [id]
    | with_reducible refine State.serve_only ?_ (by decide) ?_
    | with_reducible refine Adm.checked_only ?_ (by decide) ?_
    | with_reducible apply Only.after (Adm.finish_only ..)
    | with_reducible apply Only.after (Adm.copyOut_only ..)
    | with_reducible intro _
    | split)

theorem execMemScrubSet_only (ctrl : Fin 4) (slot : Fin 1024) (s : State) (t : State) (hq : execMemScrubSet ctrl slot s = .next t) :
    Only [.settings, .intakes, .ics, .sealed, .commands, .mem, .events, .trust] s t := by
  unfold execMemScrubSet at hq
  injection hq with hq
  subst hq
  iterate 24 all_goals try (first
    | with_reducible exact Only.refl
    | with_reducible assumption
    | decide
    | dsimp only [id]
    | with_reducible refine State.serve_only ?_ (by decide) ?_
    | with_reducible refine Adm.checked_only ?_ (by decide) ?_
    | with_reducible apply Only.after (Adm.done_only ..)
    | with_reducible apply Only.after (State.setSettings_only ..)
    | with_reducible intro _)

theorem execMemWindowSet_only (ctrl : Fin 4) (slot : Fin 1024) (s : State) (t : State) (hq : execMemWindowSet ctrl slot s = .next t) :
    Only [.intakes, .ics, .sealed, .commands, .mem, .events, .trust] s t := by
  unfold execMemWindowSet at hq
  injection hq with hq
  subst hq
  iterate 24 all_goals try (first
    | with_reducible exact Only.refl
    | with_reducible assumption
    | decide
    | dsimp only [id]
    | with_reducible refine State.serve_only ?_ (by decide) ?_
    | with_reducible refine Adm.checked_only ?_ (by decide) ?_
    | with_reducible apply Only.after (Adm.finish_only ..)
    | with_reducible apply Only.after (Adm.defer_only ..)
    | with_reducible intro _
    | split)

theorem execMemRetire_only (ctrl : Fin 4) (slot : Fin 1024) (s : State) (t : State) (hq : execMemRetire ctrl slot s = .next t) :
    Only [.intakes, .ics, .sealed, .commands, .mem, .events, .trust] s t := by
  unfold execMemRetire at hq
  injection hq with hq
  subst hq
  iterate 24 all_goals try (first
    | with_reducible exact Only.refl
    | with_reducible assumption
    | decide
    | dsimp only [id]
    | with_reducible refine State.serve_only ?_ (by decide) ?_
    | with_reducible refine Adm.checked_only ?_ (by decide) ?_
    | with_reducible apply Only.after (Adm.defer_only ..)
    | with_reducible intro _
    | split)

theorem execMemUnretire_only (ctrl : Fin 4) (slot : Fin 1024) (s : State) (t : State) (hq : execMemUnretire ctrl slot s = .next t) :
    Only [.intakes, .ics, .sealed, .commands, .mem, .events, .trust] s t := by
  unfold execMemUnretire at hq
  injection hq with hq
  subst hq
  iterate 24 all_goals try (first
    | with_reducible exact Only.refl
    | with_reducible assumption
    | decide
    | dsimp only [id]
    | with_reducible refine State.serve_only ?_ (by decide) ?_
    | with_reducible refine Adm.checked_only ?_ (by decide) ?_
    | with_reducible apply Only.after (Adm.defer_only ..)
    | with_reducible apply Only.after (Adm.done_only ..)
    | simp only [OnlyMk.mark]
    | ((with_reducible refine OnlyMk.of ?_ ?_); rotate_left; focus (intro p hp; cases p <;> first | exact absurd (by decide) hp | rfl | exact ⟨rfl, rfl⟩))
    | with_reducible intro _
    | split)

theorem execCoreConfig_only (ctrl : Fin 4) (slot : Fin 1024) (s : State) (t : State) (hq : execCoreConfig ctrl slot s = .next t) :
    Only [.intakes, .ics, .sealed, .commands, .mem, .events, .trust] s t := by
  unfold execCoreConfig at hq
  injection hq with hq
  subst hq
  iterate 24 all_goals try (first
    | with_reducible exact Only.refl
    | with_reducible assumption
    | decide
    | dsimp only [id]
    | with_reducible refine State.serve_only ?_ (by decide) ?_
    | with_reducible refine Adm.checked_only ?_ (by decide) ?_
    | with_reducible apply Only.after (Adm.defer_only ..)
    | with_reducible intro _)

theorem execRingAdopt_only (ctrl : Fin 4) (slot : Fin 1024) (s : State) (t : State) (hq : execRingAdopt ctrl slot s = .next t) :
    Only [.intakes, .ics, .sealed, .commands, .mem, .events, .trust] s t := by
  unfold execRingAdopt at hq
  injection hq with hq
  subst hq
  iterate 24 all_goals try (first
    | with_reducible exact Only.refl
    | with_reducible assumption
    | decide
    | dsimp only [id]
    | with_reducible refine State.serve_only ?_ (by decide) ?_
    | with_reducible refine Adm.checked_only ?_ (by decide) ?_
    | with_reducible apply Only.after (Adm.done_only ..)
    | with_reducible refine Only.setWarden ?_ ?_
    | simp only [OnlyMk.mark]
    | ((with_reducible refine OnlyMk.of ?_ ?_); rotate_left; focus (intro p hp; cases p <;> first | exact absurd (by decide) hp | rfl | exact ⟨rfl, rfl⟩))
    | with_reducible intro _)

theorem execCtlClaim_only (ctrl : Fin 4) (slot : Fin 1024) (s : State) (t : State) (hq : execCtlClaim ctrl slot s = .next t) :
    Only [.own, .claims, .ownPorts, .intakes, .ics, .sealed, .commands, .mem, .events, .trust] s t := by
  unfold execCtlClaim at hq
  injection hq with hq
  subst hq
  iterate 24 all_goals try (first
    | with_reducible exact Only.refl
    | with_reducible assumption
    | decide
    | dsimp only [id]
    | with_reducible refine State.serve_only ?_ (by decide) ?_
    | with_reducible refine Adm.checked_only ?_ (by decide) ?_
    | with_reducible apply Only.after (State.claim_only ..)
    | with_reducible apply Only.after (State.setOwnPort_only ..)
    | with_reducible apply Only.after (Adm.done_only ..)
    | with_reducible intro _
    | split)

theorem execCtlRenew_only (ctrl : Fin 4) (slot : Fin 1024) (s : State) (t : State) (hq : execCtlRenew ctrl slot s = .next t) :
    Only [.own, .ownPorts, .intakes, .ics, .sealed, .commands, .mem, .events, .trust] s t := by
  unfold execCtlRenew at hq
  injection hq with hq
  subst hq
  iterate 24 all_goals try (first
    | with_reducible exact Only.refl
    | with_reducible assumption
    | decide
    | dsimp only [id]
    | with_reducible refine State.serve_only ?_ (by decide) ?_
    | with_reducible refine Adm.checked_only ?_ (by decide) ?_
    | with_reducible apply Only.after (Adm.done_only ..)
    | with_reducible apply Only.after (State.renew_only ..)
    | with_reducible apply Only.after (Adm.finish_only ..)
    | with_reducible intro _
    | split)

theorem execCtlHandover_only (ctrl : Fin 4) (slot : Fin 1024) (s : State) (t : State) (hq : execCtlHandover ctrl slot s = .next t) :
    Only [.own, .ownPorts, .intakes, .ics, .sealed, .commands, .mem, .events, .trust] s t := by
  unfold execCtlHandover at hq
  injection hq with hq
  subst hq
  iterate 24 all_goals try (first
    | with_reducible exact Only.refl
    | with_reducible assumption
    | decide
    | dsimp only [id]
    | with_reducible refine State.serve_only ?_ (by decide) ?_
    | with_reducible refine Adm.checked_only ?_ (by decide) ?_
    | with_reducible apply Only.after (Adm.finish_only ..)
    | with_reducible apply Only.after (State.deny_only ..)
    | with_reducible apply Only.after (State.handover_only ..)
    | with_reducible apply Only.after (Adm.done_only ..)
    | simp only [OnlyMk.mark]
    | ((with_reducible refine OnlyMk.of ?_ ?_); rotate_left; focus (intro p hp; cases p <;> first | exact absurd (by decide) hp | rfl | exact ⟨rfl, rfl⟩))
    | with_reducible intro _
    | split)

theorem execCtlAccept_only (ctrl : Fin 4) (slot : Fin 1024) (s : State) (t : State) (hq : execCtlAccept ctrl slot s = .next t) :
    Only [.own, .claims, .ownPorts, .intakes, .ports, .ics, .sealed, .commands, .mem, .hostMem, .links, .events, .trust, .i3c, .out] s t := by
  unfold execCtlAccept at hq
  injection hq with hq
  subst hq
  iterate 24 all_goals try (first
    | with_reducible exact Only.refl
    | with_reducible assumption
    | decide
    | dsimp only [id]
    | with_reducible refine State.serve_only ?_ (by decide) ?_
    | with_reducible refine Adm.checked_only ?_ (by decide) ?_
    | with_reducible apply Only.after (Adm.done_only ..)
    | with_reducible apply Only.after (State.accept_only ..)
    | with_reducible apply Only.after (Adm.finish_only ..)
    | with_reducible intro _
    | split)

theorem execCtlRelease_only (ctrl : Fin 4) (slot : Fin 1024) (s : State) (t : State) (hq : execCtlRelease ctrl slot s = .next t) :
    Only [.own, .ownPorts, .intakes, .ports, .ics, .sealed, .commands, .mem, .hostMem, .links, .events, .trust, .i3c, .out] s t := by
  unfold execCtlRelease at hq
  injection hq with hq
  subst hq
  iterate 24 all_goals try (first
    | with_reducible exact Only.refl
    | with_reducible assumption
    | decide
    | dsimp only [id]
    | with_reducible refine State.serve_only ?_ (by decide) ?_
    | with_reducible refine Adm.checked_only ?_ (by decide) ?_
    | with_reducible apply Only.after (Adm.done_only ..)
    | with_reducible apply Only.after (State.release_only ..)
    | with_reducible apply Only.after (Adm.finish_only ..)
    | with_reducible intro _
    | split)

theorem execCtlOwnStatus_only (ctrl : Fin 4) (slot : Fin 1024) (s : State) (t : State) (hq : execCtlOwnStatus ctrl slot s = .next t) :
    Only [.intakes, .ics, .sealed, .commands, .mem, .events, .trust] s t := by
  unfold execCtlOwnStatus at hq
  injection hq with hq
  subst hq
  iterate 24 all_goals try (first
    | with_reducible exact Only.refl
    | with_reducible assumption
    | decide
    | dsimp only [id]
    | with_reducible refine State.serve_only ?_ (by decide) ?_
    | with_reducible refine Adm.checked_only ?_ (by decide) ?_
    | with_reducible apply Only.after (Adm.done_only ..)
    | with_reducible intro _)

/-! ## Machine/Identity.lean -/

theorem State.setTrust_only (s : State) (f : Trust → Trust) :
    Only [.trust] s (State.setTrust s f) := by
  unfold State.setTrust
  iterate 24 all_goals try (first
    | with_reducible exact Only.refl
    | with_reducible assumption
    | decide
    | dsimp only [id]
    | simp only [OnlyMk.mark]
    | ((with_reducible refine OnlyMk.of ?_ ?_); rotate_left; focus (intro p hp; cases p <;> first | exact absurd (by decide) hp | rfl | exact ⟨rfl, rfl⟩)))

theorem State.drawKey_only (s : State) :
    Only [.trust] s (State.drawKey s).2 := by
  unfold State.drawKey
  iterate 24 all_goals try (first
    | with_reducible exact Only.refl
    | with_reducible assumption
    | decide
    | dsimp only [id]
    | with_reducible apply Only.after (State.setTrust_only ..))

theorem State.drawKey_only' {s : State} {r0 : _} {t0 : State} (hq : State.drawKey s = (r0, t0)) :
    Only [.trust] s t0 := by
  have gq := State.drawKey_only s
  rw [hq] at gq
  exact gq

theorem State.postSecurity_only (s : State) (r : Reason) (who : Nat) :
    Only [.events] s (State.postSecurity s r who) := by
  unfold State.postSecurity
  iterate 24 all_goals try (first
    | with_reducible exact Only.refl
    | with_reducible assumption
    | decide
    | dsimp only [id]
    | with_reducible apply Only.after (State.postArgs_only ..))

theorem execEntropyHealthTest_only (pass : Bool) (s : State) (t : State) (hq : execEntropyHealthTest pass s = .next t) :
    Only [.events, .trust] s t := by
  unfold execEntropyHealthTest at hq
  injection hq with hq
  subst hq
  iterate 24 all_goals try (first
    | with_reducible exact Only.refl
    | with_reducible assumption
    | decide
    | dsimp only [id]
    | with_reducible apply Only.after (State.setTrust_only ..)
    | with_reducible apply Only.after (State.postSecurity_only ..)
    | with_reducible intro _
    | split)

theorem execAttest_only (ctrl : Fin 4) (slot : Fin 1024) (s : State) (t : State) (hq : execAttest ctrl slot s = .next t) :
    Only [.geo, .intakes, .ports, .ics, .sealed, .commands, .mem, .hostMem, .events, .trust, .out] s t := by
  unfold execAttest at hq
  injection hq with hq
  subst hq
  iterate 24 all_goals try (first
    | with_reducible exact Only.refl
    | with_reducible assumption
    | decide
    | dsimp only [id]
    | with_reducible refine State.serve_only ?_ (by decide) ?_
    | with_reducible refine Adm.checked_only ?_ (by decide) ?_
    | with_reducible apply Only.after (Adm.finish_only ..)
    | with_reducible apply Only.after (Adm.copyOut_only ..)
    | with_reducible intro _
    | split)

theorem execCertRead_only (ctrl : Fin 4) (slot : Fin 1024) (s : State) (t : State) (hq : execCertRead ctrl slot s = .next t) :
    Only [.intakes, .ports, .ics, .sealed, .commands, .mem, .hostMem, .events, .trust, .out] s t := by
  unfold execCertRead at hq
  injection hq with hq
  subst hq
  iterate 24 all_goals try (first
    | with_reducible exact Only.refl
    | with_reducible assumption
    | decide
    | dsimp only [id]
    | with_reducible refine State.serve_only ?_ (by decide) ?_
    | with_reducible refine Adm.checked_only ?_ (by decide) ?_
    | with_reducible apply Only.after (Adm.finish_only ..)
    | with_reducible apply Only.after (Adm.copyOut_only ..)
    | with_reducible intro _
    | split)

/-! ## Machine/Tokens.lean -/

theorem State.setLinks_only (s : State) (f : Links → Links) :
    Only [.links] s (State.setLinks s f) := by
  unfold State.setLinks
  iterate 24 all_goals try (first
    | with_reducible exact Only.refl
    | with_reducible assumption
    | decide
    | dsimp only [id]
    | simp only [OnlyMk.mark]
    | ((with_reducible refine OnlyMk.of ?_ ?_); rotate_left; focus (intro p hp; cases p <;> first | exact absurd (by decide) hp | rfl | exact ⟨rfl, rfl⟩)))

theorem State.sendEnum_only (s : State) (n : Nat) (kind : Nat) (abort : Bool) (domain : BitVec 16) (epoch : BitVec 32) (next : Nat) (node : Nat) :
    Only [.links, .out] s (State.sendEnum s n kind abort domain epoch next node) := by
  unfold State.sendEnum
  iterate 24 all_goals try (first
    | with_reducible exact Only.refl
    | with_reducible assumption
    | decide
    | dsimp only [id]
    | with_reducible apply Only.after (State.sendSeq_only ..))

theorem State.floodCommit_only (s : State) :
    Only [.links, .out] s (State.floodCommit s) := by
  unfold State.floodCommit
  iterate 24 all_goals try (first
    | with_reducible exact Only.refl
    | with_reducible assumption
    | decide
    | dsimp only [id]
    | with_reducible apply Only.after (State.sendEnum_only ..)
    | with_reducible refine Only.foldl _ ?_ ?_
    | with_reducible refine Only.foldlPair ?_ ?_
    | with_reducible refine Only.foldlPair' (by assumption) ?_ ?_
    | with_reducible intro _
    | split)

theorem State.finishToken_only (s : State) (j : TokenJob) :
    Only [.ics, .commands, .mem, .links, .events, .trust, .out] s (State.finishToken s j) := by
  unfold State.finishToken
  iterate 24 all_goals try (first
    | with_reducible exact Only.refl
    | with_reducible assumption
    | decide
    | dsimp only [id]
    | with_reducible apply Only.after (State.setLinks_only ..)
    | with_reducible apply Only.after (State.sendEnum_only ..)
    | with_reducible apply Only.after (State.endCmd_only ..)
    | with_reducible apply Only.after (State.floodCommit_only ..)
    | with_reducible intro _
    | split)

theorem State.passToken_only (s : State) (j : TokenJob) :
    Only [.ics, .commands, .mem, .links, .events, .trust, .out] s (State.passToken s j) := by
  unfold State.passToken
  iterate 24 all_goals try (first
    | with_reducible exact Only.refl
    | with_reducible assumption
    | decide
    | dsimp only [id]
    | with_reducible apply Only.after (State.sendEnum_only ..)
    | with_reducible apply Only.after (State.setLinks_only ..)
    | with_reducible apply Only.after (State.finishToken_only ..)
    | with_reducible intro _
    | split)

theorem State.clearRoles_only (s : State) :
    Only [.links] s (State.clearRoles s) := by
  unfold State.clearRoles
  iterate 24 all_goals try (first
    | with_reducible exact Only.refl
    | with_reducible assumption
    | decide
    | dsimp only [id]
    | with_reducible apply Only.after (State.setSl_only ..)
    | with_reducible refine Only.foldl _ ?_ ?_
    | with_reducible refine Only.foldlPair ?_ ?_
    | with_reducible refine Only.foldlPair' (by assumption) ?_ ?_
    | with_reducible intro _
    | split)

theorem State.takeId_only (s : State) (j : TokenJob) :
    Only [.links] s (State.takeId s j) := by
  unfold State.takeId
  iterate 24 all_goals try (first
    | with_reducible exact Only.refl
    | with_reducible assumption
    | decide
    | dsimp only [id]
    | with_reducible apply Only.after (State.setLinks_only ..)
    | with_reducible apply Only.after (State.clearRoles_only ..))

theorem State.overflowId_only (s : State) :
    Only [.links, .events] s (State.overflowId s) := by
  unfold State.overflowId
  iterate 24 all_goals try (first
    | with_reducible exact Only.refl
    | with_reducible assumption
    | decide
    | dsimp only [id]
    | with_reducible apply Only.after (State.postArgs_only ..)
    | with_reducible apply Only.after (State.setLinks_only ..))

theorem State.handleToken_only (s : State) (j : TokenJob) :
    Only [.ics, .commands, .mem, .links, .events, .trust, .out] s (State.handleToken s j) := by
  unfold State.handleToken
  iterate 24 all_goals try (first
    | with_reducible exact Only.refl
    | with_reducible assumption
    | decide
    | dsimp only [id]
    | with_reducible apply Only.after (State.passToken_only ..)
    | with_reducible apply Only.after (State.setLinks_only ..)
    | with_reducible apply Only.after (State.finishToken_only ..)
    | with_reducible apply Only.after (State.overflowId_only ..)
    | with_reducible apply Only.after (State.takeId_only ..)
    | with_reducible intro _
    | split)

theorem State.startPass_only (s : State) (full : Bool) (tag : Option Nat) :
    Only [.ics, .commands, .mem, .links, .events, .trust, .out] s (State.startPass s full tag) := by
  unfold State.startPass
  iterate 24 all_goals try (first
    | with_reducible exact Only.refl
    | with_reducible assumption
    | decide
    | dsimp only [id]
    | with_reducible apply Only.after (State.handleToken_only ..)
    | with_reducible apply Only.after (State.setLinks_only ..))

theorem State.joinNoticed_only (s : State) :
    Only [.ics, .commands, .mem, .links, .events, .trust, .out] s (State.joinNoticed s) := by
  unfold State.joinNoticed
  iterate 24 all_goals try (first
    | with_reducible exact Only.refl
    | with_reducible assumption
    | decide
    | dsimp only [id]
    | with_reducible apply Only.after (State.setLinks_only ..)
    | with_reducible apply Only.after (State.startPass_only ..)
    | with_reducible intro _
    | split)

theorem State.joinAgain_only (s : State) :
    Only [.ics, .commands, .mem, .links, .events, .trust, .out] s (State.joinAgain s) := by
  unfold State.joinAgain
  iterate 24 all_goals try (first
    | with_reducible exact Only.refl
    | with_reducible assumption
    | decide
    | dsimp only [id]
    | with_reducible apply Only.after (State.joinNoticed_only ..)
    | with_reducible apply Only.after (State.setLinks_only ..)
    | with_reducible intro _
    | split)

/-! ## Machine/Links.lean -/

theorem State.slDrop_only (s : State) (n : Nat) :
    Only [.links] s (State.slDrop s n) := by
  unfold State.slDrop
  iterate 24 all_goals try (first
    | with_reducible exact Only.refl
    | with_reducible assumption
    | decide
    | dsimp only [id]
    | with_reducible apply Only.after (State.setSl_only ..))

theorem State.sendAck_only (s : State) (n : Nat) :
    Only [.links, .out] s (State.sendAck s n) := by
  unfold State.sendAck
  iterate 24 all_goals try (first
    | with_reducible exact Only.refl
    | with_reducible assumption
    | decide
    | dsimp only [id]
    | with_reducible apply Only.after (State.setSl_only ..)
    | with_reducible apply Only.after (State.sendUnseq_only ..))

theorem State.askReplay_only (s : State) (n : Nat) :
    Only [.links, .out] s (State.askReplay s n) := by
  unfold State.askReplay
  iterate 24 all_goals try (first
    | with_reducible exact Only.refl
    | with_reducible assumption
    | decide
    | dsimp only [id]
    | with_reducible apply Only.after (State.setSl_only ..)
    | with_reducible apply Only.after (State.sendUnseq_only ..))

theorem State.replay_only (s : State) (n : Nat) :
    Only [.links, .out] s (State.replay s n) := by
  unfold State.replay
  iterate 24 all_goals try (first
    | with_reducible exact Only.refl
    | with_reducible assumption
    | decide
    | dsimp only [id]
    | with_reducible apply Only.after (State.setSl_only ..)
    | with_reducible apply Only.after (State.emitSeq_only ..)
    | with_reducible refine Only.foldl _ ?_ ?_
    | with_reducible refine Only.foldlPair ?_ ?_
    | with_reducible refine Only.foldlPair' (by assumption) ?_ ?_
    | with_reducible intro _)

theorem State.sendKey_only (s : State) (n : Nat) (kind : Nat) (bs : List Byte) :
    Only [.links, .out] s (State.sendKey s n kind bs) := by
  unfold State.sendKey
  iterate 24 all_goals try (first
    | with_reducible exact Only.refl
    | with_reducible assumption
    | decide
    | dsimp only [id]
    | with_reducible apply Only.after (State.sendUnseq_only ..)
    | with_reducible refine Only.foldl _ ?_ ?_
    | with_reducible refine Only.foldlPair ?_ ?_
    | with_reducible refine Only.foldlPair' (by assumption) ?_ ?_
    | with_reducible intro _)

theorem State.startKx_only (s : State) (n : Nat) (rekey : Bool) :
    Only [.links, .trust, .out] s (State.startKx s n rekey) := by
  unfold State.startKx
  iterate 24 all_goals try (first
    | with_reducible exact Only.refl
    | with_reducible assumption
    | decide
    | dsimp only [id]
    | with_reducible apply Only.after (State.drawKey_only ..)
    | with_reducible refine Only.after (State.drawKey_only' (hq := by assumption)) (by decide) ?_
    | with_reducible apply Only.after (State.sendKey_only ..)
    | with_reducible apply Only.after (State.setSl_only ..)
    | with_reducible intro _
    | split)

theorem State.dropKeys_only (s : State) (n : Nat) :
    Only [.links] s (State.dropKeys s n) := by
  unfold State.dropKeys
  iterate 24 all_goals try (first
    | with_reducible exact Only.refl
    | with_reducible assumption
    | decide
    | dsimp only [id]
    | with_reducible apply Only.after (State.setSl_only ..))

theorem State.tagFailed_only (s : State) (n : Nat) :
    Only [.links, .events, .trust, .out] s (State.tagFailed s n) := by
  unfold State.tagFailed
  iterate 24 all_goals try (first
    | with_reducible exact Only.refl
    | with_reducible assumption
    | decide
    | dsimp only [id]
    | with_reducible apply Only.after (State.setSl_only ..)
    | with_reducible apply Only.after (State.startKx_only ..)
    | with_reducible apply Only.after (State.postArgs_only ..)
    | with_reducible apply Only.after (State.dropKeys_only ..)
    | with_reducible apply Only.after (State.askReplay_only ..)
    | with_reducible intro _
    | split)

theorem State.kxFail_only (s : State) (n : Nat) :
    Only [.links, .events] s (State.kxFail s n) := by
  unfold State.kxFail
  iterate 24 all_goals try (first
    | with_reducible exact Only.refl
    | with_reducible assumption
    | decide
    | dsimp only [id]
    | with_reducible apply Only.after (State.postArgs_only ..)
    | with_reducible apply Only.after (State.setSl_only ..)
    | with_reducible apply Only.after (State.dropKeys_only ..))

theorem State.kxRefuse_only (s : State) (n : Nat) (r : Reason) :
    Only [.links, .events, .out] s (State.kxRefuse s n r) := by
  unfold State.kxRefuse
  iterate 24 all_goals try (first
    | with_reducible exact Only.refl
    | with_reducible assumption
    | decide
    | dsimp only [id]
    | with_reducible apply Only.after (State.kxFail_only ..)
    | with_reducible apply Only.after (State.sendKey_only ..))

theorem State.setKx_only (s : State) (n : Nat) (f : Kx → Kx) :
    Only [.links] s (State.setKx s n f) := by
  unfold State.setKx
  iterate 24 all_goals try (first
    | with_reducible exact Only.refl
    | with_reducible assumption
    | decide
    | dsimp only [id]
    | with_reducible apply Only.after (State.setSl_only ..))

theorem State.sendFinish_only (s : State) (n : Nat) :
    Only [.links, .out] s (State.sendFinish s n) := by
  unfold State.sendFinish
  iterate 24 all_goals try (first
    | with_reducible exact Only.refl
    | with_reducible assumption
    | decide
    | dsimp only [id]
    | with_reducible apply Only.after (State.sendKey_only ..)
    | with_reducible apply Only.after (State.setKx_only ..)
    | with_reducible intro _
    | split)

theorem State.sendJoin_only (s : State) (n : Nat) :
    Only [.ics, .commands, .mem, .links, .events, .trust, .out] s (State.sendJoin s n) := by
  unfold State.sendJoin
  iterate 24 all_goals try (first
    | with_reducible exact Only.refl
    | with_reducible assumption
    | decide
    | dsimp only [id]
    | with_reducible apply Only.after (State.sendSeq_only ..)
    | with_reducible apply Only.after (State.joinNoticed_only ..)
    | with_reducible intro _
    | split)

theorem State.kxComplete_only (s : State) (n : Nat) (x : Kx) :
    Only [.ics, .commands, .mem, .links, .events, .trust, .out] s (State.kxComplete s n x) := by
  unfold State.kxComplete
  iterate 24 all_goals try (first
    | with_reducible exact Only.refl
    | with_reducible assumption
    | decide
    | dsimp only [id]
    | with_reducible apply Only.after (State.drainTx_only ..)
    | with_reducible apply Only.after (State.setSl_only ..)
    | with_reducible apply Only.after (State.emitSeq_only ..)
    | with_reducible apply Only.after (State.sendJoin_only ..)
    | with_reducible refine Only.foldl _ ?_ ?_
    | with_reducible refine Only.foldlPair ?_ ?_
    | with_reducible refine Only.foldlPair' (by assumption) ?_ ?_
    | with_reducible intro _
    | split)

theorem State.kxSettle_only (s : State) (n : Nat) :
    Only [.ics, .commands, .mem, .links, .events, .trust, .out] s (State.kxSettle s n) := by
  unfold State.kxSettle
  iterate 24 all_goals try (first
    | with_reducible exact Only.refl
    | with_reducible assumption
    | decide
    | dsimp only [id]
    | with_reducible apply Only.after (State.kxComplete_only ..)
    | with_reducible intro _
    | split)

theorem State.keyArrives_only {L : List Part} {s0 : State} {s : State} {n : Nat} {act : State → State} (hs : Only L s0 s) (w : within [.links] L = true) (hb : ∀ u0, Only L u0 (act u0)) :
    Only L s0 (State.keyArrives s n act) := by
  unfold State.keyArrives
  iterate 24 all_goals try (first
    | with_reducible exact Only.refl
    | with_reducible assumption
    | with_reducible refine Only.trans ?_ (hb ..)
    | exact within_trans (by decide) w
    | decide
    | dsimp only [id]
    | with_reducible apply Only.after (State.slDrop_only ..)
    | with_reducible intro _
    | split)

theorem execKxHello_only (port : Fin 18) (random : List Byte) (chain : List Byte) (s : State) (t : State) (hq : execKxHello port random chain s = .next t) :
    Only [.geo, .links, .events, .trust, .out] s t := by
  unfold execKxHello at hq
  injection hq with hq
  subst hq
  iterate 24 all_goals try (first
    | with_reducible exact Only.refl
    | with_reducible assumption
    | decide
    | dsimp only [id]
    | with_reducible refine State.keyArrives_only ?_ (by decide) ?_
    | with_reducible apply Only.after (State.startKx_only ..)
    | with_reducible apply Only.after (State.kxRefuse_only ..)
    | with_reducible apply Only.after (State.setKx_only ..)
    | with_reducible apply Only.after (State.drawKey_only ..)
    | with_reducible refine Only.after (State.drawKey_only' (hq := by assumption)) (by decide) ?_
    | with_reducible apply Only.after (State.sendKey_only ..)
    | with_reducible intro _
    | split)

theorem execKxKemKey_only (port : Fin 18) (ek : List Byte) (report : List Byte) (s : State) (t : State) (hq : execKxKemKey port ek report s = .next t) :
    Only [.geo, .links, .events, .trust, .out] s t := by
  unfold execKxKemKey at hq
  injection hq with hq
  subst hq
  iterate 24 all_goals try (first
    | with_reducible exact Only.refl
    | with_reducible assumption
    | decide
    | dsimp only [id]
    | with_reducible refine State.keyArrives_only ?_ (by decide) ?_
    | with_reducible apply Only.after (State.kxRefuse_only ..)
    | with_reducible apply Only.after (State.drawKey_only ..)
    | with_reducible refine Only.after (State.drawKey_only' (hq := by assumption)) (by decide) ?_
    | with_reducible apply Only.after (State.sendFinish_only ..)
    | with_reducible apply Only.after (State.sendKey_only ..)
    | with_reducible apply Only.after (State.setKx_only ..)
    | with_reducible intro _
    | split)

theorem execKxKemCt_only (port : Fin 18) (ct : List Byte) (report : List Byte) (s : State) (t : State) (hq : execKxKemCt port ct report s = .next t) :
    Only [.ics, .commands, .mem, .links, .events, .trust, .out] s t := by
  unfold execKxKemCt at hq
  injection hq with hq
  subst hq
  iterate 24 all_goals try (first
    | with_reducible exact Only.refl
    | with_reducible assumption
    | decide
    | dsimp only [id]
    | with_reducible refine State.keyArrives_only ?_ (by decide) ?_
    | with_reducible apply Only.after (State.kxRefuse_only ..)
    | with_reducible apply Only.after (State.kxSettle_only ..)
    | with_reducible apply Only.after (State.sendFinish_only ..)
    | with_reducible apply Only.after (State.setKx_only ..)
    | with_reducible intro _
    | split)

theorem execKxFinish_only (port : Fin 18) (signature : List Byte) (s : State) (t : State) (hq : execKxFinish port signature s = .next t) :
    Only [.ics, .commands, .mem, .links, .events, .trust, .out] s t := by
  unfold execKxFinish at hq
  injection hq with hq
  subst hq
  iterate 24 all_goals try (first
    | with_reducible exact Only.refl
    | with_reducible assumption
    | decide
    | dsimp only [id]
    | with_reducible refine State.keyArrives_only ?_ (by decide) ?_
    | with_reducible apply Only.after (State.kxRefuse_only ..)
    | with_reducible apply Only.after (State.kxSettle_only ..)
    | with_reducible apply Only.after (State.setKx_only ..)
    | with_reducible intro _
    | split)

theorem execKxAbort_only (port : Fin 18) (_reason : BitVec 8) (s : State) (t : State) (hq : execKxAbort port _reason s = .next t) :
    Only [.links, .events] s t := by
  unfold execKxAbort at hq
  injection hq with hq
  subst hq
  iterate 24 all_goals try (first
    | with_reducible exact Only.refl
    | with_reducible assumption
    | decide
    | dsimp only [id]
    | with_reducible refine State.keyArrives_only ?_ (by decide) ?_
    | with_reducible apply Only.after (State.kxFail_only ..)
    | with_reducible intro _
    | split)

theorem State.kxAgain_only (s : State) (n : Nat) (x : Kx) :
    Only [.links, .trust, .out] s (State.kxAgain s n x) := by
  unfold State.kxAgain
  iterate 24 all_goals try (first
    | with_reducible exact Only.refl
    | with_reducible assumption
    | decide
    | dsimp only [id]
    | with_reducible apply Only.after (State.setSl_only ..)
    | with_reducible apply Only.after (State.startKx_only ..)
    | with_reducible intro _
    | split)

theorem execKeyExchangeTimeout_only (port : Fin 18) (s : State) (t : State) (hq : execKeyExchangeTimeout port s = .next t) :
    Only [.links, .trust, .out] s t := by
  unfold execKeyExchangeTimeout at hq
  injection hq with hq
  subst hq
  iterate 24 all_goals try (first
    | with_reducible exact Only.refl
    | with_reducible assumption
    | decide
    | dsimp only [id]
    | with_reducible apply Only.after (State.kxAgain_only ..)
    | with_reducible intro _
    | split)

theorem execKeyExchangeRetry_only (port : Fin 18) (s : State) (t : State) (hq : execKeyExchangeRetry port s = .next t) :
    Only [.links, .trust, .out] s t := by
  unfold execKeyExchangeRetry at hq
  injection hq with hq
  subst hq
  iterate 24 all_goals try (first
    | with_reducible exact Only.refl
    | with_reducible assumption
    | decide
    | dsimp only [id]
    | with_reducible apply Only.after (State.startKx_only ..)
    | with_reducible apply Only.after (State.setSl_only ..)
    | with_reducible intro _
    | split)

theorem execRekey_only (port : Fin 18) (s : State) (t : State) (hq : execRekey port s = .next t) :
    Only [.links, .trust, .out] s t := by
  unfold execRekey at hq
  injection hq with hq
  subst hq
  iterate 24 all_goals try (first
    | with_reducible exact Only.refl
    | with_reducible assumption
    | decide
    | dsimp only [id]
    | with_reducible apply Only.after (State.startKx_only ..)
    | with_reducible intro _
    | split)

theorem execOldKeyExpiry_only (port : Fin 18) (s : State) (t : State) (hq : execOldKeyExpiry port s = .next t) :
    Only [.links] s t := by
  unfold execOldKeyExpiry at hq
  injection hq with hq
  subst hq
  iterate 24 all_goals try (first
    | with_reducible exact Only.refl
    | with_reducible assumption
    | decide
    | dsimp only [id]
    | with_reducible apply Only.after (State.setSl_only ..)
    | with_reducible intro _
    | split)

theorem State.dropLanes_only (s : State) (n : Nat) (new : Nat) :
    Only [.lsChanges, .geo, .ports, .hostMem, .links, .events, .i3c, .out] s (State.dropLanes s n new) := by
  unfold State.dropLanes
  iterate 24 all_goals try (first
    | with_reducible exact Only.refl
    | with_reducible assumption
    | decide
    | dsimp only [id]
    | with_reducible apply Only.after (State.geoChange_only ..)
    | simp only [OnlyMk.mark]
    | ((with_reducible refine OnlyMk.of ?_ ?_); rotate_left; focus (intro p hp; cases p <;> first | exact absurd (by decide) hp | rfl | exact ⟨rfl, rfl⟩)))

theorem State.setLanes_only (s : State) (n : Nat) (new : Nat) (cause : Nat) :
    Only [.lsChanges, .geo, .ports, .ics, .hostMem, .links, .events, .i3c, .out] s (State.setLanes s n new cause) := by
  unfold State.setLanes
  iterate 24 all_goals try (first
    | with_reducible exact Only.refl
    | with_reducible assumption
    | decide
    | dsimp only [id]
    | with_reducible apply Only.after (State.setSl_only ..)
    | with_reducible apply Only.after (State.postArgs_only ..)
    | with_reducible apply Only.after (State.raise_only ..)
    | with_reducible apply Only.after (State.dropLanes_only ..)
    | with_reducible intro _
    | split)

theorem execSilmanPresenceChange_only (port : Fin 18) (present : Bool) (s : State) (t : State) (hq : execSilmanPresenceChange port present s = .next t) :
    Only [.lsChanges, .geo, .ports, .ics, .hostMem, .links, .events, .i3c, .out] s t := by
  unfold execSilmanPresenceChange at hq
  injection hq with hq
  subst hq
  iterate 24 all_goals try (first
    | with_reducible exact Only.refl
    | with_reducible assumption
    | decide
    | dsimp only [id]
    | with_reducible apply Only.after (State.setSl_only ..)
    | with_reducible apply Only.after (State.setLanes_only ..)
    | with_reducible apply Only.after (State.dropKeys_only ..)
    | with_reducible intro _
    | split)

theorem execPartnerDetect_only (port : Fin 18) (lanes : Nat) (s : State) (t : State) (hq : execPartnerDetect port lanes s = .next t) :
    Only [.links] s t := by
  unfold execPartnerDetect at hq
  injection hq with hq
  subst hq
  iterate 24 all_goals try (first
    | with_reducible exact Only.refl
    | with_reducible assumption
    | decide
    | dsimp only [id]
    | with_reducible apply Only.after (State.setSl_only ..)
    | with_reducible intro _
    | split)

theorem execTrainingComplete_only (port : Fin 18) (goodLanes : BitVec 4) (peerPort : Option (Fin 18)) (s : State) (t : State) (hq : execTrainingComplete port goodLanes peerPort s = .next t) :
    Only [.lsChanges, .geo, .ports, .ics, .hostMem, .links, .events, .trust, .i3c, .out] s t := by
  unfold execTrainingComplete at hq
  injection hq with hq
  subst hq
  iterate 24 all_goals try (first
    | with_reducible exact Only.refl
    | with_reducible assumption
    | decide
    | dsimp only [id]
    | with_reducible apply Only.after (State.setLanes_only ..)
    | with_reducible apply Only.after (State.setSl_only ..)
    | with_reducible apply Only.after (State.startKx_only ..)
    | with_reducible intro _
    | split)

theorem execTrainingOverrun_only (port : Fin 18) (s : State) (t : State) (hq : execTrainingOverrun port s = .next t) :
    Only [.links] s t := by
  unfold execTrainingOverrun at hq
  injection hq with hq
  subst hq
  iterate 24 all_goals try (first
    | with_reducible exact Only.refl
    | with_reducible assumption
    | decide
    | dsimp only [id]
    | with_reducible apply Only.after (State.setSl_only ..)
    | with_reducible intro _
    | split)

theorem State.slLaneFails_only (s : State) (port : Nat) (lane : Fin 4) :
    Only [.lsChanges, .geo, .ports, .ics, .hostMem, .links, .events, .i3c, .out] s (State.slLaneFails s port lane) := by
  unfold State.slLaneFails
  iterate 24 all_goals try (first
    | with_reducible exact Only.refl
    | with_reducible assumption
    | decide
    | dsimp only [id]
    | with_reducible apply Only.after (State.setSl_only ..)
    | with_reducible apply Only.after (State.dropKeys_only ..)
    | with_reducible apply Only.after (State.setLanes_only ..)
    | with_reducible intro _
    | split)

theorem execLaneFailing_only (port : Fin 18) (lane : Fin 4) (s : State) (t : State) (hq : execLaneFailing port lane s = .next t) :
    Only [.lsChanges, .geo, .ports, .ics, .hostMem, .links, .events, .i3c, .out] s t := by
  unfold execLaneFailing at hq
  injection hq with hq
  subst hq
  iterate 24 all_goals try (first
    | with_reducible exact Only.refl
    | with_reducible assumption
    | decide
    | dsimp only [id]
    | with_reducible apply Only.after (State.slLaneFails_only ..))

theorem State.takeHeader_only (s : State) (n : Nat) (h : FlitHdr) :
    Only [.links, .out] s (State.takeHeader s n h) := by
  unfold State.takeHeader
  iterate 24 all_goals try (first
    | with_reducible exact Only.refl
    | with_reducible assumption
    | decide
    | dsimp only [id]
    | with_reducible apply Only.after (State.drainTx_only ..)
    | with_reducible apply Only.after (State.setSl_only ..))

theorem State.takePhase_only (s : State) (n : Nat) (h : FlitHdr) :
    Only [.links] s (State.takePhase s n h) := by
  unfold State.takePhase
  iterate 24 all_goals try (first
    | with_reducible exact Only.refl
    | with_reducible assumption
    | decide
    | dsimp only [id]
    | with_reducible apply Only.after (State.setSl_only ..))

theorem State.rx_only {L : List Part} {s0 : State} {s : State} {n : Nat} {h : FlitHdr} {k : FlitKind} {act : State → State} (hs : Only L s0 s) (w : within [.links, .events, .trust, .out] L = true) (hb : ∀ u0, Only L u0 (act u0)) :
    Only L s0 (State.rx s n h k act) := by
  unfold State.rx
  iterate 24 all_goals try (first
    | with_reducible exact Only.refl
    | with_reducible assumption
    | with_reducible refine Only.trans ?_ (hb ..)
    | exact within_trans (by decide) w
    | decide
    | dsimp only [id]
    | with_reducible apply Only.after (State.slDrop_only ..)
    | with_reducible apply Only.after (State.tagFailed_only ..)
    | with_reducible apply Only.after (State.askReplay_only ..)
    | with_reducible apply Only.after (State.takePhase_only ..)
    | with_reducible apply Only.after (State.takeHeader_only ..)
    | with_reducible apply Only.after (State.setSl_only ..)
    | with_reducible intro _
    | split)

theorem State.rxRouted_only {L : List Part} {s0 : State} {s : State} {n : Nat} {h : FlitHdr} {kind : BitVec 8} {msg : Option RemoteMsg} {bytes : List Byte} {act : State → State} (hs : Only L s0 s) (w : within [.links, .events, .trust, .out] L = true) (hb : ∀ u0, Only L u0 (act u0)) :
    Only L s0 (State.rxRouted s n h kind msg bytes act) := by
  unfold State.rxRouted
  iterate 24 all_goals try (first
    | with_reducible exact Only.refl
    | with_reducible assumption
    | with_reducible refine Only.trans ?_ (hb ..)
    | exact within_trans (by decide) w
    | decide
    | dsimp only [id]
    | with_reducible refine State.rx_only ?_ (by first | decide | exact within_trans (by decide) w) ?_
    | with_reducible apply Only.after (State.sendSeq_only ..)
    | with_reducible apply Only.after (State.slDrop_only ..)
    | with_reducible intro _
    | split)

theorem execFlitIdle_only (port : Fin 18) (hdr : FlitHdr) (s : State) (t : State) (hq : execFlitIdle port hdr s = .next t) :
    Only [.links, .events, .trust, .out] s t := by
  unfold execFlitIdle at hq
  injection hq with hq
  subst hq
  iterate 24 all_goals try (first
    | with_reducible exact Only.refl
    | with_reducible assumption
    | decide
    | dsimp only [id]
    | with_reducible refine State.rx_only ?_ (by decide) ?_
    | with_reducible intro _)

theorem execFcAcknowledge_only (port : Fin 18) (hdr : FlitHdr) (next : BitVec 32) (credits : Credits) (s : State) (t : State) (hq : execFcAcknowledge port hdr next credits s = .next t) :
    Only [.links, .events, .trust, .out] s t := by
  unfold execFcAcknowledge at hq
  injection hq with hq
  subst hq
  iterate 24 all_goals try (first
    | with_reducible exact Only.refl
    | with_reducible assumption
    | decide
    | dsimp only [id]
    | with_reducible refine State.rx_only ?_ (by decide) ?_
    | with_reducible apply Only.after (State.drainTx_only ..)
    | with_reducible apply Only.after (State.setSl_only ..)
    | with_reducible intro _)

theorem execFcReplayRequest_only (port : Fin 18) (hdr : FlitHdr) (next : BitVec 32) (credits : Credits) (s : State) (t : State) (hq : execFcReplayRequest port hdr next credits s = .next t) :
    Only [.links, .events, .trust, .out] s t := by
  unfold execFcReplayRequest at hq
  injection hq with hq
  subst hq
  iterate 24 all_goals try (first
    | with_reducible exact Only.refl
    | with_reducible assumption
    | decide
    | dsimp only [id]
    | with_reducible refine State.rx_only ?_ (by decide) ?_
    | with_reducible apply Only.after (State.drainTx_only ..)
    | with_reducible apply Only.after (State.replay_only ..)
    | with_reducible apply Only.after (State.setSl_only ..)
    | with_reducible intro _)

theorem execFcAckTimer_only (port : Fin 18) (s : State) (t : State) (hq : execFcAckTimer port s = .next t) :
    Only [.links, .out] s t := by
  unfold execFcAckTimer at hq
  injection hq with hq
  subst hq
  iterate 24 all_goals try (first
    | with_reducible exact Only.refl
    | with_reducible assumption
    | decide
    | dsimp only [id]
    | with_reducible apply Only.after (State.sendAck_only ..)
    | with_reducible intro _
    | split)

theorem execUncorrectableCodeword_only (port : Fin 18) (lane : Fin 4) (s : State) (t : State) (hq : execUncorrectableCodeword port lane s = .next t) :
    Only [.lsChanges, .geo, .ports, .ics, .hostMem, .links, .events, .i3c, .out] s t := by
  unfold execUncorrectableCodeword at hq
  injection hq with hq
  subst hq
  iterate 24 all_goals try (first
    | with_reducible exact Only.refl
    | with_reducible assumption
    | decide
    | dsimp only [id]
    | with_reducible apply Only.after (State.askReplay_only ..)
    | with_reducible apply Only.after (State.setSl_only ..)
    | with_reducible apply Only.after (State.slLaneFails_only ..)
    | with_reducible intro _
    | split)

theorem execReservedFlitType_only (port : Fin 18) (hdr : FlitHdr) (flitType : BitVec 4) (kind : BitVec 8) (s : State) (t : State) (hq : execReservedFlitType port hdr flitType kind s = .next t) :
    Only [.links, .events, .trust, .out] s t := by
  unfold execReservedFlitType at hq
  injection hq with hq
  subst hq
  iterate 24 all_goals try (first
    | with_reducible exact Only.refl
    | with_reducible assumption
    | decide
    | dsimp only [id]
    | with_reducible refine State.keyArrives_only ?_ (by decide) ?_
    | with_reducible apply Only.after (State.kxAgain_only ..)
    | with_reducible refine State.rx_only ?_ (by decide) ?_
    | with_reducible apply Only.after (State.slDrop_only ..)
    | with_reducible intro _
    | split)

theorem State.enableSl_only (s : State) (n : Nat) (en : Bool) :
    Only [.lsChanges, .geo, .ports, .ics, .hostMem, .links, .events, .i3c, .out] s (State.enableSl s n en) := by
  unfold State.enableSl
  iterate 24 all_goals try (first
    | with_reducible exact Only.refl
    | with_reducible assumption
    | decide
    | dsimp only [id]
    | with_reducible apply Only.after (State.setSl_only ..)
    | with_reducible apply Only.after (State.dropKeys_only ..)
    | with_reducible apply Only.after (State.setLanes_only ..)
    | with_reducible intro _
    | split)

theorem execLinkConfig_only (ctrl : Fin 4) (slot : Fin 1024) (s : State) (t : State) (hq : execLinkConfig ctrl slot s = .next t) :
    Only [.settings, .lsChanges, .geo, .intakes, .ports, .ics, .sealed, .commands, .mem, .hostMem, .links, .events, .trust, .i3c, .out] s t := by
  unfold execLinkConfig at hq
  injection hq with hq
  subst hq
  iterate 24 all_goals try (first
    | with_reducible exact Only.refl
    | with_reducible assumption
    | decide
    | dsimp only [id]
    | with_reducible refine State.serve_only ?_ (by decide) ?_
    | with_reducible refine Adm.checked_only ?_ (by decide) ?_
    | with_reducible apply Only.after (State.setSettings_only ..)
    | with_reducible apply Only.after (Adm.done_only ..)
    | with_reducible apply Only.after (State.enableSl_only ..)
    | with_reducible refine Only.foldl _ ?_ ?_
    | with_reducible refine Only.foldlPair ?_ ?_
    | with_reducible refine Only.foldlPair' (by assumption) ?_ ?_
    | with_reducible intro _)

theorem execLinkRetrain_only (ctrl : Fin 4) (slot : Fin 1024) (s : State) (t : State) (hq : execLinkRetrain ctrl slot s = .next t) :
    Only [.intakes, .ics, .sealed, .commands, .mem, .links, .events, .trust] s t := by
  unfold execLinkRetrain at hq
  injection hq with hq
  subst hq
  iterate 24 all_goals try (first
    | with_reducible exact Only.refl
    | with_reducible assumption
    | decide
    | dsimp only [id]
    | with_reducible refine State.serve_only ?_ (by decide) ?_
    | with_reducible refine Adm.checked_only ?_ (by decide) ?_
    | with_reducible apply Only.after (State.dropKeys_only ..)
    | with_reducible apply Only.after (Adm.done_only ..)
    | with_reducible apply Only.after (State.setSl_only ..)
    | with_reducible intro _)

theorem execLinkRouteSet_only (ctrl : Fin 4) (slot : Fin 1024) (s : State) (t : State) (hq : execLinkRouteSet ctrl slot s = .next t) :
    Only [.intakes, .ics, .sealed, .commands, .mem, .links, .events, .trust] s t := by
  unfold execLinkRouteSet at hq
  injection hq with hq
  subst hq
  iterate 24 all_goals try (first
    | with_reducible exact Only.refl
    | with_reducible assumption
    | decide
    | dsimp only [id]
    | with_reducible refine State.serve_only ?_ (by decide) ?_
    | with_reducible refine Adm.checked_only ?_ (by decide) ?_
    | with_reducible apply Only.after (Adm.done_only ..)
    | with_reducible apply Only.after (State.setLinks_only ..)
    | with_reducible intro _)

/-! ## Machine/Enum.lean -/

theorem execLinkEnumerate_only (ctrl : Fin 4) (slot : Fin 1024) (s : State) (t : State) (hq : execLinkEnumerate ctrl slot s = .next t) :
    Only [.intakes, .ics, .sealed, .commands, .mem, .links, .events, .trust, .out] s t := by
  unfold execLinkEnumerate at hq
  injection hq with hq
  subst hq
  iterate 24 all_goals try (first
    | with_reducible exact Only.refl
    | with_reducible assumption
    | decide
    | dsimp only [id]
    | with_reducible refine State.serve_only ?_ (by decide) ?_
    | with_reducible refine Adm.checked_only ?_ (by decide) ?_
    | with_reducible apply Only.after (State.startPass_only ..)
    | with_reducible intro _)

theorem execEnumToken_only (port : Fin 18) (hdr : FlitHdr) (msg : EnumMsg) (s : State) (t : State) (hq : execEnumToken port hdr msg s = .next t) :
    Only [.ics, .commands, .mem, .links, .events, .trust, .out] s t := by
  unfold execEnumToken at hq
  injection hq with hq
  subst hq
  iterate 24 all_goals try (first
    | with_reducible exact Only.refl
    | with_reducible assumption
    | decide
    | dsimp only [id]
    | with_reducible refine State.rx_only ?_ (by decide) ?_
    | with_reducible apply Only.after (State.sendEnum_only ..)
    | with_reducible apply Only.after (State.setSl_only ..)
    | with_reducible apply Only.after (State.handleToken_only ..)
    | with_reducible apply Only.after (State.setLinks_only ..)
    | with_reducible intro _
    | split)

theorem execEnumReturn_only (port : Fin 18) (hdr : FlitHdr) (msg : EnumMsg) (s : State) (t : State) (hq : execEnumReturn port hdr msg s = .next t) :
    Only [.ics, .commands, .mem, .links, .events, .trust, .out] s t := by
  unfold execEnumReturn at hq
  injection hq with hq
  subst hq
  iterate 24 all_goals try (first
    | with_reducible exact Only.refl
    | with_reducible assumption
    | decide
    | dsimp only [id]
    | with_reducible refine State.rx_only ?_ (by decide) ?_
    | with_reducible apply Only.after (State.finishToken_only ..)
    | with_reducible apply Only.after (State.passToken_only ..)
    | with_reducible apply Only.after (State.setLinks_only ..)
    | with_reducible apply Only.after (State.setSl_only ..)
    | with_reducible intro _
    | split)

theorem execEnumCross_only (port : Fin 18) (hdr : FlitHdr) (msg : EnumMsg) (s : State) (t : State) (hq : execEnumCross port hdr msg s = .next t) :
    Only [.ics, .commands, .mem, .links, .events, .trust, .out] s t := by
  unfold execEnumCross at hq
  injection hq with hq
  subst hq
  iterate 24 all_goals try (first
    | with_reducible exact Only.refl
    | with_reducible assumption
    | decide
    | dsimp only [id]
    | with_reducible refine State.rx_only ?_ (by decide) ?_
    | with_reducible apply Only.after (State.passToken_only ..)
    | with_reducible apply Only.after (State.setSl_only ..)
    | with_reducible intro _
    | split)

theorem execEnumBoundary_only (port : Fin 18) (hdr : FlitHdr) (msg : EnumMsg) (s : State) (t : State) (hq : execEnumBoundary port hdr msg s = .next t) :
    Only [.ics, .commands, .mem, .links, .events, .trust, .out] s t := by
  unfold execEnumBoundary at hq
  injection hq with hq
  subst hq
  iterate 24 all_goals try (first
    | with_reducible exact Only.refl
    | with_reducible assumption
    | decide
    | dsimp only [id]
    | with_reducible refine State.rx_only ?_ (by decide) ?_
    | with_reducible apply Only.after (State.passToken_only ..)
    | with_reducible apply Only.after (State.setSl_only ..)
    | with_reducible intro _
    | split)

theorem execEnumTimeout_only (port : Fin 18) (s : State) (t : State) (hq : execEnumTimeout port s = .next t) :
    Only [.ics, .commands, .mem, .links, .events, .trust, .out] s t := by
  unfold execEnumTimeout at hq
  injection hq with hq
  subst hq
  iterate 24 all_goals try (first
    | with_reducible exact Only.refl
    | with_reducible assumption
    | decide
    | dsimp only [id]
    | with_reducible apply Only.after (State.finishToken_only ..)
    | with_reducible intro _
    | split)

theorem execEnumCommit_only (port : Fin 18) (hdr : FlitHdr) (msg : EnumMsg) (s : State) (t : State) (hq : execEnumCommit port hdr msg s = .next t) :
    Only [.links, .events, .trust, .out] s t := by
  unfold execEnumCommit at hq
  injection hq with hq
  subst hq
  iterate 24 all_goals try (first
    | with_reducible exact Only.refl
    | with_reducible assumption
    | decide
    | dsimp only [id]
    | with_reducible refine State.rx_only ?_ (by decide) ?_
    | with_reducible apply Only.after (State.sendEnum_only ..)
    | with_reducible apply Only.after (State.setLinks_only ..)
    | with_reducible refine Only.foldl _ ?_ ?_
    | with_reducible refine Only.foldlPair ?_ ?_
    | with_reducible refine Only.foldlPair' (by assumption) ?_ ?_
    | with_reducible intro _
    | split)

theorem State.dropXfers_only (s : State) :
    Only [.ics, .commands, .mem, .links, .events, .trust] s (State.dropXfers s) := by
  unfold State.dropXfers
  iterate 24 all_goals try (first
    | with_reducible exact Only.refl
    | with_reducible assumption
    | decide
    | dsimp only [id]
    | with_reducible apply Only.after (State.endCmd_only ..)
    | with_reducible apply Only.after (State.setLinks_only ..)
    | with_reducible refine Only.foldl _ ?_ ?_
    | with_reducible refine Only.foldlPair ?_ ?_
    | with_reducible refine Only.foldlPair' (by assumption) ?_ ?_
    | with_reducible intro _)

theorem execCommitTakeEffect_only (s : State) (t : State) (hq : execCommitTakeEffect s = .next t) :
    Only [.ics, .commands, .mem, .links, .events, .trust, .out] s t := by
  unfold execCommitTakeEffect at hq
  injection hq with hq
  subst hq
  iterate 24 all_goals try (first
    | with_reducible exact Only.refl
    | with_reducible assumption
    | decide
    | dsimp only [id]
    | with_reducible apply Only.after (State.setLinks_only ..)
    | with_reducible apply Only.after (State.joinAgain_only ..)
    | with_reducible apply Only.after (State.dropXfers_only ..)
    | with_reducible intro _
    | split)

theorem execCommitFloodRepeat_only (s : State) (t : State) (hq : execCommitFloodRepeat s = .next t) :
    Only [.links, .out] s t := by
  unfold execCommitFloodRepeat at hq
  injection hq with hq
  subst hq
  iterate 24 all_goals try (first
    | with_reducible exact Only.refl
    | with_reducible assumption
    | decide
    | dsimp only [id]
    | with_reducible apply Only.after (State.floodCommit_only ..)
    | with_reducible apply Only.after (State.setLinks_only ..)
    | with_reducible intro _
    | split)

theorem execLinkEnumerateComplete_only (s : State) (t : State) (hq : execLinkEnumerateComplete s = .next t) :
    Only [.ics, .commands, .mem, .links, .events, .trust] s t := by
  unfold execLinkEnumerateComplete at hq
  injection hq with hq
  subst hq
  iterate 24 all_goals try (first
    | with_reducible exact Only.refl
    | with_reducible assumption
    | decide
    | dsimp only [id]
    | with_reducible apply Only.after (State.endCmd_only ..)
    | with_reducible apply Only.after (State.setLinks_only ..)
    | with_reducible intro _
    | split)

theorem execPendingIdLapse_only (s : State) (t : State) (hq : execPendingIdLapse s = .next t) :
    Only [.ics, .commands, .mem, .links, .events, .trust, .out] s t := by
  unfold execPendingIdLapse at hq
  injection hq with hq
  subst hq
  iterate 24 all_goals try (first
    | with_reducible exact Only.refl
    | with_reducible assumption
    | decide
    | dsimp only [id]
    | with_reducible apply Only.after (State.joinAgain_only ..)
    | with_reducible apply Only.after (State.setLinks_only ..)
    | with_reducible intro _
    | split)

theorem execEnumJoin_only (port : Fin 18) (hdr : FlitHdr) (s : State) (t : State) (hq : execEnumJoin port hdr s = .next t) :
    Only [.ics, .commands, .mem, .links, .events, .trust, .out] s t := by
  unfold execEnumJoin at hq
  injection hq with hq
  subst hq
  iterate 24 all_goals try (first
    | with_reducible exact Only.refl
    | with_reducible assumption
    | decide
    | dsimp only [id]
    | with_reducible refine State.rxRouted_only ?_ (by decide) ?_
    | with_reducible apply Only.after (State.joinNoticed_only ..)
    | with_reducible apply Only.after (State.slDrop_only ..)
    | with_reducible intro _
    | split)

theorem execDelayExchangeStart_only (port : Fin 18) (t1 : BitVec 64) (s : State) (t : State) (hq : execDelayExchangeStart port t1 s = .next t) :
    Only [.links, .out] s t := by
  unfold execDelayExchangeStart at hq
  injection hq with hq
  subst hq
  iterate 24 all_goals try (first
    | with_reducible exact Only.refl
    | with_reducible assumption
    | decide
    | dsimp only [id]
    | with_reducible apply Only.after (State.sendUnseq_only ..)
    | with_reducible apply Only.after (State.setSl_only ..)
    | with_reducible intro _
    | split)

theorem execDelayReq_only (port : Fin 18) (hdr : FlitHdr) (msg : DelayMsg) (t2 : BitVec 64) (t3 : BitVec 64) (s : State) (t : State) (hq : execDelayReq port hdr msg t2 t3 s = .next t) :
    Only [.links, .events, .trust, .out] s t := by
  unfold execDelayReq at hq
  injection hq with hq
  subst hq
  iterate 24 all_goals try (first
    | with_reducible exact Only.refl
    | with_reducible assumption
    | decide
    | dsimp only [id]
    | with_reducible refine State.rx_only ?_ (by decide) ?_
    | with_reducible apply Only.after (State.sendUnseq_only ..)
    | with_reducible intro _)

theorem execDelayResp_only (port : Fin 18) (hdr : FlitHdr) (msg : DelayMsg) (t4 : BitVec 64) (s : State) (t : State) (hq : execDelayResp port hdr msg t4 s = .next t) :
    Only [.links, .events, .trust, .out] s t := by
  unfold execDelayResp at hq
  injection hq with hq
  subst hq
  iterate 24 all_goals try (first
    | with_reducible exact Only.refl
    | with_reducible assumption
    | decide
    | dsimp only [id]
    | with_reducible refine State.rx_only ?_ (by decide) ?_
    | with_reducible apply Only.after (State.setSl_only ..)
    | with_reducible intro _
    | split)

/-! ## Machine/Points.lean -/

theorem State.toArray_only (s : State) (pair : Nat) :
    Only [.ics, .commands, .mem, .events, .free] s (State.toArray s pair) := by
  unfold State.toArray
  iterate 24 all_goals try (first
    | with_reducible exact Only.refl
    | with_reducible assumption
    | decide
    | dsimp only [id]
    | with_reducible apply Only.after (State.flushSlice_only ..)
    | with_reducible apply Only.after (State.flushMerge_only ..))

theorem State.charge_only (s : State) (pair : Nat) (b : Nat) (pj : ℚ) :
    Only [.thermal, .mem] s (State.charge s pair b pj) := by
  unfold State.charge
  iterate 24 all_goals try (first
    | with_reducible exact Only.refl
    | with_reducible assumption
    | decide
    | dsimp only [id]
    | with_reducible apply Only.after (State.setVault_only ..)
    | simp only [OnlyMk.mark]
    | ((with_reducible refine OnlyMk.of ?_ ?_); rotate_left; focus (intro p hp; cases p <;> first | exact absurd (by decide) hp | rfl | exact ⟨rfl, rfl⟩)))

/-! ## Machine/Remote.lean -/

theorem execLinkGrant_only (ctrl : Fin 4) (slot : Fin 1024) (s : State) (t : State) (hq : execLinkGrant ctrl slot s = .next t) :
    Only [.intakes, .ics, .sealed, .commands, .mem, .events, .trust] s t := by
  unfold execLinkGrant at hq
  injection hq with hq
  subst hq
  iterate 24 all_goals try (first
    | with_reducible exact Only.refl
    | with_reducible assumption
    | decide
    | dsimp only [id]
    | with_reducible refine State.serve_only ?_ (by decide) ?_
    | with_reducible refine Adm.checked_only ?_ (by decide) ?_
    | with_reducible apply Only.after (Adm.finish_only ..)
    | with_reducible apply Only.after (Adm.defer_only ..)
    | with_reducible intro _
    | split)

theorem State.serveRemote_only (s : State) (src : Nat) (write : Bool) (m : RemoteMsg) :
    Only [.ics, .commands, .mem, .far, .events, .trust, .free, .run] s (State.serveRemote s src write m).1 := by
  unfold State.serveRemote
  iterate 24 all_goals try (first
    | with_reducible exact Only.refl
    | with_reducible assumption
    | decide
    | dsimp only [id]
    | with_reducible apply Only.after (State.store_only ..)
    | with_reducible apply Only.after (State.load_only ..)
    | with_reducible refine Only.after (State.load_only' (hq := by assumption)) (by decide) ?_
    | with_reducible intro _
    | split)

theorem State.serveRemote_only' {s : State} {src : Nat} {write : Bool} {m : RemoteMsg} {r0 : _} {t0 : State} (hq : State.serveRemote s src write m = (t0, r0)) :
    Only [.ics, .commands, .mem, .far, .events, .trust, .free, .run] s t0 := by
  have gq := State.serveRemote_only s src write m
  rw [hq] at gq
  exact gq

theorem State.sendData_only (s : State) (node : Nat) (vc : Fin 4) (kind : Nat) (m : RemoteMsg) :
    Only [.links, .out] s (State.sendData s node vc kind m) := by
  unfold State.sendData
  iterate 24 all_goals try (first
    | with_reducible exact Only.refl
    | with_reducible assumption
    | decide
    | dsimp only [id]
    | with_reducible apply Only.after (State.sendSeq_only ..)
    | with_reducible intro _
    | split)

theorem State.setXfers_only (s : State) (f : List Xfer → List Xfer) :
    Only [.links] s (State.setXfers s f) := by
  unfold State.setXfers
  iterate 24 all_goals try (first
    | with_reducible exact Only.refl
    | with_reducible assumption
    | decide
    | dsimp only [id]
    | with_reducible apply Only.after (State.setLinks_only ..))

theorem State.endXfer_only (s : State) (x : Xfer) (e : Ending) :
    Only [.ics, .commands, .mem, .links, .events, .trust] s (State.endXfer s x e) := by
  unfold State.endXfer
  iterate 24 all_goals try (first
    | with_reducible exact Only.refl
    | with_reducible assumption
    | decide
    | dsimp only [id]
    | with_reducible apply Only.after (State.endCmd_only ..)
    | with_reducible apply Only.after (State.setXfers_only ..))

theorem State.progress_only (s : State) (x : Xfer) (n : Nat) (deg : Bool) :
    Only [.ics, .commands, .mem, .links, .events, .trust] s (State.progress s x n deg) := by
  unfold State.progress
  iterate 24 all_goals try (first
    | with_reducible exact Only.refl
    | with_reducible assumption
    | decide
    | dsimp only [id]
    | with_reducible apply Only.after (State.endXfer_only ..)
    | with_reducible apply Only.after (State.setXfers_only ..)
    | with_reducible intro _
    | split)

theorem State.takeReply_only (s : State) (src : Nat) (kind : Nat) (m : RemoteMsg) :
    Only [.ics, .commands, .mem, .far, .links, .events, .trust, .free, .run] s (State.takeReply s src kind m) := by
  unfold State.takeReply
  iterate 24 all_goals try (first
    | with_reducible exact Only.refl
    | with_reducible assumption
    | decide
    | dsimp only [id]
    | with_reducible apply Only.after (State.store_only ..)
    | with_reducible apply Only.after (State.endXfer_only ..)
    | with_reducible apply Only.after (State.progress_only ..)
    | with_reducible intro _
    | split)

theorem State.orPark_only {L : List Part} {s0 : State} {s : State} {src : Nat} {kind : Nat} {m : RemoteMsg} {act : State → State} (hs : Only L s0 s) (w : within [.links] L = true) (hb : ∀ u0, Only L u0 (act u0)) :
    Only L s0 (State.orPark s src kind m act) := by
  unfold State.orPark
  iterate 24 all_goals try (first
    | with_reducible exact Only.refl
    | with_reducible assumption
    | with_reducible refine Only.trans ?_ (hb ..)
    | exact within_trans (by decide) w
    | decide
    | dsimp only [id]
    | with_reducible apply Only.after (State.setLinks_only ..)
    | with_reducible intro _
    | split)

theorem State.replyArrives_only (s : State) (src : Nat) (kind : Nat) (m : RemoteMsg) :
    Only [.ics, .commands, .mem, .far, .links, .events, .trust, .free, .run] s (State.replyArrives s src kind m) := by
  unfold State.replyArrives
  iterate 24 all_goals try (first
    | with_reducible exact Only.refl
    | with_reducible assumption
    | decide
    | dsimp only [id]
    | with_reducible refine State.orPark_only ?_ (by decide) ?_
    | with_reducible apply Only.after (State.takeReply_only ..)
    | with_reducible intro _)

theorem State.answer_only (s : State) (src : Nat) (kind : Nat) (m : RemoteMsg) :
    Only [.ics, .commands, .mem, .far, .links, .events, .trust, .out, .free, .run] s (State.answer s src kind m) := by
  unfold State.answer
  iterate 24 all_goals try (first
    | with_reducible exact Only.refl
    | with_reducible assumption
    | decide
    | dsimp only [id]
    | with_reducible apply Only.after (State.replyArrives_only ..)
    | with_reducible apply Only.after (State.sendData_only ..)
    | with_reducible intro _
    | split)

theorem State.requestArrives_only (s : State) (src : Nat) (kind : Nat) (m : RemoteMsg) :
    Only [.ics, .commands, .mem, .far, .links, .events, .trust, .out, .free, .run] s (State.requestArrives s src kind m) := by
  unfold State.requestArrives
  iterate 24 all_goals try (first
    | with_reducible exact Only.refl
    | with_reducible assumption
    | decide
    | dsimp only [id]
    | with_reducible refine State.orPark_only ?_ (by decide) ?_
    | with_reducible apply Only.after (State.serveRemote_only ..)
    | with_reducible refine Only.after (State.serveRemote_only' (hq := by assumption)) (by decide) ?_
    | with_reducible apply Only.after (State.answer_only ..)
    | with_reducible intro _
    | split)

theorem State.request_only (s : State) (x : Xfer) (m : RemoteMsg) :
    Only [.ics, .commands, .mem, .far, .links, .events, .trust, .out, .free, .run] s (State.request s x m) := by
  unfold State.request
  iterate 24 all_goals try (first
    | with_reducible exact Only.refl
    | with_reducible assumption
    | decide
    | dsimp only [id]
    | with_reducible apply Only.after (State.requestArrives_only ..)
    | with_reducible apply Only.after (State.sendData_only ..)
    | with_reducible intro _
    | split)

theorem State.readLocal_only (s : State) (m : RemoteMsg) :
    Only [.ics, .commands, .mem, .far, .links, .events, .trust, .out, .free, .run] s (State.readLocal s m) := by
  unfold State.readLocal
  iterate 24 all_goals try (first
    | with_reducible exact Only.refl
    | with_reducible assumption
    | decide
    | dsimp only [id]
    | with_reducible apply Only.after (State.load_only ..)
    | with_reducible refine Only.after (State.load_only' (hq := by assumption)) (by decide) ?_
    | with_reducible apply Only.after (State.endXfer_only ..)
    | with_reducible apply Only.after (State.setXfers_only ..)
    | with_reducible apply Only.after (State.request_only ..)
    | with_reducible intro _
    | split)

theorem State.sendXfer_only (s : State) (x : Xfer) (off : Nat) (x1 : Nat) :
    Only [.ics, .commands, .mem, .far, .links, .events, .trust, .out, .free, .run] s (State.sendXfer s x off x1) := by
  fun_induction State.sendXfer s x off x1
  iterate 24 all_goals try (first
    | with_reducible exact Only.refl
    | with_reducible assumption
    | decide
    | dsimp only [id]
    | with_reducible apply Only.after (State.request_only ..)
    | with_reducible refine State.orPark_only ?_ (by decide) ?_
    | with_reducible apply Only.after (State.readLocal_only ..)
    | with_reducible refine Only.trans ?_ (by assumption)
    | with_reducible intro _
    | split)

theorem State.offerMsg_only (s : State) (o : Nat × Nat × RemoteMsg) :
    Only [.ics, .commands, .mem, .far, .links, .events, .trust, .out, .free, .run] s (State.offerMsg s o) := by
  unfold State.offerMsg
  iterate 24 all_goals try (first
    | with_reducible exact Only.refl
    | with_reducible assumption
    | decide
    | dsimp only [id]
    | with_reducible refine State.orPark_only ?_ (by decide) ?_
    | with_reducible apply Only.after (State.readLocal_only ..)
    | with_reducible apply Only.after (State.requestArrives_only ..)
    | with_reducible apply Only.after (State.replyArrives_only ..)
    | with_reducible intro _
    | split)

theorem State.unpark_only (s : State) :
    Only [.ics, .commands, .mem, .far, .links, .events, .trust, .out, .free, .run] s (State.unpark s) := by
  unfold State.unpark
  iterate 24 all_goals try (first
    | with_reducible exact Only.refl
    | with_reducible assumption
    | decide
    | dsimp only [id]
    | with_reducible apply Only.after (State.offerMsg_only ..)
    | with_reducible apply Only.after (State.setLinks_only ..)
    | with_reducible refine Only.foldl _ ?_ ?_
    | with_reducible refine Only.foldlPair ?_ ?_
    | with_reducible refine Only.foldlPair' (by assumption) ?_ ?_
    | with_reducible intro _)

theorem execLinkCopy_only (ctrl : Fin 4) (slot : Fin 1024) (s : State) (t : State) (hq : execLinkCopy ctrl slot s = .next t) :
    Only [.intakes, .ics, .sealed, .commands, .mem, .far, .links, .events, .trust, .out, .free, .run] s t := by
  unfold execLinkCopy at hq
  injection hq with hq
  subst hq
  iterate 24 all_goals try (first
    | with_reducible exact Only.refl
    | with_reducible assumption
    | decide
    | dsimp only [id]
    | with_reducible refine State.serve_only ?_ (by decide) ?_
    | with_reducible refine Adm.checked_only ?_ (by decide) ?_
    | with_reducible apply Only.after (Adm.finish_only ..)
    | with_reducible apply Only.after (State.sendXfer_only ..)
    | with_reducible apply Only.after (State.setLinks_only ..)
    | with_reducible intro _
    | split)

theorem execLinkCopyTimeout_only (xfer : BitVec 16) (s : State) (t : State) (hq : execLinkCopyTimeout xfer s = .next t) :
    Only [.ics, .commands, .mem, .links, .events, .trust] s t := by
  unfold execLinkCopyTimeout at hq
  injection hq with hq
  subst hq
  iterate 24 all_goals try (first
    | with_reducible exact Only.refl
    | with_reducible assumption
    | decide
    | dsimp only [id]
    | with_reducible apply Only.after (State.endXfer_only ..)
    | with_reducible intro _
    | split)

theorem State.remoteArrives_only (s : State) (port : Fin 18) (hdr : FlitHdr) (write : Bool) (msg : RemoteMsg) :
    Only [.ics, .commands, .mem, .far, .links, .events, .trust, .out, .free, .run] s (State.remoteArrives s port hdr write msg) := by
  unfold State.remoteArrives
  iterate 24 all_goals try (first
    | with_reducible exact Only.refl
    | with_reducible assumption
    | decide
    | dsimp only [id]
    | with_reducible refine State.rxRouted_only ?_ (by decide) ?_
    | with_reducible apply Only.after (State.requestArrives_only ..)
    | with_reducible intro _)

theorem execRemoteWrite_only (port : Fin 18) (hdr : FlitHdr) (msg : RemoteMsg) (s : State) (t : State) (hq : execRemoteWrite port hdr msg s = .next t) :
    Only [.ics, .commands, .mem, .far, .links, .events, .trust, .out, .free, .run] s t := by
  unfold execRemoteWrite at hq
  injection hq with hq
  subst hq
  iterate 24 all_goals try (first
    | with_reducible exact Only.refl
    | with_reducible assumption
    | decide
    | dsimp only [id]
    | with_reducible apply Only.after (State.remoteArrives_only ..))

theorem execRemoteRead_only (port : Fin 18) (hdr : FlitHdr) (msg : RemoteMsg) (s : State) (t : State) (hq : execRemoteRead port hdr msg s = .next t) :
    Only [.ics, .commands, .mem, .far, .links, .events, .trust, .out, .free, .run] s t := by
  unfold execRemoteRead at hq
  injection hq with hq
  subst hq
  iterate 24 all_goals try (first
    | with_reducible exact Only.refl
    | with_reducible assumption
    | decide
    | dsimp only [id]
    | with_reducible apply Only.after (State.remoteArrives_only ..))

theorem execRemoteReadData_only (port : Fin 18) (hdr : FlitHdr) (msg : RemoteMsg) (s : State) (t : State) (hq : execRemoteReadData port hdr msg s = .next t) :
    Only [.ics, .commands, .mem, .far, .links, .events, .trust, .out, .free, .run] s t := by
  unfold execRemoteReadData at hq
  injection hq with hq
  subst hq
  iterate 24 all_goals try (first
    | with_reducible exact Only.refl
    | with_reducible assumption
    | decide
    | dsimp only [id]
    | with_reducible refine State.rxRouted_only ?_ (by decide) ?_
    | with_reducible apply Only.after (State.replyArrives_only ..)
    | with_reducible intro _)

theorem execRemoteWriteAck_only (port : Fin 18) (hdr : FlitHdr) (msg : RemoteMsg) (s : State) (t : State) (hq : execRemoteWriteAck port hdr msg s = .next t) :
    Only [.ics, .commands, .mem, .far, .links, .events, .trust, .out, .free, .run] s t := by
  unfold execRemoteWriteAck at hq
  injection hq with hq
  subst hq
  iterate 24 all_goals try (first
    | with_reducible exact Only.refl
    | with_reducible assumption
    | decide
    | dsimp only [id]
    | with_reducible refine State.rxRouted_only ?_ (by decide) ?_
    | with_reducible apply Only.after (State.takeReply_only ..)
    | with_reducible intro _)

theorem execRemoteRefuse_only (port : Fin 18) (hdr : FlitHdr) (msg : RemoteMsg) (s : State) (t : State) (hq : execRemoteRefuse port hdr msg s = .next t) :
    Only [.ics, .commands, .mem, .far, .links, .events, .trust, .out, .free, .run] s t := by
  unfold execRemoteRefuse at hq
  injection hq with hq
  subst hq
  iterate 24 all_goals try (first
    | with_reducible exact Only.refl
    | with_reducible assumption
    | decide
    | dsimp only [id]
    | with_reducible refine State.rxRouted_only ?_ (by decide) ?_
    | with_reducible apply Only.after (State.takeReply_only ..)
    | with_reducible intro _)

theorem State.mgmtArrives_only {L : List Part} {s0 : State} {s : State} {port : Fin 18} {hdr : FlitHdr} {kind : Nat} {bytes : List Byte} {act : State → State} (hs : Only L s0 s) (w : within [.links, .events, .trust, .out] L = true) (hb : ∀ u0, Only L u0 (act u0)) :
    Only L s0 (State.mgmtArrives s port hdr kind bytes act) := by
  unfold State.mgmtArrives
  iterate 24 all_goals try (first
    | with_reducible exact Only.refl
    | with_reducible assumption
    | with_reducible refine Only.trans ?_ (hb ..)
    | exact within_trans (by decide) w
    | decide
    | dsimp only [id]
    | with_reducible refine State.rxRouted_only ?_ (by first | decide | exact within_trans (by decide) w) ?_
    | with_reducible apply Only.after (State.slDrop_only ..)
    | with_reducible intro _
    | split)

theorem execMgmtSlot_only (port : Fin 18) (hdr : FlitHdr) (slot : BitVec 16) (bytes : List Byte) (s : State) (t : State) (hq : execMgmtSlot port hdr slot bytes s = .next t) :
    Only [.intakes, .ics, .sealed, .links, .events, .trust, .out] s t := by
  unfold execMgmtSlot at hq
  injection hq with hq
  subst hq
  iterate 24 all_goals try (first
    | with_reducible exact Only.refl
    | with_reducible assumption
    | decide
    | dsimp only [id]
    | with_reducible refine State.mgmtArrives_only ?_ (by decide) ?_
    | with_reducible apply Only.after (State.slotWrite_only ..)
    | with_reducible intro _
    | split)

theorem execMgmtCompletion_only (port : Fin 18) (hdr : FlitHdr) (record : List Byte) (s : State) (t : State) (hq : execMgmtCompletion port hdr record s = .next t) :
    Only [.links, .events, .trust, .out] s t := by
  unfold execMgmtCompletion at hq
  injection hq with hq
  subst hq
  iterate 24 all_goals try (first
    | with_reducible exact Only.refl
    | with_reducible assumption
    | decide
    | dsimp only [id]
    | with_reducible refine State.mgmtArrives_only ?_ (by decide) ?_
    | with_reducible intro _)

theorem execMgmtOwnershipNotice_only (port : Fin 18) (hdr : FlitHdr) (notice : List Byte) (s : State) (t : State) (hq : execMgmtOwnershipNotice port hdr notice s = .next t) :
    Only [.links, .events, .trust, .out] s t := by
  unfold execMgmtOwnershipNotice at hq
  injection hq with hq
  subst hq
  iterate 24 all_goals try (first
    | with_reducible exact Only.refl
    | with_reducible assumption
    | decide
    | dsimp only [id]
    | with_reducible refine State.mgmtArrives_only ?_ (by decide) ?_
    | with_reducible intro _)

theorem execLinkStatusRead_only (ctrl : Fin 4) (slot : Fin 1024) (s : State) (t : State) (hq : execLinkStatusRead ctrl slot s = .next t) :
    Only [.intakes, .ports, .ics, .sealed, .commands, .mem, .hostMem, .events, .trust, .out] s t := by
  unfold execLinkStatusRead at hq
  injection hq with hq
  subst hq
  iterate 24 all_goals try (first
    | with_reducible exact Only.refl
    | with_reducible assumption
    | decide
    | dsimp only [id]
    | with_reducible refine State.serve_only ?_ (by decide) ?_
    | with_reducible refine Adm.checked_only ?_ (by decide) ?_
    | with_reducible apply Only.after (Adm.finish_only ..)
    | with_reducible apply Only.after (Adm.copyOut_only ..)
    | with_reducible intro _
    | split)

/-! ## Machine/Clock.lean -/

theorem State.advance_only (s : State) : Only [.now, .time, .cv] s (State.advance s) :=
  ⟨fun p hp => by cases p <;> first | exact absurd (by decide) hp | rfl | exact ⟨rfl, rfl⟩⟩

/-! ## Machine/CoreOps.lean -/

theorem State.guardRuns_only (s : State) (pair : Nat) (ord : Nat) (x1 : List (Nat × Nat)) :
    Only [.cores, .events] s (State.guardRuns s pair ord x1).2 := by
  fun_induction State.guardRuns s pair ord x1
  all_goals try simp_all only
  iterate 24 all_goals try (first
    | with_reducible exact Only.refl
    | with_reducible assumption
    | decide
    | dsimp only [id]
    | with_reducible apply Only.after (State.loadCore_only ..)
    | with_reducible refine Only.after (State.loadCore_only' (hq := by assumption)) (by decide) ?_
    | with_reducible refine Only.trans ?_ (by assumption))

theorem State.guardRuns_only' {s : State} {pair : Nat} {ord : Nat} {x1 : List (Nat × Nat)} {r0 : _} {t0 : State} (hq : State.guardRuns s pair ord x1 = (r0, t0)) :
    Only [.cores, .events] s t0 := by
  have gq := State.guardRuns_only s pair ord x1
  rw [hq] at gq
  exact gq

theorem State.coreGuard_only (s : State) (pair : Nat) (ord : Nat) (l : List CoreRange) :
    Only [.cores, .events] s (State.coreGuard s pair ord l).2 := by
  unfold State.coreGuard
  iterate 24 all_goals try (first
    | with_reducible exact Only.refl
    | with_reducible assumption
    | decide
    | dsimp only [id]
    | with_reducible apply Only.after (State.guardRuns_only ..))

theorem State.coreGuard_only' {s : State} {pair : Nat} {ord : Nat} {l : List CoreRange} {r0 : _} {t0 : State} (hq : State.coreGuard s pair ord l = (r0, t0)) :
    Only [.cores, .events] s t0 := by
  have gq := State.coreGuard_only s pair ord l
  rw [hq] at gq
  exact gq

theorem State.storeLate_only (s : State) (ws : List (Nat × List Byte)) :
    Only [.run] s (State.storeLate s ws) := by
  unfold State.storeLate
  iterate 24 all_goals try (first
    | with_reducible exact Only.refl
    | with_reducible assumption
    | decide
    | dsimp only [id]
    | with_reducible apply Only.after (State.putOff_only ..))

theorem State.serialized_only (s : State) (pair : Nat) (rs : List CoreRange) :
    Only [.run] s (State.serialized s pair rs) := by
  unfold State.serialized
  iterate 24 all_goals try (first
    | with_reducible exact Only.refl
    | with_reducible assumption
    | decide
    | dsimp only [id]
    | simp only [OnlyMk.mark]
    | ((with_reducible refine OnlyMk.of ?_ ?_); rotate_left; focus (intro p hp; cases p <;> first | exact absurd (by decide) hp | rfl | exact ⟨rfl, rfl⟩))
    | with_reducible intro _
    | split)

theorem State.runCore_only {L : List Part} {s0 : State} {s : State} {k : OpKind} {tag : Nat} {i : Nat} {zero : List Byte → Bool} {ranges : List Byte → List CoreRange} {body : OpCtx → State → State × Ending} (hs : Only L s0 s) (w : within [.ics, .commands, .mem, .cores, .events, .free, .run] L = true) (hb : ∀ u0 u1, Only L u1 (body u0 u1).1) :
    Only L s0 (State.runCore s k tag i zero ranges body) := by
  unfold State.runCore
  iterate 24 all_goals try (first
    | with_reducible exact Only.refl
    | with_reducible assumption
    | with_reducible refine Only.trans ?_ (hb ..)
    | exact within_trans (by decide) w
    | decide
    | dsimp only [id]
    | with_reducible refine State.runOp_only ?_ (by first | decide | exact within_trans (by decide) w) ?_
    | with_reducible apply Only.after (State.coreGuard_only ..)
    | with_reducible refine Only.after (State.coreGuard_only' (hq := by assumption)) (by first | decide | exact within_trans (by decide) w) ?_
    | with_reducible apply Only.after (State.serialized_only ..)
    | with_reducible intro _
    | split)

theorem State.convDraws_only (s : State) (pair : Nat) (rule : Nat) (seed : Nat) :
    Only [.cores, .free] s (State.convDraws s pair rule seed).2 := by
  unfold State.convDraws
  iterate 24 all_goals try (first
    | with_reducible exact Only.refl
    | with_reducible assumption
    | decide
    | dsimp only [id]
    | with_reducible refine Only.after (State.drawIf_only (by assumption)) (by decide) ?_
    | with_reducible apply Only.after (State.drawMany_only ..)
    | with_reducible refine Only.after (State.drawMany_only' (hq := by assumption)) (by decide) ?_
    | with_reducible apply Only.after (State.setCore_only ..))

theorem State.convDraws_only' {s : State} {pair : Nat} {rule : Nat} {seed : Nat} {r0 : _} {t0 : State} (hq : State.convDraws s pair rule seed = (r0, t0)) :
    Only [.cores, .free] s t0 := by
  have gq := State.convDraws_only s pair rule seed
  rw [hq] at gq
  exact gq

/-! ## Machine/Arrays.lean -/

theorem mmPick_only {s : State} {w : Who} {rd : Reader} {space a n : Nat} {bs : List Byte} {io : Io}
    (h : (match space with
      | 0 => (rd a n, ({ s := s } : Io))
      | 1 => s.load w a n
      | _ => s.farRead a n) = (bs, io)) :
    Only [.ics, .commands, .mem, .events, .free, .run] s io.s := by
  split at h
  · injection h with _ h
    subst h
    exact Only.refl
  · exact (State.load_only' h).mono (by decide)
  · exact (State.farRead_only' h).mono (by decide)

theorem State.mmLoadB_only (s : State) (w : Who) (rd : Reader) (space : Nat) (l : List (Nat × Nat)) :
    Only [.ics, .commands, .mem, .events, .free, .run] s (State.mmLoadB s w rd space l).2.s := by
  fun_induction State.mmLoadB s w rd space l
  all_goals try simp_all only
  · exact Only.refl
  · exact mmPick_only (by assumption)
  · exact Only.trans (mmPick_only (by assumption)) (by assumption)

theorem State.mmLoadB_only' {s : State} {w : Who} {rd : Reader} {space : Nat} {l : List (Nat × Nat)} {r0 : _} {t0 : Io}
    (hq : State.mmLoadB s w rd space l = (r0, t0)) : Only [.ics, .commands, .mem, .events, .free, .run] s t0.s := by
  have g := State.mmLoadB_only s w rd space l
  rw [hq] at g
  exact g

theorem State.mmRun_only (s : State) (c : OpCtx) (bRows : List (List Byte)) :
    Only [.cores, .free, .run] s (State.mmRun s c bRows).1 := by
  unfold State.mmRun
  iterate 24 all_goals try (first
    | with_reducible exact Only.refl
    | with_reducible assumption
    | decide
    | dsimp only [id]
    | with_reducible refine Only.after (State.drawIf_only (by assumption)) (by decide) ?_
    | with_reducible apply Only.after (State.drawMany_only ..)
    | with_reducible refine Only.after (State.drawMany_only' (hq := by assumption)) (by decide) ?_
    | with_reducible apply Only.after (State.convDraws_only ..)
    | with_reducible refine Only.after (State.convDraws_only' (hq := by assumption)) (by decide) ?_
    | with_reducible apply Only.after (State.setCore_only ..)
    | with_reducible apply Only.after (State.storeCore_only ..)
    | with_reducible apply Only.after (State.storeLate_only ..)
    | with_reducible refine Only.foldl _ ?_ ?_
    | with_reducible refine Only.foldlPair ?_ ?_
    | with_reducible refine Only.foldlPair' (by assumption) ?_ ?_
    | with_reducible intro _
    | split)

theorem State.mmRun_only' {s : State} {c : OpCtx} {bRows : List (List Byte)} {r0 : _} {t0 : State} (hq : State.mmRun s c bRows = (t0, r0)) :
    Only [.cores, .free, .run] s t0 := by
  have gq := State.mmRun_only s c bRows
  rw [hq] at gq
  exact gq

theorem mmParity_only (c : OpCtx) (t : State) (f : Core → Core) :
    Only [.cores, .events] t (mmParity c t f).1 := by
  unfold mmParity
  iterate 24 all_goals try (first
    | with_reducible exact Only.refl
    | with_reducible assumption
    | decide
    | dsimp only [id]
    | with_reducible apply Only.after (State.postArgs_only ..)
    | with_reducible apply Only.after (State.setCore_only ..))

theorem mmParity_only' {c : OpCtx} {t : State} {f : Core → Core} {r0 : _} {t0 : State} (hq : mmParity c t f = (t0, r0)) :
    Only [.cores, .events] t t0 := by
  have gq := mmParity_only c t f
  rw [hq] at gq
  exact gq

theorem execOpMm_only (tag : Nat) (op : Nat) (s : State) (t : State) (hq : execOpMm tag op s = .next t) :
    Only [.ics, .commands, .mem, .cores, .events, .free, .run] s t := by
  unfold execOpMm at hq
  injection hq with hq
  subst hq
  iterate 24 all_goals try (first
    | with_reducible exact Only.refl
    | with_reducible assumption
    | decide
    | dsimp only [id]
    | with_reducible refine State.runCore_only ?_ (by decide) ?_
    | with_reducible apply Only.after (State.setCore_only ..)
    | with_reducible apply Only.after (mmParity_only ..)
    | with_reducible refine Only.after (mmParity_only' (hq := by assumption)) (by decide) ?_
    | with_reducible apply Only.after (State.mmLoadB_only ..)
    | with_reducible refine Only.after (State.mmLoadB_only' (hq := by assumption)) (by decide) ?_
    | with_reducible apply Only.after (State.mmRun_only ..)
    | with_reducible refine Only.after (State.mmRun_only' (hq := by assumption)) (by decide) ?_
    | with_reducible intro _
    | split)

/-! ## Machine/Moves.lean -/

theorem State.sideRead_only (s : State) (c : OpCtx) (sp : Nat) (a : Nat) (n : Nat) :
    Only [.ics, .commands, .mem, .cores, .events, .free, .run] s (State.sideRead s c sp a n).2.s := by
  unfold State.sideRead
  iterate 24 all_goals try (first
    | with_reducible exact Only.refl
    | with_reducible assumption
    | decide
    | dsimp only [Io.halt]
    | with_reducible apply Only.after (State.loadCore_only ..)
    | with_reducible refine Only.after (State.loadCore_only' (hq := by assumption)) (by decide) ?_
    | with_reducible apply Only.after (State.load_only ..)
    | with_reducible refine Only.after (State.load_only' (hq := by assumption)) (by decide) ?_
    | with_reducible apply Only.after (State.farRead_only ..)
    | with_reducible refine Only.after (State.farRead_only' (hq := by assumption)) (by decide) ?_
    | with_reducible intro _
    | split)

theorem State.sideRead_only' {s : State} {c : OpCtx} {sp : Nat} {a : Nat} {n : Nat} {r0 : _} {t0 : Io} (hq : State.sideRead s c sp a n = (r0, t0)) :
    Only [.ics, .commands, .mem, .cores, .events, .free, .run] s t0.s := by
  have gq := State.sideRead_only s c sp a n
  rw [hq] at gq
  exact gq

theorem State.sideWrite_only (s : State) (c : OpCtx) (sp : Nat) (a : Nat) (bs : List Byte) :
    Only [.ports, .ics, .commands, .mem, .hostMem, .far, .cores, .events, .trust, .out, .free, .run] s (State.sideWrite s c sp a bs).s := by
  unfold State.sideWrite
  iterate 24 all_goals try (first
    | with_reducible exact Only.refl
    | with_reducible assumption
    | decide
    | dsimp only [Io.halt]
    | with_reducible apply Only.after (State.storeCore_only ..)
    | with_reducible apply Only.after (State.store_only ..)
    | with_reducible apply Only.after (State.farWrite_only ..)
    | with_reducible apply Only.after (State.hostWrite_only ..)
    | with_reducible intro _
    | split)

theorem State.writeLate_only (s : State) (c : OpCtx) (x1 : List LateWrite) :
    Only [.ports, .ics, .commands, .mem, .hostMem, .far, .cores, .events, .trust, .out, .free, .run] s (State.writeLate s c x1).s := by
  fun_induction State.writeLate s c x1
  iterate 24 all_goals try (first
    | with_reducible exact Only.refl
    | with_reducible assumption
    | decide
    | dsimp only [Io.halt]
    | with_reducible apply Only.after (State.sideWrite_only ..)
    | with_reducible refine Only.trans ?_ (by assumption))

theorem State.deliver_only (s : State) (c : OpCtx) (x : Oper) (e : Ending) :
    Only [.ports, .ics, .commands, .mem, .hostMem, .far, .cores, .events, .trust, .out, .free, .run] s (State.deliver s c x e) := by
  unfold State.deliver
  iterate 24 all_goals try (first
    | with_reducible exact Only.refl
    | with_reducible assumption
    | decide
    | dsimp only [id]
    | with_reducible apply Only.after (State.writeLate_only ..)
    | with_reducible apply Only.after (State.setOper_only ..)
    | with_reducible refine Only.foldl _ ?_ ?_
    | with_reducible refine Only.foldlPair ?_ ?_
    | with_reducible refine Only.foldlPair' (by assumption) ?_ ?_
    | simp only [OnlyMk.mark]
    | ((with_reducible refine OnlyMk.of ?_ ?_); rotate_left; focus (intro p hp; cases p <;> first | exact absurd (by decide) hp | rfl | exact ⟨rfl, rfl⟩))
    | with_reducible intro _
    | split)

theorem State.complete_only (s : State) (c : OpCtx) (o : Order) (e : Ending) :
    Only [.ics, .commands, .mem, .far, .kv, .events, .trust, .free, .run] s (State.complete s c o e) := by
  unfold State.complete
  iterate 24 all_goals try (first
    | with_reducible exact Only.refl
    | with_reducible assumption
    | decide
    | dsimp only [id]
    | with_reducible apply Only.after (State.writeOpstat_only ..)
    | with_reducible apply Only.after (State.setOper_only ..)
    | with_reducible apply Only.after (State.setCmd_only ..)
    | with_reducible apply Only.after (State.releasePins_only ..)
    | with_reducible apply Only.after (State.raiseIn_only ..)
    | with_reducible apply Only.after (State.endOrder_only ..)
    | with_reducible intro _
    | split)

theorem execOperationComplete_only (tag : Nat) (op : Nat) (s : State) (t : State) (hq : execOperationComplete tag op s = .next t) :
    Only [.ports, .ics, .commands, .mem, .hostMem, .far, .cores, .kv, .events, .trust, .out, .free, .run] s t := by
  unfold execOperationComplete at hq
  injection hq with hq
  subst hq
  iterate 24 all_goals try (first
    | with_reducible exact Only.refl
    | with_reducible assumption
    | decide
    | dsimp only [id]
    | with_reducible apply Only.after (State.deliver_only ..)
    | with_reducible apply Only.after (State.complete_only ..)
    | with_reducible intro _
    | split)

theorem State.sideReadAll_only (s : State) (c : OpCtx) (x : Side) (n : Nat) (x1 : List Nat) :
    Only [.ics, .commands, .mem, .cores, .events, .free, .run] s (State.sideReadAll s c x n x1).2.s := by
  fun_induction State.sideReadAll s c x n x1
  all_goals try simp_all only
  iterate 24 all_goals try (first
    | with_reducible exact Only.refl
    | with_reducible assumption
    | decide
    | dsimp only [Io.halt]
    | with_reducible apply Only.after (State.sideRead_only ..)
    | with_reducible refine Only.after (State.sideRead_only' (hq := by assumption)) (by decide) ?_
    | with_reducible refine Only.trans ?_ (by assumption))

theorem State.sideReadAll_only' {s : State} {c : OpCtx} {x : Side} {n : Nat} {x1 : List Nat} {r0 : _} {t0 : Io} (hq : State.sideReadAll s c x n x1 = (r0, t0)) :
    Only [.ics, .commands, .mem, .cores, .events, .free, .run] s t0.s := by
  have gq := State.sideReadAll_only s c x n x1
  rw [hq] at gq
  exact gq

theorem dmCopy_only (c : OpCtx) (s : State) :
    Only [.ics, .commands, .mem, .cores, .events, .free, .run] s (dmCopy c s).1 := by
  unfold dmCopy
  iterate 24 all_goals try (first
    | with_reducible exact Only.refl
    | with_reducible assumption
    | decide
    | dsimp only [id]
    | with_reducible apply Only.after (State.sideReadAll_only ..)
    | with_reducible refine Only.after (State.sideReadAll_only' (hq := by assumption)) (by decide) ?_
    | with_reducible apply Only.after (State.putOff_only ..))

theorem dmCopy_only' {c : OpCtx} {s : State} {r0 : _} {t0 : State} (hq : dmCopy c s = (t0, r0)) :
    Only [.ics, .commands, .mem, .cores, .events, .free, .run] s t0 := by
  have gq := dmCopy_only c s
  rw [hq] at gq
  exact gq

theorem execOpDmCopy_only (tag : Nat) (op : Nat) (s : State) (t : State) (hq : execOpDmCopy tag op s = .next t) :
    Only [.ics, .commands, .mem, .cores, .events, .free, .run] s t := by
  unfold execOpDmCopy at hq
  injection hq with hq
  subst hq
  iterate 24 all_goals try (first
    | with_reducible exact Only.refl
    | with_reducible assumption
    | decide
    | dsimp only [id]
    | with_reducible refine State.runCore_only ?_ (by decide) ?_
    | with_reducible apply Only.after (dmCopy_only ..)
    | with_reducible intro _
    | split)

theorem State.zeroBlocks_only (s : State) (a : Nat) (x1 : Nat) :
    Only [.ics, .mem, .events, .run] s (State.zeroBlocks s a x1).s := by
  fun_induction State.zeroBlocks s a x1
  iterate 24 all_goals try (first
    | with_reducible exact Only.refl
    | with_reducible assumption
    | decide
    | dsimp only [Io.halt]
    | with_reducible apply Only.after (State.zeroBlock_only ..)
    | with_reducible apply Only.after (State.touch_only ..)
    | with_reducible apply Only.after (reachStop_only ..)
    | with_reducible refine Only.trans ?_ (by assumption))

theorem execOpMemZero_only (tag : Nat) (op : Nat) (s : State) (t : State) (hq : execOpMemZero tag op s = .next t) :
    Only [.ics, .commands, .mem, .events, .free, .run] s t := by
  unfold execOpMemZero at hq
  injection hq with hq
  subst hq
  iterate 24 all_goals try (first
    | with_reducible exact Only.refl
    | with_reducible assumption
    | decide
    | dsimp only [id]
    | with_reducible refine State.runOp_only ?_ (by decide) ?_
    | with_reducible apply Only.after (State.zeroBlocks_only ..)
    | with_reducible intro _
    | split)

end Sys2Proof.Machine
end

