-- ==== Sys2Proof/Laws/Frames3.lean ====
section
/-! SUPPORT. Which parts of the state each operation and each meaning of Machine/Kv.lean to Machine/Attend.lean can change, one
lemma each. -/

namespace Sys2Proof.Machine

open Sys2Proof

/-! ## Machine/Kv.lean -/

theorem State.setKv_only (s : State) (f : Kv → Kv) :
    Only [.kv] s (State.setKv s f) := by
  unfold State.setKv
  iterate 24 all_goals try (first
    | with_reducible exact Only.refl
    | with_reducible assumption
    | decide
    | dsimp only [id]
    | simp only [OnlyMk.mark]
    | ((with_reducible refine OnlyMk.of ?_ ?_); rotate_left; focus (intro p hp; cases p <;> first | exact absurd (by decide) hp | rfl | exact ⟨rfl, rfl⟩)))

theorem State.setSeq_only (s : State) (h : Nat) (f : Seq → Seq) :
    Only [.kv] s (State.setSeq s h f) := by
  unfold State.setSeq
  iterate 24 all_goals try (first
    | with_reducible exact Only.refl
    | with_reducible assumption
    | decide
    | dsimp only [id]
    | with_reducible apply Only.after (State.setKv_only ..)
    | with_reducible intro _
    | split)

theorem State.setStream_only (s : State) (h : Nat) (i : Nat) (f : Stream → Stream) :
    Only [.kv] s (State.setStream s h i f) := by
  unfold State.setStream
  iterate 24 all_goals try (first
    | with_reducible exact Only.refl
    | with_reducible assumption
    | decide
    | dsimp only [id]
    | with_reducible apply Only.after (State.setSeq_only ..))

theorem State.cross_only (s : State) (pair : Nat) (bank : Nat) (row : Nat) (n : Nat) (cls : Nat) (write : Bool) :
    Only [.run] s (State.cross s pair bank row n cls write) := by
  unfold State.cross
  iterate 24 all_goals try (first
    | with_reducible exact Only.refl
    | with_reducible assumption
    | decide
    | dsimp only [id]
    | with_reducible apply Only.after (State.runDegraded_only ..)
    | with_reducible apply Only.after (State.touch_only ..)
    | with_reducible refine Only.foldl _ ?_ ?_
    | with_reducible refine Only.foldlPair ?_ ?_
    | with_reducible refine Only.foldlPair' (by assumption) ?_ ?_
    | with_reducible intro _)

theorem State.writePageThere_only (s : State) (pair : Nat) (bank : Nat) (row : Nat) (bs : List Byte) :
    Only [.ics, .commands, .mem, .events, .free] s (State.writePageThere s pair bank row bs) := by
  unfold State.writePageThere
  iterate 24 all_goals try (first
    | with_reducible exact Only.refl
    | with_reducible assumption
    | decide
    | dsimp only [id]
    | with_reducible apply Only.after (State.writeWord_only ..)
    | with_reducible refine Only.foldl _ ?_ ?_
    | with_reducible refine Only.foldlPair ?_ ?_
    | with_reducible refine Only.foldlPair' (by assumption) ?_ ?_
    | with_reducible intro _)

theorem State.writePage_only (s : State) (pair : Nat) (bank : Nat) (row : Nat) (bs : List Byte) (cls : Nat) :
    Only [.ics, .commands, .mem, .events, .free, .run] s (State.writePage s pair bank row bs cls) := by
  unfold State.writePage
  iterate 24 all_goals try (first
    | with_reducible exact Only.refl
    | with_reducible assumption
    | decide
    | dsimp only [id]
    | with_reducible apply Only.after (State.writePageThere_only ..)
    | with_reducible apply Only.after (State.cross_only ..))

theorem State.readPageWords_only (s : State) (pair : Nat) (bank : Nat) (row : Nat) (k : Nat) (x1 : Nat) :
    Only [.ics, .mem, .events, .free] s (State.readPageWords s pair bank row k x1).2.s := by
  fun_induction State.readPageWords s pair bank row k x1
  all_goals try simp_all only
  iterate 24 all_goals try (first
    | with_reducible exact Only.refl
    | with_reducible assumption
    | decide
    | dsimp only [Io.halt]
    | with_reducible apply Only.after (State.readWord_only ..)
    | with_reducible refine Only.after (State.readWord_only' (hq := by assumption)) (by decide) ?_
    | with_reducible apply Only.after (Io.halt_only ..)
    | with_reducible refine Only.trans ?_ (by assumption))

theorem State.readPageWords_only' {s : State} {pair : Nat} {bank : Nat} {row : Nat} {k : Nat} {x1 : Nat} {r0 : _} {t0 : Io} (hq : State.readPageWords s pair bank row k x1 = (r0, t0)) :
    Only [.ics, .mem, .events, .free] s t0.s := by
  have gq := State.readPageWords_only s pair bank row k x1
  rw [hq] at gq
  exact gq

theorem State.readPageThere_only (s : State) (q : Seq) (e : Pte) :
    Only [.ics, .mem, .events, .free] s (State.readPageThere s q e).2.s := by
  unfold State.readPageThere
  iterate 24 all_goals try (first
    | with_reducible exact Only.refl
    | with_reducible assumption
    | decide
    | dsimp only [Io.halt]
    | with_reducible apply Only.after (State.readPageWords_only ..))

theorem State.readPageThere_only' {s : State} {q : Seq} {e : Pte} {r0 : _} {t0 : Io} (hq : State.readPageThere s q e = (r0, t0)) :
    Only [.ics, .mem, .events, .free] s t0.s := by
  have gq := State.readPageThere_only s q e
  rw [hq] at gq
  exact gq

theorem State.readPage_only (s : State) (q : Seq) (e : Pte) (cls : Nat) :
    Only [.ics, .mem, .events, .free, .run] s (State.readPage s q e cls).2.s := by
  unfold State.readPage
  iterate 24 all_goals try (first
    | with_reducible exact Only.refl
    | with_reducible assumption
    | decide
    | dsimp only [Io.halt]
    | with_reducible apply Only.after (State.readPageThere_only ..)
    | with_reducible apply Only.after (State.cross_only ..))

theorem State.readPage_only' {s : State} {q : Seq} {e : Pte} {cls : Nat} {r0 : _} {t0 : Io} (hq : State.readPage s q e cls = (r0, t0)) :
    Only [.ics, .mem, .events, .free, .run] s t0.s := by
  have gq := State.readPage_only s q e cls
  rw [hq] at gq
  exact gq

theorem State.onPage_only (s : State) (e : Pte) (f : Page → Page) :
    Only [.kv] s (State.onPage s e f) := by
  unfold State.onPage
  iterate 24 all_goals try (first
    | with_reducible exact Only.refl
    | with_reducible assumption
    | decide
    | dsimp only [id]
    | with_reducible apply Only.after (State.setKv_only ..))

theorem State.dropRef_only (s : State) (e : Pte) :
    Only [.kv] s (State.dropRef s e) := by
  unfold State.dropRef
  iterate 24 all_goals try (first
    | with_reducible exact Only.refl
    | with_reducible assumption
    | decide
    | dsimp only [id]
    | with_reducible apply Only.after (State.setKv_only ..)
    | with_reducible apply Only.after (State.onPage_only ..))

theorem State.pin_only (s : State) (tag : Nat) (op : Nat) (e : Pte) :
    Only [.kv] s (State.pin s tag op e) := by
  unfold State.pin
  iterate 24 all_goals try (first
    | with_reducible exact Only.refl
    | with_reducible assumption
    | decide
    | dsimp only [id]
    | with_reducible apply Only.after (State.setKv_only ..)
    | with_reducible apply Only.after (State.onPage_only ..))

theorem State.needBlock_only (s : State) (h : Nat) (i : Nat) (page : Nat) :
    OnlyO [.kv] s (State.needBlock s h i page) := by
  unfold State.needBlock
  iterate 24 all_goals try (first
    | with_reducible exact Only.refl
    | with_reducible assumption
    | decide
    | dsimp only [id]
    | with_reducible apply Only.after (State.setStream_only ..)
    | with_reducible exact OnlyO.none
    | with_reducible refine OnlyO.some ?_
    | with_reducible refine OnlyO.mapState ?_ ?_
    | with_reducible refine OnlyO.map ?_
    | with_reducible refine OnlyO.bind ?_ ?_
    | with_reducible intro _
    | split)

theorem State.needBlock_only' {s : State} {h : Nat} {i : Nat} {page : Nat} {t0 : State} (hq : State.needBlock s h i page = some t0) :
    Only [.kv] s t0 :=
  (State.needBlock_only s h i page).of _ hq

theorem State.allocPage_only (s : State) (h : Nat) (i : Nat) (page : Nat) (st : PteState) (tokens : Nat) (bs : List Byte) (cls : Nat) :
    OnlyO [.ics, .commands, .mem, .kv, .events, .free, .run] s (State.allocPage s h i page st tokens bs cls) := by
  unfold State.allocPage
  iterate 24 all_goals try (first
    | with_reducible exact Only.refl
    | with_reducible assumption
    | decide
    | dsimp only [id]
    | with_reducible apply OnlyO.after (State.needBlock_only ..)
    | with_reducible refine Only.after (State.needBlock_only' (hq := by assumption)) (by decide) ?_
    | with_reducible apply Only.after (State.setStream_only ..)
    | with_reducible apply Only.after (State.writePage_only ..)
    | with_reducible apply Only.after (State.setKv_only ..)
    | with_reducible exact OnlyO.none
    | with_reducible refine OnlyO.some ?_
    | with_reducible refine OnlyO.mapState ?_ ?_
    | with_reducible refine OnlyO.map ?_
    | with_reducible refine OnlyO.bind ?_ ?_
    | with_reducible intro _
    | split)

theorem State.allocPage_only' {s : State} {h : Nat} {i : Nat} {page : Nat} {st : PteState} {tokens : Nat} {bs : List Byte} {cls : Nat} {t0 : State} (hq : State.allocPage s h i page st tokens bs cls = some t0) :
    Only [.ics, .commands, .mem, .kv, .events, .free, .run] s t0 :=
  (State.allocPage_only s h i page st tokens bs cls).of _ hq

theorem State.flushSlot_only (s : State) (cls : Nat) (h : Nat) (i : Nat) :
    OnlyO [.ics, .commands, .mem, .kv, .events, .free, .run] s (State.flushSlot s cls h i) := by
  unfold State.flushSlot
  iterate 24 all_goals try (first
    | with_reducible exact Only.refl
    | with_reducible assumption
    | decide
    | dsimp only [id]
    | with_reducible refine Only.after (State.drawIf_only (by assumption)) (by decide) ?_
    | with_reducible apply Only.after (State.drawMany_only ..)
    | with_reducible refine Only.after (State.drawMany_only' (hq := by assumption)) (by decide) ?_
    | with_reducible apply Only.after (State.setStream_only ..)
    | with_reducible apply OnlyO.after (State.allocPage_only ..)
    | with_reducible refine Only.after (State.allocPage_only' (hq := by assumption)) (by decide) ?_
    | with_reducible exact OnlyO.none
    | with_reducible refine OnlyO.some ?_
    | with_reducible refine OnlyO.mapState ?_ ?_
    | with_reducible refine OnlyO.map ?_
    | with_reducible refine OnlyO.bind ?_ ?_
    | with_reducible intro _
    | split)

theorem State.flushSlot_only' {s : State} {cls : Nat} {h : Nat} {i : Nat} {t0 : State} (hq : State.flushSlot s cls h i = some t0) :
    Only [.ics, .commands, .mem, .kv, .events, .free, .run] s t0 :=
  (State.flushSlot_only s cls h i).of _ hq

theorem State.flushAll_only (s : State) (cls : Nat) (h : Nat) :
    OnlyO [.ics, .commands, .mem, .kv, .events, .free, .run] s (State.flushAll s cls h) := by
  unfold State.flushAll
  iterate 24 all_goals try (first
    | with_reducible exact Only.refl
    | with_reducible assumption
    | decide
    | dsimp only [id]
    | with_reducible apply OnlyO.after (State.flushSlot_only ..)
    | with_reducible refine Only.after (State.flushSlot_only' (hq := by assumption)) (by decide) ?_
    | with_reducible exact OnlyO.none
    | with_reducible refine OnlyO.some ?_
    | with_reducible refine OnlyO.mapState ?_ ?_
    | with_reducible refine OnlyO.map ?_
    | with_reducible refine OnlyO.foldl _ ?_ ?_
    | with_reducible refine OnlyO.bind ?_ ?_
    | with_reducible refine Only.foldl _ ?_ ?_
    | with_reducible refine Only.foldlPair ?_ ?_
    | with_reducible refine Only.foldlPair' (by assumption) ?_ ?_
    | with_reducible intro _
    | split)

theorem State.flushAll_only' {s : State} {cls : Nat} {h : Nat} {t0 : State} (hq : State.flushAll s cls h = some t0) :
    Only [.ics, .commands, .mem, .kv, .events, .free, .run] s t0 :=
  (State.flushAll_only s cls h).of _ hq

theorem State.writeTables_only (s : State) :
    Only [.ics, .mem, .events] s (State.writeTables s) := by
  unfold State.writeTables
  iterate 24 all_goals try (first
    | with_reducible exact Only.refl
    | with_reducible assumption
    | decide
    | dsimp only [id]
    | with_reducible apply Only.after (State.storeWord_only ..)
    | with_reducible refine Only.foldl _ ?_ ?_
    | with_reducible refine Only.foldlPair ?_ ?_
    | with_reducible refine Only.foldlPair' (by assumption) ?_ ?_
    | with_reducible intro _)

theorem State.touchTables_only (s : State) :
    Only [.run] s (State.touchTables s) := by
  unfold State.touchTables
  iterate 24 all_goals try (first
    | with_reducible exact Only.refl
    | with_reducible assumption
    | decide
    | dsimp only [id]
    | with_reducible apply Only.after (State.touch_only ..)
    | with_reducible refine Only.foldl _ ?_ ?_
    | with_reducible refine Only.foldlPair ?_ ?_
    | with_reducible refine Only.foldlPair' (by assumption) ?_ ?_
    | with_reducible intro _)

theorem State.reserveSlots_only (s : State) (h : Nat) :
    OnlyO [.kv] s (State.reserveSlots s h) := by
  unfold State.reserveSlots
  iterate 24 all_goals try (first
    | with_reducible exact Only.refl
    | with_reducible assumption
    | decide
    | dsimp only [id]
    | with_reducible apply Only.after (State.setSeq_only ..)
    | with_reducible exact OnlyO.none
    | with_reducible refine OnlyO.some ?_
    | with_reducible refine OnlyO.mapState ?_ ?_
    | with_reducible refine OnlyO.map ?_
    | with_reducible refine OnlyO.bind ?_ ?_
    | with_reducible intro _
    | split)

theorem State.reserveSlots_only' {s : State} {h : Nat} {t0 : State} (hq : State.reserveSlots s h = some t0) :
    Only [.kv] s t0 :=
  (State.reserveSlots_only s h).of _ hq

theorem State.drawBivKey_only' {s : State} {r0 : Nat} {t0 : State} (hq : s.drawBivKey = some (r0, t0)) :
    Only [.trust] s t0 := by
  unfold State.drawBivKey at hq
  split at hq
  · injection hq with hq
    injection hq with _ hq
    exact hq ▸ Only.refl
  · split at hq
    · injection hq with hq
      injection hq with _ hq
      subst hq
      exact ⟨fun p hp => by cases p <;> first | exact absurd (by decide) hp | rfl | exact ⟨rfl, rfl⟩⟩
    · cases hq

theorem State.bivWrite_only (s : State) (off : Nat) (bs : List Byte) :
    OnlyO [.ports, .hostMem, .far, .events, .trust, .out] s (State.bivWrite s off bs) := by
  unfold State.bivWrite
  iterate 24 all_goals try (first
    | with_reducible exact Only.refl
    | with_reducible assumption
    | decide
    | dsimp only [id]
    | with_reducible apply Only.after (State.farWrite_only ..)
    | with_reducible apply Only.after (State.hostWrite_only ..)
    | with_reducible exact OnlyO.none
    | with_reducible refine OnlyO.some ?_
    | with_reducible refine OnlyO.mapState ?_ ?_
    | with_reducible refine OnlyO.map ?_
    | with_reducible refine OnlyO.bind ?_ ?_
    | with_reducible intro _
    | split)

theorem State.bivWrite_only' {s : State} {off : Nat} {bs : List Byte} {t0 : State} (hq : State.bivWrite s off bs = some t0) :
    Only [.ports, .hostMem, .far, .events, .trust, .out] s t0 :=
  (State.bivWrite_only s off bs).of _ hq

theorem State.bivRead_only (s : State) (off : Nat) (n : Nat) :
    Only [.events] s (State.bivRead s off n).2.s := by
  unfold State.bivRead
  iterate 24 all_goals try (first
    | with_reducible exact Only.refl
    | with_reducible assumption
    | decide
    | dsimp only [Io.halt]
    | with_reducible apply Only.after (State.farRead_only ..)
    | with_reducible refine Only.after (State.farRead_only' (hq := by assumption)) (by decide) ?_
    | with_reducible intro _
    | split)

theorem State.bivRead_only' {s : State} {off : Nat} {n : Nat} {r0 : _} {t0 : Io} (hq : State.bivRead s off n = (r0, t0)) :
    Only [.events] s t0.s := by
  have gq := State.bivRead_only s off n
  rw [hq] at gq
  exact gq

theorem State.swapPage_only (s : State) (h : Nat) (i : Nat) (page : Nat) :
    OnlyE [.ports, .ics, .mem, .hostMem, .far, .kv, .events, .trust, .out, .free, .run] s (State.swapPage s h i page) := by
  unfold State.swapPage
  iterate 24 all_goals try (first
    | with_reducible exact Only.refl
    | with_reducible assumption
    | decide
    | dsimp only [id]
    | with_reducible refine Only.after (State.drawBivKey_only' (hq := by assumption)) (by decide) ?_
    | with_reducible apply Only.after (State.readPage_only ..)
    | with_reducible refine Only.after (State.readPage_only' (hq := by assumption)) (by decide) ?_
    | with_reducible apply OnlyO.after (State.bivWrite_only ..)
    | with_reducible refine Only.after (State.bivWrite_only' (hq := by assumption)) (by decide) ?_
    | with_reducible apply Only.after (State.setStream_only ..)
    | with_reducible apply Only.after (State.dropRef_only ..)
    | with_reducible apply Only.after (State.setKv_only ..)
    | with_reducible exact OnlyO.none
    | with_reducible refine OnlyO.some ?_
    | with_reducible refine OnlyO.mapState ?_ ?_
    | with_reducible refine OnlyO.map ?_
    | with_reducible refine OnlyO.bind ?_ ?_
    | with_reducible exact OnlyE.error
    | with_reducible refine OnlyE.ok ?_
    | with_reducible refine OnlyE.bind ?_ ?_
    | with_reducible intro _
    | split)

theorem State.swapPage_only' {s : State} {h : Nat} {i : Nat} {page : Nat} {t0 : State} (hq : State.swapPage s h i page = .ok t0) :
    Only [.ports, .ics, .mem, .hostMem, .far, .kv, .events, .trust, .out, .free, .run] s t0 :=
  (State.swapPage_only s h i page).of _ hq

theorem State.swapStreams_only (s : State) (h : Nat) (l : List Nat) :
    OnlyE [.ports, .ics, .mem, .hostMem, .far, .kv, .events, .trust, .out, .free, .run] s (State.swapStreams s h l) := by
  induction l generalizing s with
  | nil => exact OnlyE.ok Only.refl
  | cons i rest ih =>
    unfold State.swapStreams
    split
    · next hq => exact OnlyE.after (ih _) within_self ((OnlyE.foldl _ (fun u p => State.swapPage_only u h i p) (OnlyE.ok Only.refl)).of _ hq)
    · exact OnlyE.error

theorem State.swapStreams_only' {s : State} {h : Nat} {l : List Nat} {t0 : State} (hq : State.swapStreams s h l = .ok t0) :
    Only [.ports, .ics, .mem, .hostMem, .far, .kv, .events, .trust, .out, .free, .run] s t0 := (State.swapStreams_only s h l).of _ hq

/-- A way to make room changes only the listed parts, when what it makes room for does. -/
def RoomOnly (L : List Part) (room : Room) : Prop :=
  ∀ (s : State) (h : Nat) (want : Want), (∀ u, OnlyO L u (want u)) → OnlyO L s (room s h want)

theorem State.flushWith_only {L : List Part} {room : Room} (hr : RoomOnly L room)
    (w : within [.ics, .commands, .mem, .kv, .events, .free, .run] L = true) (s : State) (h : Nat) (l : List Nat) :
    OnlyO L s (State.flushWith room s h l) := by
  induction l generalizing s with
  | nil => exact OnlyO.some Only.refl
  | cons i rest ih =>
    unfold State.flushWith
    split
    · next hq => exact (ih _).after within_self ((hr s h _ (fun u => (State.flushSlot_only ..).after w Only.refl)).of _ hq)
    · exact OnlyO.none

theorem State.releaseSlots_only (s : State) (h : Nat) :
    Only [.kv] s (State.releaseSlots s h) := by
  unfold State.releaseSlots
  iterate 24 all_goals try (first
    | with_reducible exact Only.refl
    | with_reducible assumption
    | decide
    | dsimp only [id]
    | with_reducible apply Only.after (State.setSeq_only ..))

theorem State.swapOutWith_only {L : List Part} {room : Room} (hr : RoomOnly L room)
    (w : within [.ports, .ics, .commands, .mem, .hostMem, .far, .kv, .events, .trust, .out, .free, .run] L = true) (s : State) (h : Nat) :
    OnlyE L s (State.swapOutWith room s h) := by
  have w1 : within [.ics, .commands, .mem, .kv, .events, .free, .run] L = true := within_trans (by decide) w
  have w2 : within [.ports, .ics, .mem, .hostMem, .far, .kv, .events, .trust, .out, .free, .run] L = true := within_trans (by decide) w
  have w3 : within [.kv] L = true := within_trans (by decide) w
  unfold State.swapOutWith
  split
  · exact OnlyE.ok Only.refl
  · extract_lets is
    split
    · next hq =>
      exact (State.swapStreams_only ..).after w2 ((State.releaseSlots_only ..).after w3 ((State.flushWith_only hr w1 s h is).of _ hq))
    · split
      · exact OnlyE.error
      · next hq =>
        have g := (State.swapStreams_only' hq).mono w2
        split
        · next hf =>
          exact (State.swapStreams_only ..).after w2 ((State.releaseSlots_only ..).after w3 ((State.flushAll_only' hf).after w1 g))
        · exact OnlyE.error

theorem State.findRoom_only {L : List Part} (w : within [.ports, .ics, .commands, .mem, .hostMem, .far, .kv, .events, .trust, .out, .free, .run] L = true) (n : Nat) :
    RoomOnly L (State.findRoom n) := by
  induction n with
  | zero => exact fun s h want hb => hb s
  | succ n ih =>
    intro s h want hb
    have step : ∀ (vs : List Nat) (acc : Except (Option State) State),
        (∀ t, acc = .ok t → Only L s t) → (∀ o, acc = .error o → OnlyO L s o) →
        OnlyO L s ((fun r => match r with | .error x => x | .ok t => want t) (vs.foldl (fun acc v => match acc with
          | .error r => .error r
          | .ok t => match want t with
            | some u => .error (some u)
            | none => match t.swapOutWith (State.findRoom n) v with
              | .ok u => .ok u
              | .error _ => .error none) acc)) := by
      intro vs
      induction vs with
      | nil =>
        intro acc h1 h2
        cases acc with
        | error o => exact h2 o rfl
        | ok t => exact (hb t).after within_self (h1 t rfl)
      | cons v vs iv =>
        intro acc h1 h2
        refine iv _ ?_ ?_
        · intro t ht
          cases acc with
          | error o => cases ht
          | ok t0 =>
            simp only at ht
            split at ht
            · cases ht
            · split at ht
              · next hs =>
                injection ht with ht
                subst ht
                exact (h1 t0 rfl).trans ((State.swapOutWith_only ih w t0 v).of _ hs)
              · cases ht
        · intro o ho
          cases acc with
          | error o0 =>
            injection ho with ho
            exact ho ▸ h2 o0 rfl
          | ok t0 =>
            simp only at ho
            split at ho
            · next hw =>
              injection ho with ho
              subst ho
              exact OnlyO.some ((h1 t0 rfl).trans ((hb t0).of _ hw))
            · split at ho
              · cases ho
              · injection ho with ho
                exact ho ▸ OnlyO.none
    exact step (s.victims h) (.ok s) (fun t ht => by injection ht with ht; exact ht ▸ Only.refl) (fun o ho => nomatch ho)

theorem State.withSpace_only {L : List Part} {s0 s : State} {h : Nat} {want : Want} (hs : Only L s0 s)
    (w : within [.ports, .ics, .commands, .mem, .hostMem, .far, .kv, .events, .trust, .out, .free, .run] L = true) (hb : ∀ u, OnlyO L u (want u)) : OnlyO L s0 (State.withSpace s h want) :=
  (State.findRoom_only w _ s h want hb).after within_self hs

theorem State.swapOut_only (s : State) (h : Nat) : OnlyE [.ports, .ics, .commands, .mem, .hostMem, .far, .kv, .events, .trust, .out, .free, .run] s (State.swapOut s h) :=
  State.swapOutWith_only (State.findRoom_only within_self _) within_self s h

theorem State.swapOut_only' {s : State} {h : Nat} {t0 : State} (hq : State.swapOut s h = .ok t0) : Only [.ports, .ics, .commands, .mem, .hostMem, .far, .kv, .events, .trust, .out, .free, .run] s t0 :=
  (State.swapOut_only s h).of _ hq

theorem State.reopen_only (s : State) (h : Nat) (i : Nat) (page : Nat) (n : Nat) :
    OnlyE [.ics, .mem, .kv, .events, .free, .run] s (State.reopen s h i page n) := by
  unfold State.reopen
  iterate 24 all_goals try (first
    | with_reducible exact Only.refl
    | with_reducible assumption
    | decide
    | dsimp only [id]
    | with_reducible apply Only.after (State.readPage_only ..)
    | with_reducible refine Only.after (State.readPage_only' (hq := by assumption)) (by decide) ?_
    | with_reducible apply Only.after (State.dropRef_only ..)
    | with_reducible apply Only.after (State.setStream_only ..)
    | with_reducible exact OnlyE.error
    | with_reducible refine OnlyE.ok ?_
    | with_reducible refine OnlyE.bind ?_ ?_
    | with_reducible intro _
    | split)

theorem State.reopen_only' {s : State} {h : Nat} {i : Nat} {page : Nat} {n : Nat} {t0 : State} (hq : State.reopen s h i page n = .ok t0) :
    Only [.ics, .mem, .kv, .events, .free, .run] s t0 :=
  (State.reopen_only s h i page n).of _ hq

theorem State.reopenDue_only (s : State) (h : Nat) (x1 : List Nat) :
    OnlyE [.ics, .mem, .kv, .events, .free, .run] s (State.reopenDue s h x1) := by
  fun_induction State.reopenDue s h x1
  iterate 24 all_goals try (first
    | with_reducible exact Only.refl
    | with_reducible assumption
    | decide
    | dsimp only [id]
    | with_reducible apply OnlyE.after (State.reopen_only ..)
    | with_reducible refine Only.after (State.reopen_only' (hq := by assumption)) (by decide) ?_
    | with_reducible exact OnlyE.error
    | with_reducible refine OnlyE.ok ?_
    | with_reducible refine OnlyE.bind ?_ ?_
    | with_reducible refine OnlyE.after (by assumption) within_self ?_)

theorem State.reopenDue_only' {s : State} {h : Nat} {x1 : List Nat} {t0 : State} (hq : State.reopenDue s h x1 = .ok t0) :
    Only [.ics, .mem, .kv, .events, .free, .run] s t0 :=
  (State.reopenDue_only s h x1).of _ hq

theorem State.restorePage_only (s : State) (ctrl : Nat) (h : Nat) (i : Nat) (page : Nat) :
    Only [.ports, .ics, .commands, .mem, .hostMem, .far, .kv, .events, .trust, .out, .free, .run] s (State.restorePage s ctrl h i page).1 := by
  unfold State.restorePage
  iterate 24 all_goals try (first
    | with_reducible exact Only.refl
    | with_reducible assumption
    | decide
    | dsimp only [id]
    | with_reducible apply Only.after (State.postArgs_only ..)
    | with_reducible apply Only.after (State.bivRead_only ..)
    | with_reducible refine Only.after (State.bivRead_only' (hq := by assumption)) (by decide) ?_
    | with_reducible refine State.withSpace_only ?_ (by decide) ?_
    | with_reducible refine (State.withSpace_only ?_ (by decide) ?_).of _ (by assumption)
    | with_reducible apply OnlyO.after (State.allocPage_only ..)
    | with_reducible refine Only.after (State.allocPage_only' (hq := by assumption)) (by decide) ?_
    | with_reducible apply Only.after (State.setKv_only ..)
    | with_reducible exact OnlyO.none
    | with_reducible refine OnlyO.some ?_
    | with_reducible refine OnlyO.mapState ?_ ?_
    | with_reducible refine OnlyO.map ?_
    | with_reducible refine OnlyO.bind ?_ ?_
    | with_reducible intro _
    | split)

theorem State.restorePage_only' {s : State} {ctrl : Nat} {h : Nat} {i : Nat} {page : Nat} {r0 : _} {t0 : State} (hq : State.restorePage s ctrl h i page = (t0, r0)) :
    Only [.ports, .ics, .commands, .mem, .hostMem, .far, .kv, .events, .trust, .out, .free, .run] s t0 := by
  have gq := State.restorePage_only s ctrl h i page
  rw [hq] at gq
  exact gq

theorem State.restoreAll_only (s : State) (ctrl : Nat) (h : Nat) (x1 : List (Nat × Nat)) :
    Only [.ports, .ics, .commands, .mem, .hostMem, .far, .kv, .events, .trust, .out, .free, .run] s (State.restoreAll s ctrl h x1).1 := by
  fun_induction State.restoreAll s ctrl h x1
  all_goals try simp_all only
  iterate 24 all_goals try (first
    | with_reducible exact Only.refl
    | with_reducible assumption
    | decide
    | dsimp only [id]
    | with_reducible apply Only.after (State.restorePage_only ..)
    | with_reducible refine Only.after (State.restorePage_only' (hq := by assumption)) (by decide) ?_
    | with_reducible refine Only.trans ?_ (by assumption))

theorem State.restoreAll_only' {s : State} {ctrl : Nat} {h : Nat} {x1 : List (Nat × Nat)} {r0 : _} {t0 : State} (hq : State.restoreAll s ctrl h x1 = (t0, r0)) :
    Only [.ports, .ics, .commands, .mem, .hostMem, .far, .kv, .events, .trust, .out, .free, .run] s t0 := by
  have gq := State.restoreAll_only s ctrl h x1
  rw [hq] at gq
  exact gq

theorem State.resume_only (s : State) (ctrl : Nat) (h : Nat) :
    Only [.ports, .ics, .commands, .mem, .hostMem, .far, .kv, .events, .trust, .out, .free, .run] s (State.resume s ctrl h).1 := by
  unfold State.resume
  iterate 24 all_goals try (first
    | with_reducible exact Only.refl
    | with_reducible assumption
    | decide
    | dsimp only [id]
    | with_reducible refine State.withSpace_only ?_ (by decide) ?_
    | with_reducible refine (State.withSpace_only ?_ (by decide) ?_).of _ (by assumption)
    | with_reducible apply OnlyO.after (State.reserveSlots_only ..)
    | with_reducible refine Only.after (State.reserveSlots_only' (hq := by assumption)) (by decide) ?_
    | with_reducible apply Only.after (State.restoreAll_only ..)
    | with_reducible refine Only.after (State.restoreAll_only' (hq := by assumption)) (by decide) ?_
    | with_reducible apply OnlyE.after (State.reopenDue_only ..)
    | with_reducible refine Only.after (State.reopenDue_only' (hq := by assumption)) (by decide) ?_
    | with_reducible exact OnlyO.none
    | with_reducible refine OnlyO.some ?_
    | with_reducible refine OnlyO.mapState ?_ ?_
    | with_reducible refine OnlyO.map ?_
    | with_reducible refine OnlyO.bind ?_ ?_
    | with_reducible exact OnlyE.error
    | with_reducible refine OnlyE.ok ?_
    | with_reducible refine OnlyE.bind ?_ ?_
    | with_reducible intro _
    | split)

theorem State.resume_only' {s : State} {ctrl : Nat} {h : Nat} {r0 : _} {t0 : State} (hq : State.resume s ctrl h = (t0, r0)) :
    Only [.ports, .ics, .commands, .mem, .hostMem, .far, .kv, .events, .trust, .out, .free, .run] s t0 := by
  have gq := State.resume_only s ctrl h
  rw [hq] at gq
  exact gq

theorem State.losePage_only (s : State) (g : Page) :
    Only [.kv] s (State.losePage s g) := by
  unfold State.losePage
  iterate 24 all_goals try (first
    | with_reducible exact Only.refl
    | with_reducible assumption
    | decide
    | dsimp only [id]
    | with_reducible apply Only.after (State.setKv_only ..))

theorem State.losePages_only (s : State) (pair : Nat) :
    Only [.ics, .mem, .kv, .events] s (State.losePages s pair) := by
  unfold State.losePages
  iterate 24 all_goals try (first
    | with_reducible exact Only.refl
    | with_reducible assumption
    | decide
    | dsimp only [id]
    | with_reducible apply Only.after (State.writeTables_only ..)
    | with_reducible apply Only.after (State.losePage_only ..)
    | with_reducible refine Only.foldl _ ?_ ?_
    | with_reducible refine Only.foldlPair ?_ ?_
    | with_reducible refine Only.foldlPair' (by assumption) ?_ ?_
    | with_reducible intro _)

theorem State.moveOff_only (s : State) (old : List Retired) (g : Page) :
    Only [.ics, .commands, .mem, .kv, .events, .free] s (State.moveOff s old g) := by
  unfold State.moveOff
  iterate 24 all_goals try (first
    | with_reducible exact Only.refl
    | with_reducible assumption
    | decide
    | dsimp only [id]
    | with_reducible apply Only.after (State.readPageThere_only ..)
    | with_reducible refine Only.after (State.readPageThere_only' (hq := by assumption)) (by decide) ?_
    | with_reducible apply Only.after (State.writePageThere_only ..)
    | with_reducible apply Only.after (State.setKv_only ..)
    | with_reducible apply Only.after (State.losePage_only ..)
    | simp only [OnlyMk.mark]
    | ((with_reducible refine OnlyMk.of ?_ ?_); rotate_left; focus (intro p hp; cases p <;> first | exact absurd (by decide) hp | rfl | exact ⟨rfl, rfl⟩))
    | with_reducible intro _
    | split)

theorem State.moveBlock_only (s : State) (hit : Nat → Nat → Bool) (h : Nat) (i : Nat) (n : Nat) :
    Only [.kv] s (State.moveBlock s hit h i n) := by
  unfold State.moveBlock
  iterate 24 all_goals try (first
    | with_reducible exact Only.refl
    | with_reducible assumption
    | decide
    | dsimp only [id]
    | with_reducible apply Only.after (State.setStream_only ..)
    | with_reducible intro _
    | split)

theorem State.moveTables_only (s : State) (pair : Nat) (hit : Nat → Nat → Bool) :
    Only [.ics, .mem, .kv, .events] s (State.moveTables s pair hit) := by
  unfold State.moveTables
  iterate 24 all_goals try (first
    | with_reducible exact Only.refl
    | with_reducible assumption
    | decide
    | dsimp only [id]
    | with_reducible apply Only.after (State.writeTables_only ..)
    | with_reducible apply Only.after (State.moveBlock_only ..)
    | with_reducible refine Only.foldl _ ?_ ?_
    | with_reducible refine Only.foldlPair ?_ ?_
    | with_reducible refine Only.foldlPair' (by assumption) ?_ ?_
    | with_reducible intro _)

theorem State.evacuateBank_only (s : State) (old : List Retired) (pair : Nat) (bank : Nat) :
    Only [.ics, .commands, .mem, .kv, .events, .free] s (State.evacuateBank s old pair bank) := by
  unfold State.evacuateBank
  iterate 24 all_goals try (first
    | with_reducible exact Only.refl
    | with_reducible assumption
    | decide
    | dsimp only [id]
    | with_reducible apply Only.after (State.moveTables_only ..)
    | with_reducible apply Only.after (State.moveOff_only ..)
    | with_reducible refine Only.foldl _ ?_ ?_
    | with_reducible refine Only.foldlPair ?_ ?_
    | with_reducible refine Only.foldlPair' (by assumption) ?_ ?_
    | with_reducible intro _)

theorem State.evacuateBlock_only (s : State) (old : List Retired) (pair : Nat) (block : Nat) :
    Only [.ics, .commands, .mem, .kv, .events, .free] s (State.evacuateBlock s old pair block) := by
  unfold State.evacuateBlock
  iterate 24 all_goals try (first
    | with_reducible exact Only.refl
    | with_reducible assumption
    | decide
    | dsimp only [id]
    | with_reducible apply Only.after (State.moveTables_only ..)
    | with_reducible apply Only.after (State.moveOff_only ..)
    | with_reducible refine Only.foldl _ ?_ ?_
    | with_reducible refine Only.foldlPair ?_ ?_
    | with_reducible refine Only.foldlPair' (by assumption) ?_ ?_
    | with_reducible intro _)

theorem State.clearKv_only (s : State) :
    Only [.kv] s (State.clearKv s) := by
  unfold State.clearKv
  iterate 24 all_goals try (first
    | with_reducible exact Only.refl
    | with_reducible assumption
    | decide
    | dsimp only [id]
    | with_reducible apply Only.after (State.setKv_only ..))

/-! ## Machine/Seqs.lean -/

theorem State.noteHandle_only (s : State) (tag : Nat) (h : Nat) :
    Only [.commands] s (State.noteHandle s tag h) := by
  unfold State.noteHandle
  iterate 24 all_goals try (first
    | with_reducible exact Only.refl
    | with_reducible assumption
    | decide
    | dsimp only [id]
    | with_reducible apply Only.after (State.setCmd_only ..))

theorem State.onSeq_only {L : List Part} {s0 : State} {s : State} {c : OpCtx} {pre : Seq → Option Ending} {zero : Bool} {body : Nat → State → State × Ending} (hs : Only L s0 s) (w : within [.ports, .ics, .commands, .mem, .hostMem, .far, .kv, .events, .trust, .out, .free, .run] L = true) (hb : ∀ u0 u1, Only L u1 (body u0 u1).1) :
    Only L s0 (State.onSeq s c pre zero body).1 := by
  unfold State.onSeq
  iterate 24 all_goals try (first
    | with_reducible exact Only.refl
    | with_reducible assumption
    | with_reducible refine Only.trans ?_ (hb ..)
    | exact within_trans (by decide) w
    | decide
    | dsimp only [id]
    | with_reducible apply Only.after (State.resume_only ..)
    | with_reducible refine Only.after (State.resume_only' (hq := by assumption)) (by first | decide | exact within_trans (by decide) w) ?_
    | with_reducible apply Only.after (State.noteHandle_only ..)
    | with_reducible intro _
    | split)

theorem paged_only {L : List Part} {s0 : State} {body : OpCtx → State → State × Ending} {c : OpCtx} {s : State} (hs : Only L s0 s) (w : within [.ics, .mem, .events, .run] L = true) (hb : ∀ u0 u1, Only L u1 (body u0 u1).1) :
    Only L s0 (paged body c s).1 := by
  unfold paged
  iterate 24 all_goals try (first
    | with_reducible exact Only.refl
    | with_reducible assumption
    | with_reducible refine Only.trans ?_ (hb ..)
    | exact within_trans (by decide) w
    | decide
    | dsimp only [id]
    | with_reducible apply Only.after (State.writeTables_only ..)
    | with_reducible apply Only.after (State.touchTables_only ..))

theorem State.newHandle_only (s : State) :
    Only [.free] s (State.newHandle s).2 := by
  unfold State.newHandle
  iterate 24 all_goals try (first
    | with_reducible exact Only.refl
    | with_reducible assumption
    | decide
    | dsimp only [id]
    | with_reducible apply Only.after (State.draw_only ..))

theorem State.newHandle_only' {s : State} {r0 : _} {t0 : State} (hq : State.newHandle s = (r0, t0)) :
    Only [.free] s t0 := by
  have gq := State.newHandle_only s
  rw [hq] at gq
  exact gq

theorem seqOpen_only (c : OpCtx) (s : State) :
    Only [.ports, .ics, .commands, .mem, .hostMem, .far, .kv, .events, .trust, .out, .free, .run] s (seqOpen c s).1 := by
  unfold seqOpen
  extract_lets q n nf
  split
  · exact Only.refl
  split
  · exact Only.refl
  split
  · exact Only.refl
  split
  next h1 =>
  split
  next h2 =>
  have g1 := (State.load_only' h1).mono (L := [.ports, .ics, .commands, .mem, .hostMem, .far, .kv, .events, .trust, .out, .free, .run]) (by decide)
  have g2 := (State.load_only' h2).after (by decide) g1
  split
  · exact g1
  · exact g2
  · extract_lets xs
    split
    · exact g2
    · split
      next h3 =>
      have g3 := (State.newHandle_only' h3).after (by decide) g2
      extract_lets q'
      split
      · next h4 =>
        exact (State.noteHandle_only ..).after (by decide) ((State.withSpace_only ((State.setKv_only ..).after (by decide) g3) (by decide)
          (fun u => (State.reserveSlots_only u _).after (by decide) Only.refl)).of _ h4)
      · exact g3

theorem seqOpen_only' {c : OpCtx} {s : State} {r0 : _} {t0 : State} (hq : seqOpen c s = (t0, r0)) :
    Only [.ports, .ics, .commands, .mem, .hostMem, .far, .kv, .events, .trust, .out, .free, .run] s t0 := by
  have gq := seqOpen_only c s
  rw [hq] at gq
  exact gq

theorem execOpSeqOpen_only (tag : Nat) (op : Nat) (s : State) (t : State) (hq : execOpSeqOpen tag op s = .next t) :
    Only [.ports, .ics, .commands, .mem, .hostMem, .far, .kv, .events, .trust, .out, .free, .run] s t := by
  unfold execOpSeqOpen at hq
  injection hq with hq
  subst hq
  iterate 24 all_goals try (first
    | with_reducible exact Only.refl
    | with_reducible assumption
    | decide
    | dsimp only [id]
    | with_reducible refine State.runOp_only ?_ (by decide) ?_
    | with_reducible refine paged_only ?_ (by decide) ?_
    | with_reducible apply Only.after (seqOpen_only ..)
    | with_reducible intro _)

theorem State.needBlocks_only (s : State) (h : Nat) :
    OnlyO [.kv] s (State.needBlocks s h) := by
  unfold State.needBlocks
  iterate 24 all_goals try (first
    | with_reducible exact Only.refl
    | with_reducible assumption
    | decide
    | dsimp only [id]
    | with_reducible apply OnlyO.after (State.needBlock_only ..)
    | with_reducible refine Only.after (State.needBlock_only' (hq := by assumption)) (by decide) ?_
    | with_reducible exact OnlyO.none
    | with_reducible refine OnlyO.some ?_
    | with_reducible refine OnlyO.mapState ?_ ?_
    | with_reducible refine OnlyO.map ?_
    | with_reducible refine OnlyO.foldl _ ?_ ?_
    | with_reducible refine OnlyO.bind ?_ ?_
    | with_reducible refine Only.foldl _ ?_ ?_
    | with_reducible refine Only.foldlPair ?_ ?_
    | with_reducible refine Only.foldlPair' (by assumption) ?_ ?_
    | with_reducible intro _
    | split)

theorem State.needBlocks_only' {s : State} {h : Nat} {t0 : State} (hq : State.needBlocks s h = some t0) :
    Only [.kv] s t0 :=
  (State.needBlocks_only s h).of _ hq

theorem seqFork_only (c : OpCtx) (src : Nat) (s : State) :
    Only [.ports, .ics, .commands, .mem, .hostMem, .far, .kv, .events, .trust, .out, .free, .run] s (seqFork c src s).1 := by
  unfold seqFork
  iterate 24 all_goals try (first
    | with_reducible exact Only.refl
    | with_reducible assumption
    | decide
    | dsimp only [id]
    | with_reducible apply Only.after (State.newHandle_only ..)
    | with_reducible refine Only.after (State.newHandle_only' (hq := by assumption)) (by decide) ?_
    | with_reducible refine State.withSpace_only ?_ (by decide) ?_
    | with_reducible refine (State.withSpace_only ?_ (by decide) ?_).of _ (by assumption)
    | with_reducible apply Only.after (State.setKv_only ..)
    | with_reducible apply OnlyO.after (State.reserveSlots_only ..)
    | with_reducible refine Only.after (State.reserveSlots_only' (hq := by assumption)) (by decide) ?_
    | with_reducible apply OnlyO.after (State.needBlocks_only ..)
    | with_reducible refine Only.after (State.needBlocks_only' (hq := by assumption)) (by decide) ?_
    | with_reducible apply Only.after (State.noteHandle_only ..)
    | with_reducible apply Only.after (State.onPage_only ..)
    | with_reducible exact OnlyO.none
    | with_reducible refine OnlyO.some ?_
    | with_reducible refine OnlyO.mapState ?_ ?_
    | with_reducible refine OnlyO.map ?_
    | with_reducible refine OnlyO.foldl _ ?_ ?_
    | with_reducible refine OnlyO.bind ?_ ?_
    | with_reducible refine Only.foldl _ ?_ ?_
    | with_reducible refine Only.foldlPair ?_ ?_
    | with_reducible refine Only.foldlPair' (by assumption) ?_ ?_
    | with_reducible intro _
    | split)

theorem seqFork_only' {c : OpCtx} {src : Nat} {s : State} {r0 : _} {t0 : State} (hq : seqFork c src s = (t0, r0)) :
    Only [.ports, .ics, .commands, .mem, .hostMem, .far, .kv, .events, .trust, .out, .free, .run] s t0 := by
  have gq := seqFork_only c src s
  rw [hq] at gq
  exact gq

theorem execOpSeqFork_only (tag : Nat) (op : Nat) (s : State) (t : State) (hq : execOpSeqFork tag op s = .next t) :
    Only [.ports, .ics, .commands, .mem, .hostMem, .far, .kv, .events, .trust, .out, .free, .run] s t := by
  unfold execOpSeqFork at hq
  injection hq with hq
  subst hq
  iterate 24 all_goals try (first
    | with_reducible exact Only.refl
    | with_reducible assumption
    | decide
    | dsimp only [id]
    | with_reducible refine State.runOp_only ?_ (by decide) ?_
    | with_reducible refine paged_only ?_ (by decide) ?_
    | with_reducible refine State.onSeq_only ?_ (by decide) ?_
    | with_reducible apply Only.after (seqFork_only ..)
    | with_reducible intro _)

theorem execOpSeqClose_only (tag : Nat) (op : Nat) (s : State) (t : State) (hq : execOpSeqClose tag op s = .next t) :
    Only [.ports, .ics, .commands, .mem, .hostMem, .far, .kv, .events, .trust, .out, .free, .run] s t := by
  unfold execOpSeqClose at hq
  injection hq with hq
  subst hq
  iterate 24 all_goals try (first
    | with_reducible exact Only.refl
    | with_reducible assumption
    | decide
    | dsimp only [id]
    | with_reducible refine State.runOp_only ?_ (by decide) ?_
    | with_reducible refine paged_only ?_ (by decide) ?_
    | with_reducible refine State.onSeq_only ?_ (by decide) ?_
    | with_reducible refine State.withSpace_only ?_ (by decide) ?_
    | with_reducible refine (State.withSpace_only ?_ (by decide) ?_).of _ (by assumption)
    | with_reducible apply OnlyO.after (State.flushAll_only ..)
    | with_reducible refine Only.after (State.flushAll_only' (hq := by assumption)) (by decide) ?_
    | with_reducible apply Only.after (State.setSeq_only ..)
    | with_reducible exact OnlyO.none
    | with_reducible refine OnlyO.some ?_
    | with_reducible refine OnlyO.mapState ?_ ?_
    | with_reducible refine OnlyO.map ?_
    | with_reducible refine OnlyO.bind ?_ ?_
    | with_reducible intro _
    | split)

theorem State.freeSeq_only (s : State) (h : Nat) :
    Only [.kv] s (State.freeSeq s h) := by
  unfold State.freeSeq
  iterate 24 all_goals try (first
    | with_reducible exact Only.refl
    | with_reducible assumption
    | decide
    | dsimp only [id]
    | with_reducible apply Only.after (State.setKv_only ..)
    | with_reducible apply Only.after (State.dropRef_only ..)
    | with_reducible refine Only.foldl _ ?_ ?_
    | with_reducible refine Only.foldlPair ?_ ?_
    | with_reducible refine Only.foldlPair' (by assumption) ?_ ?_
    | with_reducible intro _
    | split)

theorem execOpSeqFree_only (tag : Nat) (op : Nat) (s : State) (t : State) (hq : execOpSeqFree tag op s = .next t) :
    Only [.ports, .ics, .commands, .mem, .hostMem, .far, .kv, .events, .trust, .out, .free, .run] s t := by
  unfold execOpSeqFree at hq
  injection hq with hq
  subst hq
  iterate 24 all_goals try (first
    | with_reducible exact Only.refl
    | with_reducible assumption
    | decide
    | dsimp only [id]
    | with_reducible refine State.runOp_only ?_ (by decide) ?_
    | with_reducible refine paged_only ?_ (by decide) ?_
    | with_reducible refine State.onSeq_only ?_ (by decide) ?_
    | with_reducible apply Only.after (State.freeSeq_only ..)
    | with_reducible intro _)

theorem State.truncStream_only (s : State) (h : Nat) (i : Nat) (n : Nat) :
    OnlyE [.ics, .mem, .kv, .events, .free, .run] s (State.truncStream s h i n) := by
  unfold State.truncStream
  iterate 24 all_goals try (first
    | with_reducible exact Only.refl
    | with_reducible assumption
    | decide
    | dsimp only [id]
    | with_reducible apply Only.after (State.setStream_only ..)
    | with_reducible apply Only.after (State.dropRef_only ..)
    | with_reducible apply OnlyE.after (State.reopen_only ..)
    | with_reducible refine Only.after (State.reopen_only' (hq := by assumption)) (by decide) ?_
    | with_reducible exact OnlyE.error
    | with_reducible refine OnlyE.ok ?_
    | with_reducible refine OnlyE.foldl _ ?_ ?_
    | with_reducible refine OnlyE.bind ?_ ?_
    | with_reducible refine Only.foldl _ ?_ ?_
    | with_reducible refine Only.foldlPair ?_ ?_
    | with_reducible refine Only.foldlPair' (by assumption) ?_ ?_
    | with_reducible intro _
    | split)

theorem State.truncStream_only' {s : State} {h : Nat} {i : Nat} {n : Nat} {t0 : State} (hq : State.truncStream s h i n = .ok t0) :
    Only [.ics, .mem, .kv, .events, .free, .run] s t0 :=
  (State.truncStream_only s h i n).of _ hq

theorem State.truncStreams_only (s : State) (h : Nat) (n : Nat) (x1 : List Nat) :
    Only [.ics, .mem, .kv, .events, .free, .run] s (State.truncStreams s h n x1).1 := by
  fun_induction State.truncStreams s h n x1
  all_goals try simp_all only
  iterate 24 all_goals try (first
    | with_reducible exact Only.refl
    | with_reducible assumption
    | decide
    | dsimp only [id]
    | with_reducible apply OnlyE.after (State.truncStream_only ..)
    | with_reducible refine Only.after (State.truncStream_only' (hq := by assumption)) (by decide) ?_
    | with_reducible exact OnlyE.error
    | with_reducible refine OnlyE.ok ?_
    | with_reducible refine OnlyE.bind ?_ ?_
    | with_reducible refine Only.trans ?_ (by assumption))

theorem State.truncStreams_only' {s : State} {h : Nat} {n : Nat} {x1 : List Nat} {r0 : _} {t0 : State} (hq : State.truncStreams s h n x1 = (t0, r0)) :
    Only [.ics, .mem, .kv, .events, .free, .run] s t0 := by
  have gq := State.truncStreams_only s h n x1
  rw [hq] at gq
  exact gq

theorem State.retryFlush_only (s : State) (h : Nat) (is : List Nat) :
    Only [.ports, .ics, .commands, .mem, .hostMem, .far, .kv, .events, .trust, .out, .free, .run] s (State.retryFlush s h is) := by
  unfold State.retryFlush
  iterate 24 all_goals try (first
    | with_reducible exact Only.refl
    | with_reducible assumption
    | decide
    | dsimp only [id]
    | with_reducible refine State.withSpace_only ?_ (by decide) ?_
    | with_reducible refine (State.withSpace_only ?_ (by decide) ?_).of _ (by assumption)
    | with_reducible apply OnlyO.after (State.flushSlot_only ..)
    | with_reducible refine Only.after (State.flushSlot_only' (hq := by assumption)) (by decide) ?_
    | with_reducible refine OnlyO.getD ?_ ?_
    | with_reducible exact OnlyO.none
    | with_reducible refine OnlyO.some ?_
    | with_reducible refine OnlyO.mapState ?_ ?_
    | with_reducible refine OnlyO.map ?_
    | with_reducible refine OnlyO.foldl _ ?_ ?_
    | with_reducible refine OnlyO.bind ?_ ?_
    | with_reducible refine Only.foldl _ ?_ ?_
    | with_reducible refine Only.foldlPair ?_ ?_
    | with_reducible refine Only.foldlPair' (by assumption) ?_ ?_
    | with_reducible intro _
    | split)

theorem execOpSeqTruncate_only (tag : Nat) (op : Nat) (s : State) (t : State) (hq : execOpSeqTruncate tag op s = .next t) :
    Only [.ports, .ics, .commands, .mem, .hostMem, .far, .kv, .events, .trust, .out, .free, .run] s t := by
  unfold execOpSeqTruncate at hq
  injection hq with hq
  subst hq
  iterate 24 all_goals try (first
    | with_reducible exact Only.refl
    | with_reducible assumption
    | decide
    | dsimp only [id]
    | with_reducible refine State.runOp_only ?_ (by decide) ?_
    | with_reducible refine paged_only ?_ (by decide) ?_
    | with_reducible refine State.onSeq_only ?_ (by decide) ?_
    | with_reducible apply Only.after (State.truncStreams_only ..)
    | with_reducible apply Only.after (State.retryFlush_only ..)
    | with_reducible intro _)

theorem execOpSeqPreempt_only (tag : Nat) (op : Nat) (s : State) (t : State) (hq : execOpSeqPreempt tag op s = .next t) :
    Only [.ports, .ics, .commands, .mem, .hostMem, .far, .kv, .events, .trust, .out, .free, .run] s t := by
  unfold execOpSeqPreempt at hq
  injection hq with hq
  subst hq
  iterate 24 all_goals try (first
    | with_reducible exact Only.refl
    | with_reducible assumption
    | decide
    | dsimp only [id]
    | with_reducible refine State.runOp_only ?_ (by decide) ?_
    | with_reducible refine paged_only ?_ (by decide) ?_
    | with_reducible apply OnlyE.after (State.swapOut_only ..)
    | with_reducible refine Only.after (State.swapOut_only' (hq := by assumption)) (by decide) ?_
    | with_reducible apply Only.after (State.noteHandle_only ..)
    | with_reducible exact OnlyE.error
    | with_reducible refine OnlyE.ok ?_
    | with_reducible refine OnlyE.bind ?_ ?_
    | with_reducible intro _
    | split)

theorem execOpSeqResume_only (tag : Nat) (op : Nat) (s : State) (t : State) (hq : execOpSeqResume tag op s = .next t) :
    Only [.ports, .ics, .commands, .mem, .hostMem, .far, .kv, .events, .trust, .out, .free, .run] s t := by
  unfold execOpSeqResume at hq
  injection hq with hq
  subst hq
  iterate 24 all_goals try (first
    | with_reducible exact Only.refl
    | with_reducible assumption
    | decide
    | dsimp only [id]
    | with_reducible refine State.runOp_only ?_ (by decide) ?_
    | with_reducible refine paged_only ?_ (by decide) ?_
    | with_reducible refine State.onSeq_only ?_ (by decide) ?_
    | with_reducible intro _)

theorem State.readToken_only (s : State) (c : OpCtx) (q : Seq) (a : AppendSrc) (j : Nat) (h : Nat) :
    Only [.ics, .commands, .mem, .events, .free, .run] s (State.readToken s c q a j h).2.s := by
  unfold State.readToken
  iterate 24 all_goals try (first
    | with_reducible exact Only.refl
    | with_reducible assumption
    | decide
    | dsimp only [Io.halt]
    | with_reducible apply Only.after (State.load_only ..)
    | with_reducible refine Only.after (State.load_only' (hq := by assumption)) (by decide) ?_
    | with_reducible refine Only.after (State.drawIf_only (by assumption)) (by decide) ?_
    | with_reducible apply Only.after (State.drawMany_only ..)
    | with_reducible refine Only.after (State.drawMany_only' (hq := by assumption)) (by decide) ?_
    | with_reducible intro _
    | split)

theorem State.readToken_only' {s : State} {c : OpCtx} {q : Seq} {a : AppendSrc} {j : Nat} {h : Nat} {r0 : _} {t0 : Io} (hq : State.readToken s c q a j h = (r0, t0)) :
    Only [.ics, .commands, .mem, .events, .free, .run] s t0.s := by
  have gq := State.readToken_only s c q a j h
  rw [hq] at gq
  exact gq

theorem State.readTokens_only (s : State) (c : OpCtx) (q : Seq) (a : AppendSrc) (j : Nat) (x1 : List Nat) :
    Only [.ics, .commands, .mem, .events, .free, .run] s (State.readTokens s c q a j x1).2.s := by
  fun_induction State.readTokens s c q a j x1
  all_goals try simp_all only
  iterate 24 all_goals try (first
    | with_reducible exact Only.refl
    | with_reducible assumption
    | decide
    | dsimp only [Io.halt]
    | with_reducible apply Only.after (State.readToken_only ..)
    | with_reducible refine Only.after (State.readToken_only' (hq := by assumption)) (by decide) ?_
    | with_reducible refine Only.trans ?_ (by assumption))

theorem State.readTokens_only' {s : State} {c : OpCtx} {q : Seq} {a : AppendSrc} {j : Nat} {x1 : List Nat} {r0 : _} {t0 : Io} (hq : State.readTokens s c q a j x1 = (r0, t0)) :
    Only [.ics, .commands, .mem, .events, .free, .run] s t0.s := by
  have gq := State.readTokens_only s c q a j x1
  rw [hq] at gq
  exact gq

theorem State.putToken_only (s : State) (hd : Nat) (i : Nat) (k : Token) :
    Only [.kv, .free] s (State.putToken s hd i k).1 := by
  unfold State.putToken
  iterate 24 all_goals try (first
    | with_reducible exact Only.refl
    | with_reducible assumption
    | decide
    | dsimp only [id]
    | with_reducible refine Only.after (State.drawIf_only (by assumption)) (by decide) ?_
    | with_reducible apply Only.after (State.drawMany_only ..)
    | with_reducible refine Only.after (State.drawMany_only' (hq := by assumption)) (by decide) ?_
    | with_reducible apply Only.after (State.setStream_only ..)
    | with_reducible intro _
    | split)

theorem State.putToken_only' {s : State} {hd : Nat} {i : Nat} {k : Token} {r0 : _} {t0 : State} (hq : State.putToken s hd i k = (t0, r0)) :
    Only [.kv, .free] s t0 := by
  have gq := State.putToken_only s hd i k
  rw [hq] at gq
  exact gq

theorem State.flushFull_only (s : State) (h : Nat) (x1 : List Nat) :
    OnlyS [.ports, .ics, .commands, .mem, .hostMem, .far, .kv, .events, .trust, .out, .free, .run] s (State.flushFull s h x1) := by
  fun_induction State.flushFull s h x1
  iterate 24 all_goals try (first
    | with_reducible exact Only.refl
    | with_reducible assumption
    | decide
    | dsimp only [id]
    | with_reducible refine State.withSpace_only ?_ (by decide) ?_
    | with_reducible refine (State.withSpace_only ?_ (by decide) ?_).of _ (by assumption)
    | with_reducible apply OnlyO.after (State.flushSlot_only ..)
    | with_reducible refine Only.after (State.flushSlot_only' (hq := by assumption)) (by decide) ?_
    | with_reducible refine OnlyS.ok ?_
    | with_reducible refine OnlyS.error ?_
    | with_reducible exact OnlyO.none
    | with_reducible refine OnlyO.some ?_
    | with_reducible refine OnlyO.mapState ?_ ?_
    | with_reducible refine OnlyO.map ?_
    | with_reducible refine OnlyO.bind ?_ ?_
    | with_reducible refine OnlyS.after (by assumption) within_self ?_
    | with_reducible intro _)

theorem State.flushFull_only' {s : State} {h : Nat} {x1 : List Nat} {t0 : State} (hq : State.flushFull s h x1 = .ok t0) :
    Only [.ports, .ics, .commands, .mem, .hostMem, .far, .kv, .events, .trust, .out, .free, .run] s t0 :=
  (State.flushFull_only s h x1).of _ hq

theorem State.flushFull_only_error {s : State} {h : Nat} {x1 : List Nat} {t0 : State} {r0 : _} (hq : State.flushFull s h x1 = .error (t0, r0)) :
    Only [.ports, .ics, .commands, .mem, .hostMem, .far, .kv, .events, .trust, .out, .free, .run] s t0 :=
  (State.flushFull_only s h x1).ofError _ _ hq

theorem State.appendRows_only (s : State) (c : OpCtx) (h : Nat) (a : AppendSrc) (fl : BitVec 8) (x1 : List Nat) :
    Only [.ports, .ics, .commands, .mem, .hostMem, .far, .kv, .events, .trust, .out, .free, .run] s (State.appendRows s c h a fl x1).1 := by
  fun_induction State.appendRows s c h a fl x1
  all_goals try simp_all only
  iterate 24 all_goals try (first
    | with_reducible exact Only.refl
    | with_reducible assumption
    | decide
    | dsimp only [id]
    | with_reducible apply OnlyS.after (State.flushFull_only ..)
    | with_reducible refine Only.after (State.flushFull_only' (hq := by assumption)) (by decide) ?_
    | with_reducible refine Only.after (State.flushFull_only_error (hq := by assumption)) (by decide) ?_
    | with_reducible apply OnlyE.after (State.reopenDue_only ..)
    | with_reducible refine Only.after (State.reopenDue_only' (hq := by assumption)) (by decide) ?_
    | with_reducible apply Only.after (State.readTokens_only ..)
    | with_reducible refine Only.after (State.readTokens_only' (hq := by assumption)) (by decide) ?_
    | with_reducible apply Only.after (State.putToken_only ..)
    | with_reducible refine Only.after (State.putToken_only' (hq := by assumption)) (by decide) ?_
    | with_reducible apply Only.after (State.setSeq_only ..)
    | with_reducible refine OnlyS.ok ?_
    | with_reducible refine OnlyS.error ?_
    | with_reducible exact OnlyE.error
    | with_reducible refine OnlyE.ok ?_
    | with_reducible refine OnlyE.foldl _ ?_ ?_
    | with_reducible refine OnlyE.bind ?_ ?_
    | with_reducible refine Only.foldl _ ?_ ?_
    | with_reducible refine Only.foldlPair ?_ ?_
    | with_reducible refine Only.foldlPair' (by assumption) ?_ ?_
    | with_reducible refine Only.trans ?_ (by assumption)
    | with_reducible intro _)

theorem State.appendRows_only' {s : State} {c : OpCtx} {h : Nat} {a : AppendSrc} {fl : BitVec 8} {x1 : List Nat} {r0 : _} {t0 : State} (hq : State.appendRows s c h a fl x1 = (t0, r0)) :
    Only [.ports, .ics, .commands, .mem, .hostMem, .far, .kv, .events, .trust, .out, .free, .run] s t0 := by
  have gq := State.appendRows_only s c h a fl x1
  rw [hq] at gq
  exact gq

theorem execOpAttAppend_only (tag : Nat) (op : Nat) (s : State) (t : State) (hq : execOpAttAppend tag op s = .next t) :
    Only [.ports, .ics, .commands, .mem, .hostMem, .far, .kv, .events, .trust, .out, .free, .run] s t := by
  unfold execOpAttAppend at hq
  injection hq with hq
  subst hq
  iterate 24 all_goals try (first
    | with_reducible exact Only.refl
    | with_reducible assumption
    | decide
    | dsimp only [id]
    | with_reducible refine State.runOp_only ?_ (by decide) ?_
    | with_reducible refine paged_only ?_ (by decide) ?_
    | with_reducible refine State.onSeq_only ?_ (by decide) ?_
    | with_reducible apply Only.after (State.appendRows_only ..)
    | with_reducible refine Only.after (State.appendRows_only' (hq := by assumption)) (by decide) ?_
    | with_reducible intro _
    | split)

theorem State.writePiecePage_only (s : State) (e : Pte) (off : Nat) (bs : List Byte) (x1 : Nat) :
    Only [.ics, .commands, .mem, .events, .free] s (State.writePiecePage s e off bs x1) := by
  fun_induction State.writePiecePage s e off bs x1
  iterate 24 all_goals try (first
    | with_reducible exact Only.refl
    | with_reducible assumption
    | decide
    | dsimp only [id]
    | with_reducible apply Only.after (State.writeWord_only ..)
    | with_reducible refine Only.trans ?_ (by assumption))

theorem State.writeToken_only (s : State) (h : Nat) (i : Nat) (pos : Nat) (values : Bool) (k : Token) :
    OnlyS [.ports, .ics, .commands, .mem, .hostMem, .far, .kv, .events, .trust, .out, .free, .run] s (State.writeToken s h i pos values k) := by
  unfold State.writeToken
  iterate 24 all_goals try (first
    | with_reducible exact Only.refl
    | with_reducible assumption
    | decide
    | dsimp only [id]
    | with_reducible apply Only.after (State.setStream_only ..)
    | with_reducible apply Only.after (State.writePiecePage_only ..)
    | with_reducible apply Only.after (State.cross_only ..)
    | with_reducible apply Only.after (State.readPage_only ..)
    | with_reducible refine Only.after (State.readPage_only' (hq := by assumption)) (by decide) ?_
    | with_reducible refine State.withSpace_only ?_ (by decide) ?_
    | with_reducible refine (State.withSpace_only ?_ (by decide) ?_).of _ (by assumption)
    | with_reducible apply OnlyO.after (State.allocPage_only ..)
    | with_reducible refine Only.after (State.allocPage_only' (hq := by assumption)) (by decide) ?_
    | with_reducible apply Only.after (State.dropRef_only ..)
    | with_reducible refine OnlyS.ok ?_
    | with_reducible refine OnlyS.error ?_
    | with_reducible exact OnlyO.none
    | with_reducible refine OnlyO.some ?_
    | with_reducible refine OnlyO.mapState ?_ ?_
    | with_reducible refine OnlyO.map ?_
    | with_reducible refine OnlyO.foldl _ ?_ ?_
    | with_reducible refine OnlyO.bind ?_ ?_
    | with_reducible refine Only.foldl _ ?_ ?_
    | with_reducible refine Only.foldlPair ?_ ?_
    | with_reducible refine Only.foldlPair' (by assumption) ?_ ?_
    | with_reducible intro _
    | split)

theorem State.writeToken_only' {s : State} {h : Nat} {i : Nat} {pos : Nat} {values : Bool} {k : Token} {t0 : State} (hq : State.writeToken s h i pos values k = .ok t0) :
    Only [.ports, .ics, .commands, .mem, .hostMem, .far, .kv, .events, .trust, .out, .free, .run] s t0 :=
  (State.writeToken_only s h i pos values k).of _ hq

theorem State.writeToken_only_error {s : State} {h : Nat} {i : Nat} {pos : Nat} {values : Bool} {k : Token} {t0 : State} {r0 : _} (hq : State.writeToken s h i pos values k = .error (t0, r0)) :
    Only [.ports, .ics, .commands, .mem, .hostMem, .far, .kv, .events, .trust, .out, .free, .run] s t0 :=
  (State.writeToken_only s h i pos values k).ofError _ _ hq

theorem State.writeTokens_only (s : State) (c : OpCtx) (h : Nat) (i : Nat) (values : Bool) (x1 : List Nat) :
    Only [.ports, .ics, .commands, .mem, .hostMem, .far, .kv, .events, .trust, .out, .free, .run] s (State.writeTokens s c h i values x1).1 := by
  fun_induction State.writeTokens s c h i values x1
  all_goals try simp_all only
  iterate 24 all_goals try (first
    | with_reducible exact Only.refl
    | with_reducible assumption
    | decide
    | dsimp only [id]
    | with_reducible apply Only.after (State.load_only ..)
    | with_reducible refine Only.after (State.load_only' (hq := by assumption)) (by decide) ?_
    | with_reducible refine Only.after (State.drawIf_only (by assumption)) (by decide) ?_
    | with_reducible apply Only.after (State.drawMany_only ..)
    | with_reducible refine Only.after (State.drawMany_only' (hq := by assumption)) (by decide) ?_
    | with_reducible apply OnlyS.after (State.writeToken_only ..)
    | with_reducible refine Only.after (State.writeToken_only' (hq := by assumption)) (by decide) ?_
    | with_reducible refine Only.after (State.writeToken_only_error (hq := by assumption)) (by decide) ?_
    | with_reducible refine OnlyS.ok ?_
    | with_reducible refine OnlyS.error ?_
    | with_reducible refine Only.trans ?_ (by assumption))

theorem State.writeTokens_only' {s : State} {c : OpCtx} {h : Nat} {i : Nat} {values : Bool} {x1 : List Nat} {r0 : _} {t0 : State} (hq : State.writeTokens s c h i values x1 = (t0, r0)) :
    Only [.ports, .ics, .commands, .mem, .hostMem, .far, .kv, .events, .trust, .out, .free, .run] s t0 := by
  have gq := State.writeTokens_only s c h i values x1
  rw [hq] at gq
  exact gq

theorem execOpKvWrite_only (tag : Nat) (op : Nat) (s : State) (t : State) (hq : execOpKvWrite tag op s = .next t) :
    Only [.ports, .ics, .commands, .mem, .hostMem, .far, .kv, .events, .trust, .out, .free, .run] s t := by
  unfold execOpKvWrite at hq
  injection hq with hq
  subst hq
  iterate 24 all_goals try (first
    | with_reducible exact Only.refl
    | with_reducible assumption
    | decide
    | dsimp only [id]
    | with_reducible refine State.runOp_only ?_ (by decide) ?_
    | with_reducible refine paged_only ?_ (by decide) ?_
    | with_reducible refine State.onSeq_only ?_ (by decide) ?_
    | with_reducible apply Only.after (State.writeTokens_only ..)
    | with_reducible refine Only.after (State.writeTokens_only' (hq := by assumption)) (by decide) ?_
    | with_reducible apply Only.after (State.retryFlush_only ..)
    | with_reducible intro _
    | split)

theorem State.exportPages_only (s : State) (c : OpCtx) (h : Nat) (i : Nat) (x1 : List Nat) :
    Only [.ics, .mem, .kv, .events, .free, .run] s (State.exportPages s c h i x1).1 := by
  fun_induction State.exportPages s c h i x1
  all_goals try simp_all only
  iterate 24 all_goals try (first
    | with_reducible exact Only.refl
    | with_reducible assumption
    | decide
    | dsimp only [id]
    | with_reducible apply Only.after (State.readPage_only ..)
    | with_reducible refine Only.after (State.readPage_only' (hq := by assumption)) (by decide) ?_
    | with_reducible apply Only.after (State.pin_only ..)
    | with_reducible apply Only.after (State.putOff_only ..)
    | with_reducible refine Only.trans ?_ (by assumption))

theorem State.exportPages_only' {s : State} {c : OpCtx} {h : Nat} {i : Nat} {x1 : List Nat} {r0 : _} {t0 : State} (hq : State.exportPages s c h i x1 = (t0, r0)) :
    Only [.ics, .mem, .kv, .events, .free, .run] s t0 := by
  have gq := State.exportPages_only s c h i x1
  rw [hq] at gq
  exact gq

theorem execOpKvExport_only (tag : Nat) (op : Nat) (s : State) (t : State) (hq : execOpKvExport tag op s = .next t) :
    Only [.ports, .ics, .commands, .mem, .hostMem, .far, .kv, .events, .trust, .out, .free, .run] s t := by
  unfold execOpKvExport at hq
  injection hq with hq
  subst hq
  iterate 24 all_goals try (first
    | with_reducible exact Only.refl
    | with_reducible assumption
    | decide
    | dsimp only [id]
    | with_reducible refine State.runOp_only ?_ (by decide) ?_
    | with_reducible refine paged_only ?_ (by decide) ?_
    | with_reducible refine State.onSeq_only ?_ (by decide) ?_
    | with_reducible apply Only.after (State.exportPages_only ..)
    | with_reducible apply Only.after (State.retryFlush_only ..)
    | with_reducible intro _
    | split)

theorem execKvPool_only (ctrl : Fin 4) (slot : Fin 1024) (s : State) (t : State) (hq : execKvPool ctrl slot s = .next t) :
    Only [.settings, .intakes, .ics, .sealed, .commands, .mem, .events, .trust, .free] s t := by
  unfold execKvPool at hq
  injection hq with hq
  subst hq
  iterate 24 all_goals try (first
    | with_reducible exact Only.refl
    | with_reducible assumption
    | decide
    | dsimp only [id]
    | with_reducible refine State.serve_only ?_ (by decide) ?_
    | with_reducible refine Adm.checked_only ?_ (by decide) ?_
    | with_reducible apply Only.after (Adm.done_only ..)
    | with_reducible apply Only.after (State.setSettings_only ..)
    | with_reducible apply Only.after (State.flushMerge_only ..)
    | with_reducible apply Only.after (State.flushSlice_only ..)
    | with_reducible intro _)

theorem execBivouacSet_only (ctrl : Fin 4) (slot : Fin 1024) (s : State) (t : State) (hq : execBivouacSet ctrl slot s = .next t) :
    Only [.intakes, .ics, .sealed, .commands, .mem, .kv, .events, .trust] s t := by
  unfold execBivouacSet at hq
  injection hq with hq
  subst hq
  iterate 24 all_goals try (first
    | with_reducible exact Only.refl
    | with_reducible assumption
    | decide
    | dsimp only [id]
    | with_reducible refine State.serve_only ?_ (by decide) ?_
    | with_reducible refine Adm.checked_only ?_ (by decide) ?_
    | with_reducible apply Only.after (Adm.done_only ..)
    | with_reducible apply Only.after (State.setKv_only ..)
    | with_reducible intro _)

theorem execKvMapRead_only (ctrl : Fin 4) (slot : Fin 1024) (s : State) (t : State) (hq : execKvMapRead ctrl slot s = .next t) :
    Only [.intakes, .ports, .ics, .sealed, .commands, .mem, .hostMem, .events, .trust, .out] s t := by
  unfold execKvMapRead at hq
  injection hq with hq
  subst hq
  iterate 24 all_goals try (first
    | with_reducible exact Only.refl
    | with_reducible assumption
    | decide
    | dsimp only [id]
    | with_reducible refine State.serve_only ?_ (by decide) ?_
    | with_reducible refine Adm.checked_only ?_ (by decide) ?_
    | with_reducible apply Only.after (Adm.finish_only ..)
    | with_reducible apply Only.after (Adm.copyOut_only ..)
    | with_reducible intro _
    | split)

/-! ## Machine/Sfu.lean -/

theorem execOpSfApply_only (tag : Nat) (op : Nat) (s : State) (t : State) (hq : execOpSfApply tag op s = .next t) :
    Only [.ics, .commands, .mem, .cores, .events, .free, .run] s t := by
  unfold execOpSfApply at hq
  injection hq with hq
  subst hq
  iterate 24 all_goals try (first
    | with_reducible exact Only.refl
    | with_reducible assumption
    | decide
    | dsimp only [id]
    | with_reducible refine State.runCore_only ?_ (by decide) ?_
    | with_reducible apply Only.after (State.convDraws_only ..)
    | with_reducible refine Only.after (State.convDraws_only' (hq := by assumption)) (by decide) ?_
    | with_reducible apply Only.after (State.storeLate_only ..)
    | with_reducible intro _)

theorem execOpSoftmax_only (tag : Nat) (op : Nat) (s : State) (t : State) (hq : execOpSoftmax tag op s = .next t) :
    Only [.ics, .commands, .mem, .cores, .events, .free, .run] s t := by
  unfold execOpSoftmax at hq
  injection hq with hq
  subst hq
  iterate 24 all_goals try (first
    | with_reducible exact Only.refl
    | with_reducible assumption
    | decide
    | dsimp only [id]
    | with_reducible refine State.runCore_only ?_ (by decide) ?_
    | with_reducible apply Only.after (State.convDraws_only ..)
    | with_reducible refine Only.after (State.convDraws_only' (hq := by assumption)) (by decide) ?_
    | with_reducible apply Only.after (State.storeLate_only ..)
    | with_reducible intro _)

theorem execOpNorm_only (tag : Nat) (op : Nat) (s : State) (t : State) (hq : execOpNorm tag op s = .next t) :
    Only [.ics, .commands, .mem, .cores, .events, .free, .run] s t := by
  unfold execOpNorm at hq
  injection hq with hq
  subst hq
  iterate 24 all_goals try (first
    | with_reducible exact Only.refl
    | with_reducible assumption
    | decide
    | dsimp only [id]
    | with_reducible refine State.runCore_only ?_ (by decide) ?_
    | with_reducible apply Only.after (State.convDraws_only ..)
    | with_reducible refine Only.after (State.convDraws_only' (hq := by assumption)) (by decide) ?_
    | with_reducible apply Only.after (State.storeLate_only ..)
    | with_reducible intro _)

/-! ## Machine/Attend.lean -/

theorem State.loadEach_only (s : State) (w : Who) (n : Nat) (x1 : List Nat) :
    Only [.ics, .commands, .mem, .events, .free, .run] s (State.loadEach s w n x1).2.s := by
  fun_induction State.loadEach s w n x1
  all_goals try simp_all only
  iterate 24 all_goals try (first
    | with_reducible exact Only.refl
    | with_reducible assumption
    | decide
    | dsimp only [Io.halt]
    | with_reducible apply Only.after (State.load_only ..)
    | with_reducible refine Only.after (State.load_only' (hq := by assumption)) (by decide) ?_
    | with_reducible refine Only.trans ?_ (by assumption))

theorem State.loadEach_only' {s : State} {w : Who} {n : Nat} {x1 : List Nat} {r0 : _} {t0 : Io} (hq : State.loadEach s w n x1 = (r0, t0)) :
    Only [.ics, .commands, .mem, .events, .free, .run] s t0.s := by
  have gq := State.loadEach_only s w n x1
  rw [hq] at gq
  exact gq

theorem attMasks_only (s : State) (c : OpCtx) (len : Nat) :
    Only [.ics, .commands, .mem, .events, .free, .run] s (attMasks s c len).2.s := by
  unfold attMasks
  iterate 24 all_goals try (first
    | with_reducible exact Only.refl
    | with_reducible assumption
    | decide
    | dsimp only [Io.halt]
    | with_reducible apply Only.after (State.loadEach_only ..)
    | with_reducible intro _
    | split)

theorem attMasks_only' {s : State} {c : OpCtx} {len : Nat} {r0 : _} {t0 : Io} (hq : attMasks s c len = (r0, t0)) :
    Only [.ics, .commands, .mem, .events, .free, .run] s t0.s := by
  have gq := attMasks_only s c len
  rw [hq] at gq
  exact gq

theorem attQueries_only (s : State) (c : OpCtx) (q : Seq) :
    Only [.ics, .commands, .mem, .events, .free, .run] s (attQueries s c q).2.s := by
  unfold attQueries
  iterate 24 all_goals try (first
    | with_reducible exact Only.refl
    | with_reducible assumption
    | decide
    | dsimp only [Io.halt]
    | with_reducible apply Only.after (State.loadEach_only ..))

theorem attQueries_only' {s : State} {c : OpCtx} {q : Seq} {r0 : _} {t0 : Io} (hq : attQueries s c q = (r0, t0)) :
    Only [.ics, .commands, .mem, .events, .free, .run] s t0.s := by
  have gq := attQueries_only s c q
  rw [hq] at gq
  exact gq

theorem State.pageOut_only {s t : State} {q : Seq} {e : Pte} {cls : Nat} {inBanks : Bool} {bs : List Byte} {io : Io}
    (h : (if inBanks then (t.runDegraded (t.narrow e.pair)).readPageThere q e else t.readPage q e cls) = (bs, io))
    (ht : Only [.ics, .mem, .kv, .events, .free, .run] s t) : Only [.ics, .mem, .kv, .events, .free, .run] s io.s := by
  split at h
  · exact (State.readPageThere_only' h).after (by decide) ((State.runDegraded_only ..).after (by decide) ht)
  · exact (State.readPage_only' h).after (by decide) ht

theorem State.readHist_only (s : State) (c : OpCtx) (inBanks : Bool) (h : Nat) (i : Nat) (want : Nat → Bool) (x1 : List Nat) :
    Only [.ics, .mem, .kv, .events, .free, .run] s (State.readHist s c inBanks h i want x1).2.s := by
  fun_induction State.readHist s c inBanks h i want x1
  all_goals try simp_all only
  all_goals first
    | exact Only.refl
    | exact State.pageOut_only (by assumption) ((State.pin_only ..).mono (by decide))
    | exact (State.pageOut_only (by assumption) ((State.pin_only ..).mono (by decide))).trans (by assumption)

theorem State.readHist_only' {s : State} {c : OpCtx} {inBanks : Bool} {h : Nat} {i : Nat} {want : Nat → Bool} {x1 : List Nat} {r0 : _} {t0 : Io}
    (hq : State.readHist s c inBanks h i want x1 = (r0, t0)) : Only [.ics, .mem, .kv, .events, .free, .run] s t0.s := by
  have gq := State.readHist_only s c inBanks h i want x1
  rw [hq] at gq
  exact gq

theorem readStreams_only (s : State) (c : OpCtx) (inBanks : Bool) (h : Nat) (masks : List (List Byte)) (x1 : List Nat) :
    Only [.ics, .mem, .kv, .events, .free, .run] s (readStreams s c inBanks h masks x1).2.s := by
  fun_induction readStreams s c inBanks h masks x1
  all_goals try simp_all only
  iterate 24 all_goals try (first
    | with_reducible exact Only.refl
    | with_reducible assumption
    | decide
    | dsimp only [Io.halt]
    | with_reducible apply Only.after (State.readHist_only ..)
    | with_reducible refine Only.after (State.readHist_only' (hq := by assumption)) (by decide) ?_
    | with_reducible refine Only.trans ?_ (by assumption))

theorem readStreams_only' {s : State} {c : OpCtx} {inBanks : Bool} {h : Nat} {masks : List (List Byte)} {x1 : List Nat} {r0 : _} {t0 : Io} (hq : readStreams s c inBanks h masks x1 = (r0, t0)) :
    Only [.ics, .mem, .kv, .events, .free, .run] s t0.s := by
  have gq := readStreams_only s c inBanks h masks x1
  rw [hq] at gq
  exact gq

theorem State.enterBanks_only (s : State) (pair : Nat) :
    Only [.ics, .commands, .mem, .events, .free, .run] s (State.enterBanks s pair) := by
  unfold State.enterBanks
  iterate 24 all_goals try (first
    | with_reducible exact Only.refl
    | with_reducible assumption
    | decide
    | dsimp only [id]
    | with_reducible apply Only.after (State.toArray_only ..)
    | simp only [OnlyMk.mark]
    | ((with_reducible refine OnlyMk.of ?_ ?_); rotate_left; focus (intro p hp; cases p <;> first | exact absurd (by decide) hp | rfl | exact ⟨rfl, rfl⟩))
    | with_reducible intro _
    | split)

theorem State.chargePage_only (s : State) (pair : Nat) (bank : Nat) (cycles : Nat) :
    Only [.thermal, .mem, .free] s (State.chargePage s pair bank cycles) := by
  unfold State.chargePage
  iterate 24 all_goals try (first
    | with_reducible exact Only.refl
    | with_reducible assumption
    | decide
    | dsimp only [id]
    | with_reducible apply Only.after (State.draw_only ..)
    | with_reducible refine Only.after (State.draw_only' (hq := by assumption)) (by decide) ?_
    | with_reducible apply Only.after (State.charge_only ..))

theorem State.scrawl_only (s : State) (pair : Nat) (bank : Nat) :
    Only [.ics, .mem, .events, .free] s (State.scrawl s pair bank) := by
  unfold State.scrawl
  iterate 24 all_goals try (first
    | with_reducible exact Only.refl
    | with_reducible assumption
    | decide
    | dsimp only [id]
    | with_reducible refine Only.after (State.drawIf_only (by assumption)) (by decide) ?_
    | with_reducible apply Only.after (State.drawMany_only ..)
    | with_reducible refine Only.after (State.drawMany_only' (hq := by assumption)) (by decide) ?_
    | with_reducible apply Only.after (State.storeWord_only ..)
    | with_reducible refine Only.foldl _ ?_ ?_
    | with_reducible refine Only.foldlPair ?_ ?_
    | with_reducible refine Only.foldlPair' (by assumption) ?_ ?_
    | with_reducible intro _)

theorem State.leaveFirmware_only (s : State) (pair : Nat) (ord : Nat) :
    Only [.mem, .free] s (State.leaveFirmware s pair ord) := by
  unfold State.leaveFirmware
  iterate 24 all_goals try (first
    | with_reducible exact Only.refl
    | with_reducible assumption
    | decide
    | dsimp only [id]
    | with_reducible refine Only.after (State.drawIf_only (by assumption)) (by decide) ?_
    | with_reducible apply Only.after (State.drawMany_only ..)
    | with_reducible refine Only.after (State.drawMany_only' (hq := by assumption)) (by decide) ?_
    | with_reducible apply Only.after (State.setVault_only ..))

theorem attend_only (prefill : Bool) (c : OpCtx) (h : Nat) (s : State) (fl : BitVec 8) :
    Only [.ics, .commands, .thermal, .mem, .cores, .kv, .events, .free, .run] s (attend prefill c h s fl).1 := by
  unfold attend
  split
  · exact Only.refl
  next q _ =>
  extract_lets layer len
  split
  next masks io1 h1 =>
  split
  next qs io2 h2 =>
  have g1 := (attMasks_only' h1).mono (L := [.ics, .commands, .thermal, .mem, .cores, .kv, .events, .free, .run]) (by decide)
  have g2 := (attQueries_only' h2).after (by decide) g1
  split
  · exact g1
  · exact g2
  extract_lets s0
  have g0 : Only [.ics, .commands, .thermal, .mem, .cores, .kv, .events, .free, .run] s s0 := by
    change Only _ s (if prefill then io2.s else _)
    split
    · exact g2
    · exact Only.foldl _ (fun t p => (State.enterBanks_only ..).mono (by decide)) g2
  split
  next work io3 h3 =>
  have g3 := (readStreams_only' h3).after (by decide) g0
  split
  · exact g3
  split
  next pick s1 h4 =>
  have g4 := (State.drawMany_only' h4).after (by decide) g3
  extract_lets f
  split
  next draw s2 h5 =>
  have g5 := (State.convDraws_only' h5).after (by decide) g4
  extract_lets rows s3 s4 outs g read
  have g6 : Only [.ics, .commands, .thermal, .mem, .cores, .kv, .events, .free, .run] s s3 := by
    change Only _ s (if prefill then s2 else _)
    split
    · exact g5
    · exact Only.foldl _ (fun t p => (State.scrawl_only ..).mono (by decide))
        (Only.foldl _ (fun t p => (State.leaveFirmware_only ..).mono (by decide)) g5)
  have g7 : Only [.ics, .commands, .thermal, .mem, .cores, .kv, .events, .free, .run] s s4 := by
    change Only _ s (if prefill then s3 else _)
    split
    · exact g6
    · refine Only.foldl _ (fun t p => ?_) g6
      refine Only.foldl _ (fun u r => ?_) Only.refl
      split
      · exact (State.chargePage_only ..).mono (by decide)
      · exact Only.refl
  exact (State.putOff_only ..).after (by decide) g7

theorem attend_only' {prefill : Bool} {c : OpCtx} {h : Nat} {s : State} {fl : BitVec 8} {r0 : _} {t0 : State}
    (hq : attend prefill c h s fl = (t0, r0)) : Only [.ics, .commands, .thermal, .mem, .cores, .kv, .events, .free, .run] s t0 := by
  have gq := attend_only prefill c h s fl
  rw [hq] at gq
  exact gq

theorem attOp_only (prefill : Bool) (c : OpCtx) (t : State) :
    Only [.ports, .ics, .commands, .thermal, .mem, .hostMem, .far, .cores, .kv, .events, .trust, .out, .free, .run] t (attOp prefill c t).1 := by
  unfold attOp
  iterate 24 all_goals try (first
    | with_reducible exact Only.refl
    | with_reducible assumption
    | decide
    | dsimp only [id]
    | with_reducible refine State.onSeq_only ?_ (by decide) ?_
    | with_reducible apply Only.after (State.appendRows_only ..)
    | with_reducible refine Only.after (State.appendRows_only' (hq := by assumption)) (by decide) ?_
    | with_reducible apply Only.after (attend_only ..)
    | with_reducible refine Only.after (attend_only' (hq := by assumption)) (by decide) ?_
    | with_reducible apply Only.after (State.retryFlush_only ..)
    | with_reducible intro _
    | split)

theorem attOp_only' {prefill : Bool} {c : OpCtx} {t : State} {r0 : _} {t0 : State} (hq : attOp prefill c t = (t0, r0)) :
    Only [.ports, .ics, .commands, .thermal, .mem, .hostMem, .far, .cores, .kv, .events, .trust, .out, .free, .run] t t0 := by
  have gq := attOp_only prefill c t
  rw [hq] at gq
  exact gq

theorem execOpAttDecode_only (tag : Nat) (op : Nat) (s : State) (t : State) (hq : execOpAttDecode tag op s = .next t) :
    Only [.ports, .ics, .commands, .thermal, .mem, .hostMem, .far, .cores, .kv, .events, .trust, .out, .free, .run] s t := by
  unfold execOpAttDecode at hq
  injection hq with hq
  subst hq
  iterate 24 all_goals try (first
    | with_reducible exact Only.refl
    | with_reducible assumption
    | decide
    | dsimp only [id]
    | with_reducible refine State.runOp_only ?_ (by decide) ?_
    | with_reducible refine paged_only ?_ (by decide) ?_
    | with_reducible apply Only.after (attOp_only ..)
    | with_reducible intro _)

theorem execOpAttPrefill_only (tag : Nat) (op : Nat) (s : State) (t : State) (hq : execOpAttPrefill tag op s = .next t) :
    Only [.ports, .ics, .commands, .thermal, .mem, .hostMem, .far, .cores, .kv, .events, .trust, .out, .free, .run] s t := by
  unfold execOpAttPrefill at hq
  injection hq with hq
  subst hq
  iterate 24 all_goals try (first
    | with_reducible exact Only.refl
    | with_reducible assumption
    | decide
    | dsimp only [id]
    | with_reducible refine State.runOp_only ?_ (by decide) ?_
    | with_reducible refine paged_only ?_ (by decide) ?_
    | with_reducible apply Only.after (attOp_only ..)
    | with_reducible intro _)

end Sys2Proof.Machine
end

