-- ==== Sys2Proof/Laws/Frames4.lean ====
section
/-! SUPPORT. Which parts of the state each operation and each meaning of Machine/Banks.lean to Machine/Events.lean can change, one
lemma each. -/

namespace Sys2Proof.Machine

open Sys2Proof

/-! ## Machine/Banks.lean -/

theorem State.keepBanking_only (s : State) (tag : Nat) (op : Nat) :
    Only [.commands] s (State.keepBanking s tag op) := by
  unfold State.keepBanking
  iterate 24 all_goals try (first
    | with_reducible exact Only.refl
    | with_reducible assumption
    | decide
    | dsimp only [id]
    | with_reducible apply Only.after (State.setOper_only ..))

theorem bankRun_only (c : OpCtx) (s : State) :
    Only [.mem, .run] s (bankRun c s).1 := by
  unfold bankRun
  iterate 24 all_goals try (first
    | with_reducible exact Only.refl
    | with_reducible assumption
    | decide
    | dsimp only [id]
    | with_reducible apply Only.after (State.setVault_only ..)
    | with_reducible refine Only.foldl _ ?_ ?_
    | with_reducible refine Only.foldlPair ?_ ?_
    | with_reducible refine Only.foldlPair' (by assumption) ?_ ?_
    | simp only [OnlyMk.mark]
    | ((with_reducible refine OnlyMk.of ?_ ?_); rotate_left; focus (intro p hp; cases p <;> first | exact absurd (by decide) hp | rfl | exact ⟨rfl, rfl⟩))
    | with_reducible intro _
    | split)

theorem bankRun_only' {c : OpCtx} {s : State} {r0 : _} {t0 : State} (hq : bankRun c s = (t0, r0)) :
    Only [.mem, .run] s t0 := by
  have gq := bankRun_only c s
  rw [hq] at gq
  exact gq

theorem execOpBankRun_only (tag : Nat) (op : Nat) (s : State) (t : State) (hq : execOpBankRun tag op s = .next t) :
    Only [.ics, .commands, .mem, .events, .free, .run] s t := by
  unfold execOpBankRun at hq
  injection hq with hq
  subst hq
  iterate 24 all_goals try (first
    | with_reducible exact Only.refl
    | with_reducible assumption
    | decide
    | dsimp only [id]
    | with_reducible apply Only.after (State.keepBanking_only ..)
    | with_reducible refine State.runOp_only ?_ (by decide) ?_
    | with_reducible apply Only.after (bankRun_only ..)
    | with_reducible intro _)

theorem State.endBank_only (s : State) (pair : Nat) (r : SeqReq) (e : Ending) :
    Only [.commands, .mem] s (State.endBank s pair r e) := by
  unfold State.endBank
  iterate 24 all_goals try (first
    | with_reducible exact Only.refl
    | with_reducible assumption
    | decide
    | dsimp only [id]
    | with_reducible apply Only.after (State.setVault_only ..)
    | with_reducible apply Only.after (State.setOper_only ..))

theorem State.failBank_only (s : State) (pair : Nat) (r : SeqReq) (e : Ending) :
    Only [.ics, .commands, .mem, .events, .out, .free] s (State.failBank s pair r e) := by
  unfold State.failBank
  iterate 24 all_goals try (first
    | with_reducible exact Only.refl
    | with_reducible assumption
    | decide
    | dsimp only [id]
    | with_reducible apply Only.after (State.serveHeld_only ..)
    | with_reducible apply Only.after (State.endBank_only ..)
    | with_reducible apply Only.after (State.setVault_only ..))

theorem State.loadIf_only (s : State) (w : Who) (a : Nat) (n : Nat) :
    Only [.ics, .commands, .mem, .events, .free, .run] s (State.loadIf s w a n).2.s := by
  unfold State.loadIf
  iterate 24 all_goals try (first
    | with_reducible exact Only.refl
    | with_reducible assumption
    | decide
    | dsimp only [Io.halt]
    | with_reducible apply Only.after (State.load_only ..)
    | with_reducible refine Only.after (State.load_only' (hq := by assumption)) (by decide) ?_
    | with_reducible intro _
    | split)

theorem State.loadIf_only' {s : State} {w : Who} {a : Nat} {n : Nat} {r0 : _} {t0 : Io} (hq : State.loadIf s w a n = (r0, t0)) :
    Only [.ics, .commands, .mem, .events, .free, .run] s t0.s := by
  have gq := State.loadIf_only s w a n
  rw [hq] at gq
  exact gq

theorem State.bankFlags_only (s : State) (tag : Nat) (op : Nat) (fl : BitVec 8) :
    Only [.commands] s (State.bankFlags s tag op fl) := by
  unfold State.bankFlags
  iterate 24 all_goals try (first
    | with_reducible exact Only.refl
    | with_reducible assumption
    | decide
    | dsimp only [id]
    | with_reducible apply Only.after (State.setOper_only ..))

theorem State.bankPrefix_only (s : State) (pair : Nat) (r : SeqReq) :
    Only [.ics, .commands, .mem, .cores, .events, .out, .free, .run] s (if (s.vault pair).processor then s.setVault pair (fun v => { v with queue := v.queue.drop 1 })
      else (s.setVault pair (fun v => { v with queue := v.queue.drop 1 })).toArray pair) := by
  split
  · exact (State.setVault_only ..).mono (by decide)
  · exact (State.toArray_only ..).after (by decide) ((State.setVault_only ..).mono (by decide))

theorem State.loadSeq_only (s : State) (pair : Nat) (r : SeqReq) :
    Only [.ics, .commands, .mem, .cores, .events, .out, .free, .run] s (State.loadSeq s pair r) := by
  have g0 := State.bankPrefix_only s pair r
  unfold State.loadSeq
  extract_lets s0 s1 w
  split
  next h1 =>
  have g1 := (State.loadIf_only' h1).after (L := [.ics, .commands, .mem, .cores, .events, .out, .free, .run]) (by decide) g0
  split
  next h2 =>
  have g2 := (State.loadIf_only' h2).after (by decide) g1
  extract_lets vf
  split
  next h3 =>
  have g3 := (State.loadCore_only' h3).after (by decide) g2
  split
  · exact (State.failBank_only ..).after (by decide) g3
  · extract_lets params keep
    split
    next h4 =>
    exact (State.bankFlags_only ..).after (by decide) ((State.setVault_only ..).after (by decide) ((State.drawMany_only' h4).after (by decide) g3))

theorem execSequenceLoad_only (pair : Fin 1024) (s : State) (t : State) (hq : execSequenceLoad pair s = .next t) :
    Only [.ics, .commands, .mem, .cores, .events, .out, .free, .run] s t := by
  unfold execSequenceLoad at hq
  injection hq with hq
  subst hq
  iterate 24 all_goals try (first
    | with_reducible exact Only.refl
    | with_reducible assumption
    | decide
    | dsimp only [id]
    | with_reducible apply Only.after (State.loadSeq_only ..)
    | simp only [OnlyMk.mark]
    | ((with_reducible refine OnlyMk.of ?_ ?_); rotate_left; focus (intro p hp; cases p <;> first | exact absurd (by decide) hp | rfl | exact ⟨rfl, rfl⟩))
    | with_reducible intro _
    | split)

theorem execSortieStart_only (pair : Fin 1024) (s : State) (t : State) (hq : execSortieStart pair s = .next t) :
    Only [.ics, .commands, .mem, .events, .free] s t := by
  unfold execSortieStart at hq
  injection hq with hq
  subst hq
  iterate 24 all_goals try (first
    | with_reducible exact Only.refl
    | with_reducible assumption
    | decide
    | dsimp only [id]
    | with_reducible apply Only.after (State.setVault_only ..)
    | with_reducible apply Only.after (State.toArray_only ..)
    | with_reducible intro _
    | split)

theorem State.endSortie_only (s : State) (pair : Nat) :
    Only [.ics, .commands, .mem, .events, .out, .free] s (State.endSortie s pair) := by
  unfold State.endSortie
  iterate 24 all_goals try (first
    | with_reducible exact Only.refl
    | with_reducible assumption
    | decide
    | dsimp only [id]
    | with_reducible apply Only.after (State.serveHeld_only ..)
    | with_reducible apply Only.after (State.setVault_only ..))

theorem execSortieEnd_only (pair : Fin 1024) (s : State) (t : State) (hq : execSortieEnd pair s = .next t) :
    Only [.ics, .commands, .mem, .events, .out, .free] s t := by
  unfold execSortieEnd at hq
  injection hq with hq
  subst hq
  iterate 24 all_goals try (first
    | with_reducible exact Only.refl
    | with_reducible assumption
    | decide
    | dsimp only [id]
    | with_reducible apply Only.after (State.endSortie_only ..)
    | with_reducible intro _
    | split)

theorem State.setSeqSt_only (s : State) (pair : Nat) (f : SeqSt → SeqSt) :
    Only [.mem] s (State.setSeqSt s pair f) := by
  unfold State.setSeqSt
  iterate 24 all_goals try (first
    | with_reducible exact Only.refl
    | with_reducible assumption
    | decide
    | dsimp only [id]
    | with_reducible apply Only.after (State.setVault_only ..))

theorem State.setUnit_only (s : State) (pair : Nat) (b : Nat) (f : BankUnit → BankUnit) :
    Only [.mem] s (State.setUnit s pair b f) := by
  unfold State.setUnit
  iterate 24 all_goals try (first
    | with_reducible exact Only.refl
    | with_reducible assumption
    | decide
    | dsimp only [id]
    | with_reducible apply Only.after (State.setVault_only ..))

theorem State.spend_only (s : State) (pair : Nat) (c : Nat) :
    Only [.mem] s (State.spend s pair c) := by
  unfold State.spend
  iterate 24 all_goals try (first
    | with_reducible exact Only.refl
    | with_reducible assumption
    | decide
    | dsimp only [id]
    | with_reducible apply Only.after (State.setVault_only ..))

theorem State.stepPc_only (s : State) (pair : Nat) (afterM : Option Bool) :
    Only [.mem] s (State.stepPc s pair afterM) := by
  unfold State.stepPc
  iterate 24 all_goals try (first
    | with_reducible exact Only.refl
    | with_reducible assumption
    | decide
    | dsimp only [id]
    | with_reducible apply Only.after (State.setSeqSt_only ..))

theorem State.bankAccess_only (s : State) (pair : Nat) (b : Nat) (q : SeqSt) (w : Nat) (writes : Bool) (f : UnitOp) (pick : Nat → Nat) :
    Only [.ics, .commands, .thermal, .mem, .events, .free] s (State.bankAccess s pair b q w writes f pick).1 := by
  unfold State.bankAccess
  iterate 24 all_goals try (first
    | with_reducible exact Only.refl
    | with_reducible assumption
    | decide
    | dsimp only [id]
    | with_reducible apply Only.after (State.setUnit_only ..)
    | with_reducible apply Only.after (State.charge_only ..)
    | with_reducible apply Only.after (State.writeWord_only ..)
    | with_reducible apply Only.after (State.readWord_only ..)
    | with_reducible refine Only.after (State.readWord_only' (hq := by assumption)) (by decide) ?_
    | with_reducible intro _
    | split)

theorem State.bankAccess_only' {s : State} {pair : Nat} {b : Nat} {q : SeqSt} {w : Nat} {writes : Bool} {f : UnitOp} {pick : Nat → Nat} {r0 : _} {t0 : State} (hq : State.bankAccess s pair b q w writes f pick = (t0, r0)) :
    Only [.ics, .commands, .thermal, .mem, .events, .free] s t0 := by
  have gq := State.bankAccess_only s pair b q w writes f pick
  rw [hq] at gq
  exact gq

theorem State.bankAccesses_only (s : State) (pair : Nat) (q : SeqSt) (w : Nat) (writes : Bool) (f : UnitOp) (pick : Nat → Nat) (x1 : List Nat) :
    Only [.ics, .commands, .thermal, .mem, .events, .free] s (State.bankAccesses s pair q w writes f pick x1).1 := by
  fun_induction State.bankAccesses s pair q w writes f pick x1
  all_goals try simp_all only
  iterate 24 all_goals try (first
    | with_reducible exact Only.refl
    | with_reducible assumption
    | decide
    | dsimp only [id]
    | with_reducible apply Only.after (State.bankAccess_only ..)
    | with_reducible refine Only.after (State.bankAccess_only' (hq := by assumption)) (by decide) ?_
    | with_reducible refine Only.trans ?_ (by assumption))

theorem State.bankAccesses_only' {s : State} {pair : Nat} {q : SeqSt} {w : Nat} {writes : Bool} {f : UnitOp} {pick : Nat → Nat} {x1 : List Nat} {r0 : _} {t0 : State} (hq : State.bankAccesses s pair q w writes f pick x1 = (t0, r0)) :
    Only [.ics, .commands, .thermal, .mem, .events, .free] s t0 := by
  have gq := State.bankAccesses_only s pair q w writes f pick x1
  rw [hq] at gq
  exact gq

theorem State.classM_only (s : State) (pair : Nat) (o : BOp) (writes : Bool) (f : UnitOp) :
    Only [.ics, .commands, .thermal, .mem, .events, .out, .free] s (State.classM s pair o writes f) := by
  unfold State.classM
  iterate 24 all_goals try (first
    | with_reducible exact Only.refl
    | with_reducible assumption
    | decide
    | dsimp only [id]
    | with_reducible apply Only.after (State.stepPc_only ..)
    | with_reducible apply Only.after (State.failBank_only ..)
    | with_reducible refine Only.after (State.drawIf_only (by assumption)) (by decide) ?_
    | with_reducible apply Only.after (State.drawMany_only ..)
    | with_reducible refine Only.after (State.drawMany_only' (hq := by assumption)) (by decide) ?_
    | with_reducible apply Only.after (State.bankAccesses_only ..)
    | with_reducible refine Only.after (State.bankAccesses_only' (hq := by assumption)) (by decide) ?_
    | with_reducible apply Only.after (State.spend_only ..)
    | with_reducible intro _
    | split)

theorem execBankLd_only (pair : Fin 1024) (s : State) (t : State) (hq : execBankLd pair s = .next t) :
    Only [.ics, .commands, .thermal, .mem, .events, .out, .free] s t := by
  unfold execBankLd at hq
  injection hq with hq
  subst hq
  iterate 24 all_goals try (first
    | with_reducible exact Only.refl
    | with_reducible assumption
    | decide
    | dsimp only [id]
    | with_reducible apply Only.after (State.classM_only ..))

theorem execBankSt_only (pair : Fin 1024) (s : State) (t : State) (hq : execBankSt pair s = .next t) :
    Only [.ics, .commands, .thermal, .mem, .events, .out, .free] s t := by
  unfold execBankSt at hq
  injection hq with hq
  subst hq
  iterate 24 all_goals try (first
    | with_reducible exact Only.refl
    | with_reducible assumption
    | decide
    | dsimp only [id]
    | with_reducible apply Only.after (State.classM_only ..))

theorem execBankLda_only (pair : Fin 1024) (s : State) (t : State) (hq : execBankLda pair s = .next t) :
    Only [.ics, .commands, .thermal, .mem, .events, .out, .free] s t := by
  unfold execBankLda at hq
  injection hq with hq
  subst hq
  iterate 24 all_goals try (first
    | with_reducible exact Only.refl
    | with_reducible assumption
    | decide
    | dsimp only [id]
    | with_reducible apply Only.after (State.classM_only ..))

theorem execBankSta_only (pair : Fin 1024) (s : State) (t : State) (hq : execBankSta pair s = .next t) :
    Only [.ics, .commands, .thermal, .mem, .events, .out, .free] s t := by
  unfold execBankSta at hq
  injection hq with hq
  subst hq
  iterate 24 all_goals try (first
    | with_reducible exact Only.refl
    | with_reducible assumption
    | decide
    | dsimp only [id]
    | with_reducible apply Only.after (State.classM_only ..))

theorem execBankMac_only (pair : Fin 1024) (s : State) (t : State) (hq : execBankMac pair s = .next t) :
    Only [.ics, .commands, .thermal, .mem, .events, .out, .free] s t := by
  unfold execBankMac at hq
  injection hq with hq
  subst hq
  iterate 24 all_goals try (first
    | with_reducible exact Only.refl
    | with_reducible assumption
    | decide
    | dsimp only [id]
    | with_reducible apply Only.after (State.classM_only ..))

theorem execBankAxpy_only (pair : Fin 1024) (s : State) (t : State) (hq : execBankAxpy pair s = .next t) :
    Only [.ics, .commands, .thermal, .mem, .events, .out, .free] s t := by
  unfold execBankAxpy at hq
  injection hq with hq
  subst hq
  iterate 24 all_goals try (first
    | with_reducible exact Only.refl
    | with_reducible assumption
    | decide
    | dsimp only [id]
    | with_reducible apply Only.after (State.classM_only ..))

theorem execBankScal_only (pair : Fin 1024) (s : State) (t : State) (hq : execBankScal pair s = .next t) :
    Only [.ics, .commands, .thermal, .mem, .events, .out, .free] s t := by
  unfold execBankScal at hq
  injection hq with hq
  subst hq
  iterate 24 all_goals try (first
    | with_reducible exact Only.refl
    | with_reducible assumption
    | decide
    | dsimp only [id]
    | with_reducible apply Only.after (State.classM_only ..))

theorem execBankDot_only (pair : Fin 1024) (s : State) (t : State) (hq : execBankDot pair s = .next t) :
    Only [.ics, .commands, .thermal, .mem, .events, .out, .free] s t := by
  unfold execBankDot at hq
  injection hq with hq
  subst hq
  iterate 24 all_goals try (first
    | with_reducible exact Only.refl
    | with_reducible assumption
    | decide
    | dsimp only [id]
    | with_reducible apply Only.after (State.classM_only ..))

theorem execBankExpw_only (pair : Fin 1024) (s : State) (t : State) (hq : execBankExpw pair s = .next t) :
    Only [.ics, .commands, .thermal, .mem, .events, .out, .free] s t := by
  unfold execBankExpw at hq
  injection hq with hq
  subst hq
  iterate 24 all_goals try (first
    | with_reducible exact Only.refl
    | with_reducible assumption
    | decide
    | dsimp only [id]
    | with_reducible apply Only.after (State.classM_only ..))

theorem execBankRsum_only (pair : Fin 1024) (s : State) (t : State) (hq : execBankRsum pair s = .next t) :
    Only [.ics, .commands, .thermal, .mem, .events, .out, .free] s t := by
  unfold execBankRsum at hq
  injection hq with hq
  subst hq
  iterate 24 all_goals try (first
    | with_reducible exact Only.refl
    | with_reducible assumption
    | decide
    | dsimp only [id]
    | with_reducible apply Only.after (State.classM_only ..))

theorem execBankRmax_only (pair : Fin 1024) (s : State) (t : State) (hq : execBankRmax pair s = .next t) :
    Only [.ics, .commands, .thermal, .mem, .events, .out, .free] s t := by
  unfold execBankRmax at hq
  injection hq with hq
  subst hq
  iterate 24 all_goals try (first
    | with_reducible exact Only.refl
    | with_reducible assumption
    | decide
    | dsimp only [id]
    | with_reducible apply Only.after (State.classM_only ..))

theorem execBankSten_only (pair : Fin 1024) (s : State) (t : State) (hq : execBankSten pair s = .next t) :
    Only [.ics, .commands, .thermal, .mem, .events, .out, .free] s t := by
  unfold execBankSten at hq
  injection hq with hq
  subst hq
  iterate 24 all_goals try (first
    | with_reducible exact Only.refl
    | with_reducible assumption
    | decide
    | dsimp only [id]
    | with_reducible apply Only.after (State.classM_only ..))

theorem execBankCsel_only (pair : Fin 1024) (s : State) (t : State) (hq : execBankCsel pair s = .next t) :
    Only [.ics, .commands, .thermal, .mem, .events, .out, .free] s t := by
  unfold execBankCsel at hq
  injection hq with hq
  subst hq
  iterate 24 all_goals try (first
    | with_reducible exact Only.refl
    | with_reducible assumption
    | decide
    | dsimp only [id]
    | with_reducible apply Only.after (State.classM_only ..))

theorem State.classR_only (s : State) (pair : Nat) (o : BOp) (f : SeqSt → Nat → Nat → BankUnit → BankUnit) :
    Only [.thermal, .mem] s (State.classR s pair o f) := by
  unfold State.classR
  iterate 24 all_goals try (first
    | with_reducible exact Only.refl
    | with_reducible assumption
    | decide
    | dsimp only [id]
    | with_reducible apply Only.after (State.setUnit_only ..)
    | with_reducible apply Only.after (State.charge_only ..)
    | with_reducible apply Only.after (State.stepPc_only ..)
    | with_reducible apply Only.after (State.spend_only ..)
    | with_reducible refine Only.foldl _ ?_ ?_
    | with_reducible refine Only.foldlPair ?_ ?_
    | with_reducible refine Only.foldlPair' (by assumption) ?_ ?_
    | with_reducible intro _
    | split)

theorem execBankClra_only (pair : Fin 1024) (s : State) (t : State) (hq : execBankClra pair s = .next t) :
    Only [.thermal, .mem] s t := by
  unfold execBankClra at hq
  injection hq with hq
  subst hq
  iterate 24 all_goals try (first
    | with_reducible exact Only.refl
    | with_reducible assumption
    | decide
    | dsimp only [id]
    | with_reducible apply Only.after (State.classR_only ..))

theorem execBankExps_only (pair : Fin 1024) (s : State) (t : State) (hq : execBankExps pair s = .next t) :
    Only [.thermal, .mem] s t := by
  unfold execBankExps at hq
  injection hq with hq
  subst hq
  iterate 24 all_goals try (first
    | with_reducible exact Only.refl
    | with_reducible assumption
    | decide
    | dsimp only [id]
    | with_reducible apply Only.after (State.classR_only ..))

theorem execBankLoop_only (pair : Fin 1024) (s : State) (t : State) (hq : execBankLoop pair s = .next t) :
    Only [.mem] s t := by
  unfold execBankLoop at hq
  injection hq with hq
  subst hq
  iterate 24 all_goals try (first
    | with_reducible exact Only.refl
    | with_reducible assumption
    | decide
    | dsimp only [id]
    | with_reducible apply Only.after (State.setSeqSt_only ..)
    | with_reducible refine Only.foldl _ ?_ ?_
    | with_reducible refine Only.foldlPair ?_ ?_
    | with_reducible refine Only.foldlPair' (by assumption) ?_ ?_
    | with_reducible intro _
    | split)

theorem execBankEndl_only (pair : Fin 1024) (s : State) (t : State) (hq : execBankEndl pair s = .next t) :
    Only [.mem] s t := by
  unfold execBankEndl at hq
  injection hq with hq
  subst hq
  iterate 24 all_goals try (first
    | with_reducible exact Only.refl
    | with_reducible assumption
    | decide
    | dsimp only [id]
    | with_reducible apply Only.after (State.setSeqSt_only ..)
    | with_reducible intro _
    | split)

theorem execBankSetp_only (pair : Fin 1024) (s : State) (t : State) (hq : execBankSetp pair s = .next t) :
    Only [.mem] s t := by
  unfold execBankSetp at hq
  injection hq with hq
  subst hq
  iterate 24 all_goals try (first
    | with_reducible exact Only.refl
    | with_reducible assumption
    | decide
    | dsimp only [id]
    | with_reducible apply Only.after (State.stepPc_only ..)
    | with_reducible apply Only.after (State.setUnit_only ..)
    | with_reducible refine Only.foldl _ ?_ ?_
    | with_reducible refine Only.foldlPair ?_ ?_
    | with_reducible refine Only.foldlPair' (by assumption) ?_ ?_
    | with_reducible intro _
    | split)

theorem execBankEnd_only (pair : Fin 1024) (s : State) (t : State) (hq : execBankEnd pair s = .next t) :
    Only [.ics, .commands, .mem, .events, .out, .free] s t := by
  unfold execBankEnd at hq
  injection hq with hq
  subst hq
  iterate 24 all_goals try (first
    | with_reducible exact Only.refl
    | with_reducible assumption
    | decide
    | dsimp only [id]
    | with_reducible apply Only.after (State.endSortie_only ..)
    | with_reducible apply Only.after (State.endBank_only ..)
    | with_reducible apply Only.after (State.setVault_only ..)
    | with_reducible refine Only.foldl _ ?_ ?_
    | with_reducible refine Only.foldlPair ?_ ?_
    | with_reducible refine Only.foldlPair' (by assumption) ?_ ?_
    | with_reducible intro _
    | split)

theorem State.sendRecord_only (s : State) (pair : Nat) (q : SeqSt) (b : Nat) :
    Only [.mem, .cores] s (State.sendRecord s pair q b) := by
  unfold State.sendRecord
  iterate 24 all_goals try (first
    | with_reducible exact Only.refl
    | with_reducible assumption
    | decide
    | dsimp only [id]
    | with_reducible apply Only.after (State.storeCore_only ..)
    | with_reducible apply Only.after (State.setUnit_only ..)
    | with_reducible intro _
    | split)

theorem execBankRise_only (pair : Fin 1024) (s : State) (t : State) (hq : execBankRise pair s = .next t) :
    Only [.mem, .cores] s t := by
  unfold execBankRise at hq
  injection hq with hq
  subst hq
  iterate 24 all_goals try (first
    | with_reducible exact Only.refl
    | with_reducible assumption
    | decide
    | dsimp only [id]
    | with_reducible apply Only.after (State.stepPc_only ..)
    | with_reducible apply Only.after (State.sendRecord_only ..)
    | with_reducible apply Only.after (State.setSeqSt_only ..)
    | with_reducible apply Only.after (State.spend_only ..)
    | with_reducible refine Only.foldl _ ?_ ?_
    | with_reducible refine Only.foldlPair ?_ ?_
    | with_reducible refine Only.foldlPair' (by assumption) ?_ ?_
    | with_reducible intro _
    | split)

/-! ## Machine/Health.lean -/

theorem State.canaryFail_only (s : State) (pair : Nat) (bank : Nat) (row : Nat) :
    Only [.ics, .mem, .events] s (State.canaryFail s pair bank row) := by
  unfold State.canaryFail
  iterate 24 all_goals try (first
    | with_reducible exact Only.refl
    | with_reducible assumption
    | decide
    | dsimp only [id]
    | with_reducible apply Only.after (State.setVault_only ..)
    | with_reducible apply Only.after (State.addLog_only ..)
    | with_reducible apply Only.after (State.postArgs_only ..)
    | with_reducible intro _
    | split)

theorem execRefreshSlot_only (pair : Fin 1024) (canaryFlips : List (Fin 128 × Fin 4)) (s : State) (t : State) (hq : execRefreshSlot pair canaryFlips s = .next t) :
    Only [.ics, .mem, .events] s t := by
  unfold execRefreshSlot at hq
  injection hq with hq
  subst hq
  iterate 24 all_goals try (first
    | with_reducible exact Only.refl
    | with_reducible assumption
    | decide
    | dsimp only [id]
    | with_reducible apply Only.after (State.canaryFail_only ..)
    | with_reducible apply Only.after (State.setVault_only ..)
    | with_reducible refine Only.foldl _ ?_ ?_
    | with_reducible refine Only.foldlPair ?_ ?_
    | with_reducible refine Only.foldlPair' (by assumption) ?_ ?_
    | with_reducible intro _
    | split)

theorem execCanaryClear_only (pair : Fin 1024) (s : State) (t : State) (hq : execCanaryClear pair s = .next t) :
    Only [.ics, .mem, .events] s t := by
  unfold execCanaryClear at hq
  injection hq with hq
  subst hq
  iterate 24 all_goals try (first
    | with_reducible exact Only.refl
    | with_reducible assumption
    | decide
    | dsimp only [id]
    | with_reducible apply Only.after (State.logVault_only ..)
    | with_reducible apply Only.after (State.setVault_only ..)
    | with_reducible intro _
    | split)

theorem State.scrubWord_only (s : State) (pair : Nat) (w : Nat) :
    Only [.ics, .mem, .events, .free] s (State.scrubWord s pair w) := by
  unfold State.scrubWord
  iterate 24 all_goals try (first
    | with_reducible exact Only.refl
    | with_reducible assumption
    | decide
    | dsimp only [id]
    | with_reducible apply Only.after (State.checkWord_only ..)
    | with_reducible refine Only.after (State.checkWord_only' (hq := by assumption)) (by decide) ?_
    | with_reducible apply Only.after (State.storeWord_only ..)
    | with_reducible apply Only.after (State.logWord_only ..)
    | with_reducible apply Only.after (State.poisonWord_only ..)
    | with_reducible intro _
    | split)

theorem execScrubSlot_only (pair : Fin 1024) (s : State) (t : State) (hq : execScrubSlot pair s = .next t) :
    Only [.ics, .mem, .events, .free] s t := by
  unfold execScrubSlot at hq
  injection hq with hq
  subst hq
  iterate 24 all_goals try (first
    | with_reducible exact Only.refl
    | with_reducible assumption
    | decide
    | dsimp only [id]
    | with_reducible apply Only.after (State.setVault_only ..)
    | with_reducible apply Only.after (State.readMap_only ..)
    | with_reducible apply Only.after (State.scrubWord_only ..)
    | with_reducible intro _
    | split)

theorem execScrubLate_only (pair : Fin 1024) (s : State) (t : State) (hq : execScrubLate pair s = .next t) :
    Only [.ics, .mem, .events] s t := by
  unfold execScrubLate at hq
  injection hq with hq
  subst hq
  iterate 24 all_goals try (first
    | with_reducible exact Only.refl
    | with_reducible assumption
    | decide
    | dsimp only [id]
    | with_reducible apply Only.after (State.logVault_only ..)
    | with_reducible apply Only.after (State.setVault_only ..)
    | with_reducible intro _
    | split)

theorem State.loseWork_only (s : State) (pair : Nat) :
    Only [.commands, .mem] s (State.loseWork s pair) := by
  unfold State.loseWork
  iterate 24 all_goals try (first
    | with_reducible exact Only.refl
    | with_reducible assumption
    | decide
    | dsimp only [id]
    | with_reducible apply Only.after (State.setVault_only ..)
    | with_reducible apply Only.after (State.endBank_only ..)
    | with_reducible refine Only.foldl _ ?_ ?_
    | with_reducible refine Only.foldlPair ?_ ?_
    | with_reducible refine Only.foldlPair' (by assumption) ?_ ?_
    | with_reducible refine Only.setWarden ?_ ?_
    | simp only [OnlyMk.mark]
    | ((with_reducible refine OnlyMk.of ?_ ?_); rotate_left; focus (intro p hp; cases p <;> first | exact absurd (by decide) hp | rfl | exact ⟨rfl, rfl⟩))
    | with_reducible intro _)

theorem State.dropWindows_only (s : State) (pair : Nat) :
    Only [.ics, .mem, .events] s (State.dropWindows s pair) := by
  unfold State.dropWindows
  iterate 24 all_goals try (first
    | with_reducible exact Only.refl
    | with_reducible assumption
    | decide
    | dsimp only [id]
    | with_reducible apply Only.after (State.logVault_only ..)
    | with_reducible refine Only.foldl _ ?_ ?_
    | with_reducible refine Only.foldlPair ?_ ?_
    | with_reducible refine Only.foldlPair' (by assumption) ?_ ?_
    | simp only [OnlyMk.mark]
    | ((with_reducible refine OnlyMk.of ?_ ?_); rotate_left; focus (intro p hp; cases p <;> first | exact absurd (by decide) hp | rfl | exact ⟨rfl, rfl⟩))
    | with_reducible intro _)

theorem State.dropHeldAccesses_only (s : State) (pair : Nat) :
    Only [.mem, .out] s (State.dropHeldAccesses s pair) := by
  unfold State.dropHeldAccesses
  iterate 24 all_goals try (first
    | with_reducible exact Only.refl
    | with_reducible assumption
    | decide
    | dsimp only [id]
    | with_reducible apply Only.after (State.emit_only ..)
    | with_reducible apply Only.after (State.setVault_only ..)
    | with_reducible refine Only.foldl _ ?_ ?_
    | with_reducible refine Only.foldlPair ?_ ?_
    | with_reducible refine Only.foldlPair' (by assumption) ?_ ?_
    | with_reducible intro _)

theorem State.losePair_only (s : State) (pair : Nat) (cause : Nat) :
    Only [.lsChanges, .geo, .ports, .ics, .commands, .mem, .hostMem, .kv, .events, .i3c, .out] s (State.losePair s pair cause) := by
  unfold State.losePair
  iterate 24 all_goals try (first
    | with_reducible exact Only.refl
    | with_reducible assumption
    | decide
    | dsimp only [id]
    | with_reducible apply Only.after (State.setVault_only ..)
    | with_reducible apply Only.after (State.dropHeld_only ..)
    | with_reducible apply Only.after (State.dropHeldAccesses_only ..)
    | with_reducible apply Only.after (State.loseWork_only ..)
    | with_reducible apply Only.after (State.geoChange_only ..)
    | with_reducible apply Only.after (State.overlayPair_only ..)
    | with_reducible apply Only.after (State.logVault_only ..)
    | with_reducible apply Only.after (State.losePages_only ..)
    | with_reducible apply Only.after (State.dropWindows_only ..)
    | simp only [OnlyMk.mark]
    | ((with_reducible refine OnlyMk.of ?_ ?_); rotate_left; focus (intro p hp; cases p <;> first | exact absurd (by decide) hp | rfl | exact ⟨rfl, rfl⟩))
    | with_reducible intro _
    | split)

theorem State.pauseChannel_only (s : State) (pair : Nat) (n : Nat) :
    Only [.mem] s (State.pauseChannel s pair n) := by
  unfold State.pauseChannel
  iterate 24 all_goals try (first
    | with_reducible exact Only.refl
    | with_reducible assumption
    | decide
    | dsimp only [id]
    | with_reducible apply Only.after (State.setVault_only ..))

theorem State.enterNarrow_only (s : State) (pair : Nat) (upper : Bool) (group : Nat) :
    Only [.lsChanges, .geo, .ports, .ics, .commands, .mem, .hostMem, .events, .i3c, .out, .free] s (State.enterNarrow s pair upper group) := by
  unfold State.enterNarrow
  iterate 24 all_goals try (first
    | with_reducible exact Only.refl
    | with_reducible assumption
    | decide
    | dsimp only [id]
    | with_reducible apply Only.after (State.pauseChannel_only ..)
    | with_reducible apply Only.after (State.setVault_only ..)
    | with_reducible apply Only.after (State.geoChange_only ..)
    | with_reducible apply Only.after (State.overlayPair_only ..)
    | with_reducible apply Only.after (State.logVault_only ..)
    | with_reducible apply Only.after (State.mayDegrade_only ..))

theorem State.groupFails_only (s : State) (pair : Nat) (g : Nat) (conn : Nat) :
    Only [.lsChanges, .geo, .ports, .ics, .commands, .mem, .hostMem, .kv, .events, .i3c, .out, .free] s (State.groupFails s pair g conn) := by
  unfold State.groupFails
  iterate 24 all_goals try (first
    | with_reducible exact Only.refl
    | with_reducible assumption
    | decide
    | dsimp only [id]
    | with_reducible apply Only.after (State.pauseChannel_only ..)
    | with_reducible apply Only.after (State.setVault_only ..)
    | with_reducible apply Only.after (State.overlayPair_only ..)
    | with_reducible apply Only.after (State.logVault_only ..)
    | with_reducible apply Only.after (State.losePair_only ..)
    | with_reducible apply Only.after (State.enterNarrow_only ..)
    | with_reducible intro _
    | split)

theorem execChannelGroupFailing_only (pair : Fin 1024) (group : Nat) (connection : Fin 64) (s : State) (t : State) (hq : execChannelGroupFailing pair group connection s = .next t) :
    Only [.lsChanges, .geo, .ports, .ics, .commands, .mem, .hostMem, .kv, .events, .i3c, .out, .free] s t := by
  unfold execChannelGroupFailing at hq
  injection hq with hq
  subst hq
  iterate 24 all_goals try (first
    | with_reducible exact Only.refl
    | with_reducible assumption
    | decide
    | dsimp only [id]
    | with_reducible apply Only.after (settle_only ..)
    | with_reducible apply Only.after (State.groupFails_only ..)
    | with_reducible intro _
    | split)

theorem execChannelPauseEnd_only (pair : Fin 1024) (s : State) (t : State) (hq : execChannelPauseEnd pair s = .next t) :
    Only [.ics, .commands, .mem, .events, .out, .free] s t := by
  unfold execChannelPauseEnd at hq
  injection hq with hq
  subst hq
  iterate 24 all_goals try (first
    | with_reducible exact Only.refl
    | with_reducible assumption
    | decide
    | dsimp only [id]
    | with_reducible apply Only.after (State.serveHeld_only ..)
    | with_reducible apply Only.after (State.setVault_only ..)
    | with_reducible intro _
    | split)

theorem execSliceFail_only (tower : Fin 16) (s : State) (t : State) (hq : execSliceFail tower s = .next t) :
    Only [.ics, .commands, .mem, .events, .free] s t := by
  unfold execSliceFail at hq
  injection hq with hq
  subst hq
  iterate 24 all_goals try (first
    | with_reducible exact Only.refl
    | with_reducible assumption
    | decide
    | dsimp only [id]
    | with_reducible apply Only.after (State.mayDegrade_only ..)
    | with_reducible apply Only.after (State.setSlice_only ..)
    | with_reducible apply Only.after (State.emptySlice_only ..)
    | with_reducible apply Only.after (State.badLine_only ..)
    | with_reducible refine Only.foldl _ ?_ ?_
    | with_reducible refine Only.foldlPair ?_ ?_
    | with_reducible refine Only.foldlPair' (by assumption) ?_ ?_
    | with_reducible intro _
    | split)

/-! ## Machine/Time.lean -/

theorem State.setTime_only (s : State) (f : RackTime → RackTime) :
    Only [.time] s (State.setTime s f) := by
  unfold State.setTime
  iterate 24 all_goals try (first
    | with_reducible exact Only.refl
    | with_reducible assumption
    | decide
    | dsimp only [id]
    | simp only [OnlyMk.mark]
    | ((with_reducible refine OnlyMk.of ?_ ?_); rotate_left; focus (intro p hp; cases p <;> first | exact absurd (by decide) hp | rfl | exact ⟨rfl, rfl⟩)))

theorem State.toRtState_only (s : State) (st : RtState) (src : RtSource) :
    Only [.ics, .time] s (State.toRtState s st src) := by
  unfold State.toRtState
  iterate 24 all_goals try (first
    | with_reducible exact Only.refl
    | with_reducible assumption
    | decide
    | dsimp only [id]
    | with_reducible apply Only.after (State.setTime_only ..)
    | with_reducible apply Only.after (State.raise_only ..)
    | with_reducible intro _
    | split)

theorem State.checkConflict_only (s : State) :
    Only [.ics, .time, .events] s (State.checkConflict s) := by
  unfold State.checkConflict
  iterate 24 all_goals try (first
    | with_reducible exact Only.refl
    | with_reducible assumption
    | decide
    | dsimp only [id]
    | with_reducible apply Only.after (State.setTime_only ..)
    | with_reducible apply Only.after (State.postArgs_only ..)
    | with_reducible apply Only.after (State.raise_only ..)
    | with_reducible intro _
    | split)

theorem State.relock_only (s0 : State) :
    Only [.ics, .time, .events] s0 (State.relock s0) := by
  unfold State.relock
  iterate 24 all_goals try (first
    | with_reducible exact Only.refl
    | with_reducible assumption
    | decide
    | dsimp only [id]
    | with_reducible apply Only.after (State.checkConflict_only ..)
    | with_reducible apply Only.after (State.toRtState_only ..)
    | with_reducible apply Only.after (State.setTime_only ..)
    | with_reducible apply Only.after (State.checkFallback_only ..)
    | with_reducible intro _
    | split)

theorem State.applyStep_only (s : State) :
    Only [.ics, .time, .events] s (State.applyStep s) := by
  unfold State.applyStep
  iterate 24 all_goals try (first
    | with_reducible exact Only.refl
    | with_reducible assumption
    | decide
    | dsimp only [id]
    | with_reducible apply Only.after (State.setTime_only ..)
    | with_reducible apply Only.after (State.relock_only ..)
    | with_reducible apply Only.after (State.postArgs_only ..)
    | with_reducible intro _
    | split)

theorem execPpsEdge_only (rising : Bool) (freqPpb : ℤ) (s : State) (t : State) (hq : execPpsEdge rising freqPpb s = .next t) :
    Only [.ics, .time, .events] s t := by
  unfold execPpsEdge at hq
  injection hq with hq
  subst hq
  iterate 24 all_goals try (first
    | with_reducible exact Only.refl
    | with_reducible assumption
    | decide
    | dsimp only [id]
    | with_reducible apply Only.after (State.setTime_only ..)
    | with_reducible apply Only.after (State.relock_only ..)
    | with_reducible intro _
    | split)

theorem execTrefLoss_only (s : State) (t : State) (hq : execTrefLoss s = .next t) :
    Only [.ics, .time, .events] s t := by
  unfold execTrefLoss at hq
  injection hq with hq
  subst hq
  iterate 24 all_goals try (first
    | with_reducible exact Only.refl
    | with_reducible assumption
    | decide
    | dsimp only [id]
    | with_reducible apply Only.after (State.relock_only ..)
    | with_reducible apply Only.after (State.setTime_only ..)
    | with_reducible intro _
    | split)

theorem execTimeConfig_only (ctrl : Fin 4) (slot : Fin 1024) (s : State) (t : State) (hq : execTimeConfig ctrl slot s = .next t) :
    Only [.settings, .intakes, .ics, .sealed, .commands, .time, .mem, .events, .trust] s t := by
  unfold execTimeConfig at hq
  injection hq with hq
  subst hq
  iterate 24 all_goals try (first
    | with_reducible exact Only.refl
    | with_reducible assumption
    | decide
    | dsimp only [id]
    | with_reducible refine State.serve_only ?_ (by decide) ?_
    | with_reducible refine Adm.checked_only ?_ (by decide) ?_
    | with_reducible apply Only.after (State.setSettings_only ..)
    | with_reducible apply Only.after (State.setTime_only ..)
    | with_reducible apply Only.after (Adm.done_only ..)
    | with_reducible apply Only.after (State.relock_only ..)
    | with_reducible intro _
    | split)

theorem execBeaconEmit_only (s : State) (t : State) (hq : execBeaconEmit s = .next t) :
    Only [.time, .links, .out] s t := by
  unfold execBeaconEmit at hq
  injection hq with hq
  subst hq
  iterate 24 all_goals try (first
    | with_reducible exact Only.refl
    | with_reducible assumption
    | decide
    | dsimp only [id]
    | with_reducible apply Only.after (State.sendUnseq_only ..)
    | with_reducible apply Only.after (State.setTime_only ..)
    | with_reducible refine Only.foldl _ ?_ ?_
    | with_reducible refine Only.foldlPair ?_ ?_
    | with_reducible refine Only.foldlPair' (by assumption) ?_ ?_
    | with_reducible intro _
    | split)

theorem State.beaconFreq_only (s : State) :
    Only [.time, .free] s (State.beaconFreq s) := by
  unfold State.beaconFreq
  iterate 24 all_goals try (first
    | with_reducible exact Only.refl
    | with_reducible assumption
    | decide
    | dsimp only [id]
    | with_reducible apply Only.after (State.draw_only ..)
    | with_reducible refine Only.after (State.draw_only' (hq := by assumption)) (by decide) ?_
    | with_reducible apply Only.after (State.setTime_only ..)
    | with_reducible intro _
    | split)

theorem State.takeBeacon_only (s : State) (n : Nat) (m : BeaconMsg) :
    Only [.ics, .time, .links, .events, .out, .free] s (State.takeBeacon s n m) := by
  unfold State.takeBeacon
  iterate 24 all_goals try (first
    | with_reducible exact Only.refl
    | with_reducible assumption
    | decide
    | dsimp only [id]
    | with_reducible apply Only.after (State.setTime_only ..)
    | with_reducible apply Only.after (State.sendUnseq_only ..)
    | with_reducible apply Only.after (State.beaconFreq_only ..)
    | with_reducible apply Only.after (State.relock_only ..)
    | with_reducible refine Only.foldl _ ?_ ?_
    | with_reducible refine Only.foldlPair ?_ ?_
    | with_reducible refine Only.foldlPair' (by assumption) ?_ ?_
    | with_reducible intro _
    | split)

theorem execBeacon_only (port : Fin 18) (hdr : FlitHdr) (msg : BeaconMsg) (s : State) (t : State) (hq : execBeacon port hdr msg s = .next t) :
    Only [.ics, .time, .links, .events, .trust, .out, .free] s t := by
  unfold execBeacon at hq
  injection hq with hq
  subst hq
  iterate 24 all_goals try (first
    | with_reducible exact Only.refl
    | with_reducible assumption
    | decide
    | dsimp only [id]
    | with_reducible refine State.rx_only ?_ (by decide) ?_
    | with_reducible apply Only.after (State.takeBeacon_only ..)
    | with_reducible apply Only.after (State.setTime_only ..)
    | with_reducible intro _
    | split)

theorem execBeaconLoss_only (s : State) (t : State) (hq : execBeaconLoss s = .next t) :
    Only [.ics, .time, .events] s t := by
  unfold execBeaconLoss at hq
  injection hq with hq
  subst hq
  iterate 24 all_goals try (first
    | with_reducible exact Only.refl
    | with_reducible assumption
    | decide
    | dsimp only [id]
    | with_reducible apply Only.after (State.setTime_only ..)
    | with_reducible apply Only.after (State.relock_only ..)
    | with_reducible intro _
    | split)

theorem execBeaconRootResume_only (s : State) (t : State) (hq : execBeaconRootResume s = .next t) :
    Only [.ics, .time, .events] s t := by
  unfold execBeaconRootResume at hq
  injection hq with hq
  subst hq
  iterate 24 all_goals try (first
    | with_reducible exact Only.refl
    | with_reducible assumption
    | decide
    | dsimp only [id]
    | with_reducible apply Only.after (State.relock_only ..)
    | with_reducible apply Only.after (State.setTime_only ..)
    | with_reducible intro _
    | split)

theorem execSeamRackTimeWord_only (rackTime : BitVec 64) (s : State) (t : State) (hq : execSeamRackTimeWord rackTime s = .next t) :
    Only [.seam] s t := by
  unfold execSeamRackTimeWord at hq
  injection hq with hq
  subst hq
  iterate 24 all_goals try (first
    | with_reducible exact Only.refl
    | with_reducible assumption
    | decide
    | dsimp only [id]
    | simp only [OnlyMk.mark]
    | ((with_reducible refine OnlyMk.of ?_ ?_); rotate_left; focus (intro p hp; cases p <;> first | exact absurd (by decide) hp | rfl | exact ⟨rfl, rfl⟩))
    | with_reducible intro _
    | split)

/-! ## Machine/Boundary.lean -/

theorem State.listRetired_only (s : State) (r : Retired) :
    Only [.mem] s (State.listRetired s r) := by
  unfold State.listRetired
  iterate 24 all_goals try (first
    | with_reducible exact Only.refl
    | with_reducible assumption
    | decide
    | dsimp only [id]
    | simp only [OnlyMk.mark]
    | ((with_reducible refine OnlyMk.of ?_ ?_); rotate_left; focus (intro p hp; cases p <;> first | exact absurd (by decide) hp | rfl | exact ⟨rfl, rfl⟩))
    | with_reducible intro _
    | split)

theorem State.retireBlock_only (s : State) (pair : Nat) (block : Nat) :
    Only [.ics, .commands, .mem, .kv, .events, .free] s (State.retireBlock s pair block) := by
  unfold State.retireBlock
  iterate 24 all_goals try (first
    | with_reducible exact Only.refl
    | with_reducible assumption
    | decide
    | dsimp only [id]
    | with_reducible apply Only.after (State.evacuateBlock_only ..)
    | with_reducible apply Only.after (State.listRetired_only ..)
    | with_reducible apply Only.after (State.addLog_only ..)
    | with_reducible apply Only.after (State.dropHeld_only ..))

theorem State.retireBank_only (s : State) (pair : Nat) (bank : Nat) :
    Only [.lsChanges, .geo, .ports, .ics, .commands, .mem, .hostMem, .kv, .events, .i3c, .out, .free] s (State.retireBank s pair bank) := by
  unfold State.retireBank
  iterate 24 all_goals try (first
    | with_reducible exact Only.refl
    | with_reducible assumption
    | decide
    | dsimp only [id]
    | with_reducible apply Only.after (State.evacuateBank_only ..)
    | with_reducible apply Only.after (State.listRetired_only ..)
    | with_reducible apply Only.after (State.geoChange_only ..)
    | with_reducible apply Only.after (State.addLog_only ..)
    | with_reducible apply Only.after (State.dropHeld_only ..))

theorem State.unretireBlock_only (s : State) (pair : Nat) (block : Nat) :
    Only [.ics, .mem, .events] s (State.unretireBlock s pair block) := by
  unfold State.unretireBlock
  iterate 24 all_goals try (first
    | with_reducible exact Only.refl
    | with_reducible assumption
    | decide
    | dsimp only [id]
    | with_reducible apply Only.after (State.zeroBlock_only ..)
    | simp only [OnlyMk.mark]
    | ((with_reducible refine OnlyMk.of ?_ ?_); rotate_left; focus (intro p hp; cases p <;> first | exact absurd (by decide) hp | rfl | exact ⟨rfl, rfl⟩)))

theorem State.setWindow_only (s : State) (w : Nat) (win : Window) :
    Only [.ics, .mem, .events] s (State.setWindow s w win).1 := by
  unfold State.setWindow
  iterate 24 all_goals try (first
    | with_reducible exact Only.refl
    | with_reducible assumption
    | decide
    | dsimp only [id]
    | with_reducible apply Only.after (State.logVault_only ..)
    | simp only [OnlyMk.mark]
    | ((with_reducible refine OnlyMk.of ?_ ?_); rotate_left; focus (intro p hp; cases p <;> first | exact absurd (by decide) hp | rfl | exact ⟨rfl, rfl⟩))
    | with_reducible intro _
    | split)

theorem State.setWindow_only' {s : State} {w : Nat} {win : Window} {r0 : _} {t0 : State} (hq : State.setWindow s w win = (t0, r0)) :
    Only [.ics, .mem, .events] s t0 := by
  have gq := State.setWindow_only s w win
  rw [hq] at gq
  exact gq

theorem State.applyEffect_only (s : State) (e : Effect) :
    Only [.settings, .lsChanges, .geo, .ports, .ics, .commands, .mem, .hostMem, .kv, .links, .events, .i3c, .out, .free] s (State.applyEffect s e).1 := by
  unfold State.applyEffect
  iterate 24 all_goals try (first
    | with_reducible exact Only.refl
    | with_reducible assumption
    | decide
    | dsimp only [id]
    | with_reducible apply Only.after (State.setSettings_only ..)
    | with_reducible apply Only.after (State.setWindow_only ..)
    | with_reducible refine Only.after (State.setWindow_only' (hq := by assumption)) (by decide) ?_
    | with_reducible apply Only.after (State.retireBlock_only ..)
    | with_reducible apply Only.after (State.retireBank_only ..)
    | with_reducible apply Only.after (State.unretireBlock_only ..)
    | with_reducible apply Only.after (State.setLinks_only ..)
    | with_reducible intro _
    | split)

theorem State.applyEffect_only' {s : State} {e : Effect} {r0 : _} {t0 : State} (hq : State.applyEffect s e = (t0, r0)) :
    Only [.settings, .lsChanges, .geo, .ports, .ics, .commands, .mem, .hostMem, .kv, .links, .events, .i3c, .out, .free] s t0 := by
  have gq := State.applyEffect_only s e
  rw [hq] at gq
  exact gq

theorem State.applyDeferred_only (s : State) :
    Only [.settings, .lsChanges, .geo, .ports, .ics, .commands, .mem, .hostMem, .kv, .links, .events, .trust, .i3c, .out, .free] s (State.applyDeferred s) := by
  unfold State.applyDeferred
  iterate 24 all_goals try (first
    | with_reducible exact Only.refl
    | with_reducible assumption
    | decide
    | dsimp only [id]
    | with_reducible apply Only.after (State.applyEffect_only ..)
    | with_reducible refine Only.after (State.applyEffect_only' (hq := by assumption)) (by decide) ?_
    | with_reducible apply Only.after (State.endCmd_only ..)
    | with_reducible refine Only.foldl _ ?_ ?_
    | with_reducible refine Only.foldlPair ?_ ?_
    | with_reducible refine Only.foldlPair' (by assumption) ?_ ?_
    | with_reducible refine Only.setWarden ?_ ?_
    | simp only [OnlyMk.mark]
    | ((with_reducible refine OnlyMk.of ?_ ?_); rotate_left; focus (intro p hp; cases p <;> first | exact absurd (by decide) hp | rfl | exact ⟨rfl, rfl⟩))
    | with_reducible intro _)

theorem State.commitRingSets_only (s : State) :
    Only [.ports] s (State.commitRingSets s) := by
  unfold State.commitRingSets
  iterate 24 all_goals try (first
    | with_reducible exact Only.refl
    | with_reducible assumption
    | decide
    | dsimp only [id]
    | with_reducible apply Only.after (State.setPort_only ..)
    | with_reducible refine Only.foldl _ ?_ ?_
    | with_reducible refine Only.foldlPair ?_ ?_
    | with_reducible refine Only.foldlPair' (by assumption) ?_ ?_
    | with_reducible intro _
    | split)

theorem State.vaultBoundary_only (s : State) (pair : Nat) :
    Only [.ics, .commands, .mem, .events, .out, .free] s (State.vaultBoundary s pair) := by
  unfold State.vaultBoundary
  iterate 24 all_goals try (first
    | with_reducible exact Only.refl
    | with_reducible assumption
    | decide
    | dsimp only [id]
    | with_reducible apply Only.after (State.serveHeld_only ..)
    | with_reducible apply Only.after (State.setVault_only ..))

theorem State.stepClock_only (s : State) :
    Only [.thermal] s (State.stepClock s) := by
  unfold State.stepClock
  iterate 24 all_goals try (first
    | with_reducible exact Only.refl
    | with_reducible assumption
    | decide
    | dsimp only [id]
    | simp only [OnlyMk.mark]
    | ((with_reducible refine OnlyMk.of ?_ ?_); rotate_left; focus (intro p hp; cases p <;> first | exact absurd (by decide) hp | rfl | exact ⟨rfl, rfl⟩)))

theorem State.boundary_only (s : State) :
    Only [.settings, .lsChanges, .geo, .ports, .ics, .commands, .rations, .time, .power, .thermal, .mem, .hostMem, .kv, .links, .events, .trust, .i3c, .out, .free] s (State.boundary s) := by
  unfold State.boundary
  iterate 24 all_goals try (first
    | with_reducible exact Only.refl
    | with_reducible assumption
    | decide
    | dsimp only [id]
    | with_reducible apply Only.after (State.setTime_only ..)
    | with_reducible apply Only.after (State.applyDeferred_only ..)
    | with_reducible apply Only.after (State.commitRingSets_only ..)
    | with_reducible apply Only.after (State.commitRations_only ..)
    | with_reducible apply Only.after (State.vaultBoundary_only ..)
    | with_reducible apply Only.after (State.linkPeriod_only ..)
    | with_reducible apply Only.after (State.stepClock_only ..)
    | with_reducible apply Only.after (State.placeSlot_only ..)
    | with_reducible apply Only.after (State.checkFallback_only ..)
    | with_reducible refine Only.foldl _ ?_ ?_
    | with_reducible refine Only.foldlPair ?_ ?_
    | with_reducible refine Only.foldlPair' (by assumption) ?_ ?_
    | with_reducible intro _)

theorem execRationPeriodBoundary_only (s : State) (t : State) (hq : execRationPeriodBoundary s = .next t) :
    Only [.settings, .lsChanges, .geo, .ports, .ics, .commands, .rations, .time, .power, .thermal, .mem, .hostMem, .kv, .links, .events, .trust, .i3c, .out, .free] s t := by
  unfold execRationPeriodBoundary at hq
  injection hq with hq
  subst hq
  iterate 24 all_goals try (first
    | with_reducible exact Only.refl
    | with_reducible assumption
    | decide
    | dsimp only [id]
    | with_reducible apply Only.after (settle_only ..)
    | with_reducible apply Only.after (State.applyStep_only ..)
    | with_reducible apply Only.after (State.boundary_only ..)
    | with_reducible intro _
    | split)

theorem execPowerFrameBoundary_only (inputW : BitVec 16) (s : State) (t : State) (hq : execPowerFrameBoundary inputW s = .next t) :
    Only [.ics, .commands, .time, .power, .mem, .events, .trust, .free] s t := by
  unfold execPowerFrameBoundary at hq
  injection hq with hq
  subst hq
  iterate 24 all_goals try (first
    | with_reducible exact Only.refl
    | with_reducible assumption
    | decide
    | dsimp only [id]
    | with_reducible apply Only.after (State.govern_only ..)
    | with_reducible apply Only.after (State.placeSlot_only ..)
    | with_reducible apply Only.after (State.checkFallback_only ..)
    | with_reducible apply Only.after (State.commitSched_only ..)
    | simp only [OnlyMk.mark]
    | ((with_reducible refine OnlyMk.of ?_ ?_); rotate_left; focus (intro p hp; cases p <;> first | exact absurd (by decide) hp | rfl | exact ⟨rfl, rfl⟩))
    | with_reducible intro _
    | split)

/-! ## Machine/Events.lean -/

theorem State.writeEvent_only (s : State) (ev : Event) (repeats : Nat) (late : Bool) :
    Only [.thermal, .events] s (State.writeEvent s ev repeats late) := by
  unfold State.writeEvent
  iterate 24 all_goals try (first
    | with_reducible exact Only.refl
    | with_reducible assumption
    | decide
    | dsimp only [id]
    | simp only [OnlyMk.mark]
    | ((with_reducible refine OnlyMk.of ?_ ?_); rotate_left; focus (intro p hp; cases p <;> first | exact absurd (by decide) hp | rfl | exact ⟨rfl, rfl⟩)))

theorem State.closeWindow_only (s : State) (kind : BitVec 16) (unit : Nat) :
    Only [.thermal, .events] s (State.closeWindow s kind unit) := by
  unfold State.closeWindow
  iterate 24 all_goals try (first
    | with_reducible exact Only.refl
    | with_reducible assumption
    | decide
    | dsimp only [id]
    | with_reducible apply Only.after (State.writeEvent_only ..)
    | simp only [OnlyMk.mark]
    | ((with_reducible refine OnlyMk.of ?_ ?_); rotate_left; focus (intro p hp; cases p <;> first | exact absurd (by decide) hp | rfl | exact ⟨rfl, rfl⟩))
    | with_reducible intro _
    | split)

theorem State.recordEvent_only (s : State) (ev : Event) (late : Bool) :
    Only [.thermal, .events] s (State.recordEvent s ev late) := by
  unfold State.recordEvent
  iterate 24 all_goals try (first
    | with_reducible exact Only.refl
    | with_reducible assumption
    | decide
    | dsimp only [id]
    | with_reducible apply Only.after (State.closeWindow_only ..)
    | with_reducible apply Only.after (State.writeEvent_only ..)
    | simp only [OnlyMk.mark]
    | ((with_reducible refine OnlyMk.of ?_ ?_); rotate_left; focus (intro p hp; cases p <;> first | exact absurd (by decide) hp | rfl | exact ⟨rfl, rfl⟩))
    | with_reducible intro _
    | split)

theorem execEventRecordWrite_only (s : State) (t : State) (hq : execEventRecordWrite s = .next t) :
    Only [.thermal, .events] s t := by
  unfold execEventRecordWrite at hq
  injection hq with hq
  subst hq
  iterate 24 all_goals try (first
    | with_reducible exact Only.refl
    | with_reducible assumption
    | decide
    | dsimp only [id]
    | with_reducible apply Only.after (State.recordEvent_only ..)
    | simp only [OnlyMk.mark]
    | ((with_reducible refine OnlyMk.of ?_ ?_); rotate_left; focus (intro p hp; cases p <;> first | exact absurd (by decide) hp | rfl | exact ⟨rfl, rfl⟩))
    | with_reducible intro _
    | split)

theorem execEventWindowClose_only (kind : BitVec 16) (source : Nat) (s : State) (t : State) (hq : execEventWindowClose kind source s = .next t) :
    Only [.thermal, .events] s t := by
  unfold execEventWindowClose at hq
  injection hq with hq
  subst hq
  iterate 24 all_goals try (first
    | with_reducible exact Only.refl
    | with_reducible assumption
    | decide
    | dsimp only [id]
    | with_reducible apply Only.after (State.closeWindow_only ..)
    | with_reducible intro _
    | split)

theorem execEventRead_only (ctrl : Fin 4) (slot : Fin 1024) (s : State) (t : State) (hq : execEventRead ctrl slot s = .next t) :
    Only [.intakes, .ports, .ics, .sealed, .commands, .mem, .hostMem, .events, .trust, .out] s t := by
  unfold execEventRead at hq
  injection hq with hq
  subst hq
  iterate 24 all_goals try (first
    | with_reducible exact Only.refl
    | with_reducible assumption
    | decide
    | dsimp only [id]
    | with_reducible refine State.serve_only ?_ (by decide) ?_
    | with_reducible refine Adm.checked_only ?_ (by decide) ?_
    | with_reducible apply Only.after (Adm.finish_only ..)
    | with_reducible apply Only.after (Adm.copyOut_only ..)
    | with_reducible intro _
    | split)

theorem execLsVector0Deferred_only (port : Fin 2) (s : State) (t : State) (hq : execLsVector0Deferred port s = .next t) :
    Only [.ports, .hostMem, .out] s t := by
  unfold execLsVector0Deferred at hq
  injection hq with hq
  subst hq
  iterate 24 all_goals try (first
    | with_reducible exact Only.refl
    | with_reducible assumption
    | decide
    | dsimp only [id]
    | with_reducible apply Only.after (State.msix_only ..)
    | with_reducible apply Only.after (State.setPort_only ..)
    | with_reducible intro _
    | split)

theorem State.takeSource_only (s : State) (cluster : Nat) (core : Nat) (src : Nat) :
    Only [.ics, .out] s (State.takeSource s cluster core src) := by
  unfold State.takeSource
  iterate 24 all_goals try (first
    | with_reducible exact Only.refl
    | with_reducible assumption
    | decide
    | dsimp only [id]
    | with_reducible apply Only.after (State.emit_only ..)
    | with_reducible apply Only.after (State.setIc_only ..))

theorem execFastInterruptDelivery_only (cluster : Fin 2) (source : Fin 256) (s : State) (t : State) (hq : execFastInterruptDelivery cluster source s = .next t) :
    Only [.ics, .out] s t := by
  unfold execFastInterruptDelivery at hq
  injection hq with hq
  subst hq
  iterate 24 all_goals try (first
    | with_reducible exact Only.refl
    | with_reducible assumption
    | decide
    | dsimp only [id]
    | with_reducible apply Only.after (State.takeSource_only ..)
    | with_reducible intro _
    | split)

theorem execNormalInterruptDelivery_only (cluster : Fin 2) (source : Fin 256) (s : State) (t : State) (hq : execNormalInterruptDelivery cluster source s = .next t) :
    Only [.ics, .out] s t := by
  unfold execNormalInterruptDelivery at hq
  injection hq with hq
  subst hq
  iterate 24 all_goals try (first
    | with_reducible exact Only.refl
    | with_reducible assumption
    | decide
    | dsimp only [id]
    | with_reducible apply Only.after (State.takeSource_only ..)
    | with_reducible apply Only.after (State.setIc_only ..)
    | with_reducible intro _
    | split)

theorem execLanternWake_only (cluster : Fin 2) (source : Fin 256) (s : State) (t : State) (hq : execLanternWake cluster source s = .next t) :
    Only [.ics, .out] s t := by
  unfold execLanternWake at hq
  injection hq with hq
  subst hq
  iterate 24 all_goals try (first
    | with_reducible exact Only.refl
    | with_reducible assumption
    | decide
    | dsimp only [id]
    | with_reducible apply Only.after (State.emit_only ..)
    | with_reducible apply Only.after (State.setIc_only ..)
    | with_reducible intro _
    | split)

theorem execSleepTimer_only (cluster : Fin 2) (core : Fin 8) (s : State) (t : State) (hq : execSleepTimer cluster core s = .next t) :
    Only [.ics, .out] s t := by
  unfold execSleepTimer at hq
  injection hq with hq
  subst hq
  iterate 24 all_goals try (first
    | with_reducible exact Only.refl
    | with_reducible assumption
    | decide
    | dsimp only [id]
    | with_reducible apply Only.after (State.emit_only ..)
    | with_reducible apply Only.after (State.setIc_only ..)
    | with_reducible intro _
    | split)

theorem execHeartbeat_only (cluster : Fin 2) (s : State) (t : State) (hq : execHeartbeat cluster s = .next t) :
    Only [.wdogs] s t := by
  unfold execHeartbeat at hq
  injection hq with hq
  subst hq
  iterate 24 all_goals try (first
    | with_reducible exact Only.refl
    | with_reducible assumption
    | decide
    | dsimp only [id]
    | with_reducible apply Only.after (State.setWdog_only ..)
    | with_reducible intro _
    | split)

theorem execWdogWarn_only (cluster : Fin 2) (s : State) (t : State) (hq : execWdogWarn cluster s = .next t) :
    Only [.ics, .wdogs] s t := by
  unfold execWdogWarn at hq
  injection hq with hq
  subst hq
  iterate 24 all_goals try (first
    | with_reducible exact Only.refl
    | with_reducible assumption
    | decide
    | dsimp only [id]
    | with_reducible apply Only.after (State.raiseIn_only ..)
    | with_reducible apply Only.after (State.setWdog_only ..)
    | with_reducible intro _
    | split)

theorem execWdogConfig_only (ctrl : Fin 4) (slot : Fin 1024) (s : State) (t : State) (hq : execWdogConfig ctrl slot s = .next t) :
    Only [.settings, .intakes, .ics, .sealed, .commands, .mem, .events, .trust] s t := by
  unfold execWdogConfig at hq
  injection hq with hq
  subst hq
  iterate 24 all_goals try (first
    | with_reducible exact Only.refl
    | with_reducible assumption
    | decide
    | dsimp only [id]
    | with_reducible refine State.serve_only ?_ (by decide) ?_
    | with_reducible refine Adm.checked_only ?_ (by decide) ?_
    | with_reducible apply Only.after (Adm.done_only ..)
    | with_reducible apply Only.after (State.setSettings_only ..)
    | with_reducible intro _)

end Sys2Proof.Machine
end

