-- ==== Sys2Proof/Laws/Frames5.lean ====
section
/-! SUPPORT. Which parts of the state each operation and each meaning of Machine/Ports.lean to Machine/Resets.lean can change, one
lemma each. -/

namespace Sys2Proof.Machine

open Sys2Proof

/-! ## Machine/Ports.lean -/

theorem State.dropSlots_only (s : State) (c : Nat) :
    Only [.intakes, .ics, .sealed] s (State.dropSlots s c) := by
  unfold State.dropSlots
  iterate 24 all_goals try (first
    | with_reducible exact Only.refl
    | with_reducible assumption
    | decide
    | dsimp only [id]
    | with_reducible apply Only.after (State.takeSlot_only ..)
    | with_reducible apply Only.after (State.advanceSeq_only ..)
    | with_reducible apply Only.after (State.setIntake_only ..)
    | with_reducible refine Only.foldl _ ?_ ?_
    | with_reducible refine Only.foldlPair ?_ ?_
    | with_reducible refine Only.foldlPair' (by assumption) ?_ ?_
    | with_reducible intro _
    | split)

theorem State.releaseTdiRanges_only (s : State) (c : Nat) :
    Only [.ics, .mem, .events, .trust] s (State.releaseTdiRanges s c) := by
  unfold State.releaseTdiRanges
  iterate 24 all_goals try (first
    | with_reducible exact Only.refl
    | with_reducible assumption
    | decide
    | dsimp only [id]
    | with_reducible apply Only.after (State.releaseRange_only ..)
    | with_reducible refine Only.foldl _ ?_ ?_
    | with_reducible refine Only.foldlPair ?_ ?_
    | with_reducible refine Only.foldlPair' (by assumption) ?_ ?_
    | with_reducible intro _)

theorem State.tdiFails_only (s : State) (p : Fin 2) :
    Only [.claims, .intakes, .ports, .ics, .sealed, .commands, .power, .mem, .links, .events, .trust] s (State.tdiFails s p) := by
  unfold State.tdiFails
  iterate 24 all_goals try (first
    | with_reducible exact Only.refl
    | with_reducible assumption
    | decide
    | dsimp only [id]
    | with_reducible apply Only.after (State.dropSlots_only ..)
    | with_reducible apply Only.after (State.setPort_only ..)
    | with_reducible apply Only.after (State.markStruck_only ..)
    | with_reducible apply Only.after (State.releaseTdiRanges_only ..)
    | with_reducible apply Only.after (State.addJob_only ..)
    | with_reducible refine Only.setWarden ?_ ?_
    | simp only [OnlyMk.mark]
    | ((with_reducible refine OnlyMk.of ?_ ?_); rotate_left; focus (intro p hp; cases p <;> first | exact absurd (by decide) hp | rfl | exact ⟨rfl, rfl⟩))
    | with_reducible intro _
    | split)

theorem execTdiError_only (port : Fin 2) (s : State) (t : State) (hq : execTdiError port s = .next t) :
    Only [.claims, .intakes, .ports, .ics, .sealed, .commands, .power, .mem, .links, .events, .trust] s t := by
  unfold execTdiError at hq
  injection hq with hq
  subst hq
  iterate 24 all_goals try (first
    | with_reducible exact Only.refl
    | with_reducible assumption
    | decide
    | dsimp only [id]
    | with_reducible apply Only.after (State.tdiFails_only ..)
    | with_reducible intro _
    | split)

theorem State.hostLinkLost_only (s : State) (p : Nat) :
    Only [.commands] s (State.hostLinkLost s p) := by
  unfold State.hostLinkLost
  iterate 24 all_goals try (first
    | with_reducible exact Only.refl
    | with_reducible assumption
    | decide
    | dsimp only [id]
    | with_reducible refine Only.setWarden ?_ ?_
    | simp only [OnlyMk.mark]
    | ((with_reducible refine OnlyMk.of ?_ ?_); rotate_left; focus (intro p hp; cases p <;> first | exact absurd (by decide) hp | rfl | exact ⟨rfl, rfl⟩)))

theorem State.keepSealed_only (s : State) (p : Nat) :
    Only [.intakes] s (State.keepSealed s p) := by
  unfold State.keepSealed
  iterate 24 all_goals try (first
    | with_reducible exact Only.refl
    | with_reducible assumption
    | decide
    | dsimp only [id]
    | with_reducible apply Only.after (State.setIntake_only ..))

theorem State.resetPort_only (s : State) (p : Fin 2) (up : Bool) :
    Only [.claims, .intakes, .ports, .ics, .sealed, .commands, .power, .mem, .links, .events, .trust] s (State.resetPort s p up) := by
  unfold State.resetPort
  iterate 24 all_goals try (first
    | with_reducible exact Only.refl
    | with_reducible assumption
    | decide
    | dsimp only [id]
    | with_reducible apply Only.after (State.tdiFails_only ..)
    | with_reducible apply Only.after (State.presentSlot_only ..)
    | with_reducible apply Only.after (State.setPort_only ..)
    | with_reducible apply Only.after (State.keepSealed_only ..)
    | with_reducible apply Only.after (State.hostLinkLost_only ..)
    | with_reducible refine Only.foldl _ ?_ ?_
    | with_reducible refine Only.foldlPair ?_ ?_
    | with_reducible refine Only.foldlPair' (by assumption) ?_ ?_
    | with_reducible intro _
    | split)

theorem execHostPortReset_only (port : Fin 2) (kind : PortResetKind) (s : State) (t : State) (hq : execHostPortReset port kind s = .next t) :
    Only [.claims, .intakes, .ports, .ics, .sealed, .commands, .power, .mem, .links, .events, .trust] s t := by
  unfold execHostPortReset at hq
  injection hq with hq
  subst hq
  iterate 24 all_goals try (first
    | with_reducible exact Only.refl
    | with_reducible assumption
    | decide
    | dsimp only [id]
    | with_reducible apply Only.after (State.setPort_only ..)
    | with_reducible apply Only.after (State.resetPort_only ..)
    | with_reducible intro _
    | split)

theorem execHostLinkTrain_only (port : Fin 2) (s : State) (t : State) (hq : execHostLinkTrain port s = .next t) :
    Only [.ports] s t := by
  unfold execHostLinkTrain at hq
  injection hq with hq
  subst hq
  iterate 24 all_goals try (first
    | with_reducible exact Only.refl
    | with_reducible assumption
    | decide
    | dsimp only [id]
    | with_reducible apply Only.after (State.setPort_only ..)
    | with_reducible intro _
    | split)

theorem State.offerBar2_only (s : State) (l : List (Nat × Held)) :
    Only [.ics, .commands, .mem, .events, .out, .free] s (State.offerBar2 s l) := by
  unfold State.offerBar2
  iterate 24 all_goals try (first
    | with_reducible exact Only.refl
    | with_reducible assumption
    | decide
    | dsimp only [id]
    | with_reducible apply Only.after (State.access_only ..)
    | with_reducible refine Only.foldl _ ?_ ?_
    | with_reducible refine Only.foldlPair ?_ ?_
    | with_reducible refine Only.foldlPair' (by assumption) ?_ ?_
    | with_reducible intro _)

theorem execBar2Read_only (port : Fin 2) (offset : Nat) (len : Nat) (tBit : Bool) (s : State) (t : State) (hq : execBar2Read port offset len tBit s = .next t) :
    Only [.ics, .commands, .mem, .events, .trust, .out, .free, .run] s t := by
  unfold execBar2Read at hq
  injection hq with hq
  subst hq
  iterate 24 all_goals try (first
    | with_reducible exact Only.refl
    | with_reducible assumption
    | decide
    | dsimp only [id]
    | with_reducible apply Only.after (State.emit_only ..)
    | with_reducible apply Only.after (State.offerBar2_only ..)
    | with_reducible apply Only.after (State.readDev_only ..)
    | with_reducible refine Only.after (State.readDev_only' (hq := by assumption)) (by decide) ?_
    | with_reducible intro _
    | split)

theorem execBar2Write_only (port : Fin 2) (offset : Nat) (data : List (BitVec 8)) (tBit : Bool) (s : State) (t : State) (hq : execBar2Write port offset data tBit s = .next t) :
    Only [.ownPorts, .ics, .commands, .mem, .far, .events, .trust, .out, .free, .run] s t := by
  unfold execBar2Write at hq
  injection hq with hq
  subst hq
  iterate 24 all_goals try (first
    | with_reducible exact Only.refl
    | with_reducible assumption
    | decide
    | dsimp only [id]
    | with_reducible apply Only.after (State.emit_only ..)
    | with_reducible apply Only.after (State.deny_only ..)
    | with_reducible apply Only.after (State.offerBar2_only ..)
    | with_reducible apply Only.after (State.writeDev_only ..)
    | with_reducible intro _
    | split)

/-! ## Machine/FarTier.lean -/

theorem execFarTierRead_only (offset : Nat) (len : Nat) (s : State) (t : State) (hq : execFarTierRead offset len s = .next t) :
    Only [.events, .out] s t := by
  unfold execFarTierRead at hq
  injection hq with hq
  subst hq
  iterate 24 all_goals try (first
    | with_reducible exact Only.refl
    | with_reducible assumption
    | decide
    | dsimp only [id]
    | with_reducible apply Only.after (State.farRead_only ..)
    | with_reducible refine Only.after (State.farRead_only' (hq := by assumption)) (by decide) ?_
    | with_reducible apply Only.after (State.emit_only ..)
    | with_reducible intro _
    | split)

theorem execFarTierWrite_only (offset : Nat) (data : List (BitVec 8)) (s : State) (t : State) (hq : execFarTierWrite offset data s = .next t) :
    Only [.far, .events, .trust, .out] s t := by
  unfold execFarTierWrite at hq
  injection hq with hq
  subst hq
  iterate 24 all_goals try (first
    | with_reducible exact Only.refl
    | with_reducible assumption
    | decide
    | dsimp only [id]
    | with_reducible apply Only.after (State.farWrite_only ..)
    | with_reducible apply Only.after (State.emit_only ..)
    | with_reducible intro _
    | split)

theorem State.settleXfers_only (s : State) :
    Only [.ics, .commands, .mem, .links, .events, .trust] s (State.settleXfers s) := by
  unfold State.settleXfers
  iterate 24 all_goals try (first
    | with_reducible exact Only.refl
    | with_reducible assumption
    | decide
    | dsimp only [id]
    | with_reducible apply Only.after (State.progress_only ..)
    | with_reducible refine Only.foldl _ ?_ ?_
    | with_reducible refine Only.foldlPair ?_ ?_
    | with_reducible refine Only.foldlPair' (by assumption) ?_ ?_
    | with_reducible intro _)

theorem execFarTierInitComplete_only (block : Nat) (s : State) (t : State) (hq : execFarTierInitComplete block s = .next t) :
    Only [.ics, .commands, .mem, .far, .links, .events, .trust] s t := by
  unfold execFarTierInitComplete at hq
  injection hq with hq
  subst hq
  iterate 24 all_goals try (first
    | with_reducible exact Only.refl
    | with_reducible assumption
    | decide
    | dsimp only [id]
    | with_reducible apply Only.after (State.settleXfers_only ..)
    | with_reducible apply Only.after (State.setFar_only ..)
    | with_reducible intro _
    | split)

theorem State.farWorkLost_only (s : State) :
    Only [.commands] s (State.farWorkLost s) := by
  unfold State.farWorkLost
  iterate 24 all_goals try (first
    | with_reducible exact Only.refl
    | with_reducible assumption
    | decide
    | dsimp only [id]
    | with_reducible refine Only.setWarden ?_ ?_
    | simp only [OnlyMk.mark]
    | ((with_reducible refine OnlyMk.of ?_ ?_); rotate_left; focus (intro p hp; cases p <;> first | exact absurd (by decide) hp | rfl | exact ⟨rfl, rfl⟩)))

theorem execFarTierLinkLoss_only (s : State) (t : State) (hq : execFarTierLinkLoss s = .next t) :
    Only [.ics, .commands, .mem, .far, .links, .events, .trust] s t := by
  unfold execFarTierLinkLoss at hq
  injection hq with hq
  subst hq
  iterate 24 all_goals try (first
    | with_reducible exact Only.refl
    | with_reducible assumption
    | decide
    | dsimp only [id]
    | with_reducible apply Only.after (State.endXfer_only ..)
    | with_reducible apply Only.after (State.farWorkLost_only ..)
    | with_reducible apply Only.after (State.postArgs_only ..)
    | with_reducible apply Only.after (State.setFar_only ..)
    | with_reducible refine Only.foldl _ ?_ ?_
    | with_reducible refine Only.foldlPair ?_ ?_
    | with_reducible refine Only.foldlPair' (by assumption) ?_ ?_
    | with_reducible intro _
    | split)

theorem execFarTierRetrain_only (s : State) (t : State) (hq : execFarTierRetrain s = .next t) :
    Only [.far] s t := by
  unfold execFarTierRetrain at hq
  injection hq with hq
  subst hq
  iterate 24 all_goals try (first
    | with_reducible exact Only.refl
    | with_reducible assumption
    | decide
    | dsimp only [id]
    | with_reducible apply Only.after (State.setFar_only ..)
    | with_reducible intro _
    | split)

/-! ## Machine/Heat.lean -/

theorem State.setThermal_only (s : State) (f : Thermal → Thermal) :
    Only [.thermal] s (State.setThermal s f) := by
  unfold State.setThermal
  iterate 24 all_goals try (first
    | with_reducible exact Only.refl
    | with_reducible assumption
    | decide
    | dsimp only [id]
    | simp only [OnlyMk.mark]
    | ((with_reducible refine OnlyMk.of ?_ ?_); rotate_left; focus (intro p hp; cases p <;> first | exact absurd (by decide) hp | rfl | exact ⟨rfl, rfl⟩)))

theorem State.putWear_only (s : State) (tower : Nat) (w : Wear) :
    Only [.thermal, .events] s (State.putWear s tower w) := by
  unfold State.putWear
  iterate 24 all_goals try (first
    | with_reducible exact Only.refl
    | with_reducible assumption
    | decide
    | dsimp only [id]
    | with_reducible apply Only.after (State.setThermal_only ..)
    | with_reducible apply Only.after (State.postArgs_only ..)
    | with_reducible intro _
    | split)

theorem State.persistWear_only (s : State) :
    Only [.thermal, .events] s (State.persistWear s) := by
  unfold State.persistWear
  iterate 24 all_goals try (first
    | with_reducible exact Only.refl
    | with_reducible assumption
    | decide
    | dsimp only [id]
    | with_reducible apply Only.after (State.setThermal_only ..)
    | with_reducible apply Only.after (State.putWear_only ..)
    | with_reducible refine Only.foldl _ ?_ ?_
    | with_reducible refine Only.foldlPair ?_ ?_
    | with_reducible refine Only.foldlPair' (by assumption) ?_ ?_
    | with_reducible intro _)

theorem execSwingSample_only (tower : Fin 16) (s : State) (t : State) (hq : execSwingSample tower s = .next t) :
    Only [.thermal, .events] s t := by
  unfold execSwingSample at hq
  injection hq with hq
  subst hq
  iterate 24 all_goals try (first
    | with_reducible exact Only.refl
    | with_reducible assumption
    | decide
    | dsimp only [id]
    | with_reducible apply Only.after (State.putWear_only ..)
    | with_reducible apply Only.after (State.setThermal_only ..)
    | with_reducible intro _
    | split)

theorem execWearPersist_only (s : State) (t : State) (hq : execWearPersist s = .next t) :
    Only [.thermal, .events] s t := by
  unfold execWearPersist at hq
  injection hq with hq
  subst hq
  iterate 24 all_goals try (first
    | with_reducible exact Only.refl
    | with_reducible assumption
    | decide
    | dsimp only [id]
    | with_reducible apply Only.after (State.persistWear_only ..)
    | with_reducible intro _
    | split)

theorem State.abortAll_only (s : State) (st : Status) (d : BitVec 32) :
    Only [.claims, .intakes, .ics, .sealed, .commands, .power, .links] s (State.abortAll s st d) := by
  unfold State.abortAll
  iterate 24 all_goals try (first
    | with_reducible exact Only.refl
    | with_reducible assumption
    | decide
    | dsimp only [id]
    | with_reducible apply Only.after (State.markStruck_only ..)
    | with_reducible apply Only.after (State.strikeSlots_only ..)
    | with_reducible apply Only.after (State.addJob_only ..)
    | with_reducible intro _
    | split)

theorem State.shutdown_only (s : State) (cause : Nat) (est : Bool) (point : Nat) (temp : ℤ) :
    Only [.lantern, .claims, .intakes, .ics, .sealed, .commands, .power, .thermal, .links, .events, .free] s (State.shutdown s cause est point temp) := by
  unfold State.shutdown
  iterate 24 all_goals try (first
    | with_reducible exact Only.refl
    | with_reducible assumption
    | decide
    | dsimp only [id]
    | with_reducible apply Only.after (State.draw_only ..)
    | with_reducible refine Only.after (State.draw_only' (hq := by assumption)) (by decide) ?_
    | with_reducible apply Only.after (State.markStruck_only ..)
    | with_reducible apply Only.after (State.persistWear_only ..)
    | with_reducible apply Only.after (State.setThermal_only ..)
    | with_reducible apply Only.after (State.abortAll_only ..)
    | with_reducible apply Only.after (State.raiseFast_only ..)
    | with_reducible apply Only.after (State.post_only ..)
    | simp only [OnlyMk.mark]
    | ((with_reducible refine OnlyMk.of ?_ ?_); rotate_left; focus (intro p hp; cases p <;> first | exact absurd (by decide) hp | rfl | exact ⟨rfl, rfl⟩))
    | with_reducible intro _
    | split)

theorem State.coolantStop_only (s : State) (cause : Nat) :
    Only [.lantern, .claims, .intakes, .ics, .sealed, .commands, .power, .thermal, .links, .seam, .events, .out, .free] s (State.coolantStop s cause) := by
  unfold State.coolantStop
  iterate 24 all_goals try (first
    | with_reducible exact Only.refl
    | with_reducible assumption
    | decide
    | dsimp only [id]
    | with_reducible apply Only.after (State.shutdown_only ..)
    | with_reducible apply Only.after (State.tell_only ..)
    | with_reducible intro _
    | split)

theorem State.loseMemory_only (s : State) :
    Only [.mem, .cores, .kv] s (State.loseMemory s) := by
  unfold State.loseMemory
  iterate 24 all_goals try (first
    | with_reducible exact Only.refl
    | with_reducible assumption
    | decide
    | dsimp only [id]
    | simp only [OnlyMk.mark]
    | ((with_reducible refine OnlyMk.of ?_ ?_); rotate_left; focus (intro p hp; cases p <;> first | exact absurd (by decide) hp | rfl | exact ⟨rfl, rfl⟩)))

theorem State.setRails_only (s : State) (f : Rails → Rails) :
    Only [.board] s (State.setRails s f) := by
  unfold State.setRails
  iterate 24 all_goals try (first
    | with_reducible exact Only.refl
    | with_reducible assumption
    | decide
    | dsimp only [id]
    | simp only [OnlyMk.mark]
    | ((with_reducible refine OnlyMk.of ?_ ?_); rotate_left; focus (intro p hp; cases p <;> first | exact absurd (by decide) hp | rfl | exact ⟨rfl, rfl⟩)))

theorem execShutdownRailDrop_only (s : State) (t : State) (hq : execShutdownRailDrop s = .next t) :
    Only [.board, .thermal, .mem, .cores, .kv] s t := by
  unfold execShutdownRailDrop at hq
  injection hq with hq
  subst hq
  iterate 24 all_goals try (first
    | with_reducible exact Only.refl
    | with_reducible assumption
    | decide
    | dsimp only [id]
    | with_reducible apply Only.after (State.setThermal_only ..)
    | with_reducible apply Only.after (State.setRails_only ..)
    | with_reducible apply Only.after (State.loseMemory_only ..)
    | with_reducible intro _
    | split)

theorem execShutdownPortDrop_only (s : State) (t : State) (hq : execShutdownPortDrop s = .next t) :
    Only [.board, .claims, .intakes, .ports, .ics, .sealed, .commands, .power, .mem, .far, .links, .seam, .events, .trust] s t := by
  unfold execShutdownPortDrop at hq
  injection hq with hq
  subst hq
  iterate 24 all_goals try (first
    | with_reducible exact Only.refl
    | with_reducible assumption
    | decide
    | dsimp only [id]
    | with_reducible apply Only.after (State.resetPort_only ..)
    | with_reducible apply Only.after (State.setRails_only ..)
    | with_reducible refine Only.foldl _ ?_ ?_
    | with_reducible refine Only.foldlPair ?_ ?_
    | with_reducible refine Only.foldlPair' (by assumption) ?_ ?_
    | simp only [OnlyMk.mark]
    | ((with_reducible refine OnlyMk.of ?_ ?_); rotate_left; focus (intro p hp; cases p <;> first | exact absurd (by decide) hp | rfl | exact ⟨rfl, rfl⟩))
    | with_reducible intro _
    | split)

theorem State.judge_only (s : State) :
    Only [.lantern, .claims, .intakes, .ics, .sealed, .commands, .power, .thermal, .links, .seam, .events, .out, .free] s (State.judge s) := by
  unfold State.judge
  iterate 24 all_goals try (first
    | with_reducible exact Only.refl
    | with_reducible assumption
    | decide
    | dsimp only [id]
    | with_reducible apply Only.after (State.setThermal_only ..)
    | with_reducible apply Only.after (State.tell_only ..)
    | with_reducible apply Only.after (State.raiseFast_only ..)
    | with_reducible apply Only.after (State.shutdown_only ..)
    | with_reducible refine Only.foldl _ ?_ ?_
    | with_reducible refine Only.foldlPair ?_ ?_
    | with_reducible refine Only.foldlPair' (by assumption) ?_ ?_
    | with_reducible intro _
    | split)

theorem State.takeReading_only (s : State) (i : Nat) (v : Option ℤ) :
    Only [.thermal] s (State.takeReading s i v) := by
  unfold State.takeReading
  iterate 24 all_goals try (first
    | with_reducible exact Only.refl
    | with_reducible assumption
    | decide
    | dsimp only [id]
    | with_reducible apply Only.after (State.setThermal_only ..))

theorem State.judgeSensor_only (s : State) (i : Nat) :
    Only [.thermal, .events] s (State.judgeSensor s i) := by
  unfold State.judgeSensor
  iterate 24 all_goals try (first
    | with_reducible exact Only.refl
    | with_reducible assumption
    | decide
    | dsimp only [id]
    | with_reducible apply Only.after (State.postArgs_only ..)
    | with_reducible apply Only.after (State.setThermal_only ..)
    | with_reducible intro _
    | split)

theorem State.trackDisagree_only (s : State) (point : Nat) :
    Only [.thermal] s (State.trackDisagree s point) := by
  unfold State.trackDisagree
  iterate 24 all_goals try (first
    | with_reducible exact Only.refl
    | with_reducible assumption
    | decide
    | dsimp only [id]
    | with_reducible apply Only.after (State.setThermal_only ..))

theorem State.takeSite_only (s : State) (r : SensorReading) :
    Only [.thermal, .events] s (State.takeSite s r) := by
  unfold State.takeSite
  iterate 24 all_goals try (first
    | with_reducible exact Only.refl
    | with_reducible assumption
    | decide
    | dsimp only [id]
    | with_reducible apply Only.after (State.trackDisagree_only ..)
    | with_reducible apply Only.after (State.judgeSensor_only ..)
    | with_reducible apply Only.after (State.takeReading_only ..)
    | with_reducible intro _
    | split)

theorem State.judgeBlind_only (s : State) :
    Only [.thermal] s (State.judgeBlind s) := by
  unfold State.judgeBlind
  iterate 24 all_goals try (first
    | with_reducible exact Only.refl
    | with_reducible assumption
    | decide
    | dsimp only [id]
    | with_reducible apply Only.after (State.setThermal_only ..))

theorem State.serHeat_only (s : State) (half : Fin 2) :
    Only [.board, .claims, .intakes, .ports, .ics, .sealed, .commands, .power, .mem, .links, .events, .trust] s (State.serHeat s half) := by
  unfold State.serHeat
  iterate 24 all_goals try (first
    | with_reducible exact Only.refl
    | with_reducible assumption
    | decide
    | dsimp only [id]
    | with_reducible apply Only.after (State.resetPort_only ..)
    | simp only [OnlyMk.mark]
    | ((with_reducible refine OnlyMk.of ?_ ?_); rotate_left; focus (intro p hp; cases p <;> first | exact absurd (by decide) hp | rfl | exact ⟨rfl, rfl⟩))
    | with_reducible intro _
    | split)

theorem execSensorSample_only (readings : List SensorReading) (s : State) (t : State) (hq : execSensorSample readings s = .next t) :
    Only [.board, .lantern, .lsChanges, .claims, .intakes, .ports, .ics, .sealed, .commands, .power, .thermal, .mem, .hostMem, .links, .seam, .events, .trust, .i3c, .out, .free] s t := by
  unfold execSensorSample at hq
  injection hq with hq
  subst hq
  iterate 24 all_goals try (first
    | with_reducible exact Only.refl
    | with_reducible assumption
    | decide
    | dsimp only [id]
    | with_reducible apply Only.after (State.setThermal_only ..)
    | with_reducible apply Only.after (State.takeSite_only ..)
    | with_reducible apply Only.after (State.serHeat_only ..)
    | with_reducible apply Only.after (settle_only ..)
    | with_reducible apply Only.after (State.judge_only ..)
    | with_reducible apply Only.after (State.judgeBlind_only ..)
    | with_reducible refine Only.foldl _ ?_ ?_
    | with_reducible refine Only.foldlPair ?_ ?_
    | with_reducible refine Only.foldlPair' (by assumption) ?_ ?_
    | with_reducible intro _
    | split)

theorem execSensorDisagree_only (tower : Fin 16) (layer : Fin 10) (site : Fin 72) (s : State) (t : State) (hq : execSensorDisagree tower layer site s = .next t) :
    Only [.thermal, .events] s t := by
  unfold execSensorDisagree at hq
  injection hq with hq
  subst hq
  iterate 24 all_goals try (first
    | with_reducible exact Only.refl
    | with_reducible assumption
    | decide
    | dsimp only [id]
    | with_reducible apply Only.after (State.postArgs_only ..)
    | with_reducible apply Only.after (State.setThermal_only ..)
    | with_reducible intro _
    | split)

theorem execSensorDisagreeClear_only (s : State) (t : State) (hq : execSensorDisagreeClear s = .next t) :
    Only [.thermal] s t := by
  unfold execSensorDisagreeClear at hq
  injection hq with hq
  subst hq
  iterate 24 all_goals try (first
    | with_reducible exact Only.refl
    | with_reducible assumption
    | decide
    | dsimp only [id]
    | with_reducible apply Only.after (State.setThermal_only ..)
    | with_reducible intro _
    | split)

theorem State.updateEstimates_only (s : State) (tower : Nat) :
    Only [.thermal, .free] s (State.updateEstimates s tower) := by
  unfold State.updateEstimates
  iterate 24 all_goals try (first
    | with_reducible exact Only.refl
    | with_reducible assumption
    | decide
    | dsimp only [id]
    | with_reducible refine Only.after (State.drawIf_only (by assumption)) (by decide) ?_
    | with_reducible apply Only.after (State.drawMany_only ..)
    | with_reducible refine Only.after (State.drawMany_only' (hq := by assumption)) (by decide) ?_
    | with_reducible apply Only.after (State.setThermal_only ..))

theorem execEstimatorUpdate_only (tower : Fin 16) (s : State) (t : State) (hq : execEstimatorUpdate tower s = .next t) :
    Only [.lantern, .lsChanges, .claims, .intakes, .ports, .ics, .sealed, .commands, .power, .thermal, .hostMem, .links, .seam, .events, .i3c, .out, .free] s t := by
  unfold execEstimatorUpdate at hq
  injection hq with hq
  subst hq
  iterate 24 all_goals try (first
    | with_reducible exact Only.refl
    | with_reducible assumption
    | decide
    | dsimp only [id]
    | with_reducible apply Only.after (settle_only ..)
    | with_reducible apply Only.after (State.judge_only ..)
    | with_reducible apply Only.after (State.updateEstimates_only ..)
    | with_reducible intro _
    | split)

theorem execThrottleStep_only (s : State) (t : State) (hq : execThrottleStep s = .next t) :
    Only [.thermal] s t := by
  unfold execThrottleStep at hq
  injection hq with hq
  subst hq
  iterate 24 all_goals try (first
    | with_reducible exact Only.refl
    | with_reducible assumption
    | decide
    | dsimp only [id]
    | with_reducible apply Only.after (State.setThermal_only ..)
    | with_reducible intro _
    | split)

theorem execCoolantConfig_only (ctrl : Fin 4) (slot : Fin 1024) (s : State) (t : State) (hq : execCoolantConfig ctrl slot s = .next t) :
    Only [.intakes, .ics, .sealed, .commands, .mem, .events, .trust] s t := by
  unfold execCoolantConfig at hq
  injection hq with hq
  subst hq
  iterate 24 all_goals try (first
    | with_reducible exact Only.refl
    | with_reducible assumption
    | decide
    | dsimp only [id]
    | with_reducible refine State.serve_only ?_ (by decide) ?_
    | with_reducible refine Adm.checked_only ?_ (by decide) ?_
    | with_reducible apply Only.after (Adm.defer_only ..)
    | with_reducible intro _)

theorem execSensorDemote_only (ctrl : Fin 4) (slot : Fin 1024) (s : State) (t : State) (hq : execSensorDemote ctrl slot s = .next t) :
    Only [.settings, .intakes, .ics, .sealed, .commands, .mem, .events, .trust] s t := by
  unfold execSensorDemote at hq
  injection hq with hq
  subst hq
  iterate 24 all_goals try (first
    | with_reducible exact Only.refl
    | with_reducible assumption
    | decide
    | dsimp only [id]
    | with_reducible refine State.serve_only ?_ (by decide) ?_
    | with_reducible refine Adm.checked_only ?_ (by decide) ?_
    | with_reducible apply Only.after (Adm.done_only ..)
    | with_reducible apply Only.after (State.setSettings_only ..)
    | with_reducible refine Only.foldl _ ?_ ?_
    | with_reducible refine Only.foldlPair ?_ ?_
    | with_reducible refine Only.foldlPair' (by assumption) ?_ ?_
    | with_reducible intro _)

theorem execSensorRestore_only (ctrl : Fin 4) (slot : Fin 1024) (s : State) (t : State) (hq : execSensorRestore ctrl slot s = .next t) :
    Only [.settings, .intakes, .ics, .sealed, .commands, .thermal, .mem, .events, .trust] s t := by
  unfold execSensorRestore at hq
  injection hq with hq
  subst hq
  iterate 24 all_goals try (first
    | with_reducible exact Only.refl
    | with_reducible assumption
    | decide
    | dsimp only [id]
    | with_reducible refine State.serve_only ?_ (by decide) ?_
    | with_reducible refine Adm.checked_only ?_ (by decide) ?_
    | with_reducible apply Only.after (Adm.done_only ..)
    | with_reducible apply Only.after (State.setThermal_only ..)
    | with_reducible apply Only.after (State.setSettings_only ..)
    | with_reducible refine Only.foldl _ ?_ ?_
    | with_reducible refine Only.foldlPair ?_ ?_
    | with_reducible refine Only.foldlPair' (by assumption) ?_ ?_
    | with_reducible intro _)

theorem execSwingLimitSet_only (ctrl : Fin 4) (slot : Fin 1024) (s : State) (t : State) (hq : execSwingLimitSet ctrl slot s = .next t) :
    Only [.intakes, .ics, .sealed, .commands, .thermal, .mem, .events, .trust] s t := by
  unfold execSwingLimitSet at hq
  injection hq with hq
  subst hq
  iterate 24 all_goals try (first
    | with_reducible exact Only.refl
    | with_reducible assumption
    | decide
    | dsimp only [id]
    | with_reducible refine State.serve_only ?_ (by decide) ?_
    | with_reducible refine Adm.checked_only ?_ (by decide) ?_
    | with_reducible apply Only.after (Adm.done_only ..)
    | with_reducible apply Only.after (State.setThermal_only ..)
    | with_reducible intro _)

theorem execThermalRead_only (ctrl : Fin 4) (slot : Fin 1024) (s : State) (t : State) (hq : execThermalRead ctrl slot s = .next t) :
    Only [.intakes, .ports, .ics, .sealed, .commands, .mem, .hostMem, .events, .trust, .out] s t := by
  unfold execThermalRead at hq
  injection hq with hq
  subst hq
  iterate 24 all_goals try (first
    | with_reducible exact Only.refl
    | with_reducible assumption
    | decide
    | dsimp only [id]
    | with_reducible refine State.serve_only ?_ (by decide) ?_
    | with_reducible refine Adm.checked_only ?_ (by decide) ?_
    | with_reducible apply Only.after (Adm.finish_only ..)
    | with_reducible apply Only.after (Adm.copyOut_only ..)
    | with_reducible intro _
    | split)

theorem State.clearLatch_only (s : State) :
    Only [.thermal, .events] s (State.clearLatch s) := by
  unfold State.clearLatch
  iterate 24 all_goals try (first
    | with_reducible exact Only.refl
    | with_reducible assumption
    | decide
    | dsimp only [id]
    | simp only [OnlyMk.mark]
    | ((with_reducible refine OnlyMk.of ?_ ?_); rotate_left; focus (intro p hp; cases p <;> first | exact absurd (by decide) hp | rfl | exact ⟨rfl, rfl⟩)))

theorem execThermalClear_only (ctrl : Fin 4) (slot : Fin 1024) (s : State) (t : State) (hq : execThermalClear ctrl slot s = .next t) :
    Only [.lantern, .lsChanges, .intakes, .ports, .ics, .sealed, .commands, .thermal, .mem, .hostMem, .events, .trust, .i3c, .out] s t := by
  unfold execThermalClear at hq
  injection hq with hq
  subst hq
  iterate 24 all_goals try (first
    | with_reducible exact Only.refl
    | with_reducible assumption
    | decide
    | dsimp only [id]
    | with_reducible apply Only.after (settle_only ..)
    | with_reducible refine State.serve_only ?_ (by decide) ?_
    | with_reducible refine Adm.checked_only ?_ (by decide) ?_
    | with_reducible apply Only.after (State.postArgs_only ..)
    | with_reducible apply Only.after (State.clearLatch_only ..)
    | with_reducible apply Only.after (Adm.done_only ..)
    | simp only [OnlyMk.mark]
    | ((with_reducible refine OnlyMk.of ?_ ?_); rotate_left; focus (intro p hp; cases p <;> first | exact absurd (by decide) hp | rfl | exact ⟨rfl, rfl⟩))
    | with_reducible intro _)

/-! ## Machine/Defects.lean -/

theorem State.resolveIdx_only (s : State) (t : Nat) (taken : List Nat) (x1 : Nat) :
    Only [.geo, .events] s (State.resolveIdx s t taken x1) := by
  fun_induction State.resolveIdx s t taken x1
  iterate 24 all_goals try (first
    | with_reducible exact Only.refl
    | with_reducible assumption
    | decide
    | dsimp only [id]
    | with_reducible apply Only.after (State.appendOverlay_only ..)
    | with_reducible refine Only.trans ?_ (by assumption)
    | simp only [OnlyMk.mark]
    | ((with_reducible refine OnlyMk.of ?_ ?_); rotate_left; focus (intro p hp; cases p <;> first | exact absurd (by decide) hp | rfl | exact ⟨rfl, rfl⟩)))

theorem State.resolveSites_only (s : State) :
    Only [.geo, .events] s (State.resolveSites s) := by
  unfold State.resolveSites
  iterate 24 all_goals try (first
    | with_reducible exact Only.refl
    | with_reducible assumption
    | decide
    | dsimp only [id]
    | with_reducible apply Only.after (State.resolveIdx_only ..)
    | with_reducible refine Only.foldl _ ?_ ?_
    | with_reducible refine Only.foldlPair ?_ ?_
    | with_reducible refine Only.foldlPair' (by assumption) ?_ ?_
    | with_reducible intro _)

theorem State.applySite_only (s : State) (p : Nat) :
    Only [.mem, .cores] s (State.applySite s p) := by
  unfold State.applySite
  iterate 24 all_goals try (first
    | with_reducible exact Only.refl
    | with_reducible assumption
    | decide
    | dsimp only [id]
    | with_reducible apply Only.after (State.setCore_only ..)
    | with_reducible apply Only.after (State.setVault_only ..)
    | with_reducible refine Only.foldl _ ?_ ?_
    | with_reducible refine Only.foldlPair ?_ ?_
    | with_reducible refine Only.foldlPair' (by assumption) ?_ ?_
    | with_reducible intro _
    | split)

theorem State.applySites_only (s : State) :
    Only [.mem, .cores] s (State.applySites s) := by
  unfold State.applySites
  iterate 24 all_goals try (first
    | with_reducible exact Only.refl
    | with_reducible assumption
    | decide
    | dsimp only [id]
    | with_reducible apply Only.after (State.applySite_only ..)
    | with_reducible refine Only.foldl _ ?_ ?_
    | with_reducible refine Only.foldlPair ?_ ?_
    | with_reducible refine Only.foldlPair' (by assumption) ?_ ?_
    | with_reducible intro _
    | split)

theorem State.retireSite_only (s : State) (p : Nat) (cause : Nat) :
    Only [.geo, .events] s (State.retireSite s p cause) := by
  unfold State.retireSite
  iterate 24 all_goals try (first
    | with_reducible exact Only.refl
    | with_reducible assumption
    | decide
    | dsimp only [id]
    | with_reducible apply Only.after (State.appendOverlay_only ..)
    | with_reducible intro _
    | split)

theorem State.repairRow_only (s : State) (r : RowFault) :
    Only [.geo, .ics, .mem, .events] s (State.repairRow s r) := by
  unfold State.repairRow
  iterate 24 all_goals try (first
    | with_reducible exact Only.refl
    | with_reducible assumption
    | decide
    | dsimp only [id]
    | with_reducible apply Only.after (State.appendOverlay_only ..)
    | with_reducible apply Only.after (State.addLog_only ..)
    | with_reducible intro _
    | split)

theorem State.addCell_only (s : State) (c : CoreFail) :
    Only [.geo, .events] s (State.addCell s c) := by
  unfold State.addCell
  iterate 24 all_goals try (first
    | with_reducible exact Only.refl
    | with_reducible assumption
    | decide
    | dsimp only [id]
    | with_reducible apply Only.after (State.appendOverlay_only ..)
    | with_reducible intro _
    | split)

theorem State.retireNarrow_only (s : State) :
    Only [.geo, .events] s (State.retireNarrow s) := by
  unfold State.retireNarrow
  iterate 24 all_goals try (first
    | with_reducible exact Only.refl
    | with_reducible assumption
    | decide
    | dsimp only [id]
    | with_reducible apply Only.after (State.retireSite_only ..)
    | with_reducible refine Only.foldl _ ?_ ?_
    | with_reducible refine Only.foldlPair ?_ ?_
    | with_reducible refine Only.foldlPair' (by assumption) ?_ ?_
    | with_reducible intro _
    | split)

/-! ## Machine/Pitch.lean -/

theorem State.kept_only (s : State) (cold : Bool) :
    Only [.board, .lantern, .lsChanges, .geo, .own, .claims, .ownPorts, .intakes, .ports, .ics, .wdogs, .sealed, .bmcFifo, .commands, .rations, .time, .power, .thermal, .mem, .far, .cores, .kv, .links, .seam, .cv, .events, .trust, .i3c, .run] s (State.kept s cold) := by
  unfold State.kept
  iterate 24 all_goals try (first
    | with_reducible exact Only.refl
    | with_reducible assumption
    | decide
    | dsimp only [id]
    | simp only [OnlyMk.mark]
    | ((with_reducible refine OnlyMk.of ?_ ?_); rotate_left; focus (intro p hp; cases p <;> first | exact absurd (by decide) hp | rfl | exact ⟨rfl, rfl⟩)))

theorem State.toStage_only (s : State) (n : Nat) :
    Only [.lantern, .lsChanges] s (State.toStage s n) := by
  unfold State.toStage
  iterate 24 all_goals try (first
    | with_reducible exact Only.refl
    | with_reducible assumption
    | decide
    | dsimp only [id]
    | with_reducible apply Only.after (State.setLantern_only ..))

theorem State.takeMode_only (s : State) :
    Only [.geo] s (State.takeMode s) := by
  unfold State.takeMode
  iterate 24 all_goals try (first
    | with_reducible exact Only.refl
    | with_reducible assumption
    | decide
    | dsimp only [id]
    | simp only [OnlyMk.mark]
    | ((with_reducible refine OnlyMk.of ?_ ?_); rotate_left; focus (intro p hp; cases p <;> first | exact absurd (by decide) hp | rfl | exact ⟨rfl, rfl⟩)))

theorem State.enterStage2_only (s : State) :
    Only [.board, .lantern, .lsChanges, .geo, .time] s (State.enterStage2 s) := by
  unfold State.enterStage2
  iterate 24 all_goals try (first
    | with_reducible exact Only.refl
    | with_reducible assumption
    | decide
    | dsimp only [id]
    | with_reducible apply Only.after (State.takeMode_only ..)
    | with_reducible apply Only.after (State.toStage_only ..)
    | with_reducible apply Only.after (State.setRails_only ..)
    | simp only [OnlyMk.mark]
    | ((with_reducible refine OnlyMk.of ?_ ?_); rotate_left; focus (intro p hp; cases p <;> first | exact absurd (by decide) hp | rfl | exact ⟨rfl, rfl⟩)))

theorem State.startWarm_only (s : State) (full : Bool) (both : Bool) :
    Only [.board, .lantern, .lsChanges, .geo, .own, .claims, .ownPorts, .intakes, .ports, .ics, .wdogs, .sealed, .bmcFifo, .commands, .rations, .time, .power, .thermal, .mem, .far, .cores, .kv, .links, .seam, .cv, .events, .trust, .i3c, .run] s (State.startWarm s full both) := by
  unfold State.startWarm
  iterate 24 all_goals try (first
    | with_reducible exact Only.refl
    | with_reducible assumption
    | decide
    | dsimp only [id]
    | with_reducible apply Only.after (State.enterStage2_only ..)
    | with_reducible apply Only.after (State.setRails_only ..)
    | with_reducible apply Only.after (State.setLantern_only ..)
    | with_reducible apply Only.after (State.kept_only ..)
    | with_reducible apply Only.after (State.persistWear_only ..))

theorem State.startCold_only (s : State) (full : Bool) (both : Bool) :
    Only [.board, .lantern, .lsChanges, .geo, .own, .claims, .ownPorts, .intakes, .ports, .ics, .wdogs, .sealed, .bmcFifo, .commands, .rations, .time, .power, .thermal, .mem, .far, .cores, .kv, .links, .seam, .cv, .events, .trust, .i3c, .run] s (State.startCold s full both) := by
  unfold State.startCold
  iterate 24 all_goals try (first
    | with_reducible exact Only.refl
    | with_reducible assumption
    | decide
    | dsimp only [id]
    | with_reducible apply Only.after (State.toStage_only ..)
    | with_reducible apply Only.after (State.setRails_only ..)
    | with_reducible apply Only.after (State.setLantern_only ..)
    | with_reducible apply Only.after (State.kept_only ..))

theorem State.dropForCold_only (s : State) (full : Bool) :
    Only [.board, .lantern, .lsChanges, .geo, .own, .claims, .ownPorts, .intakes, .ports, .ics, .wdogs, .sealed, .bmcFifo, .commands, .rations, .time, .power, .thermal, .mem, .far, .cores, .kv, .links, .seam, .cv, .events, .trust, .i3c, .run] s (State.dropForCold s full) := by
  unfold State.dropForCold
  iterate 24 all_goals try (first
    | with_reducible exact Only.refl
    | with_reducible assumption
    | decide
    | dsimp only [id]
    | with_reducible apply Only.after (State.toStage_only ..)
    | with_reducible apply Only.after (State.setRails_only ..)
    | with_reducible apply Only.after (State.setLantern_only ..)
    | with_reducible apply Only.after (State.kept_only ..)
    | with_reducible apply Only.after (State.persistWear_only ..))

theorem State.askReset_only (s : State) (kind : Nat) (full : Bool) (tag : Option Nat) :
    Only [.lantern, .lsChanges] s (State.askReset s kind full tag) := by
  unfold State.askReset
  iterate 24 all_goals try (first
    | with_reducible exact Only.refl
    | with_reducible assumption
    | decide
    | dsimp only [id]
    | with_reducible apply Only.after (State.setLantern_only ..)
    | with_reducible intro _
    | split)

theorem State.strikeForPitch_only (s : State) (full : Bool) :
    Only [.lantern, .lsChanges, .claims, .intakes, .ics, .sealed, .commands, .power, .links, .free] s (State.strikeForPitch s full) := by
  unfold State.strikeForPitch
  iterate 24 all_goals try (first
    | with_reducible exact Only.refl
    | with_reducible assumption
    | decide
    | dsimp only [id]
    | with_reducible apply Only.after (State.draw_only ..)
    | with_reducible refine Only.after (State.draw_only' (hq := by assumption)) (by decide) ?_
    | with_reducible apply Only.after (State.askReset_only ..)
    | with_reducible apply Only.after (State.strikeEverything_only ..))

theorem State.endTrial_only (s : State) (cause : Nat) :
    Only [.settings, .seam, .events, .trust, .out] s (State.endTrial s cause) := by
  unfold State.endTrial
  iterate 24 all_goals try (first
    | with_reducible exact Only.refl
    | with_reducible assumption
    | decide
    | dsimp only [id]
    | with_reducible apply Only.after (State.tell_only ..)
    | with_reducible apply Only.after (State.postArgs_only ..)
    | simp only [OnlyMk.mark]
    | ((with_reducible refine OnlyMk.of ?_ ?_); rotate_left; focus (intro p hp; cases p <;> first | exact absurd (by decide) hp | rfl | exact ⟨rfl, rfl⟩))
    | with_reducible intro _
    | split)

theorem State.failTrial_only (s : State) (cause : Nat) :
    Only [.settings, .lantern, .lsChanges, .claims, .intakes, .ics, .sealed, .commands, .power, .links, .seam, .events, .trust, .out, .free] s (State.failTrial s cause) := by
  unfold State.failTrial
  iterate 24 all_goals try (first
    | with_reducible exact Only.refl
    | with_reducible assumption
    | decide
    | dsimp only [id]
    | with_reducible apply Only.after (State.strikeForPitch_only ..)
    | with_reducible apply Only.after (State.setTrust_only ..)
    | with_reducible apply Only.after (State.endTrial_only ..)
    | with_reducible intro _
    | split)

theorem State.halt_only (s : State) (cause : Nat) :
    Only [.settings, .lantern, .lsChanges, .claims, .intakes, .ics, .sealed, .commands, .power, .links, .seam, .events, .trust, .out, .free] s (State.halt s cause) := by
  unfold State.halt
  iterate 24 all_goals try (first
    | with_reducible exact Only.refl
    | with_reducible assumption
    | decide
    | dsimp only [id]
    | with_reducible apply Only.after (State.postArgs_only ..)
    | with_reducible apply Only.after (State.toStage_only ..)
    | with_reducible apply Only.after (State.setLantern_only ..)
    | with_reducible apply Only.after (State.failTrial_only ..)
    | with_reducible intro _
    | split)

theorem State.endRails_only (s : State) (retentionOk : Bool) :
    Only [.board, .lantern, .lsChanges, .geo, .time, .events] s (State.endRails s retentionOk) := by
  unfold State.endRails
  iterate 24 all_goals try (first
    | with_reducible exact Only.refl
    | with_reducible assumption
    | decide
    | dsimp only [id]
    | with_reducible apply Only.after (State.postArgs_only ..)
    | with_reducible apply Only.after (State.enterStage2_only ..)
    | simp only [OnlyMk.mark]
    | ((with_reducible refine OnlyMk.of ?_ ?_); rotate_left; focus (intro p hp; cases p <;> first | exact absurd (by decide) hp | rfl | exact ⟨rfl, rfl⟩))
    | with_reducible intro _
    | split)

theorem State.commitSlot_only (s : State) (b : Bool) (count : Nat) :
    Only [.fuses, .trust] s (State.commitSlot s b count) := by
  unfold State.commitSlot
  iterate 24 all_goals try (first
    | with_reducible exact Only.refl
    | with_reducible assumption
    | decide
    | dsimp only [id]
    | simp only [OnlyMk.mark]
    | ((with_reducible refine OnlyMk.of ?_ ?_); rotate_left; focus (intro p hp; cases p <;> first | exact absurd (by decide) hp | rfl | exact ⟨rfl, rfl⟩)))

theorem State.commit_only (s : State) (b : Bool) :
    Only [.fuses, .events, .trust] s (State.commit s b) := by
  unfold State.commit
  iterate 24 all_goals try (first
    | with_reducible exact Only.refl
    | with_reducible assumption
    | decide
    | dsimp only [id]
    | with_reducible apply Only.after (State.commitSlot_only ..)
    | with_reducible apply Only.after (State.postArgs_only ..)
    | simp only [OnlyMk.mark]
    | ((with_reducible refine OnlyMk.of ?_ ?_); rotate_left; focus (intro p hp; cases p <;> first | exact absurd (by decide) hp | rfl | exact ⟨rfl, rfl⟩))
    | with_reducible intro _
    | split)

theorem State.restoreArb_only (s : State) :
    Only [.events, .trust] s (State.restoreArb s) := by
  unfold State.restoreArb
  iterate 24 all_goals try (first
    | with_reducible exact Only.refl
    | with_reducible assumption
    | decide
    | dsimp only [id]
    | with_reducible apply Only.after (State.postArgs_only ..)
    | with_reducible apply Only.after (State.setTrust_only ..))

theorem State.settleCommits_only (s : State) (arbOk : Bool) :
    Only [.fuses, .events, .trust] s (State.settleCommits s arbOk) := by
  unfold State.settleCommits
  iterate 24 all_goals try (first
    | with_reducible exact Only.refl
    | with_reducible assumption
    | decide
    | dsimp only [id]
    | with_reducible apply Only.after (State.commitSlot_only ..)
    | with_reducible apply Only.after (State.restoreArb_only ..)
    | with_reducible intro _
    | split)

theorem State.decideQuick_only (s : State) :
    Only [.lantern, .lsChanges] s (State.decideQuick s) := by
  unfold State.decideQuick
  iterate 24 all_goals try (first
    | with_reducible exact Only.refl
    | with_reducible assumption
    | decide
    | dsimp only [id]
    | with_reducible apply Only.after (State.setLantern_only ..))

theorem State.gate_only (s : State) :
    Only [.lantern, .lsChanges] s (State.gate s) := by
  unfold State.gate
  iterate 24 all_goals try (first
    | with_reducible exact Only.refl
    | with_reducible assumption
    | decide
    | dsimp only [id]
    | with_reducible apply Only.after (State.toStage_only ..)
    | with_reducible apply Only.after (State.setLantern_only ..)
    | with_reducible intro _
    | split)

theorem State.leaveIdle_only (s : State) :
    Only [.lantern, .lsChanges, .trust] s (State.leaveIdle s) := by
  unfold State.leaveIdle
  iterate 24 all_goals try (first
    | with_reducible exact Only.refl
    | with_reducible assumption
    | decide
    | dsimp only [id]
    | with_reducible apply Only.after (State.toStage_only ..)
    | with_reducible apply Only.after (State.setTrust_only ..)
    | with_reducible apply Only.after (State.setLantern_only ..))

set_option maxHeartbeats 800000 in
theorem State.endStage2_only (s : State) (strapsW : Straps) (strapsE : Straps) (identityOk : Bool) (arbOk : Bool) (m0Mean : ℤ) :
    Only [.fuses, .settings, .board, .lantern, .lsChanges, .geo, .claims, .intakes, .ics, .sealed, .commands, .power, .far, .links, .seam, .events, .trust, .out, .free] s (State.endStage2 s strapsW strapsE identityOk arbOk m0Mean) := by
  unfold State.endStage2
  iterate 24 all_goals try (first
    | with_reducible exact Only.refl
    | with_reducible assumption
    | decide
    | dsimp only [id]
    | with_reducible apply Only.after (State.takeMode_only ..)
    | with_reducible apply Only.after (State.endTrial_only ..)
    | with_reducible apply Only.after (State.settleCommits_only ..)
    | with_reducible apply Only.after (State.postSecurity_only ..)
    | with_reducible apply Only.after (State.halt_only ..)
    | with_reducible apply Only.after (State.decideQuick_only ..)
    | with_reducible apply Only.after (State.gate_only ..)
    | simp only [OnlyMk.mark]
    | ((with_reducible refine OnlyMk.of ?_ ?_); rotate_left; focus (intro p hp; cases p <;> first | exact absurd (by decide) hp | rfl | exact ⟨rfl, rfl⟩))
    | with_reducible intro _
    | split)

theorem State.slotFails_only (s : State) (b : Bool) :
    Only [.events, .trust, .free] s (State.slotFails s b) := by
  unfold State.slotFails
  iterate 24 all_goals try (first
    | with_reducible exact Only.refl
    | with_reducible assumption
    | decide
    | dsimp only [id]
    | with_reducible apply Only.after (State.draw_only ..)
    | with_reducible refine Only.after (State.draw_only' (hq := by assumption)) (by decide) ?_
    | with_reducible apply Only.after (State.postArgs_only ..)
    | with_reducible apply Only.after (State.setTrust_only ..))

theorem State.switchFormat_only (s : State) (fmt : BitVec 16) :
    Only [.settings, .links, .events, .trust] s (State.switchFormat s fmt) := by
  unfold State.switchFormat
  iterate 24 all_goals try (first
    | with_reducible exact Only.refl
    | with_reducible assumption
    | decide
    | dsimp only [id]
    | with_reducible apply Only.after (State.postArgs_only ..)
    | simp only [OnlyMk.mark]
    | ((with_reducible refine OnlyMk.of ?_ ?_); rotate_left; focus (intro p hp; cases p <;> first | exact absurd (by decide) hp | rfl | exact ⟨rfl, rfl⟩))
    | with_reducible intro _
    | split)

theorem State.bootSlot_only (s : State) (b : Bool) (st : FwState) :
    Only [.ics, .wdogs, .rations, .trust] s (State.bootSlot s b st) := by
  unfold State.bootSlot
  iterate 24 all_goals try (first
    | with_reducible exact Only.refl
    | with_reducible assumption
    | decide
    | dsimp only [id]
    | with_reducible apply Only.after (State.setWdog_only ..)
    | with_reducible apply Only.after (State.setIc_only ..)
    | with_reducible refine Only.foldl _ ?_ ?_
    | with_reducible refine Only.foldlPair ?_ ?_
    | with_reducible refine Only.foldlPair' (by assumption) ?_ ?_
    | simp only [OnlyMk.mark]
    | ((with_reducible refine OnlyMk.of ?_ ?_); rotate_left; focus (intro p hp; cases p <;> first | exact absurd (by decide) hp | rfl | exact ⟨rfl, rfl⟩))
    | with_reducible intro _)

theorem State.tryPending_only (s : State) (okA : Bool) (okB : Bool) :
    Only [.settings, .ics, .wdogs, .rations, .links, .events, .trust, .free] s (State.tryPending s okA okB).1 := by
  unfold State.tryPending
  iterate 24 all_goals try (first
    | with_reducible exact Only.refl
    | with_reducible assumption
    | decide
    | dsimp only [id]
    | with_reducible apply Only.after (State.switchFormat_only ..)
    | with_reducible apply Only.after (State.setTrust_only ..)
    | with_reducible apply Only.after (State.bootSlot_only ..)
    | with_reducible apply Only.after (State.postArgs_only ..)
    | with_reducible apply Only.after (State.slotFails_only ..)
    | with_reducible intro _
    | split)

theorem State.tryPending_only' {s : State} {okA : Bool} {okB : Bool} {r0 : _} {t0 : State} (hq : State.tryPending s okA okB = (t0, r0)) :
    Only [.settings, .ics, .wdogs, .rations, .links, .events, .trust, .free] s t0 := by
  have gq := State.tryPending_only s okA okB
  rw [hq] at gq
  exact gq

theorem State.tryCommitted_only (s : State) (okA : Bool) (okB : Bool) :
    Only [.ics, .wdogs, .rations, .events, .trust, .free] s (State.tryCommitted s okA okB).1 := by
  unfold State.tryCommitted
  iterate 24 all_goals try (first
    | with_reducible exact Only.refl
    | with_reducible assumption
    | decide
    | dsimp only [id]
    | with_reducible apply Only.after (State.slotFails_only ..)
    | with_reducible apply Only.after (State.bootSlot_only ..)
    | with_reducible intro _
    | split)

theorem State.tryCommitted_only' {s : State} {okA : Bool} {okB : Bool} {r0 : _} {t0 : State} (hq : State.tryCommitted s okA okB = (t0, r0)) :
    Only [.ics, .wdogs, .rations, .events, .trust, .free] s t0 := by
  have gq := State.tryCommitted_only s okA okB
  rw [hq] at gq
  exact gq

theorem State.enterStage4_only (s : State) :
    Only [.lantern, .lsChanges, .seam, .out] s (State.enterStage4 s) := by
  unfold State.enterStage4
  iterate 24 all_goals try (first
    | with_reducible exact Only.refl
    | with_reducible assumption
    | decide
    | dsimp only [id]
    | with_reducible apply Only.after (State.toStage_only ..)
    | with_reducible apply Only.after (State.emit_only ..)
    | simp only [OnlyMk.mark]
    | ((with_reducible refine OnlyMk.of ?_ ?_); rotate_left; focus (intro p hp; cases p <;> first | exact absurd (by decide) hp | rfl | exact ⟨rfl, rfl⟩)))

theorem State.endStage3_only (s : State) (okA : Bool) (okB : Bool) :
    Only [.settings, .lantern, .lsChanges, .claims, .intakes, .ics, .wdogs, .sealed, .commands, .rations, .power, .links, .seam, .events, .trust, .out, .free] s (State.endStage3 s okA okB) := by
  unfold State.endStage3
  iterate 24 all_goals try (first
    | with_reducible exact Only.refl
    | with_reducible assumption
    | decide
    | dsimp only [id]
    | with_reducible apply Only.after (State.tryPending_only ..)
    | with_reducible refine Only.after (State.tryPending_only' (hq := by assumption)) (by decide) ?_
    | with_reducible apply Only.after (State.tryCommitted_only ..)
    | with_reducible refine Only.after (State.tryCommitted_only' (hq := by assumption)) (by decide) ?_
    | with_reducible apply Only.after (State.halt_only ..)
    | with_reducible apply Only.after (State.setTrust_only ..)
    | with_reducible apply Only.after (State.postArgs_only ..)
    | with_reducible apply Only.after (State.setLantern_only ..)
    | with_reducible apply Only.after (State.enterStage4_only ..)
    | with_reducible intro _
    | split)

theorem State.forwardHe_only (s : State) :
    Only [.lantern, .sealed] s (State.forwardHe s) := by
  unfold State.forwardHe
  iterate 24 all_goals try (first
    | with_reducible exact Only.refl
    | with_reducible assumption
    | decide
    | dsimp only [id]
    | simp only [OnlyMk.mark]
    | ((with_reducible refine OnlyMk.of ?_ ?_); rotate_left; focus (intro p hp; cases p <;> first | exact absurd (by decide) hp | rfl | exact ⟨rfl, rfl⟩))
    | with_reducible intro _
    | split)

theorem State.trainSeam_only (s : State) (trained : List (Fin 16)) :
    Only [.seam] s (State.trainSeam s trained) := by
  unfold State.trainSeam
  iterate 24 all_goals try (first
    | with_reducible exact Only.refl
    | with_reducible assumption
    | decide
    | dsimp only [id]
    | simp only [OnlyMk.mark]
    | ((with_reducible refine OnlyMk.of ?_ ?_); rotate_left; focus (intro p hp; cases p <;> first | exact absurd (by decide) hp | rfl | exact ⟨rfl, rfl⟩)))

theorem State.takeRole_only (s : State) (answering : List (Fin 16)) :
    Only [.geo] s (State.takeRole s answering) := by
  unfold State.takeRole
  iterate 24 all_goals try (first
    | with_reducible exact Only.refl
    | with_reducible assumption
    | decide
    | dsimp only [id]
    | simp only [OnlyMk.mark]
    | ((with_reducible refine OnlyMk.of ?_ ?_); rotate_left; focus (intro p hp; cases p <;> first | exact absurd (by decide) hp | rfl | exact ⟨rfl, rfl⟩))
    | with_reducible intro _
    | split)

theorem State.goAlone_only (s : State) :
    Only [.lantern, .lsChanges, .geo] s (State.goAlone s) := by
  unfold State.goAlone
  iterate 24 all_goals try (first
    | with_reducible exact Only.refl
    | with_reducible assumption
    | decide
    | dsimp only [id]
    | with_reducible apply Only.after (State.setLantern_only ..)
    | simp only [OnlyMk.mark]
    | ((with_reducible refine OnlyMk.of ?_ ?_); rotate_left; focus (intro p hp; cases p <;> first | exact absurd (by decide) hp | rfl | exact ⟨rfl, rfl⟩))
    | with_reducible intro _
    | split)

theorem State.enterStage5_only (s : State) :
    Only [.board, .lantern, .lsChanges, .thermal, .far] s (State.enterStage5 s) := by
  unfold State.enterStage5
  iterate 24 all_goals try (first
    | with_reducible exact Only.refl
    | with_reducible assumption
    | decide
    | dsimp only [id]
    | with_reducible apply Only.after (State.toStage_only ..)
    | with_reducible apply Only.after (State.setThermal_only ..)
    | with_reducible apply Only.after (State.setFar_only ..)
    | with_reducible apply Only.after (State.setRails_only ..)
    | with_reducible apply Only.after (State.setLantern_only ..))

theorem State.missed_only (s : State) (bit : Nat) (ok : Bool) :
    Only [.lantern, .lsChanges] s (State.missed s bit ok) := by
  unfold State.missed
  iterate 24 all_goals try (first
    | with_reducible exact Only.refl
    | with_reducible assumption
    | decide
    | dsimp only [id]
    | with_reducible apply Only.after (State.setLantern_only ..)
    | with_reducible intro _
    | split)

theorem State.quickPeer_only (s : State) :
    Only [.lantern, .lsChanges] s (State.quickPeer s) := by
  unfold State.quickPeer
  iterate 24 all_goals try (first
    | with_reducible exact Only.refl
    | with_reducible assumption
    | decide
    | dsimp only [id]
    | with_reducible apply Only.after (State.setLantern_only ..)
    | with_reducible intro _
    | split)

theorem State.endStage4_only (s : State) (trained : List (Fin 16)) (quickOk : Bool) :
    Only [.settings, .board, .lantern, .lsChanges, .geo, .claims, .intakes, .ics, .sealed, .commands, .power, .thermal, .far, .links, .seam, .events, .trust, .out, .free] s (State.endStage4 s trained quickOk) := by
  unfold State.endStage4
  iterate 24 all_goals try (first
    | with_reducible exact Only.refl
    | with_reducible assumption
    | decide
    | dsimp only [id]
    | with_reducible apply Only.after (State.takeRole_only ..)
    | with_reducible apply Only.after (State.setLantern_only ..)
    | with_reducible apply Only.after (State.trainSeam_only ..)
    | with_reducible apply Only.after (State.halt_only ..)
    | with_reducible apply Only.after (State.forwardHe_only ..)
    | with_reducible apply Only.after (State.enterStage5_only ..)
    | with_reducible apply Only.after (State.missed_only ..)
    | with_reducible apply Only.after (State.quickPeer_only ..)
    | with_reducible apply Only.after (State.goAlone_only ..)
    | simp only [OnlyMk.mark]
    | ((with_reducible refine OnlyMk.of ?_ ?_); rotate_left; focus (intro p hp; cases p <;> first | exact absurd (by decide) hp | rfl | exact ⟨rfl, rfl⟩))
    | with_reducible intro _
    | split)

theorem State.endStage5_only (s : State) (lost : List (Fin 1024)) (quickOk : Bool) :
    Only [.lantern, .lsChanges, .geo, .events] s (State.endStage5 s lost quickOk) := by
  unfold State.endStage5
  iterate 24 all_goals try (first
    | with_reducible exact Only.refl
    | with_reducible assumption
    | decide
    | dsimp only [id]
    | with_reducible apply Only.after (State.toStage_only ..)
    | with_reducible apply Only.after (State.missed_only ..)
    | with_reducible apply Only.after (State.retireSite_only ..)
    | with_reducible refine Only.foldl _ ?_ ?_
    | with_reducible refine Only.foldlPair ?_ ?_
    | with_reducible refine Only.foldlPair' (by assumption) ?_ ?_
    | with_reducible intro _)

theorem State.endStage6_only (s : State) (rows : List RowFault) (quickOk : Bool) :
    Only [.lantern, .lsChanges, .geo, .ics, .mem, .events] s (State.endStage6 s rows quickOk) := by
  unfold State.endStage6
  iterate 24 all_goals try (first
    | with_reducible exact Only.refl
    | with_reducible assumption
    | decide
    | dsimp only [id]
    | with_reducible apply Only.after (State.toStage_only ..)
    | with_reducible apply Only.after (State.missed_only ..)
    | with_reducible apply Only.after (State.repairRow_only ..)
    | with_reducible refine Only.foldl _ ?_ ?_
    | with_reducible refine Only.foldlPair ?_ ?_
    | with_reducible refine Only.foldlPair' (by assumption) ?_ ?_
    | with_reducible intro _)

theorem State.endStage7_only (s : State) (cells : List CoreFail) (failed : List (Fin 1024)) (quickOk : Bool) :
    Only [.lantern, .lsChanges, .geo, .events] s (State.endStage7 s cells failed quickOk) := by
  unfold State.endStage7
  iterate 24 all_goals try (first
    | with_reducible exact Only.refl
    | with_reducible assumption
    | decide
    | dsimp only [id]
    | with_reducible apply Only.after (State.addCell_only ..)
    | with_reducible apply Only.after (State.retireSite_only ..)
    | with_reducible apply Only.after (State.toStage_only ..)
    | with_reducible apply Only.after (State.missed_only ..)
    | with_reducible apply Only.after (State.retireNarrow_only ..)
    | with_reducible refine Only.foldl _ ?_ ?_
    | with_reducible refine Only.foldlPair ?_ ?_
    | with_reducible refine Only.foldlPair' (by assumption) ?_ ?_
    | with_reducible intro _
    | split)

theorem State.checkMaps_only (s : State) (mapFail : Option (Fin 1024)) :
    Only [.ics, .mem, .events] s (State.checkMaps s mapFail) := by
  unfold State.checkMaps
  iterate 24 all_goals try (first
    | with_reducible exact Only.refl
    | with_reducible assumption
    | decide
    | dsimp only [id]
    | with_reducible apply Only.after (State.logVault_only ..)
    | simp only [OnlyMk.mark]
    | ((with_reducible refine OnlyMk.of ?_ ?_); rotate_left; focus (intro p hp; cases p <;> first | exact absurd (by decide) hp | rfl | exact ⟨rfl, rfl⟩))
    | with_reducible intro _
    | split)

theorem State.attachFar_only (s : State) (deviceMib : Nat) :
    Only [.geo, .far, .events, .trust] s (State.attachFar s deviceMib) := by
  unfold State.attachFar
  iterate 24 all_goals try (first
    | with_reducible exact Only.refl
    | with_reducible assumption
    | decide
    | dsimp only [id]
    | with_reducible apply Only.after (State.postArgs_only ..)
    | with_reducible apply OnlyO.after (State.withFarKey_only ..)
    | with_reducible refine OnlyO.getD ?_ ?_
    | with_reducible exact OnlyO.none
    | with_reducible refine OnlyO.some ?_
    | with_reducible refine OnlyO.mapState ?_ ?_
    | with_reducible refine OnlyO.map ?_
    | with_reducible refine OnlyO.bind ?_ ?_
    | simp only [OnlyMk.mark]
    | ((with_reducible refine OnlyMk.of ?_ ?_); rotate_left; focus (intro p hp; cases p <;> first | exact absurd (by decide) hp | rfl | exact ⟨rfl, rfl⟩))
    | with_reducible intro _
    | split)

theorem State.recordQuick_only (s : State) :
    Only [.lantern, .lsChanges] s (State.recordQuick s) := by
  unfold State.recordQuick
  iterate 24 all_goals try (first
    | with_reducible exact Only.refl
    | with_reducible assumption
    | decide
    | dsimp only [id]
    | with_reducible apply Only.after (State.setLantern_only ..)
    | with_reducible intro _
    | split)

theorem State.becomeReady_only (s : State) :
    Only [.lantern, .lsChanges, .geo, .mem, .events, .trust] s (State.becomeReady s) := by
  unfold State.becomeReady
  iterate 24 all_goals try (first
    | with_reducible exact Only.refl
    | with_reducible assumption
    | decide
    | dsimp only [id]
    | with_reducible apply Only.after (State.postArgs_only ..)
    | with_reducible apply Only.after (State.toStage_only ..)
    | with_reducible apply Only.after (State.recordQuick_only ..)
    | simp only [OnlyMk.mark]
    | ((with_reducible refine OnlyMk.of ?_ ?_); rotate_left; focus (intro p hp; cases p <;> first | exact absurd (by decide) hp | rfl | exact ⟨rfl, rfl⟩)))

theorem State.endStage9_only (s : State) (mapFail : Option (Fin 1024)) (farDeviceMib : Nat) :
    Only [.lantern, .lsChanges, .geo, .ics, .mem, .far, .cores, .events, .trust] s (State.endStage9 s mapFail farDeviceMib) := by
  unfold State.endStage9
  iterate 24 all_goals try (first
    | with_reducible exact Only.refl
    | with_reducible assumption
    | decide
    | dsimp only [id]
    | with_reducible apply Only.after (State.becomeReady_only ..)
    | with_reducible apply Only.after (State.attachFar_only ..)
    | with_reducible apply Only.after (State.applySites_only ..)
    | with_reducible apply Only.after (State.resolveSites_only ..)
    | with_reducible apply Only.after (State.checkMaps_only ..))

theorem execPitchStageComplete_only (result : StageResult) (s : State) (t : State) (hq : execPitchStageComplete result s = .next t) :
    Only [.fuses, .settings, .board, .lantern, .lsChanges, .geo, .claims, .intakes, .ports, .ics, .wdogs, .sealed, .commands, .rations, .time, .power, .thermal, .mem, .hostMem, .far, .cores, .links, .seam, .events, .trust, .i3c, .out, .free] s t := by
  unfold execPitchStageComplete at hq
  injection hq with hq
  subst hq
  iterate 24 all_goals try (first
    | with_reducible exact Only.refl
    | with_reducible assumption
    | decide
    | dsimp only [id]
    | with_reducible apply Only.after (settle_only ..)
    | with_reducible apply Only.after (State.endRails_only ..)
    | with_reducible apply Only.after (State.endStage2_only ..)
    | with_reducible apply Only.after (State.leaveIdle_only ..)
    | with_reducible apply Only.after (State.endStage3_only ..)
    | with_reducible apply Only.after (State.endStage4_only ..)
    | with_reducible apply Only.after (State.endStage5_only ..)
    | with_reducible apply Only.after (State.endStage6_only ..)
    | with_reducible apply Only.after (State.endStage7_only ..)
    | with_reducible apply Only.after (State.endStage9_only ..)
    | with_reducible intro _
    | split)

/-! ## Machine/Tray.lean -/

theorem State.judgeFlow_only (s : State) :
    Only [.ics, .thermal, .seam, .events, .out] s (State.judgeFlow s) := by
  unfold State.judgeFlow
  iterate 24 all_goals try (first
    | with_reducible exact Only.refl
    | with_reducible assumption
    | decide
    | dsimp only [id]
    | with_reducible apply Only.after (State.setThermal_only ..)
    | with_reducible apply Only.after (State.tell_only ..)
    | with_reducible apply Only.after (State.raiseFast_only ..)
    | with_reducible apply Only.after (State.postArgs_only ..)
    | with_reducible intro _
    | split)

theorem State.actOnTray_only (s : State) (poor : Bool) :
    Only [.lantern, .claims, .intakes, .ics, .sealed, .commands, .power, .thermal, .links, .seam, .events, .out, .free] s (State.actOnTray s poor) := by
  unfold State.actOnTray
  iterate 24 all_goals try (first
    | with_reducible exact Only.refl
    | with_reducible assumption
    | decide
    | dsimp only [id]
    | with_reducible apply Only.after (State.setThermal_only ..)
    | with_reducible apply Only.after (State.judgeFlow_only ..)
    | with_reducible apply Only.after (State.coolantStop_only ..)
    | with_reducible intro _
    | split)

theorem State.countPoll_only (s : State) (valid : Bool) :
    Only [.lantern, .lsChanges, .trust] s (State.countPoll s valid) := by
  unfold State.countPoll
  iterate 24 all_goals try (first
    | with_reducible exact Only.refl
    | with_reducible assumption
    | decide
    | dsimp only [id]
    | with_reducible apply Only.after (State.setLantern_only ..)
    | with_reducible apply Only.after (State.leaveIdle_only ..)
    | with_reducible intro _
    | split)

theorem State.takeTray_only (s : State) (x : Tray) (replied : Bool) :
    Only [.thermal] s (State.takeTray s x replied) := by
  unfold State.takeTray
  iterate 24 all_goals try (first
    | with_reducible exact Only.refl
    | with_reducible assumption
    | decide
    | dsimp only [id]
    | with_reducible apply Only.after (State.setThermal_only ..))

theorem State.missPoll_only (s : State) :
    Only [.lantern, .claims, .intakes, .ics, .sealed, .commands, .power, .thermal, .links, .seam, .events, .out, .free] s (State.missPoll s) := by
  unfold State.missPoll
  iterate 24 all_goals try (first
    | with_reducible exact Only.refl
    | with_reducible assumption
    | decide
    | dsimp only [id]
    | with_reducible apply Only.after (State.setThermal_only ..)
    | with_reducible apply Only.after (State.actOnTray_only ..)
    | with_reducible apply Only.after (State.takeTray_only ..)
    | with_reducible intro _
    | split)

theorem State.trayReply_only (s : State) (b : List Byte) :
    Only [.lantern, .lsChanges, .claims, .intakes, .ics, .sealed, .commands, .power, .thermal, .links, .seam, .events, .trust, .out, .free] s (State.trayReply s b) := by
  unfold State.trayReply
  iterate 24 all_goals try (first
    | with_reducible exact Only.refl
    | with_reducible assumption
    | decide
    | dsimp only [id]
    | with_reducible apply Only.after (State.countPoll_only ..)
    | with_reducible apply Only.after (State.actOnTray_only ..)
    | with_reducible apply Only.after (State.takeTray_only ..)
    | with_reducible apply Only.after (State.missPoll_only ..)
    | with_reducible intro _
    | split)

theorem State.endPoll_only (s : State) (half : Nat) (reply : TrayReply) :
    Only [.lantern, .lsChanges, .claims, .intakes, .ics, .sealed, .commands, .power, .thermal, .links, .seam, .events, .trust, .out, .free] s (State.endPoll s half reply) := by
  unfold State.endPoll
  iterate 24 all_goals try (first
    | with_reducible exact Only.refl
    | with_reducible assumption
    | decide
    | dsimp only [id]
    | with_reducible apply Only.after (State.trayReply_only ..)
    | with_reducible apply Only.after (State.countPoll_only ..)
    | with_reducible apply Only.after (State.missPoll_only ..)
    | with_reducible apply Only.after (State.setThermal_only ..)
    | with_reducible intro _
    | split)

theorem execTrayPoll_only (half : Fin 2) (reply : TrayReply) (s : State) (t : State) (hq : execTrayPoll half reply s = .next t) :
    Only [.lantern, .lsChanges, .claims, .intakes, .ports, .ics, .sealed, .commands, .power, .thermal, .hostMem, .links, .seam, .events, .trust, .i3c, .out, .free] s t := by
  unfold execTrayPoll at hq
  injection hq with hq
  subst hq
  iterate 24 all_goals try (first
    | with_reducible exact Only.refl
    | with_reducible assumption
    | decide
    | dsimp only [id]
    | with_reducible apply Only.after (settle_only ..)
    | with_reducible apply Only.after (State.endPoll_only ..)
    | with_reducible apply Only.after (State.setThermal_only ..)
    | with_reducible intro _
    | split)

theorem execTrayPollRetry_only (half : Fin 2) (reply : TrayReply) (s : State) (t : State) (hq : execTrayPollRetry half reply s = .next t) :
    Only [.lantern, .lsChanges, .claims, .intakes, .ports, .ics, .sealed, .commands, .power, .thermal, .hostMem, .links, .seam, .events, .trust, .i3c, .out, .free] s t := by
  unfold execTrayPollRetry at hq
  injection hq with hq
  subst hq
  iterate 24 all_goals try (first
    | with_reducible exact Only.refl
    | with_reducible assumption
    | decide
    | dsimp only [id]
    | with_reducible apply Only.after (settle_only ..)
    | with_reducible apply Only.after (State.endPoll_only ..)
    | with_reducible apply Only.after (State.setThermal_only ..)
    | with_reducible intro _
    | split)

theorem execCalorimetricCheck_only (s : State) (t : State) (hq : execCalorimetricCheck s = .next t) :
    Only [.thermal, .events] s t := by
  unfold execCalorimetricCheck at hq
  injection hq with hq
  subst hq
  iterate 24 all_goals try (first
    | with_reducible exact Only.refl
    | with_reducible assumption
    | decide
    | dsimp only [id]
    | with_reducible apply Only.after (State.postArgs_only ..)
    | with_reducible apply Only.after (State.setThermal_only ..)
    | with_reducible intro _
    | split)

/-! ## Machine/Resets.lean -/

theorem State.freeSlots_only (s : State) :
    Only [.intakes] s (State.freeSlots s) := by
  unfold State.freeSlots
  iterate 24 all_goals try (first
    | with_reducible exact Only.refl
    | with_reducible assumption
    | decide
    | dsimp only [id]
    | simp only [OnlyMk.mark]
    | ((with_reducible refine OnlyMk.of ?_ ?_); rotate_left; focus (intro p hp; cases p <;> first | exact absurd (by decide) hp | rfl | exact ⟨rfl, rfl⟩)))

theorem Adm.computeReset_only (a : Adm) (s : State) :
    Only [.lantern, .lsChanges, .claims, .intakes, .ics, .sealed, .commands, .power, .links] s (Adm.computeReset a s) := by
  unfold Adm.computeReset
  iterate 24 all_goals try (first
    | with_reducible exact Only.refl
    | with_reducible assumption
    | decide
    | dsimp only [id]
    | with_reducible apply Only.after (State.freeSlots_only ..)
    | with_reducible apply Only.after (State.strikeEverything_only ..)
    | with_reducible apply Only.after (State.toStage_only ..)
    | with_reducible apply Only.after (State.setLantern_only ..))

theorem Adm.pitch_only (a : Adm) (s : State) :
    Only [.lantern, .lsChanges, .claims, .intakes, .ics, .sealed, .commands, .power, .mem, .links, .events, .trust] s (Adm.pitch a s) := by
  unfold Adm.pitch
  iterate 24 all_goals try (first
    | with_reducible exact Only.refl
    | with_reducible assumption
    | decide
    | dsimp only [id]
    | with_reducible apply Only.after (State.strikeEverything_only ..)
    | with_reducible apply Only.after (State.askReset_only ..)
    | with_reducible apply Only.after (Adm.done_only ..))

theorem execResetDevice_only (ctrl : Fin 4) (slot : Fin 1024) (s : State) (t : State) (hq : execResetDevice ctrl slot s = .next t) :
    Only [.lantern, .lsChanges, .claims, .intakes, .ports, .ics, .sealed, .commands, .power, .mem, .hostMem, .links, .events, .trust, .i3c, .out] s t := by
  unfold execResetDevice at hq
  injection hq with hq
  subst hq
  iterate 24 all_goals try (first
    | with_reducible exact Only.refl
    | with_reducible assumption
    | decide
    | dsimp only [id]
    | with_reducible apply Only.after (settle_only ..)
    | with_reducible refine State.serve_only ?_ (by decide) ?_
    | with_reducible refine Adm.checked_only ?_ (by decide) ?_
    | with_reducible apply Only.after (Adm.computeReset_only ..)
    | with_reducible apply Only.after (Adm.pitch_only ..)
    | with_reducible intro _
    | split)

theorem State.flushStores_only (s : State) :
    Only [.ics, .commands, .mem, .events, .free] s (State.flushStores s) := by
  unfold State.flushStores
  iterate 24 all_goals try (first
    | with_reducible exact Only.refl
    | with_reducible assumption
    | decide
    | dsimp only [id]
    | with_reducible apply Only.after (State.flushMerge_only ..)
    | with_reducible apply Only.after (State.setSlice_only ..)
    | with_reducible apply Only.after (State.evict_only ..)
    | with_reducible refine Only.foldl _ ?_ ?_
    | with_reducible refine Only.foldlPair ?_ ?_
    | with_reducible refine Only.foldlPair' (by assumption) ?_ ?_
    | with_reducible intro _)

theorem State.releaseRanges_only (s : State) :
    Only [.ics, .mem, .events, .trust] s (State.releaseRanges s) := by
  unfold State.releaseRanges
  iterate 24 all_goals try (first
    | with_reducible exact Only.refl
    | with_reducible assumption
    | decide
    | dsimp only [id]
    | with_reducible apply Only.after (State.releaseRange_only ..)
    | with_reducible refine Only.foldl _ ?_ ?_
    | with_reducible refine Only.foldlPair ?_ ?_
    | with_reducible refine Only.foldlPair' (by assumption) ?_ ?_
    | with_reducible intro _)

theorem State.resetUnits_only (s : State) :
    Only [.mem, .cores, .kv, .cv] s (State.resetUnits s) := by
  unfold State.resetUnits
  iterate 24 all_goals try (first
    | with_reducible exact Only.refl
    | with_reducible assumption
    | decide
    | dsimp only [id]
    | simp only [OnlyMk.mark]
    | ((with_reducible refine OnlyMk.of ?_ ?_); rotate_left; focus (intro p hp; cases p <;> first | exact absurd (by decide) hp | rfl | exact ⟨rfl, rfl⟩)))

theorem State.restartWarden_only (s : State) :
    Only [.ics, .wdogs] s (State.restartWarden s) := by
  unfold State.restartWarden
  iterate 24 all_goals try (first
    | with_reducible exact Only.refl
    | with_reducible assumption
    | decide
    | dsimp only [id]
    | with_reducible apply Only.after (State.setWdog_only ..)
    | with_reducible apply Only.after (State.setIc_only ..)
    | with_reducible refine Only.foldl _ ?_ ?_
    | with_reducible refine Only.foldlPair ?_ ?_
    | with_reducible refine Only.foldlPair' (by assumption) ?_ ?_
    | with_reducible intro _)

theorem State.retireFailed_only (s : State) (failed : List (Fin 1024)) :
    Only [.lsChanges, .geo, .ports, .ics, .commands, .mem, .hostMem, .kv, .events, .i3c, .out] s (State.retireFailed s failed) := by
  unfold State.retireFailed
  iterate 24 all_goals try (first
    | with_reducible exact Only.refl
    | with_reducible assumption
    | decide
    | dsimp only [id]
    | with_reducible apply Only.after (State.losePair_only ..)
    | with_reducible refine Only.foldl _ ?_ ?_
    | with_reducible refine Only.foldlPair ?_ ?_
    | with_reducible refine Only.foldlPair' (by assumption) ?_ ?_
    | with_reducible intro _)

theorem execComputeResetComplete_only (fwOk : Bool) (failedCores : List (Fin 1024)) (s : State) (t : State) (hq : execComputeResetComplete fwOk failedCores s = .next t) :
    Only [.lantern, .lsChanges, .geo, .ports, .ics, .wdogs, .commands, .mem, .hostMem, .cores, .kv, .cv, .events, .trust, .i3c, .out, .free] s t := by
  unfold execComputeResetComplete at hq
  injection hq with hq
  subst hq
  iterate 24 all_goals try (first
    | with_reducible exact Only.refl
    | with_reducible assumption
    | decide
    | dsimp only [id]
    | with_reducible apply Only.after (State.askReset_only ..)
    | with_reducible apply Only.after (State.restartWarden_only ..)
    | with_reducible apply Only.after (State.retireFailed_only ..)
    | with_reducible apply Only.after (State.resetUnits_only ..)
    | with_reducible apply Only.after (State.releaseRanges_only ..)
    | with_reducible apply Only.after (State.flushStores_only ..)
    | with_reducible apply Only.after (State.toStage_only ..)
    | with_reducible apply Only.after (State.setLantern_only ..)
    | with_reducible apply Only.after (settle_only ..)
    | with_reducible apply Only.after (State.endCmd_only ..)
    | with_reducible intro _
    | split)

theorem execResetPitchStart_only (s : State) (t : State) (hq : execResetPitchStart s = .next t) :
    Only [.board, .lantern, .lsChanges, .geo, .own, .claims, .ownPorts, .intakes, .ports, .ics, .wdogs, .sealed, .bmcFifo, .commands, .rations, .time, .power, .thermal, .mem, .hostMem, .far, .cores, .kv, .links, .seam, .cv, .events, .trust, .i3c, .out, .run] s t := by
  unfold execResetPitchStart at hq
  injection hq with hq
  subst hq
  iterate 24 all_goals try (first
    | with_reducible exact Only.refl
    | with_reducible assumption
    | decide
    | dsimp only [id]
    | with_reducible apply Only.after (settle_only ..)
    | with_reducible apply Only.after (State.startWarm_only ..)
    | with_reducible apply Only.after (State.dropForCold_only ..)
    | with_reducible intro _
    | split)

theorem execThermalClearPitchStart_only (s : State) (t : State) (hq : execThermalClearPitchStart s = .next t) :
    Only [.board, .lantern, .lsChanges, .geo, .own, .claims, .ownPorts, .intakes, .ports, .ics, .wdogs, .sealed, .bmcFifo, .commands, .rations, .time, .power, .thermal, .mem, .hostMem, .far, .cores, .kv, .links, .seam, .cv, .events, .trust, .i3c, .out, .run] s t := by
  unfold execThermalClearPitchStart at hq
  injection hq with hq
  subst hq
  iterate 24 all_goals try (first
    | with_reducible exact Only.refl
    | with_reducible assumption
    | decide
    | dsimp only [id]
    | with_reducible apply Only.after (settle_only ..)
    | with_reducible apply Only.after (State.dropForCold_only ..)
    | with_reducible intro _
    | split)

theorem execColdPitchRailsReturn_only (s : State) (t : State) (hq : execColdPitchRailsReturn s = .next t) :
    Only [.board, .lantern, .lsChanges, .geo, .own, .claims, .ownPorts, .intakes, .ports, .ics, .wdogs, .sealed, .bmcFifo, .commands, .rations, .time, .power, .thermal, .mem, .hostMem, .far, .cores, .kv, .links, .seam, .cv, .events, .trust, .i3c, .out, .run] s t := by
  unfold execColdPitchRailsReturn at hq
  injection hq with hq
  subst hq
  iterate 24 all_goals try (first
    | with_reducible exact Only.refl
    | with_reducible assumption
    | decide
    | dsimp only [id]
    | with_reducible apply Only.after (settle_only ..)
    | with_reducible apply Only.after (State.startCold_only ..)
    | with_reducible intro _
    | split)

theorem State.holdReset_only (s : State) :
    Only [.lantern, .intakes, .ports, .ics, .wdogs, .sealed, .bmcFifo, .commands, .far, .cores, .kv, .links, .cv, .trust] s (State.holdReset s) := by
  unfold State.holdReset
  iterate 24 all_goals try (first
    | with_reducible exact Only.refl
    | with_reducible assumption
    | decide
    | dsimp only [id]
    | simp only [OnlyMk.mark]
    | ((with_reducible refine OnlyMk.of ?_ ?_); rotate_left; focus (intro p hp; cases p <;> first | exact absurd (by decide) hp | rfl | exact ⟨rfl, rfl⟩)))

theorem execModResetNAssert_only (s : State) (t : State) (hq : execModResetNAssert s = .next t) :
    Only [.board, .lantern, .lsChanges, .intakes, .ports, .ics, .wdogs, .sealed, .bmcFifo, .commands, .hostMem, .far, .cores, .kv, .links, .cv, .trust, .i3c, .out] s t := by
  unfold execModResetNAssert at hq
  injection hq with hq
  subst hq
  iterate 24 all_goals try (first
    | with_reducible exact Only.refl
    | with_reducible assumption
    | decide
    | dsimp only [id]
    | with_reducible apply Only.after (settle_only ..)
    | with_reducible apply Only.after (State.holdReset_only ..)
    | simp only [OnlyMk.mark]
    | ((with_reducible refine OnlyMk.of ?_ ?_); rotate_left; focus (intro p hp; cases p <;> first | exact absurd (by decide) hp | rfl | exact ⟨rfl, rfl⟩))
    | with_reducible intro _
    | split)

theorem execModResetNRelease_only (s : State) (t : State) (hq : execModResetNRelease s = .next t) :
    Only [.board, .lantern, .lsChanges, .geo, .own, .claims, .ownPorts, .intakes, .ports, .ics, .wdogs, .sealed, .bmcFifo, .commands, .rations, .time, .power, .thermal, .mem, .hostMem, .far, .cores, .kv, .links, .seam, .cv, .events, .trust, .i3c, .out, .run] s t := by
  unfold execModResetNRelease at hq
  injection hq with hq
  subst hq
  iterate 24 all_goals try (first
    | with_reducible exact Only.refl
    | with_reducible assumption
    | decide
    | dsimp only [id]
    | with_reducible apply Only.after (settle_only ..)
    | with_reducible apply Only.after (State.gate_only ..)
    | with_reducible apply Only.after (State.dropForCold_only ..)
    | with_reducible apply Only.after (State.startWarm_only ..)
    | simp only [OnlyMk.mark]
    | ((with_reducible refine OnlyMk.of ?_ ?_); rotate_left; focus (intro p hp; cases p <;> first | exact absurd (by decide) hp | rfl | exact ⟨rfl, rfl⟩))
    | with_reducible intro _
    | split)

theorem execWatchdogReset_only (cluster : Fin 2) (s : State) (t : State) (hq : execWatchdogReset cluster s = .next t) :
    Only [.settings, .lantern, .lsChanges, .claims, .intakes, .ports, .ics, .wdogs, .sealed, .commands, .power, .hostMem, .links, .seam, .events, .trust, .i3c, .out, .free] s t := by
  unfold execWatchdogReset at hq
  injection hq with hq
  subst hq
  iterate 24 all_goals try (first
    | with_reducible exact Only.refl
    | with_reducible assumption
    | decide
    | dsimp only [id]
    | with_reducible apply Only.after (State.postArgs_only ..)
    | with_reducible apply Only.after (State.setWdog_only ..)
    | with_reducible apply Only.after (settle_only ..)
    | with_reducible apply Only.after (State.failTrial_only ..)
    | with_reducible apply Only.after (State.strikeForPitch_only ..)
    | with_reducible intro _
    | split)

theorem execWatchdogRestart_only (cluster : Fin 2) (fwOk : Bool) (badTags : List Nat) (s : State) (t : State) (hq : execWatchdogRestart cluster fwOk badTags s = .next t) :
    Only [.lantern, .lsChanges, .claims, .intakes, .ports, .ics, .wdogs, .sealed, .commands, .power, .hostMem, .links, .i3c, .out, .free] s t := by
  unfold execWatchdogRestart at hq
  injection hq with hq
  subst hq
  iterate 24 all_goals try (first
    | with_reducible exact Only.refl
    | with_reducible assumption
    | decide
    | dsimp only [id]
    | with_reducible apply Only.after (State.strikeForPitch_only ..)
    | with_reducible apply Only.after (State.setIc_only ..)
    | with_reducible apply Only.after (State.setWdog_only ..)
    | with_reducible apply Only.after (settle_only ..)
    | with_reducible apply Only.after (State.addJob_only ..)
    | with_reducible apply Only.after (State.markStruck_only ..)
    | with_reducible intro _
    | split)

theorem execHalfLossDetect_only (s : State) (t : State) (hq : execHalfLossDetect s = .next t) :
    Only [.lantern, .lsChanges, .geo, .claims, .intakes, .ports, .ics, .sealed, .commands, .power, .hostMem, .links, .events, .i3c, .out] s t := by
  unfold execHalfLossDetect at hq
  injection hq with hq
  subst hq
  iterate 24 all_goals try (first
    | with_reducible exact Only.refl
    | with_reducible assumption
    | decide
    | dsimp only [id]
    | with_reducible apply Only.after (State.postArgs_only ..)
    | with_reducible apply Only.after (State.strikeEverything_only ..)
    | with_reducible apply Only.after (settle_only ..)
    | with_reducible apply Only.after (State.askReset_only ..)
    | simp only [OnlyMk.mark]
    | ((with_reducible refine OnlyMk.of ?_ ?_); rotate_left; focus (intro p hp; cases p <;> first | exact absurd (by decide) hp | rfl | exact ⟨rfl, rfl⟩))
    | with_reducible intro _
    | split)

end Sys2Proof.Machine
end

