-- ==== Sys2Proof/Laws/Frames6.lean ====
section
/-! SUPPORT. Which parts of the state each operation and each meaning of Machine/Seam.lean to Machine/Submit.lean can change, one
lemma each. -/

namespace Sys2Proof.Machine

open Sys2Proof

/-! ## Machine/Seam.lean -/

theorem State.seamEvent_only (s : State) (m : Nat) (cause : Nat) :
    Only [.ics, .events] s (State.seamEvent s m cause) := by
  unfold State.seamEvent
  iterate 24 all_goals try (first
    | with_reducible exact Only.refl
    | with_reducible assumption
    | decide
    | dsimp only [id]
    | with_reducible apply Only.after (State.postArgs_only ..)
    | with_reducible apply Only.after (State.raise_only ..))

theorem State.slowSeam_only (s : State) :
    Only [.commands, .free] s (State.slowSeam s) := by
  unfold State.slowSeam
  iterate 24 all_goals try (first
    | with_reducible exact Only.refl
    | with_reducible assumption
    | decide
    | dsimp only [id]
    | with_reducible apply Only.after (State.mayDegrade_only ..)
    | with_reducible intro _
    | split)

theorem State.checkSeam_only (s : State) (m : Nat) :
    Only [.lantern, .lsChanges, .claims, .intakes, .ics, .sealed, .commands, .power, .links, .events] s (State.checkSeam s m) := by
  unfold State.checkSeam
  iterate 24 all_goals try (first
    | with_reducible exact Only.refl
    | with_reducible assumption
    | decide
    | dsimp only [id]
    | with_reducible apply Only.after (State.askReset_only ..)
    | with_reducible apply Only.after (State.seamEvent_only ..)
    | with_reducible apply Only.after (State.strikeEverything_only ..)
    | with_reducible apply Only.after (State.setLantern_only ..)
    | with_reducible intro _
    | split)

theorem State.moveFrames_only (s : State) (m : Nat) :
    Only [.seam, .out] s (State.moveFrames s m) := by
  unfold State.moveFrames
  iterate 24 all_goals try (first
    | with_reducible exact Only.refl
    | with_reducible assumption
    | decide
    | dsimp only [id]
    | with_reducible apply Only.after (State.sendFrame_only ..)
    | with_reducible apply Only.after (State.setSeamMod_only ..)
    | with_reducible refine Only.foldl _ ?_ ?_
    | with_reducible refine Only.foldlPair ?_ ?_
    | with_reducible refine Only.foldlPair' (by assumption) ?_ ?_
    | with_reducible intro _
    | split)

theorem State.seamOut_only (s : State) (m : Nat) :
    Only [.lantern, .lsChanges, .geo, .claims, .intakes, .ports, .ics, .sealed, .commands, .power, .hostMem, .links, .seam, .events, .i3c, .out, .free] s (State.seamOut s m) := by
  unfold State.seamOut
  iterate 24 all_goals try (first
    | with_reducible exact Only.refl
    | with_reducible assumption
    | decide
    | dsimp only [id]
    | with_reducible apply Only.after (State.slowSeam_only ..)
    | with_reducible apply Only.after (State.setSeamMod_only ..)
    | with_reducible apply Only.after (State.checkSeam_only ..)
    | with_reducible apply Only.after (State.seamEvent_only ..)
    | with_reducible apply Only.after (State.geoChange_only ..))

theorem State.seamRetrain_only (s : State) (m : Nat) (requested : Bool) :
    Only [.seam] s (State.seamRetrain s m requested) := by
  unfold State.seamRetrain
  iterate 24 all_goals try (first
    | with_reducible exact Only.refl
    | with_reducible assumption
    | decide
    | dsimp only [id]
    | with_reducible apply Only.after (State.setSeamMod_only ..))

theorem State.sendAdvert_only (s : State) (m : Nat) :
    Only [.out] s (State.sendAdvert s m) := by
  unfold State.sendAdvert
  iterate 24 all_goals try (first
    | with_reducible exact Only.refl
    | with_reducible assumption
    | decide
    | dsimp only [id]
    | with_reducible apply Only.after (State.emit_only ..))

theorem State.askRetrain_only (s : State) (m : Nat) :
    Only [.seam, .out] s (State.askRetrain s m) := by
  unfold State.askRetrain
  iterate 24 all_goals try (first
    | with_reducible exact Only.refl
    | with_reducible assumption
    | decide
    | dsimp only [id]
    | with_reducible apply Only.after (State.sendAdvert_only ..)
    | with_reducible apply Only.after (State.emit_only ..)
    | with_reducible apply Only.after (State.seamRetrain_only ..))

theorem State.heard_only (s : State) :
    Only [.seam] s (State.heard s) := by
  unfold State.heard
  iterate 24 all_goals try (first
    | with_reducible exact Only.refl
    | with_reducible assumption
    | decide
    | dsimp only [id]
    | simp only [OnlyMk.mark]
    | ((with_reducible refine OnlyMk.of ?_ ?_); rotate_left; focus (intro p hp; cases p <;> first | exact absurd (by decide) hp | rfl | exact ⟨rfl, rfl⟩)))

theorem State.laneFails_only (s : State) (m : Nat) (lane : Nat) (eToW : Bool) :
    Only [.lantern, .lsChanges, .geo, .claims, .intakes, .ports, .ics, .sealed, .commands, .power, .hostMem, .links, .seam, .events, .i3c, .out, .free] s (State.laneFails s m lane eToW) := by
  unfold State.laneFails
  iterate 24 all_goals try (first
    | with_reducible exact Only.refl
    | with_reducible assumption
    | decide
    | dsimp only [id]
    | with_reducible apply Only.after (State.appendOverlay_only ..)
    | with_reducible apply Only.after (State.sendAdvert_only ..)
    | with_reducible apply Only.after (State.seamRetrain_only ..)
    | with_reducible apply Only.after (State.setSeamMod_only ..)
    | with_reducible apply Only.after (State.seamEvent_only ..)
    | with_reducible apply Only.after (State.geoChange_only ..)
    | with_reducible apply Only.after (State.slowSeam_only ..)
    | with_reducible apply Only.after (State.seamOut_only ..)
    | with_reducible intro _
    | split)

theorem execSeamLaneFail_only (mod : Fin 16) (lane : Fin 64) (eToW : Bool) (s : State) (t : State) (hq : execSeamLaneFail mod lane eToW s = .next t) :
    Only [.lantern, .lsChanges, .geo, .claims, .intakes, .ports, .ics, .sealed, .commands, .power, .hostMem, .links, .seam, .events, .i3c, .out, .free] s t := by
  unfold execSeamLaneFail at hq
  injection hq with hq
  subst hq
  iterate 24 all_goals try (first
    | with_reducible exact Only.refl
    | with_reducible assumption
    | decide
    | dsimp only [id]
    | with_reducible apply Only.after (settle_only ..)
    | with_reducible apply Only.after (State.laneFails_only ..)
    | with_reducible intro _
    | split)

theorem execSeamSidebandFail_only (mod : Fin 16) (s : State) (t : State) (hq : execSeamSidebandFail mod s = .next t) :
    Only [.lantern, .lsChanges, .geo, .claims, .intakes, .ports, .ics, .sealed, .commands, .power, .hostMem, .links, .seam, .events, .i3c, .out, .free] s t := by
  unfold execSeamSidebandFail at hq
  injection hq with hq
  subst hq
  iterate 24 all_goals try (first
    | with_reducible exact Only.refl
    | with_reducible assumption
    | decide
    | dsimp only [id]
    | with_reducible apply Only.after (State.setSeamMod_only ..)
    | with_reducible apply Only.after (settle_only ..)
    | with_reducible apply Only.after (State.seamOut_only ..)
    | with_reducible intro _
    | split)

theorem execSeamLogicReset_only (mod : Fin 16) (s : State) (t : State) (hq : execSeamLogicReset mod s = .next t) :
    Only [.seam] s t := by
  unfold execSeamLogicReset at hq
  injection hq with hq
  subst hq
  iterate 24 all_goals try (first
    | with_reducible exact Only.refl
    | with_reducible assumption
    | decide
    | dsimp only [id]
    | with_reducible apply Only.after (State.setSeamMod_only ..)
    | with_reducible intro _
    | split)

theorem State.askFrames_only (s : State) (m : Nat) :
    Only [.seam, .out] s (State.askFrames s m) := by
  unfold State.askFrames
  iterate 24 all_goals try (first
    | with_reducible exact Only.refl
    | with_reducible assumption
    | decide
    | dsimp only [id]
    | with_reducible apply Only.after (State.emit_only ..)
    | with_reducible apply Only.after (State.setSeamMod_only ..))

theorem State.told_only (s : State) (kind : Nat) :
    Only [.fuses, .settings, .lantern, .lsChanges, .claims, .intakes, .ics, .sealed, .commands, .power, .thermal, .links, .seam, .events, .trust, .out, .free] s (State.told s kind) := by
  unfold State.told
  iterate 24 all_goals try (first
    | with_reducible exact Only.refl
    | with_reducible assumption
    | decide
    | dsimp only [id]
    | with_reducible apply Only.after (State.setLantern_only ..)
    | with_reducible apply Only.after (State.setSettings_only ..)
    | with_reducible apply Only.after (State.failTrial_only ..)
    | with_reducible apply Only.after (State.commit_only ..)
    | with_reducible apply Only.after (State.shutdown_only ..)
    | with_reducible intro _
    | split)

theorem State.takeMirror_only (s : State) (bs : List Byte) :
    Only [.fuses, .settings, .lantern, .lsChanges, .claims, .intakes, .ics, .sealed, .commands, .power, .thermal, .links, .seam, .events, .trust, .out, .free] s (State.takeMirror s bs) := by
  unfold State.takeMirror
  iterate 24 all_goals try (first
    | with_reducible exact Only.refl
    | with_reducible assumption
    | decide
    | dsimp only [id]
    | with_reducible apply Only.after (State.told_only ..)
    | simp only [OnlyMk.mark]
    | ((with_reducible refine OnlyMk.of ?_ ?_); rotate_left; focus (intro p hp; cases p <;> first | exact absurd (by decide) hp | rfl | exact ⟨rfl, rfl⟩))
    | with_reducible intro _
    | split)

theorem State.takeFrame_only (s : State) (m : Nat) (parityOk : Bool) (bs : List Byte) :
    Only [.fuses, .settings, .lantern, .lsChanges, .claims, .intakes, .ics, .sealed, .commands, .power, .thermal, .links, .seam, .events, .trust, .out, .free] s (State.takeFrame s m parityOk bs) := by
  unfold State.takeFrame
  iterate 24 all_goals try (first
    | with_reducible exact Only.refl
    | with_reducible assumption
    | decide
    | dsimp only [id]
    | with_reducible apply Only.after (State.askFrames_only ..)
    | with_reducible apply Only.after (State.drainSeam_only ..)
    | with_reducible apply Only.after (State.setSeamMod_only ..)
    | with_reducible apply Only.after (State.takeMirror_only ..)
    | with_reducible intro _
    | split)

theorem execSeamFrame_only (mod : Fin 16) (wt : BitVec 2) (parityOk : Bool) (content : List (BitVec 8)) (s : State) (t : State) (hq : execSeamFrame mod wt parityOk content s = .next t) :
    Only [.fuses, .settings, .lantern, .lsChanges, .claims, .intakes, .ports, .ics, .sealed, .commands, .power, .thermal, .hostMem, .links, .seam, .events, .trust, .i3c, .out, .free] s t := by
  unfold execSeamFrame at hq
  injection hq with hq
  subst hq
  iterate 24 all_goals try (first
    | with_reducible exact Only.refl
    | with_reducible assumption
    | decide
    | dsimp only [id]
    | with_reducible apply Only.after (State.askRetrain_only ..)
    | with_reducible apply Only.after (State.heard_only ..)
    | with_reducible apply Only.after (settle_only ..)
    | with_reducible apply Only.after (State.takeFrame_only ..)
    | with_reducible intro _
    | split)

theorem execSeamRetrainRequest_only (mod : Fin 16) (s : State) (t : State) (hq : execSeamRetrainRequest mod s = .next t) :
    Only [.seam, .out] s t := by
  unfold execSeamRetrainRequest at hq
  injection hq with hq
  subst hq
  iterate 24 all_goals try (first
    | with_reducible exact Only.refl
    | with_reducible assumption
    | decide
    | dsimp only [id]
    | with_reducible apply Only.after (State.sendAdvert_only ..)
    | with_reducible apply Only.after (State.seamRetrain_only ..)
    | with_reducible apply Only.after (State.heard_only ..)
    | with_reducible apply Only.after (State.setSeamMod_only ..)
    | with_reducible intro _
    | split)

theorem execSeamWidthAdvert_only (mod : Fin 16) (width : Nat) (failed : BitVec 64) (s : State) (t : State) (hq : execSeamWidthAdvert mod width failed s = .next t) :
    Only [.seam] s t := by
  unfold execSeamWidthAdvert at hq
  injection hq with hq
  subst hq
  iterate 24 all_goals try (first
    | with_reducible exact Only.refl
    | with_reducible assumption
    | decide
    | dsimp only [id]
    | with_reducible apply Only.after (State.setSeamMod_only ..)
    | with_reducible apply Only.after (State.heard_only ..)
    | with_reducible intro _
    | split)

theorem execSeamReceiveState_only (mod : Fin 16) (nextSeq : BitVec 16) (s : State) (t : State) (hq : execSeamReceiveState mod nextSeq s = .next t) :
    Only [.seam, .out] s t := by
  unfold execSeamReceiveState at hq
  injection hq with hq
  subst hq
  iterate 24 all_goals try (first
    | with_reducible exact Only.refl
    | with_reducible assumption
    | decide
    | dsimp only [id]
    | with_reducible apply Only.after (State.setSeamMod_only ..)
    | with_reducible apply Only.after (State.heard_only ..)
    | with_reducible apply Only.after (State.drainSeam_only ..)
    | with_reducible apply Only.after (State.moveFrames_only ..)
    | with_reducible apply Only.after (State.emit_only ..)
    | with_reducible refine Only.foldl _ ?_ ?_
    | with_reducible refine Only.foldlPair ?_ ?_
    | with_reducible refine Only.foldlPair' (by assumption) ?_ ?_
    | with_reducible intro _
    | split)

theorem State.agree_only (s : State) (m : Nat) (w : Nat) (h : SeamHalf) (failed : BitVec 64) :
    Only [.lsChanges, .geo, .ports, .ics, .commands, .hostMem, .seam, .events, .i3c, .out, .free] s (State.agree s m w h failed) := by
  unfold State.agree
  iterate 24 all_goals try (first
    | with_reducible exact Only.refl
    | with_reducible assumption
    | decide
    | dsimp only [id]
    | with_reducible apply Only.after (State.setSeamMod_only ..)
    | with_reducible apply Only.after (State.geoChange_only ..)
    | with_reducible apply Only.after (State.slowSeam_only ..)
    | with_reducible apply Only.after (State.seamEvent_only ..)
    | with_reducible apply Only.after (State.emit_only ..)
    | with_reducible intro _
    | split)

theorem execSeamRetrainComplete_only (mod : Fin 16) (foundFailed : BitVec 64) (s : State) (t : State) (hq : execSeamRetrainComplete mod foundFailed s = .next t) :
    Only [.lantern, .lsChanges, .geo, .claims, .intakes, .ports, .ics, .sealed, .commands, .power, .hostMem, .links, .seam, .events, .i3c, .out, .free] s t := by
  unfold execSeamRetrainComplete at hq
  injection hq with hq
  subst hq
  iterate 24 all_goals try (first
    | with_reducible exact Only.refl
    | with_reducible assumption
    | decide
    | dsimp only [id]
    | with_reducible apply Only.after (settle_only ..)
    | with_reducible apply Only.after (State.agree_only ..)
    | with_reducible apply Only.after (State.setSeamMod_only ..)
    | with_reducible apply Only.after (State.seamOut_only ..)
    | with_reducible intro _
    | split)

theorem execSeamDiscoveryRecord_only (rec : Discovery) (s : State) (t : State) (hq : execSeamDiscoveryRecord rec s = .next t) :
    Only [.seam] s t := by
  unfold execSeamDiscoveryRecord at hq
  injection hq with hq
  subst hq
  iterate 24 all_goals try (first
    | with_reducible exact Only.refl
    | with_reducible assumption
    | decide
    | dsimp only [id]
    | simp only [OnlyMk.mark]
    | ((with_reducible refine OnlyMk.of ?_ ?_); rotate_left; focus (intro p hp; cases p <;> first | exact absurd (by decide) hp | rfl | exact ⟨rfl, rfl⟩))
    | with_reducible intro _
    | split)

theorem execSeamNoPeer_only (s : State) (t : State) (hq : execSeamNoPeer s = .next t) :
    Only [.seam] s t := by
  unfold execSeamNoPeer at hq
  injection hq with hq
  subst hq
  iterate 24 all_goals try (first
    | with_reducible exact Only.refl
    | with_reducible assumption
    | decide
    | dsimp only [id]
    | simp only [OnlyMk.mark]
    | ((with_reducible refine OnlyMk.of ?_ ?_); rotate_left; focus (intro p hp; cases p <;> first | exact absurd (by decide) hp | rfl | exact ⟨rfl, rfl⟩))
    | with_reducible intro _
    | split)

/-! ## Machine/Firmware.lean -/

theorem execFwWrite_only (ctrl : Fin 4) (slot : Fin 1024) (s : State) (t : State) (hq : execFwWrite ctrl slot s = .next t) :
    Only [.intakes, .ics, .sealed, .commands, .mem, .events, .trust] s t := by
  unfold execFwWrite at hq
  injection hq with hq
  subst hq
  iterate 24 all_goals try (first
    | with_reducible exact Only.refl
    | with_reducible assumption
    | decide
    | dsimp only [id]
    | with_reducible refine State.serve_only ?_ (by decide) ?_
    | with_reducible refine Adm.checked_only ?_ (by decide) ?_
    | with_reducible apply Only.after (Adm.finish_only ..)
    | with_reducible apply Only.after (Adm.done_only ..)
    | with_reducible apply Only.after (State.setTrust_only ..)
    | with_reducible intro _
    | split)

theorem execFwStage_only (ctrl : Fin 4) (slot : Fin 1024) (s : State) (t : State) (hq : execFwStage ctrl slot s = .next t) :
    Only [.intakes, .ics, .sealed, .commands, .mem, .events, .trust] s t := by
  unfold execFwStage at hq
  injection hq with hq
  subst hq
  iterate 24 all_goals try (first
    | with_reducible exact Only.refl
    | with_reducible assumption
    | decide
    | dsimp only [id]
    | with_reducible refine State.serve_only ?_ (by decide) ?_
    | with_reducible refine Adm.checked_only ?_ (by decide) ?_
    | with_reducible apply Only.after (Adm.finish_only ..)
    | with_reducible apply Only.after (Adm.done_only ..)
    | with_reducible apply Only.after (State.setTrust_only ..)
    | with_reducible intro _
    | split)

theorem execFwActivate_only (ctrl : Fin 4) (slot : Fin 1024) (s : State) (t : State) (hq : execFwActivate ctrl slot s = .next t) :
    Only [.intakes, .ics, .sealed, .commands, .mem, .events, .trust] s t := by
  unfold execFwActivate at hq
  injection hq with hq
  subst hq
  iterate 24 all_goals try (first
    | with_reducible exact Only.refl
    | with_reducible assumption
    | decide
    | dsimp only [id]
    | with_reducible refine State.serve_only ?_ (by decide) ?_
    | with_reducible refine Adm.checked_only ?_ (by decide) ?_
    | with_reducible apply Only.after (Adm.done_only ..)
    | with_reducible apply Only.after (State.setTrust_only ..)
    | with_reducible intro _)

theorem execFwCommit_only (ctrl : Fin 4) (slot : Fin 1024) (s : State) (t : State) (hq : execFwCommit ctrl slot s = .next t) :
    Only [.fuses, .lsChanges, .intakes, .ports, .ics, .sealed, .commands, .mem, .hostMem, .seam, .events, .trust, .i3c, .out] s t := by
  unfold execFwCommit at hq
  injection hq with hq
  subst hq
  iterate 24 all_goals try (first
    | with_reducible exact Only.refl
    | with_reducible assumption
    | decide
    | dsimp only [id]
    | with_reducible apply Only.after (settle_only ..)
    | with_reducible refine State.serve_only ?_ (by decide) ?_
    | with_reducible refine Adm.checked_only ?_ (by decide) ?_
    | with_reducible apply Only.after (Adm.done_only ..)
    | with_reducible apply Only.after (State.tell_only ..)
    | with_reducible apply Only.after (State.commit_only ..)
    | with_reducible apply Only.after (Adm.finish_only ..)
    | with_reducible intro _
    | split)

theorem execFwAbandon_only (ctrl : Fin 4) (slot : Fin 1024) (s : State) (t : State) (hq : execFwAbandon ctrl slot s = .next t) :
    Only [.settings, .lantern, .lsChanges, .claims, .intakes, .ports, .ics, .sealed, .commands, .power, .mem, .hostMem, .links, .seam, .events, .trust, .i3c, .out, .free] s t := by
  unfold execFwAbandon at hq
  injection hq with hq
  subst hq
  iterate 24 all_goals try (first
    | with_reducible exact Only.refl
    | with_reducible assumption
    | decide
    | dsimp only [id]
    | with_reducible apply Only.after (settle_only ..)
    | with_reducible refine State.serve_only ?_ (by decide) ?_
    | with_reducible refine Adm.checked_only ?_ (by decide) ?_
    | with_reducible apply Only.after (State.failTrial_only ..)
    | with_reducible apply Only.after (Adm.done_only ..)
    | with_reducible apply Only.after (State.setTrust_only ..)
    | with_reducible apply Only.after (Adm.finish_only ..)
    | with_reducible intro _
    | split)

theorem execTrialTimeout_only (s : State) (t : State) (hq : execTrialTimeout s = .next t) :
    Only [.settings, .lantern, .lsChanges, .claims, .intakes, .ports, .ics, .sealed, .commands, .power, .hostMem, .links, .seam, .events, .trust, .i3c, .out, .free] s t := by
  unfold execTrialTimeout at hq
  injection hq with hq
  subst hq
  iterate 24 all_goals try (first
    | with_reducible exact Only.refl
    | with_reducible assumption
    | decide
    | dsimp only [id]
    | with_reducible apply Only.after (settle_only ..)
    | with_reducible apply Only.after (State.failTrial_only ..)
    | with_reducible intro _
    | split)

theorem execTrustPolicy_only (ctrl : Fin 4) (slot : Fin 1024) (s : State) (t : State) (hq : execTrustPolicy ctrl slot s = .next t) :
    Only [.settings, .intakes, .ics, .sealed, .commands, .mem, .events, .trust] s t := by
  unfold execTrustPolicy at hq
  injection hq with hq
  subst hq
  iterate 24 all_goals try (first
    | with_reducible exact Only.refl
    | with_reducible assumption
    | decide
    | dsimp only [id]
    | with_reducible refine State.serve_only ?_ (by decide) ?_
    | with_reducible refine Adm.checked_only ?_ (by decide) ?_
    | with_reducible apply Only.after (Adm.done_only ..)
    | with_reducible apply Only.after (State.setSettings_only ..)
    | with_reducible intro _)

theorem Adm.readSource_only (a : Adm) (s : State) (off : Nat) (n : Nat) :
    Only [.ics, .commands, .mem, .events, .free, .run] s (Adm.readSource a s off n).2.s := by
  unfold Adm.readSource
  iterate 24 all_goals try (first
    | with_reducible exact Only.refl
    | with_reducible assumption
    | decide
    | dsimp only [Io.halt]
    | with_reducible apply Only.after (State.load_only ..)
    | with_reducible intro _
    | split)

theorem Adm.readSource_only' {a : Adm} {s : State} {off : Nat} {n : Nat} {r0 : _} {t0 : Io} (hq : Adm.readSource a s off n = (r0, t0)) :
    Only [.ics, .commands, .mem, .events, .free, .run] s t0.s := by
  have gq := Adm.readSource_only a s off n
  rw [hq] at gq
  exact gq

theorem Adm.openChunks_only (a : Adm) (h : List Byte) (key : List Byte) (n : Nat) (x1 : State) (x2 : List Nat) :
    Only [.ics, .commands, .mem, .far, .events, .trust, .free, .run] x1 (Adm.openChunks a h key n x1 x2).s := by
  fun_induction Adm.openChunks a h key n x1 x2
  iterate 24 all_goals try (first
    | with_reducible exact Only.refl
    | with_reducible assumption
    | decide
    | dsimp only [Io.halt]
    | with_reducible apply Only.after (Adm.readSource_only ..)
    | with_reducible refine Only.after (Adm.readSource_only' (hq := by assumption)) (by decide) ?_
    | with_reducible apply Only.after (State.store_only ..)
    | with_reducible refine Only.trans ?_ (by assumption))

theorem Adm.openObject_only (a : Adm) (s : State) (h : List Byte) (key : List Byte) :
    Only [.ics, .commands, .mem, .far, .events, .trust, .free, .run] s (Adm.openObject a s h key) := by
  unfold Adm.openObject
  iterate 24 all_goals try (first
    | with_reducible exact Only.refl
    | with_reducible assumption
    | decide
    | dsimp only [id]
    | with_reducible apply Only.after (State.setTrust_only ..)
    | with_reducible apply Only.after (Adm.openChunks_only ..)
    | with_reducible apply Only.after (Adm.finish_only ..)
    | with_reducible apply Only.after (State.releaseRange_only ..)
    | with_reducible intro _
    | split)

theorem Adm.unseal_only (a : Adm) (s : State) (h : List Byte) :
    Only [.ics, .commands, .mem, .far, .events, .trust, .free, .run] s (Adm.unseal a s h) := by
  unfold Adm.unseal
  iterate 24 all_goals try (first
    | with_reducible exact Only.refl
    | with_reducible assumption
    | decide
    | dsimp only [id]
    | with_reducible apply Only.after (Adm.finish_only ..)
    | with_reducible apply Only.after (Adm.openObject_only ..)
    | with_reducible intro _
    | split)

theorem execWeightsUnseal_only (ctrl : Fin 4) (slot : Fin 1024) (s : State) (t : State) (hq : execWeightsUnseal ctrl slot s = .next t) :
    Only [.intakes, .ics, .sealed, .commands, .mem, .far, .events, .trust, .free, .run] s t := by
  unfold execWeightsUnseal at hq
  injection hq with hq
  subst hq
  iterate 24 all_goals try (first
    | with_reducible exact Only.refl
    | with_reducible assumption
    | decide
    | dsimp only [id]
    | with_reducible refine State.serve_only ?_ (by decide) ?_
    | with_reducible refine Adm.checked_only ?_ (by decide) ?_
    | with_reducible apply Only.after (Adm.readSource_only ..)
    | with_reducible refine Only.after (Adm.readSource_only' (hq := by assumption)) (by decide) ?_
    | with_reducible apply Only.after (Adm.finish_only ..)
    | with_reducible apply Only.after (Adm.unseal_only ..)
    | with_reducible intro _
    | split)

theorem execSealedRelease_only (ctrl : Fin 4) (slot : Fin 1024) (s : State) (t : State) (hq : execSealedRelease ctrl slot s = .next t) :
    Only [.intakes, .ics, .sealed, .commands, .mem, .events, .trust] s t := by
  unfold execSealedRelease at hq
  injection hq with hq
  subst hq
  iterate 24 all_goals try (first
    | with_reducible exact Only.refl
    | with_reducible assumption
    | decide
    | dsimp only [id]
    | with_reducible refine State.serve_only ?_ (by decide) ?_
    | with_reducible refine Adm.checked_only ?_ (by decide) ?_
    | with_reducible apply Only.after (Adm.finish_only ..)
    | with_reducible apply Only.after (Adm.done_only ..)
    | with_reducible apply Only.after (State.releaseRange_only ..)
    | with_reducible intro _
    | split)

/-! ## Machine/Spdm.lean -/

theorem State.spdmSay_only (s : State) (p : Fin 2) (r : SpdmRsp) (bs : List Byte) :
    Only [.out] s (State.spdmSay s p r bs) := by
  unfold State.spdmSay
  iterate 24 all_goals try (first
    | with_reducible exact Only.refl
    | with_reducible assumption
    | decide
    | dsimp only [id]
    | with_reducible apply Only.after (State.emit_only ..))

theorem State.spdmErr_only (s : State) (p : Fin 2) (e : SpdmErr) :
    Only [.out] s (State.spdmErr s p e) := by
  unfold State.spdmErr
  iterate 24 all_goals try (first
    | with_reducible exact Only.refl
    | with_reducible assumption
    | decide
    | dsimp only [id]
    | with_reducible apply Only.after (State.spdmSay_only ..))

theorem State.spdmRefuse_only (s : State) (p : Fin 2) (r : Reason) :
    Only [.out] s (State.spdmRefuse s p r) := by
  unfold State.spdmRefuse
  iterate 24 all_goals try (first
    | with_reducible exact Only.refl
    | with_reducible assumption
    | decide
    | dsimp only [id]
    | with_reducible apply Only.after (State.spdmSay_only ..))

theorem State.doeServe_only {L : List Part} {s0 : State} {s : State} {p : Fin 2} {go : State} (hs : Only L s0 s) (w : within [] L = true) (hb : Only L s0 go) :
    Only L s0 (State.doeServe s p go) := by
  unfold State.doeServe
  iterate 24 all_goals try (first
    | with_reducible exact Only.refl
    | with_reducible assumption
    | with_reducible refine Only.trans ?_ (hb ..)
    | exact within_trans (by decide) w
    | decide
    | dsimp only [id]
    | with_reducible intro _
    | split)

theorem State.spdmServe_only {L : List Part} {s0 : State} {s : State} {p : Fin 2} {go : State} (hs : Only L s0 s) (w : within [.out] L = true) (hb : Only L s0 go) :
    Only L s0 (State.spdmServe s p go) := by
  unfold State.spdmServe
  iterate 24 all_goals try (first
    | with_reducible exact Only.refl
    | with_reducible assumption
    | with_reducible refine Only.trans ?_ (hb ..)
    | exact within_trans (by decide) w
    | decide
    | dsimp only [id]
    | with_reducible refine State.doeServe_only ?_ (by first | decide | exact within_trans (by decide) w) ?_
    | with_reducible apply Only.after (State.spdmErr_only ..)
    | with_reducible intro _
    | split)

theorem execSpdmGetVersion_only (port : Fin 2) (s : State) (t : State) (hq : execSpdmGetVersion port s = .next t) :
    Only [.ports, .out] s t := by
  unfold execSpdmGetVersion at hq
  injection hq with hq
  subst hq
  iterate 24 all_goals try (first
    | with_reducible exact Only.refl
    | with_reducible assumption
    | decide
    | dsimp only [id]
    | with_reducible refine State.doeServe_only ?_ (by decide) ?_
    | with_reducible apply Only.after (State.spdmSay_only ..)
    | with_reducible apply Only.after (State.setPort_only ..))

theorem execSpdmGetCapabilities_only (port : Fin 2) (s : State) (t : State) (hq : execSpdmGetCapabilities port s = .next t) :
    Only [.ports, .out] s t := by
  unfold execSpdmGetCapabilities at hq
  injection hq with hq
  subst hq
  iterate 24 all_goals try (first
    | with_reducible exact Only.refl
    | with_reducible assumption
    | decide
    | dsimp only [id]
    | with_reducible refine State.doeServe_only ?_ (by decide) ?_
    | with_reducible apply Only.after (State.spdmSay_only ..)
    | with_reducible apply Only.after (State.setPort_only ..)
    | with_reducible apply Only.after (State.spdmErr_only ..)
    | with_reducible intro _
    | split)

theorem execSpdmNegotiateAlgorithms_only (port : Fin 2) (offersSet : Bool) (s : State) (t : State) (hq : execSpdmNegotiateAlgorithms port offersSet s = .next t) :
    Only [.ports, .out] s t := by
  unfold execSpdmNegotiateAlgorithms at hq
  injection hq with hq
  subst hq
  iterate 24 all_goals try (first
    | with_reducible exact Only.refl
    | with_reducible assumption
    | decide
    | dsimp only [id]
    | with_reducible refine State.doeServe_only ?_ (by decide) ?_
    | with_reducible apply Only.after (State.spdmErr_only ..)
    | with_reducible apply Only.after (State.spdmSay_only ..)
    | with_reducible apply Only.after (State.setPort_only ..)
    | with_reducible intro _
    | split)

theorem execSpdmGetDigests_only (port : Fin 2) (s : State) (t : State) (hq : execSpdmGetDigests port s = .next t) :
    Only [.out] s t := by
  unfold execSpdmGetDigests at hq
  injection hq with hq
  subst hq
  iterate 24 all_goals try (first
    | with_reducible exact Only.refl
    | with_reducible assumption
    | decide
    | dsimp only [id]
    | with_reducible refine State.spdmServe_only ?_ (by decide) ?_
    | with_reducible apply Only.after (State.spdmSay_only ..))

theorem execSpdmGetCertificate_only (port : Fin 2) (certSlot : Nat) (offset : Nat) (len : Nat) (s : State) (t : State) (hq : execSpdmGetCertificate port certSlot offset len s = .next t) :
    Only [.out] s t := by
  unfold execSpdmGetCertificate at hq
  injection hq with hq
  subst hq
  iterate 24 all_goals try (first
    | with_reducible exact Only.refl
    | with_reducible assumption
    | decide
    | dsimp only [id]
    | with_reducible refine State.spdmServe_only ?_ (by decide) ?_
    | with_reducible apply Only.after (State.spdmErr_only ..)
    | with_reducible apply Only.after (State.spdmSay_only ..)
    | with_reducible intro _
    | split)

theorem execSpdmChallenge_only (port : Fin 2) (nonce : List (BitVec 8)) (s : State) (t : State) (hq : execSpdmChallenge port nonce s = .next t) :
    Only [.trust, .out] s t := by
  unfold execSpdmChallenge at hq
  injection hq with hq
  subst hq
  iterate 24 all_goals try (first
    | with_reducible exact Only.refl
    | with_reducible assumption
    | decide
    | dsimp only [id]
    | with_reducible apply Only.after (State.drawKey_only ..)
    | with_reducible refine Only.after (State.drawKey_only' (hq := by assumption)) (by decide) ?_
    | with_reducible refine State.spdmServe_only ?_ (by decide) ?_
    | with_reducible apply Only.after (State.spdmErr_only ..)
    | with_reducible apply Only.after (State.spdmRefuse_only ..)
    | with_reducible apply Only.after (State.spdmSay_only ..)
    | with_reducible apply Only.after (State.setTrust_only ..)
    | with_reducible intro _
    | split)

theorem execSpdmGetMeasurements_only (port : Fin 2) (block : BitVec 8) (nonce : List (BitVec 8)) (s : State) (t : State) (hq : execSpdmGetMeasurements port block nonce s = .next t) :
    Only [.geo, .out] s t := by
  unfold execSpdmGetMeasurements at hq
  injection hq with hq
  subst hq
  iterate 24 all_goals try (first
    | with_reducible exact Only.refl
    | with_reducible assumption
    | decide
    | dsimp only [id]
    | with_reducible refine State.spdmServe_only ?_ (by decide) ?_
    | with_reducible apply Only.after (State.spdmSay_only ..)
    | with_reducible apply Only.after (State.spdmErr_only ..)
    | with_reducible apply Only.after (State.spdmRefuse_only ..)
    | with_reducible intro _
    | split)

theorem execSpdmKeyExchange_only (port : Fin 2) (ek : List (BitVec 8)) (s : State) (t : State) (hq : execSpdmKeyExchange port ek s = .next t) :
    Only [.ports, .trust, .out] s t := by
  unfold execSpdmKeyExchange at hq
  injection hq with hq
  subst hq
  iterate 24 all_goals try (first
    | with_reducible exact Only.refl
    | with_reducible assumption
    | decide
    | dsimp only [id]
    | with_reducible apply Only.after (State.drawKey_only ..)
    | with_reducible refine Only.after (State.drawKey_only' (hq := by assumption)) (by decide) ?_
    | with_reducible refine State.spdmServe_only ?_ (by decide) ?_
    | with_reducible apply Only.after (State.spdmRefuse_only ..)
    | with_reducible apply Only.after (State.spdmErr_only ..)
    | with_reducible apply Only.after (State.spdmSay_only ..)
    | with_reducible apply Only.after (State.setPort_only ..)
    | with_reducible apply Only.after (State.setTrust_only ..)
    | with_reducible intro _
    | split)

theorem execSpdmFinish_only (port : Fin 2) (session : Nat) (hmac : List (BitVec 8)) (s : State) (t : State) (hq : execSpdmFinish port session hmac s = .next t) :
    Only [.ports, .out] s t := by
  unfold execSpdmFinish at hq
  injection hq with hq
  subst hq
  iterate 24 all_goals try (first
    | with_reducible exact Only.refl
    | with_reducible assumption
    | decide
    | dsimp only [id]
    | with_reducible refine State.spdmServe_only ?_ (by decide) ?_
    | with_reducible apply Only.after (State.spdmErr_only ..)
    | with_reducible apply Only.after (State.spdmSay_only ..)
    | with_reducible apply Only.after (State.setPort_only ..)
    | with_reducible intro _
    | split)

theorem State.inSession_only {L : List Part} {s0 : State} {s : State} {p : Fin 2} {id : Nat} {go : Session → State → State} (hs : Only L s0 s) (w : within [.ports, .out] L = true) (hb : ∀ u0 u1, Only L u1 (go u0 u1)) :
    Only L s0 (State.inSession s p id go) := by
  unfold State.inSession
  iterate 24 all_goals try (first
    | with_reducible exact Only.refl
    | with_reducible assumption
    | with_reducible refine Only.trans ?_ (hb ..)
    | exact within_trans (by decide) w
    | decide
    | dsimp only [id]
    | with_reducible refine State.spdmServe_only ?_ (by first | decide | exact within_trans (by decide) w) ?_
    | with_reducible apply Only.after (State.spdmErr_only ..)
    | with_reducible apply Only.after (State.setPort_only ..)
    | with_reducible intro _
    | split)

theorem execSpdmKeyUpdate_only (port : Fin 2) (session : Nat) (s : State) (t : State) (hq : execSpdmKeyUpdate port session s = .next t) :
    Only [.ports, .out] s t := by
  unfold execSpdmKeyUpdate at hq
  injection hq with hq
  subst hq
  iterate 24 all_goals try (first
    | with_reducible exact Only.refl
    | with_reducible assumption
    | decide
    | dsimp only [id]
    | with_reducible refine State.inSession_only ?_ (by decide) ?_
    | with_reducible apply Only.after (State.spdmSay_only ..)
    | with_reducible apply Only.after (State.setPort_only ..)
    | with_reducible intro _)

theorem execSpdmHeartbeat_only (port : Fin 2) (session : Nat) (s : State) (t : State) (hq : execSpdmHeartbeat port session s = .next t) :
    Only [.ports, .out] s t := by
  unfold execSpdmHeartbeat at hq
  injection hq with hq
  subst hq
  iterate 24 all_goals try (first
    | with_reducible exact Only.refl
    | with_reducible assumption
    | decide
    | dsimp only [id]
    | with_reducible refine State.inSession_only ?_ (by decide) ?_
    | with_reducible apply Only.after (State.spdmSay_only ..)
    | with_reducible intro _)

theorem execSpdmEndSession_only (port : Fin 2) (session : Nat) (s : State) (t : State) (hq : execSpdmEndSession port session s = .next t) :
    Only [.ports, .out] s t := by
  unfold execSpdmEndSession at hq
  injection hq with hq
  subst hq
  iterate 24 all_goals try (first
    | with_reducible exact Only.refl
    | with_reducible assumption
    | decide
    | dsimp only [id]
    | with_reducible refine State.inSession_only ?_ (by decide) ?_
    | with_reducible apply Only.after (State.spdmSay_only ..)
    | with_reducible apply Only.after (State.setPort_only ..)
    | with_reducible intro _)

theorem execSpdmSessionTimeout_only (port : Fin 2) (session : Nat) (s : State) (t : State) (hq : execSpdmSessionTimeout port session s = .next t) :
    Only [.ports] s t := by
  unfold execSpdmSessionTimeout at hq
  injection hq with hq
  subst hq
  iterate 24 all_goals try (first
    | with_reducible exact Only.refl
    | with_reducible assumption
    | decide
    | dsimp only [id]
    | with_reducible apply Only.after (State.setPort_only ..)
    | with_reducible intro _
    | split)

theorem State.flushHeld_only (s : State) (p : Fin 2) :
    Only [.ports, .hostMem, .out] s (State.flushHeld s p) := by
  unfold State.flushHeld
  iterate 24 all_goals try (first
    | with_reducible exact Only.refl
    | with_reducible assumption
    | decide
    | dsimp only [id]
    | with_reducible apply Only.after (State.putHost_only ..)
    | with_reducible apply Only.after (State.setPort_only ..)
    | with_reducible refine Only.foldl _ ?_ ?_
    | with_reducible refine Only.foldlPair ?_ ?_
    | with_reducible refine Only.foldlPair' (by assumption) ?_ ?_
    | with_reducible intro _)

theorem State.vendorSay_only (s : State) (p : Fin 2) (code : Nat) (bs : List Byte) :
    Only [.out] s (State.vendorSay s p code bs) := by
  unfold State.vendorSay
  iterate 24 all_goals try (first
    | with_reducible exact Only.refl
    | with_reducible assumption
    | decide
    | dsimp only [id]
    | with_reducible apply Only.after (State.spdmSay_only ..))

theorem State.tdispErr_only (s : State) (p : Fin 2) :
    Only [.out] s (State.tdispErr s p) := by
  unfold State.tdispErr
  iterate 24 all_goals try (first
    | with_reducible exact Only.refl
    | with_reducible assumption
    | decide
    | dsimp only [id]
    | with_reducible apply Only.after (State.vendorSay_only ..))

theorem State.tdispLock_only (s : State) (p : Fin 2) (stream : Fin 5) :
    Only [.ports, .trust, .out] s (State.tdispLock s p stream) := by
  unfold State.tdispLock
  iterate 24 all_goals try (first
    | with_reducible exact Only.refl
    | with_reducible assumption
    | decide
    | dsimp only [id]
    | with_reducible apply Only.after (State.drawKey_only ..)
    | with_reducible refine Only.after (State.drawKey_only' (hq := by assumption)) (by decide) ?_
    | with_reducible apply Only.after (State.vendorSay_only ..)
    | with_reducible apply Only.after (State.setPort_only ..)
    | with_reducible apply Only.after (State.tdispErr_only ..)
    | with_reducible intro _
    | split)

theorem State.tdispStart_only (s : State) (p : Fin 2) :
    Only [.ports, .hostMem, .out] s (State.tdispStart s p) := by
  unfold State.tdispStart
  iterate 24 all_goals try (first
    | with_reducible exact Only.refl
    | with_reducible assumption
    | decide
    | dsimp only [id]
    | with_reducible apply Only.after (State.vendorSay_only ..)
    | with_reducible apply Only.after (State.flushHeld_only ..)
    | with_reducible apply Only.after (State.setPort_only ..)
    | with_reducible apply Only.after (State.tdispErr_only ..)
    | with_reducible intro _
    | split)

theorem State.tdispStop_only (s : State) (p : Fin 2) :
    Only [.ports, .ics, .mem, .hostMem, .events, .trust, .out] s (State.tdispStop s p) := by
  unfold State.tdispStop
  iterate 24 all_goals try (first
    | with_reducible exact Only.refl
    | with_reducible assumption
    | decide
    | dsimp only [id]
    | with_reducible apply Only.after (State.flushHeld_only ..)
    | with_reducible apply Only.after (State.setPort_only ..)
    | with_reducible apply Only.after (State.vendorSay_only ..)
    | with_reducible apply Only.after (State.releaseTdiRanges_only ..)
    | with_reducible intro _
    | split)

theorem State.ideStop_only (s : State) (p : Fin 2) (stream : Fin 5) :
    Only [.claims, .intakes, .ports, .ics, .sealed, .commands, .power, .mem, .links, .events, .trust, .out] s (State.ideStop s p stream) := by
  unfold State.ideStop
  iterate 24 all_goals try (first
    | with_reducible exact Only.refl
    | with_reducible assumption
    | decide
    | dsimp only [id]
    | with_reducible apply Only.after (State.setPort_only ..)
    | with_reducible apply Only.after (State.vendorSay_only ..)
    | with_reducible apply Only.after (State.tdiFails_only ..)
    | with_reducible intro _
    | split)

theorem State.vendorDo_only (s : State) (p : Fin 2) (req : VendorReq) :
    Only [.claims, .intakes, .ports, .ics, .sealed, .commands, .power, .mem, .hostMem, .links, .events, .trust, .out] s (State.vendorDo s p req) := by
  unfold State.vendorDo
  iterate 24 all_goals try (first
    | with_reducible exact Only.refl
    | with_reducible assumption
    | decide
    | dsimp only [id]
    | with_reducible apply Only.after (State.vendorSay_only ..)
    | with_reducible apply Only.after (State.setPort_only ..)
    | with_reducible apply Only.after (State.ideStop_only ..)
    | with_reducible apply Only.after (State.tdispLock_only ..)
    | with_reducible apply Only.after (State.tdispStart_only ..)
    | with_reducible apply Only.after (State.tdispStop_only ..)
    | with_reducible intro _
    | split)

theorem execSpdmVendorDefined_only (port : Fin 2) (session : Option Nat) (req : VendorReq) (s : State) (t : State) (hq : execSpdmVendorDefined port session req s = .next t) :
    Only [.claims, .intakes, .ports, .ics, .sealed, .commands, .power, .mem, .hostMem, .links, .events, .trust, .out] s t := by
  unfold execSpdmVendorDefined at hq
  injection hq with hq
  subst hq
  iterate 24 all_goals try (first
    | with_reducible exact Only.refl
    | with_reducible assumption
    | decide
    | dsimp only [id]
    | with_reducible refine State.spdmServe_only ?_ (by decide) ?_
    | with_reducible apply Only.after (State.spdmErr_only ..)
    | with_reducible refine State.inSession_only ?_ (by decide) ?_
    | with_reducible apply Only.after (State.vendorDo_only ..)
    | with_reducible intro _
    | split)

/-! ## Machine/Electrical.lean -/

theorem State.powerUp_only (s : State) :
    Only [.board, .lantern, .lsChanges, .geo, .own, .claims, .ownPorts, .intakes, .ports, .ics, .wdogs, .sealed, .bmcFifo, .commands, .rations, .time, .power, .thermal, .mem, .far, .cores, .kv, .links, .seam, .cv, .events, .trust, .i3c, .run] s (State.powerUp s) := by
  unfold State.powerUp
  iterate 24 all_goals try (first
    | with_reducible exact Only.refl
    | with_reducible assumption
    | decide
    | dsimp only [id]
    | with_reducible apply Only.after (State.startCold_only ..)
    | simp only [OnlyMk.mark]
    | ((with_reducible refine OnlyMk.of ?_ ?_); rotate_left; focus (intro p hp; cases p <;> first | exact absurd (by decide) hp | rfl | exact ⟨rfl, rfl⟩)))

theorem execVinApply_only (milliVolts : Nat) (s : State) (t : State) (hq : execVinApply milliVolts s = .next t) :
    Only [.board, .lantern, .lsChanges, .geo, .own, .claims, .ownPorts, .intakes, .ports, .ics, .wdogs, .sealed, .bmcFifo, .commands, .rations, .time, .power, .thermal, .mem, .hostMem, .far, .cores, .kv, .links, .seam, .cv, .events, .trust, .i3c, .out, .run] s t := by
  unfold execVinApply at hq
  injection hq with hq
  subst hq
  iterate 24 all_goals try (first
    | with_reducible exact Only.refl
    | with_reducible assumption
    | decide
    | dsimp only [id]
    | with_reducible apply Only.after (settle_only ..)
    | with_reducible apply Only.after (State.powerUp_only ..)
    | simp only [OnlyMk.mark]
    | ((with_reducible refine OnlyMk.of ?_ ?_); rotate_left; focus (intro p hp; cases p <;> first | exact absurd (by decide) hp | rfl | exact ⟨rfl, rfl⟩))
    | with_reducible intro _
    | split)

theorem execMateSnsChange_only (high : Bool) (s : State) (t : State) (hq : execMateSnsChange high s = .next t) :
    Only [.board] s t := by
  unfold execMateSnsChange at hq
  injection hq with hq
  subst hq
  iterate 24 all_goals try (first
    | with_reducible exact Only.refl
    | with_reducible assumption
    | decide
    | dsimp only [id]
    | simp only [OnlyMk.mark]
    | ((with_reducible refine OnlyMk.of ?_ ?_); rotate_left; focus (intro p hp; cases p <;> first | exact absurd (by decide) hp | rfl | exact ⟨rfl, rfl⟩)))

theorem execOvervoltage_only (milliVolts : Nat) (s : State) (t : State) (hq : execOvervoltage milliVolts s = .next t) :
    Only [.board] s t := by
  unfold execOvervoltage at hq
  injection hq with hq
  subst hq
  iterate 24 all_goals try (first
    | with_reducible exact Only.refl
    | with_reducible assumption
    | decide
    | dsimp only [id]
    | simp only [OnlyMk.mark]
    | ((with_reducible refine OnlyMk.of ?_ ?_); rotate_left; focus (intro p hp; cases p <;> first | exact absurd (by decide) hp | rfl | exact ⟨rfl, rfl⟩))
    | with_reducible intro _
    | split)

theorem execPowerFail_only (s : State) (t : State) (hq : execPowerFail s = .next t) :
    Only [.board, .lantern, .lsChanges, .geo, .own, .claims, .ownPorts, .intakes, .ports, .ics, .wdogs, .sealed, .bmcFifo, .commands, .rations, .time, .power, .thermal, .mem, .far, .cores, .kv, .links, .seam, .cv, .events, .trust, .i3c, .run] s t := by
  unfold execPowerFail at hq
  injection hq with hq
  subst hq
  iterate 24 all_goals try (first
    | with_reducible exact Only.refl
    | with_reducible assumption
    | decide
    | dsimp only [id]
    | with_reducible apply Only.after (State.setRails_only ..)
    | with_reducible apply Only.after (State.kept_only ..)
    | simp only [OnlyMk.mark]
    | ((with_reducible refine OnlyMk.of ?_ ?_); rotate_left; focus (intro p hp; cases p <;> first | exact absurd (by decide) hp | rfl | exact ⟨rfl, rfl⟩))
    | with_reducible intro _
    | split)

theorem execRetentionHandoff_only (s : State) (t : State) (hq : execRetentionHandoff s = .next t) :
    Only [.board] s t := by
  unfold execRetentionHandoff at hq
  injection hq with hq
  subst hq
  iterate 24 all_goals try (first
    | with_reducible exact Only.refl
    | with_reducible assumption
    | decide
    | dsimp only [id]
    | simp only [OnlyMk.mark]
    | ((with_reducible refine OnlyMk.of ?_ ?_); rotate_left; focus (intro p hp; cases p <;> first | exact absurd (by decide) hp | rfl | exact ⟨rfl, rfl⟩))
    | with_reducible intro _
    | split)

theorem execRetentionExpiry_only (s : State) (t : State) (hq : execRetentionExpiry s = .next t) :
    Only [.board, .events] s t := by
  unfold execRetentionExpiry at hq
  injection hq with hq
  subst hq
  iterate 24 all_goals try (first
    | with_reducible exact Only.refl
    | with_reducible assumption
    | decide
    | dsimp only [id]
    | simp only [OnlyMk.mark]
    | ((with_reducible refine OnlyMk.of ?_ ?_); rotate_left; focus (intro p hp; cases p <;> first | exact absurd (by decide) hp | rfl | exact ⟨rfl, rfl⟩))
    | with_reducible intro _
    | split)

theorem State.seamGone_only (s : State) :
    Only [.seam] s (State.seamGone s) := by
  unfold State.seamGone
  iterate 24 all_goals try (first
    | with_reducible exact Only.refl
    | with_reducible assumption
    | decide
    | dsimp only [id]
    | simp only [OnlyMk.mark]
    | ((with_reducible refine OnlyMk.of ?_ ?_); rotate_left; focus (intro p hp; cases p <;> first | exact absurd (by decide) hp | rfl | exact ⟨rfl, rfl⟩)))

theorem State.portsGone_only (s : State) (half : Fin 2) :
    Only [.ports, .commands, .links] s (State.portsGone s half) := by
  unfold State.portsGone
  iterate 24 all_goals try (first
    | with_reducible exact Only.refl
    | with_reducible assumption
    | decide
    | dsimp only [id]
    | with_reducible apply Only.after (State.hostLinkLost_only ..)
    | with_reducible apply Only.after (State.setPort_only ..)
    | simp only [OnlyMk.mark]
    | ((with_reducible refine OnlyMk.of ?_ ?_); rotate_left; focus (intro p hp; cases p <;> first | exact absurd (by decide) hp | rfl | exact ⟨rfl, rfl⟩))
    | with_reducible intro _
    | split)

theorem State.dropHalfRails_only (s : State) (half : Fin 2) :
    Only [.board] s (State.dropHalfRails s half) := by
  unfold State.dropHalfRails
  iterate 24 all_goals try (first
    | with_reducible exact Only.refl
    | with_reducible assumption
    | decide
    | dsimp only [id]
    | simp only [OnlyMk.mark]
    | ((with_reducible refine OnlyMk.of ?_ ?_); rotate_left; focus (intro p hp; cases p <;> first | exact absurd (by decide) hp | rfl | exact ⟨rfl, rfl⟩)))

theorem execRailFault_only (half : Fin 2) (s : State) (t : State) (hq : execRailFault half s = .next t) :
    Only [.board, .lantern, .lsChanges, .intakes, .ports, .ics, .wdogs, .sealed, .bmcFifo, .commands, .thermal, .mem, .hostMem, .far, .cores, .kv, .links, .seam, .cv, .trust, .i3c, .out] s t := by
  unfold execRailFault at hq
  injection hq with hq
  subst hq
  iterate 24 all_goals try (first
    | with_reducible exact Only.refl
    | with_reducible assumption
    | decide
    | dsimp only [id]
    | with_reducible apply Only.after (State.seamGone_only ..)
    | with_reducible apply Only.after (State.dropHalfRails_only ..)
    | with_reducible apply Only.after (State.portsGone_only ..)
    | with_reducible apply Only.after (settle_only ..)
    | with_reducible apply Only.after (State.setThermal_only ..)
    | with_reducible apply Only.after (State.loseMemory_only ..)
    | with_reducible apply Only.after (State.holdReset_only ..)
    | with_reducible apply Only.after (State.setLantern_only ..)
    | with_reducible intro _
    | split)

/-! ## Machine/RegWrite.lean -/

theorem State.ownActions_only (s : State) (c : Fin 4) (w : Nat) :
    Only [.own, .claims, .ownPorts, .ports, .ics, .mem, .hostMem, .links, .events, .trust, .i3c, .out] s (State.ownActions s c w) := by
  unfold State.ownActions
  iterate 24 all_goals try (first
    | with_reducible exact Only.refl
    | with_reducible assumption
    | decide
    | dsimp only [id]
    | with_reducible apply Only.after (State.claim_only ..)
    | with_reducible apply Only.after (State.renew_only ..)
    | with_reducible apply Only.after (State.handover_only ..)
    | with_reducible apply Only.after (State.accept_only ..)
    | with_reducible apply Only.after (State.release_only ..)
    | with_reducible intro _
    | split)

theorem State.ownFields_only (s : State) (c : Nat) (w : Nat) :
    Only [.own, .ownPorts] s (State.ownFields s c w) := by
  unfold State.ownFields
  iterate 24 all_goals try (first
    | with_reducible exact Only.refl
    | with_reducible assumption
    | decide
    | dsimp only [id]
    | with_reducible apply Only.after (State.setOwnPort_only ..)
    | with_reducible apply Only.after (State.deny_only ..)
    | simp only [OnlyMk.mark]
    | ((with_reducible refine OnlyMk.of ?_ ?_); rotate_left; focus (intro p hp; cases p <;> first | exact absurd (by decide) hp | rfl | exact ⟨rfl, rfl⟩))
    | with_reducible intro _
    | split)

theorem State.ownWrite_only (s : State) (c : Fin 4) (off : Nat) (w : Nat) :
    Only [.own, .claims, .ownPorts, .ports, .ics, .mem, .hostMem, .links, .events, .trust, .i3c, .out] s (State.ownWrite s c off w) := by
  unfold State.ownWrite
  iterate 24 all_goals try (first
    | with_reducible exact Only.refl
    | with_reducible assumption
    | decide
    | dsimp only [id]
    | with_reducible apply Only.after (State.setOwnPort_only ..)
    | with_reducible apply Only.after (State.ownFields_only ..)
    | with_reducible apply Only.after (State.ownActions_only ..)
    | with_reducible intro _
    | split)

theorem State.ringsWrite_only (s : State) (p : Nat) (off : Nat) (w : Nat) :
    Only [.intakes, .ports, .hostMem, .out] s (State.ringsWrite s p off w) := by
  unfold State.ringsWrite
  iterate 24 all_goals try (first
    | with_reducible exact Only.refl
    | with_reducible assumption
    | decide
    | dsimp only [id]
    | with_reducible apply Only.after (State.writeModeration_only ..)
    | with_reducible apply Only.after (State.writeHead_only ..)
    | with_reducible apply Only.after (State.setPort_only ..)
    | with_reducible apply Only.after (State.setIntake_only ..)
    | with_reducible apply Only.after (State.applyRings_only ..)
    | with_reducible intro _
    | split)

theorem State.rationsWrite_only (s : State) (off : Nat) (w : Nat) :
    Only [.rations] s (State.rationsWrite s off w) := by
  unfold State.rationsWrite
  iterate 24 all_goals try (first
    | with_reducible exact Only.refl
    | with_reducible assumption
    | decide
    | dsimp only [id]
    | with_reducible apply Only.after (State.applyRations_only ..)
    | simp only [OnlyMk.mark]
    | ((with_reducible refine OnlyMk.of ?_ ?_); rotate_left; focus (intro p hp; cases p <;> first | exact absurd (by decide) hp | rfl | exact ⟨rfl, rfl⟩))
    | with_reducible intro _
    | split)

theorem State.ownerWrite_only {L : List Part} {s0 : State} {s : State} {c : Nat} {go : State} (hs : Only L s0 s) (w : within [.ownPorts] L = true) (hb : Only L s0 go) :
    Only L s0 (State.ownerWrite s c go) := by
  unfold State.ownerWrite
  iterate 24 all_goals try (first
    | with_reducible exact Only.refl
    | with_reducible assumption
    | with_reducible refine Only.trans ?_ (hb ..)
    | exact within_trans (by decide) w
    | decide
    | dsimp only [id]
    | with_reducible apply Only.after (State.deny_only ..)
    | with_reducible intro _
    | split)

theorem State.msixWrite_only (s : State) (p : Fin 2) (off : Nat) (w : Nat) :
    Only [.ports, .hostMem, .out] s (State.msixWrite s p off w) := by
  unfold State.msixWrite
  iterate 24 all_goals try (first
    | with_reducible exact Only.refl
    | with_reducible assumption
    | decide
    | dsimp only [id]
    | with_reducible apply Only.after (State.setPort_only ..)
    | with_reducible apply Only.after (State.msix_only ..)
    | with_reducible intro _
    | split)

theorem State.wordWrite_only (s : State) (p : Fin 2) (off : Nat) (w : Nat) :
    Only [.own, .claims, .ownPorts, .intakes, .ports, .ics, .rations, .mem, .hostMem, .links, .cv, .events, .trust, .i3c, .out, .free] s (State.wordWrite s p off w) := by
  unfold State.wordWrite
  iterate 24 all_goals try (first
    | with_reducible exact Only.refl
    | with_reducible assumption
    | decide
    | dsimp only [id]
    | with_reducible apply Only.after (State.ownWrite_only ..)
    | with_reducible apply Only.after (State.ringsWrite_only ..)
    | with_reducible refine State.ownerWrite_only ?_ (by decide) ?_
    | with_reducible apply Only.after (State.rationsWrite_only ..)
    | with_reducible apply Only.after (State.cvWord_only ..)
    | with_reducible apply Only.after (State.msixWrite_only ..)
    | with_reducible intro _
    | split)

theorem State.slotWindow_only (s : State) (p : Fin 2) (off : Nat) (width : Nat) (value : BitVec 64) :
    Only [.intakes, .ics, .sealed] s (State.slotWindow s p off width value) := by
  unfold State.slotWindow
  iterate 24 all_goals try (first
    | with_reducible exact Only.refl
    | with_reducible assumption
    | decide
    | dsimp only [id]
    | with_reducible apply Only.after (State.slotWrite_only ..)
    | with_reducible apply Only.after (State.lockedWrite_only ..)
    | with_reducible intro _
    | split)

theorem execRegisterWrite_only (port : Fin 2) (offset : Nat) (width : Nat) (value : BitVec 64) (s : State) (t : State) (hq : execRegisterWrite port offset width value s = .next t) :
    Only [.lsChanges, .own, .claims, .ownPorts, .intakes, .ports, .ics, .sealed, .rations, .mem, .hostMem, .links, .cv, .events, .trust, .i3c, .out, .free] s t := by
  unfold execRegisterWrite at hq
  injection hq with hq
  subst hq
  iterate 24 all_goals try (first
    | with_reducible exact Only.refl
    | with_reducible assumption
    | decide
    | dsimp only [id]
    | with_reducible apply Only.after (settle_only ..)
    | with_reducible apply Only.after (State.slotWindow_only ..)
    | with_reducible apply Only.after (State.wordWrite_only ..)
    | with_reducible intro _
    | split)

/-! ## Machine/I3c.lean -/

theorem State.setI3c_only (s : State) (f : I3c → I3c) :
    Only [.i3c] s (State.setI3c s f) := by
  unfold State.setI3c
  iterate 24 all_goals try (first
    | with_reducible exact Only.refl
    | with_reducible assumption
    | decide
    | dsimp only [id]
    | simp only [OnlyMk.mark]
    | ((with_reducible refine OnlyMk.of ?_ ?_); rotate_left; focus (intro p hp; cases p <;> first | exact absurd (by decide) hp | rfl | exact ⟨rfl, rfl⟩)))

theorem State.i3cServe_only {L : List Part} {s0 : State} {s : State} {go : State} (hs : Only L s0 s) (w : within [] L = true) (hb : Only L s0 go) :
    Only L s0 (State.i3cServe s go) := by
  unfold State.i3cServe
  iterate 24 all_goals try (first
    | with_reducible exact Only.refl
    | with_reducible assumption
    | with_reducible refine Only.trans ?_ (hb ..)
    | exact within_trans (by decide) w
    | decide
    | dsimp only [id]
    | with_reducible intro _
    | split)

theorem State.i3cSay_only (s : State) (bs : List Byte) :
    Only [.out] s (State.i3cSay s bs) := by
  unfold State.i3cSay
  iterate 24 all_goals try (first
    | with_reducible exact Only.refl
    | with_reducible assumption
    | decide
    | dsimp only [id]
    | with_reducible apply Only.after (State.emit_only ..))

theorem State.i3cWrite_only {L : List Part} {s0 : State} {s : State} {n : Nat} {fits : Bool} {go : State} (hs : Only L s0 s) (w : within [.intakes] L = true) (hb : Only L s0 go) :
    Only L s0 (State.i3cWrite s n fits go) := by
  unfold State.i3cWrite
  iterate 24 all_goals try (first
    | with_reducible exact Only.refl
    | with_reducible assumption
    | with_reducible refine Only.trans ?_ (hb ..)
    | exact within_trans (by decide) w
    | decide
    | dsimp only [id]
    | with_reducible refine State.i3cServe_only ?_ (by first | decide | exact within_trans (by decide) w) ?_
    | with_reducible apply Only.after (State.lockedWrite_only ..)
    | with_reducible intro _
    | split)

theorem execI3cSlotWrite_only (slot : BitVec 8) (offset : BitVec 16) (data : List (BitVec 8)) (s : State) (t : State) (hq : execI3cSlotWrite slot offset data s = .next t) :
    Only [.intakes, .ics, .sealed] s t := by
  unfold execI3cSlotWrite at hq
  injection hq with hq
  subst hq
  iterate 24 all_goals try (first
    | with_reducible exact Only.refl
    | with_reducible assumption
    | decide
    | dsimp only [id]
    | with_reducible refine State.i3cWrite_only ?_ (by decide) ?_
    | with_reducible apply Only.after (State.slotWrite_only ..))

theorem execI3cSpaceRead_only (space : BitVec 8) (offset : BitVec 64) (s : State) (t : State) (hq : execI3cSpaceRead space offset s = .next t) :
    Only [.intakes, .i3c] s t := by
  unfold execI3cSpaceRead at hq
  injection hq with hq
  subst hq
  iterate 24 all_goals try (first
    | with_reducible exact Only.refl
    | with_reducible assumption
    | decide
    | dsimp only [id]
    | with_reducible refine State.i3cWrite_only ?_ (by decide) ?_
    | with_reducible apply Only.after (State.setI3c_only ..))

theorem execI3cRecordRead_only (s : State) (t : State) (hq : execI3cRecordRead s = .next t) :
    Only [.intakes, .i3c] s t := by
  unfold execI3cRecordRead at hq
  injection hq with hq
  subst hq
  iterate 24 all_goals try (first
    | with_reducible exact Only.refl
    | with_reducible assumption
    | decide
    | dsimp only [id]
    | with_reducible refine State.i3cWrite_only ?_ (by decide) ?_
    | with_reducible apply Only.after (State.setI3c_only ..))

theorem execI3cAttestNonce_only (nonce : List (BitVec 8)) (s : State) (t : State) (hq : execI3cAttestNonce nonce s = .next t) :
    Only [.geo, .intakes, .i3c] s t := by
  unfold execI3cAttestNonce at hq
  injection hq with hq
  subst hq
  iterate 24 all_goals try (first
    | with_reducible exact Only.refl
    | with_reducible assumption
    | decide
    | dsimp only [id]
    | with_reducible refine State.i3cWrite_only ?_ (by decide) ?_
    | with_reducible apply Only.after (State.ibi_only ..)
    | with_reducible apply Only.after (State.setI3c_only ..)
    | with_reducible intro _
    | split)

theorem execI3cWriteDiscard_only (s : State) (t : State) (hq : execI3cWriteDiscard s = .next t) :
    Only [.intakes] s t := by
  unfold execI3cWriteDiscard at hq
  injection hq with hq
  subst hq
  iterate 24 all_goals try (first
    | with_reducible exact Only.refl
    | with_reducible assumption
    | decide
    | dsimp only [id]
    | with_reducible refine State.i3cServe_only ?_ (by decide) ?_
    | with_reducible apply Only.after (State.lockedWrite_only ..))

theorem State.readRecord_only (s : State) (n : Nat) :
    Only [.bmcFifo, .i3c, .out] s (State.readRecord s n) := by
  unfold State.readRecord
  iterate 24 all_goals try (first
    | with_reducible exact Only.refl
    | with_reducible assumption
    | decide
    | dsimp only [id]
    | with_reducible apply Only.after (State.i3cSay_only ..)
    | with_reducible apply Only.after (State.setI3c_only ..)
    | with_reducible refine Only.setWarden ?_ ?_
    | simp only [OnlyMk.mark]
    | ((with_reducible refine OnlyMk.of ?_ ?_); rotate_left; focus (intro p hp; cases p <;> first | exact absurd (by decide) hp | rfl | exact ⟨rfl, rfl⟩))
    | with_reducible intro _
    | split)

theorem execI3cPrivateRead_only (len : Nat) (s : State) (t : State) (hq : execI3cPrivateRead len s = .next t) :
    Only [.geo, .bmcFifo, .i3c, .out] s t := by
  unfold execI3cPrivateRead at hq
  injection hq with hq
  subst hq
  iterate 24 all_goals try (first
    | with_reducible exact Only.refl
    | with_reducible assumption
    | decide
    | dsimp only [id]
    | with_reducible refine State.i3cServe_only ?_ (by decide) ?_
    | with_reducible apply Only.after (State.i3cSay_only ..)
    | with_reducible apply Only.after (State.setI3c_only ..)
    | with_reducible apply Only.after (State.readRecord_only ..)
    | with_reducible intro _
    | split)

theorem execI3cEntdaa_only (address : BitVec 7) (s : State) (t : State) (hq : execI3cEntdaa address s = .next t) :
    Only [.i3c, .out] s t := by
  unfold execI3cEntdaa at hq
  injection hq with hq
  subst hq
  iterate 24 all_goals try (first
    | with_reducible exact Only.refl
    | with_reducible assumption
    | decide
    | dsimp only [id]
    | with_reducible apply Only.after (State.i3cSay_only ..)
    | with_reducible apply Only.after (State.setI3c_only ..)
    | with_reducible intro _
    | split)

theorem execI3cRstdaa_only (s : State) (t : State) (hq : execI3cRstdaa s = .next t) :
    Only [.i3c] s t := by
  unfold execI3cRstdaa at hq
  injection hq with hq
  subst hq
  iterate 24 all_goals try (first
    | with_reducible exact Only.refl
    | with_reducible assumption
    | decide
    | dsimp only [id]
    | with_reducible refine State.i3cServe_only ?_ (by decide) ?_
    | with_reducible apply Only.after (State.setI3c_only ..))

theorem execI3cSetnewda_only (address : BitVec 7) (s : State) (t : State) (hq : execI3cSetnewda address s = .next t) :
    Only [.i3c] s t := by
  unfold execI3cSetnewda at hq
  injection hq with hq
  subst hq
  iterate 24 all_goals try (first
    | with_reducible exact Only.refl
    | with_reducible assumption
    | decide
    | dsimp only [id]
    | with_reducible refine State.i3cServe_only ?_ (by decide) ?_
    | with_reducible apply Only.after (State.setI3c_only ..))

theorem execI3cGetpid_only (s : State) (t : State) (hq : execI3cGetpid s = .next t) :
    Only [.out] s t := by
  unfold execI3cGetpid at hq
  injection hq with hq
  subst hq
  iterate 24 all_goals try (first
    | with_reducible exact Only.refl
    | with_reducible assumption
    | decide
    | dsimp only [id]
    | with_reducible refine State.i3cServe_only ?_ (by decide) ?_
    | with_reducible apply Only.after (State.i3cSay_only ..))

theorem execI3cGetbcr_only (s : State) (t : State) (hq : execI3cGetbcr s = .next t) :
    Only [.out] s t := by
  unfold execI3cGetbcr at hq
  injection hq with hq
  subst hq
  iterate 24 all_goals try (first
    | with_reducible exact Only.refl
    | with_reducible assumption
    | decide
    | dsimp only [id]
    | with_reducible refine State.i3cServe_only ?_ (by decide) ?_
    | with_reducible apply Only.after (State.i3cSay_only ..))

theorem execI3cGetdcr_only (s : State) (t : State) (hq : execI3cGetdcr s = .next t) :
    Only [.out] s t := by
  unfold execI3cGetdcr at hq
  injection hq with hq
  subst hq
  iterate 24 all_goals try (first
    | with_reducible exact Only.refl
    | with_reducible assumption
    | decide
    | dsimp only [id]
    | with_reducible refine State.i3cServe_only ?_ (by decide) ?_
    | with_reducible apply Only.after (State.i3cSay_only ..))

theorem execI3cGetstatus_only (s : State) (t : State) (hq : execI3cGetstatus s = .next t) :
    Only [.out] s t := by
  unfold execI3cGetstatus at hq
  injection hq with hq
  subst hq
  iterate 24 all_goals try (first
    | with_reducible exact Only.refl
    | with_reducible assumption
    | decide
    | dsimp only [id]
    | with_reducible refine State.i3cServe_only ?_ (by decide) ?_
    | with_reducible apply Only.after (State.i3cSay_only ..))

theorem execI3cEnec_only (ibi : Bool) (s : State) (t : State) (hq : execI3cEnec ibi s = .next t) :
    Only [.i3c] s t := by
  unfold execI3cEnec at hq
  injection hq with hq
  subst hq
  iterate 24 all_goals try (first
    | with_reducible exact Only.refl
    | with_reducible assumption
    | decide
    | dsimp only [id]
    | with_reducible refine State.i3cServe_only ?_ (by decide) ?_
    | with_reducible apply Only.after (State.setI3c_only ..))

theorem execI3cDisec_only (ibi : Bool) (s : State) (t : State) (hq : execI3cDisec ibi s = .next t) :
    Only [.i3c] s t := by
  unfold execI3cDisec at hq
  injection hq with hq
  subst hq
  iterate 24 all_goals try (first
    | with_reducible exact Only.refl
    | with_reducible assumption
    | decide
    | dsimp only [id]
    | with_reducible refine State.i3cServe_only ?_ (by decide) ?_
    | with_reducible apply Only.after (State.setI3c_only ..)
    | with_reducible intro _
    | split)

theorem execI3cGetmwl_only (s : State) (t : State) (hq : execI3cGetmwl s = .next t) :
    Only [.out] s t := by
  unfold execI3cGetmwl at hq
  injection hq with hq
  subst hq
  iterate 24 all_goals try (first
    | with_reducible exact Only.refl
    | with_reducible assumption
    | decide
    | dsimp only [id]
    | with_reducible refine State.i3cServe_only ?_ (by decide) ?_
    | with_reducible apply Only.after (State.i3cSay_only ..))

theorem execI3cSetmwl_only (len : BitVec 16) (s : State) (t : State) (hq : execI3cSetmwl len s = .next t) :
    Only [.i3c] s t := by
  unfold execI3cSetmwl at hq
  injection hq with hq
  subst hq
  iterate 24 all_goals try (first
    | with_reducible exact Only.refl
    | with_reducible assumption
    | decide
    | dsimp only [id]
    | with_reducible refine State.i3cServe_only ?_ (by decide) ?_
    | with_reducible apply Only.after (State.setI3c_only ..))

theorem execI3cGetmrl_only (s : State) (t : State) (hq : execI3cGetmrl s = .next t) :
    Only [.out] s t := by
  unfold execI3cGetmrl at hq
  injection hq with hq
  subst hq
  iterate 24 all_goals try (first
    | with_reducible exact Only.refl
    | with_reducible assumption
    | decide
    | dsimp only [id]
    | with_reducible refine State.i3cServe_only ?_ (by decide) ?_
    | with_reducible apply Only.after (State.i3cSay_only ..))

theorem execI3cSetmrl_only (len : BitVec 16) (s : State) (t : State) (hq : execI3cSetmrl len s = .next t) :
    Only [.i3c] s t := by
  unfold execI3cSetmrl at hq
  injection hq with hq
  subst hq
  iterate 24 all_goals try (first
    | with_reducible exact Only.refl
    | with_reducible assumption
    | decide
    | dsimp only [id]
    | with_reducible refine State.i3cServe_only ?_ (by decide) ?_
    | with_reducible apply Only.after (State.setI3c_only ..))

theorem execHotJoinRequest_only (s : State) (t : State) (hq : execHotJoinRequest s = .next t) :
    Only [.i3c, .out] s t := by
  unfold execHotJoinRequest at hq
  injection hq with hq
  subst hq
  iterate 24 all_goals try (first
    | with_reducible exact Only.refl
    | with_reducible assumption
    | decide
    | dsimp only [id]
    | with_reducible apply Only.after (State.emit_only ..)
    | with_reducible apply Only.after (State.setI3c_only ..)
    | with_reducible intro _
    | split)

theorem State.sendIbi_only (s : State) (acked : Bool) :
    Only [.i3c, .out] s (State.sendIbi s acked) := by
  unfold State.sendIbi
  iterate 24 all_goals try (first
    | with_reducible exact Only.refl
    | with_reducible assumption
    | decide
    | dsimp only [id]
    | with_reducible apply Only.after (State.emit_only ..)
    | with_reducible apply Only.after (State.setI3c_only ..)
    | with_reducible intro _
    | split)

theorem execIbiSend_only (acked : Bool) (s : State) (t : State) (hq : execIbiSend acked s = .next t) :
    Only [.i3c, .out] s t := by
  unfold execIbiSend at hq
  injection hq with hq
  subst hq
  iterate 24 all_goals try (first
    | with_reducible exact Only.refl
    | with_reducible assumption
    | decide
    | dsimp only [id]
    | with_reducible refine State.i3cServe_only ?_ (by decide) ?_
    | with_reducible apply Only.after (State.sendIbi_only ..)
    | with_reducible intro _
    | split)

theorem execIbiRetry_only (acked : Bool) (s : State) (t : State) (hq : execIbiRetry acked s = .next t) :
    Only [.i3c, .out] s t := by
  unfold execIbiRetry at hq
  injection hq with hq
  subst hq
  iterate 24 all_goals try (first
    | with_reducible exact Only.refl
    | with_reducible assumption
    | decide
    | dsimp only [id]
    | with_reducible refine State.i3cServe_only ?_ (by decide) ?_
    | with_reducible apply Only.after (State.sendIbi_only ..)
    | with_reducible intro _
    | split)

theorem execRecordsWaitingReminder_only (s : State) (t : State) (hq : execRecordsWaitingReminder s = .next t) :
    Only [.i3c] s t := by
  unfold execRecordsWaitingReminder at hq
  injection hq with hq
  subst hq
  iterate 24 all_goals try (first
    | with_reducible exact Only.refl
    | with_reducible assumption
    | decide
    | dsimp only [id]
    | with_reducible apply Only.after (State.ibi_only ..)
    | with_reducible apply Only.after (State.setI3c_only ..)
    | with_reducible intro _
    | split)

/-! ## Machine/Submit.lean -/

theorem State.readProg_only (s : State) (c : Cmd) (d : List Byte) :
    Only [.ics, .commands, .mem, .events, .free, .run] s (State.readProg s c d).2.1 := by
  unfold State.readProg
  iterate 24 all_goals try (first
    | with_reducible exact Only.refl
    | with_reducible assumption
    | decide
    | dsimp only [id]
    | with_reducible apply Only.after (State.load_only ..)
    | with_reducible refine Only.after (State.load_only' (hq := by assumption)) (by decide) ?_
    | with_reducible intro _
    | split)

theorem State.readProg_only' {s : State} {c : Cmd} {d : List Byte} {r0 : _} {t0 : State} {c0 : _} (hq : State.readProg s c d = (r0, t0, c0)) :
    Only [.ics, .commands, .mem, .events, .free, .run] s t0 := by
  have gq := State.readProg_only s c d
  rw [hq] at gq
  exact gq

theorem State.readDescs_only (s : State) (c : Cmd) (addr : Nat) (i : Nat) (acc : List Oper) (x1 : Nat) :
    Only [.ics, .commands, .mem, .far, .events, .trust, .free, .run] s (State.readDescs s c addr i acc x1).1 := by
  fun_induction State.readDescs s c addr i acc x1
  all_goals try simp_all only
  iterate 24 all_goals try (first
    | with_reducible exact Only.refl
    | with_reducible assumption
    | decide
    | dsimp only [id]
    | with_reducible apply Only.after (State.load_only ..)
    | with_reducible refine Only.after (State.load_only' (hq := by assumption)) (by decide) ?_
    | with_reducible apply Only.after (State.readProg_only ..)
    | with_reducible refine Only.after (State.readProg_only' (hq := by assumption)) (by decide) ?_
    | with_reducible apply Only.after (State.writeOpstat_only ..)
    | with_reducible refine Only.trans ?_ (by assumption))

theorem State.readDescs_only' {s : State} {c : Cmd} {addr : Nat} {i : Nat} {acc : List Oper} {x1 : Nat} {r0 : _} {t0 : State} (hq : State.readDescs s c addr i acc x1 = (t0, r0)) :
    Only [.ics, .commands, .mem, .far, .events, .trust, .free, .run] s t0 := by
  have gq := State.readDescs_only s c addr i acc x1
  rw [hq] at gq
  exact gq

theorem State.zeroOpstats_only (s : State) (addr : Nat) (n : Nat) :
    Only [.ics, .commands, .mem, .far, .events, .trust, .free, .run] s (State.zeroOpstats s addr n) := by
  unfold State.zeroOpstats
  iterate 24 all_goals try (first
    | with_reducible exact Only.refl
    | with_reducible assumption
    | decide
    | dsimp only [id]
    | with_reducible apply Only.after (State.writeOpstat_only ..)
    | with_reducible refine Only.foldl _ ?_ ?_
    | with_reducible refine Only.foldlPair ?_ ?_
    | with_reducible refine Only.foldlPair' (by assumption) ?_ ?_
    | with_reducible intro _)

theorem State.admitOrder_only (s : State) (tag : Nat) (addr : Nat) (h : List Byte) (ops : List Oper) :
    Only [.ics, .commands, .mem, .far, .events, .trust, .free, .run] s (State.admitOrder s tag addr h ops) := by
  unfold State.admitOrder
  iterate 24 all_goals try (first
    | with_reducible exact Only.refl
    | with_reducible assumption
    | decide
    | dsimp only [id]
    | with_reducible apply Only.after (State.setCmd_only ..)
    | with_reducible apply Only.after (State.zeroOpstats_only ..))

theorem Adm.readOrder_only (a : Adm) (s : State) (c : Cmd) (addr : Nat) :
    Only [.ics, .commands, .mem, .far, .events, .trust, .free, .run] s (Adm.readOrder a s c addr) := by
  unfold Adm.readOrder
  iterate 24 all_goals try (first
    | with_reducible exact Only.refl
    | with_reducible assumption
    | decide
    | dsimp only [id]
    | with_reducible apply Only.after (State.load_only ..)
    | with_reducible refine Only.after (State.load_only' (hq := by assumption)) (by decide) ?_
    | with_reducible apply Only.after (Adm.finish_only ..)
    | with_reducible apply Only.after (State.readDescs_only ..)
    | with_reducible refine Only.after (State.readDescs_only' (hq := by assumption)) (by decide) ?_
    | with_reducible apply Only.after (State.admitOrder_only ..)
    | with_reducible intro _
    | split)

theorem execSubmitOrder_only (ctrl : Fin 4) (slot : Fin 1024) (s : State) (t : State) (hq : execSubmitOrder ctrl slot s = .next t) :
    Only [.intakes, .ics, .sealed, .commands, .mem, .far, .events, .trust, .free, .run] s t := by
  unfold execSubmitOrder at hq
  injection hq with hq
  subst hq
  iterate 24 all_goals try (first
    | with_reducible exact Only.refl
    | with_reducible assumption
    | decide
    | dsimp only [id]
    | with_reducible refine State.serve_only ?_ (by decide) ?_
    | with_reducible refine Adm.checked_only ?_ (by decide) ?_
    | with_reducible apply Only.after (Adm.finish_only ..)
    | with_reducible apply Only.after (Adm.readOrder_only ..)
    | with_reducible intro _
    | split)

end Sys2Proof.Machine
end

