-- ==== Sys2Proof/Laws/Memory.lean ====
section
/-! SUPPORT. Byte memories: every memory operation keeps the canonical form, and what a byte reads after a write. -/

namespace Sys2Proof.Machine

open Sys2Proof

theorem Mem.wfFrom_mono {m : Mem} {lo hi : Nat} (h : lo ≤ hi) (w : Mem.wfFrom hi m = true) : Mem.wfFrom lo m = true := by
  cases m with
  | nil => rfl
  | cons e r =>
    obtain ⟨a, b⟩ := e
    simp only [Mem.wfFrom, Bool.and_eq_true, decide_eq_true_eq] at w ⊢
    exact ⟨⟨by omega, w.1.2⟩, w.2⟩

/-- A byte below the first listed address reads 0. -/
theorem readByte_below {m : Mem} {lo a : Nat} (w : Mem.wfFrom lo m = true) (h : a < lo) : readByte m a = 0 := by
  induction m generalizing lo with
  | nil => rfl
  | cons e r ih =>
    obtain ⟨b, v⟩ := e
    simp only [Mem.wfFrom, Bool.and_eq_true, decide_eq_true_eq] at w
    have hb : b ≠ a := by omega
    simp only [readByte, hb, if_false]
    exact ih w.2 (by omega)

theorem writeByte_wfFrom {m : Mem} {lo a : Nat} {v : Byte} (h : lo ≤ a) (w : Mem.wfFrom lo m = true) : Mem.wfFrom lo (writeByte m a v) = true := by
  induction m generalizing lo with
  | nil =>
    by_cases hv : v = 0#8
    · simp [writeByte, hv, Mem.wfFrom]
    · simp [writeByte, hv, Mem.wfFrom, h]
  | cons e r ih =>
    obtain ⟨b, x⟩ := e
    simp only [Mem.wfFrom, Bool.and_eq_true, decide_eq_true_eq] at w
    obtain ⟨⟨w1, w2⟩, w3⟩ := w
    have w2 : ¬ x = 0#8 := w2
    by_cases g : b < a
    · have := ih (show b + 1 ≤ a by omega) w3
      simp [writeByte, g, Mem.wfFrom, w1, w2, this]
    · by_cases e : b = a
      · by_cases hv : v = 0#8
        · simp only [writeByte, g, e]
          simpa [hv] using Mem.wfFrom_mono (show lo ≤ b + 1 by omega) w3
        · subst e
          simp [writeByte, g, hv, Mem.wfFrom, w1, w3]
      · by_cases hv : v = 0#8
        · simp [writeByte, g, e, hv, Mem.wfFrom, w1, w2, w3]
        · have : Mem.wfFrom (a + 1) ((b, x) :: r) = true := by
            simp only [Mem.wfFrom, Bool.and_eq_true, decide_eq_true_eq]
            exact ⟨⟨by omega, w2⟩, w3⟩
          have out : writeByte ((b, x) :: r) a v = (a, v) :: (b, x) :: r := by simp [writeByte, g, e, hv]
          rw [out, Mem.wfFrom, this]
          simp [h, hv]

/-- Storing a byte keeps the canonical form. -/
theorem Mem.writeByte_wf {m : Mem} (a : Nat) (v : Byte) (w : Mem.wf m = true) : Mem.wf (writeByte m a v) = true :=
  writeByte_wfFrom (Nat.zero_le a) w

/-- Storing bytes keeps the canonical form. -/
theorem Mem.writeBytes_wf {m : Mem} (a : Nat) (bs : List Byte) (w : Mem.wf m = true) : Mem.wf (writeBytes m a bs) = true := by
  induction bs generalizing m a with
  | nil => exact w
  | cons b r ih => exact ih (a + 1) (Mem.writeByte_wf a b w)

theorem clearRange_wfFrom {m : Mem} {lo : Nat} (a n : Nat) (w : Mem.wfFrom lo m = true) : Mem.wfFrom lo (clearRange m a n) = true := by
  induction m generalizing lo with
  | nil => rfl
  | cons e r ih =>
    obtain ⟨b, x⟩ := e
    simp only [Mem.wfFrom, Bool.and_eq_true, decide_eq_true_eq] at w
    obtain ⟨⟨w1, w2⟩, w3⟩ := w
    have h := ih w3
    simp only [clearRange] at h ⊢
    by_cases g : (decide (b < a) || decide (a + n ≤ b)) = true
    · rw [List.filter_cons_of_pos (by simpa using g)]
      simp only [Mem.wfFrom, Bool.and_eq_true, decide_eq_true_eq]
      exact ⟨⟨w1, w2⟩, h⟩
    · rw [List.filter_cons_of_neg (by simpa using g)]
      exact Mem.wfFrom_mono (by omega) h

/-- Clearing a range keeps the canonical form. -/
theorem Mem.clearRange_wf {m : Mem} (a n : Nat) (w : Mem.wf m = true) : Mem.wf (clearRange m a n) = true := clearRange_wfFrom a n w

/-- What is stored at an address reads there. -/
theorem readByte_writeByte_self {m : Mem} (a : Nat) (v : Byte) (w : Mem.wf m = true) : readByte (writeByte m a v) a = v := by
  have key : ∀ (m : Mem) (lo : Nat), Mem.wfFrom lo m = true → readByte (writeByte m a v) a = v := by
    intro m
    induction m with
    | nil => intro lo _; by_cases hv : v = 0#8 <;> simp [writeByte, hv, readByte]
    | cons e r ih =>
      intro lo w
      obtain ⟨b, x⟩ := e
      simp only [Mem.wfFrom, Bool.and_eq_true, decide_eq_true_eq] at w
      by_cases g : b < a
      · have : b ≠ a := by omega
        simp [writeByte, g, readByte, this, ih (b + 1) w.2]
      · by_cases e : b = a
        · by_cases hv : v = 0#8
          · subst e
            simp [writeByte, hv, readByte_below w.2 (Nat.lt_succ_self b)]
          · simp [writeByte, g, e, hv, readByte]
        · by_cases hv : v = 0#8
          · have h1 : a < b + 1 := by omega
            simp [writeByte, g, e, hv, readByte, readByte_below w.2 h1]
          · simp [writeByte, g, e, hv, readByte]
  exact key m 0 w

/-- Storing at one address leaves every other as it read. -/
theorem readByte_writeByte_ne (m : Mem) {a x : Nat} (v : Byte) (h : x ≠ a) : readByte (writeByte m a v) x = readByte m x := by
  have hx : a ≠ x := fun e => h e.symm
  induction m with
  | nil => by_cases hv : v = 0#8 <;> simp [writeByte, hv, readByte, hx]
  | cons e r ih =>
    obtain ⟨b, y⟩ := e
    by_cases g : b < a
    · simp [writeByte, g, readByte, ih]
    · by_cases e : b = a
      · subst e
        by_cases hv : v = 0#8 <;> simp [writeByte, hv, readByte, hx]
      · by_cases hv : v = 0#8 <;> simp [writeByte, g, e, hv, readByte, hx]

/-- The byte memories of the device and of the hosts that a state holds, at reset. -/
theorem reset_memories : Mem.wf State.reset.mem.bytes = true ∧ Mem.wf State.reset.far.bytes = true
    ∧ Mem.wf State.reset.mem.hostW = true ∧ Mem.wf State.reset.mem.hostE = true := by decide

end Sys2Proof.Machine
end

