-- ==== Sys2Proof/Laws/Slots.lean ====
section
/-! SUPPORT. What serving a slot does once its command is admitted, and that the tag it takes is free. -/

namespace Sys2Proof.Machine

open Sys2Proof

/-- An admitted command goes on with its body. -/
theorem State.serve_admission {s u : State} {code : Nat} {c : Fin 4} {k : Fin 1024} {a : Adm}
    (h : s.admission code c k = some (u, a)) (body : Adm → State → State) : s.serve code c k body = body a u := by
  unfold State.admission at h
  unfold State.serve
  split at h
  · cases h
  · next e he =>
    dsimp only at h
    split at h
    · next hk hr =>
      injection h with h
      injection h with h1 h2
      subst h1 h2
      simp only [he, hk, hr]
    · cases h

/-- A slot that may be taken for a code holds it. -/
theorem State.ready?_code {s : State} {code c slot : Nat} {e : SealedSlot} (h : s.ready? code c slot = some e) :
    mbCmd (s.slotBytes c slot) = code := by
  unfold State.ready? at h
  split at h
  · split at h
    · next hc => exact hc.1
    · cases h
  · cases h

/-- The admitted command's slot holds the code. -/
theorem State.admission_code {s u : State} {code : Nat} {c : Fin 4} {k : Fin 1024} {a : Adm}
    (h : s.admission code c k = some (u, a)) : mbCmd a.b = code := by
  unfold State.admission at h
  split at h
  · cases h
  · next e he =>
    dsimp only at h
    split at h
    · injection h with h
      injection h with _ h2
      subst h2
      exact State.ready?_code he
    · cases h

/-- The admitted command holds a copy of the slot and belongs to the slot's controller. -/
theorem State.admission_adm {s u : State} {code : Nat} {c : Fin 4} {k : Fin 1024} {a : Adm}
    (h : s.admission code c k = some (u, a)) : a.ctrl = c ∧ a.b = s.slotBytes c k := by
  unfold State.admission at h
  split at h
  · cases h
  · dsimp only at h
    split at h
    · injection h with h
      injection h with _ h2
      subst h2
      exact ⟨rfl, rfl⟩
    · cases h

theorem lowestFree_not_mem (l : List Nat) (fuel n : Nat) (h : (l.filter (fun x => decide (n ≤ x))).length ≤ fuel) :
    lowestFree l n fuel ∉ l := by
  induction fuel generalizing n with
  | zero =>
    intro hm
    have hx : n ∈ l.filter (fun x => decide (n ≤ x)) := by
      simp only [List.mem_filter, decide_eq_true_eq]
      exact ⟨hm, Nat.le_refl n⟩
    have := List.length_pos_of_mem hx
    omega
  | succ k ih =>
    unfold lowestFree
    split
    · next hc =>
      apply ih
      have hm : n ∈ l := by simpa using hc
      have hsub : (l.filter (fun x => decide (n + 1 ≤ x))).length < (l.filter (fun x => decide (n ≤ x))).length := by
        have e : l.filter (fun x => decide (n + 1 ≤ x))
            = (l.filter (fun x => decide (n ≤ x))).filter (fun x => decide (x ≠ n)) := by
          rw [List.filter_filter]
          apply List.filter_congr
          intro x _
          by_cases h1 : n + 1 ≤ x <;> by_cases h2 : x = n <;> by_cases h3 : n ≤ x <;> simp [h1, h2, h3] <;> omega
        rw [e]
        apply List.length_filter_lt_length_iff_exists.mpr
        exact ⟨n, by simp [hm], by simp⟩
      omega
    · next hc => simpa using hc

/-- The tag the next admitted command takes is not held. -/
theorem State.nextTag_free (s : State) : s.nextTag ∉ s.tagsHeld :=
  lowestFree_not_mem _ _ _ (List.length_filter_le _ _)

/-- The command a taken slot is admitted as. -/
theorem State.admitCmd_cmd (s : State) (e : SealedSlot) (b : List Byte) :
    ∃ x : Cmd, (s.admitCmd e b).warden.tags = s.warden.tags ++ [x] ∧ (s.admitCmd e b).cmd s.nextTag = some x ∧ x.tag = s.nextTag
      ∧ x.ctrl = e.ctrl ∧ x.hostTag = mbHostTag b ∧ x.ring = mbRing b ∧ x.order = none ∧ x.discard = false := by
  have hf := s.nextTag_free
  unfold State.tagsHeld at hf
  simp only [List.mem_append, List.mem_map, not_or, not_exists, not_and] at hf
  have hn : s.warden.tags.find? (fun c => decide (c.tag = s.nextTag)) = none := by
    rw [List.find?_eq_none]
    intro x hx
    simpa using hf.1 x hx
  unfold State.admitCmd State.setWarden State.cmd
  dsimp only
  generalize s.nextTag = n at hn ⊢
  refine ⟨_, rfl, ?_, ?_⟩
  · rw [List.find?_append, hn, Option.none_or]
    exact List.find?_cons_of_pos (by simp)
  · exact ⟨rfl, rfl, rfl, rfl, rfl, rfl⟩

/-- The slot that is served belongs to the controller and the number named. -/
theorem State.ready?_slot {s : State} {code c k : Nat} {e : SealedSlot} (h : s.ready? code c k = some e) :
    e.ctrl.val = c ∧ e.slot = k := by
  unfold State.ready? at h
  split at h
  · next x hx =>
    split at h
    · injection h with h
      subst h
      unfold State.presentedSlot at hx
      have := List.find?_some hx
      simp only [Bool.and_eq_true, decide_eq_true_eq] at this
      exact ⟨this.1.2, this.2⟩
    · cases h
  · cases h

/-- The command an admitted slot stands for in the tag table. -/
theorem State.admission_cmd {s u : State} {code : Nat} {c : Fin 4} {k : Fin 1024} {a : Adm}
    (h : s.admission code c k = some (u, a)) :
    ∃ x : Cmd, u.cmd a.tag = some x ∧ x.tag = a.tag ∧ x.ctrl = c ∧ x.hostTag = mbHostTag a.b ∧ x.ring = mbRing a.b
      ∧ x.order = none ∧ x.discard = false := by
  unfold State.admission at h
  split at h
  · cases h
  · next e he =>
    dsimp only at h
    split at h
    · injection h with h
      injection h with h1 h2
      obtain ⟨x, _, h3, h4, h5, h6⟩ := (s.takeSlot e).admitCmd_cmd e (s.slotBytes c k)
      rw [h1] at h3
      have hc : e.ctrl = c := Fin.ext (State.ready?_slot he).1
      subst h2
      exact ⟨x, h3, h4, h5.trans hc, h6⟩
    · cases h

/-! ## Dispatched operations -/

/-- What an operation runs with names its own tag and index. -/
theorem State.toDispatch_tag {s : State} {k : OpKind} {tag i : Nat} {c : OpCtx} (h : s.toDispatch k tag i = some c) :
    c.tag = tag ∧ c.op = i := by
  unfold State.toDispatch at h
  split at h
  · cases h
  · split at h
    · cases h
    · split at h
      · injection h with h
        subst h
        exact ⟨rfl, rfl⟩
      · cases h

/-- A dispatched operation that meets no vault where it must wait makes its effect on the state it begins in, and runs to its
ending. -/
theorem State.runOp_dispatch {s : State} {k : OpKind} {tag i : Nat} {c : OpCtx} (h : s.toDispatch k tag i = some c)
    (body : OpCtx → State → State × Ending) (hw : (body c (s.opStart c)).1.run.stalled = false) :
    s.runOp k tag i body = (body c (s.opStart c)).1.ranTo tag i (body c (s.opStart c)).2 := by
  obtain ⟨rfl, rfl⟩ := State.toDispatch_tag h
  unfold State.opStart at hw ⊢
  unfold State.runOp
  simp only [h, hw, Bool.false_eq_true, if_false]
  rfl

/-- A command changed under its own tag is the one found there. -/
theorem State.cmd_setCmd_self {s : State} {tag : Nat} {c : Cmd} (h : s.cmd tag = some c) (f : Cmd → Cmd) (hf : ∀ x, (f x).tag = x.tag) :
    (s.setCmd tag f).cmd tag = some (f c) := by
  unfold State.cmd at h ⊢
  simp only [State.setCmd]
  revert h
  generalize s.warden.tags = l
  intro h
  induction l with
  | nil => cases h
  | cons a r ih =>
    by_cases e : a.tag = tag
    · simp [e] at h; subst h; simp [e, hf]
    · rw [List.find?_cons_of_neg (by simpa using e)] at h
      rw [List.map_cons, if_neg e, List.find?_cons_of_neg (by simpa using e)]
      exact ih h

/-- An operation changed at its own place is the one found there. -/
theorem State.oper_setOper_self {s : State} {tag i : Nat} {x : Oper} (h : s.oper tag i = some x) (f : Oper → Oper) :
    (s.setOper tag i f).oper tag i = some (f x) := by
  unfold State.oper at h
  obtain ⟨c, hc, h1⟩ := Option.bind_eq_some_iff.mp h
  obtain ⟨o, ho, h2⟩ := Option.bind_eq_some_iff.mp h1
  unfold State.oper State.setOper
  rw [State.cmd_setCmd_self hc (fun c => { c with order := c.order.map (fun o => { o with ops := o.ops.modify i f }) }) (fun _ => rfl)]
  unfold Order.op? at h2 ⊢
  simp [ho, h2]

/-- An operation that meets a vault where it must wait holds its place, with no other effect. -/
theorem State.runOp_stalled {s : State} {k : OpKind} {tag i : Nat} {c : OpCtx} (h : s.toDispatch k tag i = some c)
    (body : OpCtx → State → State × Ending) (hw : (body c (s.opStart c)).1.run.stalled = true) :
    s.runOp k tag i body = s.setOper tag i (fun x => { x with phase := .held }) := by
  obtain ⟨rfl, rfl⟩ := State.toDispatch_tag h
  unfold State.opStart at hw
  unfold State.runOp
  simp only [h, hw, if_true]

/-- What it means that an operation is dispatched on a sequence in use. -/
theorem State.atSeq_parts {s v : State} {k : OpKind} {tag i h : Nat} {c : OpCtx} {q : Seq} (e : s.atSeq k tag i = some (c, h, q, v)) :
    s.toDispatch k tag i = some c ∧ c.handle = some h ∧ h ≠ 0 ∧ (s.opStart c).seq h = some q
      ∧ ((s.opStart c).noteHandle c.tag h).resume c.cmd.ctrl h = (v, none) := by
  unfold State.atSeq at e
  split at e
  · cases e
  · next c' hc =>
    split at e
    · cases e
    · next h' hh =>
      split at e
      · cases e
      · next q' hq =>
        split at e
        · next v' hv =>
          split at e
          · cases e
          · next h0 =>
            simp only [Option.some.injEq, Prod.mk.injEq] at e
            obtain ⟨rfl, rfl, rfl, rfl⟩ := e
            exact ⟨hc, hh, h0, hq, hv⟩
        · cases e

/-- Work on a sequence in use goes on with the state in which it is resumed. -/
theorem State.onSeq_atSeq {s v : State} {k : OpKind} {tag i h : Nat} {c : OpCtx} {q : Seq} (e : s.atSeq k tag i = some (c, h, q, v))
    {pre : Seq → Option Ending} (hp : pre q = none) (body : Nat → State → State × Ending) :
    (s.opStart c).onSeq c pre false body = body h v := by
  obtain ⟨-, hh, h0, hq, hv⟩ := State.atSeq_parts e
  unfold State.onSeq
  simp [hh, h0, hq, hp, hv]

/-- What an operation on a sequence in use does. -/
theorem State.runOp_atSeq {s v : State} {k : OpKind} {tag i h : Nat} {c : OpCtx} {q : Seq} (e : s.atSeq k tag i = some (c, h, q, v))
    {pre : OpCtx → Seq → Option Ending} {zero : OpCtx → Bool} (hp : pre c q = none) (hz : zero c = false)
    (body : OpCtx → Nat → State → State × Ending) (hw : (body c h v).1.run.stalled = false) :
    s.runOp k tag i (fun c t => t.onSeq c (pre c) (zero c) (body c)) = (body c h v).1.ranTo tag i (body c h v).2 := by
  have g : (s.opStart c).onSeq c (pre c) (zero c) (body c) = body c h v := by rw [hz, State.onSeq_atSeq e hp]
  rw [State.runOp_dispatch (State.atSeq_parts e).1 _ (by simpa only [g] using hw)]
  simp only [g]

/-- The same for an operation that also keeps the page tables in the pool rows. -/
theorem State.runOp_atSeq_paged {s v : State} {k : OpKind} {tag i h : Nat} {c : OpCtx} {q : Seq} (e : s.atSeq k tag i = some (c, h, q, v))
    {pre : OpCtx → Seq → Option Ending} {zero : OpCtx → Bool} (hp : pre c q = none) (hz : zero c = false)
    (body : OpCtx → Nat → State → State × Ending) (hw : (body c h v).1.touchTables.writeTables.run.stalled = false) :
    s.runOp k tag i (paged (fun c t => t.onSeq c (pre c) (zero c) (body c)))
      = (body c h v).1.touchTables.writeTables.ranTo tag i (body c h v).2 := by
  have g : (s.opStart c).onSeq c (pre c) (zero c) (body c) = body c h v := by rw [hz, State.onSeq_atSeq e hp]
  rw [State.runOp_dispatch (State.atSeq_parts e).1 _ (by simpa only [paged, g] using hw)]
  simp only [paged, g]

/-- With room at once, no victim is looked for. -/
theorem State.withSpace_some {s t : State} {want : State → Option State} (h : want s = some t) (r : Nat) : s.withSpace r want = some t := by
  unfold State.withSpace State.findRoom
  cases s.victims r with
  | nil => simp [h]
  | cons v l =>
    have stay (x : Option State) (l : List Nat) (f : Except (Option State) State → Nat → Except (Option State) State)
        (hf : ∀ v, f (.error x) v = .error x) : l.foldl f (.error x) = .error x := by
      induction l with
      | nil => rfl
      | cons a r ih => rw [List.foldl_cons, hf, ih]
    simp only [List.foldl_cons, h]
    rw [stay (some t) l _ (fun v => rfl)]

/-- A sparse table holds what was put at a key. -/
theorem look?_put_self {α : Type} (m : SMap α) (k : Nat) (v : α) : look? (put m k v) k = some v := by
  induction m with
  | nil => simp [put, look?]
  | cons e r ih =>
    obtain ⟨a, w⟩ := e
    unfold put
    split
    · next h => simp [look?, Nat.ne_of_lt h, ih]
    · split <;> simp [look?]

/-- A sparse table holds nothing at a key taken out of it. -/
theorem look?_del_self {α : Type} (m : SMap α) (k : Nat) : look? (del m k) k = none := by
  induction m with
  | nil => rfl
  | cons e r ih =>
    obtain ⟨a, w⟩ := e
    unfold del at ih ⊢
    rw [List.filter_cons]
    split
    · next h => simp only [ne_eq, decide_eq_true_eq] at h; simpa [look?, h] using ih
    · exact ih

theorem firstFault_none {r : Region} {l : List Check} (h : ∀ c ∈ l, c.1 = false) : firstFault r l = none := by
  induction l with
  | nil => rfl
  | cons c l ih =>
    obtain ⟨b, st, off⟩ := c
    have hb : b = false := h _ List.mem_cons_self
    subst hb
    unfold firstFault
    exact ih (fun x hx => h x (List.mem_cons_of_mem _ hx))

/-- An operation that runs on a core with no zero length goes on with its body. -/
theorem State.runCore_atCore {s u : State} {k : OpKind} {tag i : Nat} {c : OpCtx} {ranges : List Byte → List CoreRange}
    (e : s.atCore k tag i ranges = some (c, u)) {zero : List Byte → Bool} (hz : zero c.d = false) (body : OpCtx → State → State × Ending)
    (hw : (body c u).1.run.stalled = false) :
    s.runCore k tag i zero ranges body = (body c u).1.ranTo tag i (body c u).2 := by
  unfold State.atCore at e
  split at e
  · cases e
  · next c' hc =>
    split at e
    · cases e
    · next hp =>
      split at e
      · next u' hu =>
        simp only [Option.some.injEq, Prod.mk.injEq] at e
        obtain ⟨rfl, rfl⟩ := e
        simp only [Bool.or_eq_true, Bool.not_eq_true', not_or, Bool.not_eq_false] at hp
        have hf : firstFault .descriptor ((s.opStart c').rangeChecks (ranges c'.d)) = none := by
          apply firstFault_none
          intro x hx
          unfold State.rangeChecks at hx
          rw [List.mem_map] at hx
          obtain ⟨r, hr, rfl⟩ := hx
          have := List.all_eq_true.mp hp.2 r hr
          simp [this]
        unfold State.runCore
        rw [State.runOp_dispatch hc]
        · simp only [hp.1, hz, hf, hu, Bool.not_true, Bool.false_eq_true, if_false]
        · simpa only [hp.1, hz, hf, hu, Bool.not_true, Bool.false_eq_true, if_false] using hw
      · cases e

/-- What a class-M instruction leaves when every bank that issues it makes its access. -/
theorem State.classM_turn {s t : State} {pair : Nat} {o : BOp} {writes : Bool} {f : UnitOp} (e : s.bankTurn pair o writes f = some t) :
    s.classM pair o writes f = t.stepPc pair (some true) := by
  unfold State.bankTurn at e
  unfold State.classM
  split at e
  · cases e
  · next q hq =>
    try simp only [hq]
    split at e
    · cases e
    · next b bs hb =>
      try simp only [hb]
      split at e
      · cases e
      · next hl =>
        simp only [hl, if_false]
        split at e
        · next u hu =>
          simp only [Option.some.injEq] at e
          subst e
          try simp only [hu]
        · cases e

/-! ## Silman flits -/

/-- An accepted flit is acted on. -/
theorem State.rx_accepted {s t : State} {n : Nat} {h : FlitHdr} {k : FlitKind} (e : s.accepted n h k = some t)
    (act : State → State) : s.rx n h k act = act t := by
  have hp : (decide ((s.sl n).state = .keyed) && k.prot) = decide ((s.sl n).state = .keyed ∧ k.prot = true) := by
    cases k.prot <;> simp
  unfold State.accepted at e
  dsimp only at e
  rw [hp] at e
  split at e
  · cases e
  · next hc =>
    simp only [Bool.or_eq_true, Bool.not_eq_true', not_or, Bool.not_eq_false, Bool.not_eq_true] at hc
    obtain ⟨⟨⟨h1, h2⟩, h3⟩, h4⟩ := hc
    unfold State.rx
    dsimp only
    rw [hp]
    simp only [h1, h2, h3, h4, Bool.not_true, Bool.or_self, Bool.false_eq_true, if_false, decide_eq_true_eq] at e ⊢
    generalize (if k.unheeded = true then (if (s.sl n).state = .keyed ∧ k.prot = true then s.takePhase n h else s)
      else (if (s.sl n).state = .keyed ∧ k.prot = true then s.takePhase n h else s).takeHeader n h) = u at e ⊢
    cases hk : k.seqd
    · simp only [hk, Bool.not_false, if_true] at e ⊢
      injection e with e
      rw [e]
    · simp only [hk, Bool.not_true, Bool.false_eq_true, if_false] at e ⊢
      split at e
      · next hq =>
        injection e with e
        rw [if_pos hq, e]
      · cases e

/-- An accepted routed flit of this node's own is acted on. -/
theorem State.rxRouted_accepted {s t : State} {n : Nat} {h : FlitHdr} (e : s.accepted n h .routed = some t)
    (hr : t.links.route h.dst.toNat = 0x1E) (kind : BitVec 8) (msg : Option RemoteMsg) (bytes : List Byte) (act : State → State) :
    s.rxRouted n h kind msg bytes act = act t := by
  unfold State.rxRouted
  rw [State.rx_accepted e]
  simp [hr]

end Sys2Proof.Machine
end

