-- ==== Sys2Proof/Laws/State.lean ====
section
/-! SUPPORT. One lemma per field of the state per update: an update changes its own field and leaves the others. -/

namespace Sys2Proof.Machine

open Sys2Proof

/-! ## Tables -/

@[simp] theorem look_put_self {α : Type} (m : SMap α) (k : Nat) (v d : α) : look (put m k v) k d = v := by
  induction m with
  | nil => simp [put, look]
  | cons e r ih =>
    obtain ⟨a, w⟩ := e
    by_cases h : a < k
    · have : a ≠ k := by omega
      simp [put, look, h, this, ih]
    · by_cases g : a = k <;> simp [put, look, h, g]

theorem look_put_ne {α : Type} (m : SMap α) {k j : Nat} (v d : α) (h : j ≠ k) : look (put m k v) j d = look m j d := by
  have hk : k ≠ j := fun e => h e.symm
  induction m with
  | nil => simp [put, look, hk]
  | cons e r ih =>
    obtain ⟨a, w⟩ := e
    by_cases g : a < k
    · simp [put, look, g, ih]
    · by_cases e : a = k
      · subst e; simp [put, look, hk]
      · simp [put, look, g, e, hk]

@[simp] theorem look_upd_self {α : Type} (m : SMap α) (k : Nat) (d : α) (f : α → α) : look (upd m k d f) k d = f (look m k d) := by
  simp [upd]

theorem look_upd_ne {α : Type} (m : SMap α) {k j : Nat} (d : α) (f : α → α) (h : j ≠ k) : look (upd m k d f) j d = look m j d :=
  look_put_ne m _ d h

/-! ## What an update writes -/

@[simp] theorem State.setWarden_warden (s : State) (f : Warden → Warden) : (s.setWarden f).warden = f s.warden := rfl
@[simp] theorem State.setFar_far (s : State) (f : FarTier → FarTier) : (s.setFar f).far = f s.far := rfl
@[simp] theorem State.setSettings_settings (s : State) (f : Settings → Settings) : (s.setSettings f).settings = f s.settings := rfl
@[simp] theorem State.setLantern_lantern (s : State) (f : Lantern → Lantern) : (s.setLantern f).lantern = f s.lantern := rfl
@[simp] theorem State.setThermal_thermal (s : State) (f : Thermal → Thermal) : (s.setThermal f).thermal = f s.thermal := rfl
@[simp] theorem State.setI3c_i3c (s : State) (f : I3c → I3c) : (s.setI3c f).i3c = f s.i3c := rfl
@[simp] theorem State.setTrust_trust (s : State) (f : Trust → Trust) : (s.setTrust f).trust = f s.trust := rfl
@[simp] theorem State.setKv_kv (s : State) (f : Kv → Kv) : (s.setKv f).kv = f s.kv := rfl
@[simp] theorem State.setLinks_links (s : State) (f : Links → Links) : (s.setLinks f).links = f s.links := rfl
@[simp] theorem State.setTime_time (s : State) (f : RackTime → RackTime) : (s.setTime f).time = f s.time := rfl
@[simp] theorem State.setPower_power (s : State) (f : Power → Power) : (s.setPower f).power = f s.power := rfl
@[simp] theorem State.emit_out (s : State) (o : Out) : (s.emit o).out = s.out ++ [o] := rfl
@[simp] theorem State.setPort_port (s : State) (p : Nat) (f : HostPort → HostPort) : (s.setPort p f).port p = f (s.port p) := look_upd_self _ _ _ _
theorem State.setPort_port_ne (s : State) (p : Nat) (f : HostPort → HostPort) {j : Nat} (h : j ≠ p) : (s.setPort p f).port j = s.port j := look_upd_ne _ _ _ h
@[simp] theorem State.setIntake_intake (s : State) (c : Nat) (f : Intake → Intake) : (s.setIntake c f).intake c = f (s.intake c) := look_upd_self _ _ _ _
theorem State.setIntake_intake_ne (s : State) (c : Nat) (f : Intake → Intake) {j : Nat} (h : j ≠ c) : (s.setIntake c f).intake j = s.intake j := look_upd_ne _ _ _ h
@[simp] theorem State.setVault_vault (s : State) (p : Nat) (f : Vault → Vault) : (s.setVault p f).vault p = f (s.vault p) := look_upd_self _ _ _ _
theorem State.setVault_vault_ne (s : State) (p : Nat) (f : Vault → Vault) {j : Nat} (h : j ≠ p) : (s.setVault p f).vault j = s.vault j := look_upd_ne _ _ _ h
@[simp] theorem State.setSlice_slice (s : State) (t : Nat) (f : Slice → Slice) : (s.setSlice t f).slice t = f (s.slice t) := look_upd_self _ _ _ _
theorem State.setSlice_slice_ne (s : State) (t : Nat) (f : Slice → Slice) {j : Nat} (h : j ≠ t) : (s.setSlice t f).slice j = s.slice j := look_upd_ne _ _ _ h
@[simp] theorem State.setCore_core (s : State) (p : Nat) (f : Core → Core) : (s.setCore p f).core p = f (s.core p) := look_upd_self _ _ _ _
theorem State.setCore_core_ne (s : State) (p : Nat) (f : Core → Core) {j : Nat} (h : j ≠ p) : (s.setCore p f).core j = s.core j := look_upd_ne _ _ _ h
@[simp] theorem State.setSl_sl (s : State) (n : Nat) (f : SlPort → SlPort) : (s.setSl n f).sl n = f (s.sl n) := look_upd_self _ _ _ _
theorem State.setSl_sl_ne (s : State) (n : Nat) (f : SlPort → SlPort) {j : Nat} (h : j ≠ n) : (s.setSl n f).sl j = s.sl j := look_upd_ne _ _ _ h
@[simp] theorem State.setSeamMod_seamMod (s : State) (m : Nat) (f : SeamMod → SeamMod) : (s.setSeamMod m f).seamMod m = f (s.seamMod m) := look_upd_self _ _ _ _
theorem State.setSeamMod_seamMod_ne (s : State) (m : Nat) (f : SeamMod → SeamMod) {j : Nat} (h : j ≠ m) : (s.setSeamMod m f).seamMod j = s.seamMod j := look_upd_ne _ _ _ h
@[simp] theorem State.setIc_ic (s : State) (c : Nat) (f : Ic → Ic) : (s.setIc c f).ic c = f (s.ic c) := look_upd_self _ _ _ _
theorem State.setIc_ic_ne (s : State) (c : Nat) (f : Ic → Ic) {j : Nat} (h : j ≠ c) : (s.setIc c f).ic j = s.ic j := look_upd_ne _ _ _ h
@[simp] theorem State.setWdog_wdog (s : State) (c : Nat) (f : Wdog → Wdog) : (s.setWdog c f).wdog c = f (s.wdog c) := look_upd_self _ _ _ _
theorem State.setWdog_wdog_ne (s : State) (c : Nat) (f : Wdog → Wdog) {j : Nat} (h : j ≠ c) : (s.setWdog c f).wdog j = s.wdog j := look_upd_ne _ _ _ h
@[simp] theorem State.setOwnPort_ownPort (s : State) (c : Nat) (f : OwnPort → OwnPort) : (s.setOwnPort c f).ownPort c = f (s.ownPort c) := look_upd_self _ _ _ _
theorem State.setOwnPort_ownPort_ne (s : State) (c : Nat) (f : OwnPort → OwnPort) {j : Nat} (h : j ≠ c) : (s.setOwnPort c f).ownPort j = s.ownPort j := look_upd_ne _ _ _ h
@[simp] theorem State.setChan_chan (s : State) (c : Nat) (f : CvChan → CvChan) : (s.setChan c f).chan c = f (s.chan c) := look_upd_self _ _ _ _
theorem State.setChan_chan_ne (s : State) (c : Nat) (f : CvChan → CvChan) {j : Nat} (h : j ≠ c) : (s.setChan c f).chan j = s.chan j := look_upd_ne _ _ _ h

/-! ## What an update leaves -/

@[simp] theorem State.setPort_now (s : State) (p : Nat) (f : HostPort → HostPort) : (s.setPort p f).now = s.now := rfl
@[simp] theorem State.setPort_fuses (s : State) (p : Nat) (f : HostPort → HostPort) : (s.setPort p f).fuses = s.fuses := rfl
@[simp] theorem State.setPort_settings (s : State) (p : Nat) (f : HostPort → HostPort) : (s.setPort p f).settings = s.settings := rfl
@[simp] theorem State.setPort_board (s : State) (p : Nat) (f : HostPort → HostPort) : (s.setPort p f).board = s.board := rfl
@[simp] theorem State.setPort_lantern (s : State) (p : Nat) (f : HostPort → HostPort) : (s.setPort p f).lantern = s.lantern := rfl
@[simp] theorem State.setPort_geo (s : State) (p : Nat) (f : HostPort → HostPort) : (s.setPort p f).geo = s.geo := rfl
@[simp] theorem State.setPort_own (s : State) (p : Nat) (f : HostPort → HostPort) : (s.setPort p f).own = s.own := rfl
@[simp] theorem State.setPort_intakes (s : State) (p : Nat) (f : HostPort → HostPort) : (s.setPort p f).intakes = s.intakes := rfl
@[simp] theorem State.setPort_warden (s : State) (p : Nat) (f : HostPort → HostPort) : (s.setPort p f).warden = s.warden := rfl
@[simp] theorem State.setPort_rations (s : State) (p : Nat) (f : HostPort → HostPort) : (s.setPort p f).rations = s.rations := rfl
@[simp] theorem State.setPort_time (s : State) (p : Nat) (f : HostPort → HostPort) : (s.setPort p f).time = s.time := rfl
@[simp] theorem State.setPort_power (s : State) (p : Nat) (f : HostPort → HostPort) : (s.setPort p f).power = s.power := rfl
@[simp] theorem State.setPort_thermal (s : State) (p : Nat) (f : HostPort → HostPort) : (s.setPort p f).thermal = s.thermal := rfl
@[simp] theorem State.setPort_mem (s : State) (p : Nat) (f : HostPort → HostPort) : (s.setPort p f).mem = s.mem := rfl
@[simp] theorem State.setPort_far (s : State) (p : Nat) (f : HostPort → HostPort) : (s.setPort p f).far = s.far := rfl
@[simp] theorem State.setPort_cores (s : State) (p : Nat) (f : HostPort → HostPort) : (s.setPort p f).cores = s.cores := rfl
@[simp] theorem State.setPort_kv (s : State) (p : Nat) (f : HostPort → HostPort) : (s.setPort p f).kv = s.kv := rfl
@[simp] theorem State.setPort_links (s : State) (p : Nat) (f : HostPort → HostPort) : (s.setPort p f).links = s.links := rfl
@[simp] theorem State.setPort_seam (s : State) (p : Nat) (f : HostPort → HostPort) : (s.setPort p f).seam = s.seam := rfl
@[simp] theorem State.setPort_cv (s : State) (p : Nat) (f : HostPort → HostPort) : (s.setPort p f).cv = s.cv := rfl
@[simp] theorem State.setPort_events (s : State) (p : Nat) (f : HostPort → HostPort) : (s.setPort p f).events = s.events := rfl
@[simp] theorem State.setPort_trust (s : State) (p : Nat) (f : HostPort → HostPort) : (s.setPort p f).trust = s.trust := rfl
@[simp] theorem State.setPort_i3c (s : State) (p : Nat) (f : HostPort → HostPort) : (s.setPort p f).i3c = s.i3c := rfl
@[simp] theorem State.setPort_out (s : State) (p : Nat) (f : HostPort → HostPort) : (s.setPort p f).out = s.out := rfl
@[simp] theorem State.setPort_free (s : State) (p : Nat) (f : HostPort → HostPort) : (s.setPort p f).free = s.free := rfl
@[simp] theorem State.setPort_run (s : State) (p : Nat) (f : HostPort → HostPort) : (s.setPort p f).run = s.run := rfl
@[simp] theorem State.setPort_pending (s : State) (p : Nat) (f : HostPort → HostPort) : (s.setPort p f).pending = s.pending := rfl

@[simp] theorem State.setIntake_now (s : State) (c : Nat) (f : Intake → Intake) : (s.setIntake c f).now = s.now := rfl
@[simp] theorem State.setIntake_fuses (s : State) (c : Nat) (f : Intake → Intake) : (s.setIntake c f).fuses = s.fuses := rfl
@[simp] theorem State.setIntake_settings (s : State) (c : Nat) (f : Intake → Intake) : (s.setIntake c f).settings = s.settings := rfl
@[simp] theorem State.setIntake_board (s : State) (c : Nat) (f : Intake → Intake) : (s.setIntake c f).board = s.board := rfl
@[simp] theorem State.setIntake_lantern (s : State) (c : Nat) (f : Intake → Intake) : (s.setIntake c f).lantern = s.lantern := rfl
@[simp] theorem State.setIntake_geo (s : State) (c : Nat) (f : Intake → Intake) : (s.setIntake c f).geo = s.geo := rfl
@[simp] theorem State.setIntake_own (s : State) (c : Nat) (f : Intake → Intake) : (s.setIntake c f).own = s.own := rfl
@[simp] theorem State.setIntake_ports (s : State) (c : Nat) (f : Intake → Intake) : (s.setIntake c f).ports = s.ports := rfl
@[simp] theorem State.setIntake_warden (s : State) (c : Nat) (f : Intake → Intake) : (s.setIntake c f).warden = s.warden := rfl
@[simp] theorem State.setIntake_rations (s : State) (c : Nat) (f : Intake → Intake) : (s.setIntake c f).rations = s.rations := rfl
@[simp] theorem State.setIntake_time (s : State) (c : Nat) (f : Intake → Intake) : (s.setIntake c f).time = s.time := rfl
@[simp] theorem State.setIntake_power (s : State) (c : Nat) (f : Intake → Intake) : (s.setIntake c f).power = s.power := rfl
@[simp] theorem State.setIntake_thermal (s : State) (c : Nat) (f : Intake → Intake) : (s.setIntake c f).thermal = s.thermal := rfl
@[simp] theorem State.setIntake_mem (s : State) (c : Nat) (f : Intake → Intake) : (s.setIntake c f).mem = s.mem := rfl
@[simp] theorem State.setIntake_far (s : State) (c : Nat) (f : Intake → Intake) : (s.setIntake c f).far = s.far := rfl
@[simp] theorem State.setIntake_cores (s : State) (c : Nat) (f : Intake → Intake) : (s.setIntake c f).cores = s.cores := rfl
@[simp] theorem State.setIntake_kv (s : State) (c : Nat) (f : Intake → Intake) : (s.setIntake c f).kv = s.kv := rfl
@[simp] theorem State.setIntake_links (s : State) (c : Nat) (f : Intake → Intake) : (s.setIntake c f).links = s.links := rfl
@[simp] theorem State.setIntake_seam (s : State) (c : Nat) (f : Intake → Intake) : (s.setIntake c f).seam = s.seam := rfl
@[simp] theorem State.setIntake_cv (s : State) (c : Nat) (f : Intake → Intake) : (s.setIntake c f).cv = s.cv := rfl
@[simp] theorem State.setIntake_events (s : State) (c : Nat) (f : Intake → Intake) : (s.setIntake c f).events = s.events := rfl
@[simp] theorem State.setIntake_trust (s : State) (c : Nat) (f : Intake → Intake) : (s.setIntake c f).trust = s.trust := rfl
@[simp] theorem State.setIntake_i3c (s : State) (c : Nat) (f : Intake → Intake) : (s.setIntake c f).i3c = s.i3c := rfl
@[simp] theorem State.setIntake_out (s : State) (c : Nat) (f : Intake → Intake) : (s.setIntake c f).out = s.out := rfl
@[simp] theorem State.setIntake_free (s : State) (c : Nat) (f : Intake → Intake) : (s.setIntake c f).free = s.free := rfl
@[simp] theorem State.setIntake_run (s : State) (c : Nat) (f : Intake → Intake) : (s.setIntake c f).run = s.run := rfl
@[simp] theorem State.setIntake_pending (s : State) (c : Nat) (f : Intake → Intake) : (s.setIntake c f).pending = s.pending := rfl

@[simp] theorem State.setVault_now (s : State) (p : Nat) (f : Vault → Vault) : (s.setVault p f).now = s.now := rfl
@[simp] theorem State.setVault_fuses (s : State) (p : Nat) (f : Vault → Vault) : (s.setVault p f).fuses = s.fuses := rfl
@[simp] theorem State.setVault_settings (s : State) (p : Nat) (f : Vault → Vault) : (s.setVault p f).settings = s.settings := rfl
@[simp] theorem State.setVault_board (s : State) (p : Nat) (f : Vault → Vault) : (s.setVault p f).board = s.board := rfl
@[simp] theorem State.setVault_lantern (s : State) (p : Nat) (f : Vault → Vault) : (s.setVault p f).lantern = s.lantern := rfl
@[simp] theorem State.setVault_geo (s : State) (p : Nat) (f : Vault → Vault) : (s.setVault p f).geo = s.geo := rfl
@[simp] theorem State.setVault_own (s : State) (p : Nat) (f : Vault → Vault) : (s.setVault p f).own = s.own := rfl
@[simp] theorem State.setVault_intakes (s : State) (p : Nat) (f : Vault → Vault) : (s.setVault p f).intakes = s.intakes := rfl
@[simp] theorem State.setVault_ports (s : State) (p : Nat) (f : Vault → Vault) : (s.setVault p f).ports = s.ports := rfl
@[simp] theorem State.setVault_warden (s : State) (p : Nat) (f : Vault → Vault) : (s.setVault p f).warden = s.warden := rfl
@[simp] theorem State.setVault_rations (s : State) (p : Nat) (f : Vault → Vault) : (s.setVault p f).rations = s.rations := rfl
@[simp] theorem State.setVault_time (s : State) (p : Nat) (f : Vault → Vault) : (s.setVault p f).time = s.time := rfl
@[simp] theorem State.setVault_power (s : State) (p : Nat) (f : Vault → Vault) : (s.setVault p f).power = s.power := rfl
@[simp] theorem State.setVault_thermal (s : State) (p : Nat) (f : Vault → Vault) : (s.setVault p f).thermal = s.thermal := rfl
@[simp] theorem State.setVault_far (s : State) (p : Nat) (f : Vault → Vault) : (s.setVault p f).far = s.far := rfl
@[simp] theorem State.setVault_cores (s : State) (p : Nat) (f : Vault → Vault) : (s.setVault p f).cores = s.cores := rfl
@[simp] theorem State.setVault_kv (s : State) (p : Nat) (f : Vault → Vault) : (s.setVault p f).kv = s.kv := rfl
@[simp] theorem State.setVault_links (s : State) (p : Nat) (f : Vault → Vault) : (s.setVault p f).links = s.links := rfl
@[simp] theorem State.setVault_seam (s : State) (p : Nat) (f : Vault → Vault) : (s.setVault p f).seam = s.seam := rfl
@[simp] theorem State.setVault_cv (s : State) (p : Nat) (f : Vault → Vault) : (s.setVault p f).cv = s.cv := rfl
@[simp] theorem State.setVault_events (s : State) (p : Nat) (f : Vault → Vault) : (s.setVault p f).events = s.events := rfl
@[simp] theorem State.setVault_trust (s : State) (p : Nat) (f : Vault → Vault) : (s.setVault p f).trust = s.trust := rfl
@[simp] theorem State.setVault_i3c (s : State) (p : Nat) (f : Vault → Vault) : (s.setVault p f).i3c = s.i3c := rfl
@[simp] theorem State.setVault_out (s : State) (p : Nat) (f : Vault → Vault) : (s.setVault p f).out = s.out := rfl
@[simp] theorem State.setVault_free (s : State) (p : Nat) (f : Vault → Vault) : (s.setVault p f).free = s.free := rfl
@[simp] theorem State.setVault_run (s : State) (p : Nat) (f : Vault → Vault) : (s.setVault p f).run = s.run := rfl
@[simp] theorem State.setVault_pending (s : State) (p : Nat) (f : Vault → Vault) : (s.setVault p f).pending = s.pending := rfl

@[simp] theorem State.setSlice_now (s : State) (t : Nat) (f : Slice → Slice) : (s.setSlice t f).now = s.now := rfl
@[simp] theorem State.setSlice_fuses (s : State) (t : Nat) (f : Slice → Slice) : (s.setSlice t f).fuses = s.fuses := rfl
@[simp] theorem State.setSlice_settings (s : State) (t : Nat) (f : Slice → Slice) : (s.setSlice t f).settings = s.settings := rfl
@[simp] theorem State.setSlice_board (s : State) (t : Nat) (f : Slice → Slice) : (s.setSlice t f).board = s.board := rfl
@[simp] theorem State.setSlice_lantern (s : State) (t : Nat) (f : Slice → Slice) : (s.setSlice t f).lantern = s.lantern := rfl
@[simp] theorem State.setSlice_geo (s : State) (t : Nat) (f : Slice → Slice) : (s.setSlice t f).geo = s.geo := rfl
@[simp] theorem State.setSlice_own (s : State) (t : Nat) (f : Slice → Slice) : (s.setSlice t f).own = s.own := rfl
@[simp] theorem State.setSlice_intakes (s : State) (t : Nat) (f : Slice → Slice) : (s.setSlice t f).intakes = s.intakes := rfl
@[simp] theorem State.setSlice_ports (s : State) (t : Nat) (f : Slice → Slice) : (s.setSlice t f).ports = s.ports := rfl
@[simp] theorem State.setSlice_warden (s : State) (t : Nat) (f : Slice → Slice) : (s.setSlice t f).warden = s.warden := rfl
@[simp] theorem State.setSlice_rations (s : State) (t : Nat) (f : Slice → Slice) : (s.setSlice t f).rations = s.rations := rfl
@[simp] theorem State.setSlice_time (s : State) (t : Nat) (f : Slice → Slice) : (s.setSlice t f).time = s.time := rfl
@[simp] theorem State.setSlice_power (s : State) (t : Nat) (f : Slice → Slice) : (s.setSlice t f).power = s.power := rfl
@[simp] theorem State.setSlice_thermal (s : State) (t : Nat) (f : Slice → Slice) : (s.setSlice t f).thermal = s.thermal := rfl
@[simp] theorem State.setSlice_far (s : State) (t : Nat) (f : Slice → Slice) : (s.setSlice t f).far = s.far := rfl
@[simp] theorem State.setSlice_cores (s : State) (t : Nat) (f : Slice → Slice) : (s.setSlice t f).cores = s.cores := rfl
@[simp] theorem State.setSlice_kv (s : State) (t : Nat) (f : Slice → Slice) : (s.setSlice t f).kv = s.kv := rfl
@[simp] theorem State.setSlice_links (s : State) (t : Nat) (f : Slice → Slice) : (s.setSlice t f).links = s.links := rfl
@[simp] theorem State.setSlice_seam (s : State) (t : Nat) (f : Slice → Slice) : (s.setSlice t f).seam = s.seam := rfl
@[simp] theorem State.setSlice_cv (s : State) (t : Nat) (f : Slice → Slice) : (s.setSlice t f).cv = s.cv := rfl
@[simp] theorem State.setSlice_events (s : State) (t : Nat) (f : Slice → Slice) : (s.setSlice t f).events = s.events := rfl
@[simp] theorem State.setSlice_trust (s : State) (t : Nat) (f : Slice → Slice) : (s.setSlice t f).trust = s.trust := rfl
@[simp] theorem State.setSlice_i3c (s : State) (t : Nat) (f : Slice → Slice) : (s.setSlice t f).i3c = s.i3c := rfl
@[simp] theorem State.setSlice_out (s : State) (t : Nat) (f : Slice → Slice) : (s.setSlice t f).out = s.out := rfl
@[simp] theorem State.setSlice_free (s : State) (t : Nat) (f : Slice → Slice) : (s.setSlice t f).free = s.free := rfl
@[simp] theorem State.setSlice_run (s : State) (t : Nat) (f : Slice → Slice) : (s.setSlice t f).run = s.run := rfl
@[simp] theorem State.setSlice_pending (s : State) (t : Nat) (f : Slice → Slice) : (s.setSlice t f).pending = s.pending := rfl

@[simp] theorem State.setCore_now (s : State) (p : Nat) (f : Core → Core) : (s.setCore p f).now = s.now := rfl
@[simp] theorem State.setCore_fuses (s : State) (p : Nat) (f : Core → Core) : (s.setCore p f).fuses = s.fuses := rfl
@[simp] theorem State.setCore_settings (s : State) (p : Nat) (f : Core → Core) : (s.setCore p f).settings = s.settings := rfl
@[simp] theorem State.setCore_board (s : State) (p : Nat) (f : Core → Core) : (s.setCore p f).board = s.board := rfl
@[simp] theorem State.setCore_lantern (s : State) (p : Nat) (f : Core → Core) : (s.setCore p f).lantern = s.lantern := rfl
@[simp] theorem State.setCore_geo (s : State) (p : Nat) (f : Core → Core) : (s.setCore p f).geo = s.geo := rfl
@[simp] theorem State.setCore_own (s : State) (p : Nat) (f : Core → Core) : (s.setCore p f).own = s.own := rfl
@[simp] theorem State.setCore_intakes (s : State) (p : Nat) (f : Core → Core) : (s.setCore p f).intakes = s.intakes := rfl
@[simp] theorem State.setCore_ports (s : State) (p : Nat) (f : Core → Core) : (s.setCore p f).ports = s.ports := rfl
@[simp] theorem State.setCore_warden (s : State) (p : Nat) (f : Core → Core) : (s.setCore p f).warden = s.warden := rfl
@[simp] theorem State.setCore_rations (s : State) (p : Nat) (f : Core → Core) : (s.setCore p f).rations = s.rations := rfl
@[simp] theorem State.setCore_time (s : State) (p : Nat) (f : Core → Core) : (s.setCore p f).time = s.time := rfl
@[simp] theorem State.setCore_power (s : State) (p : Nat) (f : Core → Core) : (s.setCore p f).power = s.power := rfl
@[simp] theorem State.setCore_thermal (s : State) (p : Nat) (f : Core → Core) : (s.setCore p f).thermal = s.thermal := rfl
@[simp] theorem State.setCore_mem (s : State) (p : Nat) (f : Core → Core) : (s.setCore p f).mem = s.mem := rfl
@[simp] theorem State.setCore_far (s : State) (p : Nat) (f : Core → Core) : (s.setCore p f).far = s.far := rfl
@[simp] theorem State.setCore_kv (s : State) (p : Nat) (f : Core → Core) : (s.setCore p f).kv = s.kv := rfl
@[simp] theorem State.setCore_links (s : State) (p : Nat) (f : Core → Core) : (s.setCore p f).links = s.links := rfl
@[simp] theorem State.setCore_seam (s : State) (p : Nat) (f : Core → Core) : (s.setCore p f).seam = s.seam := rfl
@[simp] theorem State.setCore_cv (s : State) (p : Nat) (f : Core → Core) : (s.setCore p f).cv = s.cv := rfl
@[simp] theorem State.setCore_events (s : State) (p : Nat) (f : Core → Core) : (s.setCore p f).events = s.events := rfl
@[simp] theorem State.setCore_trust (s : State) (p : Nat) (f : Core → Core) : (s.setCore p f).trust = s.trust := rfl
@[simp] theorem State.setCore_i3c (s : State) (p : Nat) (f : Core → Core) : (s.setCore p f).i3c = s.i3c := rfl
@[simp] theorem State.setCore_out (s : State) (p : Nat) (f : Core → Core) : (s.setCore p f).out = s.out := rfl
@[simp] theorem State.setCore_free (s : State) (p : Nat) (f : Core → Core) : (s.setCore p f).free = s.free := rfl
@[simp] theorem State.setCore_run (s : State) (p : Nat) (f : Core → Core) : (s.setCore p f).run = s.run := rfl
@[simp] theorem State.setCore_pending (s : State) (p : Nat) (f : Core → Core) : (s.setCore p f).pending = s.pending := rfl

@[simp] theorem State.setSl_now (s : State) (n : Nat) (f : SlPort → SlPort) : (s.setSl n f).now = s.now := rfl
@[simp] theorem State.setSl_fuses (s : State) (n : Nat) (f : SlPort → SlPort) : (s.setSl n f).fuses = s.fuses := rfl
@[simp] theorem State.setSl_settings (s : State) (n : Nat) (f : SlPort → SlPort) : (s.setSl n f).settings = s.settings := rfl
@[simp] theorem State.setSl_board (s : State) (n : Nat) (f : SlPort → SlPort) : (s.setSl n f).board = s.board := rfl
@[simp] theorem State.setSl_lantern (s : State) (n : Nat) (f : SlPort → SlPort) : (s.setSl n f).lantern = s.lantern := rfl
@[simp] theorem State.setSl_geo (s : State) (n : Nat) (f : SlPort → SlPort) : (s.setSl n f).geo = s.geo := rfl
@[simp] theorem State.setSl_own (s : State) (n : Nat) (f : SlPort → SlPort) : (s.setSl n f).own = s.own := rfl
@[simp] theorem State.setSl_intakes (s : State) (n : Nat) (f : SlPort → SlPort) : (s.setSl n f).intakes = s.intakes := rfl
@[simp] theorem State.setSl_ports (s : State) (n : Nat) (f : SlPort → SlPort) : (s.setSl n f).ports = s.ports := rfl
@[simp] theorem State.setSl_warden (s : State) (n : Nat) (f : SlPort → SlPort) : (s.setSl n f).warden = s.warden := rfl
@[simp] theorem State.setSl_rations (s : State) (n : Nat) (f : SlPort → SlPort) : (s.setSl n f).rations = s.rations := rfl
@[simp] theorem State.setSl_time (s : State) (n : Nat) (f : SlPort → SlPort) : (s.setSl n f).time = s.time := rfl
@[simp] theorem State.setSl_power (s : State) (n : Nat) (f : SlPort → SlPort) : (s.setSl n f).power = s.power := rfl
@[simp] theorem State.setSl_thermal (s : State) (n : Nat) (f : SlPort → SlPort) : (s.setSl n f).thermal = s.thermal := rfl
@[simp] theorem State.setSl_mem (s : State) (n : Nat) (f : SlPort → SlPort) : (s.setSl n f).mem = s.mem := rfl
@[simp] theorem State.setSl_far (s : State) (n : Nat) (f : SlPort → SlPort) : (s.setSl n f).far = s.far := rfl
@[simp] theorem State.setSl_cores (s : State) (n : Nat) (f : SlPort → SlPort) : (s.setSl n f).cores = s.cores := rfl
@[simp] theorem State.setSl_kv (s : State) (n : Nat) (f : SlPort → SlPort) : (s.setSl n f).kv = s.kv := rfl
@[simp] theorem State.setSl_seam (s : State) (n : Nat) (f : SlPort → SlPort) : (s.setSl n f).seam = s.seam := rfl
@[simp] theorem State.setSl_cv (s : State) (n : Nat) (f : SlPort → SlPort) : (s.setSl n f).cv = s.cv := rfl
@[simp] theorem State.setSl_events (s : State) (n : Nat) (f : SlPort → SlPort) : (s.setSl n f).events = s.events := rfl
@[simp] theorem State.setSl_trust (s : State) (n : Nat) (f : SlPort → SlPort) : (s.setSl n f).trust = s.trust := rfl
@[simp] theorem State.setSl_i3c (s : State) (n : Nat) (f : SlPort → SlPort) : (s.setSl n f).i3c = s.i3c := rfl
@[simp] theorem State.setSl_out (s : State) (n : Nat) (f : SlPort → SlPort) : (s.setSl n f).out = s.out := rfl
@[simp] theorem State.setSl_free (s : State) (n : Nat) (f : SlPort → SlPort) : (s.setSl n f).free = s.free := rfl
@[simp] theorem State.setSl_run (s : State) (n : Nat) (f : SlPort → SlPort) : (s.setSl n f).run = s.run := rfl
@[simp] theorem State.setSl_pending (s : State) (n : Nat) (f : SlPort → SlPort) : (s.setSl n f).pending = s.pending := rfl

@[simp] theorem State.setSeamMod_now (s : State) (m : Nat) (f : SeamMod → SeamMod) : (s.setSeamMod m f).now = s.now := rfl
@[simp] theorem State.setSeamMod_fuses (s : State) (m : Nat) (f : SeamMod → SeamMod) : (s.setSeamMod m f).fuses = s.fuses := rfl
@[simp] theorem State.setSeamMod_settings (s : State) (m : Nat) (f : SeamMod → SeamMod) : (s.setSeamMod m f).settings = s.settings := rfl
@[simp] theorem State.setSeamMod_board (s : State) (m : Nat) (f : SeamMod → SeamMod) : (s.setSeamMod m f).board = s.board := rfl
@[simp] theorem State.setSeamMod_lantern (s : State) (m : Nat) (f : SeamMod → SeamMod) : (s.setSeamMod m f).lantern = s.lantern := rfl
@[simp] theorem State.setSeamMod_geo (s : State) (m : Nat) (f : SeamMod → SeamMod) : (s.setSeamMod m f).geo = s.geo := rfl
@[simp] theorem State.setSeamMod_own (s : State) (m : Nat) (f : SeamMod → SeamMod) : (s.setSeamMod m f).own = s.own := rfl
@[simp] theorem State.setSeamMod_intakes (s : State) (m : Nat) (f : SeamMod → SeamMod) : (s.setSeamMod m f).intakes = s.intakes := rfl
@[simp] theorem State.setSeamMod_ports (s : State) (m : Nat) (f : SeamMod → SeamMod) : (s.setSeamMod m f).ports = s.ports := rfl
@[simp] theorem State.setSeamMod_warden (s : State) (m : Nat) (f : SeamMod → SeamMod) : (s.setSeamMod m f).warden = s.warden := rfl
@[simp] theorem State.setSeamMod_rations (s : State) (m : Nat) (f : SeamMod → SeamMod) : (s.setSeamMod m f).rations = s.rations := rfl
@[simp] theorem State.setSeamMod_time (s : State) (m : Nat) (f : SeamMod → SeamMod) : (s.setSeamMod m f).time = s.time := rfl
@[simp] theorem State.setSeamMod_power (s : State) (m : Nat) (f : SeamMod → SeamMod) : (s.setSeamMod m f).power = s.power := rfl
@[simp] theorem State.setSeamMod_thermal (s : State) (m : Nat) (f : SeamMod → SeamMod) : (s.setSeamMod m f).thermal = s.thermal := rfl
@[simp] theorem State.setSeamMod_mem (s : State) (m : Nat) (f : SeamMod → SeamMod) : (s.setSeamMod m f).mem = s.mem := rfl
@[simp] theorem State.setSeamMod_far (s : State) (m : Nat) (f : SeamMod → SeamMod) : (s.setSeamMod m f).far = s.far := rfl
@[simp] theorem State.setSeamMod_cores (s : State) (m : Nat) (f : SeamMod → SeamMod) : (s.setSeamMod m f).cores = s.cores := rfl
@[simp] theorem State.setSeamMod_kv (s : State) (m : Nat) (f : SeamMod → SeamMod) : (s.setSeamMod m f).kv = s.kv := rfl
@[simp] theorem State.setSeamMod_links (s : State) (m : Nat) (f : SeamMod → SeamMod) : (s.setSeamMod m f).links = s.links := rfl
@[simp] theorem State.setSeamMod_cv (s : State) (m : Nat) (f : SeamMod → SeamMod) : (s.setSeamMod m f).cv = s.cv := rfl
@[simp] theorem State.setSeamMod_events (s : State) (m : Nat) (f : SeamMod → SeamMod) : (s.setSeamMod m f).events = s.events := rfl
@[simp] theorem State.setSeamMod_trust (s : State) (m : Nat) (f : SeamMod → SeamMod) : (s.setSeamMod m f).trust = s.trust := rfl
@[simp] theorem State.setSeamMod_i3c (s : State) (m : Nat) (f : SeamMod → SeamMod) : (s.setSeamMod m f).i3c = s.i3c := rfl
@[simp] theorem State.setSeamMod_out (s : State) (m : Nat) (f : SeamMod → SeamMod) : (s.setSeamMod m f).out = s.out := rfl
@[simp] theorem State.setSeamMod_free (s : State) (m : Nat) (f : SeamMod → SeamMod) : (s.setSeamMod m f).free = s.free := rfl
@[simp] theorem State.setSeamMod_run (s : State) (m : Nat) (f : SeamMod → SeamMod) : (s.setSeamMod m f).run = s.run := rfl
@[simp] theorem State.setSeamMod_pending (s : State) (m : Nat) (f : SeamMod → SeamMod) : (s.setSeamMod m f).pending = s.pending := rfl

@[simp] theorem State.setIc_now (s : State) (c : Nat) (f : Ic → Ic) : (s.setIc c f).now = s.now := rfl
@[simp] theorem State.setIc_fuses (s : State) (c : Nat) (f : Ic → Ic) : (s.setIc c f).fuses = s.fuses := rfl
@[simp] theorem State.setIc_settings (s : State) (c : Nat) (f : Ic → Ic) : (s.setIc c f).settings = s.settings := rfl
@[simp] theorem State.setIc_board (s : State) (c : Nat) (f : Ic → Ic) : (s.setIc c f).board = s.board := rfl
@[simp] theorem State.setIc_lantern (s : State) (c : Nat) (f : Ic → Ic) : (s.setIc c f).lantern = s.lantern := rfl
@[simp] theorem State.setIc_geo (s : State) (c : Nat) (f : Ic → Ic) : (s.setIc c f).geo = s.geo := rfl
@[simp] theorem State.setIc_own (s : State) (c : Nat) (f : Ic → Ic) : (s.setIc c f).own = s.own := rfl
@[simp] theorem State.setIc_intakes (s : State) (c : Nat) (f : Ic → Ic) : (s.setIc c f).intakes = s.intakes := rfl
@[simp] theorem State.setIc_ports (s : State) (c : Nat) (f : Ic → Ic) : (s.setIc c f).ports = s.ports := rfl
@[simp] theorem State.setIc_rations (s : State) (c : Nat) (f : Ic → Ic) : (s.setIc c f).rations = s.rations := rfl
@[simp] theorem State.setIc_time (s : State) (c : Nat) (f : Ic → Ic) : (s.setIc c f).time = s.time := rfl
@[simp] theorem State.setIc_power (s : State) (c : Nat) (f : Ic → Ic) : (s.setIc c f).power = s.power := rfl
@[simp] theorem State.setIc_thermal (s : State) (c : Nat) (f : Ic → Ic) : (s.setIc c f).thermal = s.thermal := rfl
@[simp] theorem State.setIc_mem (s : State) (c : Nat) (f : Ic → Ic) : (s.setIc c f).mem = s.mem := rfl
@[simp] theorem State.setIc_far (s : State) (c : Nat) (f : Ic → Ic) : (s.setIc c f).far = s.far := rfl
@[simp] theorem State.setIc_cores (s : State) (c : Nat) (f : Ic → Ic) : (s.setIc c f).cores = s.cores := rfl
@[simp] theorem State.setIc_kv (s : State) (c : Nat) (f : Ic → Ic) : (s.setIc c f).kv = s.kv := rfl
@[simp] theorem State.setIc_links (s : State) (c : Nat) (f : Ic → Ic) : (s.setIc c f).links = s.links := rfl
@[simp] theorem State.setIc_seam (s : State) (c : Nat) (f : Ic → Ic) : (s.setIc c f).seam = s.seam := rfl
@[simp] theorem State.setIc_cv (s : State) (c : Nat) (f : Ic → Ic) : (s.setIc c f).cv = s.cv := rfl
@[simp] theorem State.setIc_events (s : State) (c : Nat) (f : Ic → Ic) : (s.setIc c f).events = s.events := rfl
@[simp] theorem State.setIc_trust (s : State) (c : Nat) (f : Ic → Ic) : (s.setIc c f).trust = s.trust := rfl
@[simp] theorem State.setIc_i3c (s : State) (c : Nat) (f : Ic → Ic) : (s.setIc c f).i3c = s.i3c := rfl
@[simp] theorem State.setIc_out (s : State) (c : Nat) (f : Ic → Ic) : (s.setIc c f).out = s.out := rfl
@[simp] theorem State.setIc_free (s : State) (c : Nat) (f : Ic → Ic) : (s.setIc c f).free = s.free := rfl
@[simp] theorem State.setIc_run (s : State) (c : Nat) (f : Ic → Ic) : (s.setIc c f).run = s.run := rfl
@[simp] theorem State.setIc_pending (s : State) (c : Nat) (f : Ic → Ic) : (s.setIc c f).pending = s.pending := rfl

@[simp] theorem State.setWdog_now (s : State) (c : Nat) (f : Wdog → Wdog) : (s.setWdog c f).now = s.now := rfl
@[simp] theorem State.setWdog_fuses (s : State) (c : Nat) (f : Wdog → Wdog) : (s.setWdog c f).fuses = s.fuses := rfl
@[simp] theorem State.setWdog_settings (s : State) (c : Nat) (f : Wdog → Wdog) : (s.setWdog c f).settings = s.settings := rfl
@[simp] theorem State.setWdog_board (s : State) (c : Nat) (f : Wdog → Wdog) : (s.setWdog c f).board = s.board := rfl
@[simp] theorem State.setWdog_lantern (s : State) (c : Nat) (f : Wdog → Wdog) : (s.setWdog c f).lantern = s.lantern := rfl
@[simp] theorem State.setWdog_geo (s : State) (c : Nat) (f : Wdog → Wdog) : (s.setWdog c f).geo = s.geo := rfl
@[simp] theorem State.setWdog_own (s : State) (c : Nat) (f : Wdog → Wdog) : (s.setWdog c f).own = s.own := rfl
@[simp] theorem State.setWdog_intakes (s : State) (c : Nat) (f : Wdog → Wdog) : (s.setWdog c f).intakes = s.intakes := rfl
@[simp] theorem State.setWdog_ports (s : State) (c : Nat) (f : Wdog → Wdog) : (s.setWdog c f).ports = s.ports := rfl
@[simp] theorem State.setWdog_rations (s : State) (c : Nat) (f : Wdog → Wdog) : (s.setWdog c f).rations = s.rations := rfl
@[simp] theorem State.setWdog_time (s : State) (c : Nat) (f : Wdog → Wdog) : (s.setWdog c f).time = s.time := rfl
@[simp] theorem State.setWdog_power (s : State) (c : Nat) (f : Wdog → Wdog) : (s.setWdog c f).power = s.power := rfl
@[simp] theorem State.setWdog_thermal (s : State) (c : Nat) (f : Wdog → Wdog) : (s.setWdog c f).thermal = s.thermal := rfl
@[simp] theorem State.setWdog_mem (s : State) (c : Nat) (f : Wdog → Wdog) : (s.setWdog c f).mem = s.mem := rfl
@[simp] theorem State.setWdog_far (s : State) (c : Nat) (f : Wdog → Wdog) : (s.setWdog c f).far = s.far := rfl
@[simp] theorem State.setWdog_cores (s : State) (c : Nat) (f : Wdog → Wdog) : (s.setWdog c f).cores = s.cores := rfl
@[simp] theorem State.setWdog_kv (s : State) (c : Nat) (f : Wdog → Wdog) : (s.setWdog c f).kv = s.kv := rfl
@[simp] theorem State.setWdog_links (s : State) (c : Nat) (f : Wdog → Wdog) : (s.setWdog c f).links = s.links := rfl
@[simp] theorem State.setWdog_seam (s : State) (c : Nat) (f : Wdog → Wdog) : (s.setWdog c f).seam = s.seam := rfl
@[simp] theorem State.setWdog_cv (s : State) (c : Nat) (f : Wdog → Wdog) : (s.setWdog c f).cv = s.cv := rfl
@[simp] theorem State.setWdog_events (s : State) (c : Nat) (f : Wdog → Wdog) : (s.setWdog c f).events = s.events := rfl
@[simp] theorem State.setWdog_trust (s : State) (c : Nat) (f : Wdog → Wdog) : (s.setWdog c f).trust = s.trust := rfl
@[simp] theorem State.setWdog_i3c (s : State) (c : Nat) (f : Wdog → Wdog) : (s.setWdog c f).i3c = s.i3c := rfl
@[simp] theorem State.setWdog_out (s : State) (c : Nat) (f : Wdog → Wdog) : (s.setWdog c f).out = s.out := rfl
@[simp] theorem State.setWdog_free (s : State) (c : Nat) (f : Wdog → Wdog) : (s.setWdog c f).free = s.free := rfl
@[simp] theorem State.setWdog_run (s : State) (c : Nat) (f : Wdog → Wdog) : (s.setWdog c f).run = s.run := rfl
@[simp] theorem State.setWdog_pending (s : State) (c : Nat) (f : Wdog → Wdog) : (s.setWdog c f).pending = s.pending := rfl

@[simp] theorem State.setWarden_now (s : State) (f : Warden → Warden) : (s.setWarden f).now = s.now := rfl
@[simp] theorem State.setWarden_fuses (s : State) (f : Warden → Warden) : (s.setWarden f).fuses = s.fuses := rfl
@[simp] theorem State.setWarden_settings (s : State) (f : Warden → Warden) : (s.setWarden f).settings = s.settings := rfl
@[simp] theorem State.setWarden_board (s : State) (f : Warden → Warden) : (s.setWarden f).board = s.board := rfl
@[simp] theorem State.setWarden_lantern (s : State) (f : Warden → Warden) : (s.setWarden f).lantern = s.lantern := rfl
@[simp] theorem State.setWarden_geo (s : State) (f : Warden → Warden) : (s.setWarden f).geo = s.geo := rfl
@[simp] theorem State.setWarden_own (s : State) (f : Warden → Warden) : (s.setWarden f).own = s.own := rfl
@[simp] theorem State.setWarden_intakes (s : State) (f : Warden → Warden) : (s.setWarden f).intakes = s.intakes := rfl
@[simp] theorem State.setWarden_ports (s : State) (f : Warden → Warden) : (s.setWarden f).ports = s.ports := rfl
@[simp] theorem State.setWarden_rations (s : State) (f : Warden → Warden) : (s.setWarden f).rations = s.rations := rfl
@[simp] theorem State.setWarden_time (s : State) (f : Warden → Warden) : (s.setWarden f).time = s.time := rfl
@[simp] theorem State.setWarden_power (s : State) (f : Warden → Warden) : (s.setWarden f).power = s.power := rfl
@[simp] theorem State.setWarden_thermal (s : State) (f : Warden → Warden) : (s.setWarden f).thermal = s.thermal := rfl
@[simp] theorem State.setWarden_mem (s : State) (f : Warden → Warden) : (s.setWarden f).mem = s.mem := rfl
@[simp] theorem State.setWarden_far (s : State) (f : Warden → Warden) : (s.setWarden f).far = s.far := rfl
@[simp] theorem State.setWarden_cores (s : State) (f : Warden → Warden) : (s.setWarden f).cores = s.cores := rfl
@[simp] theorem State.setWarden_kv (s : State) (f : Warden → Warden) : (s.setWarden f).kv = s.kv := rfl
@[simp] theorem State.setWarden_links (s : State) (f : Warden → Warden) : (s.setWarden f).links = s.links := rfl
@[simp] theorem State.setWarden_seam (s : State) (f : Warden → Warden) : (s.setWarden f).seam = s.seam := rfl
@[simp] theorem State.setWarden_cv (s : State) (f : Warden → Warden) : (s.setWarden f).cv = s.cv := rfl
@[simp] theorem State.setWarden_events (s : State) (f : Warden → Warden) : (s.setWarden f).events = s.events := rfl
@[simp] theorem State.setWarden_trust (s : State) (f : Warden → Warden) : (s.setWarden f).trust = s.trust := rfl
@[simp] theorem State.setWarden_i3c (s : State) (f : Warden → Warden) : (s.setWarden f).i3c = s.i3c := rfl
@[simp] theorem State.setWarden_out (s : State) (f : Warden → Warden) : (s.setWarden f).out = s.out := rfl
@[simp] theorem State.setWarden_free (s : State) (f : Warden → Warden) : (s.setWarden f).free = s.free := rfl
@[simp] theorem State.setWarden_run (s : State) (f : Warden → Warden) : (s.setWarden f).run = s.run := rfl
@[simp] theorem State.setWarden_pending (s : State) (f : Warden → Warden) : (s.setWarden f).pending = s.pending := rfl

@[simp] theorem State.setCmd_now (s : State) (t : Nat) (f : Cmd → Cmd) : (s.setCmd t f).now = s.now := rfl
@[simp] theorem State.setCmd_fuses (s : State) (t : Nat) (f : Cmd → Cmd) : (s.setCmd t f).fuses = s.fuses := rfl
@[simp] theorem State.setCmd_settings (s : State) (t : Nat) (f : Cmd → Cmd) : (s.setCmd t f).settings = s.settings := rfl
@[simp] theorem State.setCmd_board (s : State) (t : Nat) (f : Cmd → Cmd) : (s.setCmd t f).board = s.board := rfl
@[simp] theorem State.setCmd_lantern (s : State) (t : Nat) (f : Cmd → Cmd) : (s.setCmd t f).lantern = s.lantern := rfl
@[simp] theorem State.setCmd_geo (s : State) (t : Nat) (f : Cmd → Cmd) : (s.setCmd t f).geo = s.geo := rfl
@[simp] theorem State.setCmd_own (s : State) (t : Nat) (f : Cmd → Cmd) : (s.setCmd t f).own = s.own := rfl
@[simp] theorem State.setCmd_intakes (s : State) (t : Nat) (f : Cmd → Cmd) : (s.setCmd t f).intakes = s.intakes := rfl
@[simp] theorem State.setCmd_ports (s : State) (t : Nat) (f : Cmd → Cmd) : (s.setCmd t f).ports = s.ports := rfl
@[simp] theorem State.setCmd_rations (s : State) (t : Nat) (f : Cmd → Cmd) : (s.setCmd t f).rations = s.rations := rfl
@[simp] theorem State.setCmd_time (s : State) (t : Nat) (f : Cmd → Cmd) : (s.setCmd t f).time = s.time := rfl
@[simp] theorem State.setCmd_power (s : State) (t : Nat) (f : Cmd → Cmd) : (s.setCmd t f).power = s.power := rfl
@[simp] theorem State.setCmd_thermal (s : State) (t : Nat) (f : Cmd → Cmd) : (s.setCmd t f).thermal = s.thermal := rfl
@[simp] theorem State.setCmd_mem (s : State) (t : Nat) (f : Cmd → Cmd) : (s.setCmd t f).mem = s.mem := rfl
@[simp] theorem State.setCmd_far (s : State) (t : Nat) (f : Cmd → Cmd) : (s.setCmd t f).far = s.far := rfl
@[simp] theorem State.setCmd_cores (s : State) (t : Nat) (f : Cmd → Cmd) : (s.setCmd t f).cores = s.cores := rfl
@[simp] theorem State.setCmd_kv (s : State) (t : Nat) (f : Cmd → Cmd) : (s.setCmd t f).kv = s.kv := rfl
@[simp] theorem State.setCmd_links (s : State) (t : Nat) (f : Cmd → Cmd) : (s.setCmd t f).links = s.links := rfl
@[simp] theorem State.setCmd_seam (s : State) (t : Nat) (f : Cmd → Cmd) : (s.setCmd t f).seam = s.seam := rfl
@[simp] theorem State.setCmd_cv (s : State) (t : Nat) (f : Cmd → Cmd) : (s.setCmd t f).cv = s.cv := rfl
@[simp] theorem State.setCmd_events (s : State) (t : Nat) (f : Cmd → Cmd) : (s.setCmd t f).events = s.events := rfl
@[simp] theorem State.setCmd_trust (s : State) (t : Nat) (f : Cmd → Cmd) : (s.setCmd t f).trust = s.trust := rfl
@[simp] theorem State.setCmd_i3c (s : State) (t : Nat) (f : Cmd → Cmd) : (s.setCmd t f).i3c = s.i3c := rfl
@[simp] theorem State.setCmd_out (s : State) (t : Nat) (f : Cmd → Cmd) : (s.setCmd t f).out = s.out := rfl
@[simp] theorem State.setCmd_free (s : State) (t : Nat) (f : Cmd → Cmd) : (s.setCmd t f).free = s.free := rfl
@[simp] theorem State.setCmd_run (s : State) (t : Nat) (f : Cmd → Cmd) : (s.setCmd t f).run = s.run := rfl
@[simp] theorem State.setCmd_pending (s : State) (t : Nat) (f : Cmd → Cmd) : (s.setCmd t f).pending = s.pending := rfl

@[simp] theorem State.setOper_now (s : State) (t i : Nat) (f : Oper → Oper) : (s.setOper t i f).now = s.now := rfl
@[simp] theorem State.setOper_fuses (s : State) (t i : Nat) (f : Oper → Oper) : (s.setOper t i f).fuses = s.fuses := rfl
@[simp] theorem State.setOper_settings (s : State) (t i : Nat) (f : Oper → Oper) : (s.setOper t i f).settings = s.settings := rfl
@[simp] theorem State.setOper_board (s : State) (t i : Nat) (f : Oper → Oper) : (s.setOper t i f).board = s.board := rfl
@[simp] theorem State.setOper_lantern (s : State) (t i : Nat) (f : Oper → Oper) : (s.setOper t i f).lantern = s.lantern := rfl
@[simp] theorem State.setOper_geo (s : State) (t i : Nat) (f : Oper → Oper) : (s.setOper t i f).geo = s.geo := rfl
@[simp] theorem State.setOper_own (s : State) (t i : Nat) (f : Oper → Oper) : (s.setOper t i f).own = s.own := rfl
@[simp] theorem State.setOper_intakes (s : State) (t i : Nat) (f : Oper → Oper) : (s.setOper t i f).intakes = s.intakes := rfl
@[simp] theorem State.setOper_ports (s : State) (t i : Nat) (f : Oper → Oper) : (s.setOper t i f).ports = s.ports := rfl
@[simp] theorem State.setOper_rations (s : State) (t i : Nat) (f : Oper → Oper) : (s.setOper t i f).rations = s.rations := rfl
@[simp] theorem State.setOper_time (s : State) (t i : Nat) (f : Oper → Oper) : (s.setOper t i f).time = s.time := rfl
@[simp] theorem State.setOper_power (s : State) (t i : Nat) (f : Oper → Oper) : (s.setOper t i f).power = s.power := rfl
@[simp] theorem State.setOper_thermal (s : State) (t i : Nat) (f : Oper → Oper) : (s.setOper t i f).thermal = s.thermal := rfl
@[simp] theorem State.setOper_mem (s : State) (t i : Nat) (f : Oper → Oper) : (s.setOper t i f).mem = s.mem := rfl
@[simp] theorem State.setOper_far (s : State) (t i : Nat) (f : Oper → Oper) : (s.setOper t i f).far = s.far := rfl
@[simp] theorem State.setOper_cores (s : State) (t i : Nat) (f : Oper → Oper) : (s.setOper t i f).cores = s.cores := rfl
@[simp] theorem State.setOper_kv (s : State) (t i : Nat) (f : Oper → Oper) : (s.setOper t i f).kv = s.kv := rfl
@[simp] theorem State.setOper_links (s : State) (t i : Nat) (f : Oper → Oper) : (s.setOper t i f).links = s.links := rfl
@[simp] theorem State.setOper_seam (s : State) (t i : Nat) (f : Oper → Oper) : (s.setOper t i f).seam = s.seam := rfl
@[simp] theorem State.setOper_cv (s : State) (t i : Nat) (f : Oper → Oper) : (s.setOper t i f).cv = s.cv := rfl
@[simp] theorem State.setOper_events (s : State) (t i : Nat) (f : Oper → Oper) : (s.setOper t i f).events = s.events := rfl
@[simp] theorem State.setOper_trust (s : State) (t i : Nat) (f : Oper → Oper) : (s.setOper t i f).trust = s.trust := rfl
@[simp] theorem State.setOper_i3c (s : State) (t i : Nat) (f : Oper → Oper) : (s.setOper t i f).i3c = s.i3c := rfl
@[simp] theorem State.setOper_out (s : State) (t i : Nat) (f : Oper → Oper) : (s.setOper t i f).out = s.out := rfl
@[simp] theorem State.setOper_free (s : State) (t i : Nat) (f : Oper → Oper) : (s.setOper t i f).free = s.free := rfl
@[simp] theorem State.setOper_run (s : State) (t i : Nat) (f : Oper → Oper) : (s.setOper t i f).run = s.run := rfl
@[simp] theorem State.setOper_pending (s : State) (t i : Nat) (f : Oper → Oper) : (s.setOper t i f).pending = s.pending := rfl

@[simp] theorem State.setOwnPort_now (s : State) (c : Nat) (f : OwnPort → OwnPort) : (s.setOwnPort c f).now = s.now := rfl
@[simp] theorem State.setOwnPort_fuses (s : State) (c : Nat) (f : OwnPort → OwnPort) : (s.setOwnPort c f).fuses = s.fuses := rfl
@[simp] theorem State.setOwnPort_settings (s : State) (c : Nat) (f : OwnPort → OwnPort) : (s.setOwnPort c f).settings = s.settings := rfl
@[simp] theorem State.setOwnPort_board (s : State) (c : Nat) (f : OwnPort → OwnPort) : (s.setOwnPort c f).board = s.board := rfl
@[simp] theorem State.setOwnPort_lantern (s : State) (c : Nat) (f : OwnPort → OwnPort) : (s.setOwnPort c f).lantern = s.lantern := rfl
@[simp] theorem State.setOwnPort_geo (s : State) (c : Nat) (f : OwnPort → OwnPort) : (s.setOwnPort c f).geo = s.geo := rfl
@[simp] theorem State.setOwnPort_intakes (s : State) (c : Nat) (f : OwnPort → OwnPort) : (s.setOwnPort c f).intakes = s.intakes := rfl
@[simp] theorem State.setOwnPort_ports (s : State) (c : Nat) (f : OwnPort → OwnPort) : (s.setOwnPort c f).ports = s.ports := rfl
@[simp] theorem State.setOwnPort_warden (s : State) (c : Nat) (f : OwnPort → OwnPort) : (s.setOwnPort c f).warden = s.warden := rfl
@[simp] theorem State.setOwnPort_rations (s : State) (c : Nat) (f : OwnPort → OwnPort) : (s.setOwnPort c f).rations = s.rations := rfl
@[simp] theorem State.setOwnPort_time (s : State) (c : Nat) (f : OwnPort → OwnPort) : (s.setOwnPort c f).time = s.time := rfl
@[simp] theorem State.setOwnPort_power (s : State) (c : Nat) (f : OwnPort → OwnPort) : (s.setOwnPort c f).power = s.power := rfl
@[simp] theorem State.setOwnPort_thermal (s : State) (c : Nat) (f : OwnPort → OwnPort) : (s.setOwnPort c f).thermal = s.thermal := rfl
@[simp] theorem State.setOwnPort_mem (s : State) (c : Nat) (f : OwnPort → OwnPort) : (s.setOwnPort c f).mem = s.mem := rfl
@[simp] theorem State.setOwnPort_far (s : State) (c : Nat) (f : OwnPort → OwnPort) : (s.setOwnPort c f).far = s.far := rfl
@[simp] theorem State.setOwnPort_cores (s : State) (c : Nat) (f : OwnPort → OwnPort) : (s.setOwnPort c f).cores = s.cores := rfl
@[simp] theorem State.setOwnPort_kv (s : State) (c : Nat) (f : OwnPort → OwnPort) : (s.setOwnPort c f).kv = s.kv := rfl
@[simp] theorem State.setOwnPort_links (s : State) (c : Nat) (f : OwnPort → OwnPort) : (s.setOwnPort c f).links = s.links := rfl
@[simp] theorem State.setOwnPort_seam (s : State) (c : Nat) (f : OwnPort → OwnPort) : (s.setOwnPort c f).seam = s.seam := rfl
@[simp] theorem State.setOwnPort_cv (s : State) (c : Nat) (f : OwnPort → OwnPort) : (s.setOwnPort c f).cv = s.cv := rfl
@[simp] theorem State.setOwnPort_events (s : State) (c : Nat) (f : OwnPort → OwnPort) : (s.setOwnPort c f).events = s.events := rfl
@[simp] theorem State.setOwnPort_trust (s : State) (c : Nat) (f : OwnPort → OwnPort) : (s.setOwnPort c f).trust = s.trust := rfl
@[simp] theorem State.setOwnPort_i3c (s : State) (c : Nat) (f : OwnPort → OwnPort) : (s.setOwnPort c f).i3c = s.i3c := rfl
@[simp] theorem State.setOwnPort_out (s : State) (c : Nat) (f : OwnPort → OwnPort) : (s.setOwnPort c f).out = s.out := rfl
@[simp] theorem State.setOwnPort_free (s : State) (c : Nat) (f : OwnPort → OwnPort) : (s.setOwnPort c f).free = s.free := rfl
@[simp] theorem State.setOwnPort_run (s : State) (c : Nat) (f : OwnPort → OwnPort) : (s.setOwnPort c f).run = s.run := rfl
@[simp] theorem State.setOwnPort_pending (s : State) (c : Nat) (f : OwnPort → OwnPort) : (s.setOwnPort c f).pending = s.pending := rfl

@[simp] theorem State.setChan_now (s : State) (c : Nat) (f : CvChan → CvChan) : (s.setChan c f).now = s.now := rfl
@[simp] theorem State.setChan_fuses (s : State) (c : Nat) (f : CvChan → CvChan) : (s.setChan c f).fuses = s.fuses := rfl
@[simp] theorem State.setChan_settings (s : State) (c : Nat) (f : CvChan → CvChan) : (s.setChan c f).settings = s.settings := rfl
@[simp] theorem State.setChan_board (s : State) (c : Nat) (f : CvChan → CvChan) : (s.setChan c f).board = s.board := rfl
@[simp] theorem State.setChan_lantern (s : State) (c : Nat) (f : CvChan → CvChan) : (s.setChan c f).lantern = s.lantern := rfl
@[simp] theorem State.setChan_geo (s : State) (c : Nat) (f : CvChan → CvChan) : (s.setChan c f).geo = s.geo := rfl
@[simp] theorem State.setChan_own (s : State) (c : Nat) (f : CvChan → CvChan) : (s.setChan c f).own = s.own := rfl
@[simp] theorem State.setChan_intakes (s : State) (c : Nat) (f : CvChan → CvChan) : (s.setChan c f).intakes = s.intakes := rfl
@[simp] theorem State.setChan_ports (s : State) (c : Nat) (f : CvChan → CvChan) : (s.setChan c f).ports = s.ports := rfl
@[simp] theorem State.setChan_warden (s : State) (c : Nat) (f : CvChan → CvChan) : (s.setChan c f).warden = s.warden := rfl
@[simp] theorem State.setChan_rations (s : State) (c : Nat) (f : CvChan → CvChan) : (s.setChan c f).rations = s.rations := rfl
@[simp] theorem State.setChan_time (s : State) (c : Nat) (f : CvChan → CvChan) : (s.setChan c f).time = s.time := rfl
@[simp] theorem State.setChan_power (s : State) (c : Nat) (f : CvChan → CvChan) : (s.setChan c f).power = s.power := rfl
@[simp] theorem State.setChan_thermal (s : State) (c : Nat) (f : CvChan → CvChan) : (s.setChan c f).thermal = s.thermal := rfl
@[simp] theorem State.setChan_mem (s : State) (c : Nat) (f : CvChan → CvChan) : (s.setChan c f).mem = s.mem := rfl
@[simp] theorem State.setChan_far (s : State) (c : Nat) (f : CvChan → CvChan) : (s.setChan c f).far = s.far := rfl
@[simp] theorem State.setChan_cores (s : State) (c : Nat) (f : CvChan → CvChan) : (s.setChan c f).cores = s.cores := rfl
@[simp] theorem State.setChan_kv (s : State) (c : Nat) (f : CvChan → CvChan) : (s.setChan c f).kv = s.kv := rfl
@[simp] theorem State.setChan_links (s : State) (c : Nat) (f : CvChan → CvChan) : (s.setChan c f).links = s.links := rfl
@[simp] theorem State.setChan_seam (s : State) (c : Nat) (f : CvChan → CvChan) : (s.setChan c f).seam = s.seam := rfl
@[simp] theorem State.setChan_events (s : State) (c : Nat) (f : CvChan → CvChan) : (s.setChan c f).events = s.events := rfl
@[simp] theorem State.setChan_trust (s : State) (c : Nat) (f : CvChan → CvChan) : (s.setChan c f).trust = s.trust := rfl
@[simp] theorem State.setChan_i3c (s : State) (c : Nat) (f : CvChan → CvChan) : (s.setChan c f).i3c = s.i3c := rfl
@[simp] theorem State.setChan_out (s : State) (c : Nat) (f : CvChan → CvChan) : (s.setChan c f).out = s.out := rfl
@[simp] theorem State.setChan_free (s : State) (c : Nat) (f : CvChan → CvChan) : (s.setChan c f).free = s.free := rfl
@[simp] theorem State.setChan_run (s : State) (c : Nat) (f : CvChan → CvChan) : (s.setChan c f).run = s.run := rfl
@[simp] theorem State.setChan_pending (s : State) (c : Nat) (f : CvChan → CvChan) : (s.setChan c f).pending = s.pending := rfl

@[simp] theorem State.setFar_now (s : State) (f : FarTier → FarTier) : (s.setFar f).now = s.now := rfl
@[simp] theorem State.setFar_fuses (s : State) (f : FarTier → FarTier) : (s.setFar f).fuses = s.fuses := rfl
@[simp] theorem State.setFar_settings (s : State) (f : FarTier → FarTier) : (s.setFar f).settings = s.settings := rfl
@[simp] theorem State.setFar_board (s : State) (f : FarTier → FarTier) : (s.setFar f).board = s.board := rfl
@[simp] theorem State.setFar_lantern (s : State) (f : FarTier → FarTier) : (s.setFar f).lantern = s.lantern := rfl
@[simp] theorem State.setFar_geo (s : State) (f : FarTier → FarTier) : (s.setFar f).geo = s.geo := rfl
@[simp] theorem State.setFar_own (s : State) (f : FarTier → FarTier) : (s.setFar f).own = s.own := rfl
@[simp] theorem State.setFar_intakes (s : State) (f : FarTier → FarTier) : (s.setFar f).intakes = s.intakes := rfl
@[simp] theorem State.setFar_ports (s : State) (f : FarTier → FarTier) : (s.setFar f).ports = s.ports := rfl
@[simp] theorem State.setFar_warden (s : State) (f : FarTier → FarTier) : (s.setFar f).warden = s.warden := rfl
@[simp] theorem State.setFar_rations (s : State) (f : FarTier → FarTier) : (s.setFar f).rations = s.rations := rfl
@[simp] theorem State.setFar_time (s : State) (f : FarTier → FarTier) : (s.setFar f).time = s.time := rfl
@[simp] theorem State.setFar_power (s : State) (f : FarTier → FarTier) : (s.setFar f).power = s.power := rfl
@[simp] theorem State.setFar_thermal (s : State) (f : FarTier → FarTier) : (s.setFar f).thermal = s.thermal := rfl
@[simp] theorem State.setFar_mem (s : State) (f : FarTier → FarTier) : (s.setFar f).mem = s.mem := rfl
@[simp] theorem State.setFar_cores (s : State) (f : FarTier → FarTier) : (s.setFar f).cores = s.cores := rfl
@[simp] theorem State.setFar_kv (s : State) (f : FarTier → FarTier) : (s.setFar f).kv = s.kv := rfl
@[simp] theorem State.setFar_links (s : State) (f : FarTier → FarTier) : (s.setFar f).links = s.links := rfl
@[simp] theorem State.setFar_seam (s : State) (f : FarTier → FarTier) : (s.setFar f).seam = s.seam := rfl
@[simp] theorem State.setFar_cv (s : State) (f : FarTier → FarTier) : (s.setFar f).cv = s.cv := rfl
@[simp] theorem State.setFar_events (s : State) (f : FarTier → FarTier) : (s.setFar f).events = s.events := rfl
@[simp] theorem State.setFar_trust (s : State) (f : FarTier → FarTier) : (s.setFar f).trust = s.trust := rfl
@[simp] theorem State.setFar_i3c (s : State) (f : FarTier → FarTier) : (s.setFar f).i3c = s.i3c := rfl
@[simp] theorem State.setFar_out (s : State) (f : FarTier → FarTier) : (s.setFar f).out = s.out := rfl
@[simp] theorem State.setFar_free (s : State) (f : FarTier → FarTier) : (s.setFar f).free = s.free := rfl
@[simp] theorem State.setFar_run (s : State) (f : FarTier → FarTier) : (s.setFar f).run = s.run := rfl
@[simp] theorem State.setFar_pending (s : State) (f : FarTier → FarTier) : (s.setFar f).pending = s.pending := rfl

@[simp] theorem State.setSettings_now (s : State) (f : Settings → Settings) : (s.setSettings f).now = s.now := rfl
@[simp] theorem State.setSettings_fuses (s : State) (f : Settings → Settings) : (s.setSettings f).fuses = s.fuses := rfl
@[simp] theorem State.setSettings_board (s : State) (f : Settings → Settings) : (s.setSettings f).board = s.board := rfl
@[simp] theorem State.setSettings_lantern (s : State) (f : Settings → Settings) : (s.setSettings f).lantern = s.lantern := rfl
@[simp] theorem State.setSettings_geo (s : State) (f : Settings → Settings) : (s.setSettings f).geo = s.geo := rfl
@[simp] theorem State.setSettings_own (s : State) (f : Settings → Settings) : (s.setSettings f).own = s.own := rfl
@[simp] theorem State.setSettings_intakes (s : State) (f : Settings → Settings) : (s.setSettings f).intakes = s.intakes := rfl
@[simp] theorem State.setSettings_ports (s : State) (f : Settings → Settings) : (s.setSettings f).ports = s.ports := rfl
@[simp] theorem State.setSettings_warden (s : State) (f : Settings → Settings) : (s.setSettings f).warden = s.warden := rfl
@[simp] theorem State.setSettings_rations (s : State) (f : Settings → Settings) : (s.setSettings f).rations = s.rations := rfl
@[simp] theorem State.setSettings_time (s : State) (f : Settings → Settings) : (s.setSettings f).time = s.time := rfl
@[simp] theorem State.setSettings_power (s : State) (f : Settings → Settings) : (s.setSettings f).power = s.power := rfl
@[simp] theorem State.setSettings_thermal (s : State) (f : Settings → Settings) : (s.setSettings f).thermal = s.thermal := rfl
@[simp] theorem State.setSettings_mem (s : State) (f : Settings → Settings) : (s.setSettings f).mem = s.mem := rfl
@[simp] theorem State.setSettings_far (s : State) (f : Settings → Settings) : (s.setSettings f).far = s.far := rfl
@[simp] theorem State.setSettings_cores (s : State) (f : Settings → Settings) : (s.setSettings f).cores = s.cores := rfl
@[simp] theorem State.setSettings_kv (s : State) (f : Settings → Settings) : (s.setSettings f).kv = s.kv := rfl
@[simp] theorem State.setSettings_links (s : State) (f : Settings → Settings) : (s.setSettings f).links = s.links := rfl
@[simp] theorem State.setSettings_seam (s : State) (f : Settings → Settings) : (s.setSettings f).seam = s.seam := rfl
@[simp] theorem State.setSettings_cv (s : State) (f : Settings → Settings) : (s.setSettings f).cv = s.cv := rfl
@[simp] theorem State.setSettings_events (s : State) (f : Settings → Settings) : (s.setSettings f).events = s.events := rfl
@[simp] theorem State.setSettings_trust (s : State) (f : Settings → Settings) : (s.setSettings f).trust = s.trust := rfl
@[simp] theorem State.setSettings_i3c (s : State) (f : Settings → Settings) : (s.setSettings f).i3c = s.i3c := rfl
@[simp] theorem State.setSettings_out (s : State) (f : Settings → Settings) : (s.setSettings f).out = s.out := rfl
@[simp] theorem State.setSettings_free (s : State) (f : Settings → Settings) : (s.setSettings f).free = s.free := rfl
@[simp] theorem State.setSettings_run (s : State) (f : Settings → Settings) : (s.setSettings f).run = s.run := rfl
@[simp] theorem State.setSettings_pending (s : State) (f : Settings → Settings) : (s.setSettings f).pending = s.pending := rfl

@[simp] theorem State.setLantern_now (s : State) (f : Lantern → Lantern) : (s.setLantern f).now = s.now := rfl
@[simp] theorem State.setLantern_fuses (s : State) (f : Lantern → Lantern) : (s.setLantern f).fuses = s.fuses := rfl
@[simp] theorem State.setLantern_settings (s : State) (f : Lantern → Lantern) : (s.setLantern f).settings = s.settings := rfl
@[simp] theorem State.setLantern_board (s : State) (f : Lantern → Lantern) : (s.setLantern f).board = s.board := rfl
@[simp] theorem State.setLantern_geo (s : State) (f : Lantern → Lantern) : (s.setLantern f).geo = s.geo := rfl
@[simp] theorem State.setLantern_own (s : State) (f : Lantern → Lantern) : (s.setLantern f).own = s.own := rfl
@[simp] theorem State.setLantern_intakes (s : State) (f : Lantern → Lantern) : (s.setLantern f).intakes = s.intakes := rfl
@[simp] theorem State.setLantern_ports (s : State) (f : Lantern → Lantern) : (s.setLantern f).ports = s.ports := rfl
@[simp] theorem State.setLantern_warden (s : State) (f : Lantern → Lantern) : (s.setLantern f).warden = s.warden := rfl
@[simp] theorem State.setLantern_rations (s : State) (f : Lantern → Lantern) : (s.setLantern f).rations = s.rations := rfl
@[simp] theorem State.setLantern_time (s : State) (f : Lantern → Lantern) : (s.setLantern f).time = s.time := rfl
@[simp] theorem State.setLantern_power (s : State) (f : Lantern → Lantern) : (s.setLantern f).power = s.power := rfl
@[simp] theorem State.setLantern_thermal (s : State) (f : Lantern → Lantern) : (s.setLantern f).thermal = s.thermal := rfl
@[simp] theorem State.setLantern_mem (s : State) (f : Lantern → Lantern) : (s.setLantern f).mem = s.mem := rfl
@[simp] theorem State.setLantern_far (s : State) (f : Lantern → Lantern) : (s.setLantern f).far = s.far := rfl
@[simp] theorem State.setLantern_cores (s : State) (f : Lantern → Lantern) : (s.setLantern f).cores = s.cores := rfl
@[simp] theorem State.setLantern_kv (s : State) (f : Lantern → Lantern) : (s.setLantern f).kv = s.kv := rfl
@[simp] theorem State.setLantern_links (s : State) (f : Lantern → Lantern) : (s.setLantern f).links = s.links := rfl
@[simp] theorem State.setLantern_seam (s : State) (f : Lantern → Lantern) : (s.setLantern f).seam = s.seam := rfl
@[simp] theorem State.setLantern_cv (s : State) (f : Lantern → Lantern) : (s.setLantern f).cv = s.cv := rfl
@[simp] theorem State.setLantern_events (s : State) (f : Lantern → Lantern) : (s.setLantern f).events = s.events := rfl
@[simp] theorem State.setLantern_trust (s : State) (f : Lantern → Lantern) : (s.setLantern f).trust = s.trust := rfl
@[simp] theorem State.setLantern_i3c (s : State) (f : Lantern → Lantern) : (s.setLantern f).i3c = s.i3c := rfl
@[simp] theorem State.setLantern_out (s : State) (f : Lantern → Lantern) : (s.setLantern f).out = s.out := rfl
@[simp] theorem State.setLantern_free (s : State) (f : Lantern → Lantern) : (s.setLantern f).free = s.free := rfl
@[simp] theorem State.setLantern_run (s : State) (f : Lantern → Lantern) : (s.setLantern f).run = s.run := rfl
@[simp] theorem State.setLantern_pending (s : State) (f : Lantern → Lantern) : (s.setLantern f).pending = s.pending := rfl

@[simp] theorem State.setThermal_now (s : State) (f : Thermal → Thermal) : (s.setThermal f).now = s.now := rfl
@[simp] theorem State.setThermal_fuses (s : State) (f : Thermal → Thermal) : (s.setThermal f).fuses = s.fuses := rfl
@[simp] theorem State.setThermal_settings (s : State) (f : Thermal → Thermal) : (s.setThermal f).settings = s.settings := rfl
@[simp] theorem State.setThermal_board (s : State) (f : Thermal → Thermal) : (s.setThermal f).board = s.board := rfl
@[simp] theorem State.setThermal_lantern (s : State) (f : Thermal → Thermal) : (s.setThermal f).lantern = s.lantern := rfl
@[simp] theorem State.setThermal_geo (s : State) (f : Thermal → Thermal) : (s.setThermal f).geo = s.geo := rfl
@[simp] theorem State.setThermal_own (s : State) (f : Thermal → Thermal) : (s.setThermal f).own = s.own := rfl
@[simp] theorem State.setThermal_intakes (s : State) (f : Thermal → Thermal) : (s.setThermal f).intakes = s.intakes := rfl
@[simp] theorem State.setThermal_ports (s : State) (f : Thermal → Thermal) : (s.setThermal f).ports = s.ports := rfl
@[simp] theorem State.setThermal_warden (s : State) (f : Thermal → Thermal) : (s.setThermal f).warden = s.warden := rfl
@[simp] theorem State.setThermal_rations (s : State) (f : Thermal → Thermal) : (s.setThermal f).rations = s.rations := rfl
@[simp] theorem State.setThermal_time (s : State) (f : Thermal → Thermal) : (s.setThermal f).time = s.time := rfl
@[simp] theorem State.setThermal_power (s : State) (f : Thermal → Thermal) : (s.setThermal f).power = s.power := rfl
@[simp] theorem State.setThermal_mem (s : State) (f : Thermal → Thermal) : (s.setThermal f).mem = s.mem := rfl
@[simp] theorem State.setThermal_far (s : State) (f : Thermal → Thermal) : (s.setThermal f).far = s.far := rfl
@[simp] theorem State.setThermal_cores (s : State) (f : Thermal → Thermal) : (s.setThermal f).cores = s.cores := rfl
@[simp] theorem State.setThermal_kv (s : State) (f : Thermal → Thermal) : (s.setThermal f).kv = s.kv := rfl
@[simp] theorem State.setThermal_links (s : State) (f : Thermal → Thermal) : (s.setThermal f).links = s.links := rfl
@[simp] theorem State.setThermal_seam (s : State) (f : Thermal → Thermal) : (s.setThermal f).seam = s.seam := rfl
@[simp] theorem State.setThermal_cv (s : State) (f : Thermal → Thermal) : (s.setThermal f).cv = s.cv := rfl
@[simp] theorem State.setThermal_events (s : State) (f : Thermal → Thermal) : (s.setThermal f).events = s.events := rfl
@[simp] theorem State.setThermal_trust (s : State) (f : Thermal → Thermal) : (s.setThermal f).trust = s.trust := rfl
@[simp] theorem State.setThermal_i3c (s : State) (f : Thermal → Thermal) : (s.setThermal f).i3c = s.i3c := rfl
@[simp] theorem State.setThermal_out (s : State) (f : Thermal → Thermal) : (s.setThermal f).out = s.out := rfl
@[simp] theorem State.setThermal_free (s : State) (f : Thermal → Thermal) : (s.setThermal f).free = s.free := rfl
@[simp] theorem State.setThermal_run (s : State) (f : Thermal → Thermal) : (s.setThermal f).run = s.run := rfl
@[simp] theorem State.setThermal_pending (s : State) (f : Thermal → Thermal) : (s.setThermal f).pending = s.pending := rfl

@[simp] theorem State.setRails_now (s : State) (f : Rails → Rails) : (s.setRails f).now = s.now := rfl
@[simp] theorem State.setRails_fuses (s : State) (f : Rails → Rails) : (s.setRails f).fuses = s.fuses := rfl
@[simp] theorem State.setRails_settings (s : State) (f : Rails → Rails) : (s.setRails f).settings = s.settings := rfl
@[simp] theorem State.setRails_lantern (s : State) (f : Rails → Rails) : (s.setRails f).lantern = s.lantern := rfl
@[simp] theorem State.setRails_geo (s : State) (f : Rails → Rails) : (s.setRails f).geo = s.geo := rfl
@[simp] theorem State.setRails_own (s : State) (f : Rails → Rails) : (s.setRails f).own = s.own := rfl
@[simp] theorem State.setRails_intakes (s : State) (f : Rails → Rails) : (s.setRails f).intakes = s.intakes := rfl
@[simp] theorem State.setRails_ports (s : State) (f : Rails → Rails) : (s.setRails f).ports = s.ports := rfl
@[simp] theorem State.setRails_warden (s : State) (f : Rails → Rails) : (s.setRails f).warden = s.warden := rfl
@[simp] theorem State.setRails_rations (s : State) (f : Rails → Rails) : (s.setRails f).rations = s.rations := rfl
@[simp] theorem State.setRails_time (s : State) (f : Rails → Rails) : (s.setRails f).time = s.time := rfl
@[simp] theorem State.setRails_power (s : State) (f : Rails → Rails) : (s.setRails f).power = s.power := rfl
@[simp] theorem State.setRails_thermal (s : State) (f : Rails → Rails) : (s.setRails f).thermal = s.thermal := rfl
@[simp] theorem State.setRails_mem (s : State) (f : Rails → Rails) : (s.setRails f).mem = s.mem := rfl
@[simp] theorem State.setRails_far (s : State) (f : Rails → Rails) : (s.setRails f).far = s.far := rfl
@[simp] theorem State.setRails_cores (s : State) (f : Rails → Rails) : (s.setRails f).cores = s.cores := rfl
@[simp] theorem State.setRails_kv (s : State) (f : Rails → Rails) : (s.setRails f).kv = s.kv := rfl
@[simp] theorem State.setRails_links (s : State) (f : Rails → Rails) : (s.setRails f).links = s.links := rfl
@[simp] theorem State.setRails_seam (s : State) (f : Rails → Rails) : (s.setRails f).seam = s.seam := rfl
@[simp] theorem State.setRails_cv (s : State) (f : Rails → Rails) : (s.setRails f).cv = s.cv := rfl
@[simp] theorem State.setRails_events (s : State) (f : Rails → Rails) : (s.setRails f).events = s.events := rfl
@[simp] theorem State.setRails_trust (s : State) (f : Rails → Rails) : (s.setRails f).trust = s.trust := rfl
@[simp] theorem State.setRails_i3c (s : State) (f : Rails → Rails) : (s.setRails f).i3c = s.i3c := rfl
@[simp] theorem State.setRails_out (s : State) (f : Rails → Rails) : (s.setRails f).out = s.out := rfl
@[simp] theorem State.setRails_free (s : State) (f : Rails → Rails) : (s.setRails f).free = s.free := rfl
@[simp] theorem State.setRails_run (s : State) (f : Rails → Rails) : (s.setRails f).run = s.run := rfl
@[simp] theorem State.setRails_pending (s : State) (f : Rails → Rails) : (s.setRails f).pending = s.pending := rfl

@[simp] theorem State.setI3c_now (s : State) (f : I3c → I3c) : (s.setI3c f).now = s.now := rfl
@[simp] theorem State.setI3c_fuses (s : State) (f : I3c → I3c) : (s.setI3c f).fuses = s.fuses := rfl
@[simp] theorem State.setI3c_settings (s : State) (f : I3c → I3c) : (s.setI3c f).settings = s.settings := rfl
@[simp] theorem State.setI3c_board (s : State) (f : I3c → I3c) : (s.setI3c f).board = s.board := rfl
@[simp] theorem State.setI3c_lantern (s : State) (f : I3c → I3c) : (s.setI3c f).lantern = s.lantern := rfl
@[simp] theorem State.setI3c_geo (s : State) (f : I3c → I3c) : (s.setI3c f).geo = s.geo := rfl
@[simp] theorem State.setI3c_own (s : State) (f : I3c → I3c) : (s.setI3c f).own = s.own := rfl
@[simp] theorem State.setI3c_intakes (s : State) (f : I3c → I3c) : (s.setI3c f).intakes = s.intakes := rfl
@[simp] theorem State.setI3c_ports (s : State) (f : I3c → I3c) : (s.setI3c f).ports = s.ports := rfl
@[simp] theorem State.setI3c_warden (s : State) (f : I3c → I3c) : (s.setI3c f).warden = s.warden := rfl
@[simp] theorem State.setI3c_rations (s : State) (f : I3c → I3c) : (s.setI3c f).rations = s.rations := rfl
@[simp] theorem State.setI3c_time (s : State) (f : I3c → I3c) : (s.setI3c f).time = s.time := rfl
@[simp] theorem State.setI3c_power (s : State) (f : I3c → I3c) : (s.setI3c f).power = s.power := rfl
@[simp] theorem State.setI3c_thermal (s : State) (f : I3c → I3c) : (s.setI3c f).thermal = s.thermal := rfl
@[simp] theorem State.setI3c_mem (s : State) (f : I3c → I3c) : (s.setI3c f).mem = s.mem := rfl
@[simp] theorem State.setI3c_far (s : State) (f : I3c → I3c) : (s.setI3c f).far = s.far := rfl
@[simp] theorem State.setI3c_cores (s : State) (f : I3c → I3c) : (s.setI3c f).cores = s.cores := rfl
@[simp] theorem State.setI3c_kv (s : State) (f : I3c → I3c) : (s.setI3c f).kv = s.kv := rfl
@[simp] theorem State.setI3c_links (s : State) (f : I3c → I3c) : (s.setI3c f).links = s.links := rfl
@[simp] theorem State.setI3c_seam (s : State) (f : I3c → I3c) : (s.setI3c f).seam = s.seam := rfl
@[simp] theorem State.setI3c_cv (s : State) (f : I3c → I3c) : (s.setI3c f).cv = s.cv := rfl
@[simp] theorem State.setI3c_events (s : State) (f : I3c → I3c) : (s.setI3c f).events = s.events := rfl
@[simp] theorem State.setI3c_trust (s : State) (f : I3c → I3c) : (s.setI3c f).trust = s.trust := rfl
@[simp] theorem State.setI3c_out (s : State) (f : I3c → I3c) : (s.setI3c f).out = s.out := rfl
@[simp] theorem State.setI3c_free (s : State) (f : I3c → I3c) : (s.setI3c f).free = s.free := rfl
@[simp] theorem State.setI3c_run (s : State) (f : I3c → I3c) : (s.setI3c f).run = s.run := rfl
@[simp] theorem State.setI3c_pending (s : State) (f : I3c → I3c) : (s.setI3c f).pending = s.pending := rfl

@[simp] theorem State.setTrust_now (s : State) (f : Trust → Trust) : (s.setTrust f).now = s.now := rfl
@[simp] theorem State.setTrust_fuses (s : State) (f : Trust → Trust) : (s.setTrust f).fuses = s.fuses := rfl
@[simp] theorem State.setTrust_settings (s : State) (f : Trust → Trust) : (s.setTrust f).settings = s.settings := rfl
@[simp] theorem State.setTrust_board (s : State) (f : Trust → Trust) : (s.setTrust f).board = s.board := rfl
@[simp] theorem State.setTrust_lantern (s : State) (f : Trust → Trust) : (s.setTrust f).lantern = s.lantern := rfl
@[simp] theorem State.setTrust_geo (s : State) (f : Trust → Trust) : (s.setTrust f).geo = s.geo := rfl
@[simp] theorem State.setTrust_own (s : State) (f : Trust → Trust) : (s.setTrust f).own = s.own := rfl
@[simp] theorem State.setTrust_intakes (s : State) (f : Trust → Trust) : (s.setTrust f).intakes = s.intakes := rfl
@[simp] theorem State.setTrust_ports (s : State) (f : Trust → Trust) : (s.setTrust f).ports = s.ports := rfl
@[simp] theorem State.setTrust_warden (s : State) (f : Trust → Trust) : (s.setTrust f).warden = s.warden := rfl
@[simp] theorem State.setTrust_rations (s : State) (f : Trust → Trust) : (s.setTrust f).rations = s.rations := rfl
@[simp] theorem State.setTrust_time (s : State) (f : Trust → Trust) : (s.setTrust f).time = s.time := rfl
@[simp] theorem State.setTrust_power (s : State) (f : Trust → Trust) : (s.setTrust f).power = s.power := rfl
@[simp] theorem State.setTrust_thermal (s : State) (f : Trust → Trust) : (s.setTrust f).thermal = s.thermal := rfl
@[simp] theorem State.setTrust_mem (s : State) (f : Trust → Trust) : (s.setTrust f).mem = s.mem := rfl
@[simp] theorem State.setTrust_far (s : State) (f : Trust → Trust) : (s.setTrust f).far = s.far := rfl
@[simp] theorem State.setTrust_cores (s : State) (f : Trust → Trust) : (s.setTrust f).cores = s.cores := rfl
@[simp] theorem State.setTrust_kv (s : State) (f : Trust → Trust) : (s.setTrust f).kv = s.kv := rfl
@[simp] theorem State.setTrust_links (s : State) (f : Trust → Trust) : (s.setTrust f).links = s.links := rfl
@[simp] theorem State.setTrust_seam (s : State) (f : Trust → Trust) : (s.setTrust f).seam = s.seam := rfl
@[simp] theorem State.setTrust_cv (s : State) (f : Trust → Trust) : (s.setTrust f).cv = s.cv := rfl
@[simp] theorem State.setTrust_events (s : State) (f : Trust → Trust) : (s.setTrust f).events = s.events := rfl
@[simp] theorem State.setTrust_i3c (s : State) (f : Trust → Trust) : (s.setTrust f).i3c = s.i3c := rfl
@[simp] theorem State.setTrust_out (s : State) (f : Trust → Trust) : (s.setTrust f).out = s.out := rfl
@[simp] theorem State.setTrust_free (s : State) (f : Trust → Trust) : (s.setTrust f).free = s.free := rfl
@[simp] theorem State.setTrust_run (s : State) (f : Trust → Trust) : (s.setTrust f).run = s.run := rfl
@[simp] theorem State.setTrust_pending (s : State) (f : Trust → Trust) : (s.setTrust f).pending = s.pending := rfl

@[simp] theorem State.setKv_now (s : State) (f : Kv → Kv) : (s.setKv f).now = s.now := rfl
@[simp] theorem State.setKv_fuses (s : State) (f : Kv → Kv) : (s.setKv f).fuses = s.fuses := rfl
@[simp] theorem State.setKv_settings (s : State) (f : Kv → Kv) : (s.setKv f).settings = s.settings := rfl
@[simp] theorem State.setKv_board (s : State) (f : Kv → Kv) : (s.setKv f).board = s.board := rfl
@[simp] theorem State.setKv_lantern (s : State) (f : Kv → Kv) : (s.setKv f).lantern = s.lantern := rfl
@[simp] theorem State.setKv_geo (s : State) (f : Kv → Kv) : (s.setKv f).geo = s.geo := rfl
@[simp] theorem State.setKv_own (s : State) (f : Kv → Kv) : (s.setKv f).own = s.own := rfl
@[simp] theorem State.setKv_intakes (s : State) (f : Kv → Kv) : (s.setKv f).intakes = s.intakes := rfl
@[simp] theorem State.setKv_ports (s : State) (f : Kv → Kv) : (s.setKv f).ports = s.ports := rfl
@[simp] theorem State.setKv_warden (s : State) (f : Kv → Kv) : (s.setKv f).warden = s.warden := rfl
@[simp] theorem State.setKv_rations (s : State) (f : Kv → Kv) : (s.setKv f).rations = s.rations := rfl
@[simp] theorem State.setKv_time (s : State) (f : Kv → Kv) : (s.setKv f).time = s.time := rfl
@[simp] theorem State.setKv_power (s : State) (f : Kv → Kv) : (s.setKv f).power = s.power := rfl
@[simp] theorem State.setKv_thermal (s : State) (f : Kv → Kv) : (s.setKv f).thermal = s.thermal := rfl
@[simp] theorem State.setKv_mem (s : State) (f : Kv → Kv) : (s.setKv f).mem = s.mem := rfl
@[simp] theorem State.setKv_far (s : State) (f : Kv → Kv) : (s.setKv f).far = s.far := rfl
@[simp] theorem State.setKv_cores (s : State) (f : Kv → Kv) : (s.setKv f).cores = s.cores := rfl
@[simp] theorem State.setKv_links (s : State) (f : Kv → Kv) : (s.setKv f).links = s.links := rfl
@[simp] theorem State.setKv_seam (s : State) (f : Kv → Kv) : (s.setKv f).seam = s.seam := rfl
@[simp] theorem State.setKv_cv (s : State) (f : Kv → Kv) : (s.setKv f).cv = s.cv := rfl
@[simp] theorem State.setKv_events (s : State) (f : Kv → Kv) : (s.setKv f).events = s.events := rfl
@[simp] theorem State.setKv_trust (s : State) (f : Kv → Kv) : (s.setKv f).trust = s.trust := rfl
@[simp] theorem State.setKv_i3c (s : State) (f : Kv → Kv) : (s.setKv f).i3c = s.i3c := rfl
@[simp] theorem State.setKv_out (s : State) (f : Kv → Kv) : (s.setKv f).out = s.out := rfl
@[simp] theorem State.setKv_free (s : State) (f : Kv → Kv) : (s.setKv f).free = s.free := rfl
@[simp] theorem State.setKv_run (s : State) (f : Kv → Kv) : (s.setKv f).run = s.run := rfl
@[simp] theorem State.setKv_pending (s : State) (f : Kv → Kv) : (s.setKv f).pending = s.pending := rfl

@[simp] theorem State.setLinks_now (s : State) (f : Links → Links) : (s.setLinks f).now = s.now := rfl
@[simp] theorem State.setLinks_fuses (s : State) (f : Links → Links) : (s.setLinks f).fuses = s.fuses := rfl
@[simp] theorem State.setLinks_settings (s : State) (f : Links → Links) : (s.setLinks f).settings = s.settings := rfl
@[simp] theorem State.setLinks_board (s : State) (f : Links → Links) : (s.setLinks f).board = s.board := rfl
@[simp] theorem State.setLinks_lantern (s : State) (f : Links → Links) : (s.setLinks f).lantern = s.lantern := rfl
@[simp] theorem State.setLinks_geo (s : State) (f : Links → Links) : (s.setLinks f).geo = s.geo := rfl
@[simp] theorem State.setLinks_own (s : State) (f : Links → Links) : (s.setLinks f).own = s.own := rfl
@[simp] theorem State.setLinks_intakes (s : State) (f : Links → Links) : (s.setLinks f).intakes = s.intakes := rfl
@[simp] theorem State.setLinks_ports (s : State) (f : Links → Links) : (s.setLinks f).ports = s.ports := rfl
@[simp] theorem State.setLinks_warden (s : State) (f : Links → Links) : (s.setLinks f).warden = s.warden := rfl
@[simp] theorem State.setLinks_rations (s : State) (f : Links → Links) : (s.setLinks f).rations = s.rations := rfl
@[simp] theorem State.setLinks_time (s : State) (f : Links → Links) : (s.setLinks f).time = s.time := rfl
@[simp] theorem State.setLinks_power (s : State) (f : Links → Links) : (s.setLinks f).power = s.power := rfl
@[simp] theorem State.setLinks_thermal (s : State) (f : Links → Links) : (s.setLinks f).thermal = s.thermal := rfl
@[simp] theorem State.setLinks_mem (s : State) (f : Links → Links) : (s.setLinks f).mem = s.mem := rfl
@[simp] theorem State.setLinks_far (s : State) (f : Links → Links) : (s.setLinks f).far = s.far := rfl
@[simp] theorem State.setLinks_cores (s : State) (f : Links → Links) : (s.setLinks f).cores = s.cores := rfl
@[simp] theorem State.setLinks_kv (s : State) (f : Links → Links) : (s.setLinks f).kv = s.kv := rfl
@[simp] theorem State.setLinks_seam (s : State) (f : Links → Links) : (s.setLinks f).seam = s.seam := rfl
@[simp] theorem State.setLinks_cv (s : State) (f : Links → Links) : (s.setLinks f).cv = s.cv := rfl
@[simp] theorem State.setLinks_events (s : State) (f : Links → Links) : (s.setLinks f).events = s.events := rfl
@[simp] theorem State.setLinks_trust (s : State) (f : Links → Links) : (s.setLinks f).trust = s.trust := rfl
@[simp] theorem State.setLinks_i3c (s : State) (f : Links → Links) : (s.setLinks f).i3c = s.i3c := rfl
@[simp] theorem State.setLinks_out (s : State) (f : Links → Links) : (s.setLinks f).out = s.out := rfl
@[simp] theorem State.setLinks_free (s : State) (f : Links → Links) : (s.setLinks f).free = s.free := rfl
@[simp] theorem State.setLinks_run (s : State) (f : Links → Links) : (s.setLinks f).run = s.run := rfl
@[simp] theorem State.setLinks_pending (s : State) (f : Links → Links) : (s.setLinks f).pending = s.pending := rfl

@[simp] theorem State.setTime_now (s : State) (f : RackTime → RackTime) : (s.setTime f).now = s.now := rfl
@[simp] theorem State.setTime_fuses (s : State) (f : RackTime → RackTime) : (s.setTime f).fuses = s.fuses := rfl
@[simp] theorem State.setTime_settings (s : State) (f : RackTime → RackTime) : (s.setTime f).settings = s.settings := rfl
@[simp] theorem State.setTime_board (s : State) (f : RackTime → RackTime) : (s.setTime f).board = s.board := rfl
@[simp] theorem State.setTime_lantern (s : State) (f : RackTime → RackTime) : (s.setTime f).lantern = s.lantern := rfl
@[simp] theorem State.setTime_geo (s : State) (f : RackTime → RackTime) : (s.setTime f).geo = s.geo := rfl
@[simp] theorem State.setTime_own (s : State) (f : RackTime → RackTime) : (s.setTime f).own = s.own := rfl
@[simp] theorem State.setTime_intakes (s : State) (f : RackTime → RackTime) : (s.setTime f).intakes = s.intakes := rfl
@[simp] theorem State.setTime_ports (s : State) (f : RackTime → RackTime) : (s.setTime f).ports = s.ports := rfl
@[simp] theorem State.setTime_warden (s : State) (f : RackTime → RackTime) : (s.setTime f).warden = s.warden := rfl
@[simp] theorem State.setTime_rations (s : State) (f : RackTime → RackTime) : (s.setTime f).rations = s.rations := rfl
@[simp] theorem State.setTime_power (s : State) (f : RackTime → RackTime) : (s.setTime f).power = s.power := rfl
@[simp] theorem State.setTime_thermal (s : State) (f : RackTime → RackTime) : (s.setTime f).thermal = s.thermal := rfl
@[simp] theorem State.setTime_mem (s : State) (f : RackTime → RackTime) : (s.setTime f).mem = s.mem := rfl
@[simp] theorem State.setTime_far (s : State) (f : RackTime → RackTime) : (s.setTime f).far = s.far := rfl
@[simp] theorem State.setTime_cores (s : State) (f : RackTime → RackTime) : (s.setTime f).cores = s.cores := rfl
@[simp] theorem State.setTime_kv (s : State) (f : RackTime → RackTime) : (s.setTime f).kv = s.kv := rfl
@[simp] theorem State.setTime_links (s : State) (f : RackTime → RackTime) : (s.setTime f).links = s.links := rfl
@[simp] theorem State.setTime_seam (s : State) (f : RackTime → RackTime) : (s.setTime f).seam = s.seam := rfl
@[simp] theorem State.setTime_cv (s : State) (f : RackTime → RackTime) : (s.setTime f).cv = s.cv := rfl
@[simp] theorem State.setTime_events (s : State) (f : RackTime → RackTime) : (s.setTime f).events = s.events := rfl
@[simp] theorem State.setTime_trust (s : State) (f : RackTime → RackTime) : (s.setTime f).trust = s.trust := rfl
@[simp] theorem State.setTime_i3c (s : State) (f : RackTime → RackTime) : (s.setTime f).i3c = s.i3c := rfl
@[simp] theorem State.setTime_out (s : State) (f : RackTime → RackTime) : (s.setTime f).out = s.out := rfl
@[simp] theorem State.setTime_free (s : State) (f : RackTime → RackTime) : (s.setTime f).free = s.free := rfl
@[simp] theorem State.setTime_run (s : State) (f : RackTime → RackTime) : (s.setTime f).run = s.run := rfl
@[simp] theorem State.setTime_pending (s : State) (f : RackTime → RackTime) : (s.setTime f).pending = s.pending := rfl

@[simp] theorem State.setPower_now (s : State) (f : Power → Power) : (s.setPower f).now = s.now := rfl
@[simp] theorem State.setPower_fuses (s : State) (f : Power → Power) : (s.setPower f).fuses = s.fuses := rfl
@[simp] theorem State.setPower_settings (s : State) (f : Power → Power) : (s.setPower f).settings = s.settings := rfl
@[simp] theorem State.setPower_board (s : State) (f : Power → Power) : (s.setPower f).board = s.board := rfl
@[simp] theorem State.setPower_lantern (s : State) (f : Power → Power) : (s.setPower f).lantern = s.lantern := rfl
@[simp] theorem State.setPower_geo (s : State) (f : Power → Power) : (s.setPower f).geo = s.geo := rfl
@[simp] theorem State.setPower_own (s : State) (f : Power → Power) : (s.setPower f).own = s.own := rfl
@[simp] theorem State.setPower_intakes (s : State) (f : Power → Power) : (s.setPower f).intakes = s.intakes := rfl
@[simp] theorem State.setPower_ports (s : State) (f : Power → Power) : (s.setPower f).ports = s.ports := rfl
@[simp] theorem State.setPower_warden (s : State) (f : Power → Power) : (s.setPower f).warden = s.warden := rfl
@[simp] theorem State.setPower_rations (s : State) (f : Power → Power) : (s.setPower f).rations = s.rations := rfl
@[simp] theorem State.setPower_time (s : State) (f : Power → Power) : (s.setPower f).time = s.time := rfl
@[simp] theorem State.setPower_thermal (s : State) (f : Power → Power) : (s.setPower f).thermal = s.thermal := rfl
@[simp] theorem State.setPower_mem (s : State) (f : Power → Power) : (s.setPower f).mem = s.mem := rfl
@[simp] theorem State.setPower_far (s : State) (f : Power → Power) : (s.setPower f).far = s.far := rfl
@[simp] theorem State.setPower_cores (s : State) (f : Power → Power) : (s.setPower f).cores = s.cores := rfl
@[simp] theorem State.setPower_kv (s : State) (f : Power → Power) : (s.setPower f).kv = s.kv := rfl
@[simp] theorem State.setPower_links (s : State) (f : Power → Power) : (s.setPower f).links = s.links := rfl
@[simp] theorem State.setPower_seam (s : State) (f : Power → Power) : (s.setPower f).seam = s.seam := rfl
@[simp] theorem State.setPower_cv (s : State) (f : Power → Power) : (s.setPower f).cv = s.cv := rfl
@[simp] theorem State.setPower_events (s : State) (f : Power → Power) : (s.setPower f).events = s.events := rfl
@[simp] theorem State.setPower_trust (s : State) (f : Power → Power) : (s.setPower f).trust = s.trust := rfl
@[simp] theorem State.setPower_i3c (s : State) (f : Power → Power) : (s.setPower f).i3c = s.i3c := rfl
@[simp] theorem State.setPower_out (s : State) (f : Power → Power) : (s.setPower f).out = s.out := rfl
@[simp] theorem State.setPower_free (s : State) (f : Power → Power) : (s.setPower f).free = s.free := rfl
@[simp] theorem State.setPower_run (s : State) (f : Power → Power) : (s.setPower f).run = s.run := rfl
@[simp] theorem State.setPower_pending (s : State) (f : Power → Power) : (s.setPower f).pending = s.pending := rfl

@[simp] theorem State.emit_now (s : State) (o : Out) : (s.emit o).now = s.now := rfl
@[simp] theorem State.emit_fuses (s : State) (o : Out) : (s.emit o).fuses = s.fuses := rfl
@[simp] theorem State.emit_settings (s : State) (o : Out) : (s.emit o).settings = s.settings := rfl
@[simp] theorem State.emit_board (s : State) (o : Out) : (s.emit o).board = s.board := rfl
@[simp] theorem State.emit_lantern (s : State) (o : Out) : (s.emit o).lantern = s.lantern := rfl
@[simp] theorem State.emit_geo (s : State) (o : Out) : (s.emit o).geo = s.geo := rfl
@[simp] theorem State.emit_own (s : State) (o : Out) : (s.emit o).own = s.own := rfl
@[simp] theorem State.emit_intakes (s : State) (o : Out) : (s.emit o).intakes = s.intakes := rfl
@[simp] theorem State.emit_ports (s : State) (o : Out) : (s.emit o).ports = s.ports := rfl
@[simp] theorem State.emit_warden (s : State) (o : Out) : (s.emit o).warden = s.warden := rfl
@[simp] theorem State.emit_rations (s : State) (o : Out) : (s.emit o).rations = s.rations := rfl
@[simp] theorem State.emit_time (s : State) (o : Out) : (s.emit o).time = s.time := rfl
@[simp] theorem State.emit_power (s : State) (o : Out) : (s.emit o).power = s.power := rfl
@[simp] theorem State.emit_thermal (s : State) (o : Out) : (s.emit o).thermal = s.thermal := rfl
@[simp] theorem State.emit_mem (s : State) (o : Out) : (s.emit o).mem = s.mem := rfl
@[simp] theorem State.emit_far (s : State) (o : Out) : (s.emit o).far = s.far := rfl
@[simp] theorem State.emit_cores (s : State) (o : Out) : (s.emit o).cores = s.cores := rfl
@[simp] theorem State.emit_kv (s : State) (o : Out) : (s.emit o).kv = s.kv := rfl
@[simp] theorem State.emit_links (s : State) (o : Out) : (s.emit o).links = s.links := rfl
@[simp] theorem State.emit_seam (s : State) (o : Out) : (s.emit o).seam = s.seam := rfl
@[simp] theorem State.emit_cv (s : State) (o : Out) : (s.emit o).cv = s.cv := rfl
@[simp] theorem State.emit_events (s : State) (o : Out) : (s.emit o).events = s.events := rfl
@[simp] theorem State.emit_trust (s : State) (o : Out) : (s.emit o).trust = s.trust := rfl
@[simp] theorem State.emit_i3c (s : State) (o : Out) : (s.emit o).i3c = s.i3c := rfl
@[simp] theorem State.emit_free (s : State) (o : Out) : (s.emit o).free = s.free := rfl
@[simp] theorem State.emit_run (s : State) (o : Out) : (s.emit o).run = s.run := rfl
@[simp] theorem State.emit_pending (s : State) (o : Out) : (s.emit o).pending = s.pending := rfl

end Sys2Proof.Machine
end

