-- ==== Sys2Proof/Tests/Slice0.lean ====
section
/-! SUPPORT. The model's own tests: each check of WellFormed refuses an ill-formed term, worked values of the spec, and a
witness for the hypotheses of every statement. -/

namespace Sys2Proof.Tests

open Sys2Proof Sys2Proof.Machine

/-- A small state to test on: a Twin module in READY whose hosts are linked, with the BMC present and controller 0 the
owner. -/
def live : State :=
  { lantern := { stage := 0xF }, trust := { loaded := true }, ports := [(0, { linkUp := true }), (1, { linkUp := true })],
    i3c := { address := some 9 }, own := { phase := .owned, valid := true }, geo := { built := true, fusesRead := true } }

/-- That state owned by another controller. -/
def ownedBy (c : Fin 4) (s : State) : State := { s with own := { s.own with id := c } }

/-- That state with a command in slot 0 of a controller, presented to the Warden, and parameter bytes by their offset. -/
def withSlot (code : Nat) (c : Fin 4) (params : List (Nat × Byte)) : State :=
  { live with
    intakes := [(c.val, { slots := params.foldl (fun m x => writeByte m x.1 x.2) (writeBytes [] 0 (leBytes 2 code)) })]
    warden := { sealed := [{ ctrl := c, slot := 0, seq := 0, at' := 0, asOwner := true, epoch := 0, presented := true,
                             presentedAt := 0, stale := false }] } }

/-- A record of a controller for ring 0. -/
def rec0 (c : Fin 4) : Rec :=
  { ctrl := c, ring := 0, tag := none, hostTag := 0, status := .done, opsDone := 0, detail := 0, time := 0, result := 0, adoptable := false, bound := (c, 0), hardware := false }

/-- A descriptor with an operation code and parameter bytes by their offset. -/
def desc (code : Nat) (params : List (Nat × Byte)) : List Byte :=
  readBytes (params.foldl (fun m x => writeByte m x.1 x.2) (writeBytes [] 0 (leBytes 2 code))) 0 256

/-- The command that holds tag 0, with these operations waiting. -/
def cmd0 (ds : List (List Byte)) : Cmd :=
  { tag := 0, ctrl := 0, seq := 0, code := 1, ring := 0, hostTag := 0, readOnly := false, prio := 0, asOwner := true, epoch := 0,
    adm := 0, sealedAt := 0,
    order := some { addr := 0, cont := false, serial := false, startNs := none, resultOp := 0, started := true,
                    ops := ds.map (fun d => { desc := d }) } }

/-- The live state with a work order of these descriptors, tag 0. -/
def withOps (ds : List (List Byte)) : State := { live with warden := { tags := [cmd0 ds], nextAdm := 1 } }

/-- The live state with this command in the tag table. -/
def withCmd (c : Cmd) : State := { live with warden := { tags := [c], nextAdm := 1 } }

/-- SUBMIT_ORDER of the order at address 0, whose block holds these bytes. -/
def withOrder (bytes : List (Nat × Byte)) : State :=
  { withSlot 1 0 [] with mem := { bytes := bytes, vaults := [(0, { valid := [0] })] } }

/-- An empty stream of pair 0 with a reserved slot. -/
def stream1 : Stream := { lead := 0, span := 1, length := 0, slot := [], slotHeld := true, table := [], blocks := [] }

/-- A sequence of one stream with a reserved slot. -/
def seq1 : Seq :=
  { layers := 1, kvHeads := 1, qPerKv := 1, dim := 64, pageTokens := 16, fmtK := 1, fmtV := 1, scaleK := 0x3F800000,
    scaleV := 0x3F800000, priority := 0, ropeMode := 0, ropeDims := 0, ropeFreq := [], closed := false, lastUse := 0,
    streams := [{ lead := 0, span := 1, length := 0, slot := [], slotHeld := true, table := [], blocks := [] }] }

/-- The live state with one operation waiting and sequence 1 open. -/
def withSeq (d : List Byte) : State :=
  { withOps [d] with kv := { seqs := [(1, seq1)] }, settings := { poolRows := [(0, 32)] } }

/-- A sequence of tag 0, operation 0. -/
def req0 : SeqReq :=
  { ord := 0, tag := 0, op := 0, prog := [], keep := false, paramBase := 0, maskBase := 0, vecBase := 0, vecFmt := 13, vecLen := 0,
    tau := 0x3F800000, offset := 0, scaleS := 0x3F800000, scaleA := 0x3F800000, conv := 0, seed := 0, outBase := 0x10000 }

/-- A loaded sequence of one instruction word and then END. -/
def seqSt (w : Nat) (params : SMap (BitVec 32)) : SeqSt :=
  { req := req0, pc := 0, prog := [BitVec.ofNat 64 w, 0], bcast := [], params := params, masks := [], loops := [], afterM := false,
    degraded := false }

/-- The live state with that sequence in a running sortie of pair 5. -/
def withBank (w : Nat) (params : SMap (BitVec 32)) : State :=
  { live with mem := { vaults := [(5, { seq := some (seqSt w params), sortie := some 0, processor := true })] } }

/-- The same with a loop open. -/
def withLoop (w : Nat) (l : LoopSt) : State :=
  { live with mem := { vaults := [(5, { seq := some { seqSt w [(0, 1)] with loops := [l] }, sortie := some 0, processor := true })] } }

/-- A Silman port that is keyed on four lanes. -/
def slUp : SlPort := { state := .keyed, lanes := 4, present := true }

/-- The live state with these links. -/
def withLinks (l : Links) : State := { live with links := l }

/-- The header of a flit whose check holds. -/
def hdr0 : FlitHdr :=
  { vc := 0, hops := 0, keyPhase := false, src := 1, dst := 0, seq := 0, ack := 0, credVc := 0, credits := 0, check := true }

/-- The live state with a coolant shutdown latched at time 0, this long ago. -/
def latched (now : Nat) (dropped : Bool) : State :=
  { live with now := now, thermal := { latch := some ⟨2, false, false, 0xFF, 0xFF, 0xFF, 0, 0, false, 0, false, 0⟩, dropped := dropped } }

/-- The live state at a stage with a reset under way. -/
def withJob (stage : BitVec 4) (j : ResetJob) : State := { live with lantern := { stage := stage, job := some j } }

/-- An interrupt controller whose cores run, with pending sources. -/
def icOf (l : List Nat) (awake : BitVec 8) : Ic := { pending := l, coreEn := 0xFF, coreAwake := awake, accepting := 0xFF }

/-- A LINK event. -/
def ev0 : Event :=
  { kind := 0x0301, source := 3, unit := 3, severity := 1, time := 0, payload := .args 0 0 0 0, pitch := 0, rtState := 0 }

/-- A transfer of 256 bytes to node 1. -/
def xfer0 : Xfer :=
  { num := 7, tag := 0, get := false, cls := 0, node := 1, local' := 0, remote := 0, len := 256, port := 0, doneBytes := 0,
    degraded := false, lastProgress := 0 }

/-- A rekeying exchange that has begun. -/
def kx0 : Kx :=
  { started := 0, random := [], peerHello := none, kemKey := none, kemCt := none, finSent := false, finGot := false, rekey := true }

/-- The live state with an exchange on keyed port 0. -/
def withKx (x : Kx) : State := withLinks { ports := [(0, { slUp with kx := some x })] }

/-- An ENUM message of domain 0 in epoch 1. -/
def enum0 : EnumMsg := { abort := false, domain := 0, epoch := 1, next := 9, hops := 0, node := 0 }

/-- A token that awaits its answer on port 0. -/
def token0 : TokenJob :=
  { domain := 0, epoch := 1, next := 4, upstream := none, from' := 1, awaiting := some 0, first := 4, sentAt := 0, fault := none }

/-- Links whose port 0 is keyed and whose ID 0 is this node. -/
def local0 : Links := { ports := [(0, slUp)], routes := [(0, 0x1E)] }

/-- A message of 16 bytes at address 0. -/
def msg0 : RemoteMsg := { cls := 1, xfer := 0, reason := 0, len := 16, offset := 0, addr := 0, data := [] }

/-- The live state with this host port 0. -/
def withPort (h : HostPort) : State := { live with ports := [(0, h)] }

/-- An established SPDM session. -/
def sess0 : Session := { id := 2, established := true, lastMsg := 0, secret := [], transcript := [], updates := 0 }

/-- The live state with this far tier of 8 MiB. -/
def withFar (f : FarTier) : State :=
  { live with far := f, geo := { live.geo with heFarTier := true, farTierMib := 8 } }

/-- The live state with this board. -/
def withBoard (b : Board) : State := { live with board := b }

/-- The live state with VAON up and this I3C target, at address 9. -/
def withI3c (x : I3c) : State := { live with board := { railsW := { vaon := true } }, i3c := { x with address := some 9 } }

/-- A state with this firmware slot B. -/
def withSlotB (f : FwSlot) (s : State) : State := { s with trust := { s.trust with slotB := f } }

/-- A state whose identity holds or not. -/
def identified (ok : Bool) (s : State) : State := { s with trust := { s.trust with identityOk := ok } }

/-- A state in a trial that began at time 0. -/
def inTrial (s : State) : State := { s with trust := { s.trust with fwState := .trial, trialStart := some 0, trialReady := false } }

/-- A sealed range of controller 0 at address 0. -/
def range0 : SealedRange := { base := 0, size := 4096, ctrl := 0, epoch := 0, needsTdi := false, draining := false }

/-- A state with that sealed range. -/
def withRange (s : State) : State := { s with trust := { s.trust with ranges := [range0] } }

/-- The live state with this vault of pair 5. -/
def withVault (v : Vault) : State := { live with mem := { vaults := [(5, v)] } }

/-- A near read of one line that waits as class 1. -/
def held0 : Held := { write := false, offset := 0, len := 128, data := [], cls := 1, arrived := 0, classSince := 0, near := true, core := 5 }

/-- An open merge entry of code word 3. -/
def merge0 : MergeEntry := { word := 3, bytes := [], writtenAt := 0, owners := [], mask := 0 }

/-- The live state with rack time running at this time of the ration period. -/
def timed (n : Nat) : State := { live with now := n, time := { running := true, now := BitVec.ofNat 64 n } }

/-- The live state with this check-value channel 15. -/
def withChan (c : CvChan) : State := { live with cv := [(15, c)] }

/-- The live state in a stage of a pitch. -/
def atStage (n : BitVec 4) : State := { live with lantern := { stage := n } }

/-- A well-formed header of an empty object at address 0, and WEIGHTS_UNSEAL of it. -/
theorem unseal_header : ∃ (s u : State) (c : Fin 4) (k : Fin 1024) (a : Adm) (h : List Byte) (io : Io), s.admission 0x0530 c k = some (u, a) ∧ field a.b 24 1 = 1 ∧
    field a.b 48 8 % 4096 = 0 ∧ spaceOneBad (field a.b 48 8) = false ∧ spaceOneBad (field a.b 32 8) = false ∧ u.trust.ranges.length < 64 ∧
    u.reachableRange (field a.b 32 8) (field a.b 40 8) = true ∧ u.rangeInPool (field a.b 32 8) (field a.b 40 8) = false ∧
    u.load { tag := a.tag } (field a.b 32 8) 2048 = (h, io) ∧ io.stop = none ∧ field h 0 2 = 1 ∧
    field a.b 40 8 = 2048 + field h 8 8 + 16 * ((field h 8 8 + 65535) / 65536) ∧ io.s.reachableRange (field a.b 48 8) (rangeBytes (field h 8 8)) = true ∧
    io.s.rangeInPool (field a.b 48 8) (rangeBytes (field h 8 8)) = false :=
  ⟨{ withSlot 0x0530 0 [(24, 1), (41, 8)] with mem := { bytes := [(0, 1)], vaults := [(0, { valid := [0] })] } }, _, 0, 0, _, _, _, rfl, by decide, by decide, by decide, by decide, by decide, by decide,
    by decide, rfl, by decide +kernel, by decide +kernel, by decide +kernel, by decide +kernel, by decide +kernel⟩

/-- The live state with this Seam module 15. -/
def withMod (m : SeamMod) : State := { live with seam := { mods := [(15, m)] } }

set_option maxRecDepth 20000 in
/-- A token is numbered and passed on at an unnumbered node without overflow. -/
theorem token_passes : ∃ (s t : State) (p : Fin 18) (h : FlitHdr) (m : EnumMsg) (u v : State), s.accepted p h (.enum true) = some t ∧
    t.links.elsewhere m.domain = false ∧ t.links.idIn m.epoch = none ∧
    u = t.setLinks (fun l => { l with hops := m.hops.toNat + 1 }) ∧ m.next.toNat < 4096 ∧
    v = (u.takeId (tokenJob p t.now m)).passToken { tokenJob p t.now m with next := m.next.toNat + 1 } ∧ v.links.overflow = false :=
  ⟨withLinks { ports := [(0, slUp)] }, _, 0, hdr0, enum0, _, _, rfl, rfl, rfl, rfl, by decide, rfl, rfl⟩

/-- A Seam frame of one sideband-free byte, number 0, with its check. -/
def frame0 : List Byte := [1] ++ List.replicate 223 0 ++ leBytes 4 (crc32c ([1] ++ List.replicate 223 0)) ++ List.replicate 4 0

theorem frame0_check : crc32c (frame0.take 0xE0) = field frame0 0xE0 4 := by decide +kernel

theorem none_sealed {v : State} (h : v.trust.ranges = []) (c : OpCtx) (a n : Nat) : c.sealed v a n = false := by
  simp [OpCtx.sealed, State.sealedAgainst, h]

theorem notSealed {v : State} {c : OpCtx} {a : AppendSrc} {n : Nat} {o : Option Machine.Seq} (h : v.trust.ranges = []) :
    ∀ r, o = some r → c.appendSealed v r a n = false := by
  intro r _
  simp [OpCtx.appendSealed, none_sealed h]

theorem notAttSealed {v : State} {c : OpCtx} {o : Option Machine.Seq} (h : v.trust.ranges = []) :
    ∀ r, o = some r → c.attSealed v r = false := by
  intro r _
  simp [OpCtx.attSealed, none_sealed h, notSealed h r rfl]

/-- With one sequence held, a second of one stream of `n` bytes gets its slot, whatever its handle. -/
theorem reserve_second (v : State) (k : Nat) (q : Seq) (x : Stream) (hs : v.kv.seqs = [(1, seq1)]) (hv : v.settings.vestibuleKib = 256)
    (hx : q.streams = [x]) (hp : q.pageBytes = 1024) :
    State.reserveSlots { v with kv := { v.kv with seqs := put v.kv.seqs k q } } k
      = some { v with kv := { v.kv with seqs := put v.kv.seqs k { q with streams := [{ x with slotHeld := true }] } } } := by
  have hq : ∀ l, Seq.pageBytes { q with streams := l } = 1024 := fun _ => hp
  have h1 : seq1.pageBytes = 1024 := by decide
  have hl : seq1.streams = [{ lead := 0, span := 1, length := 0, slot := [], slotHeld := true, table := [], blocks := [] }] := rfl
  rcases Nat.lt_trichotomy k 1 with h | h | h
  · have : k = 0 := by omega
    subst this
    simp [State.reserveSlots, State.seq, State.setSeq, State.setKv, State.slotsFit, State.slotBytesHeld, hs, hx, put, look?, hq, hv, h1, hl, List.filter_cons]
    split <;> simp
  · subst h
    simp [State.reserveSlots, State.seq, State.setSeq, State.setKv, State.slotsFit, State.slotBytesHeld, hs, hx, put, look?, hq, hv]
  · have h2 : ¬ (1 = k) := by omega
    simp [State.reserveSlots, State.seq, State.setSeq, State.setKv, State.slotsFit, State.slotBytesHeld, hs, hx, put, look?, hq, hv, h1, hl, h, h2, List.filter_cons]
    split <;> simp

/-- A sequence of one stream without pages needs no page-table block. -/
theorem need_second (v : State) (k : Nat) (q : Seq) (x : Stream) (hs : v.kv.seqs = [(1, seq1)]) (hv : v.settings.vestibuleKib = 256)
    (hx : q.streams = [x]) (ht : x.table = []) (hp : q.pageBytes = 1024) :
    (State.reserveSlots { v with kv := { v.kv with seqs := put v.kv.seqs k q } } k).bind (fun z => z.needBlocks k)
      = some { v with kv := { v.kv with seqs := put v.kv.seqs k { q with streams := [{ x with slotHeld := true }] } } } := by
  rw [reserve_second v k q x hs hv hx hp]
  simp [State.needBlocks, State.seq, look?_put_self, ht]

/-- What is put into a map is its key's or was there before. -/
theorem mem_put {α : Type} {m : SMap α} {k : Nat} {v : α} {e : Nat × α} (h : e ∈ put m k v) : e = (k, v) ∨ e ∈ m := by
  induction m with
  | nil => simpa [put] using h
  | cons a r ih =>
    simp only [put] at h
    split at h
    · rcases List.mem_cons.mp h with h | h
      · exact .inr (h ▸ List.mem_cons_self)
      · exact (ih h).imp_right (List.mem_cons_of_mem _)
    · split at h
      · exact (List.mem_cons.mp h).imp_right (List.mem_cons_of_mem _)
      · exact List.mem_cons.mp h

/-- With two sequences whose streams hold no page-table block, no table is written. -/
theorem tabled_second {s : State} {k : Nat} {q : Seq} (hs : s.kv.seqs = put [(1, seq1)] k q) (hq : ∀ x ∈ q.streams, x.blocks = [])
    (hr : s.run.stalled = false) : s.tabled.unstalled := by
  have h : s.tableWords = [] := by
    simp only [State.tableWords, List.flatMap_eq_nil_iff]
    intro e he x hx b hb
    rw [hs] at he
    have hx0 : x.blocks = [] := by
      rcases mem_put he with rfl | he
      · exact hq x hx
      · simp only [List.mem_singleton] at he
        subst he
        simp only [seq1, List.mem_singleton] at hx
        rw [hx]
    simp [hx0] at hb
  have e : s.tabled = s := by simp [State.tabled, State.touchTables, State.writeTables, h]
  rw [e]; exact hr

/-! ## Ill-formed commands: one for each check, refused -/

theorem test_slot_beyond_path : (Instr.submitOrder 2 32).wf = false := by decide
theorem test_slot_beyond_frames : (Instr.submitOrder 3 256).wf = false := by decide
theorem test_register_width : (Instr.registerWrite 0 0 2 0).wf = false := by decide
theorem test_register_alignment : (Instr.registerWrite 0 4 8 0).wf = false := by decide
theorem test_register_offset : (Instr.registerWrite 0 0x4000000 4 0).wf = false := by decide
theorem test_register_value : (Instr.registerWrite 0 0 4 0x100000000).wf = false := by decide
theorem test_tag : (Instr.orderStart 65536).wf = false := by decide
theorem test_operation_index : (Instr.opNop 0 65535).wf = false := by decide
theorem test_ring : (Instr.completionRecordWrite 0 64).wf = false := by decide
theorem test_near_offset : (Instr.nearRead 0 0x7FFFFFFF 2).wf = false := by decide
theorem test_near_write : (Instr.nearWrite 0 0x7FFFFFFF [0, 0]).wf = false := by decide
theorem test_far_address : (Instr.farRead 0 0xFFFFFFFFFFFFFFFF 2 1).wf = false := by decide
theorem test_far_write : (Instr.farWrite 0 0xFFFFFFFFFFFFFFFF [0, 0] 1).wf = false := by decide
theorem test_merge_word : (Instr.mergeEntryIdle 0 0x4000000).wf = false := by decide
theorem test_group : (Instr.channelGroupFailing 0 38 0).wf = false := by decide
theorem test_group_bundle : (Instr.channelGroupFailing 0 80 0).wf = false := by decide
theorem test_bar2_address : (Instr.bar2Read 0 0x40000000000 1 false).wf = false := by decide
theorem test_bar2_write : (Instr.bar2Write 0 0x40000000000 [0] false).wf = false := by decide
theorem test_restart_tags : (Instr.watchdogRestart 0 true [65536]).wf = false := by decide
theorem test_tray_reply : (Instr.trayPoll 0 (.bytes [0])).wf = false := by decide
theorem test_partner_lanes : (Instr.partnerDetect 0 5).wf = false := by decide
theorem test_hello_random : (Instr.kxHello 0 [] []).wf = false := by decide
theorem test_frame_slot : (Instr.mgmtSlot 0 hdr0 256 (List.replicate 256 0)).wf = false := by decide
theorem test_frame_length : (Instr.mgmtSlot 0 hdr0 0 []).wf = false := by decide
theorem test_record_length : (Instr.mgmtCompletion 0 hdr0 []).wf = false := by decide
theorem test_seam_width : (Instr.seamWidthAdvert 0 65 0).wf = false := by decide
theorem test_certificate_slot : (Instr.spdmGetCertificate 0 8 0 0).wf = false := by decide
theorem test_challenge_nonce : (Instr.spdmChallenge 0 []).wf = false := by decide
theorem test_measurement_nonce : (Instr.spdmGetMeasurements 0 1 []).wf = false := by decide
theorem test_finish_hmac : (Instr.spdmFinish 0 0 []).wf = false := by decide
theorem test_session_id : (Instr.spdmHeartbeat 0 65536).wf = false := by decide
theorem test_stream_key : (Instr.spdmVendorDefined 0 none (.ideKeySet 0 [])).wf = false := by decide
theorem test_far_tier_offset : (Instr.farTierRead 0xFFFFFFFFFFF 2).wf = false := by decide
theorem test_far_tier_block : (Instr.farTierInitComplete 0x10000000).wf = false := by decide
theorem test_faulty_row : (Instr.pitchStageComplete (.dram [{ pair := 0, bank := 0, row := 9216, mat := 0 }] true)).wf = false := by decide
theorem test_i3c_slot : (Instr.i3cSlotWrite 32 0 [0, 0, 0, 0]).wf = false := by decide
theorem test_i3c_nonce : (Instr.i3cAttestNonce []).wf = false := by decide
theorem test_i3c_read : (Instr.i3cPrivateRead 65536).wf = false := by decide
theorem test_event_window : (Instr.eventWindowClose 0 0x100000000).wf = false := by decide
theorem test_well_formed : (Instr.submitOrder 0 1023).wf = true := by decide

/-! ## Worked values of the spec -/

/-- The ASCII digits 1 to 9. -/
def digits : List Byte := [0x31, 0x32, 0x33, 0x34, 0x35, 0x36, 0x37, 0x38, 0x39]

/-- 16_faults_blast_radius.md Table 16-1. -/
theorem test_crc32c : crc32c digits = 0xE3069283 := by decide +kernel
/-- 16_faults_blast_radius.md Table 16-1. -/
theorem test_crc64 : crc64Run 0 digits = 0x6C40DF5F0B497347 := by decide +kernel
/-- 13_host_far_ports.md, the worked example before Table 13-6. -/
theorem test_far_capacity : farCapacity 4194304 = 3728256 := by decide
/-- 07_vaults_and_protection.md, the worked example before Table 07-6. -/
theorem test_window :
    State.reach { live with mem := { windows := [(3, { enable := true, tower := 6, first := 0, count := 48, base := 0x1000000, size := 0x10000000 })] } }
      0x026123456788 = .vault 390 0x07117788 := by decide +kernel
/-- The same example: row 904, bank 93, column 28. -/
theorem test_row : rowOf 0x07117788 = 904 ∧ bankOf 0x07117788 = 93 ∧ colOf 0x07117788 = 28 := by decide

/-- The five values of 02_number_formats.md Table 02-6 in FP32. -/
def block0 : List Machine.Num := [0x3ED1EB85, 0x3DCCCCCD, 0xBE4CCCCD, 0x3CF5C28F, 0x3C800000].map fp32

/-- 02_number_formats.md Table 02-6, the floor rule. -/
theorem test_mx_floor : (Fmt.mxBlock .mxfp4 { ceil := false, ovf := false, sr := false } (fun _ => 0) block0).elems = [7, 3, 0xD, 1, 0] := by
  decide +kernel
/-- The scale byte there. -/
theorem test_mx_scale : (Fmt.mxBlock .mxfp4 { ceil := false, ovf := false, sr := false } (fun _ => 0) block0).scale = 0x7B := by decide +kernel
/-- 02_number_formats.md Table 02-6, the ceiling rule. -/
theorem test_mx_ceiling : (Fmt.mxBlock .mxfp4 { ceil := true, ovf := false, sr := false } (fun _ => 0) block0).elems = [5, 2, 0xB, 0, 0] := by
  decide +kernel

/-! ## Witnesses of the statements' hypotheses -/

theorem witness_StepRunsFront :
    ∃ (s : State) (c : Instr) (rest : List Instr), s.pending = c :: rest :=
  ⟨{ State.reset with pending := [.trefLoss] }, _, _, rfl⟩

theorem witness_IdleStep :
    (∃ s : State, s.pending = [] ∧ s.time.running = true ∧ s.time.slew = 0) ∧ (∃ s : State, s.pending = [] ∧ s.time.running = false)
    ∧ (∃ s : State, s.pending = [] ∧ (∀ e ∈ s.mem.vaults, e.2.held = [] ∧ e.2.back = []) ∧ s.links.parked = []) :=
  ⟨⟨{ State.reset with time := { running := true } }, rfl, rfl, rfl⟩, ⟨State.reset, rfl, rfl⟩,
   ⟨State.reset, rfl, (fun _ h => nomatch h), rfl⟩⟩

theorem witness_CommandsKeepTimeAndQueue :
    ∃ (i : Instr) (s t : State), exec i s = .next t :=
  ⟨.quietEnd, State.reset, _, rfl⟩

theorem witness_OwnershipKept :
    ∃ s t : State, s.ownOk ∧ step s = .next t :=
  ⟨State.reset, _, ⟨(fun h => nomatch h), (fun h => by rcases h with h | h <;> nomatch h)⟩, rfl⟩

theorem witness_FusesKept :
    ∃ s t : State, step s = .next t :=
  ⟨State.reset, _, rfl⟩

theorem witness_CommandEndsWithRecord :
    ∃ (s u : State) (code : Nat) (c : Fin 4) (k : Fin 1024) (a : Adm), s.admission code c k = some (u, a) :=
  ⟨withSlot 0x0041 0 [(24, 12)], _, 0x0041, 0, 0, _, rfl⟩

theorem witness_OwnershipWrites :
    (∃ (s : State) (p : Fin 2), s.hostWrites p = true ∧ s.own.phase = .opened ∧ s.own.claims = [])
    ∧ (∃ (s : State) (p : Fin 2), s.hostWrites p = true ∧ (s.own.phase = .owned ∨ s.own.phase = .offer ∨ s.own.phase = .quiet))
    ∧ (∃ (s : State) (p : Fin 2), s.hostWrites p = true ∧ s.owns p = true)
    ∧ (∃ (s : State) (p : Fin 2), s.hostWrites p = true ∧ s.owns p = true ∧ s.own.phase ≠ .offer ∧ s.present s.own.successor = true ∧ s.own.successor ≠ ctrlOf p)
    ∧ (∃ (s : State) (p : Fin 2), s.hostWrites p = true ∧ s.offered p = true) :=
  ⟨⟨{ live with own := {} }, 0, by decide⟩, ⟨live, 0, by decide⟩, ⟨live, 0, by decide⟩,
   ⟨{ live with own := { live.own with successor := 1 } }, 0, by decide⟩,
   ⟨{ live with own := { live.own with phase := .offer, offerTo := 1, offerEnd := 5 } }, 1, by decide⟩⟩

theorem witness_OwnershipTimers :
    (∃ (s : State) (w : Claim), s.own.phase = .window ∧ s.own.windowEnd ≤ s.now ∧ electBest (s.own.claims.filter (fun c => s.present c.ctrl)) = some w)
    ∧ (∃ s : State, s.own.valid = true ∧ s.own.leaseEnd ≤ s.now) ∧ (∃ s : State, s.own.phase = .quiet ∧ s.own.quietEnd ≤ s.now)
    ∧ (∃ s : State, s.own.phase = .offer ∧ s.own.offerEnd ≤ s.now) :=
  ⟨⟨{ live with own := { phase := .window, claims := [⟨0, 1, 2, []⟩] } }, ⟨0, 1, 2, []⟩, by decide⟩, ⟨live, by decide⟩,
   ⟨{ live with own := { phase := .quiet } }, by decide⟩, ⟨{ live with own := { phase := .offer } }, by decide⟩⟩

theorem witness_ElectionPicksBest :
    ∃ (l : List Claim) (w : Claim), electBest l = some w :=
  ⟨[⟨0, 3, 2, []⟩, ⟨1, 1, 2, []⟩], ⟨1, 1, 2, []⟩, by decide⟩

theorem witness_OwnershipCommands :
    (∃ (s u : State) (c : Fin 4) (k : Fin 1024) (a : Adm), 2 ≤ c.val ∧ s.admission 0x0F10 c k = some (u, a) ∧ s.own.phase = .opened ∧ s.own.claims = [])
    ∧ (∃ (s u : State) (c : Fin 4) (k : Fin 1024) (a : Adm), 2 ≤ c.val ∧ s.admission 0x0F11 c k = some (u, a) ∧ s.owns c = true)
    ∧ (∃ (s u : State) (c : Fin 4) (k : Fin 1024) (a : Adm), 2 ≤ c.val ∧ s.admission 0x0F12 c k = some (u, a) ∧ s.owns c = true ∧ s.own.phase = .owned
        ∧ field a.b 24 1 ≤ 3 ∧ s.present (field a.b 24 1) = true ∧ field a.b 24 1 ≠ c.val)
    ∧ (∃ (s u : State) (c : Fin 4) (k : Fin 1024) (a : Adm), 2 ≤ c.val ∧ s.admission 0x0F13 c k = some (u, a) ∧ s.offered c = true)
    ∧ (∃ (s u : State) (c : Fin 4) (k : Fin 1024) (a : Adm), 2 ≤ c.val ∧ s.admission 0x0F14 c k = some (u, a) ∧ s.owns c = true)
    ∧ (∃ (s u : State) (c : Fin 4) (k : Fin 1024) (a : Adm), 2 ≤ c.val ∧ s.admission 0x0F15 c k = some (u, a)) :=
  ⟨⟨{ withSlot 0x0F10 2 [] with own := {} }, _, 2, 0, _, by decide, rfl, rfl, rfl⟩,
  ⟨ownedBy 2 (withSlot 0x0F11 2 []), _, 2, 0, _, by decide, rfl, by decide⟩,
  ⟨ownedBy 2 (withSlot 0x0F12 2 [(24, 1)]), _, 2, 0, _, by decide, rfl, by decide, by decide, by decide, by decide, by decide⟩,
  ⟨let s := withSlot 0x0F13 2 []; { s with own := { s.own with phase := .offer, offerTo := 2, offerEnd := 5 } }, _, 2, 0, _, by decide, rfl, by decide⟩,
  ⟨ownedBy 2 (withSlot 0x0F14 2 []), _, 2, 0, _, by decide, rfl, by decide⟩,
  ⟨withSlot 0x0F15 2 [], _, 2, 0, _, by decide, rfl⟩⟩

theorem witness_SealWrites :
    (∃ (s : State) (p : Fin 2) (k : Fin 1024) (w : BitVec 32), s.hostWrites p = true ∧ s.isSealed p k = false ∧
        s.computeReset = false ∧ w.toNat / 2 ^ 31 = 1 ∧ isStrike (w.toNat % 65536) = false ∧
        BitVec.ofNat 15 (w.toNat / 65536) = (s.intake p).nextSeq ∧ s.warden.sealed = [] ∧ (s.intake p).received = [])
    ∧ (∃ (s : State) (p : Fin 2) (k : Fin 1024) (w : BitVec 32), s.hostWrites p = true ∧ s.isSealed p k = false ∧
        s.computeReset = false ∧ w.toNat / 2 ^ 31 = 1 ∧ isStrike (w.toNat % 65536) = false ∧
        BitVec.ofNat 15 (w.toNat / 65536) ≠ (s.intake p).nextSeq ∧
        (BitVec.ofNat 15 (w.toNat / 65536) - (s.intake p).nextSeq).toNat < 1024 ∧ s.warden.sealed = [])
    ∧ (∃ (s : State) (p : Fin 2) (k : Fin 1024), s.hostWrites p = true ∧ s.isSealed p k = true) :=
  ⟨⟨live, 0, 5, 0x80000041, by decide⟩, ⟨live, 1, 1023, 0x83FF0041, by decide⟩,
   ⟨{ live with intakes := [(0, { slots := [(3, 0x80)] })] }, 0, 0, by decide⟩⟩

theorem witness_GapRelease :
    ∃ (s : State) (e : SealedSlot), s.warden.sealed = [e] ∧ e.presented = false ∧ e.slot < 1024 ∧ e.at' + 1000000 ≤ s.now ∧
      (s.intake e.ctrl).received = [] ∧ e.seq ≠ (s.intake e.ctrl).nextSeq ∧ (e.seq - (s.intake e.ctrl).nextSeq).toNat < 1024 ∧
      (s.intake e.ctrl).skips ≤ 2 ^ 32 - 1 :=
  ⟨{ live with now := 2000000, warden := { sealed := [⟨0, 7, 3, 0, true, 0, false, 0, false, none⟩] } }, ⟨0, 7, 3, 0, true, 0, false, 0, false, none⟩, by decide⟩

theorem witness_IntakeStates :
    (∃ (s : State) (e : SealedSlot), e ∈ s.warden.sealed ∧ e.presented = true ∧ s.slotForwarded e = true ∧ e.presentedAt + 100000 < s.now)
    ∧ (∃ s : State, ∀ e ∈ s.warden.sealed, e.presented = true → s.now ≤ e.presentedAt + 20000)
    ∧ (∃ (s u : State) (c : Fin 4) (k : Fin 1024) (a : Adm), cmdInfo (mbCmd (s.slotBytes c k)) = none ∧ s.admission (mbCmd (s.slotBytes c k)) c k = some (u, a)) :=
  ⟨⟨{ withSlot 0x41 0 [] with now := 100001 }, ⟨0, 0, 0, 0, true, 0, true, 0, false, none⟩, by decide⟩, ⟨withSlot 0x41 0 [], by decide⟩,
   ⟨withSlot 0xFFFF 0 [], _, 0, 0, _, by decide, rfl⟩⟩

theorem witness_RingRecords :
    (∃ (s : State) (p : Fin 2) (ring : Nat) (r : Rec), ring ≤ 63 ∧ s.nextRec (ctrlOf p) ring = some r ∧
        (look (s.port p).rings ring {}).everEnabled = true ∧ (s.port p).ringOn ring = true ∧ (s.port p).ringFull ring = false ∧ s.hostOpen p = true)
    ∧ (∃ (s : State) (ring : Nat) (r : Rec), s.nextRec 2 ring = some r ∧ s.warden.bmcFifo.length < 16)
    ∧ (∃ s : State, 16 ≤ s.warden.bmcFifo.length)
    ∧ (∃ (s : State) (ring : Nat) (r : Rec), s.nextRec 3 ring = some r ∧ s.present 3 = true)
    ∧ (∃ (s : State) (p : Fin 2) (ring : Fin 64), (look (s.port p).rings ring {}).modTime ≠ 0 ∧ 0 < (look (s.port p).rings ring {}).unsignalled ∧
        (look (s.port p).rings ring {}).firstUnsignalled + 1000 * (look (s.port p).rings ring {}).modTime.toNat ≤ s.now) :=
  ⟨⟨{ live with warden := { records := [rec0 0] },
                 ports := [(0, { linkUp := true, committed := [(0, { sizeLog2 := 6, enable := true })], rings := [(0, { everEnabled := true })] })] },
    0, 0, rec0 0, by decide⟩, ⟨{ live with warden := { records := [rec0 2] } }, 0, rec0 2, by decide⟩,
   ⟨{ live with warden := { bmcFifo := List.replicate 16 (rec0 2) } }, by decide⟩,
   ⟨{ live with warden := { records := [rec0 3] }, settings := { lkPeerNode := 5 }, links := { nodeId := some 0, routes := [(5, 1)], ports := [(1, { state := .keyed })] } }, 0, rec0 3, by decide⟩,
   ⟨{ live with now := 2000, ports := [(0, { linkUp := true, rings := [(0, { modTime := 1, unsignalled := 1 })] })] }, 0, 0, by decide⟩⟩

theorem witness_StagedApply :
    (∃ (s : State) (p : Fin 2), s.hostWrites p = true ∧ s.owns p = true ∧ s.rations.pendingSet = none ∧ s.rations.shadow.fault = none)
    ∧ (∃ (s : State) (p : Fin 2) (o : Nat), s.hostWrites p = true ∧ s.owns p = true ∧ s.rations.pendingSet = none ∧ s.rations.shadow.fault = some o)
    ∧ (∃ (s : State) (p : Fin 2), s.hostWrites p = true ∧ s.owns p = true ∧ s.rations.pendingSet.isSome = true)
    ∧ (∃ (s : State) (p : Fin 2), s.hostWrites p = true ∧ (s.port p).pendingSet = none ∧ ringsFault (s.port p).shadow = none)
    ∧ (∃ (s : State) (p : Fin 2) (o : Nat), s.hostWrites p = true ∧ (s.port p).pendingSet = none ∧ ringsFault (s.port p).shadow = some o)
    ∧ (∃ (s : State) (p : Fin 2) (ring : Fin 64) (h : BitVec 32), s.hostWrites p = true ∧
        ((look (s.port p).rings ring {}).tail - h).toNat ≤ 2 ^ (look (s.port p).committed ring {}).sizeLog2.toNat) :=
  ⟨⟨live, 0, by decide⟩, ⟨{ live with rations := { shadow := { links := [(3, { data := 4096 })] } } }, 0, 0x418, by decide⟩,
   ⟨{ live with rations := { pendingSet := some ({}, 0) } }, 0, by decide⟩, ⟨live, 1, by decide⟩,
   ⟨{ live with ports := [(0, { linkUp := true, shadow := [(2, { enable := true, base := 64 })] })] }, 0, 128, by decide⟩,
   ⟨live, 0, 63, 0xFFFFFFFF, by decide⟩⟩

theorem witness_RackTimeReads :
    (∃ (s : State) (p : Fin 2), s.hostReads p = true) ∧ (∃ (s : State) (p : Fin 2) (v : BitVec 32), s.hostReads p = true ∧ (s.port p).rtLatch = some v)
    ∧ (∃ (s : State) (p : Fin 2), s.hostReads p = true ∧ (s.port p).rtLatch = none) :=
  ⟨⟨live, 0, by decide⟩, ⟨{ live with ports := [(0, { linkUp := true, rtLatch := some 5 })] }, 0, 5, by decide⟩, ⟨live, 1, by decide⟩⟩

theorem witness_GeometryCommands :
    (∃ (s u : State) (c : Fin 4) (k : Fin 1024) (a : Adm), c.val < 2 ∧ s.admission 0x0010 c k = some (u, a) ∧ field a.b 24 8 % 64 = 0 ∧ field a.b 32 2 ≤ 8320 ∧ 0 < field a.b 32 2 ∧ (u.port c).linkUp = true)
    ∧ (∃ (s u : State) (c : Fin 4) (k : Fin 1024) (a : Adm), c.val < 2 ∧ s.admission 0x0010 c k = some (u, a) ∧ field a.b 24 8 % 64 = 0 ∧ field a.b 32 2 ≤ 8320 ∧ 0 < field a.b 32 2 ∧ (u.port c).linkUp = false)
    ∧ (∃ (s u : State) (c : Fin 4) (k : Fin 1024) (a : Adm), c.val < 2 ∧ s.admission 0x0010 c k = some (u, a) ∧ field a.b 24 8 % 64 = 0 ∧ field a.b 32 2 ≤ 8320 ∧ field a.b 32 2 = 0)
    ∧ (∃ (s u : State) (c : Fin 4) (k : Fin 1024) (a : Adm), c.val < 2 ∧ s.admission 0x0410 c k = some (u, a) ∧ field a.b 24 1 ≤ 1 ∧ field a.b 32 4 ≤ 65536 ∧ field a.b 40 8 % 64 = 0 ∧ field a.b 24 1 = 0 ∧ 0 < field a.b 32 4 ∧ (u.port c).linkUp = true)
    ∧ (∃ (s u : State) (c : Fin 4) (k : Fin 1024) (a : Adm), c.val < 2 ∧ s.admission 0x0410 c k = some (u, a) ∧ field a.b 24 1 ≤ 1 ∧ field a.b 32 4 ≤ 65536 ∧ field a.b 40 8 % 64 = 0 ∧ field a.b 24 1 = 1 ∧ 0 < field a.b 32 4 ∧ (u.port c).linkUp = true)
    ∧ (∃ (s u : State) (c : Fin 4) (k : Fin 1024) (a : Adm), c.val < 2 ∧ s.admission 0x0410 c k = some (u, a) ∧ field a.b 24 1 ≤ 1 ∧ field a.b 32 4 ≤ 65536 ∧ field a.b 40 8 % 64 = 0 ∧ 0 < field a.b 32 4 ∧ (u.port c).linkUp = false)
    ∧ (∃ (s u : State) (c : Fin 4) (k : Fin 1024) (a : Adm), c.val < 2 ∧ s.admission 0x0410 c k = some (u, a) ∧ field a.b 24 1 ≤ 1 ∧ field a.b 32 4 ≤ 65536 ∧ field a.b 40 8 % 64 = 0 ∧ field a.b 32 4 = 0)
    ∧ (∃ (s u : State) (c : Fin 4) (k : Fin 1024) (a : Adm), c.val < 2 ∧ s.admission 0x0044 c k = some (u, a) ∧ field a.b 26 2 ≤ 16384 ∧ 0 < field a.b 26 2 ∧ (u.port c).linkUp = true)
    ∧ (∃ (s u : State) (c : Fin 4) (k : Fin 1024) (a : Adm), c.val < 2 ∧ s.admission 0x0044 c k = some (u, a) ∧ field a.b 26 2 ≤ 16384 ∧ 0 < field a.b 26 2 ∧ (u.port c).linkUp = false)
    ∧ (∃ (s u : State) (c : Fin 4) (k : Fin 1024) (a : Adm), c.val < 2 ∧ s.admission 0x0044 c k = some (u, a) ∧ field a.b 26 2 ≤ 16384 ∧ field a.b 26 2 = 0) :=
  ⟨⟨withSlot 0x10 0 [(32, 0x80), (33, 0x20)], _, 0, 0, _, by decide, rfl, by decide⟩,
  ⟨{ withSlot 0x10 0 [(32, 0x80)] with ports := [] }, _, 0, 0, _, by decide, rfl, by decide⟩,
  ⟨withSlot 0x10 0 [], _, 0, 0, _, by decide, rfl, by decide⟩,
  ⟨withSlot 0x410 0 [(34, 1)], _, 0, 0, _, by decide, rfl, by decide⟩,
  ⟨withSlot 0x410 0 [(24, 1), (32, 1)], _, 0, 0, _, by decide, rfl, by decide⟩,
  ⟨{ withSlot 0x410 0 [(32, 1)] with ports := [] }, _, 0, 0, _, by decide, rfl, by decide⟩,
  ⟨withSlot 0x410 0 [], _, 0, 0, _, by decide, rfl, by decide⟩,
  ⟨withSlot 0x44 0 [(27, 0x40)], _, 0, 0, _, by decide, rfl, by decide⟩,
  ⟨{ withSlot 0x44 0 [(26, 1)] with ports := [] }, _, 0, 0, _, by decide, rfl, by decide⟩,
  ⟨withSlot 0x44 0 [], _, 0, 0, _, by decide, rfl, by decide⟩⟩

theorem witness_SettingCommands :
    (∃ (s u : State) (c : Fin 4) (k : Fin 1024) (a : Adm), s.admission 0x0020 c k = some (u, a) ∧ field a.b 24 2 % 64 = 0 ∧ 64 ≤ field a.b 24 2 ∧
        field a.b 24 2 ≤ 512 ∧ u.vestibulesHold = false)
    ∧ (∃ (s u : State) (c : Fin 4) (k : Fin 1024) (a : Adm), s.admission 0x0021 c k = some (u, a) ∧ field a.b 24 1 ≤ 1 ∧ u.geo.mode ≠ 1)
    ∧ (∃ (s u : State) (c : Fin 4) (k : Fin 1024) (a : Adm), s.admission 0x0021 c k = some (u, a) ∧ field a.b 24 1 = 0 ∧ u.geo.mode = 1 ∧
        u.lantern.modeReqPeer ≠ some false)
    ∧ (∃ (s u : State) (c : Fin 4) (k : Fin 1024) (a : Adm), s.admission 0x0021 c k = some (u, a) ∧ field a.b 24 1 = 0 ∧ u.geo.mode = 1 ∧
        u.lantern.modeReqPeer = some false)
    ∧ (∃ (s u : State) (c : Fin 4) (k : Fin 1024) (a : Adm), s.admission 0x0400 c k = some (u, a) ∧ field a.b 24 1 ≤ 1 ∧ field a.b 25 1 ≤ 1 ∧
        u.geo.mode ≠ 1)
    ∧ (∃ (s u : State) (c : Fin 4) (k : Fin 1024) (a : Adm), s.admission 0x0400 c k = some (u, a) ∧ field a.b 24 1 ≤ 1 ∧ field a.b 25 1 ≤ 1 ∧
        u.geo.mode = 1)
    ∧ (∃ (s u : State) (c : Fin 4) (k : Fin 1024) (a : Adm), s.admission 0x0041 c k = some (u, a) ∧ 1 ≤ field a.b 24 1 ∧ field a.b 24 1 ≤ 168) :=
  ⟨⟨withSlot 0x20 0 [(25, 2)], _, 0, 0, _, rfl, by decide, by decide, by decide, by decide⟩,
  ⟨withSlot 0x21 0 [(24, 1)], _, 0, 0, _, rfl, by decide, by decide⟩,
  ⟨{ withSlot 0x21 0 [] with geo := { mode := 1 } }, _, 0, 0, _, rfl, by decide, by decide, by decide⟩,
  ⟨{ withSlot 0x21 0 [] with geo := { mode := 1 }, lantern := { stage := 0xF, modeReqPeer := some false } }, _, 0, 0, _, rfl, by decide, by decide, by decide⟩,
  ⟨withSlot 0x400 0 [(24, 1)], _, 0, 0, _, rfl, by decide, by decide, by decide⟩,
  ⟨{ withSlot 0x400 0 [(25, 1)] with geo := { mode := 1 } }, _, 0, 0, _, rfl, by decide, by decide, by decide⟩,
  ⟨withSlot 0x41 0 [(24, 168)], _, 0, 0, _, rfl, by decide, by decide⟩⟩

theorem witness_MemoryCommands :
    (∃ (s u : State) (c : Fin 4) (k : Fin 1024) (a : Adm), s.admission 0x0040 c k = some (u, a) ∧ field a.b 24 1 ≤ 15 ∧ field a.b 25 1 = 0)
    ∧ (∃ (s u : State) (c : Fin 4) (k : Fin 1024) (a : Adm), s.admission 0x0040 c k = some (u, a) ∧ field a.b 24 1 ≤ 15 ∧ field a.b 25 1 = 1 ∧
        field a.b 26 1 ≤ 15 ∧ 0 < field a.b 28 1 ∧ field a.b 27 1 + field a.b 28 1 ≤ 64 ∧ field a.b 32 4 % 4096 = 0 ∧ field a.b 36 4 % 4096 = 0 ∧
        0 < field a.b 36 4 ∧ field a.b 32 4 + field a.b 36 4 ≤ vaultBytes ∧ u.hasTower (field a.b 26 1) = true ∧
        (∀ p ∈ windowPairs (field a.b 26 1) (field a.b 27 1) (field a.b 28 1), u.pairPresent p = true ∧ look u.settings.poolRows p 0 = 0))
    ∧ (∃ (s u : State) (c : Fin 4) (k : Fin 1024) (a : Adm), s.admission 0x0040 c k = some (u, a) ∧ field a.b 24 1 ≤ 15 ∧ field a.b 25 1 = 1 ∧
        field a.b 26 1 ≤ 15 ∧ field a.b 27 1 ≤ 63 ∧ field a.b 27 1 + field a.b 28 1 ≤ 64 ∧ field a.b 32 4 % 4096 = 0 ∧ field a.b 36 4 % 4096 = 0 ∧
        field a.b 32 4 + field a.b 36 4 ≤ vaultBytes ∧ u.hasTower (field a.b 26 1) = true ∧ (field a.b 28 1 = 0 ∨ field a.b 36 4 = 0) ∧
        (∀ p ∈ windowPairs (field a.b 26 1) (field a.b 27 1) (field a.b 28 1), u.pairPresent p = true))
    ∧ (∃ (s u : State) (c : Fin 4) (k : Fin 1024) (a : Adm), s.admission 0x0042 c k = some (u, a) ∧ field a.b 24 1 = 1 ∧
        u.pairPresent (field a.b 40 2) = true ∧ field a.b 42 1 ≤ 127)
    ∧ (∃ (s u : State) (c : Fin 4) (k : Fin 1024) (a : Adm) (p b : Nat), s.admission 0x0042 c k = some (u, a) ∧ field a.b 24 1 = 0 ∧
        field a.b 32 8 % 4096 = 0 ∧ u.blockNamed (field a.b 32 8) = some (p, b) ∧ u.retiredBlocks + u.retiringBlocks < 65536 ∧ field a.b 32 8 < farBase)
    ∧ (∃ (s u : State) (c : Fin 4) (k : Fin 1024) (a : Adm) (p b : Nat), s.admission 0x0043 c k = some (u, a) ∧ field a.b 24 1 = 0 ∧
        field a.b 32 8 % 4096 = 0 ∧ u.blockNamed (field a.b 32 8) = some (p, b) ∧ field a.b 32 8 < farBase)
    ∧ (∃ (s u : State) (c : Fin 4) (k : Fin 1024) (a : Adm), s.admission 0x0043 c k = some (u, a) ∧ field a.b 24 1 = 1 ∧
        u.pairPresent (field a.b 40 2) = true ∧ field a.b 42 1 ≤ 127)
    ∧ (∃ (s u : State) (c : Fin 4) (k : Fin 1024) (a : Adm), s.admission 0x0050 c k = some (u, a) ∧ c.val < 2 ∧ field a.b 24 1 ≤ 3 ∧
        field a.b 25 1 ≤ 63 ∧ field a.b 26 1 ≤ 63 ∧ (u.port c).ringOn (field a.b 26 1) = true) :=
  ⟨⟨withSlot 0x40 0 [(24, 15)], _, 0, 0, _, rfl, by decide, by decide⟩,
  ⟨withSlot 0x40 0 [(24, 15), (25, 1), (26, 15), (27, 62), (28, 2), (37, 0x10)], _, 0, 0, _, rfl, by decide, by decide, by decide, by decide, by decide,
    by decide, by decide, by decide, by decide, by decide, by decide⟩,
  ⟨withSlot 0x40 0 [(24, 15), (25, 1), (26, 15), (27, 63), (28, 1)], _, 0, 0, _, rfl, by decide⟩,
  ⟨withSlot 0x42 0 [(24, 1), (40, 0xFF), (41, 3), (42, 127)], _, 0, 0, _, rfl, by decide, by decide, by decide⟩,
  ⟨withSlot 0x42 0 [(33, 0x10)], _, 0, 0, _, 0, 1, rfl, by decide, by decide, by decide, by decide, by decide⟩,
  ⟨withSlot 0x43 0 [(33, 0x10)], _, 0, 0, _, 0, 1, rfl, by decide, by decide, by decide, by decide⟩,
  ⟨withSlot 0x43 0 [(24, 1), (40, 0xFF), (41, 3), (42, 127)], _, 0, 0, _, rfl, by decide, by decide, by decide⟩,
  ⟨{ withSlot 0x50 0 [(24, 3), (25, 63), (26, 0)] with ports := [(0, { linkUp := true, committed := [(0, { enable := true })] })] }, _, 0, 0, _, rfl,
    by decide, by decide, by decide, by decide, by decide⟩⟩

theorem witness_CacheCommands :
    (∃ (s u : State) (c : Fin 4) (k : Fin 1024) (a : Adm), s.admission 0x0030 c k = some (u, a) ∧ u.pairPresent (field a.b 24 2) = true ∧
        32 ≤ field a.b 26 2 ∧ field a.b 26 2 ≤ 9216 ∧ field a.b 26 2 % 16 = 0 ∧ u.poolHolds (field a.b 24 2) = false ∧
        u.poolMeetsWindow (field a.b 24 2) (field a.b 26 2) = false)
    ∧ (∃ (s u : State) (c : Fin 4) (k : Fin 1024) (a : Adm), s.admission 0x0030 c k = some (u, a) ∧ u.pairPresent (field a.b 24 2) = true ∧
        field a.b 26 2 = 0 ∧ u.poolHolds (field a.b 24 2) = false)
    ∧ (∃ (s u : State) (c : Fin 4) (k : Fin 1024) (a : Adm), s.admission 0x0030 c k = some (u, a) ∧ u.pairPresent (field a.b 24 2) = true ∧
        field a.b 26 2 ≤ 9216 ∧ field a.b 26 2 % 16 = 0 ∧ (field a.b 26 2 = 0 ∨ 32 ≤ field a.b 26 2) ∧ u.poolHolds (field a.b 24 2) = true)
    ∧ (∃ (s u : State) (c : Fin 4) (k : Fin 1024) (a : Adm), s.admission 0x0031 c k = some (u, a) ∧ field a.b 24 1 = 2 ∧ field a.b 32 8 % 65536 = 0 ∧
        field a.b 40 8 % 65536 = 0 ∧ field a.b 32 8 + field a.b 40 8 ≤ u.geo.farTierMib * 2 ^ 20 ∧ u.kv.records = [])
    ∧ (∃ (s u : State) (c : Fin 4) (k : Fin 1024) (a : Adm), s.admission 0x0031 c k = some (u, a) ∧ field a.b 24 1 = 3 ∧ c.val < 2 ∧
        field a.b 32 8 % 65536 = 0 ∧ field a.b 40 8 % 65536 = 0 ∧ u.kv.records = [])
    ∧ (∃ (s u : State) (c : Fin 4) (k : Fin 1024) (a : Adm) (x : Stream), s.admission 0x0032 c k = some (u, a) ∧ c.val < 2 ∧ field a.b 24 4 % 65536 ≠ 0 ∧
        u.stream (field a.b 24 4 % 65536) (field a.b 28 2) = some x ∧ 0 < field a.b 40 4 ∧ (u.port c).linkUp = true) :=
  ⟨⟨withSlot 0x30 0 [(24, 0xFF), (25, 3), (26, 0), (27, 0x24)], _, 0, 0, _, rfl, by decide, by decide, by decide, by decide, by decide, by decide⟩,
  ⟨withSlot 0x30 0 [], _, 0, 0, _, rfl, by decide, by decide, by decide⟩,
  ⟨{ withSlot 0x30 0 [] with kv := { pages := [⟨0, 0, 0, 1, 1, 0⟩] } }, _, 0, 0, _, rfl, by decide, by decide, by decide, by decide, by decide⟩,
  ⟨{ withSlot 0x31 0 [(24, 2), (42, 0x10)] with geo := { farTierMib := 1 } }, _, 0, 0, _, rfl, by decide, by decide, by decide, by decide, by decide⟩,
  ⟨{ withSlot 0x31 1 [(24, 3)] with lantern := { stage := 0xF, heForward := true } }, _, 1, 0, _, rfl, by decide, by decide, by decide, by decide, by decide⟩,
  ⟨{ withSlot 0x32 0 [(24, 1), (40, 1)] with kv := { seqs := [(1, seq1)] } }, _, 0, 0, _, _, rfl, by decide, by decide, rfl, by decide, by decide⟩⟩

theorem witness_SequenceOps :
    (∃ (s : State) (tag op : Nat) (c : OpCtx), s.toDispatch .seqOpen tag op = some c ∧ field c.d 48 2 * field c.d 50 1 = 0 ∧
        (s.opStart c).tabled.unstalled)
    ∧ (∃ (s v w : State) (tag op h nf : Nat) (c : OpCtx) (pb fb : List Byte) (io io2 : Io), s.toDispatch .seqOpen tag op = some c ∧
        0 < field c.d 48 2 * field c.d 50 1 ∧ nf = (if field c.d 80 1 = 0 then 0 else field c.d 82 2 / 2) ∧
        c.sealed (s.opStart c) (field c.d 72 8) (2 * (field c.d 48 2 * field c.d 50 1)) = false ∧
        c.sealed (s.opStart c) (field c.d 88 8) (4 * nf) = false ∧ (s.opStart c).kv.seqs.length < 65535 ∧
        (s.opStart c).load c.who (field c.d 72 8) (2 * (field c.d 48 2 * field c.d 50 1)) = (pb, io) ∧ io.stop = none ∧
        io.s.load c.who (field c.d 88 8) (4 * nf) = (fb, io2) ∧ io2.stop = none ∧
        (∀ x ∈ (numbers 2 (field c.d 48 2 * field c.d 50 1) pb).map streamOf, io2.s.spanOk x = true) ∧ io2.s.newHandle = (h, v) ∧
        State.reserveSlots { v with kv := { v.kv with seqs := put v.kv.seqs h { seqOf c.d with
          streams := (numbers 2 (field c.d 48 2 * field c.d 50 1) pb).map streamOf
          ropeFreq := (numbers 4 nf fb).map (BitVec.ofNat 32), lastUse := v.time.now } } } h = some w ∧
        (w.noteHandle c.tag h).tabled.unstalled)
    ∧ (∃ (s v : State) (h : Nat), s.newHandle = (h, v) ∧ s.kv.seqs.length < 65535)
    ∧ (∃ (s v w : State) (tag op h : Nat) (c : OpCtx) (q : Seq), s.atSeq .seqClose tag op = some (c, h, q, v) ∧ v.flushAll 1 h = some w ∧
        (w.setSeq h (fun q => { q with closed := true })).tabled.unstalled)
    ∧ (∃ (s v : State) (tag op h : Nat) (c : OpCtx) (q : Seq), s.atSeq .seqFree tag op = some (c, h, q, v) ∧ (v.freeSeq h).tabled.unstalled)
    ∧ (∃ (s v w y : State) (tag op h k : Nat) (c : OpCtx) (q r : Seq), s.atSeq .seqFork tag op = some (c, h, q, v) ∧ v.seq h = some r ∧
        v.kv.seqs.length < 65535 ∧ v.newHandle = (k, w) ∧
        (State.reserveSlots { w with kv := { w.kv with seqs := put w.kv.seqs k { r with
          closed := false, lastUse := w.time.now, streams := r.streams.map (fun x => { x with slotHeld := false, blocks := [] }) } } } k).bind
          (fun z => z.needBlocks k) = some y ∧
        (((r.streams.flatMap (fun x => x.table.filter Pte.resident)).foldl
          (fun (z : State) e => z.onPage e (fun g => { g with refs := g.refs + 1 })) y).noteHandle c.tag k).tabled.unstalled)
    ∧ (∃ (s v : State) (tag op h : Nat) (c : OpCtx) (q : Seq), s.atSeq .seqResume tag op = some (c, h, q, v) ∧ v.tabled.unstalled)
    ∧ (∃ (s v : State) (tag op h : Nat) (c : OpCtx) (q : Seq), s.toDispatch .seqPreempt tag op = some c ∧ c.handle = some h ∧ h ≠ 0 ∧
        (s.opStart c).seq h = some q ∧ (s.opStart c).seqBusyBut tag op h = false ∧ ((s.opStart c).noteHandle c.tag h).swapOut h = .ok v ∧ v.tabled.unstalled)
    ∧ (∃ (s v w : State) (tag op h n : Nat) (c : OpCtx) (q : Seq) (e : Ending), s.atSeq .seqTruncate tag op = some (c, h, q, v) ∧ q.closed = false ∧
        n = ((v.seq h).map (fun q => q.streams.length)).getD 0 ∧
        (v.retryFlush h (List.range n)).truncStreams h (field c.d 56 8) (List.range n) = (w, e) ∧ w.tabled.unstalled)
    ∧ (∃ (s : State) (tag op : Nat) (c : OpCtx), s.toDispatch .seqFree tag op = some c ∧ (∀ h, c.handle = some h → h = 0 ∨ (s.opStart c).seq h = none) ∧
        (s.opStart c).tabled.unstalled) :=
  ⟨⟨withOps [desc 0x20 []], 0, 0, _, rfl, by decide, rfl⟩,
  ⟨withSeq (desc 0x20 [(48, 1), (50, 1), (51, 1), (52, 64), (54, 16), (56, 1), (57, 1)]), _, _, 0, 0, _, _, _, _, _, _, _, rfl, by decide, rfl, by decide,
    by decide, by decide, rfl, by decide, rfl, by decide, by decide, rfl,
    reserve_second _ _ _ _ rfl rfl rfl (by decide), tabled_second rfl (by decide) rfl⟩,
  ⟨live, _, _, rfl, by decide⟩,
  ⟨withSeq (desc 0x22 [(48, 1)]), _, _, 0, 0, _, _, _, rfl, rfl, rfl⟩,
  ⟨withSeq (desc 0x23 [(48, 1)]), _, 0, 0, _, _, _, rfl, rfl⟩,
  ⟨withSeq (desc 0x21 [(48, 1)]), _, _, _, 0, 0, _, _, _, _, _, rfl, rfl, by decide, rfl,
    need_second _ _ _ _ rfl rfl rfl rfl (by decide), tabled_second rfl (by decide) rfl⟩,
  ⟨withSeq (desc 0x26 [(48, 1)]), _, 0, 0, _, _, _, rfl, rfl⟩,
  ⟨withSeq (desc 0x25 [(48, 1)]), _, 0, 0, _, _, _, rfl, rfl, by decide, rfl, by decide, rfl, rfl⟩,
  ⟨withSeq (desc 0x24 [(48, 1)]), _, _, 0, 0, _, _, _, _, _, rfl, by decide, rfl, rfl, rfl⟩,
  ⟨withSeq (desc 0x23 [(48, 2)]), 0, 0, _, rfl, (fun h e => .inr (by injection e with e; subst e; decide)), rfl⟩⟩

theorem witness_CoreOperations :
    (∃ (s u v : State) (tag op : Nat) (c : OpCtx) (pick : Nat → Nat) (ws : List (Nat × List Byte)) (fl : BitVec 8), s.atCore .sfApply tag op sfRanges = some (c, u) ∧ 0 < field c.d 52 4 ∧
        u.convDraws c.pair (field c.d 116 1) (field c.d 120 4) = (pick, v) ∧ sfApply (v.reader c.pair c.ord) c.d pick = (ws, fl) ∧ (v.storeLate ws).unstalled)
    ∧ (∃ (s u v : State) (tag op : Nat) (c : OpCtx) (pick : Nat → Nat) (ws : List (Nat × List Byte)) (fl : BitVec 8) (emp : Bool), s.atCore .softmax tag op smRanges = some (c, u) ∧ 0 < field c.d 48 4 ∧ 0 < field c.d 52 2 ∧
        u.convDraws c.pair (field c.d 145 1) (field c.d 148 4) = (pick, v) ∧ softmax (v.reader c.pair c.ord) c.d pick = (ws, fl, emp) ∧ (v.storeLate ws).unstalled)
    ∧ (∃ (s u v : State) (tag op : Nat) (c : OpCtx) (pick : Nat → Nat) (ws : List (Nat × List Byte)) (fl : BitVec 8), s.atCore .norm tag op nmRanges = some (c, u) ∧ 0 < field c.d 52 4 ∧ 0 < field c.d 50 2 ∧
        u.convDraws c.pair (field c.d 122 1) (field c.d 128 4) = (pick, v) ∧ norm (v.reader c.pair c.ord) c.d pick = (ws, fl) ∧ (v.storeLate ws).unstalled)
    ∧ (∃ (s u : State) (tag op : Nat) (c : OpCtx), s.atCore .mm tag op mmRunRanges = some (c, u) ∧ (mmM c.d = 0 ∨ mmN c.d = 0 ∨ mmK c.d = 0) ∧ u.unstalled)
    ∧ (∃ (s u : State) (tag op : Nat) (c : OpCtx) (bs : List (List Byte)) (io : Io), s.atCore .mm tag op mmRunRanges = some (c, u) ∧ 0 < mmM c.d ∧ 0 < mmN c.d ∧ 0 < mmK c.d ∧ mmN c.d ≤ (u.core c.pair).width ∧ (∀ r ∈ mmBRuns c.d, mmSpace c.d = 0 ∨ c.sealed u (spaceAddr (mmSpace c.d) r.1) r.2 = false) ∧ (u.core c.pair).badTile c.d c.ord = none ∧ (u.mmKept c = [] ∨ (u.core c.pair).badBuf c.d = none) ∧ u.mmLoadB c.who (u.reader c.pair c.ord) (mmSpace c.d) ((mmBRuns c.d).drop (u.mmKept c).length) = (bs, io) ∧ io.stop = none ∧ (io.s.mmRun c (u.mmKept c ++ bs)).1.unstalled)
    ∧ (∃ (s : State) (tag op : Nat) (c : OpCtx) (k : OpKind) (i : Nat → Nat → Instr), (k, i) ∈ [(OpKind.mm, Instr.opMm), (.sfApply, .opSfApply), (.softmax, .opSoftmax), (.norm, .opNorm), (.dmCopy, .opDmCopy)] ∧ s.toDispatch k tag op = some c ∧ (s.opStart c).unstalled ∧ (s.opStart c).pairPresent c.pair = false)
    ∧ (∃ (s : State) (tag op : Nat) (c : OpCtx), s.toDispatch .sfApply tag op = some c ∧ (s.opStart c).unstalled ∧ (s.opStart c).pairPresent c.pair = true ∧ field c.d 52 4 = 0)
    ∧ (∃ (s : State) (tag op : Nat) (c : OpCtx), s.toDispatch .softmax tag op = some c ∧ (s.opStart c).unstalled ∧ (s.opStart c).pairPresent c.pair = true ∧ (field c.d 48 4 = 0 ∨ field c.d 52 2 = 0))
    ∧ (∃ (s : State) (tag op : Nat) (c : OpCtx), s.toDispatch .norm tag op = some c ∧ (s.opStart c).unstalled ∧ (s.opStart c).pairPresent c.pair = true ∧ (field c.d 52 4 = 0 ∨ field c.d 50 2 = 0))
    ∧ (∃ tau b x : Machine.Num, x.isInf = false ∧ (smRow tau b true [(x, true)]).sum.v.isFin = true)
    ∧ (∃ (tau b : Machine.Num) (xs : List (Machine.Num × Bool)), (∀ x ∈ xs, x.2 = false) ∧ (smRow tau b true xs).sum.v.isFin = true)
    ∧ (∃ x : Machine.Num, x.isZero = false) :=
  ⟨⟨withOps [desc 2 [(52, 1), (56, 2), (57, 2), (66, 1), (74, 1), (73, 1)]], _, _, 0, 0, _, _, _, _, rfl, by decide, rfl, rfl, rfl⟩,
  ⟨withOps [desc 3 [(48, 1), (52, 1), (58, 1), (68, 13), (82, 1), (92, 13)]], _, _, 0, 0, _, _, _, _, _, rfl, by decide, by decide, rfl, rfl, rfl⟩,
  ⟨withOps [desc 4 [(52, 1), (50, 1), (58, 1), (68, 13), (82, 1), (92, 13)]], _, _, 0, 0, _, _, _, _, rfl, by decide, by decide, rfl, rfl, rfl⟩,
  ⟨withOps [desc 1 [(139, 2), (140, 2), (144, 1)]], _, 0, 0, _, rfl, by decide, rfl⟩,
  ⟨withOps [desc 1 [(50, 1), (66, 2), (116, 1), (136, 1), (138, 1), (139, 2), (140, 2)]], _, 0, 0, _, _, _, rfl, by decide, by decide, by decide,
    by decide, by decide, by decide, .inl rfl, rfl, by decide, rfl⟩,
  ⟨{ withOps [desc 1 []] with geo := { absent := [0] } }, 0, 0, _, .mm, .opMm, List.mem_cons_self, rfl, rfl, by decide⟩,
  ⟨withOps [desc 2 []], 0, 0, _, rfl, rfl, by decide, by decide⟩,
  ⟨withOps [desc 3 []], 0, 0, _, rfl, rfl, by decide, by decide⟩,
  ⟨withOps [desc 4 []], 0, 0, _, rfl, rfl, by decide, by decide⟩,
  ⟨.one, .zero, .zero, by decide⟩,
  ⟨.one, .zero, [(.one, false)], by decide⟩,
  ⟨.one, by decide⟩⟩

theorem witness_CopyOperations :
    (∃ (s u : State) (tag op : Nat) (c : OpCtx) (rows : List (Nat × List Byte)) (io : Io), s.atCore .dmCopy tag op (fun d => (dmRanges d).map (fun r => { r with wr := true })) = some (c, u) ∧ 0 < dmLen c.d ∧ 0 < dmRows c.d ∧ c.sideSealed u (dmSrc c.d) = false ∧ c.sideSealed u (dmDst c.d) = false ∧ u.sideReadAll c (dmSrc c.d) (dmLen c.d) (List.range (dmRows c.d)) = (rows, io) ∧ io.stop = none ∧ io.s.unstalled)
    ∧ (∃ (s : State) (tag op : Nat) (c : OpCtx), s.toDispatch .dmCopy tag op = some c ∧ (s.opStart c).unstalled ∧ (s.opStart c).pairPresent c.pair = true ∧ (dmLen c.d = 0 ∨ dmRows c.d = 0))
    ∧ (∃ (s u : State) (tag op : Nat) (c : OpCtx), s.atCore .dmCopy tag op (fun d => (dmRanges d).map (fun r => { r with wr := true })) = some (c, u) ∧ 0 < dmLen c.d ∧ 0 < dmRows c.d ∧ (c.sideSealed u (dmSrc c.d) = true ∨ c.sideSealed u (dmDst c.d) = true) ∧ u.unstalled)
    ∧ (∃ (s : State) (tag op : Nat) (c : OpCtx), s.toDispatch .memZero tag op = some c ∧ field c.d 56 8 = 0 ∧ (s.opStart c).unstalled)
    ∧ (∃ (s : State) (tag op : Nat) (c : OpCtx) (io : Io), s.toDispatch .memZero tag op = some c ∧ 0 < field c.d 56 8 ∧ c.sealed (s.opStart c) (field c.d 48 8) (field c.d 56 8) = false ∧ (s.opStart c).zeroBlocks (field c.d 48 8) (field c.d 56 8 / 4096) = io ∧ io.stop = none ∧ io.s.unstalled) :=
  ⟨⟨withOps [desc 8 [(50, 1), (58, 2), (64, 2), (72, 1)]], _, 0, 0, _, _, _, rfl, by decide, by decide, by decide, by decide, rfl, by decide, rfl⟩,
  ⟨withOps [desc 8 [(50, 1), (58, 2)]], 0, 0, _, rfl, rfl, by decide, by decide⟩,
  ⟨{ withOps [desc 8 [(58, 2), (64, 2), (72, 1), (96, 1)]] with trust := { loaded := true, ranges := [⟨0, 4096, 1, 0, false, false, []⟩] } }, _, 0, 0, _, rfl,
    by decide, by decide, by decide, rfl⟩,
  ⟨withOps [desc 9 []], 0, 0, _, rfl, by decide, rfl⟩,
  ⟨withOps [desc 9 [(57, 0x10)]], 0, 0, _, _, rfl, by decide, by decide, rfl, by decide, rfl⟩⟩

theorem witness_CacheOperations :
    (∃ (s v w : State) (tag op h : Nat) (c : OpCtx) (q : Seq) (e : Option Ending) (fl : BitVec 8), s.atSeq .attAppend tag op = some (c, h, q, v) ∧ field c.d 52 1 < q.layers ∧ q.closed = false ∧ 0 < field c.d 54 2 ∧ (∀ r, v.seq h = some r → c.appendSealed v r (appendSrc c.d) (field c.d 54 2) = false) ∧ v.appendRows c h (appendSrc c.d) 0 (List.range (field c.d 54 2)) = (w, e, fl) ∧ w.tabled.unstalled)
    ∧ (∃ (s v : State) (tag op h : Nat) (c : OpCtx) (q : Seq), s.atSeq .attAppend tag op = some (c, h, q, v) ∧ field c.d 52 1 < q.layers ∧ q.closed = false ∧ field c.d 54 2 = 0 ∧ (s.opStart c).tabled.unstalled)
    ∧ (∃ (s v w : State) (tag op h : Nat) (c : OpCtx) (q : Seq) (x : Stream) (e : Ending), s.atSeq .kvWrite tag op = some (c, h, q, v) ∧ q.streams[field c.d 52 2]? = some x ∧ field c.d 56 8 + field c.d 64 4 ≤ x.length ∧ 0 < field c.d 64 4 ∧ (∀ r, v.seq h = some r → c.sealed v (field c.d 72 8)
          (spanBytes (field c.d 80 4) (if field c.d 54 1 = 1 then r.vb else r.kb) (field c.d 64 4)) = false) ∧ (v.retryFlush h [field c.d 52 2]).writeTokens c h (field c.d 52 2) (decide (field c.d 54 1 = 1)) (List.range (field c.d 64 4)) = (w, e) ∧ w.tabled.unstalled)
    ∧ (∃ (s v : State) (tag op h : Nat) (c : OpCtx) (q : Seq) (x : Stream), s.atSeq .kvWrite tag op = some (c, h, q, v) ∧ q.streams[field c.d 52 2]? = some x ∧ field c.d 56 8 ≤ x.length ∧ field c.d 64 4 = 0 ∧ (s.opStart c).tabled.unstalled)
    ∧ (∃ (s v : State) (tag op h : Nat) (c : OpCtx) (q : Seq) (x : Stream), s.atSeq .kvWrite tag op = some (c, h, q, v) ∧ q.streams[field c.d 52 2]? = some x ∧ x.length < field c.d 56 8 + field c.d 64 4 ∧ (s.opStart c).tabled.unstalled)
    ∧ (∃ (s v w : State) (tag op h : Nat) (c : OpCtx) (q : Seq) (e : Ending), s.atSeq .kvExport tag op = some (c, h, q, v) ∧ field c.d 52 2 < q.streams.length ∧ 0 < field c.d 64 4 ∧ (∀ r, v.seq h = some r → field c.d 68 1 ≠ 3 →
          c.sealed v (spaceAddr (field c.d 68 1) (field c.d 72 8)) (field c.d 64 4 * r.pageBytes) = false) ∧ (v.retryFlush h [field c.d 52 2]).exportPages c h (field c.d 52 2) (List.range (field c.d 64 4)) = (w, e) ∧ w.tabled.unstalled)
    ∧ (∃ (s v : State) (tag op h : Nat) (c : OpCtx) (q : Seq), s.atSeq .kvExport tag op = some (c, h, q, v) ∧ field c.d 52 2 < q.streams.length ∧ field c.d 64 4 = 0 ∧ (s.opStart c).tabled.unstalled)
    ∧ (∃ (s v w : State) (tag op h : Nat) (c : OpCtx) (q : Seq) (e : Ending), s.atSeq .attDecode tag op = some (c, h, q, v) ∧ field c.d 52 1 < q.layers ∧ attZero c.d = false ∧ field c.d 53 1 = 0 ∧ (∀ r, v.seq h = some r → c.attSealed v r = false) ∧ attend false c h (v.retryFlush h (((v.seq h).map (fun r => r.layerStreams (field c.d 52 1))).getD [])) 0 = (w, e) ∧ w.tabled.unstalled)
    ∧ (∃ (s v u w : State) (tag op h : Nat) (c : OpCtx) (q : Seq) (fl : BitVec 8) (e : Ending), s.atSeq .attDecode tag op = some (c, h, q, v) ∧ field c.d 52 1 < q.layers ∧ attZero c.d = false ∧ field c.d 53 1 = 1 ∧ q.closed = false ∧ (∀ r, v.seq h = some r → c.attSealed v r = false) ∧ v.appendRows c h (appendSrc c.d) 0 (List.range (attRows c.d)) = (u, none, fl) ∧ attend false c h u fl = (w, e) ∧ w.tabled.unstalled)
    ∧ (∃ (s v : State) (tag op h : Nat) (c : OpCtx) (q : Seq), s.atSeq .attDecode tag op = some (c, h, q, v) ∧ field c.d 52 1 < q.layers ∧ q.closed = false ∧ attZero c.d = true ∧ (s.opStart c).tabled.unstalled)
    ∧ (∃ (s v w : State) (tag op h : Nat) (c : OpCtx) (q : Seq) (e : Ending), s.atSeq .attPrefill tag op = some (c, h, q, v) ∧ field c.d 52 1 < q.layers ∧ attZero c.d = false ∧ field c.d 53 1 = 0 ∧ (∀ r, v.seq h = some r → c.attSealed v r = false) ∧ attend true c h (v.retryFlush h (((v.seq h).map (fun r => r.layerStreams (field c.d 52 1))).getD [])) 0 = (w, e) ∧ w.tabled.unstalled)
    ∧ (∃ (s v u w : State) (tag op h : Nat) (c : OpCtx) (q : Seq) (fl : BitVec 8) (e : Ending), s.atSeq .attPrefill tag op = some (c, h, q, v) ∧ field c.d 52 1 < q.layers ∧ attZero c.d = false ∧ field c.d 53 1 = 1 ∧ q.closed = false ∧ (∀ r, v.seq h = some r → c.attSealed v r = false) ∧ v.appendRows c h (appendSrc c.d) 0 (List.range (attRows c.d)) = (u, none, fl) ∧ attend true c h u fl = (w, e) ∧ w.tabled.unstalled)
    ∧ (∃ (s v : State) (tag op h : Nat) (c : OpCtx) (q : Seq), s.atSeq .attPrefill tag op = some (c, h, q, v) ∧ field c.d 52 1 < q.layers ∧ q.closed = false ∧ attZero c.d = true ∧ (s.opStart c).tabled.unstalled)
    ∧ (∃ r : Partial, r.count = 0) :=
  ⟨⟨withSeq (desc 0x28 [(48, 1), (54, 1), (66, 1)]), _, _, 0, 0, _, _, _, _, _, rfl, by decide, by decide, by decide, notSealed rfl, rfl, rfl⟩,
  ⟨withSeq (desc 0x28 [(48, 1)]), _, 0, 0, _, _, _, rfl, by decide, by decide, by decide, rfl⟩,
  ⟨{ withSeq (desc 0x2B [(48, 1), (64, 1)]) with kv := { seqs := [(1, { seq1 with streams := [{ stream1 with length := 1, slot := [⟨[], [], [], []⟩] }] })] } },
    _, _, 0, 0, _, _, _, _, _, rfl, rfl, by decide, by decide, (fun _ _ => none_sealed rfl _ _ _), rfl, rfl⟩,
  ⟨withSeq (desc 0x2B [(48, 1)]), _, 0, 0, _, _, _, _, rfl, rfl, by decide, by decide, rfl⟩,
  ⟨withSeq (desc 0x2B [(48, 1), (64, 1)]), _, 0, 0, _, _, _, _, rfl, rfl, by decide, rfl⟩,
  ⟨withSeq (desc 0x2C [(48, 1), (64, 1), (68, 1)]), _, _, 0, 0, _, _, _, _, rfl, by decide, by decide, (fun _ _ _ => none_sealed rfl _ _ _), rfl, rfl⟩,
  ⟨withSeq (desc 0x2C [(48, 1)]), _, 0, 0, _, _, _, rfl, by decide, by decide, rfl⟩,
  ⟨withSeq (desc 0x29 [(48, 1), (54, 1), (88, 13), (90, 13)]), _, _, 0, 0, _, _, _, _, rfl, by decide, by decide, by decide, notAttSealed rfl, rfl, rfl⟩,
  ⟨withSeq (desc 0x29 [(48, 1), (53, 1), (54, 1), (88, 13), (90, 13)]), _, _, _, 0, 0, _, _, _, _, _, rfl, by decide, by decide, by decide, by decide, notAttSealed rfl, rfl, rfl, rfl⟩,
  ⟨withSeq (desc 0x29 [(48, 1)]), _, 0, 0, _, _, _, rfl, by decide, by decide, by decide, rfl⟩,
  ⟨withSeq (desc 0x2A [(48, 1), (54, 1), (88, 13), (90, 13)]), _, _, 0, 0, _, _, _, _, rfl, by decide, by decide, by decide, notAttSealed rfl, rfl, rfl⟩,
  ⟨withSeq (desc 0x2A [(48, 1), (53, 1), (54, 1), (88, 13), (90, 13)]), _, _, _, 0, 0, _, _, _, _, _, rfl, by decide, by decide, by decide, by decide, notAttSealed rfl, rfl, rfl, rfl⟩,
  ⟨withSeq (desc 0x2A [(48, 1)]), _, 0, 0, _, _, _, rfl, by decide, by decide, by decide, rfl⟩,
  ⟨{ num := [], den := .pure .zero, count := 0, exp := 0 }, rfl⟩⟩

theorem witness_BankAccesses :
    (∃ (s t : State) (pair : Fin 1024), s.bankTurn pair .ld false (fun _ w x u _ =>
          ({ u with br := put u.br (biRd w) (BitVec.ofNat 256 x), mxBlocks := if biRd w = 7 then 0 else u.mxBlocks }, none)) = some t)
    ∧ (∃ (s t : State) (pair : Fin 1024), s.bankTurn pair .st true (fun _ w _ u _ => (u, some (look u.br (biRa w) 0).toNat)) = some t)
    ∧ (∀ o ∈ [BOp.lda, .mac, .axpy, .scal, .dot, .expw, .rsum, .rmax, .sten, .csel, .sta], ∀ f : UnitOp,
        ∃ (s t : State) (pair : Fin 1024), s.bankTurn pair o (decide (o = .sta)) f = some t)
    ∧ (∃ (s : State) (pair : Fin 1024) (q : SeqSt), s.mayIssue pair .ld = some q ∧ (∀ b ∈ s.activeBanks pair q, q.issues q.word b = false))
    ∧ (∃ (s : State) (pair : Fin 1024) (q : SeqSt) (b : Nat) (bs : List Nat), s.mayIssue pair .lda = some q ∧
        (s.activeBanks pair q).filter (q.issues q.word) = b :: bs ∧ 255 < laneTop .lda q.word q.outer q.inner) :=
  ⟨⟨withBank (0x08 * 2 ^ 58) [(0, 1)], _, 5, rfl⟩, ⟨withBank (0x09 * 2 ^ 58) [(0, 1)], _, 5, rfl⟩,
  fun o ho f => by
    fin_cases ho
    · exact ⟨withBank (0x0A * 2 ^ 58 + 11 * 2 ^ 54) [(0, 1)], _, 5, rfl⟩
    · exact ⟨withBank (0x0C * 2 ^ 58 + 11 * 2 ^ 54) [(0, 1)], _, 5, rfl⟩
    · exact ⟨withBank (0x0D * 2 ^ 58 + 11 * 2 ^ 54) [(0, 1)], _, 5, rfl⟩
    · exact ⟨withBank (0x0E * 2 ^ 58 + 11 * 2 ^ 54) [(0, 1)], _, 5, rfl⟩
    · exact ⟨withBank (0x10 * 2 ^ 58 + 11 * 2 ^ 54) [(0, 1)], _, 5, rfl⟩
    · exact ⟨withBank (0x12 * 2 ^ 58 + 11 * 2 ^ 54) [(0, 1)], _, 5, rfl⟩
    · exact ⟨withBank (0x14 * 2 ^ 58 + 11 * 2 ^ 54) [(0, 1)], _, 5, rfl⟩
    · exact ⟨withBank (0x15 * 2 ^ 58 + 11 * 2 ^ 54) [(0, 1)], _, 5, rfl⟩
    · exact ⟨withBank (0x18 * 2 ^ 58 + 11 * 2 ^ 54) [(0, 1)], _, 5, rfl⟩
    · exact ⟨withBank (0x19 * 2 ^ 58 + 11 * 2 ^ 54) [(0, 1)], _, 5, rfl⟩
    · exact ⟨withBank (0x0B * 2 ^ 58 + 11 * 2 ^ 54) [(0, 1)], _, 5, rfl⟩,
  ⟨withBank (0x08 * 2 ^ 58) [], 5, _, rfl, by decide⟩,
  ⟨withBank (0x0A * 2 ^ 58 + 11 * 2 ^ 54 + 255 * 2 ^ 32) [(0, 1)], 5, _, _, _, rfl, rfl, by decide⟩⟩

theorem witness_BankControl :
    (∃ (s : State) (tag op : Nat) (c : OpCtx), s.toDispatch .bankRun tag op = some c ∧ (brCount c.d = 0 ∨ brLen c.d = 0) ∧ (s.opStart c).unstalled)
    ∧ (∃ (s : State) (tag op : Nat) (c : OpCtx) (x : Oper), s.toDispatch .bankRun tag op = some c ∧ 0 < brCount c.d ∧ 0 < brLen c.d ∧
        (s.opStart c).trust.ranges = [] ∧ (∀ k < brCount c.d, (s.opStart c).pairPresent (brFirst c.d + k) = true) ∧
        (s.opStart c).oper c.tag c.op = some x ∧ (s.opStart c).unstalled)
    ∧ (∃ (s : State) (pair : Fin 1024) (r : SeqReq) (rest : List SeqReq), (s.vault pair).seq = none ∧ (s.vault pair).queue = r :: rest ∧
        s.mayLoad pair = true ∧ (State.loadSeq { s with run := {} } pair r).unstalled)
    ∧ (∃ (s : State) (pair : Fin 1024), (s.vault pair).seq.isSome = true ∧ s.vaultShut pair = false ∧ s.time.nextBoundary = none ∧
        s.startsNow pair = true ∧ (s.vault pair).bsSpent < 2 * s.bsShare pair ∧ (s.vault pair).held = [])
    ∧ (∃ (s : State) (pair : Fin 1024) (q : SeqSt), (s.vault pair).seq = some q ∧ (s.vault pair).sortie.isSome = true ∧ s.fits pair q = false)
    ∧ (∃ (s : State) (pair : Fin 1024) (q : SeqSt), s.mayIssue pair .loop = some q ∧ 0 < biCount q.word ∧ s.seqBanks pair q ≠ [])
    ∧ (∃ (s : State) (pair : Fin 1024) (q : SeqSt), s.mayIssue pair .loop = some q ∧ biCount q.word = 0 ∧
        0 < (s.seqBanks pair q).foldl (fun m b => max m (q.pw b (biImm q.word % 8))) 0)
    ∧ (∃ (s : State) (pair : Fin 1024) (q : SeqSt), s.mayIssue pair .loop = some q ∧ biCount q.word = 0 ∧
        (∀ b ∈ s.seqBanks pair q, q.pw b (biImm q.word % 8) = 0))
    ∧ (∃ (s : State) (pair : Fin 1024) (q : SeqSt) (l : LoopSt) (rest : List LoopSt), s.mayIssue pair .endl = some q ∧ q.loops = l :: rest ∧ l.index + 1 < l.total)
    ∧ (∃ (s : State) (pair : Fin 1024) (q : SeqSt) (l : LoopSt) (rest : List LoopSt), s.mayIssue pair .endl = some q ∧ q.loops = l :: rest ∧ l.total ≤ l.index + 1)
    ∧ (∃ (s : State) (pair : Fin 1024) (q : SeqSt), s.mayIssue pair .setp = some q)
    ∧ (∃ (s : State) (pair : Fin 1024) (q : SeqSt), s.mayIssue pair .clra = some q) ∧ (∃ (s : State) (pair : Fin 1024) (q : SeqSt), s.mayIssue pair .exps = some q)
    ∧ (∃ (s : State) (pair : Fin 1024) (q : SeqSt), s.mayIssue pair .rise = some q ∧ riseSize q.word = 0)
    ∧ (∃ (s : State) (pair : Fin 1024) (q : SeqSt), s.mayIssue pair .rise = some q ∧ 0 < riseSize q.word)
    ∧ (∃ (s : State) (pair : Fin 1024) (q : SeqSt), s.mayIssue pair .stop = some q) :=
  ⟨⟨withOps [desc 0x10 []], 0, 0, _, rfl, by decide, rfl⟩, ⟨withOps [desc 0x10 [(50, 2), (64, 1)]], 0, 0, _, _, rfl, by decide, by decide, by decide, by decide, rfl, rfl⟩,
  ⟨{ live with mem := { vaults := [(5, { queue := [req0] })] } }, 5, _, _, by decide, rfl, by decide, rfl⟩,
  ⟨{ withBank 0 [] with mem := { vaults := [(5, { seq := (withBank 0 []).mem.vaults.head?.bind (fun e => e.2.seq) })] } }, 5, by decide⟩,
  ⟨{ withBank (0x08 * 2 ^ 58) [(0, 1)] with mem := { vaults := [(5, { seq := (withBank (0x08 * 2 ^ 58) []).mem.vaults.head?.bind (fun e => e.2.seq), sortie := some 0, sortieSpent := 2048 })] } },
    5, _, rfl, by decide, by decide⟩,
  ⟨withBank (0x01 * 2 ^ 58 + 3 * 2 ^ 16) [(0, 1)], 5, _, rfl, by decide, by decide⟩, ⟨withBank (0x01 * 2 ^ 58 + 2) [(0, 1), (2, 4)], 5, _, rfl, by decide, by decide⟩, ⟨withBank (0x01 * 2 ^ 58 + 2) [(0, 1)], 5, _, rfl, by decide, by decide⟩,
  ⟨withLoop (0x02 * 2 ^ 58) { body := 1, index := 0, total := 2, param := none }, 5, _, _, _, rfl, rfl, by decide⟩,
  ⟨withLoop (0x02 * 2 ^ 58) { body := 1, index := 1, total := 2, param := none }, 5, _, _, _, rfl, rfl, by decide⟩,
  ⟨withBank (0x03 * 2 ^ 58 + 1) [(0, 1)], 5, _, rfl⟩, ⟨withBank (0x04 * 2 ^ 58) [(0, 1)], 5, _, rfl⟩, ⟨withBank (0x11 * 2 ^ 58) [(0, 1)], 5, _, rfl⟩,
  ⟨withBank (0x1C * 2 ^ 58) [(0, 1)], 5, _, rfl, by decide⟩,
  ⟨withBank (0x1C * 2 ^ 58 + 256) [(0, 1)], 5, _, rfl, by decide⟩, ⟨withBank 0 [], 5, _, rfl⟩⟩

theorem witness_OrderAdmission :
    (∃ (s u : State) (c : Fin 4) (k : Fin 1024) (a : Adm) (x : Cmd) (h : List Byte) (io : Io), s.admission 0x0001 c k = some (u, a) ∧ u.cmd a.tag = some x ∧
        field a.b 24 8 % 256 = 0 ∧ field a.b 24 8 < farBase ∧ u.reachableRange (field a.b 24 8) 64 = true ∧ u.rangeInPool (field a.b 24 8) 64 = false ∧
        u.trust.ranges = [] ∧ u.load {} (field a.b 24 8) 64 = (h, io) ∧ io.stop = none ∧ field h 0 2 = 1 ∧ ordOps h = 0 ∧ ordResultOp h = 0xFFFF)
    ∧ (∃ (s u : State) (c : Fin 4) (k : Fin 1024) (a : Adm) (x : Cmd) (h : List Byte) (io : Io) (t : State) (ops : List Oper),
        s.admission 0x0001 c k = some (u, a) ∧ u.cmd a.tag = some x ∧
        field a.b 24 8 % 256 = 0 ∧ field a.b 24 8 < farBase ∧ u.reachableRange (field a.b 24 8) 64 = true ∧ u.rangeInPool (field a.b 24 8) 64 = false ∧
        u.trust.ranges = [] ∧ u.load {} (field a.b 24 8) 64 = (h, io) ∧ io.stop = none ∧ field h 0 2 = 1 ∧ 0 < ordOps h ∧
        (ordResultOp h = 0xFFFF ∨ ordResultOp h < ordOps h) ∧ io.s.reachableRange (field a.b 24 8 + 64) (256 * ordOps h) = true ∧
        io.s.rangeInPool (field a.b 24 8 + 64) (256 * ordOps h) = false ∧ io.s.trust.ranges = [] ∧
        io.s.readDescs x (field a.b 24 8) 0 [] (ordOps h) = (t, .ok ops))
    ∧ (∃ (s u : State) (c : Fin 4) (k : Fin 1024) (a : Adm) (x : Cmd) (h : List Byte) (io : Io) (t : State) (e : Ending),
        s.admission 0x0001 c k = some (u, a) ∧ u.cmd a.tag = some x ∧
        field a.b 24 8 % 256 = 0 ∧ field a.b 24 8 < farBase ∧ u.reachableRange (field a.b 24 8) 64 = true ∧ u.rangeInPool (field a.b 24 8) 64 = false ∧
        u.trust.ranges = [] ∧ u.load {} (field a.b 24 8) 64 = (h, io) ∧ io.stop = none ∧ field h 0 2 = 1 ∧ 0 < ordOps h ∧
        (ordResultOp h = 0xFFFF ∨ ordResultOp h < ordOps h) ∧ io.s.reachableRange (field a.b 24 8 + 64) (256 * ordOps h) = true ∧
        io.s.rangeInPool (field a.b 24 8 + 64) (256 * ordOps h) = false ∧ io.s.trust.ranges = [] ∧
        io.s.readDescs x (field a.b 24 8) 0 [] (ordOps h) = (t, .error e))
    ∧ (∃ (s u : State) (c : Fin 4) (k : Fin 1024) (a : Adm) (x : Cmd), s.admission 0x0001 c k = some (u, a) ∧ u.cmd a.tag = some x ∧ field a.b 24 8 % 256 ≠ 0) :=
  ⟨⟨withOrder [(0, 1), (16, 0xFF), (17, 0xFF)], _, 0, 0, _, _, _, _, rfl, rfl, by decide, by decide, by decide, by decide, by decide, rfl, by decide, by decide,
    by decide, by decide⟩,
  ⟨withOrder [(0, 1), (2, 1)], _, 0, 0, _, _, _, _, _, _, rfl, rfl, by decide, by decide, by decide, by decide, by decide, rfl, by decide, by decide,
    by decide, by decide, by decide, by decide, by decide, rfl⟩,
  ⟨withOrder [(0, 1), (2, 1), (65, 0xFF)], _, 0, 0, _, _, _, _, _, _, rfl, rfl, by decide, by decide, by decide, by decide, by decide, rfl, by decide, by decide,
    by decide, by decide, by decide, by decide, by decide, rfl⟩,
  ⟨withSlot 1 0 [(24, 1)], _, 0, 0, _, _, rfl, rfl, by decide⟩⟩

theorem witness_OrderProgress :
    (∃ (s : State) (tag op : Nat) (c : OpCtx), s.toDispatch .nop tag op = some c ∧ (s.opStart c).unstalled)
    ∧ (∃ (s : State) (tag : Nat) (c : Cmd) (o : Order) (n : BitVec 64), s.cmd tag = some c ∧ c.order = some o ∧ o.started = false ∧ o.startNs = some n ∧
        n.toNat ≤ s.rtNow ∧ s.atBoundary = true)
    ∧ (∃ (s t : State) (tag op : Nat) (c : Cmd) (o : Order) (x y : Oper) (e f : Ending) (io : Io), s.cmd tag = some c ∧ c.order = some o ∧
        s.oper tag op = some x ∧ x.phase = .running e ∧ c.struck = none ∧ (s.wdog s.lead).inReset = false ∧ s.farAcked tag op = true ∧
        State.writeLate { s with run := {} } { cmd := c, tag := tag, op := op, d := x.desc } x.late = io ∧ io.s.unstalled ∧ io.s.oper tag op = some y ∧
        f = io.stop.getD (io.s.run.ending e) ∧
        t = io.s.setOper tag op (fun z => { z with phase := .running f, late := [], wrote := io.s.run.wrote.foldl insertNat z.wrote }) ∧
        t.farAcked tag op = true ∧ (opKind (opCode x.desc)).bind OpKind.coreUnit = none)
    ∧ (∃ (s t : State) (tag op : Nat) (c : Cmd) (o : Order) (x y : Oper) (e f : Ending) (io : Io) (k : Nat), s.cmd tag = some c ∧ c.order = some o ∧
        s.oper tag op = some x ∧ x.phase = .running e ∧ c.struck = none ∧ (s.wdog s.lead).inReset = false ∧ s.farAcked tag op = true ∧
        State.writeLate { s with run := {} } { cmd := c, tag := tag, op := op, d := x.desc } x.late = io ∧ io.s.unstalled ∧ io.s.oper tag op = some y ∧
        f = io.stop.getD (io.s.run.ending e) ∧
        t = io.s.setOper tag op (fun z => { z with phase := .running f, late := [], wrote := io.s.run.wrote.foldl insertNat z.wrote }) ∧
        t.farAcked tag op = true ∧ (opKind (opCode x.desc)).bind OpKind.coreUnit = some k)
    ∧ (∃ (s : State) (tag op : Nat) (c : OpCtx) (k : OpKind) (n : Nat) (y : Cmd) (o : Order) (x : Oper), s.toDispatch k tag op = some c ∧ k.coreUnit = some n ∧
        (s.oper tag op).map (·.phase) ≠ some .held ∧ y ∈ s.warden.tags ∧ y.order = some o ∧ x ∈ o.ops) :=
  ⟨⟨withOps [desc 0 []], 0, 0, _, rfl, rfl⟩,
  ⟨withCmd { cmd0 [] with order := some ⟨0, false, false, some 0, 0, false, []⟩ }, 0, _, _, _, rfl, rfl, rfl, rfl, by decide, by decide⟩,
  ⟨(withOps [desc 0 []]).ranTo 0 0 { status := .done }, _, 0, 0, _, _, _, _, _, _, _, rfl, rfl, rfl, rfl, rfl, by decide, by decide, rfl, rfl, rfl, rfl, rfl, by decide, by decide⟩,
  ⟨(withOps [desc 1 []]).ranTo 0 0 { status := .done }, _, 0, 0, _, _, _, _, _, _, _, _, rfl, rfl, rfl, rfl, rfl, by decide, by decide, rfl, rfl, rfl, rfl, rfl, by decide, rfl⟩,
  ⟨withOps [desc 1 []], 0, 0, _, .mm, 0, _, _, _, rfl, rfl, by decide, List.mem_cons_self, rfl, List.mem_cons_self⟩⟩

theorem witness_WorstEnding :
    (∃ (l : List (Nat × Ending)) (i : Nat) (e : Ending), worst l = some (i, e) ∧ l.Pairwise (fun a b => a.1 < b.1))
    ∧ (∃ (o : Order) (i : Nat) (e : Ending), worst o.completed = some (i, e) ∧ e.status.good = false) :=
  ⟨⟨[(0, { status := .done }), (2, { status := .struck })], _, _, rfl, by decide⟩,
  ⟨⟨0, false, false, none, 0, true, [{ desc := [], phase := .completed { status := .struck } }]⟩, _, _, rfl, by decide⟩⟩

theorem witness_Strikes :
    (∃ (s u : State) (c : Fin 4) (k : Fin 1024) (a : Adm) (x : Cmd), s.admission 0x0F01 c k = some (u, a) ∧ u.cmd a.tag = some x ∧ x.asOwner = true ∧
        field a.b 24 1 ≤ 3 ∧ field a.b 26 2 ≤ 32767)
    ∧ (∃ (s u : State) (c : Fin 4) (k : Fin 1024) (a : Adm) (x : Cmd), s.admission 0x0F01 c k = some (u, a) ∧ u.cmd a.tag = some x ∧ x.asOwner = false ∧
        field a.b 24 1 ≤ 3 ∧ field a.b 26 2 ≤ 32767 ∧ field a.b 24 1 ≠ c.val)
    ∧ (∃ (s u : State) (c : Fin 4) (k : Fin 1024) (a : Adm), s.admission 0x0F02 c k = some (u, a) ∧ bit (field a.b 24 4) 31 = false)
    ∧ (∃ (s u : State) (c : Fin 4) (k : Fin 1024) (a : Adm), s.admission 0x0F03 c k = some (u, a))
    ∧ (∃ (tags : List Nat) (slots : List SealedSlot), tags ≠ [] ∨ slots ≠ [])
    ∧ (∃ (s : State) (tag op : Nat) (c : Cmd) (x : Oper), s.cmd tag = some c ∧ s.oper tag op = some x ∧ c.struck.isSome = true ∧
        x.phase.inFlight = true ∧ x.stopped = false)
    ∧ (∃ (s : State) (j : StrikeJob), s.warden.strikes = [j] ∧ s.jobReady j = true)
    ∧ (∃ s : State, s.warden.strikes ≠ [] ∧ ∀ j ∈ s.warden.strikes, s.jobReady j = false) :=
  ⟨⟨withSlot 0x0F01 0 [(26, 0xFF), (27, 0x7F)], _, 0, 0, _, _, rfl, rfl, rfl, by decide, by decide⟩,
  ⟨let s := withSlot 0x0F01 1 [(4, 1)]; { s with lantern := { stage := 0xF, heForward := true }, warden := { s.warden with sealed := s.warden.sealed.map (fun e => { e with asOwner := false }) } },
    _, 1, 0, _, _, rfl, rfl, rfl, by decide, by decide, by decide⟩,
  ⟨withSlot 0x0F02 0 [(24, 0xFF), (25, 0xFF)], _, 0, 0, _, rfl, by decide⟩, ⟨withSlot 0x0F03 0 [], _, 0, 0, _, rfl⟩, ⟨[7], [], by decide⟩,
  ⟨(withCmd { cmd0 [desc 1 []] with struck := some (.struck, 0) }).ranTo 0 0 { status := .done }, 0, 0, _, _, rfl, rfl, rfl, by decide, by decide⟩,
  ⟨{ live with warden := { strikes := [{ tags := [], slotCount := 1, own := none }] } }, _, rfl, by decide⟩,
  ⟨let s := (withCmd { cmd0 [desc 1 []] with struck := some (.struck, 0) }).ranTo 0 0 { status := .done };
    { s with warden := { s.warden with strikes := [{ tags := [0], slotCount := 0, own := none }] } }, by decide, by decide⟩⟩

theorem witness_RegisterWrites :
    (∃ (s : State) (p : Fin 2), s.hostWrites p = false)
    ∧ (∃ off width : Nat, (off < 0x10000 ∨ 0x50000 ≤ off) ∧ ¬ (width = 4 ∧ off % 4 = 0) ∧ ¬ (width = 8 ∧ off % 8 = 0))
    ∧ (∃ (s : State) (p : Fin 2) (o : Nat), s.hostWrites p = true ∧ o < 256 ∧ o % 4 = 0)
    ∧ (∃ (s : State) (p : Fin 2) (o : Nat), s.hostWrites p = true ∧ o < 0x10000 ∧ o % 4 = 0 ∧ rationsWritable o = true)
    ∧ (∃ (s : State) (p : Fin 2) (n o : Nat), s.hostWrites p = true ∧ n < 512 ∧ o < 128 ∧ o % 4 = 0 ∧ s.hasChan n = true ∧ chanWritable o = true)
    ∧ (∃ (s : State) (p : Fin 2) (o : Nat), s.hostWrites p = true ∧ o < 0x8000 ∧ o % 4 = 0)
    ∧ (∃ (s : State) (p : Fin 2) (off : Nat), s.hostWrites p = true ∧ (off < 0x10000 ∨ 0x50000 ≤ off) ∧ off % 8 = 0) :=
  ⟨⟨State.reset, 0, by decide⟩, ⟨0x50002, 4, by decide⟩, ⟨live, 1, 252, by decide⟩, ⟨live, 0, 0x7F0, by decide⟩, ⟨live, 1, 15, 0x38, by decide⟩,
  ⟨live, 0, 0x7FFC, by decide⟩, ⟨live, 0, 0x1018, by decide⟩⟩

theorem witness_RackTimeSources :
    (∃ (s u : State) (c : Fin 4) (k : Fin 1024) (a : Adm), s.admission 0x0100 c k = some (u, a) ∧ field a.b 24 1 ≤ 3 ∧ field a.b 25 1 ≤ 1 ∧
        field a.b 26 1 ≤ 1 ∧ field a.b 27 1 ≤ 1)
    ∧ (∃ (s : State) (rising : Bool), s.time.running = false ∨ rising = s.settings.tcFalling)
    ∧ (∃ (s : State) (rising : Bool) (f : Int) (t0 sec t1 : Nat), s.time.running = true ∧ rising ≠ s.settings.tcFalling ∧ s.time.lastPps = some t0 ∧
        t0 + 1000000000 ≤ s.now + 1000 ∧ s.now ≤ t0 + 1000000000 + 1000 ∧ f.natAbs ≤ 100000 ∧ s.time.tcSeconds = none ∧ s.time.seconds = some (sec, t1))
    ∧ (∃ (s : State) (rising : Bool) (f : Int) (sec : BitVec 64), s.time.running = true ∧ rising ≠ s.settings.tcFalling ∧ 100000 < f.natAbs ∧
        s.time.tcSeconds = some sec)
    ∧ (∃ (s : State) (rising : Bool) (sec : BitVec 64) (t0 : Nat), s.time.running = true ∧ rising ≠ s.settings.tcFalling ∧
        (s.time.lastPps = some t0 ∧ (s.now + 1000 < t0 + 1000000000 ∨ t0 + 1000000000 + 1000 < s.now)) ∧ s.time.tcSeconds = some sec)
    ∧ (∃ (s : State) (rising : Bool) (sec : BitVec 64), s.time.running = true ∧ rising ≠ s.settings.tcFalling ∧
        s.time.lastPps = none ∧ s.time.tcSeconds = some sec)
    ∧ (∃ (s : State) (t : Nat), s.time.lastPps = some t)
    ∧ (∃ (s : State) (id : BitVec 12), s.links.nodeId = some id ∧ s.isRoot = true ∧ s.time.running = true ∧ s.rtNow % 1000000 = 0 ∧
        s.time.lastEmit ≠ some s.time.now)
    ∧ (∃ (s t : State) (p : Fin 18) (h : FlitHdr), s.accepted p h .beacon = some t ∧ t.settings.tcRoot = false)
    ∧ (∃ (s t : State) (p : Fin 18) (h : FlitHdr) (m : BeaconMsg) (id : BitVec 12), s.accepted p h .beacon = some t ∧ t.settings.tcRoot = true ∧
        t.links.nodeId = some id ∧ m.root.toNat < id.toNat)
    ∧ (∃ (s t : State) (p : Fin 18) (h : FlitHdr) (m : BeaconMsg) (id : BitVec 12), s.accepted p h .beacon = some t ∧ t.settings.tcRoot = true ∧
        t.links.nodeId = some id ∧ id.toNat ≤ m.root.toNat ∧ t.time.lowerRoot = none)
    ∧ (∃ (s : State) (t : Nat), s.time.lastBeacon = some t ∧ t + 10000000 ≤ s.now) ∧ (∃ (s : State) (t : Nat), s.time.lastBeacon = some t ∧ s.now < t + 10000000)
    ∧ (∃ (s : State) (t : Nat), s.time.lowerRoot = some t ∧ t + 10000000 ≤ s.now) ∧ (∃ (s : State) (t : Nat), s.time.lowerRoot = some t ∧ s.now < t + 10000000)
    ∧ (∃ s : State, s.twin = true ∧ s.time.running = true ∧ s.seam.mods.any (fun e => decide (e.2.state ≠ .out)) = true) :=
  ⟨⟨withSlot 0x0100 0 [(24, 3), (25, 1), (26, 1), (27, 1)], _, 0, 0, _, rfl, by decide, by decide, by decide, by decide⟩,
  ⟨live, true, .inl rfl⟩,
  ⟨{ live with now := 1000001000, time := { running := true, lastPps := some 0, seconds := some (5, 0) } }, true, -100000, 0, 5, 0, by decide⟩,
  ⟨{ live with time := { running := true, tcSeconds := some 7 } }, true, 100001, 7, by decide⟩,
  ⟨{ live with now := 1000001001, time := { running := true, tcSeconds := some 7, lastPps := some 0 } }, true, 7, 0, by decide⟩,
  ⟨{ live with time := { running := true, tcSeconds := some 7 } }, true, 7, by decide⟩,
  ⟨{ live with time := { lastPps := some 3 } }, 3, rfl⟩,
  ⟨{ live with time := { running := true }, settings := { tcRoot := true }, links := { nodeId := some 5 } }, 5, by decide⟩,
  ⟨withLinks { ports := [(17, slUp)] }, _, 17, hdr0, rfl, rfl⟩,
  ⟨{ withLinks { ports := [(0, slUp)], nodeId := some 5 } with settings := { tcRoot := true } }, _, 0, hdr0,
    { root := 4, hops := 0, seq := 0, originNs := 0, corr := 0, rootErr := 0, residenceNs := 0 }, 5, rfl, rfl, rfl, by decide⟩,
  ⟨{ withLinks { ports := [(0, slUp)], nodeId := some 5 } with settings := { tcRoot := true } }, _, 0, hdr0,
    { root := 5, hops := 0, seq := 0, originNs := 0, corr := 0, rootErr := 0, residenceNs := 0 }, 5, rfl, rfl, rfl, by decide, rfl⟩,
  ⟨{ live with now := 10000000, time := { lastBeacon := some 0 } }, 0, by decide⟩, ⟨{ live with now := 9999999, time := { lastBeacon := some 0 } }, 0, by decide⟩,
  ⟨{ live with now := 10000000, time := { lowerRoot := some 0 } }, 0, by decide⟩, ⟨{ live with now := 9999999, time := { lowerRoot := some 0 } }, 0, by decide⟩,
  ⟨{ live with time := { running := true }, seam := { mods := [(0, { state := .inService })] } }, by decide⟩⟩

theorem witness_PowerSlots :
    (∃ (s u : State) (c : Fin 4) (k : Fin 1024) (a : Adm), s.admission 0x0110 c k = some (u, a) ∧ firstFault .slot (psChecks u a.b) = none ∧
        field a.b 24 1 = 1 ∧ field a.b 26 1 = 0)
    ∧ (∃ (s u : State) (c : Fin 4) (k : Fin 1024) (a : Adm), s.admission 0x0110 c k = some (u, a) ∧ firstFault .slot (psChecks u a.b) = none ∧
        field a.b 24 1 = 0 ∧ u.power.next = none)
    ∧ (∃ (s u : State) (c : Fin 4) (k : Fin 1024) (a : Adm), s.admission 0x0110 c k = some (u, a) ∧ firstFault .slot (psChecks u a.b) = none ∧
        field a.b 24 1 = 1 ∧ field a.b 26 1 ≠ 0 ∧ u.power.next = none)
    ∧ (∃ (s u : State) (c : Fin 4) (k : Fin 1024) (a : Adm) (p : Option PowerSched) (tag n : Nat), s.admission 0x0110 c k = some (u, a) ∧
        firstFault .slot (psChecks u a.b) = none ∧ field a.b 24 1 = 1 ∧ field a.b 26 1 ≠ 0 ∧ u.power.next = some (p, tag, n))
    ∧ (∃ (s u : State) (c : Fin 4) (k : Fin 1024) (a : Adm) (st : Status) (d : BitVec 32), s.admission 0x0110 c k = some (u, a) ∧ mbCmd a.b ≠ 1 ∧
        firstFault .slot (psChecks u a.b) = some (st, d))
    ∧ (∃ (s u : State) (c : Fin 4) (k : Fin 1024) (a : Adm), s.admission 0x0111 c k = some (u, a) ∧ c.val ≤ 1 ∧ field a.b 24 8 % 64 = 0 ∧
        (u.port c).linkUp = true) :=
  ⟨⟨withSlot 0x0110 0 [(24, 1), (25, 8), (28, 1)], _, 0, 0, _, rfl, by decide, by decide, by decide⟩,
  ⟨withSlot 0x0110 0 [], _, 0, 0, _, rfl, by decide, by decide, by decide⟩,
  ⟨withSlot 0x0110 0 [(24, 1), (25, 8), (26, 1), (28, 1), (40, 0xFF), (41, 0xFF)], _, 0, 0, _, rfl, by decide, by decide, by decide, by decide⟩,
  ⟨{ withSlot 0x0110 0 [(24, 1), (25, 8), (26, 1), (28, 1), (40, 0xFF), (41, 0xFF)] with power := { next := some (none, 9, 0) } }, _, 0, 0, _, none, 9, 0, rfl, by decide, by decide, by decide, by decide⟩,
  ⟨withSlot 0x0110 0 [(24, 2)], _, 0, 0, _, _, _, rfl, by decide, rfl⟩,
  ⟨withSlot 0x0111 0 [], _, 0, 0, _, rfl, by decide, by decide, by decide⟩⟩

theorem witness_Boundaries :
    (∃ s : State, s.boundaryNow = true) ∧ (∃ s : State, s.boundaryNow = false) ∧ (∃ s : State, s.time.lastBoundary = some s.time.now)
    ∧ (∃ (s : State) (w : BitVec 16), s.time.running = true ∧ s.atBoundary = true ∧ (s.commitSched.checkFallback.placeSlot).governed w.toNat = w.toNat ∧
        w.toNat < (s.commitSched.checkFallback.placeSlot).effectiveCeiling ∧ (s.commitSched.checkFallback.placeSlot).lowerComes = false)
    ∧ (∃ (s v : State) (p : PowerSched), v = s.commitSched.checkFallback.placeSlot ∧ s.time.running = true ∧ s.atBoundary = true ∧ v.power.sched = some p ∧
        v.power.inputW.toNat - p.rampW.toNat * ((v.now - v.power.readAt) / 1000) ≤ v.powerBound)
    ∧ (∃ s : State, s.atBoundary = false)
    ∧ (∃ s : State, (derating s.fuses).2.2 ≤ s.clock10 ∧ s.clock10 ≤ 10 * s.fuses.clockMhz) :=
  ⟨⟨{ live with time := { running := true } }, by decide⟩, ⟨live, by decide⟩, ⟨{ live with time := { running := true, lastBoundary := some 0 } }, by decide⟩,
  ⟨{ live with time := { running := true, now := 4096 } }, 100, by decide⟩,
  ⟨{ live with time := { running := true, now := 4096 }, power := { sched := some ⟨8, 1, 0, [(0, 0xFFFF)]⟩ } }, _, _, rfl, rfl, by decide, rfl, by decide⟩,
  ⟨{ live with time := { running := true, now := 4095 } }, by decide⟩, ⟨live, by decide⟩⟩

theorem witness_HeatCommands :
    (∃ (s u : State) (c : Fin 4) (k : Fin 1024) (a : Adm), s.admission 0x0200 c k = some (u, a) ∧ field a.b 24 1 ≤ 1 ∧ 1000 ≤ field a.b 26 2 ∧ field a.b 26 2 ≤ 8000)
    ∧ (∃ (s u : State) (c : Fin 4) (k : Fin 1024) (a : Adm), s.admission 0x0201 c k = some (u, a) ∧ firstFault .slot (sensorChecks u a.b) = none)
    ∧ (∃ (s u : State) (c : Fin 4) (k : Fin 1024) (a : Adm), s.admission 0x0202 c k = some (u, a) ∧ firstFault .slot (sensorChecks u a.b) = none ∧
        ∀ i ∈ sensorsNamed a.b, (u.sensor i).implausible u.thermal.inlet = false)
    ∧ (∃ (s u : State) (c : Fin 4) (k : Fin 1024) (a : Adm) (i : Nat), s.admission 0x0202 c k = some (u, a) ∧ firstFault .slot (sensorChecks u a.b) = none ∧
        i ∈ sensorsNamed a.b ∧ (u.sensor i).implausible u.thermal.inlet = true)
    ∧ (∃ (s u : State) (c : Fin 4) (k : Fin 1024) (a : Adm), s.admission 0x0204 c k = some (u, a) ∧ field a.b 24 1 ≤ 100)
    ∧ (∃ (s u : State) (c : Fin 4) (k : Fin 1024) (a : Adm), s.admission 0x0210 c k = some (u, a) ∧ c.val ≤ 1 ∧ field a.b 24 8 % 64 = 0 ∧ field a.b 32 4 ≤ 92160 ∧
        field a.b 32 4 = 0)
    ∧ (∃ (s u : State) (c : Fin 4) (k : Fin 1024) (a : Adm), s.admission 0x0210 c k = some (u, a) ∧ c.val ≤ 1 ∧ field a.b 24 8 % 64 = 0 ∧ field a.b 32 4 ≤ 92160 ∧
        field a.b 32 4 ≠ 0 ∧ (u.port c).linkUp = true)
    ∧ (∃ (s u : State) (c : Fin 4) (k : Fin 1024) (a : Adm), s.admission 0x0203 c k = some (u, a) ∧ u.mayClear = true)
    ∧ (∃ (s u : State) (c : Fin 4) (k : Fin 1024) (a : Adm), s.admission 0x0203 c k = some (u, a) ∧ u.mayClear = false) :=
  ⟨⟨withSlot 0x0200 0 [(24, 1), (26, 0xE8), (27, 3)], _, 0, 0, _, rfl, by decide, by decide, by decide⟩,
  ⟨withSlot 0x0201 0 [(25, 9), (26, 71), (27, 2)], _, 0, 0, _, rfl, by decide⟩,
  ⟨withSlot 0x0202 0 [(25, 9)], _, 0, 0, _, rfl, by decide, by decide⟩,
  ⟨{ withSlot 0x0202 0 [(25, 9)] with thermal := { sensors := [(1296, { recent := [900, 0, 0, 0, 0, 0, 0, 0, 0, 0, 800] })] } }, _, 0, 0, _, 1296, rfl, by decide, by decide, by decide⟩,
  ⟨withSlot 0x0204 0 [(24, 100)], _, 0, 0, _, rfl, by decide⟩, ⟨withSlot 0x0210 0 [], _, 0, 0, _, rfl, by decide, by decide, by decide, by decide⟩,
  ⟨withSlot 0x0210 0 [(33, 0x68), (34, 1)], _, 0, 0, _, rfl, by decide, by decide, by decide, by decide, by decide⟩,
  ⟨{ withSlot 0x0203 0 [] with thermal := { latch := some ⟨2, false, false, 0xFF, 0xFF, 0xFF, 0, 0, false, 0, false, 0⟩, flow := some 8000, inlet := some 800, outlet := some 1040 } },
    _, 0, 0, _, rfl, by decide⟩, ⟨withSlot 0x0203 0 [], _, 0, 0, _, rfl, by decide⟩⟩

theorem witness_HeatSensing :
    (∃ s : State, s.lanternOn = true ∧ s.thermal.lastSample + 100000 ≤ s.now) ∧ (∃ s : State, s.now < s.thermal.lastSample + 100000)
    ∧ (∃ (s : State) (t : Fin 16) (l : Fin 10) (x : Fin 72) (since : Nat), look? s.thermal.disagree (pointOf t l x) = some (since, false) ∧ since + 100000000 < s.now)
    ∧ (∃ (s : State) (t : Fin 16) (l : Fin 10) (x : Fin 72) (since : Nat) (counted : Bool), look? s.thermal.disagree (pointOf t l x) = some (since, counted) ∧
        (counted = true ∨ s.now ≤ since + 100000000))
    ∧ (∃ (s : State) (t : Nat), s.thermal.agreeSince = some t ∧ t + 10000000000 ≤ s.now)
    ∧ (∃ (s : State) (t : Fin 16), s.hasTower t = true ∧ s.heatOn = true ∧ look s.thermal.lastEstimate t 0 + 64 ≤ s.time.boundaries)
    ∧ (∃ s : State, s.heatOn = true ∧ s.thermal.lastThrottle + 1000000 ≤ s.now)
    ∧ (∃ (s : State) (t : Fin 16) (x : Rat), s.hottestCompute t = some x ∧ s.hasTower t = true ∧ s.heatOn = true ∧ look s.thermal.lastSwing t 0 + 10000000 ≤ s.now)
    ∧ (∃ s : State, s.lanternOn = true ∧ s.thermal.wearAt + 600000000000 ≤ s.now)
    ∧ (∃ (layer : Nat) (old : Level) (t : Rat), old ≠ .shutdown ∧ ((thresholds layer).2.2 : Rat) ≤ t)
    ∧ (∃ (layer : Nat) (t : Rat), t < ((thresholds layer).2.2 : Rat) ∧ ((thresholds layer).2.1 : Rat) - 3 ≤ t)
    ∧ (∃ (layer : Nat) (t : Rat), t < ((thresholds layer).2.2 : Rat) ∧ t < ((thresholds layer).1 : Rat) - 4 ∧ t < ((thresholds layer).2.1 : Rat) - 3) :=
  ⟨⟨{ live with now := 100000 }, by decide⟩, ⟨live, by decide⟩,
  ⟨{ live with now := 100000001, thermal := { disagree := [(pointOf 3 9 71, (0, false))] } }, 3, 9, 71, 0, by decide⟩,
  ⟨{ live with now := 100000000, thermal := { disagree := [(pointOf 3 9 71, (0, false))] } }, 3, 9, 71, 0, false, by decide⟩,
  ⟨{ live with now := 10000000000, thermal := { agreeSince := some 0 } }, 0, by decide⟩,
  ⟨{ live with time := { boundaries := 64 } }, 15, by decide⟩, ⟨{ live with now := 1000000 }, by decide⟩,
  ⟨{ live with now := 10000000, thermal := { sensors := [(2 * pointOf 0 9 0, { reading := some 320 })] } }, 0, _, rfl, by decide, by decide, by decide⟩,
  ⟨{ live with now := 600000000000 }, by decide⟩, ⟨0, .normal, 115, by decide, by norm_num [thresholds]⟩,
  ⟨9, 97, by norm_num [thresholds], by norm_num [thresholds]⟩, ⟨4, 20, by norm_num [thresholds], by norm_num [thresholds], by norm_num [thresholds]⟩⟩

theorem witness_Shutdowns :
    (∃ s : State, s.latchStands = false) ∧ (∃ s : State, s.latchStands = true)
    ∧ (∃ (s : State) (d : Shutdown), s.thermal.latch = some d ∧ d.cleared = false ∧ s.heatOn = true ∧ (d.written = true ∨ d.at' + 20000000 ≤ s.now))
    ∧ (∃ (s : State) (d : Shutdown), s.thermal.latch = some d ∧ d.written = false ∧ s.now < d.at' + 20000000)
    ∧ (∃ (s : State) (d : Shutdown), s.thermal.latch = some d ∧ d.cleared = false ∧ s.thermal.dropped = true ∧
        s.clusters.any (fun h => (s.railsOf h).vser) = true ∧ d.at' + 1000000000 ≤ s.now)
    ∧ (∃ (s : State) (d : Shutdown), s.thermal.latch = some d ∧ s.now < d.at' + 1000000000)
    ∧ (∃ (s : State) (tag t : Nat), s.lantern.clearing = some (tag, t) ∧ (s.recordGone tag = true ∨ t + 2000000 ≤ s.now))
    ∧ (∃ (s : State) (tag t : Nat), s.lantern.clearing = some (tag, t) ∧ s.recordGone tag = false ∧ s.now < t + 2000000) :=
  ⟨⟨live, by decide⟩, ⟨latched 0 false, by decide⟩, ⟨latched 20000000 false, _, rfl, by decide, by decide, by decide⟩,
  ⟨latched 19999999 false, _, rfl, by decide, by decide⟩,
  ⟨{ latched 1000000000 true with board := { railsE := { vser := true } } }, _, rfl, by decide, by decide, by decide, by decide⟩,
  ⟨latched 999999999 true, _, rfl, by decide⟩,
  ⟨{ live with lantern := { stage := 0xF, clearing := some (7, 0) } }, 7, 0, by decide⟩,
  ⟨{ live with lantern := { stage := 0xF, clearing := some (0, 0) }, warden := { tags := [cmd0 []] } }, 0, 0, by decide⟩⟩

theorem witness_TrayPolls :
    (∃ (s : State) (h : Fin 2), s.lanternHalf h = true ∧ s.pollDue h = true) ∧ (∃ (s : State) (h : Fin 2), s.pollDue h = false)
    ∧ (∃ (s : State) (h : Fin 2) (t : Nat), look? s.thermal.lostPoll h = some t ∧ s.lanternHalf h = true ∧ t + 200000 ≤ s.now)
    ∧ (∃ (s : State) (h : Fin 2) (t : Nat), look? s.thermal.lostPoll h = some t ∧ s.now < t + 200000)
    ∧ (∃ b : List Byte, trayValid b = false) ∧ (∃ s : State, 2 ≤ s.thermal.missed ∧ s.heatOn = false)
    ∧ (∃ (s : State) (t : Nat) (older : List (Nat × Nat)), s.thermal.flows = (t, 0) :: older)
    ∧ (∃ (s : State) (t f : Nat) (i o : Int), s.power.above25Since = some t ∧ s.thermal.inlet = some i ∧ s.thermal.outlet = some o ∧ s.thermal.flow = some f ∧
        s.heatOn = true ∧ t + 10000000000 ≤ s.now ∧ 0 < f ∧ 3 + s.calRise f * 3 / 10 < |deg (o - i) - s.calRise f|)
    ∧ (∃ s : State, s.power.above25Since = none) :=
  ⟨⟨{ live with board := { railsE := { vaon := true } }, now := 5000000, thermal := { lastPoll := [(0, 2500000), (1, 0)] } }, 1, by decide⟩,
  ⟨{ live with now := 4999999, thermal := { lastPoll := [(0, 0)] } }, 0, by decide⟩,
  ⟨{ live with board := { railsW := { vaon := true } }, now := 200000, thermal := { lostPoll := [(0, 0)] } }, 0, 0, by decide⟩,
  ⟨{ live with now := 199999, thermal := { lostPoll := [(0, 0)] } }, 0, 0, by decide⟩, ⟨[], by decide⟩,
  ⟨{ State.reset with thermal := { missed := 2 } }, by decide⟩, ⟨{ live with thermal := { flows := [(0, 0)] } }, 0, [], rfl⟩,
  ⟨{ live with now := 10000000000, power := { above25Since := some 0, inputW := 2400 }, thermal := { inlet := some 320, outlet := some 320, flow := some 2700 } },
    0, 2700, 320, 320, rfl, rfl, rfl, rfl, by decide, by decide, by decide, by
      have h : (2400 : BitVec 16).toNat = 2400 := rfl
      norm_num [State.calRise, State.density, State.heatCap, deg, live, State.reset, h]⟩, ⟨live, rfl⟩⟩

theorem witness_Resets :
    (∃ (s u : State) (c : Fin 4) (k : Fin 1024) (a : Adm), s.admission 0x0401 c k = some (u, a) ∧ field a.b 25 1 ≤ 1 ∧ field a.b 24 1 = 0)
    ∧ (∃ (s u : State) (c : Fin 4) (k : Fin 1024) (a : Adm), s.admission 0x0401 c k = some (u, a) ∧ field a.b 25 1 ≤ 1 ∧ field a.b 24 1 = 2)
    ∧ (∃ (s : State) (j : ResetJob) (g : Nat), s.lantern.job = some j ∧ s.computeReset = true ∧ j.kind = 0 ∧ s.warden.strikes = [] ∧ j.tag = some g)
    ∧ (∃ s : State, s.warden.strikes ≠ [])
    ∧ (∃ (s : State) (j : ResetJob), s.lantern.job = some j ∧ 1 ≤ j.kind ∧ s.board.resetLow = false ∧ (s.recordsGone = true ∨ j.since + 2000000 ≤ s.now))
    ∧ (∃ (s : State) (j : ResetJob), s.lantern.job = some j ∧ s.recordsGone = false ∧ s.now < j.since + 2000000)
    ∧ (∃ (s : State) (t : Nat), s.lantern.railsDropped = some t ∧ s.lantern.stage = 0 ∧ s.board.inputOn = true ∧ t + 200000000 ≤ s.now)
    ∧ (∃ (s : State) (t : Nat), s.lantern.railsDropped = some t ∧ s.lantern.stage = 0 ∧ s.board.inputOn = true ∧ s.now < t + 200000000)
    ∧ (∃ s : State, s.board.resetLow = true)
    ∧ (∃ s : State, s.board.resetLow = false ∧ s.lantern.stage ≠ 0 ∧ s.coldWaits = false)
    ∧ (∃ s : State, s.board.resetLow = false ∧ s.lantern.stage = 0) ∧ (∃ s : State, s.board.resetLow = false ∧ s.coldWaits = true)
    ∧ (∃ s : State, s.board.resetLow = true ∧ s.board.waitingReset = false ∧ s.lantern.stage ≠ 0 ∧ s.coldWaits = false ∧ s.lantern.job = none)
    ∧ (∃ (s : State) (j : ResetJob), s.board.resetLow = true ∧ s.board.waitingReset = false ∧ s.lantern.stage ≠ 0 ∧ s.coldWaits = false ∧ s.lantern.job = some j)
    ∧ (∃ s : State, s.board.resetLow = true ∧ s.board.waitingReset = true) :=
  ⟨⟨withSlot 0x0401 0 [], _, 0, 0, _, rfl, by decide, by decide⟩, ⟨withSlot 0x0401 0 [(24, 2), (25, 1)], _, 0, 0, _, rfl, by decide, by decide⟩,
  ⟨withJob 0xB { kind := 0, full := false, tag := some 3, since := 0 }, _, 3, rfl, by decide, rfl, rfl, rfl⟩,
  ⟨{ live with warden := { strikes := [{ tags := [], slotCount := 1, own := none }] } }, by decide⟩,
  ⟨withJob 0xF { kind := 1, full := false, tag := none, since := 0 }, _, rfl, by decide, by decide, by decide⟩,
  ⟨{ withJob 0xF { kind := 1, full := false, tag := none, since := 0 } with warden := { tags := [cmd0 []] } }, _, rfl, by decide, by decide⟩,
  ⟨{ live with now := 200000000, board := { inputOn := true }, lantern := { stage := 0, railsDropped := some 0 } }, 0, by decide⟩,
  ⟨{ live with now := 199999999, board := { inputOn := true }, lantern := { stage := 0, railsDropped := some 0 } }, 0, by decide⟩,
  ⟨{ live with board := { resetLow := true } }, rfl⟩, ⟨live, by decide⟩, ⟨State.reset, by decide⟩,
  ⟨{ live with lantern := { stage := 2, kind := 0 } }, by decide⟩, ⟨{ live with board := { resetLow := true } }, by decide⟩,
  ⟨{ withJob 0xF { kind := 2, full := true, tag := none, since := 0 } with board := { resetLow := true } }, _, rfl, rfl, by decide, by decide, rfl⟩,
  ⟨{ live with board := { resetLow := true, waitingReset := true } }, by decide⟩⟩

theorem witness_WardenWatch :
    (∃ (s : State) (h : Fin 2) (x : Fin 256) (n : Nat), x.val < 32 ∧ (s.ic h).pending.contains x.val = true ∧
        (∀ y ∈ (s.ic h).pending, x.val ≤ y) ∧ s.coresHeld h = false ∧ (s.ic h).fastTarget = some n)
    ∧ (∃ (s : State) (h : Fin 2) (x : Fin 256) (n : Nat), 32 ≤ x.val ∧ (s.ic h).pending.contains x.val = true ∧ s.coresHeld h = false ∧
        (∀ y ∈ (s.ic h).pending, y < 32 ∨ x.val ≤ y) ∧ (s.ic h).order.find? (fun n => (s.ic h).eligible n) = some n)
    ∧ (∃ (s : State) (h : Fin 2) (x : Fin 256) (n : Nat), 32 ≤ x.val ∧ (s.ic h).wakes x = true ∧ (s.ic h).pending.contains x.val = true ∧ s.coresHeld h = false ∧
        (∀ k, k < 8 → (s.ic h).eligible k = false) ∧ (s.ic h).order.find? (fun n => (s.ic h).enabled n) = some n)
    ∧ (∃ (s : State) (h : Fin 2) (x : Fin 256), x.val < 32 ∧ (s.ic h).wakes x = true ∧ (s.ic h).pending.contains x.val = true ∧ s.coresHeld h = false ∧
        (s.ic h).enabled (s.ic h).fastCore.val = true ∧ (s.ic h).awake (s.ic h).fastCore.val = false)
    ∧ (∃ (s : State) (h : Fin 2) (k : Fin 8), (s.ic h).enabled k = true ∧ (s.ic h).awake k = false ∧ s.coresHeld h = false)
    ∧ (∃ (s : State) (h : Fin 2), s.clusters.contains h.val = true ∧ s.trust.loaded = true ∧ s.coresHeld h = false)
    ∧ (∃ (s : State) (h : Fin 2), s.watched h = true ∧ (s.wdog h).warned = false ∧ (s.wdog h).lastBeat + 1000000 * (s.wdog h).periodMs / 2 ≤ s.now)
    ∧ (∃ (s u : State) (c : Fin 4) (k : Fin 1024) (a : Adm), s.admission 0x0601 c k = some (u, a) ∧ 20 ≤ field a.b 24 2 ∧ field a.b 24 2 ≤ 1000)
    ∧ (∃ (s : State) (h : Fin 2), s.watched h = true ∧ (s.wdog h).lastBeat + 1000000 * (s.wdog h).periodMs ≤ s.now ∧ (s.recentResets h).length + 1 ≠ 3 ∧
        s.trust.slotIn .trial = none)
    ∧ (∃ (s : State) (h : Fin 2), s.watched h = true ∧ (s.wdog h).lastBeat + 1000000 * (s.wdog h).periodMs ≤ s.now ∧ (s.recentResets h).length + 1 = 3 ∧
        s.trust.slotIn .trial = none)
    ∧ (∃ (s : State) (h : Fin 2), s.now < (s.wdog h).lastBeat + 1000000 * (s.wdog h).periodMs)
    ∧ (∃ (s : State) (h : Fin 2), s.clusters.contains h.val = true ∧ (s.wdog h).inReset = true)
    ∧ (∃ s : State, s.twin = true ∧ s.geo.mode = 0 ∧ s.lantern.stage8 = true ∧ s.lantern.halfLost = false ∧ s.lantern.job = none ∧ s.seamSilent = true)
    ∧ (∃ s : State, s.seamSilent = false) :=
  ⟨⟨{ live with warden := { ics := [(0, icOf [31] 0xFF)] } }, 0, 31, 0, by decide⟩,
  ⟨{ live with warden := { ics := [(1, icOf [3, 32, 255] 0xFF)] } }, 1, 32, 0, by decide⟩,
  ⟨{ live with warden := { ics := [(0, icOf [35] 0)] } }, 0, 35, 0, by decide⟩,
  ⟨{ live with warden := { ics := [(0, icOf [3] 0)] } }, 0, 3, by decide⟩,
  ⟨{ live with warden := { ics := [(0, icOf [] 0x7F)] } }, 0, 7, by decide⟩, ⟨live, 1, by decide⟩,
  ⟨{ live with now := 1000000000 }, 0, by decide⟩, ⟨withSlot 0x0601 0 [(24, 20)], _, 0, 0, _, rfl, by decide, by decide⟩,
  ⟨{ live with now := 1000000000 }, 0, by decide⟩, ⟨{ live with now := 1000000000, warden := { wdogs := [(0, { resets := [7, 8] })] } }, 0, by decide⟩,
  ⟨live, 0, by decide⟩, ⟨{ live with warden := { wdogs := [(1, { inReset := true })] } }, 1, by decide⟩,
  ⟨{ live with now := 10000000, lantern := { stage := 0xF, stage8 := true }, board := { railsW := { vbaseSb := true } }, seam := { mods := [(0, { sideband := false })] } }, by decide⟩, ⟨live, by decide⟩⟩

theorem witness_EventRecord :
    (∃ (s : State) (ev : Event) (r : List Event), s.lantern.stage ≠ 0 ∧ s.events.lost = 0 ∧ s.events.queue = ev :: r ∧
        s.events.window ev.kind ev.unit = none)
    ∧ (∃ (s : State) (ev : Event) (r : List Event) (w : RepeatWin), s.lantern.stage ≠ 0 ∧ s.events.lost = 0 ∧ s.events.queue = ev :: r ∧
        s.events.window ev.kind ev.unit = some w ∧ s.now < w.closes ∧ w.written < 16)
    ∧ (∃ (s : State) (ev : Event) (r : List Event) (w : RepeatWin), s.lantern.stage ≠ 0 ∧ s.events.lost = 0 ∧ s.events.queue = ev :: r ∧
        s.events.window ev.kind ev.unit = some w ∧ s.now < w.closes ∧ 16 ≤ w.written)
    ∧ (∃ s : State, s.lantern.stage ≠ 0 ∧ s.events.lost = 0 ∧ s.events.queue = []) ∧ (∃ s : State, s.lantern.stage ≠ 0 ∧ 0 < s.events.lost)
    ∧ (∃ (s : State) (kind : BitVec 16) (src : Nat) (w : RepeatWin) (ev : Event), s.events.window kind src = some w ∧ s.lantern.stage ≠ 0 ∧ w.closes ≤ s.now ∧ w.last = some ev)
    ∧ (∃ (s : State) (kind : BitVec 16) (src : Nat) (w : RepeatWin), s.events.window kind src = some w ∧ s.lantern.stage ≠ 0 ∧ s.now < w.closes)
    ∧ (∃ (s u : State) (c : Fin 4) (k : Fin 1024) (a : Adm), s.admission 0x0600 c k = some (u, a) ∧ c.val ≤ 1 ∧ 0 < field a.b 28 4 ∧ field a.b 28 4 ≤ 262144 ∧
        field a.b 32 8 % 64 = 0 ∧ (u.port c).linkUp = true)
    ∧ (∃ (s : State) (p : Fin 2) (t : Nat), (s.port p).v0Last = some t ∧ s.hostRole p = true ∧ (s.port p).v0Deferred = true ∧ t + 10000 ≤ s.now)
    ∧ (∃ (s : State) (p : Fin 2) (t : Nat), (s.port p).v0Last = some t ∧ s.hostRole p = true ∧ (s.port p).v0Deferred = true ∧ s.now < t + 10000) :=
  ⟨⟨{ live with events := { queue := [ev0] } }, _, _, by decide, rfl, rfl, rfl⟩,
  ⟨{ live with events := { queue := [ev0], windows := [{ kind := 0x0301, unit := 3, closes := 1, written := 15, suppressed := 0, last := none }] } }, _, _, _, by decide, rfl, rfl, rfl, by decide, by decide⟩,
  ⟨{ live with events := { queue := [ev0], windows := [{ kind := 0x0301, unit := 3, closes := 1, written := 16, suppressed := 0, last := none }] } }, _, _, _, by decide, rfl, rfl, rfl, by decide, by decide⟩,
  ⟨live, by decide⟩, ⟨{ live with events := { lost := 5 } }, by decide⟩,
  ⟨{ live with now := 1, events := { windows := [{ kind := 0x0301, unit := 3, closes := 1, written := 16, suppressed := 2, last := some ev0 }] } }, 0x0301, 3, _, ev0, rfl, by decide, by decide, rfl⟩,
  ⟨{ live with events := { windows := [{ kind := 0x0301, unit := 3, closes := 1, written := 16, suppressed := 2, last := some ev0 }] } }, 0x0301, 3, _, rfl, by decide, by decide⟩,
  ⟨withSlot 0x0600 0 [(28, 1)], _, 0, 0, _, rfl, by decide, by decide, by decide, by decide, by decide⟩,
  ⟨{ live with now := 10000, ports := [(0, { linkUp := true, v0Last := some 0, v0Deferred := true })] }, 0, 0, by decide⟩,
  ⟨{ live with now := 9999, ports := [(0, { linkUp := true, v0Last := some 0, v0Deferred := true })] }, 0, 0, by decide⟩⟩

theorem witness_LinkCommands :
    (∃ (s u : State) (c : Fin 4) (k : Fin 1024) (a : Adm), s.admission 0x0300 c k = some (u, a) ∧ field a.b 24 4 < 2 ^ 18 ∧ (field a.b 30 2 < 4096 ∨ field a.b 30 2 = 0xFFFF) ∧
        field a.b 32 1 ≤ 1 ∧ field a.b 33 1 ≤ 1 ∧ ∀ n, n < 18 → bit (field a.b 24 4) n = true → u.hasSl n = true)
    ∧ (∃ (s u : State) (c : Fin 4) (k : Fin 1024) (a : Adm), s.admission 0x0303 c k = some (u, a) ∧ field a.b 24 1 ≤ 17 ∧ u.hasSl (field a.b 24 1) = true ∧
        (u.sl (field a.b 24 1)).state = .keyed ∧ (u.sl (field a.b 24 1)).present = true)
    ∧ (∃ (s u : State) (c : Fin 4) (k : Fin 1024) (a : Adm), s.admission 0x0302 c k = some (u, a) ∧ field a.b 24 2 ≤ 4095 ∧ field a.b 26 1 < 18 ∧ u.hasSl (field a.b 26 1) = true)
    ∧ (∃ (s u : State) (c : Fin 4) (k : Fin 1024) (a : Adm), s.admission 0x0301 c k = some (u, a) ∧ field a.b 24 1 ≤ 1 ∧ u.settings.lkFabricRoot = true ∧ u.links.job = none ∧ u.links.enumTag = none)
    ∧ (∃ (s u : State) (c : Fin 4) (k : Fin 1024) (a : Adm), s.admission 0x0301 c k = some (u, a) ∧ field a.b 24 1 ≤ 1 ∧ u.settings.lkFabricRoot = false)
    ∧ (∃ (s u : State) (c : Fin 4) (k : Fin 1024) (a : Adm), s.admission 0x0304 c k = some (u, a) ∧ field a.b 24 1 ≤ 15 ∧ field a.b 25 1 ≤ 3 ∧ field a.b 26 2 ≤ 4095 ∧ field a.b 25 1 = 0)
    ∧ (∃ (s u : State) (c : Fin 4) (k : Fin 1024) (a : Adm), s.admission 0x0304 c k = some (u, a) ∧ field a.b 24 1 ≤ 15 ∧ field a.b 25 1 ≤ 3 ∧ field a.b 26 2 ≤ 4095 ∧ field a.b 25 1 ≠ 0 ∧
        field a.b 32 8 % 4096 = 0 ∧ field a.b 40 8 = 0)
    ∧ (∃ (s u : State) (c : Fin 4) (k : Fin 1024) (a : Adm), s.admission 0x0304 c k = some (u, a) ∧ field a.b 24 1 ≤ 15 ∧ field a.b 25 1 ≤ 3 ∧ field a.b 26 2 = 0xFFFF ∧ field a.b 25 1 ≠ 0 ∧
        field a.b 32 8 % 4096 = 0 ∧ field a.b 40 8 % 4096 = 0 ∧ 0 < field a.b 40 8 ∧ field a.b 32 8 + field a.b 40 8 ≤ farBase ∧
        u.reachableRange (field a.b 32 8) (field a.b 40 8) = true ∧ u.rangeInPool (field a.b 32 8) (field a.b 40 8) = false ∧ u.trust.ranges = [])
    ∧ (∃ (s u : State) (c : Fin 4) (k : Fin 1024) (a : Adm), s.admission 0x0310 c k = some (u, a) ∧ c.val ≤ 1 ∧ field a.b 24 8 % 64 = 0 ∧ 0 < field a.b 32 2 ∧ field a.b 32 2 ≤ 896 ∧
        (u.port c).linkUp = true)
    ∧ (∃ (s u : State) (c : Fin 4) (k : Fin 1024) (a : Adm), s.admission 0x0320 c k = some (u, a) ∧ field a.b 24 1 ≤ 1 ∧ field a.b 25 1 ≤ 2 ∧ field a.b 26 2 ≤ 4095 ∧ field a.b 48 8 ≤ 2 ^ 40 ∧
        u.links.route (field a.b 26 2) ≠ 0x1F ∧ u.reachableRange (field a.b 32 8) (field a.b 48 8) = true ∧ field a.b 48 8 = 0)
    ∧ (∃ (s u : State) (c : Fin 4) (k : Fin 1024) (a : Adm), s.admission 0x0320 c k = some (u, a) ∧ field a.b 24 1 ≤ 1 ∧ field a.b 25 1 ≤ 2 ∧ field a.b 26 2 ≤ 4095 ∧ field a.b 48 8 ≤ 2 ^ 40 ∧
        u.links.route (field a.b 26 2) ≠ 0x1F ∧ u.reachableRange (field a.b 32 8) (field a.b 48 8) = true ∧ 0 < field a.b 48 8 ∧ u.rangeInPool (field a.b 32 8) (field a.b 48 8) = false ∧ u.trust.ranges = [])
    ∧ (∃ (s : State) (n : BitVec 16) (x : Xfer), s.xfer n = some x ∧ x.lastProgress + 10000000 ≤ s.now ∧ x.doneBytes < x.len)
    ∧ (∃ (s : State) (n : BitVec 16) (x : Xfer), s.xfer n = some x ∧ s.now < x.lastProgress + 10000000) :=
  ⟨⟨withSlot 0x0300 0 [(24, 0xFF), (25, 0xFF), (26, 3)], _, 0, 0, _, rfl, by decide, by decide, by decide, by decide, by decide⟩,
  ⟨{ withSlot 0x0303 0 [(24, 17)] with links := { ports := [(17, slUp)] } }, _, 0, 0, _, rfl, by decide, by decide, by decide, by decide⟩,
  ⟨withSlot 0x0302 0 [(24, 0xFF), (25, 0x0F), (26, 17)], _, 0, 0, _, rfl, by decide, by decide, by decide⟩,
  ⟨{ withSlot 0x0301 0 [(24, 1)] with settings := { lkFabricRoot := true } }, _, 0, 0, _, rfl, by decide, by decide, by decide, by decide⟩,
  ⟨withSlot 0x0301 0 [(24, 1)], _, 0, 0, _, rfl, by decide, by decide⟩,
  ⟨withSlot 0x0304 0 [(24, 15)], _, 0, 0, _, rfl, by decide, by decide, by decide, by decide⟩,
  ⟨withSlot 0x0304 0 [(25, 3)], _, 0, 0, _, rfl, by decide, by decide, by decide, by decide, by decide, by decide⟩,
  ⟨withSlot 0x0304 0 [(25, 1), (26, 0xFF), (27, 0xFF), (41, 0x10)], _, 0, 0, _, rfl, by decide, by decide, by decide, by decide, by decide, by decide, by decide, by decide, by decide,
    by decide, by decide⟩,
  ⟨withSlot 0x0310 0 [(32, 0x80), (33, 3)], _, 0, 0, _, rfl, by decide, by decide, by decide, by decide, by decide⟩,
  ⟨{ withSlot 0x0320 0 [(24, 1)] with links := { routes := [(0, 5)] } }, _, 0, 0, _, rfl, by decide, by decide, by decide, by decide, by decide, by decide, by decide⟩,
  ⟨{ withSlot 0x0320 0 [(25, 2), (49, 1)] with links := { routes := [(0, 5)] } }, _, 0, 0, _, rfl, by decide, by decide, by decide, by decide, by decide, by decide, by decide, by decide, by decide⟩,
  ⟨{ withLinks { xfers := [xfer0] } with now := 10000000 }, 7, _, rfl, by decide, by decide⟩, ⟨{ withLinks { xfers := [xfer0] } with now := 9999999 }, 7, _, rfl, by decide⟩⟩

theorem witness_PortTraining :
    (∃ (s : State) (p : Fin 18), (s.sl p).state = .keyed) ∧ (∃ (s : State) (p : Fin 18), (s.sl p).state = .training) ∧ (∃ (s : State) (p : Fin 18), (s.sl p).state = .failed)
    ∧ (∃ (s : State) (p : Fin 18), s.hasSl p = true ∧ s.lantern.stage8 = true ∧ (s.sl p).state = .down ∧ (s.sl p).present = true ∧ (s.sl p).failedLanes ≠ 0xF)
    ∧ (∃ (s : State) (p : Fin 18), s.hasSl p = true ∧ (s.sl p).state = .training ∧ lanesFor 0xE = 2)
    ∧ (∃ (s : State) (p : Fin 18) (good : BitVec 4), s.hasSl p = true ∧ (s.sl p).state = .training ∧ lanesFor good = 0 ∧ (s.sl p).lanes = 0)
    ∧ (∃ (s : State) (p : Fin 18), s.hasSl p = true ∧ (s.sl p).state = .training ∧ (s.sl p).trainStart + 150000000 ≤ s.now)
    ∧ (∃ (s : State) (p : Fin 18), s.hasSl p = true ∧ (s.sl p).state = .training ∧ s.now < (s.sl p).trainStart + 150000000)
    ∧ (∃ (s : State) (p : Fin 18), s.hasSl p = true ∧ (s.sl p).state = .keyed ∧ (s.sl p).lanes = 4 ∧ (s.sl p).step5 = false ∧ lanesFor (~~~((s.sl p).failedLanes ||| BitVec.ofNat 4 (1 <<< 3))) = 2)
    ∧ (∃ (s : State) (p : Fin 18), s.hasSl p = true ∧ (s.sl p).state = .keyed ∧ (s.sl p).lanes = 4 ∧ (s.sl p).step5 = false ∧ lanesFor (~~~((s.sl p).failedLanes ||| BitVec.ofNat 4 (1 <<< 3))) = 0)
    ∧ (∃ (s t : State) (p : Fin 18) (h : FlitHdr), s.accepted p h .idle = some t) ∧ (∃ (s t : State) (p : Fin 18) (h : FlitHdr), s.accepted p h .fc = some t)
    ∧ (∃ (s : State) (p : Fin 18), s.kxAble p = true ∧ (s.sl p).ackDue = true) ∧ (∃ (s : State) (p : Fin 18), (s.sl p).ackDue = false ∧ (s.sl p).owed = [])
    ∧ (∃ (s : State) (p : Fin 18) (l : Fin 4) (b : List Nat), s.kxAble p = true ∧ (s.sl p).active l = true ∧
        b = s.now :: (look (s.sl p).badWords l.val []).filter (fun t => decide (s.now < t + 1000000)) ∧ b.length ≤ 16)
    ∧ (∃ (s : State) (p : Fin 18) (l : Fin 4) (b : List Nat), s.kxAble p = true ∧ (s.sl p).active l = true ∧
        b = s.now :: (look (s.sl p).badWords l.val []).filter (fun t => decide (s.now < t + 1000000)) ∧ 16 < b.length)
    ∧ (∃ (s : State) (p : Fin 18) (l : Fin 4), (s.sl p).active l = false)
    ∧ (∃ (s t : State) (p : Fin 18) (h : FlitHdr), reservedFlit 9 0 = true ∧ s.accepted p h { FlitKind.fc with unheeded := true } = some t)
    ∧ (∃ (s t : State) (p : Fin 18) (h : FlitHdr), reservedFlit 6 3 = true ∧ s.accepted p h { FlitKind.delay with unheeded := true } = some t)
    ∧ (∃ (s t : State) (p : Fin 18) (h : FlitHdr), reservedFlit 4 6 = true ∧ s.accepted p h (.enum false) = some t)
    ∧ (∃ (s : State) (p : Fin 18) (x : Kx), reservedFlit 7 6 = true ∧ s.kxAble p = true ∧ (s.sl p).kx = some x) :=
  ⟨⟨withLinks { ports := [(17, slUp)] }, 17, by decide⟩, ⟨withLinks { ports := [(0, { state := .training })] }, 0, by decide⟩,
  ⟨withLinks { ports := [(0, { state := .failed })] }, 0, by decide⟩,
  ⟨{ withLinks { ports := [(9, { state := .down, present := true })] } with lantern := { stage := 0xF, stage8 := true } }, 9, by decide⟩,
  ⟨withLinks { ports := [(0, { state := .training, lanes := 4 })] }, 0, by decide⟩, ⟨withLinks { ports := [(0, { state := .training })] }, 0, 0x6, by decide⟩,
  ⟨{ withLinks { ports := [(0, { state := .training })] } with now := 150000000 }, 0, by decide⟩,
  ⟨{ withLinks { ports := [(0, { state := .training })] } with now := 149999999 }, 0, by decide⟩, ⟨withLinks { ports := [(5, slUp)] }, 5, by decide⟩, ⟨withLinks { ports := [(5, { slUp with failedLanes := 1 })] }, 5, by decide⟩,
  ⟨withLinks { ports := [(5, slUp)] }, _, 5, hdr0, rfl⟩, ⟨withLinks { ports := [(5, slUp)] }, _, 5, hdr0, rfl⟩,
  ⟨withLinks { ports := [(5, { slUp with ackDue := true })] }, 5, by decide⟩, ⟨withLinks { ports := [(5, slUp)] }, 5, by decide⟩,
  ⟨withLinks { ports := [(5, slUp)] }, 5, 3, _, by decide, by decide, rfl, by decide⟩,
  ⟨withLinks { ports := [(5, { slUp with badWords := [(3, List.replicate 16 0)] })] }, 5, 3, _, by decide, by decide, rfl, by decide⟩,
  ⟨withLinks { ports := [(5, { slUp with lanes := 2 })] }, 5, 3, by decide⟩, ⟨withLinks { ports := [(5, slUp)] }, _, 5, hdr0, by decide, rfl⟩,
  ⟨withLinks { ports := [(5, slUp)] }, _, 5, hdr0, by decide, rfl⟩, ⟨withLinks { ports := [(5, slUp)] }, _, 5, hdr0, by decide, rfl⟩, ⟨withKx kx0, 0, _, by decide, by decide, rfl⟩⟩

theorem witness_KeyExchange :
    (∃ (s : State) (p : Fin 18) (x : Kx), s.kxAble p = true ∧ (s.sl p).kx = some x ∧ x.peerHello = none)
    ∧ (∃ (s : State) (p : Fin 18) (x : Kx) (r ch : List Byte), s.kxAble p = true ∧ (s.sl p).kx = some x ∧ x.peerHello = some (r, ch) ∧ x.kemKey = none)
    ∧ (∃ (s : State) (p : Fin 18) (x : Kx), s.kxAble p = true ∧ (s.sl p).kx = some x ∧ x.kemKey.isSome = true ∧ x.kemCt = none)
    ∧ (∃ (s : State) (p : Fin 18) (x : Kx) (r ch : List Byte), s.kxAble p = true ∧ (s.sl p).kx = some x ∧ x.peerHello = some (r, ch) ∧ x.kemCt.isSome = true ∧ x.finGot = false)
    ∧ (∃ (s : State) (p : Fin 18) (x : Kx), s.kxAble p = true ∧ (s.sl p).kx = some x ∧ x.started + 1000000000 ≤ s.now)
    ∧ (∃ (s : State) (p : Fin 18) (x : Kx), s.kxAble p = true ∧ (s.sl p).kx = some x ∧ s.now < x.started + 1000000000)
    ∧ (∃ (s : State) (p : Fin 18) (t : Nat), s.hasSl p = true ∧ (s.sl p).state = .upClear ∧ (s.sl p).kx = none ∧ (s.sl p).kxFailedAt = some t ∧ t + 10000000000 ≤ s.now)
    ∧ (∃ (s : State) (p : Fin 18) (t : Nat), s.hasSl p = true ∧ (s.sl p).state = .upClear ∧ (s.sl p).kx = none ∧ (s.sl p).kxFailedAt = some t ∧ s.now < t + 10000000000)
    ∧ (∃ (s : State) (p : Fin 18), s.hasSl p = true ∧ (s.sl p).state = .keyed ∧ (s.sl p).kx = none)
    ∧ (∃ (s : State) (p : Fin 18) (k : List Byte) (t : Nat), (s.sl p).oldKey = some (k, some t) ∧ t + 1000000 ≤ s.now)
    ∧ (∃ (s : State) (p : Fin 18) (k : List Byte) (t : Nat), (s.sl p).oldKey = some (k, some t) ∧ s.now < t + 1000000)
    ∧ (∃ x : Kx, x.rekey = true) ∧ (∃ x : Kx, x.rekey = false) ∧ (∃ (s : State) (p : Fin 18), s.kxAble p = true ∧ (s.sl p).kx = none ∧ s.trust.identityOk = false)
    ∧ (∃ (s : State) (p : Fin 18) (x : Kx), s.kxAble p = true ∧ (s.sl p).kx = some x ∧ x.peerHello.isSome = true) ∧ (∃ (s : State) (x : Kx), (s.sl 0).kx = some x) :=
  ⟨⟨withKx kx0, 0, _, by decide, rfl, rfl⟩, ⟨withKx { kx0 with peerHello := some ([], []) }, 0, _, [], [], by decide, rfl, rfl, rfl⟩,
  ⟨withKx { kx0 with kemKey := some ([], []) }, 0, _, by decide, rfl, rfl, rfl⟩,
  ⟨withKx { kx0 with peerHello := some ([], []), kemCt := some ([], []) }, 0, _, [], [], by decide, rfl, rfl, rfl, rfl⟩,
  ⟨{ withKx kx0 with now := 1000000000 }, 0, _, by decide, rfl, by decide⟩, ⟨withKx kx0, 0, _, by decide, rfl, by decide⟩,
  ⟨{ withLinks { ports := [(0, { state := .upClear, kxFailedAt := some 0 })] } with now := 10000000000 }, 0, 0, by decide⟩,
  ⟨withLinks { ports := [(0, { state := .upClear, kxFailedAt := some 0 })] }, 0, 0, by decide⟩, ⟨withLinks { ports := [(5, slUp)] }, 5, by decide⟩,
  ⟨{ withLinks { ports := [(0, { slUp with oldKey := some ([], some 0) })] } with now := 1000000 }, 0, [], 0, by decide⟩,
  ⟨withLinks { ports := [(0, { slUp with oldKey := some ([], some 0) })] }, 0, [], 0, by decide⟩, ⟨{ kx0 with rekey := true }, rfl⟩, ⟨{ kx0 with rekey := false }, rfl⟩,
  ⟨identified false (withLinks { ports := [(5, slUp)] }), 5, by decide⟩, ⟨withKx { kx0 with peerHello := some ([], []) }, 0, _, by decide, rfl, rfl⟩, ⟨withKx kx0, _, rfl⟩⟩

theorem witness_Enumeration :
    (∃ (s t : State) (p : Fin 18) (h : FlitHdr) (m : EnumMsg), s.accepted p h (.enum true) = some t ∧ t.links.elsewhere m.domain = true)
    ∧ (∃ (s t : State) (p : Fin 18) (h : FlitHdr) (m : EnumMsg) (id : BitVec 12), s.accepted p h (.enum true) = some t ∧ t.links.elsewhere m.domain = false ∧
        t.links.idIn m.epoch = some id ∧ t.links.upIn m.epoch ≠ some p.val)
    ∧ (∃ (s t : State) (p : Fin 18) (h : FlitHdr) (m : EnumMsg) (u v : State), s.accepted p h (.enum true) = some t ∧ t.links.elsewhere m.domain = false ∧ t.links.idIn m.epoch = none ∧
        u = t.setLinks (fun l => { l with hops := m.hops.toNat + 1 }) ∧ m.next.toNat < 4096 ∧
        v = (u.takeId (tokenJob p t.now m)).passToken { tokenJob p t.now m with next := m.next.toNat + 1 } ∧ v.links.overflow = false)
    ∧ (∃ (s t : State) (p : Fin 18) (h : FlitHdr) (m : EnumMsg) (j : TokenJob), s.accepted p h (.enum false) = some t ∧ t.awaits p = some j ∧ m.abort = false ∧ j.first < m.next.toNat)
    ∧ (∃ (s : State) (p : Fin 18) (j : TokenJob), s.awaits p = some j ∧ j.sentAt + 100000000 ≤ s.now)
    ∧ (∃ (s t : State) (p : Fin 18) (h : FlitHdr) (m : EnumMsg) (i : BitVec 12) (n : Nat), s.accepted p h (.enum false) = some t ∧ t.links.pendingId = some (i, m.epoch, n) ∧
        t.links.commitAt = none ∧ ∀ k, k < 18 → (t.sl k).role ≠ .downstream)
    ∧ (∃ (s : State) (t n : Nat) (e : BitVec 32) (i : BitVec 12), s.links.commitAt = some (t, e) ∧ s.links.pendingId = some (i, e, n) ∧ s.atBoundary = true ∧ t + 1000000 ≤ s.now)
    ∧ (∃ (s : State) (first last : Nat), s.links.flood = some (first, last) ∧ last + 100000000 ≤ s.now ∧ s.now ≤ first + 1000000000)
    ∧ (∃ (s : State) (first last : Nat), s.links.flood = some (first, last) ∧ last + 100000000 ≤ s.now ∧ first + 1000000000 < s.now)
    ∧ (∃ (s : State) (tag first last : Nat), s.links.enumTag = some tag ∧ s.links.flood = some (first, last) ∧ first + 1000000 ≤ s.now)
    ∧ (∃ (s : State) (i : BitVec 12) (e : BitVec 32) (t : Nat), s.links.pendingId = some (i, e, t) ∧ s.links.commitAt = none ∧ t + 1000000000 ≤ s.now)
    ∧ (∃ (s t : State) (p : Fin 18) (h : FlitHdr), s.accepted p h .routed = some t ∧ t.links.route h.dst.toNat = 0x1E ∧ t.links.nodeId = some 0)
    ∧ (∃ (s t : State) (p : Fin 18) (h : FlitHdr), s.accepted p h .routed = some t ∧ t.links.route h.dst.toNat = 0x1E ∧ t.links.nodeId ≠ some 0)
    ∧ (∃ s : State, s.settings.lkAutoJoin = true ∧ s.links.root = true ∧ s.links.job = none ∧ s.links.pendingId = none)
    ∧ (∃ s : State, s.settings.lkAutoJoin = true ∧ s.links.root = true ∧ s.links.pendingId.isSome = true)
    ∧ (∃ (s t : State) (p : Fin 18) (h : FlitHdr), s.accepted p h .routed = some t ∧ t.links.route h.dst.toNat < 18 ∧ h.hops ≠ 63)
    ∧ (∃ (s : State) (p : Fin 18), s.hasSl p = true ∧ (s.sl p).state = .keyed ∧ s.asksDelay p = true ∧ (s.sl p).delayAt = none)
    ∧ (∃ (s : State) (p : Fin 18) (t : Nat), (s.sl p).delayAt = some t ∧ s.now < t + 100000000)
    ∧ (∃ (s t : State) (p : Fin 18) (h : FlitHdr) (m : DelayMsg) (t1 : BitVec 64), s.accepted p h .delay = some t ∧ (t.sl p).delayT1 = some t1 ∧ m.id = (t.sl p).delayId) :=
  ⟨⟨withLinks { ports := [(0, slUp)], nodeId := some 5, domain := 2 }, _, 0, hdr0, enum0, rfl, rfl⟩,
  ⟨withLinks { ports := [(0, slUp)], nodeId := some 5, epoch := 1, upstream := some 3 }, _, 0, hdr0, enum0, 5, rfl, rfl, rfl, by decide⟩,
  token_passes,
  ⟨withLinks { ports := [(0, slUp)], job := some token0 }, _, 0, hdr0, enum0, _, rfl, rfl, rfl, by decide⟩,
  ⟨{ withLinks { ports := [(0, slUp)], job := some token0 } with now := 100000000 }, 0, _, rfl, by decide⟩,
  ⟨withLinks { ports := [(0, slUp)], pendingId := some (4, 1, 0) }, _, 0, hdr0, enum0, 4, 0, rfl, rfl, rfl, by decide⟩,
  ⟨{ withLinks { commitAt := some (0, 1), pendingId := some (4, 1, 0) } with now := 1000000 }, 0, 0, 1, 4, rfl, rfl, by decide, by decide⟩,
  ⟨{ withLinks { flood := some (0, 0) } with now := 100000000 }, 0, 0, rfl, by decide, by decide⟩,
  ⟨{ withLinks { flood := some (0, 0) } with now := 1000000001 }, 0, 0, rfl, by decide, by decide⟩,
  ⟨{ withLinks { enumTag := some 3, flood := some (0, 0) } with now := 1000000 }, 3, 0, 0, rfl, rfl, by decide⟩,
  ⟨{ withLinks { pendingId := some (4, 1, 0) } with now := 1000000000 }, 4, 1, 0, rfl, rfl, by decide⟩,
  ⟨withLinks { ports := [(0, slUp)], nodeId := some 0, routes := [(0, 0x1E)] }, _, 0, hdr0, rfl, rfl, rfl⟩,
  ⟨withLinks { ports := [(0, slUp)], routes := [(0, 0x1E)] }, _, 0, hdr0, rfl, rfl, by decide⟩,
  ⟨{ withLinks { root := true } with settings := { lkAutoJoin := true } }, by decide⟩, ⟨{ withLinks { root := true, pendingId := some (0, 0, 0) } with settings := { lkAutoJoin := true } }, by decide⟩,
  ⟨withLinks { ports := [(0, slUp)], routes := [(0, 17)] }, _, 0, hdr0, rfl, by decide, by decide⟩,
  ⟨withLinks { ports := [(0, slUp)] }, 0, by decide⟩, ⟨withLinks { ports := [(0, { slUp with delayAt := some 0 })] }, 0, 0, by decide⟩,
  ⟨withLinks { ports := [(0, { slUp with delayT1 := some 7 })] }, _, 0, hdr0, { id := 0, t1 := 0, t2 := 0, t3 := 0 }, 7, rfl, rfl, rfl⟩⟩

theorem witness_RemoteMemory :
    (∃ (s t : State) (p : Fin 18) (h : FlitHdr) (m : RemoteMsg), s.accepted p h .routed = some t ∧ t.links.route h.dst.toNat = 0x1E ∧
        t.msgWaits 1 m = false ∧ t.msgWaits 2 m = false ∧ t.granted h.src.toNat 1 m.addr.toNat m.len.toNat = false ∧ t.granted h.src.toNat 0 m.addr.toNat m.len.toNat = false ∧
        t.xfer m.xfer = none ∧ t.msgWaits 3 m = false)
    ∧ (∃ (s t : State) (p : Fin 18) (h : FlitHdr) (m : RemoteMsg), s.accepted p h .routed = some t ∧ t.links.route h.dst.toNat = 0x1E ∧ t.msgWaits 1 m = true)
    ∧ (∃ (s t : State) (p : Fin 18) (h : FlitHdr) (m : RemoteMsg), s.accepted p h .routed = some t ∧ t.links.route h.dst.toNat = 0x1E ∧ t.msgWaits 3 m = true)
    ∧ (∃ (s t : State) (p : Fin 18) (h : FlitHdr) (m : RemoteMsg), s.accepted p h .routed = some t ∧ t.links.route h.dst.toNat = 0x1E ∧ t.msgWaits 1 m = false ∧
        t.rangeInPool m.addr.toNat m.len.toNat = true)
    ∧ (∃ (s t : State) (p : Fin 18) (h : FlitHdr) (m : RemoteMsg) (io : Io), s.accepted p h .routed = some t ∧ t.links.route h.dst.toNat = 0x1E ∧
        t.msgWaits 1 m = false ∧ t.granted h.src.toNat 1 m.addr.toNat m.len.toNat = true ∧ t.rangeInPool m.addr.toNat m.len.toNat = false ∧ t.trust.ranges = [] ∧ t.store { pair := none, cls := m.cls.toNat } m.addr.toNat (padTo m.data m.len.toNat) = io ∧ io.stop = none)
    ∧ (∃ (s t : State) (p : Fin 18) (h : FlitHdr) (m : RemoteMsg) (bs : List Byte) (io : Io), s.accepted p h .routed = some t ∧ t.links.route h.dst.toNat = 0x1E ∧
        t.msgWaits 2 m = false ∧ t.granted h.src.toNat 0 m.addr.toNat m.len.toNat = true ∧ t.rangeInPool m.addr.toNat m.len.toNat = false ∧ t.trust.ranges = [] ∧ t.load { pair := none, cls := m.cls.toNat } m.addr.toNat m.len.toNat = (bs, io) ∧ io.stop = none)
    ∧ (∃ (s t : State) (p : Fin 18) (h : FlitHdr) (m : RemoteMsg) (x : Xfer), s.accepted p h .routed = some t ∧ t.links.route h.dst.toNat = 0x1E ∧ t.xfer m.xfer = some x ∧
        x.node.toNat = h.src.toNat ∧ m.offset.toNat + m.len.toNat ≤ x.len ∧ x.get = false)
    ∧ (∃ (s t : State) (p : Fin 18) (h : FlitHdr) (n : BitVec 16), s.accepted p h .routed = some t ∧ t.links.route h.dst.toNat = 0x1E ∧ t.present 3 = true ∧
        h.src.toNat = t.settings.lkPeerNode.toNat ∧ t.lanternOn = true ∧ n.toNat < slotCount 3)
    ∧ (∃ (s t : State) (p : Fin 18) (h : FlitHdr), s.accepted p h .routed = some t ∧ t.links.route h.dst.toNat = 0x1E ∧ h.src.toNat ≠ t.settings.lkPeerNode.toNat) :=
  ⟨⟨withLinks local0, _, 0, hdr0, msg0, rfl, rfl, by decide, by decide, by decide, by decide, rfl, by decide⟩,
  ⟨{ withLinks local0 with mem := { vaults := [(0, { pausedUntil := some 9 })] } }, _, 0, hdr0, msg0, rfl, rfl, by decide⟩,
  ⟨{ withLinks { local0 with xfers := [{ xfer0 with num := 0, get := true }] } with mem := { vaults := [(0, { pausedUntil := some 9 })] } }, _, 0, hdr0, msg0, rfl, rfl, by decide⟩,
  ⟨{ withLinks local0 with settings := { poolRows := [(0, 9216)] } }, _, 0, hdr0, msg0, rfl, rfl, by decide, by decide⟩,
  ⟨withLinks { local0 with grants := [(0, { rights := 3, node := 0xFFFF, base := 0, size := 4096 })] }, _, 0, hdr0, msg0, _, rfl, rfl, by decide, by decide, by decide, by decide, rfl, by decide⟩,
  ⟨{ withLinks { local0 with grants := [(15, { rights := 1, node := 1, base := 0, size := 4096 })] } with mem := { vaults := [(0, { valid := [0] })] } },
    _, 0, hdr0, msg0, _, _, rfl, rfl, by decide, by decide, by decide, by decide, rfl, by decide⟩,
  ⟨withLinks { local0 with xfers := [{ xfer0 with num := 0 }] }, _, 0, hdr0, msg0, _, rfl, rfl, rfl, by decide, by decide, rfl⟩,
  ⟨{ withLinks { local0 with routes := [(0, 0x1E), (1, 0)], nodeId := some 0 } with settings := { lkPeerNode := 1 } }, _, 0, hdr0, 31, rfl, rfl, by decide, by decide, by decide, by decide⟩,
  ⟨withLinks local0, _, 0, hdr0, rfl, rfl, by decide⟩⟩

theorem witness_SeamEvents :
    (∃ (s : State) (m : Fin 16), (s.seamMod m).state = .inService ∧ (s.seamMod m).tag = 1) ∧ (∃ (s : State) (m : Fin 16), (s.seamMod m).state ≠ .inService)
    ∧ (∃ (s : State) (m : Nat) (bs : List Byte), bs.length = 232 ∧ crc32c (bs.take 0xE0) = field bs 0xE0 4 ∧ BitVec.ofNat 16 (field bs 0xE4 2) = (s.seamMod m).rxNext ∧ field bs 0 1 % 4 ≠ 0)
    ∧ (∃ (s : State) (m : Fin 16), (s.seamMod m).state = .retraining)
    ∧ (∃ (s t : State) (m : Fin 16) (n : BitVec 16), t = s.heard.setSeamMod m (fun x => x.acked n) ∧ (t.seamMod m).replayBuf = [])
    ∧ (∃ (s t : State) (m : Fin 16) (n : BitVec 16), t = s.heard.setSeamMod m (fun x => x.acked n) ∧ (t.seamMod m).replayBuf ≠ [] ∧ (t.seamMod m).state ≠ .out)
    ∧ (∃ (s t : State) (m : Fin 16) (n : BitVec 16), t = s.heard.setSeamMod m (fun x => x.acked n) ∧ (t.seamMod m).replayBuf ≠ [] ∧ (t.seamMod m).state = .out)
    ∧ (∃ (s : State) (m : Fin 16) (found : BitVec 64) (w : Nat) (f : BitVec 64) (n : Nat) (h : SeamHalf), (s.seamMod m).state = .retraining ∧ (s.seamMod m).peerAdvert = some (w, f) ∧
        agreedWidth (s.seamMod m).advert w ((s.seamMod m).failed ||| f ||| found) = some (n, h))
    ∧ (∃ (s : State) (m : Fin 16) (found : BitVec 64) (w : Nat) (f : BitVec 64), (s.seamMod m).state = .retraining ∧ (s.seamMod m).peerAdvert = some (w, f) ∧
        agreedWidth (s.seamMod m).advert w ((s.seamMod m).failed ||| f ||| found) = none)
    ∧ (∃ (s : State) (m : Fin 16) (l : Fin 64), (s.seamMod m).state ≠ .out ∧ (s.seamMod m).usesLane l = true ∧ 0 < (s.seamMod m).sparesWE)
    ∧ (∃ s : State, s.lantern.stage = 4 ∧ s.seam.peer = none ∧ s.seam.searchFrom + 50000000 ≤ s.now) ∧ (∃ s : State, s.lantern.stage ≠ 4) :=
  ⟨⟨withMod { state := .inService }, 15, by decide⟩, ⟨live, 3, by decide⟩,
  ⟨live, 0, frame0, by decide +kernel, frame0_check, by decide +kernel, by decide +kernel⟩,
  ⟨withMod { state := .retraining }, 15, by decide⟩, ⟨withMod { state := .inService }, _, 15, 0, rfl, rfl⟩, ⟨withMod { state := .inService, replayBuf := [(0, [])] }, _, 15, 0, rfl, by decide, by decide⟩,
  ⟨withMod { state := .out, replayBuf := [(0, [])] }, _, 15, 0, rfl, by decide, by decide⟩,
  ⟨withMod { state := .retraining, peerAdvert := some (64, 0x100000000) }, 15, 0, _, _, 32, .low, by decide, rfl, by decide⟩,
  ⟨withMod { state := .retraining, peerAdvert := some (64, 1) }, 15, 0x100000000, _, _, by decide, rfl, by decide⟩,
  ⟨withMod { state := .inService, sparesWE := 4 }, 15, 63, by decide⟩, ⟨{ live with now := 50000000, lantern := { stage := 4 } }, by decide⟩, ⟨live, by decide⟩⟩

theorem witness_SpdmMailbox :
    (∃ (s : State) (p : Fin 2), s.doe p = true ∧ (s.port p).spdmStep = 1) ∧ (∃ (s : State) (p : Fin 2), s.doe p = true ∧ (s.port p).spdmStep = 2)
    ∧ (∃ (s : State) (p : Fin 2) (body : List Byte), s.doe p = true ∧ (s.port p).spdmStep = 3 ∧ s.chain.length = 0 ∧ s.trust.identityOk = true ∧ s.trust.entropyOk = true ∧
        (s.port p).sessions.length < 4 ∧ body = Config.shake256 s.chain 32 ++ Config.entropy s.trust.drawn 32)
    ∧ (∃ (s : State) (p : Fin 2) (body : List Byte), s.doe p = true ∧ (s.port p).spdmStep = 3 ∧ s.trust.identityOk = false)
    ∧ (∃ ek, kemInputOk ek = true) ∧ (∃ ek, kemInputOk ek = false) ∧ (∃ nonce : List Byte, nonce.length = 32) ∧ (∃ k : BitVec 8, 1 ≤ k.toNat ∧ k.toNat ≤ 9)
    ∧ (∃ (s : State) (p : Fin 2) (n : Nat) (x : Session), s.doe p = true ∧ (s.port p).spdmStep = 3 ∧ (s.port p).session n = some x ∧ x.established = false)
    ∧ (∃ x : Session, ∃ m, m ≠ Config.hmac x.secret x.transcript)
    ∧ (∃ (s t : State) (p : Fin 2) (n : Nat) (x : Session), s.doe p = true ∧ (s.port p).spdmStep = 3 ∧ (s.port p).session n = some x ∧ x.established = true ∧
        t = s.setPort p (fun h => h.setSession n (fun y => { y with lastMsg := s.now })) ∧ (t.port p).tdi = .configUnlocked ∧ has (t.port p).ideKeys 4 = true)
    ∧ (∃ (s t : State) (p : Fin 2) (n : Nat) (x : Session), s.doe p = true ∧ (s.port p).spdmStep = 3 ∧ (s.port p).session n = some x ∧ x.established = true ∧
        t = s.setPort p (fun h => h.setSession n (fun y => { y with lastMsg := s.now })) ∧ (t.port p).tdi = .configLocked)
    ∧ (∃ (s : State) (p : Fin 2) (n : Nat) (x : Session), (s.port p).session n = some x ∧ x.lastMsg + 60000000000 ≤ s.now)
    ∧ (∃ (s : State) (p : Fin 2) (n : Nat) (x : Session), (s.port p).session n = some x ∧ s.now < x.lastMsg + 60000000000) :=
  ⟨⟨withPort { linkUp := true, spdmStep := 1 }, 0, by decide⟩, ⟨withPort { linkUp := true, spdmStep := 2 }, 0, by decide⟩,
  ⟨withPort { linkUp := true, spdmStep := 3 }, 0, _, by decide, by decide, by decide, by decide, by decide, by decide, rfl⟩,
  ⟨{ withPort { linkUp := true, spdmStep := 3 } with trust := { identityOk := false } }, 0, [], by decide⟩,
  ⟨List.replicate 1568 0, by decide +kernel⟩, ⟨[], by decide⟩, ⟨List.replicate 32 0, by decide⟩, ⟨9, by decide⟩,
  ⟨withPort { linkUp := true, spdmStep := 3, sessions := [{ sess0 with established := false }] }, 0, 2, { sess0 with established := false }, by decide⟩,
  ⟨sess0, 0 :: Config.hmac sess0.secret sess0.transcript, by simp⟩,
  ⟨withPort { linkUp := true, spdmStep := 3, sessions := [sess0], ideKeys := [(4, [])] }, _, 0, 2, sess0, by decide, by decide, by decide, by decide, rfl, by decide, by decide⟩,
  ⟨withPort { linkUp := true, spdmStep := 3, sessions := [sess0], tdi := .configLocked }, _, 0, 2, sess0, by decide, by decide, by decide, by decide, rfl, by decide⟩,
  ⟨{ withPort { sessions := [sess0] } with now := 60000000000 }, 0, 2, sess0, by decide⟩, ⟨withPort { sessions := [sess0] }, 0, 2, sess0, by decide⟩⟩

theorem witness_HostPorts :
    (∃ (s : State) (p : Fin 2), s.hostRole p = true ∧ s.lantern.stage.toNat ≥ 2 ∧ (s.port p).linkUp = false ∧ (s.railsOf p).serHot = false)
    ∧ (∃ (s : State) (p : Fin 2), s.hostRole p = true ∧ (s.port p).tdi = .configLocked ∧ (s.port p).tdiHeld = true)
    ∧ (∃ (s : State) (p : Fin 2), s.hostRole p = true ∧ (s.port p).tdi = .run)
    ∧ (∃ (s : State) (p : Fin 2) (off n : Nat) (bs : List Byte) (io : Io), s.bar2Here p off n = true ∧ s.bar2Aborts p off n false = false ∧
        s.someWaits (s.vaultAccesses 1 off n false [] (some p)) = false ∧ s.readDev {} off n (n / 128 + 2) = (bs, io) ∧ io.stop = none)
    ∧ (∃ (s : State) (p : Fin 2) (off n : Nat), s.bar2Here p off n = true ∧ s.bar2Aborts p off n false = false ∧ s.someWaits (s.vaultAccesses 1 off n false [] (some p)) = true)
    ∧ (∃ (s : State) (p : Fin 2) (off : Nat) (d : List Byte), s.bar2Here p off d.length = true ∧ s.owns p = true ∧ s.bar2Aborts p off d.length false = false ∧
        s.someWaits (s.vaultAccesses 1 off d.length true d (some p)) = true)
    ∧ (∃ (s : State) (p : Fin 2) (off n : Nat), s.bar2Here p off n = true ∧ (s.port p).tdi = .configLocked)
    ∧ (∃ (s : State) (p : Fin 2) (off n : Nat), s.bar2Here p off n = true ∧ s.lantern.stage ≠ 0xF)
    ∧ (∃ (s : State) (p : Fin 2) (off : Nat) (d : List Byte) (io : Io), s.bar2Here p off d.length = true ∧ s.owns p = true ∧ s.bar2Aborts p off d.length false = false ∧
        s.someWaits (s.vaultAccesses 1 off d.length true d (some p)) = false ∧ s.writeDev {} off d (d.length / 128 + 2) = io ∧ io.stop = none)
    ∧ (∃ (s : State) (p : Fin 2) (off : Nat) (d : List Byte), s.bar2Here p off d.length = true ∧ (s.port p).tdi = .configUnlocked ∧ s.lantern.stage = 0xF ∧ s.owns p = false)
    ∧ (∃ (s : State) (off n : Nat) (bs : List Byte) (io : Io), 0 < n ∧ off + n ≤ s.geo.farTierMib * 2 ^ 20 ∧ s.farRead off n = (bs, io) ∧ io.stop = none)
    ∧ (∃ (s : State) (off n : Nat) (bs : List Byte) (io : Io) (e : Ending), 0 < n ∧ off + n ≤ s.geo.farTierMib * 2 ^ 20 ∧ s.farRead off n = (bs, io) ∧ io.stop = some e)
    ∧ (∃ (s : State) (off : Nat) (d : List Byte) (io : Io), 0 < d.length ∧ off + d.length ≤ s.geo.farTierMib * 2 ^ 20 ∧ s.farWrite off d (4096, 0) (d.length / 256 + 2) = io ∧ io.stop = none)
    ∧ (∃ (s : State) (b : Nat) (t : Nat × Nat), s.far.linkUp = true ∧ (b, t) ∈ s.far.initialising)
    ∧ (∃ s : State, s.geo.heFarTier = true ∧ 0 < s.geo.farTierMib ∧ s.far.linkUp = false ∧ s.thermal.dropped = false) :=
  ⟨⟨withPort {}, 0, by decide⟩, ⟨withPort { tdi := .configLocked }, 0, by decide⟩, ⟨withPort { tdi := .run }, 0, by decide⟩,
  ⟨live, 0, 0, 128, _, _, by decide, by decide, by decide, rfl, rfl⟩,
  ⟨live.setVault 0 (fun v => { v with pausedUntil := some 9 }), 0, 0, 128, by decide⟩, ⟨live.setVault 0 (fun v => { v with pausedUntil := some 9 }), 0, 0, [7], by decide⟩,
  ⟨withPort { linkUp := true, tdi := .configLocked }, 0, 0, 64, by decide⟩, ⟨{ live with lantern := { stage := 9 } }, 0, 0, 64, by decide⟩,
  ⟨live, 0, 128, [7], _, by decide, by decide, by decide, by decide, rfl, by decide⟩, ⟨ownedBy 1 live, 0, 0, [7], by decide⟩,
  ⟨withFar { linkUp := true }, 0, 256, _, _, by decide, by decide, rfl, by decide⟩,
  ⟨withFar { linkUp := false, written := [0] }, 0, 256, _, _, _, by decide, by decide, rfl, rfl⟩,
  ⟨withFar { linkUp := true }, 0, [7], _, by decide, by decide, rfl, by decide⟩,
  ⟨withFar { linkUp := true, initialising := [(3, 0, 0)] }, 3, (0, 0), by decide⟩, ⟨withFar { linkUp := false }, by decide⟩⟩

theorem witness_Electrical :
    (∃ (s t : State) (v : Nat), t = { s with board := { s.board with vin := v, vinSince :=
          if 42000 ≤ v ∧ (s.board.overvolted = false ∨ v ≤ 58000) ∧ s.board.mateHigh = false then some (s.board.vinSince.getD s.now) else none } } ∧ s.board.inputOn = true)
    ∧ (∃ (s t : State) (v w : Nat), t = { s with board := { s.board with vin := v, vinSince :=
          if 42000 ≤ v ∧ (s.board.overvolted = false ∨ v ≤ 58000) ∧ s.board.mateHigh = false then some (s.board.vinSince.getD s.now) else none } } ∧ s.board.inputOn = false
          ∧ t.board.vinSince = some w ∧ w + 100000000 ≤ s.now)
    ∧ (∃ s : State, (s.board.railsW.vaon = true ∨ s.board.railsE.vaon = true) ∧ s.board.failedAt = none)
    ∧ (∃ (s : State) (t : Nat), s.board.failedAt = some t ∧ t + 2000000 ≤ s.now) ∧ (∃ (s : State) (t : Nat), s.board.failedAt = some t ∧ s.now < t + 2000000)
    ∧ (∃ s : State, s.powered = false) ∧ (∃ s : State, s.powered = true)
    ∧ (∃ (s : State) (h : Fin 2), s.geo.hasW = true ∧ s.geo.hasE = true ∧ (s.railsOf h).vbaseSb = true)
    ∧ (∃ (s : State) (h : Fin 2), s.geo.hasW = true ∧ s.geo.hasE = true ∧ (s.railsOf h).vbaseSb = false)
    ∧ (∃ (s : State) (h : Fin 2), s.geo.mode = 1 ∧ s.geo.hasW = true ∧ s.geo.hasE = false ∧ h = 1)
    ∧ (∃ (s : State) (h : Fin 2), s.geo.hasW = true ∧ s.geo.hasE = false ∧ h = 0 ∧ s.board.railsW.vbaseSb = true) :=
  ⟨⟨withBoard { inputOn := true }, _, 48000, rfl, rfl⟩, ⟨{ withBoard { vinSince := some 0 } with now := 100000000 }, _, 42000, 0, rfl, rfl, rfl, by decide⟩,
  ⟨withBoard { railsE := { vaon := true } }, by decide⟩, ⟨{ withBoard { failedAt := some 0 } with now := 2000000 }, 0, by decide⟩, ⟨withBoard { failedAt := some 0 }, 0, by decide⟩,
  ⟨live, by decide⟩, ⟨withBoard { railsW := { vaon := true } }, by decide⟩, ⟨withBoard { railsE := { vbaseSb := true } }, 1, by decide⟩, ⟨live, 0, by decide⟩,
  ⟨{ live with geo := { live.geo with mode := 1, hasE := false } }, 1, by decide⟩,
  ⟨{ withBoard { railsW := { vbaseSb := true } } with geo := { live.geo with mode := 1, hasE := false } }, 0, by decide⟩⟩

theorem witness_I3cTarget :
    (∃ (s : State) (k : BitVec 8) (o : BitVec 16) (d : List Byte), s.i3cHere = true ∧ k.toNat < 32 ∧ o.toNat % 4 = 0 ∧ d.length % 4 = 0 ∧ 4 ≤ d.length ∧ o.toNat + d.length ≤ 256 ∧ 4 + d.length ≤ s.i3c.mwl.toNat)
    ∧ (∃ (s : State) (k : BitVec 8) (o : BitVec 16) (d : List Byte), s.i3cHere = true ∧ k.toNat < 32 ∧ 256 < o.toNat + d.length)
    ∧ (∃ (s : State) (nonce : List Byte), s.i3cHere = true ∧ 10 ≤ s.i3c.mwl.toNat ∧ nonce.length = 32 ∧ 33 ≤ s.i3c.mwl.toNat ∧ s.trust.identityOk = true ∧ s.i3c.sel = .none)
    ∧ (∃ (s : State) (sp o : Nat), s.i3cHere = true ∧ s.i3c.sel = .space sp o)
    ∧ (∃ (s : State) (b : BitVec 8) (r : List (BitVec 8)), s.i3cHere = true ∧ s.i3c.ibiEn = true ∧ s.i3c.ibiDue = b :: r ∧ s.i3c.ibiRetryAt = none)
    ∧ (∃ (s : State) (b : BitVec 8) (r : List (BitVec 8)) (t : Nat), s.i3cHere = true ∧ s.i3c.ibiEn = true ∧ s.i3c.ibiDue = b :: r ∧ s.i3c.ibiRetryAt = some t ∧ t ≤ s.now)
    ∧ (∃ (s : State) (b : BitVec 8) (r : List (BitVec 8)) (t : Nat), s.i3cHere = true ∧ s.i3c.ibiEn = true ∧ s.i3c.ibiDue = b :: r ∧ s.i3c.ibiRetryAt = some t ∧ s.now < t)
    ∧ (∃ s : State, s.i3cHere = true ∧ s.i3c.ibiEn = false)
    ∧ (∃ s : State, s.i3cActive = true ∧ s.i3c.address = none ∧ ∀ t, s.i3c.hotJoinAt = some t → t + 100000000 ≤ s.now)
    ∧ (∃ (s : State) (t : Nat), s.i3cActive = true ∧ s.i3c.address = none ∧ s.i3c.hotJoinAt = some t ∧ s.now < t + 100000000)
    ∧ (∃ (s : State) (r : Rec) (l : List Rec) (t : Nat), s.warden.bmcFifo = r :: l ∧ s.i3c.fifoAt = some t ∧ t + 10000000 ≤ s.now)
    ∧ (∃ (s : State) (r : Rec) (l : List Rec) (t : Nat), s.warden.bmcFifo = r :: l ∧ s.i3c.fifoAt = some t ∧ s.now < t + 10000000) :=
  ⟨⟨withI3c {}, 31, 252, [0, 0, 0, 0], by decide⟩, ⟨withI3c {}, 31, 252, [0, 0, 0, 0, 0, 0, 0, 0], by decide⟩, ⟨withI3c {}, List.replicate 32 0, by decide⟩,
  ⟨withI3c { sel := .space 5 0 }, 5, 0, by decide⟩, ⟨withI3c { ibiEn := true, ibiDue := [1] }, 1, [], by decide⟩,
  ⟨withI3c { ibiEn := true, ibiDue := [1], ibiRetryAt := some 0 }, 1, [], 0, by decide⟩, ⟨withI3c { ibiEn := true, ibiDue := [1], ibiRetryAt := some 1 }, 1, [], 1, by decide⟩,
  ⟨withI3c {}, by decide⟩, ⟨{ withI3c {} with i3c := {} }, by decide, rfl, fun t h => by cases h⟩, ⟨{ withI3c {} with i3c := { hotJoinAt := some 0 } }, 0, by decide⟩,
  ⟨{ withI3c { fifoAt := some 0 } with warden := { bmcFifo := [rec0 2] }, now := 10000000 }, rec0 2, [], 0, by decide⟩,
  ⟨{ withI3c { fifoAt := some 0 } with warden := { bmcFifo := [rec0 2] }, now := 9999999 }, rec0 2, [], 0, by decide⟩⟩

theorem witness_RecordRead :
    (∃ (s : State) (r : Rec) (l : List Rec), s.i3cHere = true ∧ 1 ≤ s.i3c.mwl.toNat ∧ s.warden.bmcFifo = r :: l ∧ 32 ≤ s.i3c.mrl.toNat)
    ∧ (∃ s : State, s.i3cHere = true ∧ 1 ≤ s.i3c.mwl.toNat ∧ s.warden.bmcFifo = []) :=
  ⟨⟨{ withI3c { fifoAt := some 0 } with warden := { bmcFifo := [rec0 2] } }, rec0 2, [], by decide⟩, ⟨withI3c {}, by decide⟩⟩

theorem witness_FwAbandon :
    (∃ (s u : State) (c : Fin 4) (k : Fin 1024) (a : Adm) (b : Bool), s.admission 0x0514 c k = some (u, a) ∧ u.fwElsewhere = false ∧ u.trust.slotIn .trial = none ∧ u.trust.slotIn .pending = some b)
    ∧ (∃ (s u : State) (c : Fin 4) (k : Fin 1024) (a : Adm), s.admission 0x0514 c k = some (u, a) ∧ u.fwElsewhere = false ∧ (u.trust.slotIn .trial).isSome = true)
    ∧ (∃ (s u : State) (c : Fin 4) (k : Fin 1024) (a : Adm), s.admission 0x0514 c k = some (u, a) ∧ u.fwElsewhere = false ∧ u.trust.slotIn .trial = none ∧ u.trust.slotIn .pending = none)
    ∧ (∃ (s u : State) (c : Fin 4) (k : Fin 1024) (a : Adm), s.admission 0x0514 c k = some (u, a) ∧ u.fwElsewhere = true)
    ∧ (∃ (v : State) (b : Bool), v.trust.slotIn .trial = some b) :=
  ⟨⟨withSlotB { state := .pending } (withSlot 0x0514 0 []), _, 0, 0, _, true, rfl, rfl, rfl, rfl⟩, ⟨withSlotB { state := .trial } (withSlot 0x0514 0 []), _, 0, 0, _, rfl, rfl, rfl⟩,
  ⟨withSlot 0x0514 0 [], _, 0, 0, _, rfl, rfl, rfl, rfl⟩,
  ⟨{ withSlot 0x0514 0 [] with geo := { live.geo with mode := 1, hasW := false } }, _, 0, 0, _, rfl, rfl⟩, ⟨withSlotB { state := .trial } live, true, rfl⟩⟩

theorem witness_FirmwareCommands :
    (∃ (s u : State) (c : Fin 4) (k : Fin 1024) (a : Adm) (bs : List Byte), s.admission 0x0510 c k = some (u, a) ∧ c.val ≤ 1 ∧ field a.b 24 2 ≤ 1023 ∧ field a.b 32 8 % 64 = 0 ∧ u.fwClosed = false ∧
        u.fwElsewhere = false ∧ (u.port c).linkUp = true ∧ bs = u.hostRead c (field a.b 32 8) 65536)
    ∧ (∃ (s u : State) (c : Fin 4) (k : Fin 1024) (a : Adm), s.admission 0x0511 c k = some (u, a) ∧ u.fwClosed = false ∧ u.fwElsewhere = false)
    ∧ (∃ (s u : State) (c : Fin 4) (k : Fin 1024) (a : Adm), s.admission 0x0512 c k = some (u, a) ∧ u.fwClosed = false ∧ u.fwElsewhere = false ∧ (u.trust.slot u.trust.inactive).state = .staged)
    ∧ (∃ (s u : State) (c : Fin 4) (k : Fin 1024) (a : Adm), s.admission 0x0512 c k = some (u, a) ∧ u.fwClosed = false ∧ u.fwElsewhere = false ∧ (u.trust.slot u.trust.inactive).state ≠ .staged)
    ∧ (∃ (s u : State) (c : Fin 4) (k : Fin 1024) (a : Adm) (b : Bool), s.admission 0x0513 c k = some (u, a) ∧ u.lantern.stage = 0xF ∧ u.fwElsewhere = false ∧ u.trust.fwState = .trial ∧ u.trust.slotIn .trial = some b)
    ∧ (∃ (s u : State) (c : Fin 4) (k : Fin 1024) (a : Adm), s.admission 0x0513 c k = some (u, a) ∧ u.lantern.stage = 0xF ∧ u.fwElsewhere = false ∧ u.trust.fwState ≠ .trial)
    ∧ (∃ (s u : State) (c : Fin 4) (k : Fin 1024) (a : Adm), s.admission 0x0520 c k = some (u, a) ∧ field a.b 28 1 ≤ 1)
    ∧ (∃ (s u : State) (c : Fin 4) (k : Fin 1024) (a : Adm), s.admission 0x0520 c k = some (u, a) ∧ 1 < field a.b 28 1)
    ∧ (∃ (s u : State) (c : Fin 4) (k : Fin 1024) (a : Adm), s.admission 0x0500 c k = some (u, a) ∧ c.val ≤ 1 ∧ field a.b 56 8 % 64 = 0 ∧ u.trust.identityOk = true ∧ (u.port c).linkUp = true)
    ∧ (∃ (s u : State) (c : Fin 4) (k : Fin 1024) (a : Adm), s.admission 0x0500 c k = some (u, a) ∧ c.val ≤ 1 ∧ field a.b 56 8 % 64 = 0 ∧ u.trust.identityOk = false)
    ∧ (∃ (s u : State) (c : Fin 4) (k : Fin 1024) (a : Adm), s.admission 0x0501 c k = some (u, a) ∧ c.val ≤ 1 ∧ field a.b 24 8 % 64 = 0 ∧ field a.b 32 2 = 16384 ∧ (u.port c).linkUp = true)
    ∧ (∃ (s u : State) (c : Fin 4) (k : Fin 1024) (a : Adm), s.admission 0x0501 c k = some (u, a) ∧ c.val ≤ 1 ∧ field a.b 24 8 % 64 = 0 ∧ field a.b 32 2 = 0)
    ∧ (∃ (s u : State) (c : Fin 4) (k : Fin 1024) (a : Adm) (h : List Byte) (io : Io), s.admission 0x0530 c k = some (u, a) ∧ field a.b 24 1 = 1 ∧ field a.b 48 8 % 4096 = 0 ∧ spaceOneBad (field a.b 48 8) = false ∧ spaceOneBad (field a.b 32 8) = false ∧
        u.trust.ranges.length < 64 ∧ u.reachableRange (field a.b 32 8) (field a.b 40 8) = true ∧ u.rangeInPool (field a.b 32 8) (field a.b 40 8) = false ∧ u.load { tag := a.tag } (field a.b 32 8) 2048 = (h, io) ∧ io.stop = none ∧ field h 0 2 = 1 ∧
        field a.b 40 8 = 2048 + field h 8 8 + 16 * ((field h 8 8 + 65535) / 65536) ∧ io.s.reachableRange (field a.b 48 8) (rangeBytes (field h 8 8)) = true ∧
        io.s.rangeInPool (field a.b 48 8) (rangeBytes (field h 8 8)) = false)
    ∧ (∃ (s u : State) (c : Fin 4) (k : Fin 1024) (a : Adm) (r : SealedRange), s.admission 0x0531 c k = some (u, a) ∧ u.trust.ranges.find? (fun r => r.touches (field a.b 24 8) 1) = some r ∧
        u.sealedAgainst c (((u.cmd a.tag).map (·.epoch)).getD u.own.epoch) (u.canonical (field a.b 24 8)) 1 = false)
    ∧ (∃ (s u : State) (c : Fin 4) (k : Fin 1024) (a : Adm) (r : SealedRange), s.admission 0x0531 c k = some (u, a) ∧ u.trust.ranges.find? (fun r => r.touches (u.canonical (field a.b 24 8)) 1) = some r ∧
        u.sealedAgainst c (((u.cmd a.tag).map (·.epoch)).getD u.own.epoch) (u.canonical (field a.b 24 8)) 1 = true)
    ∧ (∃ (s u : State) (c : Fin 4) (k : Fin 1024) (a : Adm), s.admission 0x0531 c k = some (u, a) ∧ u.trust.ranges.find? (fun r => r.touches (u.canonical (field a.b 24 8)) 1) = none)
    ∧ (∃ r : SealedRange, r.blocks = [])
    ∧ (∃ (v : State) (a : Adm) (h : List Byte), v.sealedAgainst a.ctrl (((v.cmd a.tag).map (·.epoch)).getD v.own.epoch) (field a.b 48 8) (rangeBytes (field h 8 8)) = true)
    ∧ (∃ (v : State) (a : Adm) (h : List Byte), v.sealedAgainst a.ctrl (((v.cmd a.tag).map (·.epoch)).getD v.own.epoch) (field a.b 48 8) (rangeBytes (field h 8 8)) = false ∧
        (field a.b 24 1 = 1 → v.sealedAgainst a.ctrl (((v.cmd a.tag).map (·.epoch)).getD v.own.epoch) (field a.b 32 8) (field a.b 40 8) = false) ∧ v.trust.identityOk = false)
    ∧ (∃ (v : State) (a : Adm) (h : List Byte), v.sealedAgainst a.ctrl (((v.cmd a.tag).map (·.epoch)).getD v.own.epoch) (field a.b 48 8) (rangeBytes (field h 8 8)) = false ∧
        (field a.b 24 1 = 1 → v.sealedAgainst a.ctrl (((v.cmd a.tag).map (·.epoch)).getD v.own.epoch) (field a.b 32 8) (field a.b 40 8) = false) ∧ v.trust.identityOk = true)
    ∧ (∃ (a : Adm) (h : List Byte), 0 < field h 8 8 ∧ field a.b 48 8 < windowBase)
    ∧ (∃ (v : State) (a : Adm) (bs : List Byte) (m : Nat) (io : Io), m = min 65536 (1 - 0 * 65536) ∧ a.readSource v (2048 + 0 * 65552) (m + 16) = (bs, io) ∧ io.stop = none)
    ∧ (∃ (s : State) (t : Nat), s.trust.trialStart = some t ∧ s.trust.fwState = .trial ∧ s.trust.trialReady = false ∧ t + 30000000000 ≤ s.now ∧ s.lantern.job = none ∧ s.lantern.halt ≠ 1)
    ∧ (∃ (s : State) (t : Nat), s.trust.trialStart = some t ∧ s.now < t + 30000000000)
    ∧ (∃ s : State, s.trust.entropyLogged = false) ∧ (∃ s : State, s.trust.entropyLogged = true) :=
  ⟨⟨withSlot 0x0510 0 [(24, 0xFF), (25, 3)], _, 0, 0, _, _, rfl, by decide, by decide, by decide, by decide, by decide, by decide, rfl⟩,
  ⟨withSlot 0x0511 0 [], _, 0, 0, _, rfl, rfl, rfl⟩, ⟨withSlotB { state := .staged } (withSlot 0x0512 0 []), _, 0, 0, _, rfl, rfl, rfl, rfl⟩,
  ⟨withSlot 0x0512 0 [], _, 0, 0, _, rfl, rfl, rfl, by decide⟩,
  ⟨inTrial (withSlotB { state := .trial } (withSlot 0x0513 0 [])), _, 0, 0, _, true, rfl, rfl, rfl, rfl, rfl⟩, ⟨withSlot 0x0513 0 [], _, 0, 0, _, rfl, rfl, rfl, by decide⟩,
  ⟨withSlot 0x0520 0 [(28, 1)], _, 0, 0, _, rfl, by decide⟩, ⟨withSlot 0x0520 0 [(28, 2)], _, 0, 0, _, rfl, by decide⟩,
  ⟨identified true (withSlot 0x0500 0 [(24, 9)]), _, 0, 0, _, rfl, by decide, by decide, rfl, rfl⟩, ⟨identified false (withSlot 0x0500 0 [(24, 9)]), _, 0, 0, _, rfl, by decide, by decide, rfl⟩,
  ⟨withSlot 0x0501 0 [(33, 0x40)], _, 0, 0, _, rfl, by decide, by decide, by decide, by decide⟩, ⟨withSlot 0x0501 0 [], _, 0, 0, _, rfl, by decide, by decide, by decide⟩,
  unseal_header,
  ⟨withRange (withSlot 0x0531 0 [(25, 0x0F)]), _, 0, 0, _, range0, rfl, by decide, by decide⟩,
  ⟨{ ownedBy 1 (withRange (withSlot 0x0531 1 [(25, 0x0F)])) with lantern := { stage := 0xF, heForward := true } }, _, 1, 0, _, range0, rfl, by decide, by decide⟩, ⟨withSlot 0x0531 0 [], _, 0, 0, _, rfl, rfl⟩, ⟨range0, rfl⟩,
  ⟨withRange live, { tag := 0, ctrl := 1, b := (List.replicate 49 0) ++ [0x0F] }, [0, 0, 0, 0, 0, 0, 0, 0, 1], by decide⟩,
  ⟨identified false live, { tag := 0, ctrl := 1, b := [] }, [], by decide, by decide, rfl⟩, ⟨identified true live, { tag := 0, ctrl := 1, b := [] }, [], by decide, by decide, rfl⟩,
  ⟨{ tag := 0, ctrl := 0, b := [] }, [0, 0, 0, 0, 0, 0, 0, 0, 1], by decide⟩, ⟨live, { tag := 0, ctrl := 0, b := [] }, _, _, _, rfl, rfl, rfl⟩,
  ⟨{ inTrial live with now := 30000000000 }, 0, rfl, rfl, rfl, by decide, rfl, by decide⟩, ⟨{ inTrial live with now := 29999999999 }, 0, rfl, by decide⟩,
  ⟨live, by decide⟩, ⟨{ live with trust := { entropyLogged := true } }, by decide⟩⟩

theorem witness_VaultEvents :
    (∃ (s : State) (p : Fin 1024) (o n : Nat) (d : List Byte), s.lantern.stage = 0xF ∧ s.pairPresent p = true ∧ o + n = 2 ^ 31 ∧ o + d.length ≤ 2 ^ 31)
    ∧ (∃ (s : State), s.lantern.stage ≠ 0xF) ∧ (∃ (s : State) (p : Fin 1024), s.pairPresent p = false)
    ∧ (∃ (s : State) (p off a : Nat) (h : Held), s.reach a = .vault p off ∧
        h = { write := false, offset := off, len := 128, data := [], cls := 1, arrived := s.now, classSince := s.now, near := true, core := p } ∧
        s.behind p h = false ∧ (s.vault p).sortie = none ∧ (s.vault p).pausedUntil = none ∧ s.inVaultSlot p = false ∧ s.classServed p 1 = true)
    ∧ (∃ (s : State) (p off a : Nat), s.reach a = .vault p off ∧ (s.vault p).sortie.isSome = true)
    ∧ (∃ (s : State) (p off a : Nat) (h : Held), s.reach a = .vault p off ∧
        h = { write := false, offset := off, len := 128, data := [], cls := 0, arrived := s.now, classSince := s.now, near := true, core := p } ∧ s.behind p h = true)
    ∧ (∃ v : Vault, v.back = [] ∧ v.held.length < 64) ∧ (∃ v : Vault, 64 ≤ v.held.length)
    ∧ (∃ (s : State) (p : Nat) (h : Held) (bs : List Byte) (io : Io), h.write = false ∧ h.cls ≠ 2 ∧ s.readLine p h.offset h.len h.near h.cls.val = (bs, io) ∧ io.stop = none)
    ∧ (∃ (s : State) (p : Nat) (h : Held) (io : Io), h.write = true ∧ h.cls ≠ 2 ∧ s.writeLine p h.offset h.data h.near h.cls.val (4096, 0) = io ∧ io.stop = none)
    ∧ (∃ (s : State) (p : Fin 1024) (w : Nat) (e : MergeEntry), (s.vault p).entry w = some e ∧ e.writtenAt + 1024 ≤ s.now)
    ∧ (∃ (s : State) (p : Fin 1024) (i : Nat) (h : Held), (s.vault p).held[i]? = some h ∧ h.cls = 1 ∧ h.classSince + 16384 ≤ s.now)
    ∧ (∃ (s : State) (p : Fin 1024) (i : Nat) (h : Held), (s.vault p).held[i]? = some h ∧ h.cls = 2 ∧ h.classSince + 65536 ≤ s.now ∧ (s.profileFor p).swap ≠ 0)
    ∧ (∃ (s : State) (t : Fin 16), s.hasTower t = true ∧ (s.slice t).failed = false)
    ∧ (∃ (s : State) (p : Fin 1024), (s.vault p).pausedUntil.isSome = true)
    ∧ (∃ (s : State) (p : Fin 1024), s.pairPresent p = true ∧ s.time.running = true ∧ s.inPeriod = s.refreshAt p ∧ s.inVaultSlot p = false)
    ∧ (∃ (s : State) (p : Fin 1024), s.inPeriod ≠ s.refreshAt p)
    ∧ (∃ (s : State) (p : Fin 1024) (t : Nat), (s.vault p).canaryAt = some t ∧ t + 10000000000 < s.now ∧ s.atBoundary = true)
    ∧ (∃ (s : State) (p : Fin 1024) (t : Nat), (s.vault p).canaryAt = some t ∧ s.now = t + 10000000000)
    ∧ (∃ (s : State) (p : Fin 1024), s.pairPresent p = true ∧ s.time.running = true ∧ s.inPeriod = (s.profileFor p).scrubOffset.toNat ∧ (s.profileFor p).scrub ≠ 0 ∧ s.inVaultSlot p = false ∧
        s.scrubBehind p = true)
    ∧ (∃ (s : State) (p : Fin 1024), s.pairPresent p = true ∧ s.passStart p + s.passNs * ((s.vault p).lateCount + 1) ≤ s.now)
    ∧ (∃ (s : State) (p : Fin 1024), s.pairPresent p = true ∧ s.now < s.passStart p + s.passNs * ((s.vault p).lateCount + 1))
    ∧ (∃ (s : State) (p : Fin 1024) (g : Nat) (x : Group), s.pairPresent p = true ∧ g = 37 ∧ look (s.vault p).groups g {} = x ∧ x.used < 4)
    ∧ (∃ (s : State) (p : Fin 1024) (g : Nat) (x : Group), s.pairPresent p = true ∧ g = 37 ∧ look (s.vault p).groups g {} = x ∧ 4 ≤ x.used)
    ∧ (∃ (s : State) (p : Fin 1024) (g : Nat) (x : Group), s.pairPresent p = true ∧ g = 35 ∧ look (s.vault p).groups g {} = x ∧ 4 ≤ x.used ∧ (s.vault p).narrow = none ∧
        (s.vault p).halfGone (!groupHalf g) = false)
    ∧ (∃ (s : State) (p : Fin 1024) (g : Nat) (x : Group), s.pairPresent p = true ∧ g = 79 ∧ look (s.vault p).groups g {} = x ∧ x.used < 2)
    ∧ (∃ (s : State) (p : Fin 1024) (g : Nat) (x : Group), s.pairPresent p = true ∧ g = 64 ∧ look (s.vault p).groups g {} = x ∧ 2 ≤ x.used) :=
  ⟨⟨live, 1023, 2 ^ 31 - 128, 128, [7], by decide⟩, ⟨State.reset, by decide⟩, ⟨{ live with geo := { live.geo with absent := [3] } }, 3, by decide⟩, ⟨live, 0, 0, 0, _, by decide, rfl, by decide, by decide, by decide, by decide, by decide⟩,
  ⟨withVault { sortie := some 0 }, 5, 0, modAddr 5 0, by decide⟩, ⟨withVault { held := [held0] }, 5, 0, modAddr 5 0, _, by decide, rfl, by decide⟩,
  ⟨{}, rfl, by decide⟩, ⟨{ held := List.replicate 64 held0 }, by decide⟩,
  ⟨withVault {}, 5, held0, _, _, rfl, by decide, rfl, rfl⟩, ⟨withVault {}, 5, { held0 with write := true, data := List.replicate 128 1, len := 128 }, _, rfl, by decide, rfl, rfl⟩,
  ⟨{ withVault { merge := [merge0] } with now := 1024 }, 5, 3, merge0, by decide⟩, ⟨{ withVault { held := [held0] } with now := 16384 }, 5, 0, held0, by decide⟩,
  ⟨{ withVault { held := [{ held0 with cls := 2 }] } with now := 65536 }, 5, 0, { held0 with cls := 2 }, by decide⟩,
  ⟨live, 15, by decide⟩, ⟨withVault { pausedUntil := some 0 }, 5, by decide⟩, ⟨timed 3584, 5, by decide⟩, ⟨live, 5, by decide⟩,
  ⟨{ withVault { canaryAt := some 0 } with now := 10000000001 }, 5, 0, by decide⟩, ⟨{ withVault { canaryAt := some 0 } with now := 10000000000 }, 5, 0, by decide⟩,
  ⟨timed 3520, 5, by decide⟩, ⟨{ live with now := 1000000000000000 }, 5, by decide⟩, ⟨live, 5, by decide⟩,
  ⟨withVault { groups := [(37, { used := 3 })] }, 5, 37, _, by decide, rfl, rfl, by decide⟩, ⟨withVault { groups := [(37, { used := 4 })] }, 5, 37, _, by decide, rfl, rfl, by decide⟩,
  ⟨withVault { groups := [(35, { used := 4 })] }, 5, 35, _, by decide, rfl, rfl, by decide, by decide, by decide⟩,
  ⟨withVault { groups := [(79, { used := 1 })] }, 5, 79, _, by decide, rfl, rfl, by decide⟩, ⟨withVault { groups := [(64, { used := 2 })] }, 5, 64, _, by decide, rfl, rfl, by decide⟩⟩

theorem witness_CheckValues :
    (∃ (s : State) (p : Fin 2) (c : Fin 16), s.hostWrites p = true ∧ s.hasChan c = true ∧ s.owns p = true ∧ (s.chan c).scanning = false ∧ (s.chan c).checking = false ∧ (s.chan c).fifo = [] ∧ (s.chan c).continue' = false)
    ∧ (∃ (s : State) (p : Fin 2) (c : Fin 16), s.hostWrites p = true ∧ s.hasChan c = true ∧ s.owns p = true ∧ (s.chan c).scanning = true)
    ∧ (∃ (s : State) (p : Fin 2) (c : Fin 16), s.hostWrites p = true ∧ s.hasChan c = true ∧ s.owns p = false)
    ∧ (∃ (s : State) (c : Fin 16), (s.chan c).checking = true ∧ (s.chan c).fifo = [] ∧ (s.chan c).alg = true ∧ (s.chan c).overrun = false ∧ (s.chan c).crc = (s.chan c).expect)
    ∧ (∃ (s : State) (c : Fin 16), (s.chan c).checking = true ∧ (s.chan c).fifo = [] ∧ (s.chan c).alg = false ∧ (s.chan c).overrun = false ∧
        ((s.chan c).crc.toNat % 2 ^ 32) ^^^ 0xFFFFFFFF = (s.chan c).expect.toNat % 2 ^ 32)
    ∧ (∃ (s : State) (c : Fin 16), (s.chan c).checking = true ∧ (s.chan c).fifo = [] ∧ (s.chan c).overrun = true)
    ∧ (∃ (s t : State) (c : Fin 16) (alg : Bool) (start len n : Nat) (crc : BitVec 64), (s.chan c).scanning = true ∧ (s.chan c).latched = some (alg, start, len) ∧
        s.cvScan alg (s.chan c).by' (s.chan c).crc start len (len / 128 + 2) = (t, crc, n, none))
    ∧ (∃ (s t : State) (c : Fin 16) (alg : Bool) (start len n : Nat) (crc : BitVec 64) (f : Nat × Nat), (s.chan c).scanning = true ∧ (s.chan c).latched = some (alg, start, len) ∧
        s.cvScan alg (s.chan c).by' (s.chan c).crc start len (len / 128 + 2) = (t, crc, n, some f)) :=
  ⟨⟨live, 0, 15, by decide⟩, ⟨withChan { scanning := true }, 0, 15, by decide⟩, ⟨ownedBy 1 live, 0, 0, by decide⟩, ⟨withChan { checking := true, alg := true, crc := 5, expect := 5 }, 15, by decide⟩,
  ⟨withChan { checking := true }, 15, by decide⟩, ⟨withChan { checking := true, overrun := true }, 15, by decide⟩,
  ⟨withChan { scanning := true, latched := some (false, 0, 0) }, _, 15, false, 0, 0, 0, _, by decide, by decide, rfl⟩,
  ⟨withChan { scanning := true, latched := some (false, 2 ^ 45, 8) }, _, 15, false, _, _, _, _, _, by decide, rfl, rfl⟩⟩

theorem witness_PitchStages :
    (∃ s : State, s.lantern.stage = 1)
    ∧ (∃ s : State, s.lantern.stage = 2 ∧ s.board.waitingReset = false ∧ s.trust.fwState ≠ .recovery ∧ s.lantern.job = none ∧ s.lantern.clearing = none)
    ∧ (∃ s : State, s.latchStands = true) ∧ (∃ s : State, s.latchStands = false ∧ orderCode s.fuses = 0)
    ∧ (∃ (s : State) (w e : Straps), s.latchStands = false ∧ orderCode s.fuses ≠ 0 ∧ s.lantern.both = true ∧ w ≠ e)
    ∧ (∃ (s : State) (w : Straps), s.latchStands = false ∧ orderCode s.fuses ≠ 0 ∧ w.recovery = true)
    ∧ (∃ (s : State) (w : Straps), s.latchStands = false ∧ orderCode s.fuses ≠ 0 ∧ w.recovery = false ∧ s.board.resetLow = true)
    ∧ (∃ (s : State) (w : Straps), s.latchStands = false ∧ orderCode s.fuses ≠ 0 ∧ w.recovery = false ∧ s.board.resetLow = false ∧ 3 ≤ s.lantern.goodPolls)
    ∧ (∃ s : State, s.lantern.stage = 0xA ∧ s.pitchGoes = true ∧ 3 ≤ s.lantern.goodPolls) ∧ (∃ s : State, s.lantern.goodPolls < 3)
    ∧ (∃ s : State, s.lantern.stage = 3 ∧ s.pitchGoes = true ∧ s.trust.slotIn .pending = none ∧ s.trust.slotIn .committed = none)
    ∧ (∃ s : State, s.lantern.stage = 4 ∧ s.pitchGoes = true ∧ s.seam.noPeer = true)
    ∧ (∃ s : State, s.lantern.stage = 5 ∧ s.pitchGoes = true) ∧ (∃ s : State, s.lantern.stage = 6 ∧ s.pitchGoes = true)
    ∧ (∃ s : State, s.lantern.stage = 7 ∧ s.pitchGoes = true) ∧ (∃ s : State, s.lantern.stage = 9 ∧ s.pitchGoes = true)
    ∧ (∃ s : State, s.lantern.stage.toNat ≠ 2) ∧ (∃ s : State, s.lantern.stage.toNat = 3 ∧ s.pitchGoes = false) :=
  ⟨⟨atStage 1, rfl⟩, ⟨atStage 2, by decide⟩, ⟨latched 0 false, by decide⟩, ⟨{ live with fuses := { live.fuses with clockMhz := 1 } }, by decide⟩,
  ⟨{ live with lantern := { both := true } }, {}, { recovery := true }, by decide⟩, ⟨live, { recovery := true }, by decide⟩,
  ⟨withBoard { resetLow := true }, {}, by decide⟩, ⟨{ live with lantern := { goodPolls := 3 } }, {}, by decide⟩, ⟨{ live with lantern := { stage := 0xA, goodPolls := 3 } }, by decide⟩, ⟨live, by decide⟩,
  ⟨{ atStage 3 with trust := { slotA := {}, slotB := {} } }, by decide⟩, ⟨{ atStage 4 with seam := { noPeer := true } }, by decide⟩,
  ⟨atStage 5, by decide⟩, ⟨atStage 6, by decide⟩, ⟨atStage 7, by decide⟩, ⟨atStage 9, by decide⟩, ⟨live, by decide⟩, ⟨{ latched 0 false with lantern := { stage := 3 } }, by decide⟩⟩

theorem witness_MemoryCanonical :
    ∃ m n : Mem, Mem.wf m = true ∧ Mem.wf n = true ∧ (∀ a, readByte m a = readByte n a) :=
  ⟨[(5, 7)], [(5, 7)], rfl, rfl, fun _ => rfl⟩
end Sys2Proof.Tests
end

section
/-! PROOF. Staged settings: RATION_APPLY and CR_APPLY latch a consistent shadow set and report the first fault of an
inconsistent one (00_scope.md R13, R14), and CR_HEAD moves within its ring (08_warden_mailboxes.md R219). -/

namespace Sys2Proof.Machine

open Sys2Proof

/-! ## The Ration set -/

theorem State.applyRations_pending {s : State} (hp : s.rations.pendingSet.isSome = true) : s.applyRations = s :=
  if_pos hp

theorem State.applyRations_consistent {s : State} (hp : s.rations.pendingSet = none)
    (hf : s.rations.shadow.fault = none) :
    s.applyRations = { s with rations := { s.rations with pendingSet := some (s.rations.shadow, s.now) } } := by
  simp [applyRations, hp, hf]

theorem State.applyRations_fault {s : State} {o : Nat} (hp : s.rations.pendingSet = none)
    (hf : s.rations.shadow.fault = some o) :
    s.applyRations = { s with rations := { s.rations with applyErr := true, errWhere := BitVec.ofNat 16 o } } := by
  simp [applyRations, hp, hf]

theorem exec_rationApply_of_owner {s : State} {p : Fin 2} (hw : s.hostWrites p = true) (ho : s.owns p = true) :
    exec (.rationApply p) s = .next s.applyRations := by
  change execRationApply p s = _
  rw [execRationApply, if_pos hw, if_pos ho]

/-! ## The ring set of a host port -/

@[simp] theorem State.setIntake_port (s : State) (c p : Nat) (f : Intake → Intake) :
    (s.setIntake c f).port p = s.port p := rfl

@[simp] theorem State.setPort_intake (s : State) (c p : Nat) (f : HostPort → HostPort) :
    (s.setPort p f).intake c = s.intake c := rfl

/-- The intake counts of a port cleared, as CR_APPLY clears them before any check (R502). -/
def State.clearCounts (s : State) (p : Nat) : State :=
  s.setIntake p (fun i => { i with skips := 0, lockedWrites := 0, noRing := 0 })

@[simp] theorem State.clearCounts_port (s : State) (p q : Nat) : (s.clearCounts p).port q = s.port q := rfl

@[simp] theorem State.clearCounts_intake (s : State) (p : Nat) :
    (s.clearCounts p).intake p = { s.intake p with skips := 0, lockedWrites := 0, noRing := 0 } :=
  State.setIntake_intake ..

theorem State.applyRings_consistent {s : State} {p : Nat} (hp : (s.port p).pendingSet = none)
    (hf : ringsFault (s.port p).shadow = none) :
    s.applyRings p = (s.clearCounts p).setPort p (fun h => { h with pendingSet := some (h.shadow, s.now) }) := by
  simp [applyRings, clearCounts, hp, hf]

theorem State.applyRings_fault {s : State} {p o : Nat} (hp : (s.port p).pendingSet = none)
    (hf : ringsFault (s.port p).shadow = some o) :
    s.applyRings p = (s.clearCounts p).setPort p (fun h => { h with applyErr := true, errWhere := BitVec.ofNat 16 o }) := by
  simp [applyRings, clearCounts, hp, hf]

theorem exec_crApply_of_hostWrites {s : State} {p : Fin 2} (hw : s.hostWrites p = true) :
    exec (.crApply p) s = .next (s.applyRings p) := by
  change execCrApply p s = _
  rw [execCrApply, if_pos hw]

theorem State.applyRings_ports_intakes (s : State) (p : Nat) : Only [.ports, .intakes] s (s.applyRings p) :=
  (s.applyRings_only p).mono (by decide)

/-! ## CR_HEAD -/

@[simp] theorem State.setRing_ring (s : State) (p ring : Nat) (f : Ring → Ring) :
    look ((s.setRing p ring f).port p).rings ring {} = f (look (s.port p).rings ring {}) := by
  simp [setRing]

theorem State.writeHead_within {s : State} {p ring : Nat} {head : BitVec 32}
    (hr : ((look (s.port p).rings ring {}).tail - head).toNat ≤ (look (s.port p).committed ring {}).entries) :
    s.writeHead p ring head = s.setRing p ring (fun x => { x with head := head }) :=
  if_neg (Nat.not_lt.mpr hr)

theorem exec_crHeadWrite_of_hostWrites {s : State} {p : Fin 2} {ring : Fin 64} {head : BitVec 32}
    (hw : s.hostWrites p = true) : exec (.crHeadWrite p ring head) s = .next (s.writeHead p ring head) := by
  change execCrHeadWrite p ring head s = _
  rw [execCrHeadWrite, if_pos hw]

/-- Settles O17: the owner's apply and the port's apply each come down to one equation per case (pending, consistent, at
fault), and a head within its ring to one change of that ring. -/
theorem stagedApply : Obligations.StagedApply := by
  refine ⟨fun s p hw ho hp hf => ?_, fun s p o hw ho hp hf => ?_, fun s p hw ho hp => ?_, fun s p hw hp hf => ?_,
    fun s p o hw hp hf => ?_, fun s p ring h hw hr => ?_⟩
  · rw [exec_rationApply_of_owner hw ho, State.applyRations_consistent hp hf]
  · rw [exec_rationApply_of_owner hw ho, State.applyRations_fault hp hf]
  · rw [exec_rationApply_of_owner hw ho, State.applyRations_pending hp]
  · refine ⟨s.applyRings p, exec_crApply_of_hostWrites hw, ?_⟩
    have hOnly := s.applyRings_ports_intakes p
    rw [State.applyRings_consistent hp hf] at hOnly ⊢
    simpa using hOnly
  · refine ⟨s.applyRings p, exec_crApply_of_hostWrites hw, ?_⟩
    have hOnly := s.applyRings_ports_intakes p
    rw [State.applyRings_fault hp hf] at hOnly ⊢
    simpa [hp] using hOnly
  · rw [exec_crHeadWrite_of_hostWrites hw, State.writeHead_within hr]
    exact ⟨_, rfl, State.setRing_ring .., State.setRing_only ..⟩

end Sys2Proof.Machine
end

section
/-! PROOF. The commands that read out a record or a list to host memory (01_seven_levels.md R36, 14_pitch.md R406,
07_vaults_and_protection.md R198): with parameters in range each comes down to one read-out of three endings. -/

namespace Sys2Proof.Machine

open Sys2Proof

/-! ## Checks and copies of an admitted command -/

theorem Adm.checked_of_pass {a : Adm} {s : State} {l : List Check} {go : State → State} (h : ∀ x ∈ l, x.1 = false) :
    a.checked s l go = go s := by
  rw [checked, firstFault_none h]

theorem Adm.noPort_of_hostPort {a : Adm} (h : a.ctrl.val < 2) : a.noPort = false :=
  decide_eq_false (Nat.not_le.mpr h)

theorem Adm.copyOut_of_linkUp {a : Adm} {s : State} (h : (s.port a.ctrl).linkUp = true) (addr : Nat) (bs : List Byte)
    (result : Nat) : a.copyOut s addr bs result = a.done (s.hostWrite a.ctrl addr bs) result :=
  if_pos h

theorem Adm.copyOut_of_linkDown {a : Adm} {s : State} (h : (s.port a.ctrl).linkUp = false) (addr : Nat) (bs : List Byte)
    (result : Nat) : a.copyOut s addr bs result = a.finish s { status := .linkDown, detail := 0x1F } :=
  if_neg (Bool.not_eq_true _ ▸ h)

/-! ## The read-out -/

/-- The copy of at most `n` items that a read command makes once its checks have passed. -/
def Adm.readOut (a : Adm) (s : State) (n addr : Nat) (bs : List Byte) (result : Nat := 0) : State :=
  if n = 0 then a.finish s { status := .doneEmpty } else a.copyOut s addr bs result

section
variable {a : Adm} {s : State} {n : Nat} (addr : Nat) (bs : List Byte) (result : Nat)

theorem Adm.readOut_of_linkUp (hn : 0 < n) (h : (s.port a.ctrl).linkUp = true) :
    a.readOut s n addr bs result = a.done (s.hostWrite a.ctrl addr bs) result := by
  rw [readOut, if_neg hn.ne', copyOut_of_linkUp h]

theorem Adm.readOut_of_linkDown (hn : 0 < n) (h : (s.port a.ctrl).linkUp = false) :
    a.readOut s n addr bs result = a.finish s { status := .linkDown, detail := 0x1F } := by
  rw [readOut, if_neg hn.ne', copyOut_of_linkDown h]

theorem Adm.readOut_of_zero (hn : n = 0) : a.readOut s n addr bs result = a.finish s { status := .doneEmpty } :=
  if_pos hn

end

/-! ## The read commands with their parameters in range -/

/-- The list DF_SOURCE names: 0 the fused list, 1 the overlay (14_pitch.md Table 14-10). -/
def State.defectList (s : State) (source : Nat) : List OvEntry :=
  if source = 0 then s.fuses.defects else s.geo.overlay

theorem State.defectList_fused (s : State) {source : Nat} (h : source = 0) : s.defectList source = s.fuses.defects :=
  if_pos h

theorem State.defectList_overlay (s : State) {source : Nat} (h : source = 1) : s.defectList source = s.geo.overlay :=
  if_neg (by omega)

section
variable {s u : State} {c : Fin 4} {k : Fin 1024} {a : Adm}

theorem Adm.ctrl_lt_two_of_admission {code : Nat} (h : s.admission code c k = some (u, a)) (hc : c.val < 2) :
    a.ctrl.val < 2 :=
  (State.admission_adm h).1 ▸ hc

/-- The three endings of a command that comes down to a read-out, by the number asked for and its port's link. -/
theorem readOut_endings {code n addr result : Nat} {bs : List Byte} {i : Instr} (h : s.admission code c k = some (u, a))
    (hi : exec i s = .next (a.readOut u n addr bs result)) :
    (0 < n → (u.port c).linkUp = true → exec i s = .next (a.done (u.hostWrite c addr bs) result))
      ∧ (0 < n → (u.port c).linkUp = false → exec i s = .next (a.finish u { status := .linkDown, detail := 0x1F }))
      ∧ (n = 0 → exec i s = .next (a.finish u { status := .doneEmpty })) := by
  rw [hi, ← (State.admission_adm h).1]
  exact ⟨fun hn hup => by rw [Adm.readOut_of_linkUp addr bs result hn hup],
    fun hn hdown => by rw [Adm.readOut_of_linkDown addr bs result hn hdown],
    fun hn => by rw [Adm.readOut_of_zero addr bs result hn]⟩

theorem exec_geometryRead_of_inRange (h : s.admission 0x0010 c k = some (u, a)) (hc : c.val < 2)
    (haddr : field a.b 24 8 % 64 = 0) (hlen : field a.b 32 2 ≤ 8320) :
    exec (.geometryRead c k) s
      = .next (a.readOut u (field a.b 32 2) (field a.b 24 8) (u.geoRecord.take (field a.b 32 2))) := by
  change execGeometryRead c k s = _
  rw [execGeometryRead, State.serve_admission h, Adm.checked_of_pass, Adm.readOut]
  simp [Adm.noPort_of_hostPort (Adm.ctrl_lt_two_of_admission h hc), haddr, hlen]

theorem exec_defectRead_of_inRange (h : s.admission 0x0410 c k = some (u, a)) (hc : c.val < 2)
    (hsrc : field a.b 24 1 ≤ 1) (hcount : field a.b 32 4 ≤ 65536) (haddr : field a.b 40 8 % 64 = 0) :
    exec (.defectRead c k) s
      = .next (a.readOut u (field a.b 32 4) (field a.b 40 8)
          ((((u.defectList (field a.b 24 1)).drop (field a.b 28 4)).take (field a.b 32 4)).flatMap OvEntry.bytes)
          (((u.defectList (field a.b 24 1)).drop (field a.b 28 4)).take (field a.b 32 4)).length) := by
  change execDefectRead c k s = _
  rw [execDefectRead, State.serve_admission h, Adm.checked_of_pass, Adm.readOut, State.defectList]
  simp [Adm.noPort_of_hostPort (Adm.ctrl_lt_two_of_admission h hc), hsrc, hcount, haddr]

theorem exec_memErrlogRead_of_inRange (h : s.admission 0x0044 c k = some (u, a)) (hc : c.val < 2)
    (hcount : field a.b 26 2 ≤ 16384) :
    exec (.memErrlogRead c k) s
      = .next (a.readOut u (field a.b 26 2) (field a.b 32 8)
          (((logFrom u.mem.log (field a.b 24 2)).take (field a.b 26 2)).flatMap LogEntry.bytes)
          ((logFrom u.mem.log (field a.b 24 2)).take (field a.b 26 2)).length) := by
  change execMemErrlogRead c k s = _
  rw [execMemErrlogRead, State.serve_admission h, Adm.checked_of_pass, Adm.readOut]
  simp [Adm.noPort_of_hostPort (Adm.ctrl_lt_two_of_admission h hc), hcount]

end

/-- Settles O19: each command is one read-out of its record or list, which ends in one of three ways by the number asked
for and the port's link. -/
theorem geometryCommands : Obligations.GeometryCommands := by
  refine fun s u c k a hc => ⟨fun h haddr hlen => ?_, fun h hsrc hcount haddr => ?_, fun h hcount => ?_⟩
  · exact readOut_endings h (exec_geometryRead_of_inRange h hc haddr hlen)
  · obtain ⟨hup, hdown, hzero⟩ := readOut_endings h (exec_defectRead_of_inRange h hc hsrc hcount haddr)
    exact ⟨fun hs => u.defectList_fused hs ▸ hup, fun hs => u.defectList_overlay hs ▸ hup, hdown, hzero⟩
  · exact readOut_endings h (exec_memErrlogRead_of_inRange h hc hcount)

end Sys2Proof.Machine
end

section
/-! PROOF. The commands that set the Vestibule size, the mode, the role of H-E and the scrub interval
(03_cores_and_arrays.md R65, 00_scope.md R5, 14_pitch.md R406, R407, 07_vaults_and_protection.md R195): one equation for
each command with its parameters in range. -/

namespace Sys2Proof.Machine

open Sys2Proof

section
variable {s u : State} {c : Fin 4} {k : Fin 1024} {a : Adm}

theorem exec_coreConfig_of_inRange (h : s.admission 0x0020 c k = some (u, a)) (hmul : field a.b 24 2 % 64 = 0)
    (hlo : 64 ≤ field a.b 24 2) (hhi : field a.b 24 2 ≤ 512) (hfree : u.vestibulesHold = false) :
    exec (.coreConfig c k) s = .next (a.defer u (.vestibule (field a.b 24 2))) := by
  change execCoreConfig c k s = _
  rw [execCoreConfig, State.serve_admission h, Adm.checked_of_pass]
  simp [hmul, hlo, hhi, hfree]

/-- Outside Split mode the persisted setting changes at once. -/
theorem exec_modeSet_of_notSplit (h : s.admission 0x0021 c k = some (u, a)) (hval : field a.b 24 1 ≤ 1)
    (hmode : u.geo.mode ≠ 1) :
    exec (.modeSet c k) s
      = .next (a.done (u.setSettings (fun x => { x with modeSplit := decide (field a.b 24 1 = 1) }))) := by
  change execModeSet c k s = _
  rw [execModeSet, State.serve_admission h, Adm.checked_of_pass]
  · rw [if_pos hmode]
  · simp [hval]

/-- A Split half that asks for Twin mode waits until the other half has asked for it too (R407). -/
theorem exec_modeSet_twin_of_split (h : s.admission 0x0021 c k = some (u, a)) (hval : field a.b 24 1 = 0)
    (hmode : u.geo.mode = 1) :
    exec (.modeSet c k) s
      = .next (if u.lantern.modeReqPeer = some false then
          a.done (((u.tell .asksTwin).setSettings (fun x => { x with modeSplit := false })).setLantern
            (fun l => { l with modeReq := none, modeReqPeer := none }))
        else a.done ((u.tell .asksTwin).setLantern (fun l => { l with modeReq := some false })) 1) := by
  change execModeSet c k s = _
  rw [execModeSet, State.serve_admission h, Adm.checked_of_pass]
  · simp [hval, hmode]
  · simp [hval]

/-- In Split mode PITCH_CONFIG leaves the role of H-E as it was. -/
theorem exec_pitchConfig_of_inRange (h : s.admission 0x0400 c k = some (u, a)) (hrole : field a.b 24 1 ≤ 1)
    (hquick : field a.b 25 1 ≤ 1) :
    exec (.pitchConfig c k) s
      = .next (a.done (u.setSettings (fun x =>
          { x with quickEn := decide (field a.b 25 1 = 1),
                   heFarTier := if u.geo.mode = 1 then x.heFarTier else decide (field a.b 24 1 = 1) }))) := by
  change execPitchConfig c k s = _
  rw [execPitchConfig, State.serve_admission h, Adm.checked_of_pass]
  simp [hrole, hquick]

theorem exec_memScrubSet_of_inRange (h : s.admission 0x0041 c k = some (u, a)) (hlo : 1 ≤ field a.b 24 1)
    (hhi : field a.b 24 1 ≤ 168) :
    exec (.memScrubSet c k) s = .next (a.done (u.setSettings (fun x => { x with scrubHours := field a.b 24 1 }))) := by
  change execMemScrubSet c k s = _
  rw [execMemScrubSet, State.serve_admission h, Adm.checked_of_pass]
  simp [Nat.ne_of_gt hlo, hhi]

end

/-- Settles O20: each command comes down to its one equation; MODE_SET in Split mode divides by what the other half has
asked for, PITCH_CONFIG by the mode. -/
theorem settingCommands : Obligations.SettingCommands := by
  refine fun s u c k a => ⟨exec_coreConfig_of_inRange, exec_modeSet_of_notSplit, fun h hval hmode hpeer => ?_,
    fun h hval hmode hpeer => ?_, fun h hrole hquick hmode => ?_, fun h hrole hquick hmode => ?_,
    exec_memScrubSet_of_inRange⟩
  · rw [exec_modeSet_twin_of_split h hval hmode, if_neg hpeer]
  · rw [exec_modeSet_twin_of_split h hval hmode, if_pos hpeer]
  · rw [exec_pitchConfig_of_inRange h hrole hquick, State.setSettings, if_neg hmode]
  · rw [exec_pitchConfig_of_inRange h hrole hquick, State.setSettings, if_pos hmode]

end Sys2Proof.Machine
end

section
/-! PROOF. The operations of a core (03_cores_and_arrays.md R64, R66, R74, R76, 04_special_functions.md R102, R110,
01_seven_levels.md R31): what dispatch on a core does in each of its cases is said once, and each operation then only
gives what its body does. The rows and sums of the last clauses are facts about smRow and freeSum alone. -/

namespace Sys2Proof.Machine

open Sys2Proof

/-! ## Dispatch on a core -/

section
variable {s t u : State} {k : OpKind} {tag op : Nat} {c : OpCtx} {e : Ending} {zero : List Byte → Bool}
  {ranges : List Byte → List CoreRange} {body : OpCtx → State → State × Ending}

/-- An operation that starts on its core runs to the state and the ending its body gives. -/
theorem State.runCore_of_body (h : s.atCore k tag op ranges = some (c, u)) (hz : zero c.d = false)
    (hb : body c u = (t, e)) (ht : t.unstalled) : s.runCore k tag op zero ranges body = t.ranTo tag op e := by
  have hw : (body c u).1.run.stalled = false := by rw [hb]; exact ht
  rw [State.runCore_atCore h hz body hw, hb]

/-- An operation whose core has been lost since admission makes no access. -/
theorem State.runCore_of_lost (h : s.toDispatch k tag op = some c) (hu : (s.opStart c).unstalled)
    (hp : (s.opStart c).pairPresent c.pair = false) :
    s.runCore k tag op zero ranges body = (s.opStart c).ranTo tag op (vaultLostEnding c.pair) := by
  rw [runCore, State.runOp_dispatch h]
  · simp [hp]
  · simpa [unstalled, hp] using hu

/-- An operation with a zero length makes no access (00_scope.md R16). -/
theorem State.runCore_of_zero (h : s.toDispatch k tag op = some c) (hu : (s.opStart c).unstalled)
    (hp : (s.opStart c).pairPresent c.pair = true) (hz : zero c.d = true) :
    s.runCore k tag op zero ranges body = (s.opStart c).ranTo tag op { status := .doneEmpty } := by
  rw [runCore, State.runOp_dispatch h]
  · simp [hp, hz]
  · simpa [unstalled, hp, hz] using hu

end

theorem vaultLostEnding_eq (p : Nat) :
    vaultLostEnding p
      = { status := .vaultLost, detail := BitVec.ofNat 32 p, result := BitVec.ofNat 64 (p * 2 ^ 31) } := by
  rw [vaultLostEnding, modAddr, Nat.add_zero]

/-- The kinds of operation that run on one core, with the instruction of each. -/
def coreOps : List (OpKind × (Nat → Nat → Instr)) :=
  [(.mm, .opMm), (.sfApply, .opSfApply), (.softmax, .opSoftmax), (.norm, .opNorm), (.dmCopy, .opDmCopy)]

theorem exec_coreOp_eq_runCore {k : OpKind} {i : Nat → Nat → Instr} (h : (k, i) ∈ coreOps) (s : State) (tag op : Nat) :
    ∃ zero ranges body, exec (i tag op) s = .next (s.runCore k tag op zero ranges body) := by
  simp only [coreOps, List.mem_cons, List.not_mem_nil, or_false, Prod.mk.injEq] at h
  obtain ⟨rfl, rfl⟩ | ⟨rfl, rfl⟩ | ⟨rfl, rfl⟩ | ⟨rfl, rfl⟩ | ⟨rfl, rfl⟩ := h <;> exact ⟨_, _, _, rfl⟩

theorem exec_coreOp_of_lost {s : State} {tag op : Nat} {c : OpCtx} {k : OpKind} {i : Nat → Nat → Instr}
    (hi : (k, i) ∈ coreOps) (h : s.toDispatch k tag op = some c) (hu : (s.opStart c).unstalled)
    (hp : (s.opStart c).pairPresent c.pair = false) :
    exec (i tag op) s = .next ((s.opStart c).ranTo tag op
      { status := .vaultLost, detail := BitVec.ofNat 32 c.pair, result := BitVec.ofNat 64 (c.pair * 2 ^ 31) }) := by
  obtain ⟨zero, ranges, body, hexec⟩ := exec_coreOp_eq_runCore hi s tag op
  rw [hexec, State.runCore_of_lost h hu hp, vaultLostEnding_eq]

/-! ## The special functions -/

section
variable {s u v : State} {tag op : Nat} {c : OpCtx} {pick : Nat → Nat} {ws : List (Nat × List Byte)} {fl : BitVec 8}

theorem exec_opSfApply_of_atCore (h : s.atCore .sfApply tag op sfRanges = some (c, u)) (hn : 0 < field c.d 52 4)
    (hdraw : u.convDraws c.pair (field c.d 116 1) (field c.d 120 4) = (pick, v))
    (hrows : sfApply (v.reader c.pair c.ord) c.d pick = (ws, fl)) (hw : (v.storeLate ws).unstalled) :
    exec (.opSfApply tag op) s = .next ((v.storeLate ws).ranTo tag op { status := .done, flags := fl }) := by
  change execOpSfApply tag op s = _
  exact congrArg _ (State.runCore_of_body h (by simp [hn.ne']) (by simp only [hdraw, hrows]) hw)

theorem exec_opSoftmax_of_atCore {emp : Bool} (h : s.atCore .softmax tag op smRanges = some (c, u))
    (hn : 0 < field c.d 48 4) (hr : 0 < field c.d 52 2)
    (hdraw : u.convDraws c.pair (field c.d 145 1) (field c.d 148 4) = (pick, v))
    (hrows : softmax (v.reader c.pair c.ord) c.d pick = (ws, fl, emp)) (hw : (v.storeLate ws).unstalled) :
    exec (.opSoftmax tag op) s
      = .next ((v.storeLate ws).ranTo tag op { status := if emp then .doneEmptyRow else .done, flags := fl }) := by
  change execOpSoftmax tag op s = _
  exact congrArg _ (State.runCore_of_body h (by simp [hn.ne', hr.ne']) (by simp only [hdraw, hrows]) hw)

theorem exec_opNorm_of_atCore (h : s.atCore .norm tag op nmRanges = some (c, u)) (hn : 0 < field c.d 52 4)
    (hr : 0 < field c.d 50 2) (hdraw : u.convDraws c.pair (field c.d 122 1) (field c.d 128 4) = (pick, v))
    (hrows : norm (v.reader c.pair c.ord) c.d pick = (ws, fl)) (hw : (v.storeLate ws).unstalled) :
    exec (.opNorm tag op) s = .next ((v.storeLate ws).ranTo tag op { status := .done, flags := fl }) := by
  change execOpNorm tag op s = _
  exact congrArg _ (State.runCore_of_body h (by simp [hn.ne', hr.ne']) (by simp only [hdraw, hrows]) hw)

end

section
variable {s : State} {tag op : Nat} {c : OpCtx}

theorem exec_opSfApply_of_zero (h : s.toDispatch .sfApply tag op = some c) (hu : (s.opStart c).unstalled)
    (hp : (s.opStart c).pairPresent c.pair = true) (hz : field c.d 52 4 = 0) :
    exec (.opSfApply tag op) s = .next ((s.opStart c).ranTo tag op { status := .doneEmpty }) := by
  change execOpSfApply tag op s = _
  rw [execOpSfApply, State.runCore_of_zero h hu hp (by simp [hz])]

theorem exec_opSoftmax_of_zero (h : s.toDispatch .softmax tag op = some c) (hu : (s.opStart c).unstalled)
    (hp : (s.opStart c).pairPresent c.pair = true) (hz : field c.d 48 4 = 0 ∨ field c.d 52 2 = 0) :
    exec (.opSoftmax tag op) s = .next ((s.opStart c).ranTo tag op { status := .doneEmpty }) := by
  change execOpSoftmax tag op s = _
  rw [execOpSoftmax, State.runCore_of_zero h hu hp (by simpa using hz)]

theorem exec_opNorm_of_zero (h : s.toDispatch .norm tag op = some c) (hu : (s.opStart c).unstalled)
    (hp : (s.opStart c).pairPresent c.pair = true) (hz : field c.d 52 4 = 0 ∨ field c.d 50 2 = 0) :
    exec (.opNorm tag op) s = .next ((s.opStart c).ranTo tag op { status := .doneEmpty }) := by
  change execOpNorm tag op s = _
  rw [execOpNorm, State.runCore_of_zero h hu hp (by simpa using hz)]

end

/-! ## The array product -/

theorem mmEmpty_iff {d : List Byte} : mmEmpty d = true ↔ mmM d = 0 ∨ mmN d = 0 ∨ mmK d = 0 := by
  simp [mmEmpty, or_assoc]

section
variable {s u : State} {tag op : Nat} {c : OpCtx}

theorem exec_opMm_of_empty (h : s.atCore .mm tag op mmRunRanges = some (c, u)) (he : mmEmpty c.d = true)
    (hu : u.unstalled) :
    exec (.opMm tag op) s = .next (State.ranTo (if mmClear c.d
      then u.setCore c.pair (fun x => x.setTiles c.ord true (mmN c.d) (mmTiles c.d) (fun _ _ _ => 0) 0) else u)
      tag op { status := .done }) := by
  change execOpMm tag op s = _
  rw [execOpMm, State.runCore_of_body h rfl (if_pos he)]
  split <;> exact hu

/-- A product on operands free of faults: what it keeps of B and what it loads go into one run. -/
theorem exec_opMm_of_nonempty {bs : List (List Byte)} {io : Io} (h : s.atCore .mm tag op mmRunRanges = some (c, u))
    (he : mmEmpty c.d = false) (hwidth : mmN c.d ≤ (u.core c.pair).width)
    (hseal : ∀ r ∈ mmBRuns c.d, mmSpace c.d = 0 ∨ c.sealed u (spaceAddr (mmSpace c.d) r.1) r.2 = false)
    (htile : (u.core c.pair).badTile c.d c.ord = none) (hbuf : u.mmKept c = [] ∨ (u.core c.pair).badBuf c.d = none)
    (hload : u.mmLoadB c.who (u.reader c.pair c.ord) (mmSpace c.d) ((mmBRuns c.d).drop (u.mmKept c).length) = (bs, io))
    (hio : io.stop = none) (hu : (io.s.mmRun c (u.mmKept c ++ bs)).1.unstalled) :
    exec (.opMm tag op) s = .next ((io.s.mmRun c (u.mmKept c ++ bs)).1.ranTo tag op
      { status := .done, flags := (io.s.mmRun c (u.mmKept c ++ bs)).2 }) := by
  have hopen : ¬ (mmSpace c.d ≠ 0 ∧
      (mmBRuns c.d).any (fun r => c.sealed u (spaceAddr (mmSpace c.d) r.1) r.2) = true) := by
    rintro ⟨hspace, hany⟩
    obtain ⟨r, hr, hsealed⟩ := List.any_eq_true.mp hany
    exact absurd hsealed (by simp [(hseal r hr).resolve_left hspace])
  have hsound : (if (u.mmKept c).isEmpty then none else (u.core c.pair).badBuf c.d) = none := by
    obtain hnil | hgood := hbuf
    · rw [hnil]; rfl
    · rw [hgood, ite_self]
  change execOpMm tag op s = _
  rw [execOpMm, State.runCore_of_body h rfl _ hu]
  simp only [he, hopen, hwidth.not_gt, htile, hsound, hload, hio, Bool.false_eq_true, if_false]

end

/-! ## Softmax rows -/

/-- The exponentials of a row: none for an entry that does not count (R103). -/
def smExps (tau b : Num) (xs : List (Num × Bool)) : List (Option WRes) :=
  xs.map (fun x => if x.2 && !(x.1.isInf && x.1.sign) then some (smExp tau b x.1) else none)

/-- The entries of a row that count. -/
def smCount (tau b : Num) (xs : List (Num × Bool)) : Nat := ((smExps tau b xs).filter Option.isSome).length

theorem isNan_eq_false_of_isFin {a : Num} (h : a.isFin = true) : a.isNan = false := by
  cases a <;> trivial

theorem isInf_eq_false_of_isFin {a : Num} (h : a.isFin = true) : a.isInf = false := by
  cases a <;> trivial

section
variable {tau b : Num} {xs : List (Num × Bool)} (hs : (smRow tau b true xs).sum.v.isFin = true)
include hs

/-- A row with a finite sum and nothing to add is empty and gives zeros (R102). -/
theorem smRow_of_count_zero (hc : smCount tau b xs = 0) :
    (smRow tau b false xs).ys = xs.map (fun _ => .pure .zero) ∧ (smRow tau b false xs).empty = true := by
  simp only [smCount, smExps] at hc
  simp only [smRow, if_true] at hs
  simp only [smRow, isNan_eq_false_of_isFin hs, isInf_eq_false_of_isFin hs, hc, Bool.false_eq_true, if_true, if_false,
    and_self]

/-- In a row with a finite sum the one entry that counts becomes 1 (R102). -/
theorem smRow_of_count_one (hc : smCount tau b xs = 1) :
    (smRow tau b false xs).ys = (smExps tau b xs).map (fun e => if e.isSome then .pure .one else .pure .zero) := by
  simp only [smCount, smExps] at hc
  simp only [smRow, if_true] at hs
  simp only [smRow, smExps, isNan_eq_false_of_isFin hs, isInf_eq_false_of_isFin hs, hc, Nat.one_ne_zero, Bool.false_eq_true,
    if_true, if_false]

end

theorem smExps_singleton {tau b x : Num} (h : x.isInf = false) : smExps tau b [(x, true)] = [some (smExp tau b x)] := by
  simp [smExps, h]

theorem smCount_of_none_allowed {tau b : Num} {xs : List (Num × Bool)} (h : ∀ x ∈ xs, x.2 = false) :
    smCount tau b xs = 0 := by
  have hnone : smExps tau b xs = List.replicate xs.length none := by
    rw [smExps, ← List.map_const']
    exact List.map_congr_left fun x hx => by simp [h x hx]
  simp [smCount, hnone]

theorem smRow_singleton {tau b x : Num} (h : x.isInf = false)
    (hs : (smRow tau b true [(x, true)]).sum.v.isFin = true) : (smRow tau b false [(x, true)]).ys = [.pure .one] := by
  rw [smRow_of_count_one hs (by simp [smCount, smExps_singleton h]), smExps_singleton h]
  rfl

theorem smRow_of_none_allowed {tau b : Num} {xs : List (Num × Bool)} (h : ∀ x ∈ xs, x.2 = false)
    (hs : (smRow tau b true xs).sum.v.isFin = true) :
    (smRow tau b false xs).ys = List.replicate xs.length (.pure .zero) ∧ (smRow tau b false xs).empty = true := by
  rw [← List.map_const']
  exact smRow_of_count_zero hs (smCount_of_none_allowed h)

/-! ## Sums -/

theorem freeSum_singleton {rnd : Num → Num} {pick : Nat → Nat} {x : Num} (h : x.isZero = false) :
    freeSum rnd pick [x] = rnd x := by
  simp [freeSum, freeSumFrom, h]

/-- Settles O24: each operation is `runCore` with a body of its own, which a lost core or a zero length never reaches; a
softmax row divides by how many of its entries count. -/
theorem coreOperations : Obligations.CoreOperations := by
  refine ⟨fun _ _ _ _ _ _ _ _ _ => exec_opSfApply_of_atCore, fun _ _ _ _ _ _ _ _ _ _ => exec_opSoftmax_of_atCore,
    fun _ _ _ _ _ _ _ _ _ => exec_opNorm_of_atCore, fun s u tag op c h he => exec_opMm_of_empty h (mmEmpty_iff.mpr he),
    fun s u tag op c bs io h hm hn hk => exec_opMm_of_nonempty h ?_,
    fun s tag op c k i hi h hu hp => exec_coreOp_of_lost hi h hu hp,
    fun _ _ _ _ => exec_opSfApply_of_zero, fun _ _ _ _ => exec_opSoftmax_of_zero, fun _ _ _ _ => exec_opNorm_of_zero,
    fun _ _ _ => smRow_singleton, fun _ _ _ => smRow_of_none_allowed, fun _ _ _ => freeSum_singleton⟩
  exact Bool.eq_false_iff.mpr (mmEmpty_iff.not.mpr (by omega))

end Sys2Proof.Machine
end

section
/-! PROOF. The commands of the key-value cache (05_attention_kv_cache.md R116, R119, R138, 07_vaults_and_protection.md
R174): each comes down to one equation once its parameters pass, and KV_POOL over a pool in use to its rejection. -/

namespace Sys2Proof.Machine

open Sys2Proof

/-- A failed check ends a command other than ORDER_SUBMIT with its status and detail, and no result. -/
theorem Adm.checked_of_fault {a : Adm} {s : State} {l : List Check} {go : State → State} {st : Status} {d : BitVec 32}
    (hf : firstFault .slot l = some (st, d)) (hcode : mbCmd a.b ≠ 1) :
    a.checked s l go = a.finish s { status := st, detail := d } := by
  rw [checked, hf]
  simp only [if_neg hcode]
  rfl

theorem State.poolMeetsWindow_zero (s : State) (pair : Nat) : s.poolMeetsWindow pair 0 = false := by
  simp [poolMeetsWindow]

section
variable {s u : State} {c : Fin 4} {k : Fin 1024} {a : Adm}

theorem State.lt_of_pairPresent {p : Nat} (h : s.pairPresent p = true) : p < 1024 := by
  simp only [pairPresent, Bool.and_eq_true, decide_eq_true_eq] at h
  exact h.1.1

/-! ## KV_POOL -/

section
variable (h : s.admission 0x0030 c k = some (u, a)) (hp : u.pairPresent (field a.b 24 2) = true)
  (hhi : field a.b 26 2 ≤ 9216) (hmul : field a.b 26 2 % 16 = 0) (hlo : field a.b 26 2 = 0 ∨ 32 ≤ field a.b 26 2)
include h hp hhi hmul hlo

theorem exec_kvPool_of_unheld (hfree : u.poolHolds (field a.b 24 2) = false)
    (hwin : u.poolMeetsWindow (field a.b 24 2) (field a.b 26 2) = false) :
    exec (.kvPool c k) s
      = .next (a.done (((u.flushSlice (field a.b 24 2)).flushMerge (field a.b 24 2)).setSettings (fun x => { x with
          poolRows := if field a.b 26 2 = 0 then del x.poolRows (field a.b 24 2)
            else put x.poolRows (field a.b 24 2) (field a.b 26 2) }))) := by
  have hpair := State.lt_of_pairPresent hp
  change execKvPool c k s = _
  rw [execKvPool, State.serve_admission h, Adm.checked_of_pass]
  simp [hp, hmul, hfree, hwin]
  omega

/-- A pool that holds a page or a block of a table is not changed (R116). -/
theorem exec_kvPool_of_held (hheld : u.poolHolds (field a.b 24 2) = true) :
    exec (.kvPool c k) s = .next (a.finish u { status := .rejectState, detail := faultAt .slot 26 }) := by
  have hpair : field a.b 24 2 ≤ 1023 := Nat.le_of_lt_succ (State.lt_of_pairPresent hp)
  have hrows : ¬ (0 < field a.b 26 2 ∧ field a.b 26 2 < 32) := by omega
  change execKvPool c k s = _
  rw [execKvPool, State.serve_admission h, Adm.checked_of_fault]
  · simp [firstFault, hp, hmul, hheld, hpair, hhi.not_gt, hrows]
  · simp [State.admission_code h]

end

/-! ## BIVOUAC_SET -/

/-- The Bivouac lies in the far tier (space 2) or in host memory behind the port of the submitting controller (space 3). -/
theorem exec_bivouacSet_of_inRange (h : s.admission 0x0031 c k = some (u, a))
    (hspace : field a.b 24 1 = 2 ∧ field a.b 32 8 + field a.b 40 8 ≤ u.geo.farTierMib * 2 ^ 20
      ∨ field a.b 24 1 = 3 ∧ c.val < 2)
    (hbase : field a.b 32 8 % 65536 = 0) (hsize : field a.b 40 8 % 65536 = 0) (hrec : u.kv.records = []) :
    exec (.bivouacSet c k) s
      = .next (a.done (u.setKv (fun x => { x with
          bivouac := if field a.b 40 8 = 0 then none else some (decide (field a.b 24 1 = 2), field a.b 32 8, field a.b 40 8)
          bivPort := if c = 1 then 1 else 0 }))) := by
  change execBivouacSet c k s = _
  rw [execBivouacSet, State.serve_admission h, Adm.checked_of_pass, (State.admission_adm h).1]
  obtain ⟨hsp, hfar⟩ | ⟨hsp, hport⟩ := hspace
  · simpa [hsp, hbase, hsize, hrec] using hfar
  · simp [hsp, hbase, hsize, hrec, Adm.noPort_of_hostPort (Adm.ctrl_lt_two_of_admission h hport)]

/-! ## KV_MAP_READ -/

/-- A stream in use belongs to a sequence in use. -/
theorem State.seq_of_stream {i n : Nat} {x : Stream} (h : s.stream n i = some x) :
    ∃ q, s.seq n = some q ∧ i < q.streams.length := by
  obtain ⟨q, hq, hx⟩ := Option.bind_eq_some_iff.mp h
  exact ⟨q, hq, (List.getElem?_eq_some_iff.mp hx).1⟩

theorem exec_kvMapRead_of_stream {x : Stream} (h : s.admission 0x0032 c k = some (u, a)) (hc : c.val < 2)
    (hne : field a.b 24 4 % 65536 ≠ 0) (hx : u.stream (field a.b 24 4 % 65536) (field a.b 28 2) = some x) :
    exec (.kvMapRead c k) s
      = .next (a.readOut u (field a.b 40 4) (field a.b 48 8)
          ((List.range (field a.b 40 4)).flatMap (fun n => leBytes 8 (x.pte (field a.b 32 8 + n)).word))) := by
  obtain ⟨q, hq, hi⟩ := State.seq_of_stream hx
  change execKvMapRead c k s = _
  rw [execKvMapRead, State.serve_admission h, Adm.checked_of_pass, hx, Adm.readOut, Option.map_some, Option.getD_some]
  simp [Adm.noPort_of_hostPort (Adm.ctrl_lt_two_of_admission h hc), hq, hi, hne]

end

/-- Settles O22: each command comes down to its one equation; a pool of no rows meets no window, and the two spaces of
the Bivouac differ in the range they allow. -/
theorem cacheCommands : Obligations.CacheCommands := by
  refine fun s u c k a => ⟨fun h hp hlo hhi hmul hfree hwin => ?_, fun h hp hzero hfree => ?_,
    fun h hp hhi hmul hlo hheld => exec_kvPool_of_held h hp hhi hmul hlo hheld,
    fun h hsp hbase hsize hfar hrec => ?_, fun h hsp hc hbase hsize hrec => ?_, fun x h hc hne hx hn hup => ?_⟩
  · have hpos : field a.b 26 2 ≠ 0 := by omega
    rw [exec_kvPool_of_unheld h hp hhi hmul (.inr hlo) hfree hwin]
    simp only [if_neg hpos]
  · have hwin : u.poolMeetsWindow (field a.b 24 2) (field a.b 26 2) = false := by rw [hzero, State.poolMeetsWindow_zero]
    rw [exec_kvPool_of_unheld h hp (by omega) (by omega) (.inl hzero) hfree hwin]
    simp only [if_pos hzero]
  · rw [exec_bivouacSet_of_inRange h (.inl ⟨hsp, hfar⟩) hbase hsize hrec, hsp]
    rfl
  · rw [exec_bivouacSet_of_inRange h (.inr ⟨hsp, hc⟩) hbase hsize hrec, hsp]
    rfl
  · exact (readOut_endings h (exec_kvMapRead_of_stream h hc hne hx)).1 hn hup

end Sys2Proof.Machine
end

section
/-! PROOF. What an operation on a sequence comes to, said once for each way it can go: its body, a rejection, a zero
count, and no sequence in use (05_attention_kv_cache.md R113, R119, R140, 09_work_orders.md R251). -/

namespace Sys2Proof.Machine

open Sys2Proof

/-- The operation names no sequence in use. -/
def State.NamesNone (s : State) (c : OpCtx) : Prop := ∀ h, c.handle = some h → h = 0 ∨ s.seq h = none

/-- An operation that works on a sequence in use and keeps the page tables in the pool rows. -/
abbrev seqWork (pre : OpCtx → Seq → Option Ending) (zero : OpCtx → Bool)
    (body : OpCtx → Nat → State → State × Ending) : OpCtx → State → State × Ending :=
  paged (fun c t => t.onSeq c (pre c) (zero c) (body c))

/-! ## Work on a sequence -/

section
variable {s : State} {c : OpCtx} {h : Nat} {q : Seq} {pre : Seq → Option Ending} {zero : Bool}
  {body : Nat → State → State × Ending}

theorem State.NamesNone.named_eq_none {α : Type} (hn : s.NamesNone c) (f : Nat → Seq → α) :
    (c.handle.bind fun h => if h = 0 then none else (s.seq h).map (f h)) = none := by
  refine Option.bind_eq_none_iff.mpr fun h hh => ?_
  obtain h0 | hq := hn h hh
  · exact if_pos h0
  · rw [hq, Option.map_none, ite_self]

theorem State.onSeq_of_namesNone (hn : s.NamesNone c) : s.onSeq c pre zero body = (s, rejectOp .rejectState 48) := by
  rw [onSeq, hn.named_eq_none]

section
variable (hh : c.handle = some h) (h0 : h ≠ 0) (hq : s.seq h = some q)
include hh h0 hq

theorem State.onSeq_of_pre {e : Ending} (hp : pre q = some e) : s.onSeq c pre zero body = (s, e) := by
  simp [onSeq, hh, h0, hq, hp]

theorem State.onSeq_of_zero (hp : pre q = none) : s.onSeq c pre true body = (s, { status := .doneEmpty }) := by
  simp [onSeq, hh, h0, hq, hp]

end

end

/-! ## The operation -/

section
variable {s t v : State} {k : OpKind} {tag op h : Nat} {c : OpCtx} {q : Seq} {e : Ending}

/-- A dispatched operation of the chapter runs to the ending its body gives, its page tables in the pool rows. -/
theorem State.runOp_paged {body : OpCtx → State → State × Ending} (hd : s.toDispatch k tag op = some c)
    (hb : body c (s.opStart c) = (t, e)) (ht : t.tabled.unstalled) :
    s.runOp k tag op (paged body) = t.tabled.ranTo tag op e := by
  have hpaged : paged body c (s.opStart c) = (t.tabled, e) := by rw [paged, hb, State.tabled]
  rw [State.runOp_dispatch hd, hpaged]
  rw [hpaged]
  exact ht

variable {pre : OpCtx → Seq → Option Ending} {zero : OpCtx → Bool} {body : OpCtx → Nat → State → State × Ending}

theorem State.runSeq_of_namesNone (hd : s.toDispatch k tag op = some c) (hn : (s.opStart c).NamesNone c)
    (ht : (s.opStart c).tabled.unstalled) :
    s.runOp k tag op (seqWork pre zero body) = (s.opStart c).tabled.ranTo tag op (rejectOp .rejectState 48) :=
  State.runOp_paged hd (State.onSeq_of_namesNone hn) ht

section
variable (hs : s.atSeq k tag op = some (c, h, q, v))
include hs

theorem State.runSeq_of_body (hp : pre c q = none) (hz : zero c = false) (hb : body c h v = (t, e))
    (ht : t.tabled.unstalled) : s.runOp k tag op (seqWork pre zero body) = t.tabled.ranTo tag op e := by
  rw [State.runOp_atSeq_paged hs hp hz body, hb, ← State.tabled]
  rw [hb]
  exact ht

theorem State.runSeq_of_pre (hp : pre c q = some e) (ht : (s.opStart c).tabled.unstalled) :
    s.runOp k tag op (seqWork pre zero body) = (s.opStart c).tabled.ranTo tag op e := by
  obtain ⟨hd, hh, h0, hq, -⟩ := State.atSeq_parts hs
  exact State.runOp_paged hd (State.onSeq_of_pre hh h0 hq hp) ht

theorem State.runSeq_of_zero (hp : pre c q = none) (hz : zero c = true) (ht : (s.opStart c).tabled.unstalled) :
    s.runOp k tag op (seqWork pre zero body) = (s.opStart c).tabled.ranTo tag op { status := .doneEmpty } := by
  obtain ⟨hd, hh, h0, hq, -⟩ := State.atSeq_parts hs
  exact State.runOp_paged hd (by rw [hz, State.onSeq_of_zero hh h0 hq hp]) ht

end

end

end Sys2Proof.Machine
end

section
/-! PROOF. The sequence operations (05_attention_kv_cache.md R113, R114, R124, R126, R136, R140): what each body leaves
where there is room, put into the dispatch rules of a sequence. -/

namespace Sys2Proof.Machine

open Sys2Proof

/-! ## Handles -/

/-- The handle `j` places after `h`, round the 65,535 of them. -/
def handleAfter (h j : Nat) : Nat := (h - 1 + j) % 65535 + 1

theorem freeHandle_mem_range {used : List Nat} {h n : Nat} (hh : 1 ≤ h ∧ h ≤ 65535) :
    1 ≤ freeHandle used h n ∧ freeHandle used h n ≤ 65535 := by
  induction n generalizing h with
  | zero => exact hh
  | succ n ih =>
    rw [freeHandle]
    split
    · exact ih (by omega)
    · exact hh

/-- A search that ends at a handle in use has found every handle on its way in use. -/
theorem handleAfter_mem_of_freeHandle_mem {used : List Nat} {h n : Nat} (hh : 1 ≤ h ∧ h ≤ 65535)
    (hm : freeHandle used h n ∈ used) : ∀ j ≤ n, handleAfter h j ∈ used := by
  have hself : handleAfter h 0 = h := by rw [handleAfter]; omega
  induction n generalizing h with
  | zero =>
    intro j hj
    rwa [Nat.le_zero.mp hj, hself]
  | succ n ih =>
    rw [freeHandle] at hm
    split at hm
    case isTrue hused =>
      intro j hj
      cases j with
      | zero => rw [hself]; simpa using hused
      | succ j =>
        have hnext : handleAfter h (j + 1) = handleAfter (h % 65535 + 1) j := by simp only [handleAfter]; omega
        rw [hnext]
        exact ih (by omega) hm (by rw [handleAfter]; omega) j (Nat.le_of_succ_le_succ hj)
    case isFalse hfree => exact absurd (by simpa using hm) hfree

/-- Fewer than 65,535 handles in use cannot fill the search's way, whose places differ. -/
theorem freeHandle_not_mem {used : List Nat} {h : Nat} (hh : 1 ≤ h ∧ h ≤ 65535) (hlen : used.length < 65535) :
    freeHandle used h used.length ∉ used := by
  intro hm
  have hsub : (List.range (used.length + 1)).map (handleAfter h) ⊆ used := by
    intro x hx
    obtain ⟨j, hj, rfl⟩ := List.mem_map.mp hx
    exact handleAfter_mem_of_freeHandle_mem hh hm j (Nat.le_of_lt_succ (List.mem_range.mp hj))
  have hnodup : ((List.range (used.length + 1)).map (handleAfter h)).Nodup := by
    refine List.nodup_range.map_on fun i hi j hj hij => ?_
    simp only [List.mem_range] at hi hj
    simp only [handleAfter] at hij
    omega
  have hle := (List.subperm_of_subset hnodup hsub).length_le
  simp at hle

theorem look?_eq_none_of_not_mem {α : Type} {m : SMap α} {k : Nat} (h : k ∉ m.map (·.1)) : look? m k = none := by
  induction m with
  | nil => rfl
  | cons e r ih =>
    simp only [List.map_cons, List.mem_cons, not_or] at h
    rw [look?, if_neg (Ne.symm h.1), ih h.2]

/-- A handle for a new sequence is none of those in use (R113). -/
theorem State.newHandle_fresh (s : State) (hlen : s.kv.seqs.length < 65535) :
    1 ≤ s.newHandle.1 ∧ s.newHandle.1 ≤ 65535 ∧ s.seq s.newHandle.1 = none := by
  have hstart : 1 ≤ s.draw.1 % 65535 + 1 ∧ s.draw.1 % 65535 + 1 ≤ 65535 := by omega
  obtain ⟨hlo, hhi⟩ := freeHandle_mem_range (used := s.kv.seqs.map (·.1)) (n := (s.kv.seqs.map (·.1)).length) hstart
  exact ⟨hlo, hhi, look?_eq_none_of_not_mem (freeHandle_not_mem hstart (by simpa using hlen))⟩

theorem State.seqsFull_of_lt {s : State} (h : s.kv.seqs.length < 65535) : s.seqsFull = false :=
  decide_eq_false (Nat.not_le.mpr h)

/-! ## SEQ_OPEN -/

/-- The placement entries of a SEQ_OPEN descriptor. -/
def openPlaces (d : List Byte) : Nat := (seqOf d).layers * (seqOf d).kvHeads

/-- The rotary frequencies of a SEQ_OPEN descriptor. -/
def openFreqs (d : List Byte) : Nat := if (seqOf d).ropeMode = 0 then 0 else (seqOf d).ropeDims / 2

/-- The streams that placement bytes describe. -/
def openStreams (d : List Byte) (pb : List Byte) : List Stream := (numbers 2 (openPlaces d) pb).map streamOf

/-- The sequence that SEQ_OPEN makes from its placement and frequency bytes. -/
def openedSeq (d pb fb : List Byte) (now : BitVec 64) : Seq :=
  { seqOf d with streams := openStreams d pb, ropeFreq := (numbers 4 (openFreqs d) fb).map (BitVec.ofNat 32), lastUse := now }

section
variable {c : OpCtx} {s v w : State} {h : Nat} {pb fb : List Byte} {io io2 : Io}

theorem seqOpen_of_zero (hn : openPlaces c.d = 0) : seqOpen c s = (s, { status := .doneEmpty }) :=
  if_pos hn

theorem seqOpen_of_room (hn : 0 < openPlaces c.d) (hplace : c.sealed s (field c.d 72 8) (2 * openPlaces c.d) = false)
    (hfreq : c.sealed s (field c.d 88 8) (4 * openFreqs c.d) = false) (hlen : s.kv.seqs.length < 65535)
    (hpb : s.load c.who (field c.d 72 8) (2 * openPlaces c.d) = (pb, io)) (hio : io.stop = none)
    (hfb : io.s.load c.who (field c.d 88 8) (4 * openFreqs c.d) = (fb, io2)) (hio2 : io2.stop = none)
    (hspan : ∀ x ∈ openStreams c.d pb, io2.s.spanOk x = true) (hnew : io2.s.newHandle = (h, v))
    (hroom : (v.setKv (fun k => { k with seqs := put k.seqs h (openedSeq c.d pb fb v.time.now) })).reserveSlots h
      = some w) :
    seqOpen c s = (w.noteHandle c.tag h, { status := .done, result := BitVec.ofNat 64 h }) := by
  have hall := List.all_eq_true.mpr hspan
  have hspace := State.withSpace_some (want := fun u => u.reserveSlots h) hroom h
  simp only [openStreams] at hall
  simp only [openedSeq, openStreams] at hspace
  simp only [seqOpen, ← openPlaces.eq_1, ← openFreqs.eq_1, hplace, hfreq, State.seqsFull_of_lt hlen, hpb, hio, hfb, hio2,
    hall, hnew, hspace, Nat.ne_of_gt hn, Bool.or_self, Bool.not_true, Bool.false_eq_true, if_false]

end

/-! ## SEQ_FORK -/

/-- The sequence a fork of `q` starts as: open, its slots and blocks still to be taken (notes/assumptions/43.md). -/
def forkedSeq (q : Seq) (now : BitVec 64) : Seq :=
  { q with closed := false, lastUse := now, streams := q.streams.map (fun x => { x with slotHeld := false, blocks := [] }) }

/-- One reference more on the page of each resident entry of a sequence. -/
def State.refPages (s : State) (q : Seq) : State :=
  (q.streams.flatMap (fun x => x.table.filter Pte.resident)).foldl
    (fun (t : State) e => t.onPage e (fun g => { g with refs := g.refs + 1 })) s

theorem seqFork_of_room {c : OpCtx} {s t u : State} {src h : Nat} {q : Seq} (hq : s.seq src = some q)
    (hlen : s.kv.seqs.length < 65535) (hnew : s.newHandle = (h, t))
    (hroom : ((t.setKv (fun k => { k with seqs := put k.seqs h (forkedSeq q t.time.now) })).reserveSlots h).bind
      (fun z => z.needBlocks h) = some u) :
    seqFork c src s = ((u.refPages q).noteHandle c.tag h, { status := .done, result := BitVec.ofNat 64 h }) := by
  have hspace := State.withSpace_some (want := fun u => (u.reserveSlots h).bind (fun v => v.needBlocks h)) hroom h
  simp only [forkedSeq] at hspace
  simp only [seqFork, hq, State.seqsFull_of_lt hlen, hnew, hspace, State.refPages, Bool.false_eq_true, if_false]

/-! ## SEQ_FREE -/

theorem State.freeSeq_seq (s : State) (h : Nat) : (s.freeSeq h).seq h = none := by
  rw [freeSeq]
  split
  next hq => exact hq
  next => exact look?_del_self _ _

/-! ## The instructions -/

section
variable {s v w : State} {tag op h : Nat} {c : OpCtx} {q : Seq}

theorem exec_opSeqOpen_of_body {e : Ending} (hd : s.toDispatch .seqOpen tag op = some c)
    (hb : seqOpen c (s.opStart c) = (w, e)) (ht : w.tabled.unstalled) :
    exec (.opSeqOpen tag op) s = .next (w.tabled.ranTo tag op e) :=
  congrArg _ (State.runOp_paged hd hb ht)

theorem exec_opSeqClose_of_room (hs : s.atSeq .seqClose tag op = some (c, h, q, v)) (hroom : v.flushAll 1 h = some w)
    (ht : (w.setSeq h (fun q => { q with closed := true })).tabled.unstalled) :
    exec (.opSeqClose tag op) s
      = .next ((w.setSeq h (fun q => { q with closed := true })).tabled.ranTo tag op { status := .done }) :=
  congrArg _ (State.runSeq_of_body hs rfl rfl
    (by simp only [State.withSpace_some (want := fun u => u.flushAll 1 h) hroom h]) ht)

theorem exec_opSeqFree_of_atSeq (hs : s.atSeq .seqFree tag op = some (c, h, q, v)) (ht : (v.freeSeq h).tabled.unstalled) :
    exec (.opSeqFree tag op) s = .next ((v.freeSeq h).tabled.ranTo tag op { status := .done }) :=
  congrArg _ (State.runSeq_of_body hs rfl rfl rfl ht)

theorem exec_opSeqFork_of_body {e : Ending} (hs : s.atSeq .seqFork tag op = some (c, h, q, v))
    (hb : seqFork c h v = (w, e)) (ht : w.tabled.unstalled) :
    exec (.opSeqFork tag op) s = .next (w.tabled.ranTo tag op e) :=
  congrArg _ (State.runSeq_of_body hs rfl rfl hb ht)

theorem exec_opSeqResume_of_atSeq (hs : s.atSeq .seqResume tag op = some (c, h, q, v)) (ht : v.tabled.unstalled) :
    exec (.opSeqResume tag op) s = .next (v.tabled.ranTo tag op { status := .done }) :=
  congrArg _ (State.runSeq_of_body hs rfl rfl rfl ht)

theorem exec_opSeqTruncate_of_open {e : Ending} {n : Nat} (hs : s.atSeq .seqTruncate tag op = some (c, h, q, v))
    (hopen : q.closed = false) (hn : n = ((v.seq h).map (fun q => q.streams.length)).getD 0)
    (hcut : (v.retryFlush h (List.range n)).truncStreams h (field c.d 56 8) (List.range n) = (w, e))
    (ht : w.tabled.unstalled) : exec (.opSeqTruncate tag op) s = .next (w.tabled.ranTo tag op e) :=
  congrArg _ (State.runSeq_of_body hs (by simp [closedStop, hopen]) rfl (by rw [← hn]; exact hcut) ht)

/-- A sequence that no other operation in flight names is swapped out whole (R140). -/
theorem exec_opSeqPreempt_of_idle (hd : s.toDispatch .seqPreempt tag op = some c) (hh : c.handle = some h) (h0 : h ≠ 0)
    (hq : (s.opStart c).seq h = some q) (hidle : (s.opStart c).seqBusyBut tag op h = false)
    (hout : ((s.opStart c).noteHandle c.tag h).swapOut h = .ok v) (ht : v.tabled.unstalled) :
    exec (.opSeqPreempt tag op) s = .next (v.tabled.ranTo tag op { status := .done }) := by
  obtain ⟨htag, hop⟩ := State.toDispatch_tag hd
  refine congrArg _ (State.runOp_paged hd ?_ ht)
  simp [hh, h0, hq, htag, hop, hidle, htag ▸ hout]

end

/-! ## An operation that names no sequence in use -/

/-- The kinds of operation whose descriptor names a sequence at byte 48 and which attend to nothing, with the instruction
of each. -/
def seqOps : List (OpKind × (Nat → Nat → Instr)) :=
  [(.seqFork, .opSeqFork), (.seqClose, .opSeqClose), (.seqFree, .opSeqFree), (.seqResume, .opSeqResume),
    (.seqTruncate, .opSeqTruncate), (.seqPreempt, .opSeqPreempt), (.attAppend, .opAttAppend), (.kvWrite, .opKvWrite),
    (.kvExport, .opKvExport)]

/-- SEQ_PREEMPT resumes nothing; every other of these operations is work on a sequence. -/
theorem exec_seqOp_cases {k : OpKind} {i : Nat → Nat → Instr} (hi : (k, i) ∈ seqOps) :
    i = .opSeqPreempt ∧ k = .seqPreempt
      ∨ ∃ pre zero body, ∀ s tag op, exec (i tag op) s = .next (s.runOp k tag op (seqWork pre zero body)) := by
  simp only [seqOps, List.mem_cons, List.not_mem_nil, or_false, Prod.mk.injEq] at hi
  obtain ⟨rfl, rfl⟩ | ⟨rfl, rfl⟩ | ⟨rfl, rfl⟩ | ⟨rfl, rfl⟩ | ⟨rfl, rfl⟩ | ⟨rfl, rfl⟩ | ⟨rfl, rfl⟩ | ⟨rfl, rfl⟩
    | ⟨rfl, rfl⟩ := hi
  case inr.inr.inr.inr.inr.inl => exact .inl ⟨rfl, rfl⟩
  all_goals exact .inr ⟨_, _, _, fun _ _ _ => rfl⟩

theorem exec_seqOp_of_namesNone {k : OpKind} {i : Nat → Nat → Instr} {s : State} {tag op : Nat} {c : OpCtx}
    (hi : (k, i) ∈ seqOps) (hd : s.toDispatch k tag op = some c) (hn : (s.opStart c).NamesNone c)
    (ht : (s.opStart c).tabled.unstalled) :
    exec (i tag op) s = .next ((s.opStart c).tabled.ranTo tag op (rejectOp .rejectState 48)) := by
  obtain ⟨rfl, rfl⟩ | ⟨pre, zero, body, hexec⟩ := exec_seqOp_cases hi
  · refine congrArg _ (State.runOp_paged hd ?_ ht)
    simp only [hn.named_eq_none (fun h _ => h)]
  · rw [hexec, State.runSeq_of_namesNone hd hn ht]

/-- Settles O23: each operation is its body under the dispatch rules of a sequence; a fresh handle is found because the
search visits more places than there are handles in use. -/
theorem sequenceOps : Obligations.SequenceOps := by
  refine ⟨fun s tag op c hd hn ht => exec_opSeqOpen_of_body hd (seqOpen_of_zero hn) ht, ?opened, fun s v h hnew hlen => ?_,
    fun _ _ _ _ _ _ _ _ => exec_opSeqClose_of_room,
    fun s v tag op h c q hs ht => ⟨exec_opSeqFree_of_atSeq hs ht, v.freeSeq_seq h⟩,
    fun s v w y tag op h k c q r hs hr hlen hnew hroom ht =>
      exec_opSeqFork_of_body hs (seqFork_of_room hr hlen hnew hroom) ht,
    fun _ _ _ _ _ _ _ => exec_opSeqResume_of_atSeq, fun _ _ _ _ _ _ _ => exec_opSeqPreempt_of_idle,
    fun _ _ _ _ _ _ _ _ _ _ => exec_opSeqTruncate_of_open, fun s tag op c k i hi => exec_seqOp_of_namesNone hi⟩
  case opened =>
    rintro s v w tag op h nf c pb fb io io2 hd hn rfl hplace hfreq hlen hpb hio hfb hio2 hspan hnew hroom ht
    exact exec_opSeqOpen_of_body hd
      (seqOpen_of_room hn hplace hfreq hlen hpb hio hfb hio2 hspan hnew hroom) ht
  simpa only [hnew] using s.newHandle_fresh hlen

end Sys2Proof.Machine
end

section
/-! PROOF. Appending, overwriting, exporting and attending (05_attention_kv_cache.md R119, R123, R124, R128, R130, R136):
each operation is its body under the dispatch rules of a sequence, and ATT_DECODE and ATT_PREFILL are one operation in
two modes. -/

namespace Sys2Proof.Machine

open Sys2Proof

/-! ## Checks at dispatch -/

theorem limitIf_of_not {p : Prop} [Decidable p] (h : ¬ p) (off : Nat) : limitIf (decide p) off = none := by
  simp [limitIf, h]

theorem limitIf_of {p : Prop} [Decidable p] (h : p) (off : Nat) :
    limitIf (decide p) off = some (rejectOp .rejectLimit off) := by
  simp [limitIf, h]

theorem closedStop_of_open {q : Seq} (h : q.closed = false) : closedStop q = none := by
  simp [closedStop, h]

/-- A layer the sequence has passes to the next check. -/
theorem limitIf_orElse_of_lt {m n off : Nat} {f : Unit → Option Ending} (h : m < n) :
    (limitIf (decide (n ≤ m)) off).orElse f = f () := by
  rw [limitIf_of_not (Nat.not_le.mpr h)]
  rfl

theorem any_eq_false_of_forall {α : Type} {o : Option α} {p : α → Bool} (h : ∀ x, o = some x → p x = false) :
    o.any p = false := by
  cases o with
  | none => rfl
  | some x => exact h x rfl

section
variable {s u v w : State} {tag op h : Nat} {c : OpCtx} {q : Seq} {e : Ending}

/-! ## ATT_APPEND -/

section
variable {stop : Option Ending} {fl : BitVec 8} (hs : s.atSeq .attAppend tag op = some (c, h, q, v))
  (hlayer : field c.d 52 1 < q.layers) (hopen : q.closed = false)
include hs hlayer hopen

theorem exec_opAttAppend_of_rows (hn : 0 < field c.d 54 2)
    (hseal : ∀ r, v.seq h = some r → c.appendSealed v r (appendSrc c.d) (field c.d 54 2) = false)
    (hrows : v.appendRows c h (appendSrc c.d) 0 (List.range (field c.d 54 2)) = (w, stop, fl)) (ht : w.tabled.unstalled) :
    exec (.opAttAppend tag op) s = .next (w.tabled.ranTo tag op (stop.getD { status := .done, flags := fl })) := by
  refine congrArg _ (State.runSeq_of_body hs ((limitIf_orElse_of_lt hlayer).trans (closedStop_of_open hopen))
    (decide_eq_false hn.ne') ?_ ht)
  simp only [any_eq_false_of_forall hseal, hrows, Bool.false_eq_true, if_false]
  cases stop <;> rfl

theorem exec_opAttAppend_of_zero (hn : field c.d 54 2 = 0) (ht : (s.opStart c).tabled.unstalled) :
    exec (.opAttAppend tag op) s = .next ((s.opStart c).tabled.ranTo tag op { status := .doneEmpty }) :=
  congrArg _ (State.runSeq_of_zero hs ((limitIf_orElse_of_lt hlayer).trans (closedStop_of_open hopen))
    (decide_eq_true hn) ht)

end

/-! ## KV_WRITE -/

section
variable {x : Stream} (hs : s.atSeq .kvWrite tag op = some (c, h, q, v)) (hx : q.streams[field c.d 52 2]? = some x)
include hs hx

theorem exec_opKvWrite_of_within (hlen : field c.d 56 8 + field c.d 64 4 ≤ x.length) (hn : 0 < field c.d 64 4)
    (hseal : ∀ r, v.seq h = some r → c.sealed v (field c.d 72 8)
      (spanBytes (field c.d 80 4) (if field c.d 54 1 = 1 then r.vb else r.kb) (field c.d 64 4)) = false)
    (hwrite : (v.retryFlush h [field c.d 52 2]).writeTokens c h (field c.d 52 2) (decide (field c.d 54 1 = 1))
      (List.range (field c.d 64 4)) = (w, e)) (ht : w.tabled.unstalled) :
    exec (.opKvWrite tag op) s = .next (w.tabled.ranTo tag op e) := by
  refine congrArg _ (State.runSeq_of_body hs ?_ (decide_eq_false hn.ne') ?_ ht)
  · simp only [hx, limitIf_of_not hlen.not_gt]
  · simp only [any_eq_false_of_forall hseal, hwrite, Bool.false_eq_true, if_false]

theorem exec_opKvWrite_of_zero (hlen : field c.d 56 8 ≤ x.length) (hn : field c.d 64 4 = 0)
    (ht : (s.opStart c).tabled.unstalled) :
    exec (.opKvWrite tag op) s = .next ((s.opStart c).tabled.ranTo tag op { status := .doneEmpty }) := by
  refine congrArg _ (State.runSeq_of_zero hs ?_ (decide_eq_true hn) ht)
  simp only [hx, hn, Nat.add_zero, limitIf_of_not hlen.not_gt]

theorem exec_opKvWrite_of_beyond (hlen : x.length < field c.d 56 8 + field c.d 64 4)
    (ht : (s.opStart c).tabled.unstalled) :
    exec (.opKvWrite tag op) s = .next ((s.opStart c).tabled.ranTo tag op (rejectOp .rejectLimit 56)) := by
  refine congrArg _ (State.runSeq_of_pre hs ?_ ht)
  simp only [hx, limitIf_of hlen]

end

/-! ## KV_EXPORT -/

section
variable (hs : s.atSeq .kvExport tag op = some (c, h, q, v)) (hi : field c.d 52 2 < q.streams.length)
include hs hi

theorem exec_opKvExport_of_pages (hn : 0 < field c.d 64 4)
    (hseal : ∀ r, v.seq h = some r → field c.d 68 1 ≠ 3 →
      c.sealed v (spaceAddr (field c.d 68 1) (field c.d 72 8)) (field c.d 64 4 * r.pageBytes) = false)
    (hpages : (v.retryFlush h [field c.d 52 2]).exportPages c h (field c.d 52 2) (List.range (field c.d 64 4)) = (w, e))
    (ht : w.tabled.unstalled) : exec (.opKvExport tag op) s = .next (w.tabled.ranTo tag op e) := by
  have hunsealed : (decide (field c.d 68 1 ≠ 3) && (v.seq h).any (fun r =>
      c.sealed v (spaceAddr (field c.d 68 1) (field c.d 72 8)) (field c.d 64 4 * r.pageBytes))) = false := by
    by_cases hspace : field c.d 68 1 = 3
    · simp [hspace]
    · rw [any_eq_false_of_forall fun r hr => hseal r hr hspace, Bool.and_false]
  refine congrArg _ (State.runSeq_of_body hs (limitIf_of_not hi.not_ge _) (decide_eq_false hn.ne') ?_ ht)
  simp only [hunsealed, hpages, Bool.false_eq_true, if_false]

theorem exec_opKvExport_of_zero (hn : field c.d 64 4 = 0) (ht : (s.opStart c).tabled.unstalled) :
    exec (.opKvExport tag op) s = .next ((s.opStart c).tabled.ranTo tag op { status := .doneEmpty }) :=
  congrArg _ (State.runSeq_of_zero hs (limitIf_of_not hi.not_ge _) (decide_eq_true hn) ht)

end

/-! ## ATT_DECODE and ATT_PREFILL -/

/-- The kind of operation of each mode of attention. -/
def attKind (prefill : Bool) : OpKind := if prefill then .attPrefill else .attDecode

/-- The instruction of each mode of attention. -/
def attInstr (prefill : Bool) (tag op : Nat) : Instr :=
  if prefill then .opAttPrefill tag op else .opAttDecode tag op

theorem exec_attInstr (prefill : Bool) (s : State) (tag op : Nat) :
    exec (attInstr prefill tag op) s = .next (s.runOp (attKind prefill) tag op (paged (attOp prefill))) := by
  cases prefill <;> rfl

section
variable {prefill : Bool} (hs : s.atSeq (attKind prefill) tag op = some (c, h, q, v)) (hlayer : field c.d 52 1 < q.layers)
include hs hlayer

section
variable (hzero : attZero c.d = false) (hseal : ∀ r, v.seq h = some r → c.attSealed v r = false)
  (ht : w.tabled.unstalled)
include hzero hseal ht

/-- Attention that brings no tokens retries the flush of its layer's full slots first (R124). -/
theorem exec_attInstr_of_bare (hbare : field c.d 53 1 = 0)
    (hatt : attend prefill c h (v.retryFlush h (((v.seq h).map (fun r => r.layerStreams (field c.d 52 1))).getD [])) 0
      = (w, e)) :
    exec (attInstr prefill tag op) s = .next (w.tabled.ranTo tag op e) := by
  have hown : attAppends c.d = false := by simp [attAppends, hbare]
  rw [exec_attInstr]
  refine congrArg _ (State.runSeq_of_body hs ?_ hzero ?_ ht)
  · rw [limitIf_orElse_of_lt hlayer, hown]
    rfl
  · simp only [any_eq_false_of_forall hseal, hown, hatt, Bool.false_eq_true, if_false]

/-- Attention that brings tokens appends them first (R128). -/
theorem exec_attInstr_of_own {fl : BitVec 8} (hbring : field c.d 53 1 = 1) (hopen : q.closed = false)
    (hrows : v.appendRows c h (appendSrc c.d) 0 (List.range (attRows c.d)) = (u, none, fl))
    (hatt : attend prefill c h u fl = (w, e)) :
    exec (attInstr prefill tag op) s = .next (w.tabled.ranTo tag op e) := by
  have hown : attAppends c.d = true := by simp [attAppends, hbring]
  rw [exec_attInstr]
  refine congrArg _ (State.runSeq_of_body hs ?_ hzero ?_ ht)
  · rw [limitIf_orElse_of_lt hlayer, closedStop_of_open hopen, ite_self]
  · simp only [any_eq_false_of_forall hseal, hown, hrows, hatt, Bool.false_eq_true, if_false, if_true]

end

theorem exec_attInstr_of_zero (hopen : q.closed = false) (hzero : attZero c.d = true)
    (ht : (s.opStart c).tabled.unstalled) :
    exec (attInstr prefill tag op) s = .next ((s.opStart c).tabled.ranTo tag op { status := .doneEmpty }) := by
  rw [exec_attInstr]
  refine congrArg _ (State.runSeq_of_zero hs ?_ hzero ht)
  rw [limitIf_orElse_of_lt hlayer, closedStop_of_open hopen, ite_self]

end

end

/-- A row to which no token was allowed is zeros and empty (R130). -/
theorem finishRow_of_count_zero (n : Nat) (pick : Nat → Nat) (fits : List Num → Bool) {r : Partial} (hr : r.count = 0) :
    finishRow n pick fits r = (List.replicate n (.pure .zero), true, false) :=
  if_pos hr

/-- Settles O26: each operation is its body under the dispatch rules of a sequence; the two attentions share theirs. -/
theorem cacheOperations : Obligations.CacheOperations := by
  refine ⟨fun _ _ _ _ _ _ _ _ _ _ => exec_opAttAppend_of_rows, fun _ _ _ _ _ _ _ => exec_opAttAppend_of_zero,
    fun _ _ _ _ _ _ _ _ _ _ => exec_opKvWrite_of_within, fun _ _ _ _ _ _ _ _ => exec_opKvWrite_of_zero,
    fun _ _ _ _ _ _ _ _ => exec_opKvWrite_of_beyond, fun _ _ _ _ _ _ _ _ _ => exec_opKvExport_of_pages,
    fun _ _ _ _ _ _ _ => exec_opKvExport_of_zero,
    fun s v w tag op h c q e hs hlayer hzero hbare hseal hatt ht =>
      exec_attInstr_of_bare (prefill := false) hs hlayer hzero hseal ht hbare hatt,
    fun s v u w tag op h c q fl e hs hlayer hzero hbring hopen hseal hrows hatt ht =>
      exec_attInstr_of_own (prefill := false) hs hlayer hzero hseal ht hbring hopen hrows hatt,
    fun _ _ _ _ _ _ _ => exec_attInstr_of_zero (prefill := false),
    fun s v w tag op h c q e hs hlayer hzero hbare hseal hatt ht =>
      exec_attInstr_of_bare (prefill := true) hs hlayer hzero hseal ht hbare hatt,
    fun s v u w tag op h c q fl e hs hlayer hzero hbring hopen hseal hrows hatt ht =>
      exec_attInstr_of_own (prefill := true) hs hlayer hzero hseal ht hbring hopen hrows hatt,
    fun _ _ _ _ _ _ _ => exec_attInstr_of_zero (prefill := true),
    fun n pick fits r hr => ?_⟩
  rw [finishRow_of_count_zero n pick fits hr]
  exact ⟨rfl, rfl⟩

end Sys2Proof.Machine
end

section
/-! PROOF. The class-M bank instructions (06_bank_processing.md R151, R153, R156 to R161): what a class-M instruction comes to
in each of its cases is said once, and each instruction is that with its own effect on the unit and the code word. -/

namespace Sys2Proof.Machine

open Sys2Proof

section
variable {s t : State} {pair : Nat} {o : BOp} {q : SeqSt} {writes : Bool} {f : UnitOp}

theorem exec_of_bankTurn {i : Instr} (hexec : exec i s = .next (s.classM pair o writes f))
    (h : s.bankTurn pair o writes f = some t) : exec i s = .next (t.stepPc pair (some true)) := by
  rw [hexec, State.classM_turn h]

/-- An instruction that every active bank suppresses takes no column cycle (R154). -/
theorem State.classM_of_suppressed (h : s.mayIssue pair o = some q)
    (hnone : ∀ b ∈ s.activeBanks pair q, q.issues q.word b = false) :
    s.classM pair o writes f = s.stepPc pair (some false) := by
  have hfilter : (s.activeBanks pair q).filter (q.issues q.word) = [] :=
    List.filter_eq_nil_iff.mpr fun b hb => by simp [hnone b hb]
  simp only [classM, h, hfilter]

/-- A lane above 255 ends the sequence before any bank's access (R153). -/
theorem State.classM_of_laneTop {b : Nat} {bs : List Nat} (h : s.mayIssue pair o = some q)
    (hfilter : (s.activeBanks pair q).filter (q.issues q.word) = b :: bs)
    (hlane : 255 < laneTop o q.word q.outer q.inner) :
    s.classM pair o writes f
      = s.failBank pair q.req { status := .rejectLimit, detail := bankDetail pair b q.pc } := by
  simp only [classM, h, hfilter, if_pos hlane]

end

/-- The instructions of class M by their opcodes. -/
def classMInstrs : List (BOp × (Fin 1024 → Instr)) :=
  [(.ld, .bankLd), (.st, .bankSt), (.lda, .bankLda), (.sta, .bankSta), (.mac, .bankMac), (.axpy, .bankAxpy),
    (.scal, .bankScal), (.dot, .bankDot), (.expw, .bankExpw), (.rsum, .bankRsum), (.rmax, .bankRmax),
    (.sten, .bankSten), (.csel, .bankCsel)]

theorem exec_eq_classM {o : BOp} {i : Fin 1024 → Instr} (h : (o, i) ∈ classMInstrs) (s : State) (pair : Fin 1024) :
    ∃ writes f, exec (i pair) s = .next (s.classM pair o writes f) := by
  simp only [classMInstrs, List.mem_cons, List.not_mem_nil, or_false, Prod.mk.injEq] at h
  obtain ⟨rfl, rfl⟩ | ⟨rfl, rfl⟩ | ⟨rfl, rfl⟩ | ⟨rfl, rfl⟩ | ⟨rfl, rfl⟩ | ⟨rfl, rfl⟩ | ⟨rfl, rfl⟩ | ⟨rfl, rfl⟩
    | ⟨rfl, rfl⟩ | ⟨rfl, rfl⟩ | ⟨rfl, rfl⟩ | ⟨rfl, rfl⟩ | ⟨rfl, rfl⟩ := h <;> exact ⟨_, _, rfl⟩

/-- LD into BR7 starts the count of MX blocks again (R158). -/
theorem exec_bankLd_eq_classM (s : State) (pair : Fin 1024) :
    exec (.bankLd pair) s = .next (s.classM pair .ld false (fun _ w x u _ =>
      ({ u with br := put u.br (biRd w) (BitVec.ofNat 256 x), mxBlocks := if biRd w = 7 then 0 else u.mxBlocks }, none))) := by
  change execBankLd pair s = _
  rw [execBankLd]
  congr 2
  funext _ w x u _
  by_cases hr : biRd w = 7 <;> simp [hr, BankUnit.setReg]

/-- Settles O27: after its accesses every class-M instruction steps on alike, the effect on each unit is the instruction's own
by definition, and the two cases without accesses do not depend on it. -/
theorem bankAccesses : Obligations.BankAccesses := by
  refine fun s t pair => ⟨exec_of_bankTurn (exec_bankLd_eq_classM s pair), exec_of_bankTurn rfl, exec_of_bankTurn rfl,
    exec_of_bankTurn rfl, exec_of_bankTurn rfl, exec_of_bankTurn rfl, exec_of_bankTurn rfl, exec_of_bankTurn rfl,
    exec_of_bankTurn rfl, exec_of_bankTurn rfl, exec_of_bankTurn rfl, exec_of_bankTurn rfl, exec_of_bankTurn rfl,
    fun q o i hi hq => ?_⟩
  obtain ⟨writes, f, hexec⟩ := exec_eq_classM hi s pair
  rw [hexec]
  exact ⟨fun hnone => by rw [State.classM_of_suppressed hq hnone],
    fun b bs hfilter hlane => congrArg _ (State.classM_of_laneTop hq hfilter hlane)⟩

end Sys2Proof.Machine
end

section
/-! PROOF. Bank runs, sorties and the control instructions (06_bank_processing.md R148, R149, R151, R154, R155, R159, R161, R163,
R165, R167): what BANK_RUN gives each vault, what a class-R instruction leaves of each unit and of the sequence, and one
equation for each control instruction that may issue. -/

namespace Sys2Proof.Machine

open Sys2Proof

/-! ## BANK_RUN -/

/-- A pair's vault receives its sequence of a BANK_RUN. -/
def State.giveSeq (c : OpCtx) (prog : List (BitVec 64)) (t : State) (k : Nat) : State :=
  { t.setVault (brFirst c.d + k) (fun v => { v with queue := v.queue ++ [seqReq c prog k] }) with
    run := { t.run with wrote := insertNat t.run.wrote (brFirst c.d + k) } }

theorem State.giveSeq_unstalled {c : OpCtx} {prog : List (BitVec 64)} (l : List Nat) {t : State} (ht : t.unstalled) :
    (l.foldl (State.giveSeq c prog) t).unstalled := by
  induction l generalizing t with
  | nil => exact ht
  | cons k l ih => exact ih (t := t.giveSeq c prog k) ht

/-- Where every pair is present each vault receives its sequence, and the ending stays as it was. -/
theorem foldl_giveSeq_of_present {c : OpCtx} {prog : List (BitVec 64)} {e : Ending} (l : List Nat) {t : State}
    (hp : ∀ k ∈ l, t.pairPresent (brFirst c.d + k) = true) :
    l.foldl (fun (a : State × Ending) k =>
      if a.1.pairPresent (brFirst c.d + k) then (a.1.giveSeq c prog k, a.2)
      else (a.1, joinEndings a.2 (vaultLostEnding (brFirst c.d + k)))) (t, e)
      = (l.foldl (State.giveSeq c prog) t, e) := by
  induction l generalizing t with
  | nil => rfl
  | cons k l ih =>
    obtain ⟨hk, hl⟩ := List.forall_mem_cons.mp hp
    simp only [List.foldl_cons, hk, if_true]
    exact ih (t := t.giveSeq c prog k) hl

theorem OpCtx.sealed_of_noRanges {s : State} (h : s.trust.ranges = []) (c : OpCtx) (a n : Nat) :
    c.sealed s a n = false := by
  simp [sealed, State.sealedAgainst, h]

section
variable {s : State} {c : OpCtx}

theorem bankRun_of_zero (hz : brCount c.d = 0 ∨ brLen c.d = 0) : bankRun c s = (s, { status := .doneEmpty }) := by
  simp [bankRun, brZero, hz]

theorem bankRun_of_present {x : Oper} (hcount : 0 < brCount c.d) (hlen : 0 < brLen c.d) (hranges : s.trust.ranges = [])
    (hp : ∀ k < brCount c.d, s.pairPresent (brFirst c.d + k) = true) (hx : s.oper c.tag c.op = some x) :
    bankRun c s = ((List.range (brCount c.d)).foldl (State.giveSeq c x.prog) s, { status := .done }) := by
  have hz : brZero c.d = false := by simp [brZero, hcount.ne', hlen.ne']
  simp only [bankRun, hz, OpCtx.sealed_of_noRanges hranges, hx, Bool.or_self, Bool.false_eq_true, if_false]
  exact foldl_giveSeq_of_present _ fun k hk => hp k (List.mem_range.mp hk)

variable {tag op : Nat} (hd : s.toDispatch .bankRun tag op = some c) (hu : (s.opStart c).unstalled)
include hd hu

theorem exec_opBankRun_of_zero (hz : brCount c.d = 0 ∨ brLen c.d = 0) :
    exec (.opBankRun tag op) s = .next (((s.opStart c).ranTo tag op { status := .doneEmpty }).keepBanking tag op) := by
  change execOpBankRun tag op s = _
  rw [execOpBankRun, State.runOp_dispatch hd _ (by rw [bankRun_of_zero hz]; exact hu), bankRun_of_zero hz]

theorem exec_opBankRun_of_present {x : Oper} (hcount : 0 < brCount c.d) (hlen : 0 < brLen c.d)
    (hranges : (s.opStart c).trust.ranges = [])
    (hp : ∀ k < brCount c.d, (s.opStart c).pairPresent (brFirst c.d + k) = true)
    (hx : (s.opStart c).oper c.tag c.op = some x) :
    exec (.opBankRun tag op) s
      = .next ((((List.range (brCount c.d)).foldl (State.giveSeq c x.prog) (s.opStart c)).ranTo tag op
          { status := .done }).keepBanking tag op) := by
  have hrun := bankRun_of_present hcount hlen hranges hp hx
  change execOpBankRun tag op s = _
  rw [execOpBankRun, State.runOp_dispatch hd _ (by rw [hrun]; exact State.giveSeq_unstalled _ hu), hrun]

end

/-! ## Loading and sorties -/

section
variable {s : State} {pair : Fin 1024}

theorem exec_sequenceLoad_of_received {r : SeqReq} {rest : List SeqReq} (hseq : (s.vault pair).seq = none)
    (hqueue : (s.vault pair).queue = r :: rest) (hmay : s.mayLoad pair = true)
    (hu : (State.loadSeq { s with run := {} } pair r).unstalled) :
    exec (.sequenceLoad pair) s = .next (State.loadSeq { s with run := {} } pair r) := by
  change execSequenceLoad pair s = _
  rw [State.unstalled] at hu
  simp only [execSequenceLoad, hseq, hqueue, hmay, hu, Bool.false_eq_true, if_false, if_true]

theorem exec_sortieStart_of_startsNow (hseq : (s.vault pair).seq.isSome = true) (hshut : s.vaultShut pair = false)
    (hbound : s.time.nextBoundary = none) (hnow : s.startsNow pair = true)
    (hshare : (s.vault pair).bsSpent < 2 * s.bsShare pair) (hheld : (s.vault pair).held = []) :
    exec (.sortieStart pair) s
      = .next ((if (s.vault pair).processor then s else s.toArray pair).setVault pair (fun v => { v with
        sortie := some s.now, sortieSpent := 0, sorties := (s.startsCome pair).length, processor := true
        units := v.units.map (fun e => (e.1, { e.2 with openRow := none })) })) := by
  change execSortieStart pair s = _
  simp [execSortieStart, hseq, hshut, hbound, hnow, hshare, hheld, nextHeld]

theorem exec_sortieEnd_of_notFits {q : SeqSt} (hseq : (s.vault pair).seq = some q)
    (hsortie : (s.vault pair).sortie.isSome = true) (hfits : s.fits pair q = false) :
    exec (.sortieEnd pair) s = .next (s.endSortie pair) := by
  change execSortieEnd pair s = _
  simp [execSortieEnd, hseq, hsortie, hfits]

end

/-! ## The sequence and the units of a vault -/

theorem State.seq_of_mayIssue {s : State} {pair : Nat} {o : BOp} {q : SeqSt} (h : s.mayIssue pair o = some q) :
    (s.vault pair).seq = some q := by
  unfold mayIssue at h
  split at h
  next q' hq' =>
    split at h
    · rw [hq', h]
    · cases h
  next => cases h

section
variable (s : State) (pair : Nat)

@[simp] theorem State.setSeqSt_seq (g : SeqSt → SeqSt) :
    ((s.setSeqSt pair g).vault pair).seq = (s.vault pair).seq.map g := by
  simp [setSeqSt]

@[simp] theorem State.setSeqSt_unit (g : SeqSt → SeqSt) (b : Nat) : (s.setSeqSt pair g).unit pair b = s.unit pair b := by
  simp [setSeqSt, unit]

@[simp] theorem State.stepPc_seq (after : Option Bool) :
    ((s.stepPc pair after).vault pair).seq
      = (s.vault pair).seq.map (fun q => { q with pc := q.pc + 1, afterM := after.getD q.afterM }) := by
  simp [stepPc]

@[simp] theorem State.stepPc_unit (after : Option Bool) (b : Nat) : (s.stepPc pair after).unit pair b = s.unit pair b := by
  simp [stepPc]

@[simp] theorem State.spend_seq (c : Nat) : ((s.spend pair c).vault pair).seq = (s.vault pair).seq := by
  simp [spend]

@[simp] theorem State.spend_unit (c b : Nat) : (s.spend pair c).unit pair b = s.unit pair b := by
  simp [spend, unit]

@[simp] theorem State.charge_seq (b : Nat) (pj : Rat) : ((s.charge pair b pj).vault pair).seq = (s.vault pair).seq := by
  rw [charge, setVault_vault]
  rfl

@[simp] theorem State.charge_unit (b j : Nat) (pj : Rat) : (s.charge pair b pj).unit pair j = s.unit pair j := by
  rw [unit, charge, setVault_vault]
  rfl

@[simp] theorem State.setUnit_seq (b : Nat) (g : BankUnit → BankUnit) :
    ((s.setUnit pair b g).vault pair).seq = (s.vault pair).seq := by
  simp [setUnit]

@[simp] theorem State.setUnit_unit_self (b : Nat) (g : BankUnit → BankUnit) :
    (s.setUnit pair b g).unit pair b = g (s.unit pair b) := by
  simp [setUnit, unit]

theorem State.setUnit_unit_ne {b j : Nat} (h : j ≠ b) (g : BankUnit → BankUnit) :
    (s.setUnit pair b g).unit pair j = s.unit pair j := by
  simp [setUnit, unit, look_upd_ne _ _ _ h]

end

theorem State.nodup_activeBanks (s : State) (pair : Nat) (q : SeqSt) : (s.activeBanks pair q).Nodup :=
  (List.nodup_range.filter _).filter _

/-! ## Class R -/

/-- Column cycles of a class-R instruction (R154). -/
def State.classRCycles (s : State) (pair : Nat) (q : SeqSt) : Nat :=
  if q.afterM || (s.activeBanks pair q).isEmpty then 0 else 1

/-- A bank's part in a class-R instruction of `c` column cycles that does `g` to units. -/
def State.unitTurn (pair c : Nat) (g : Nat → BankUnit → BankUnit) (t : State) (b : Nat) : State :=
  (if c = 0 then t else t.charge pair b ((275 : Rat) / 100)).setUnit pair b (fun u => { g b u with cycles := u.cycles + c })

section
variable {pair c : Nat} {g : Nat → BankUnit → BankUnit}

theorem State.unitTurn_seq (t : State) (b : Nat) : ((t.unitTurn pair c g b).vault pair).seq = (t.vault pair).seq := by
  rw [unitTurn, setUnit_seq]
  split <;> simp

theorem State.unitTurn_unit_self (t : State) (b : Nat) :
    (t.unitTurn pair c g b).unit pair b = { g b (t.unit pair b) with cycles := (t.unit pair b).cycles + c } := by
  rw [unitTurn, setUnit_unit_self]
  split <;> simp

theorem State.unitTurn_unit_ne (t : State) {b j : Nat} (h : j ≠ b) :
    (t.unitTurn pair c g b).unit pair j = t.unit pair j := by
  rw [unitTurn, setUnit_unit_ne _ _ h]
  split <;> simp

theorem State.foldl_unitTurn_seq (l : List Nat) (s : State) :
    ((l.foldl (State.unitTurn pair c g) s).vault pair).seq = (s.vault pair).seq := by
  induction l generalizing s with
  | nil => rfl
  | cons b l ih => rw [List.foldl_cons, ih, unitTurn_seq]

theorem State.foldl_unitTurn_unit_of_notMem {l : List Nat} {j : Nat} (h : j ∉ l) (s : State) :
    (l.foldl (State.unitTurn pair c g) s).unit pair j = s.unit pair j := by
  induction l generalizing s with
  | nil => rfl
  | cons b l ih =>
    obtain ⟨hj, hl⟩ := List.ne_and_not_mem_of_not_mem_cons h
    rw [List.foldl_cons, ih hl, unitTurn_unit_ne _ hj]

/-- Each bank of a list without repetition has its turn once. -/
theorem State.foldl_unitTurn_unit {l : List Nat} (hl : l.Nodup) {b : Nat} (hb : b ∈ l) (s : State) :
    (l.foldl (State.unitTurn pair c g) s).unit pair b
      = { g b (s.unit pair b) with cycles := (s.unit pair b).cycles + c } := by
  induction l generalizing s with
  | nil => cases hb
  | cons a l ih =>
    obtain ⟨ha, hl⟩ := List.nodup_cons.mp hl
    rw [List.foldl_cons]
    obtain rfl | hb := List.mem_cons.mp hb
    · rw [foldl_unitTurn_unit_of_notMem ha, unitTurn_unit_self]
    · have hne : b ≠ a := fun e => ha (e ▸ hb)
      rw [ih hl hb, unitTurn_unit_ne _ hne]

end

section
variable {s : State} {pair : Nat} {o : BOp} {q : SeqSt} {f : SeqSt → Nat → Nat → BankUnit → BankUnit}
  (h : s.mayIssue pair o = some q)
include h

theorem State.classR_of_mayIssue :
    s.classR pair o f
      = (((s.activeBanks pair q).foldl (State.unitTurn pair (s.classRCycles pair q) (f q q.word)) s).spend pair
          (5 * s.classRCycles pair q)).stepPc pair (some false) := by
  simp only [classR, h]
  rfl

theorem State.classR_seq :
    ((s.classR pair o f).vault pair).seq = some { q with pc := q.pc + 1, afterM := false } := by
  simp [classR_of_mayIssue h, foldl_unitTurn_seq, seq_of_mayIssue h]

theorem State.classR_unit {b : Nat} (hb : b ∈ s.activeBanks pair q) :
    (s.classR pair o f).unit pair b
      = { f q q.word b (s.unit pair b) with cycles := (s.unit pair b).cycles + s.classRCycles pair q } := by
  simp [classR_of_mayIssue h, foldl_unitTurn_unit (s.nodup_activeBanks pair q) hb]

end

/-! ## The instructions -/

theorem foldl_max_eq_zero {l : List Nat} {p : Nat → Nat} (h : ∀ b ∈ l, p b = 0) :
    l.foldl (fun m b => max m (p b)) 0 = 0 := by
  induction l with
  | nil => rfl
  | cons b l ih =>
    obtain ⟨hb, hl⟩ := List.forall_mem_cons.mp h
    simpa [hb] using ih hl

section
variable {s : State} {pair : Fin 1024} {q : SeqSt}

section
variable (h : s.mayIssue pair .loop = some q)
include h

theorem exec_bankLoop_of_count (hcount : 0 < biCount q.word) (hbanks : s.seqBanks pair q ≠ []) :
    exec (.bankLoop pair) s = .next (s.setSeqSt pair (fun q' => { q' with
      pc := q'.pc + 1
      loops := { body := q'.pc + 1, index := 0, total := biCount q.word, param := none } :: q'.loops })) := by
  change execBankLoop pair s = _
  simp [execBankLoop, h, hcount.ne', hbanks]

theorem exec_bankLoop_of_param (hcount : biCount q.word = 0)
    (hmax : 0 < (s.seqBanks pair q).foldl (fun m b => max m (q.pw b (biImm q.word % 8))) 0) :
    exec (.bankLoop pair) s = .next (s.setSeqSt pair (fun q' => { q' with
      pc := q'.pc + 1, loops := {
        body := q'.pc + 1, index := 0
        total := (s.seqBanks pair q).foldl (fun m b => max m (q.pw b (biImm q.word % 8))) 0
        param := some (biImm q.word % 8) } :: q'.loops })) := by
  change execBankLoop pair s = _
  simp only [execBankLoop, h, hcount, if_true, if_neg hmax.ne']

/-- A parameter of 0 in every bank passes the loop over (R155). -/
theorem exec_bankLoop_of_param_zero (hcount : biCount q.word = 0)
    (hzero : ∀ b ∈ s.seqBanks pair q, q.pw b (biImm q.word % 8) = 0) :
    exec (.bankLoop pair) s
      = .next (s.setSeqSt pair (fun q' => { q' with pc := afterLoop (q'.prog.drop (q'.pc + 1)) (q'.pc + 1) 0 })) := by
  change execBankLoop pair s = _
  simp only [execBankLoop, h, hcount, if_true, foldl_max_eq_zero hzero]

end

/-- ENDL goes round while an iteration is left, and leaves the loop after the last. -/
theorem exec_bankEndl_of_loop {l : LoopSt} {rest : List LoopSt} (h : s.mayIssue pair .endl = some q)
    (hloops : q.loops = l :: rest) :
    ∃ t : State, exec (.bankEndl pair) s = .next t ∧ (t.vault pair).seq = some
      (if l.index + 1 < l.total then { q with pc := l.body, loops := { l with index := l.index + 1 } :: rest }
        else { q with pc := q.pc + 1, loops := rest }) := by
  refine ⟨_, rfl, ?_⟩
  simp [h, State.seq_of_mayIssue h, hloops]

/-- SETP sets one pointer of every active bank, in one of its three modes (R151). -/
theorem exec_bankSetp_of_mayIssue (h : s.mayIssue pair .setp = some q) :
    exec (.bankSetp pair) s = .next (((s.activeBanks pair q).foldl (fun (t : State) b =>
      t.setUnit pair b (fun u => { u with p := put u.p (biPtr q.word) (BitVec.ofNat 19 (
        if biImm q.word / 2 ^ 14 = 0 then q.pw b (biImm q.word % 8)
        else if biImm q.word / 2 ^ 14 = 1 then q.pw b (biImm q.word % 8) + q.outer * q.pw b (biImm q.word / 8 % 8)
        else (((u.ptr (biPtr q.word) : Int) + toInt 14 (biImm q.word)) % (2 ^ 19 : Int)).toNat)) })) s).stepPc pair none) := by
  change execBankSetp pair s = _
  rw [execBankSetp]
  simp only [h]
  generalize biImm q.word / 2 ^ 14 = mode
  rcases mode with _ | _ | mode <;> rfl

/-- EXPS clears the score and counts an allowed token; accumulators and pointers stay (R159). -/
theorem exec_bankExps_of_mayIssue (h : s.mayIssue pair .exps = some q) :
    ∃ t : State, exec (.bankExps pair) s = .next t ∧ Only [.mem, .thermal] s t
      ∧ (t.vault pair).seq = some { q with pc := q.pc + 1, afterM := false }
      ∧ ∀ b ∈ s.activeBanks pair q, look (t.unit pair b).s 0 0 = wBits .zero
        ∧ (t.unit pair b).cnt = (s.unit pair b).cnt + (if biMask q.word && !q.allowed b q.inner then 0 else 1)
        ∧ (t.unit pair b).acc = (s.unit pair b).acc ∧ (t.unit pair b).p = (s.unit pair b).p := by
  refine ⟨_, rfl, (execBankExps_only pair s _ rfl).mono (by decide), State.classR_seq h, fun b hb => ?_⟩
  rw [State.classR_unit h hb]
  refine ⟨look_put_self _ _ _ _, ?_⟩
  by_cases hmask : biMask q.word && !q.allowed b q.inner <;> simp [hmask, BankUnit.setReg, BankUnit.setS]

/-- The vault after `k` records of a RISE, from the one it stands at, in their time. -/
def State.riseBy (s : State) (pair : Nat) (q : SeqSt) (k : Nat) : State :=
  ((((List.range k).map (fun i => q.rise + i)).foldl (fun (t : State) b => t.sendRecord pair q b) s).spend pair
    (s.recordsTime pair (riseSize q.word) q.rise (q.rise + k))).setSeqSt pair (fun x => { x with
      degraded := x.degraded || s.narrow pair || (List.range 128).any (fun b => q.enabled b && s.bankRetired pair b)
      rise := if x.rise + k = 128 then 0 else x.rise + k })

section
variable (h : s.mayIssue pair .rise = some q)
include h

theorem exec_bankRise_of_empty (hsize : riseSize q.word = 0) :
    exec (.bankRise pair) s = .next (s.stepPc pair (some false)) := by
  change execBankRise pair s = _
  simp only [execBankRise, h, hsize, if_true]

/-- RISE sends the records that fit, and steps on when the last of them is bank 127's. -/
theorem exec_bankRise_of_records (hsize : 0 < riseSize q.word) :
    exec (.bankRise pair) s
      = .next (if q.rise + s.recordsNow pair q = 128 then
          (s.riseBy pair q (s.recordsNow pair q)).stepPc pair (some false)
        else s.riseBy pair q (s.recordsNow pair q)) := by
  change execBankRise pair s = _
  simp only [execBankRise, h, if_neg hsize.ne', State.riseBy]

end

theorem exec_bankEnd_of_mayIssue (h : s.mayIssue pair .stop = some q) :
    exec (.bankEnd pair) s
      = .next (((s.setVault pair (fun v => { v with processor := !v.queue.isEmpty })).endBank pair q.req
      { status := if q.degraded then .doneDegraded else .done
        flags := ((s.seqBanks pair q).map (s.unit pair)).foldl (fun g u => g ||| u.flags) 0
        result := BitVec.ofNat 64 (((s.seqBanks pair q).map (s.unit pair)).foldl (fun m u => max m u.cycles) 0) }).endSortie pair) := by
  change execBankEnd pair s = _
  simp only [execBankEnd, h]

end

/-- Settles O28: each clause is the equation of its instruction where it may issue; CLRA and EXPS are class-R instructions, and
ENDL and RISE divide by whether an iteration or a record is left. -/
theorem bankControl : Obligations.BankControl := by
  refine ⟨fun s tag op c hd hz hu => exec_opBankRun_of_zero hd hu hz,
    fun s tag op c x hd hcount hlen hranges hp hx hu => exec_opBankRun_of_present hd hu hcount hlen hranges hp hx,
    fun _ _ _ _ => exec_sequenceLoad_of_received, fun _ _ => exec_sortieStart_of_startsNow,
    fun _ _ _ => exec_sortieEnd_of_notFits, fun s pair q => ⟨exec_bankLoop_of_count, exec_bankLoop_of_param,
      exec_bankLoop_of_param_zero, fun l rest h hloops hround => ?_, fun l rest h hloops hlast => ?_,
      exec_bankSetp_of_mayIssue, fun h => ?_, exec_bankExps_of_mayIssue, exec_bankRise_of_empty,
      fun k t h hsize hk ht => ?_, exec_bankEnd_of_mayIssue⟩⟩
  · simpa only [if_pos hround] using exec_bankEndl_of_loop h hloops
  · simpa only [if_neg (Nat.not_lt.mpr hlast)] using exec_bankEndl_of_loop h hloops
  · exact congrArg _ (State.classR_of_mayIssue h)
  · subst hk ht
    rw [exec_bankRise_of_records h hsize]
    exact ⟨fun hlast => congrArg _ (if_pos hlast), fun hmore => congrArg _ (if_neg hmore)⟩

end Sys2Proof.Machine
end

section
/-! PROOF. The memory commands and ring adoption (07_vaults_and_protection.md R174, R175, R199, R200,
08_warden_mailboxes.md R232): the checks that pass, and one equation for each command once they have. -/

namespace Sys2Proof.Machine

open Sys2Proof

section
variable {s u : State} {c : Fin 4} {k : Fin 1024} {a : Adm}

/-! ## MEM_WINDOW_SET -/

/-- The window a MEM_WINDOW_SET slot describes, enabled or not. -/
def Adm.windowEffect (a : Adm) (enable : Bool) : Effect :=
  .window (field a.b 24 1) enable (field a.b 26 1) (field a.b 27 1) (field a.b 28 1) (field a.b 32 4) (field a.b 36 4)

/-- A window of vaults without a page pool meets none. -/
theorem State.windowMeetsPool_of_noPool {pairs : List Nat} (h : ∀ p ∈ pairs, look s.settings.poolRows p 0 = 0)
    (w : Window) : s.windowMeetsPool w pairs = false := by
  rw [windowMeetsPool, List.any_eq_false]
  intro p hp
  simp [h p hp]

theorem windowPairs_of_zero (tower first : Nat) : windowPairs tower first 0 = [] := rfl

/-- Of a window that is switched off only its number is checked. -/
theorem exec_memWindowSet_of_disabled (h : s.admission 0x0040 c k = some (u, a)) (hnum : field a.b 24 1 ≤ 15)
    (hoff : field a.b 25 1 = 0) : exec (.memWindowSet c k) s = .next (a.defer u (a.windowEffect false)) := by
  change execMemWindowSet c k s = _
  rw [execMemWindowSet, State.serve_admission h, Adm.checked_of_pass]
  · simp [hoff, Adm.windowEffect]
  · simp [hoff, hnum]

theorem exec_memWindowSet_of_enabled (h : s.admission 0x0040 c k = some (u, a)) (hnum : field a.b 24 1 ≤ 15)
    (hon : field a.b 25 1 = 1) (htower : field a.b 26 1 ≤ 15) (hfirst : field a.b 27 1 ≤ 63)
    (hlast : field a.b 27 1 + field a.b 28 1 ≤ 64) (hbase : field a.b 32 4 % 4096 = 0)
    (hsize : field a.b 36 4 % 4096 = 0) (hend : field a.b 32 4 + field a.b 36 4 ≤ vaultBytes)
    (hhas : u.hasTower (field a.b 26 1) = true)
    (hpairs : ∀ p ∈ windowPairs (field a.b 26 1) (field a.b 27 1) (field a.b 28 1), u.pairPresent p = true)
    (hpool : 0 < field a.b 36 4 → u.windowMeetsPool { base := field a.b 32 4, size := field a.b 36 4 }
      (windowPairs (field a.b 26 1) (field a.b 27 1) (field a.b 28 1)) = false) :
    exec (.memWindowSet c k) s
      = .next (if field a.b 28 1 = 0 ∨ field a.b 36 4 = 0 then a.finish u { status := .doneEmpty }
          else a.defer u (a.windowEffect true)) := by
  change execMemWindowSet c k s = _
  rw [execMemWindowSet, State.serve_admission h, Adm.checked_of_pass]
  · simp [hon, Adm.windowEffect]
  · simpa [hon, hnum, htower, hfirst, hlast, hbase, hsize, hend, hhas] using ⟨hpairs, hpool⟩

/-! ## MEM_RETIRE and MEM_UNRETIRE -/

/-- The checks that both commands share pass for a bank of a present pair. -/
theorem retireChecks_pass_of_bank (hkind : field a.b 24 1 = 1) (hpair : u.pairPresent (field a.b 40 2) = true)
    (hbank : field a.b 42 1 ≤ 127) : ∀ x ∈ retireChecks u a.b, x.1 = false := by
  have hlt : field a.b 40 2 ≤ 1023 := Nat.le_of_lt_succ (State.lt_of_pairPresent hpair)
  simp [retireChecks, hkind, hpair, hbank, hlt]

/-- They pass for a block that a vault address names. -/
theorem retireChecks_pass_of_block {p b : Nat} (hkind : field a.b 24 1 = 0) (halign : field a.b 32 8 % 4096 = 0)
    (hblock : u.blockNamed (field a.b 32 8) = some (p, b)) (hnear : field a.b 32 8 < farBase) :
    ∀ x ∈ retireChecks u a.b, x.1 = false := by
  simp [retireChecks, hkind, halign, hblock, Nat.not_le.mpr hnear]

theorem exec_memRetire_of_bank (h : s.admission 0x0042 c k = some (u, a)) (hkind : field a.b 24 1 = 1)
    (hpair : u.pairPresent (field a.b 40 2) = true) (hbank : field a.b 42 1 ≤ 127) :
    exec (.memRetire c k) s = .next (a.defer u (.retireBank (field a.b 40 2) (field a.b 42 1))) := by
  change execMemRetire c k s = _
  rw [execMemRetire, State.serve_admission h, Adm.checked_of_pass]
  · rw [hkind]
    rfl
  · refine List.forall_mem_append.mpr ⟨retireChecks_pass_of_bank hkind hpair hbank, ?_⟩
    simp [hkind]

theorem exec_memRetire_of_block {p b : Nat} (h : s.admission 0x0042 c k = some (u, a)) (hkind : field a.b 24 1 = 0)
    (halign : field a.b 32 8 % 4096 = 0) (hblock : u.blockNamed (field a.b 32 8) = some (p, b))
    (hroom : u.retiredBlocks + u.retiringBlocks < 65536) (hnear : field a.b 32 8 < farBase) :
    exec (.memRetire c k) s = .next (a.defer u (.retireBlock p b)) := by
  change execMemRetire c k s = _
  rw [execMemRetire, State.serve_admission h, Adm.checked_of_pass]
  · rw [hkind, hblock]
    rfl
  · refine List.forall_mem_append.mpr ⟨retireChecks_pass_of_block hkind halign hblock hnear, ?_⟩
    simp [Nat.not_le.mpr hroom]

theorem exec_memUnretire_of_block {p b : Nat} (h : s.admission 0x0043 c k = some (u, a)) (hkind : field a.b 24 1 = 0)
    (halign : field a.b 32 8 % 4096 = 0) (hblock : u.blockNamed (field a.b 32 8) = some (p, b))
    (hnear : field a.b 32 8 < farBase) :
    exec (.memUnretire c k) s = .next (a.defer u (.unretireBlock p b)) := by
  change execMemUnretire c k s = _
  rw [execMemUnretire, State.serve_admission h,
    Adm.checked_of_pass (retireChecks_pass_of_block hkind halign hblock hnear), hkind, hblock]
  rfl

theorem exec_memUnretire_of_bank (h : s.admission 0x0043 c k = some (u, a)) (hkind : field a.b 24 1 = 1)
    (hpair : u.pairPresent (field a.b 40 2) = true) (hbank : field a.b 42 1 ≤ 127) :
    exec (.memUnretire c k) s
      = .next (a.done { u with mem := { u.mem with
          releasing := u.mem.releasing ++ [{ pair := field a.b 40 2, bank := some (field a.b 42 1), block := 0 }] } }) := by
  change execMemUnretire c k s = _
  rw [execMemUnretire, State.serve_admission h, Adm.checked_of_pass (retireChecks_pass_of_bank hkind hpair hbank), hkind]
  rfl

/-! ## RING_ADOPT -/

/-- The adoption a RING_ADOPT slot asks for of its own controller; it binds the work admitted before it. -/
def Adm.adoption (a : Adm) (s : State) : Adoption :=
  ⟨Fin.ofNat 4 (field a.b 24 1), BitVec.ofNat 16 (field a.b 25 1), a.ctrl, BitVec.ofNat 16 (field a.b 26 1), s.warden.nextAdm⟩

theorem exec_ringAdopt_of_ringOn (h : s.admission 0x0050 c k = some (u, a)) (hc : c.val < 2)
    (hsrc : field a.b 24 1 ≤ 3) (hsrcRing : field a.b 25 1 ≤ 63) (hring : field a.b 26 1 ≤ 63)
    (hon : (u.port c).ringOn (field a.b 26 1) = true) :
    exec (.ringAdopt c k) s
      = .next ((a.done u).setWarden (fun w => { w with
          adoptions := a.adoption u :: w.adoptions, records := adoptWaiting w.records (a.adoption u) })) := by
  change execRingAdopt c k s = _
  rw [execRingAdopt, State.serve_admission h, Adm.checked_of_pass, Adm.adoption]
  simp [Adm.noPort_of_hostPort (Adm.ctrl_lt_two_of_admission h hc), (State.admission_adm h).1, hsrc, hsrcRing, hring, hon]

/-- A source controller in range is the one the adoption names, so it covers host work of that controller and ring. -/
theorem Adm.adoption_covers (hsrc : field a.b 24 1 ≤ 3) (r : Rec) :
    (a.adoption u).covers r
      = (decide (field a.b 24 1 < 2)
        && decide (r.bound = (Fin.ofNat 4 (field a.b 24 1), BitVec.ofNat 16 (field a.b 25 1))) && r.adoptable) := by
  have hval : (Fin.ofNat 4 (field a.b 24 1)).val = field a.b 24 1 := Nat.mod_eq_of_lt (Nat.lt_succ_of_le hsrc)
  rw [Adoption.covers, Adm.adoption, hval]

end

/-- Settles O21: each command comes down to its one equation; an enabled window divides by whether it names any bytes, and
the adoption covers exactly the records the statement names. -/
theorem memoryCommands : Obligations.MemoryCommands := by
  refine fun s u c k a => ⟨exec_memWindowSet_of_disabled,
    fun h hnum hon htower hcount hlast hbase hsize hbytes hend hhas hpairs => ?_,
    fun h hnum hon htower hfirst hlast hbase hsize hend hhas hempty hpairs => ?_,
    exec_memRetire_of_bank, fun p b => exec_memRetire_of_block, fun p b => exec_memUnretire_of_block,
    exec_memUnretire_of_bank, fun h hc hsrc hsrcRing hring hon => ?_⟩
  · rw [exec_memWindowSet_of_enabled h hnum hon htower (by omega) hlast hbase hsize hend hhas
      (fun p hp => (hpairs p hp).1) (fun _ => State.windowMeetsPool_of_noPool (fun p hp => (hpairs p hp).2) _),
      if_neg (by omega), Adm.windowEffect]
  · refine (exec_memWindowSet_of_enabled h hnum hon htower hfirst hlast hbase hsize hend hhas hpairs fun hbytes => ?_).trans
      (by rw [if_pos hempty])
    rw [hempty.resolve_right hbytes.ne', windowPairs_of_zero]
    rfl
  · rw [exec_ringAdopt_of_ringOn h hc hsrc hsrcRing hring hon]
    simp only [adoptWaiting, Adm.adoption_covers hsrc]
    rw [Adm.adoption, (State.admission_adm h).1]

end Sys2Proof.Machine
end

section
/-! PROOF. Accesses to the vaults (06_bank_processing.md R165, 07_vaults_and_protection.md R180, R182, R183, R188): a core's
access line by line, whether an access waits or is served, and the two ways a waiting one moves on. -/

namespace Sys2Proof.Machine

open Sys2Proof

/-! ## A core's access, line by line -/

theorem State.ready_iff {s : State} : s.ready = true ↔ s.lantern.stage = 0xF := decide_eq_true_iff

section
variable {s : State} {core : Nat}

theorem State.coreRead_of_ready (hready : s.ready = true) (hp : s.pairPresent core = true) (cls : Fin 3) (a n : Nat) :
    s.coreRead core cls a n
      = (linePieces a n).foldl (fun (t : State) x => t.coreAccess core cls x.1 (some x.2.2) []) s := by
  simp [coreRead, hready, hp]

theorem State.coreWrite_of_ready (hready : s.ready = true) (hp : s.pairPresent core = true) {cls : Fin 3}
    (hcls : cls ≠ 0) (a : Nat) (d : List Byte) :
    s.coreWrite core cls a d
      = (linePieces a d.length).foldl
          (fun (t : State) x => t.coreAccess core cls x.1 none ((d.drop x.2.1).take x.2.2)) s := by
  simp [coreWrite, hready, hp, hcls]

/-- A write marked class 0 is one of class 1 (R182). -/
theorem State.coreWrite_zero (s : State) (core a : Nat) (d : List Byte) :
    s.coreWrite core 0 a d = s.coreWrite core 1 a d := rfl

theorem State.not_coreRuns (h : s.lantern.stage ≠ 0xF ∨ s.pairPresent core = false) :
    ¬ (s.ready && s.pairPresent core) = true := by
  rw [Bool.and_eq_true, ready_iff]
  rintro ⟨hstage, hp⟩
  exact h.elim (fun hne => hne hstage) (fun habs => by simp [habs] at hp)

theorem State.coreRead_of_notRunning (h : s.lantern.stage ≠ 0xF ∨ s.pairPresent core = false) (cls : Fin 3) (a n : Nat) :
    s.coreRead core cls a n = s :=
  if_neg (not_coreRuns h)

theorem State.coreWrite_of_notRunning (h : s.lantern.stage ≠ 0xF ∨ s.pairPresent core = false) (cls : Fin 3) (a : Nat)
    (d : List Byte) : s.coreWrite core cls a d = s :=
  if_neg (not_coreRuns h)

end

section
variable (s : State) (p : Fin 1024)

theorem exec_nearRead (o n : Nat) :
    exec (.nearRead p o n) s = .next (if o + n ≤ 2 ^ 31 then s.coreRead p 1 (modAddr p o) n else s) := rfl

theorem exec_nearWrite (o : Nat) (d : List Byte) :
    exec (.nearWrite p o d) s = .next (if o + d.length ≤ 2 ^ 31 then s.coreWrite p 1 (modAddr p o) d else s) := rfl

theorem exec_farRead (a n : Nat) (cls : Fin 3) : exec (.farRead p a n cls) s = .next (s.coreRead p cls a n) := rfl

theorem exec_farWrite (a : Nat) (d : List Byte) (cls : Fin 3) :
    exec (.farWrite p a d cls) s = .next (s.coreWrite p cls a d) := rfl

end

/-! ## Whether an access waits -/

section
variable {s : State} {pair : Nat} {h : Held}

theorem State.access_of_mustWait (hw : s.mustWait pair h = true) :
    s.access pair h = s.setVault pair (fun v => v.offer h) :=
  if_pos hw

theorem State.access_of_mayGo (hw : s.mustWait pair h = false) : s.access pair h = s.serveAccess pair h :=
  if_neg (Bool.not_eq_true _ ▸ hw)

theorem State.mustWait_of_behind (hb : s.behind pair h = true) : s.mustWait pair h = true := by
  simp [mustWait, hb]

/-- A near access goes past the slice, so a vault that is shut or gives its class no time makes it wait. -/
theorem State.mustWait_of_near (hn : h.near = true)
    (hv : s.vaultShut pair = true ∨ s.classServed pair h.cls.val = false) : s.mustWait pair h = true := by
  have hslice : s.bySlice pair h = false := by simp [bySlice, hn]
  obtain hv | hv := hv <;> simp [mustWait, hslice, hv]

theorem State.mustWait_of_free (hb : s.behind pair h = false) (hv : s.vaultShut pair = false)
    (hc : s.classServed pair h.cls.val = true) : s.mustWait pair h = false := by
  simp [mustWait, hb, hv, hc]

theorem State.vaultShut_iff : s.vaultShut pair = true ↔
    (s.vault pair).sortie.isSome = true ∨ (s.vault pair).pausedUntil.isSome = true ∨ s.inVaultSlot pair = true := by
  simp [vaultShut, or_assoc]

theorem State.vaultShut_of_free (hso : (s.vault pair).sortie = none) (hpa : (s.vault pair).pausedUntil = none)
    (hsl : s.inVaultSlot pair = false) : s.vaultShut pair = false := by
  simp [vaultShut, hso, hpa, hsl]

/-- A read of one line of a vault, as a core's access makes it. -/
def State.lineRead (s : State) (core : Nat) (cls : Fin 3) (pair off n : Nat) : Held :=
  { write := false, offset := off, len := n, data := [], cls := cls, arrived := s.now, classSince := s.now,
    near := decide (pair = core), core := core }

theorem State.coreAccess_read_of_vault {core off n a : Nat} {cls : Fin 3} (hr : s.reach a = .vault pair off) :
    s.coreAccess core cls a (some n) [] = s.access pair (s.lineRead core cls pair off n) := by
  rw [coreAccess, hr]
  rfl

/-- A core's read of its own vault is near: it waits for a vault that is shut or gives its class no time (R165, R183). -/
theorem State.mustWait_lineRead_of_own {core off n : Nat} {cls : Fin 3} (hcore : pair = core)
    (hwait : (s.vault pair).sortie.isSome = true ∨ (s.vault pair).pausedUntil.isSome = true ∨ s.inVaultSlot pair = true
      ∨ s.classServed pair cls = false) : s.mustWait pair (s.lineRead core cls pair off n) = true := by
  refine mustWait_of_near (decide_eq_true hcore) ?_
  rwa [vaultShut_iff, or_assoc, or_assoc]

end

/-! ## Holding and serving -/

theorem Vault.offer_of_room {v : Vault} {h : Held} (hb : v.back = []) (hl : v.held.length < 64) :
    v.offer h = { v with held := v.held ++ [h] } := by
  simp [offer, hb, holdRoom, hl]

theorem Vault.offer_of_full {v : Vault} {h : Held} (hf : v.back ≠ [] ∨ 64 ≤ v.held.length) :
    v.offer h = { v with back := v.back ++ [h] } := by
  obtain hf | hf := hf
  · simp [offer, hf]
  · simp [offer, holdRoom, Nat.not_lt.mpr hf]

/-- The swap time of a class-2 access is spent before it is served (10_rack_time_rations.md R281). -/
def State.spendSwap (s : State) (pair : Nat) (h : Held) : State :=
  if h.cls = 2 then s.setVault pair (fun v => { v with swapSpent := v.swapSpent + s.accessTime pair h }) else s

section
variable {s : State} {pair : Nat} {h : Held} {io : Io}

theorem State.serveAccess_of_read {bs : List Byte} (hw : h.write = false)
    (hread : (s.spendSwap pair h).readLine pair h.offset h.len h.near h.cls.val = (bs, io)) (hstop : io.stop = none) :
    s.serveAccess pair h = io.s.emit (h.gives pair bs) := by
  rw [spendSwap] at hread
  simp only [serveAccess, hw, hread, hstop, Bool.false_eq_true, if_false]

theorem State.serveAccess_of_write (hw : h.write = true)
    (hwrite : (s.spendSwap pair h).writeLine pair h.offset h.data h.near h.cls.val (4096, 0) = io)
    (hstop : io.stop = none) : s.serveAccess pair h = io.s := by
  rw [spendSwap] at hwrite
  simp only [serveAccess, hw, hwrite, hstop, if_true]

end

/-! ## MERGE_ENTRY_IDLE, ACCESS_PROMOTE, CHANNEL_PAUSE_END -/

section
variable {s : State} {p : Fin 1024}

theorem exec_mergeEntryIdle_of_entry {w : Nat} {e : MergeEntry} (he : (s.vault p).entry w = some e) :
    exec (.mergeEntryIdle p w) s = .next (if e.writtenAt + 1024 ≤ s.now then s.writeOut p e else s) := by
  change execMergeEntryIdle p w s = _
  rw [execMergeEntryIdle, he]

/-- No class is promoted sooner than class 1. -/
theorem le_promoteAfter {cls d : Nat} (hd : promoteAfter cls = some d) : 16384 ≤ d := by
  unfold promoteAfter at hd
  split at hd
  · cases hd
    exact Nat.le_refl _
  · split at hd
    · cases hd
      decide
    · cases hd

/-- A held access in the next lower class, waiting there from `now` on. -/
def Held.promoted (h : Held) (now : Nat) : Held := { h with cls := if h.cls = 2 then 1 else 0, classSince := now }

/-- What becomes of a vault whose held access `i` is promoted: the window opens for it at once (R183). -/
def State.promoteHeld (s : State) (pair i : Nat) (h : Held) : State :=
  (s.setVault pair (fun v => { v with held := v.held.set i (h.promoted s.now) })).serveHeld pair

section
variable {i : Nat} {h : Held} (hheld : (s.vault p).held[i]? = some h)
include hheld

theorem exec_accessPromote_of_due {d : Nat} (hd : promoteAfter h.cls.val = some d) (hdue : h.classSince + d ≤ s.now)
    (hswap : ¬ (h.cls = 2 ∧ (s.profileFor p).swap = 0)) :
    exec (.accessPromote p i) s = .next (s.promoteHeld p i h) := by
  change execAccessPromote p i s = _
  simp only [execAccessPromote, hheld, hd]
  rw [if_pos ⟨hdue, by simpa [imp_iff_not_or] using hswap⟩]
  rfl

theorem exec_accessPromote_of_notDue
    (hnot : ∀ d, promoteAfter h.cls.val = some d →
      s.now < h.classSince + d ∨ h.cls = 2 ∧ (s.profileFor p).swap = 0) :
    exec (.accessPromote p i) s = .next s := by
  change execAccessPromote p i s = _
  cases hd : promoteAfter h.cls.val with
  | none => simp only [execAccessPromote, hheld, hd]
  | some d =>
    simp only [execAccessPromote, hheld, hd]
    refine congrArg _ (if_neg fun hgo => ?_)
    obtain ⟨hdue, hswap⟩ := hgo
    obtain hlt | hno := hnot d hd
    · exact Nat.not_lt.mpr hdue hlt
    · simp [hno] at hswap

theorem exec_accessPromote_of_classOne (hcls : h.cls = 1) (hdue : h.classSince + 16384 ≤ s.now) :
    exec (.accessPromote p i) s
      = .next ((s.setVault p (fun v => { v with
          held := v.held.set i { h with cls := 0, classSince := s.now } })).serveHeld p) := by
  rw [exec_accessPromote_of_due hheld (d := 16384) (by rw [hcls]; rfl) hdue (by simp [hcls]), State.promoteHeld,
    Held.promoted, hcls]
  rfl

theorem exec_accessPromote_of_classTwo (hcls : h.cls = 2) (hdue : h.classSince + 65536 ≤ s.now)
    (hswap : (s.profileFor p).swap ≠ 0) :
    exec (.accessPromote p i) s
      = .next ((s.setVault p (fun v => { v with
          held := v.held.set i { h with cls := 1, classSince := s.now } })).serveHeld p) := by
  rw [exec_accessPromote_of_due hheld (d := 65536) (by rw [hcls]; rfl) hdue (fun hno => hswap hno.2), State.promoteHeld,
    Held.promoted, hcls]
  rfl

/-- Class 0 stays, and so does an access that has not waited long enough or whose class gets no swap time. -/
theorem exec_accessPromote_of_stays (hstays : h.cls = 0 ∨ s.now < h.classSince + 16384
      ∨ h.cls = 2 ∧ (s.now < h.classSince + 65536 ∨ (s.profileFor p).swap = 0)) :
    exec (.accessPromote p i) s = .next s := by
  refine exec_accessPromote_of_notDue hheld fun d hd => ?_
  have hle := le_promoteAfter hd
  obtain hcls | hlt | ⟨hcls, hlt | hswap⟩ := hstays
  · rw [hcls] at hd
    cases hd
  · exact .inl (by omega)
  · rw [hcls] at hd
    cases hd
    exact .inl hlt
  · exact .inr ⟨hcls, hswap⟩

end

theorem exec_channelPauseEnd :
    exec (.channelPauseEnd p) s
      = .next (if (s.vault p).pausedUntil.isSome = true
          then (s.setVault p (fun v => { v with pausedUntil := none, freedAt := some s.now })).serveHeld p else s) := rfl

end

/-! ## SLICE_FAIL -/

theorem State.mayDegrade_slice (s : State) (t : Nat) : s.mayDegrade.slice t = s.slice t := by
  have hmem : s.mayDegrade.mem = _ := s.mayDegrade_only.same .mem (by decide)
  rw [slice, hmem]
  rfl

/-- A slice that fails goes out of service and holds no line. -/
theorem exec_sliceFail_of_serving {s : State} {t : Fin 16} (ht : s.hasTower t = true) (hs : (s.slice t).failed = false) :
    ∃ u, exec (.sliceFail t) s = .next u ∧ (u.slice t).failed = true ∧ (u.slice t).lines = [] := by
  change ∃ u, execSliceFail t s = .next u ∧ _
  rw [execSliceFail, if_pos (by simp [ht, hs])]
  refine ⟨_, rfl, ?_⟩
  simp [State.mayDegrade_slice, State.emptySlice]

end Sys2Proof.Machine
end

section
/-! PROOF. Maintenance of the vaults (07_vaults_and_protection.md R195 to R203, 10_rack_time_rations.md R282): refresh and
canary rows, scrub, and the spare connections of a vault. -/

namespace Sys2Proof.Machine

open Sys2Proof

/-! ## Refresh and canary rows -/

/-- A vault at the start of a refresh slot that reads the canary rows `rows`. -/
def State.beginRefresh (s : State) (pair : Nat) (rows : List Nat) : State :=
  s.setVault pair (fun v => { v with
    slotUntil := some (s.now + s.refreshLen pair), refreshRow := (v.refreshRow + (s.refreshLen pair / 64 - rows.length)) % 9360
    canaryRead := rows.foldl (fun m r => put m r s.now) v.canaryRead
    units := v.units.map (fun e => (e.1, { e.2 with openRow := none })) })

section
variable {s : State} {p : Fin 1024}

theorem exec_refreshSlot_of_due (l : List (Fin 128 × Fin 4)) (hp : s.pairPresent p = true)
    (hrun : s.time.running = true) (hat : s.inPeriod = s.refreshAt p) (hslot : s.inVaultSlot p = false) :
    exec (.refreshSlot p l) s
      = .next ((l.filter (fun f => (s.canaryDue p (s.refreshLen p / 64)).contains f.2.val)).foldl
          (fun (t : State) f => t.canaryFail p f.1.val f.2.val)
          (s.beginRefresh p (s.canaryDue p (s.refreshLen p / 64)))) := by
  change execRefreshSlot p l s = _
  rw [execRefreshSlot, if_pos (by simp [hp, hrun, hat, hslot])]
  rfl

theorem exec_refreshSlot_of_elsewhere (l : List (Fin 128 × Fin 4)) (hat : s.inPeriod ≠ s.refreshAt p) :
    exec (.refreshSlot p l) s = .next s := by
  change execRefreshSlot p l s = _
  rw [execRefreshSlot, if_neg (by simp [hat])]

theorem exec_canaryClear_of_failed {t : Nat} (ht : (s.vault p).canaryAt = some t) :
    exec (.canaryClear p) s
      = .next (if t + 10000000000 < s.now ∧ s.atBoundary = true then
          (s.setVault p (fun v => { v with canaryAt := none, halved := false })).logVault p 6 5 0xFF (modAddr p 0)
        else s) := by
  change execCanaryClear p s = _
  rw [execCanaryClear, ht]
  rfl

end

/-! ## Scrub -/

/-- A vault at the start of a scrub slot: the validity of the block to patrol is read, and the slot holds the vault. -/
def State.beginScrub (s : State) (pair : Nat) : State :=
  (s.readMap pair ((s.vault pair).scrubAt / 128) 1).setVault pair
    (fun v => { v with slotUntil := some (s.now + (s.profileFor pair).scrub.toNat) })

section
variable {s : State} {p : Fin 1024}

theorem exec_scrubSlot_of_due (hp : s.pairPresent p = true) (hrun : s.time.running = true)
    (hat : s.inPeriod = (s.profileFor p).scrubOffset.toNat) (hscrub : (s.profileFor p).scrub ≠ 0)
    (hslot : s.inVaultSlot p = false) (hbehind : s.scrubBehind p = true) :
    exec (.scrubSlot p) s
      = .next (match (s.beginScrub p).nextScrub p with
        | some w => ((s.beginScrub p).scrubWord p w).setVault p (fun v => { v with scrubAt := w + 1 })
        | none => (s.beginScrub p).setVault p (fun v => { v with
            scrubAt := 0, lateCount := 0, passStart := max (s.passStart p + s.passNs) s.now })) := by
  change execScrubSlot p s = _
  have hpos : (s.profileFor p).scrub ≠ 0#16 := hscrub
  simp only [execScrubSlot]
  rw [if_pos (by simpa [hp, hrun, hat, hslot, hbehind] using hpos)]
  rfl

theorem exec_scrubLate_of_present (hp : s.pairPresent p = true) :
    exec (.scrubLate p) s
      = .next (if s.passStart p + s.passNs * ((s.vault p).lateCount + 1) ≤ s.now then
          (s.setVault p (fun v => { v with lateCount := v.lateCount + 1 })).logVault p 14 1 0xFF (modAddr p 0)
        else s) := by
  change execScrubLate p s = _
  simp [execScrubLate, hp]

end

/-! ## Spare connections -/

theorem groupSpares_of_channel {g : Nat} (hg : g < 64) : groupSpares g = 4 := if_pos hg

theorem groupSpares_of_cache {g : Nat} (hg : 64 ≤ g) : groupSpares g = 2 := if_neg (Nat.not_lt.mpr hg)

/-- A group of a vault marked as out of spares. -/
def State.exhaustGroup (s : State) (pair g : Nat) : State :=
  s.setVault pair (fun v => { v with groups := put v.groups g { look (s.vault pair).groups g {} with exhausted := true } })

/-- A spare of a group switched in for connection `n`: the channel pauses for 2 µs, and the log and the overlay say which
(R201). -/
def State.useSpare (s : State) (pair g n : Nat) : State :=
  let x := look (s.vault pair).groups g {}
  (((s.setVault pair (fun v => { v with groups := put v.groups g { x with used := x.used + 1 } })).pauseChannel pair 2000).logVault
    pair 7 6 g (modAddr pair 0)).overlayPair 6 pair g (n + 64 * x.used)

section
variable {s : State} {pair g : Nat} (n : Nat)

theorem State.groupFails_of_spare (hx : (look (s.vault pair).groups g {}).used < groupSpares g) :
    s.groupFails pair g n = s.useSpare pair g n :=
  if_pos hx

section
variable (hx : groupSpares g ≤ (look (s.vault pair).groups g {}).used)
include hx

theorem State.groupFails_of_cache (hg : 64 ≤ g) : s.groupFails pair g n = (s.exhaustGroup pair g).losePair pair 5 := by
  simp only [groupFails, if_neg (Nat.not_lt.mpr hx), if_pos hg]
  rfl

theorem State.groupFails_of_clock (hlo : 36 ≤ g) (hg : g < 64) :
    s.groupFails pair g n = (s.exhaustGroup pair g).losePair pair 1 := by
  simp only [groupFails, if_neg (Nat.not_lt.mpr hx), if_neg (Nat.not_le.mpr hg), if_pos hlo]
  rfl

/-- The first data group of a full-width vault to go leaves the vault on its other half (R202). -/
theorem State.groupFails_of_data (hg : g < 36) (hnarrow : (s.vault pair).narrow = none)
    (hhalf : (s.vault pair).halfGone (!groupHalf g) = false) :
    s.groupFails pair g n = (s.exhaustGroup pair g).enterNarrow pair (!groupHalf g) g := by
  have hg64 : ¬ 64 ≤ g := by omega
  simp only [groupFails, if_neg (Nat.not_lt.mpr hx), if_neg hg64, if_neg (Nat.not_le.mpr hg), hnarrow, hhalf,
    Bool.false_eq_true, if_false]
  rfl

end

end

theorem exec_channelGroupFailing_of_present {s : State} {p : Fin 1024} {g : Nat} (n : Fin 64)
    (hp : s.pairPresent p = true) (hg : g < 38 ∨ 64 ≤ g ∧ g < 80) :
    exec (.channelGroupFailing p g n) s = .next (settle s (s.groupFails p g n)) := by
  change execChannelGroupFailing p g n s = _
  rw [execChannelGroupFailing, if_pos (by simpa [hp] using hg)]

/-- Settles O57: each event comes down to its one equation, which a case of the statement evaluates; a core's access divides
by what makes it wait, a failing connection by the spares left and the kind of its group. -/
theorem vaultEvents : Obligations.VaultEvents := by
  refine ⟨fun s p cl hstage hp => ?running, fun s p cl hidle => ?notRunning, fun s p off core n a cl h hreach hh => ?access,
    fun v h => ⟨Vault.offer_of_room, Vault.offer_of_full⟩, fun s u p h hu => ?serve, fun s p w e he => ?merge,
    fun s p i h hheld => ⟨exec_accessPromote_of_classOne hheld, exec_accessPromote_of_classTwo hheld,
      exec_accessPromote_of_stays hheld⟩,
    fun s t => exec_sliceFail_of_serving, fun s p => ?pauseEnd,
    fun s p l hp hrun hat hslot rows hrows => hrows ▸ exec_refreshSlot_of_due l hp hrun hat hslot,
    fun s p l => exec_refreshSlot_of_elsewhere l, fun s p t ht => ?canary,
    fun s t p hp hrun hat hscrub hslot hbehind ht => ?scrub, fun s p hp => ?scrubLate,
    fun s p g n x hp hg hx => ?channelGroup, fun s p g n x hp hlo hhi hx => ?cacheGroup⟩
  case running =>
    have hready := State.ready_iff.mpr hstage
    refine ⟨fun o n hn => ?_, fun o d hd => ?_, fun a n => ?_, fun a d hcl => ?_, fun a d => ?_⟩
    · rw [exec_nearRead, if_pos hn, State.coreRead_of_ready hready hp]
    · rw [exec_nearWrite, if_pos hd, State.coreWrite_of_ready hready hp (by decide)]
    · rw [exec_farRead, State.coreRead_of_ready hready hp]
    · rw [exec_farWrite, State.coreWrite_of_ready hready hp hcl]
    · rw [exec_farWrite, exec_farWrite, State.coreWrite_zero]
  case notRunning =>
    refine ⟨fun o n => ?_, fun o d => ?_, fun a n => ?_, fun a d => ?_⟩
    · rw [exec_nearRead, State.coreRead_of_notRunning hidle, ite_self]
    · rw [exec_nearWrite, State.coreWrite_of_notRunning hidle, ite_self]
    · rw [exec_farRead, State.coreRead_of_notRunning hidle]
    · rw [exec_farWrite, State.coreWrite_of_notRunning hidle]
  case access =>
    change h = s.lineRead core cl p off n at hh
    subst hh
    exact ⟨State.coreAccess_read_of_vault hreach,
      fun hcore hwait => State.access_of_mustWait (State.mustWait_lineRead_of_own hcore hwait),
      fun hb => State.access_of_mustWait (State.mustWait_of_behind hb),
      fun hb hso hpa hsl hserved =>
        State.access_of_mayGo (State.mustWait_of_free hb (State.vaultShut_of_free hso hpa hsl) hserved)⟩
  case serve =>
    change u = s.spendSwap p h at hu
    subst hu
    exact ⟨fun bs io => State.serveAccess_of_read, fun io => State.serveAccess_of_write⟩
  case merge =>
    rw [exec_mergeEntryIdle_of_entry he]
    exact ⟨fun hdue => by rw [if_pos hdue], fun hnot => by rw [if_neg (Nat.not_le.mpr hnot)]⟩
  case pauseEnd =>
    rw [exec_channelPauseEnd]
    exact ⟨fun hpaused => by rw [if_pos hpaused], fun hnone => by rw [hnone, if_neg (by decide)]⟩
  case canary =>
    rw [exec_canaryClear_of_failed ht]
    refine ⟨fun hlate hbound => by rw [if_pos ⟨hlate, hbound⟩], fun hnot => congrArg _ (if_neg ?_)⟩
    rintro ⟨hlate, hbound⟩
    exact hnot.elim (Nat.not_le.mpr hlate) (fun hno => Bool.eq_false_iff.mp hno hbound)
  case scrub =>
    change t = s.beginScrub p at ht
    rw [exec_scrubSlot_of_due hp hrun hat hscrub hslot hbehind, ← ht]
    exact ⟨fun w hw => by rw [hw], fun hnone => by rw [hnone]⟩
  case scrubLate =>
    rw [exec_scrubLate_of_present hp]
    exact ⟨fun hdue => by rw [if_pos hdue], fun hnot => by rw [if_neg (Nat.not_le.mpr hnot)]⟩
  case channelGroup =>
    have hspares : groupSpares g = 4 := groupSpares_of_channel (by omega)
    subst hx
    rw [exec_channelGroupFailing_of_present n hp (.inl hg)]
    refine ⟨fun hused => by rw [State.groupFails_of_spare _ (hspares ▸ hused), State.useSpare], fun t ht hused => ?_⟩
    have hnone := hspares ▸ hused
    change t = s.exhaustGroup p g at ht
    rw [ht]
    exact ⟨fun hclock => by rw [State.groupFails_of_clock _ hnone hclock (by omega)],
      fun hdata hnarrow hhalf => by rw [State.groupFails_of_data _ hnone hdata hnarrow hhalf]⟩
  case cacheGroup =>
    have hspares := groupSpares_of_cache hlo
    subst hx
    rw [exec_channelGroupFailing_of_present n hp (.inr ⟨hlo, hhi⟩)]
    exact ⟨fun hused => by rw [State.groupFails_of_spare _ (hspares ▸ hused), State.useSpare],
      fun hused => by rw [State.groupFails_of_cache _ (hspares ▸ hused) hlo, State.exhaustGroup]⟩

end Sys2Proof.Machine
end

section
/-! PROOF. What a command can reach: every command spares the time base and the queue (08_warden_mailboxes.md R215,
00_scope.md R507), and all but those of `movesOwnership` spare the ownership. -/

namespace Sys2Proof.Machine

open Sys2Proof

/-- The commands that can change the phase of ownership or OWN_VALID: the ownership writes, timers and commands, a register
write, and what begins a pitch. -/
def movesOwnership : Instr → Bool
  | .ownClaim _ | .ownRenew _ | .ownHandover _ | .ownAccept _ | .ownRelease _ => true
  | .claimWindowEnd | .leaseExpiry | .quietEnd | .handoverLapse => true
  | .ctlClaim _ _ | .ctlRenew _ _ | .ctlHandover _ _ | .ctlAccept _ _ | .ctlRelease _ _ => true
  | .registerWrite _ _ _ _ => true
  | .resetPitchStart | .thermalClearPitchStart | .coldPitchRailsReturn | .modResetNRelease | .vinApply _ | .powerFail => true
  | _ => false

/-- Parts of the state without the time base and the queue, and without the ownership unless the command moves it. -/
def spares (i : Instr) (L : List Part) : Bool :=
  !L.contains .now && !L.contains .pending && (movesOwnership i || !L.contains .own)

theorem spares_iff {i : Instr} {L : List Part} :
    spares i L = true ↔ Part.now ∉ L ∧ Part.pending ∉ L ∧ (movesOwnership i = true ∨ Part.own ∉ L) := by
  simp [spares, and_assoc]

/-- Whatever a command does stays within parts that spare the time base, the queue and, for most commands, the ownership. -/
theorem exec_only {i : Instr} {s t : State} (h : exec i s = .next t) : ∃ L, Only L s t ∧ spares i L = true := by
  cases i with
  | sealWordWrite _ _ _ _ => exact ⟨_, execSealWordWrite_only (hq := h) .., rfl⟩
  | sealGapRelease _ _ => exact ⟨_, execSealGapRelease_only (hq := h) .., rfl⟩
  | registerWrite _ _ _ _ => exact ⟨_, execRegisterWrite_only (hq := h) .., rfl⟩
  | rationApply _ => exact ⟨_, execRationApply_only (hq := h) .., rfl⟩
  | crApply _ => exact ⟨_, execCrApply_only (hq := h) .., rfl⟩
  | crHeadWrite _ _ _ => exact ⟨_, execCrHeadWrite_only (hq := h) .., rfl⟩
  | ownClaim _ => exact ⟨_, execOwnClaim_only (hq := h) .., rfl⟩
  | ownRenew _ => exact ⟨_, execOwnRenew_only (hq := h) .., rfl⟩
  | ownHandover _ => exact ⟨_, execOwnHandover_only (hq := h) .., rfl⟩
  | ownAccept _ => exact ⟨_, execOwnAccept_only (hq := h) .., rfl⟩
  | ownRelease _ => exact ⟨_, execOwnRelease_only (hq := h) .., rfl⟩
  | claimWindowEnd => exact ⟨_, execClaimWindowEnd_only (hq := h) .., rfl⟩
  | leaseExpiry => exact ⟨_, execLeaseExpiry_only (hq := h) .., rfl⟩
  | quietEnd => exact ⟨_, execQuietEnd_only (hq := h) .., rfl⟩
  | handoverLapse => exact ⟨_, execHandoverLapse_only (hq := h) .., rfl⟩
  | submitOrder _ _ => exact ⟨_, execSubmitOrder_only (hq := h) .., rfl⟩
  | geometryRead _ _ => exact ⟨_, execGeometryRead_only (hq := h) .., rfl⟩
  | coreConfig _ _ => exact ⟨_, execCoreConfig_only (hq := h) .., rfl⟩
  | modeSet _ _ => exact ⟨_, execModeSet_only (hq := h) .., rfl⟩
  | kvPool _ _ => exact ⟨_, execKvPool_only (hq := h) .., rfl⟩
  | bivouacSet _ _ => exact ⟨_, execBivouacSet_only (hq := h) .., rfl⟩
  | kvMapRead _ _ => exact ⟨_, execKvMapRead_only (hq := h) .., rfl⟩
  | memWindowSet _ _ => exact ⟨_, execMemWindowSet_only (hq := h) .., rfl⟩
  | memScrubSet _ _ => exact ⟨_, execMemScrubSet_only (hq := h) .., rfl⟩
  | memRetire _ _ => exact ⟨_, execMemRetire_only (hq := h) .., rfl⟩
  | memUnretire _ _ => exact ⟨_, execMemUnretire_only (hq := h) .., rfl⟩
  | memErrlogRead _ _ => exact ⟨_, execMemErrlogRead_only (hq := h) .., rfl⟩
  | ringAdopt _ _ => exact ⟨_, execRingAdopt_only (hq := h) .., rfl⟩
  | strikeOrder _ _ => exact ⟨_, execStrikeOrder_only (hq := h) .., rfl⟩
  | strikeSeq _ _ => exact ⟨_, execStrikeSeq_only (hq := h) .., rfl⟩
  | strikeAll _ _ => exact ⟨_, execStrikeAll_only (hq := h) .., rfl⟩
  | unitStop _ _ => exact ⟨_, execUnitStop_only (hq := h) .., rfl⟩
  | strikeRecords => exact ⟨_, execStrikeRecords_only (hq := h) .., rfl⟩
  | ctlClaim _ _ => exact ⟨_, execCtlClaim_only (hq := h) .., rfl⟩
  | ctlRenew _ _ => exact ⟨_, execCtlRenew_only (hq := h) .., rfl⟩
  | ctlHandover _ _ => exact ⟨_, execCtlHandover_only (hq := h) .., rfl⟩
  | ctlAccept _ _ => exact ⟨_, execCtlAccept_only (hq := h) .., rfl⟩
  | ctlRelease _ _ => exact ⟨_, execCtlRelease_only (hq := h) .., rfl⟩
  | ctlOwnStatus _ _ => exact ⟨_, execCtlOwnStatus_only (hq := h) .., rfl⟩
  | timeConfig _ _ => exact ⟨_, execTimeConfig_only (hq := h) .., rfl⟩
  | powerSlotsSet _ _ => exact ⟨_, execPowerSlotsSet_only (hq := h) .., rfl⟩
  | powerSlotsRead _ _ => exact ⟨_, execPowerSlotsRead_only (hq := h) .., rfl⟩
  | coolantConfig _ _ => exact ⟨_, execCoolantConfig_only (hq := h) .., rfl⟩
  | sensorDemote _ _ => exact ⟨_, execSensorDemote_only (hq := h) .., rfl⟩
  | sensorRestore _ _ => exact ⟨_, execSensorRestore_only (hq := h) .., rfl⟩
  | thermalClear _ _ => exact ⟨_, execThermalClear_only (hq := h) .., rfl⟩
  | thermalClearPitchStart => exact ⟨_, execThermalClearPitchStart_only (hq := h) .., rfl⟩
  | swingLimitSet _ _ => exact ⟨_, execSwingLimitSet_only (hq := h) .., rfl⟩
  | thermalRead _ _ => exact ⟨_, execThermalRead_only (hq := h) .., rfl⟩
  | linkConfig _ _ => exact ⟨_, execLinkConfig_only (hq := h) .., rfl⟩
  | linkEnumerate _ _ => exact ⟨_, execLinkEnumerate_only (hq := h) .., rfl⟩
  | linkRouteSet _ _ => exact ⟨_, execLinkRouteSet_only (hq := h) .., rfl⟩
  | linkRetrain _ _ => exact ⟨_, execLinkRetrain_only (hq := h) .., rfl⟩
  | linkGrant _ _ => exact ⟨_, execLinkGrant_only (hq := h) .., rfl⟩
  | linkStatusRead _ _ => exact ⟨_, execLinkStatusRead_only (hq := h) .., rfl⟩
  | linkCopy _ _ => exact ⟨_, execLinkCopy_only (hq := h) .., rfl⟩
  | linkCopyTimeout _ => exact ⟨_, execLinkCopyTimeout_only (hq := h) .., rfl⟩
  | pitchConfig _ _ => exact ⟨_, execPitchConfig_only (hq := h) .., rfl⟩
  | resetDevice _ _ => exact ⟨_, execResetDevice_only (hq := h) .., rfl⟩
  | computeResetComplete _ _ => exact ⟨_, execComputeResetComplete_only (hq := h) .., rfl⟩
  | defectRead _ _ => exact ⟨_, execDefectRead_only (hq := h) .., rfl⟩
  | attest _ _ => exact ⟨_, execAttest_only (hq := h) .., rfl⟩
  | certRead _ _ => exact ⟨_, execCertRead_only (hq := h) .., rfl⟩
  | fwWrite _ _ => exact ⟨_, execFwWrite_only (hq := h) .., rfl⟩
  | fwStage _ _ => exact ⟨_, execFwStage_only (hq := h) .., rfl⟩
  | fwActivate _ _ => exact ⟨_, execFwActivate_only (hq := h) .., rfl⟩
  | fwCommit _ _ => exact ⟨_, execFwCommit_only (hq := h) .., rfl⟩
  | fwAbandon _ _ => exact ⟨_, execFwAbandon_only (hq := h) .., rfl⟩
  | trialTimeout => exact ⟨_, execTrialTimeout_only (hq := h) .., rfl⟩
  | trustPolicy _ _ => exact ⟨_, execTrustPolicy_only (hq := h) .., rfl⟩
  | weightsUnseal _ _ => exact ⟨_, execWeightsUnseal_only (hq := h) .., rfl⟩
  | sealedRelease _ _ => exact ⟨_, execSealedRelease_only (hq := h) .., rfl⟩
  | eventRead _ _ => exact ⟨_, execEventRead_only (hq := h) .., rfl⟩
  | wdogConfig _ _ => exact ⟨_, execWdogConfig_only (hq := h) .., rfl⟩
  | opNop _ _ => exact ⟨_, execOpNop_only (hq := h) .., rfl⟩
  | opMm _ _ => exact ⟨_, execOpMm_only (hq := h) .., rfl⟩
  | opSfApply _ _ => exact ⟨_, execOpSfApply_only (hq := h) .., rfl⟩
  | opSoftmax _ _ => exact ⟨_, execOpSoftmax_only (hq := h) .., rfl⟩
  | opNorm _ _ => exact ⟨_, execOpNorm_only (hq := h) .., rfl⟩
  | opDmCopy _ _ => exact ⟨_, execOpDmCopy_only (hq := h) .., rfl⟩
  | opMemZero _ _ => exact ⟨_, execOpMemZero_only (hq := h) .., rfl⟩
  | opBankRun _ _ => exact ⟨_, execOpBankRun_only (hq := h) .., rfl⟩
  | opSeqOpen _ _ => exact ⟨_, execOpSeqOpen_only (hq := h) .., rfl⟩
  | opSeqFork _ _ => exact ⟨_, execOpSeqFork_only (hq := h) .., rfl⟩
  | opSeqClose _ _ => exact ⟨_, execOpSeqClose_only (hq := h) .., rfl⟩
  | opSeqFree _ _ => exact ⟨_, execOpSeqFree_only (hq := h) .., rfl⟩
  | opSeqTruncate _ _ => exact ⟨_, execOpSeqTruncate_only (hq := h) .., rfl⟩
  | opSeqPreempt _ _ => exact ⟨_, execOpSeqPreempt_only (hq := h) .., rfl⟩
  | opSeqResume _ _ => exact ⟨_, execOpSeqResume_only (hq := h) .., rfl⟩
  | opAttAppend _ _ => exact ⟨_, execOpAttAppend_only (hq := h) .., rfl⟩
  | opAttDecode _ _ => exact ⟨_, execOpAttDecode_only (hq := h) .., rfl⟩
  | opAttPrefill _ _ => exact ⟨_, execOpAttPrefill_only (hq := h) .., rfl⟩
  | opKvWrite _ _ => exact ⟨_, execOpKvWrite_only (hq := h) .., rfl⟩
  | opKvExport _ _ => exact ⟨_, execOpKvExport_only (hq := h) .., rfl⟩
  | orderStart _ => exact ⟨_, execOrderStart_only (hq := h) .., rfl⟩
  | operationComplete _ _ => exact ⟨_, execOperationComplete_only (hq := h) .., rfl⟩
  | completionRecordWrite _ _ => exact ⟨_, execCompletionRecordWrite_only (hq := h) .., rfl⟩
  | moderationTimeout _ _ => exact ⟨_, execModerationTimeout_only (hq := h) .., rfl⟩
  | bankEnd _ => exact ⟨_, execBankEnd_only (hq := h) .., rfl⟩
  | bankLoop _ => exact ⟨_, execBankLoop_only (hq := h) .., rfl⟩
  | bankEndl _ => exact ⟨_, execBankEndl_only (hq := h) .., rfl⟩
  | bankSetp _ => exact ⟨_, execBankSetp_only (hq := h) .., rfl⟩
  | bankClra _ => exact ⟨_, execBankClra_only (hq := h) .., rfl⟩
  | bankLd _ => exact ⟨_, execBankLd_only (hq := h) .., rfl⟩
  | bankSt _ => exact ⟨_, execBankSt_only (hq := h) .., rfl⟩
  | bankLda _ => exact ⟨_, execBankLda_only (hq := h) .., rfl⟩
  | bankSta _ => exact ⟨_, execBankSta_only (hq := h) .., rfl⟩
  | bankMac _ => exact ⟨_, execBankMac_only (hq := h) .., rfl⟩
  | bankAxpy _ => exact ⟨_, execBankAxpy_only (hq := h) .., rfl⟩
  | bankScal _ => exact ⟨_, execBankScal_only (hq := h) .., rfl⟩
  | bankDot _ => exact ⟨_, execBankDot_only (hq := h) .., rfl⟩
  | bankExps _ => exact ⟨_, execBankExps_only (hq := h) .., rfl⟩
  | bankExpw _ => exact ⟨_, execBankExpw_only (hq := h) .., rfl⟩
  | bankRsum _ => exact ⟨_, execBankRsum_only (hq := h) .., rfl⟩
  | bankRmax _ => exact ⟨_, execBankRmax_only (hq := h) .., rfl⟩
  | bankSten _ => exact ⟨_, execBankSten_only (hq := h) .., rfl⟩
  | bankCsel _ => exact ⟨_, execBankCsel_only (hq := h) .., rfl⟩
  | bankRise _ => exact ⟨_, execBankRise_only (hq := h) .., rfl⟩
  | sequenceLoad _ => exact ⟨_, execSequenceLoad_only (hq := h) .., rfl⟩
  | sortieStart _ => exact ⟨_, execSortieStart_only (hq := h) .., rfl⟩
  | sortieEnd _ => exact ⟨_, execSortieEnd_only (hq := h) .., rfl⟩
  | refreshSlot _ _ => exact ⟨_, execRefreshSlot_only (hq := h) .., rfl⟩
  | canaryClear _ => exact ⟨_, execCanaryClear_only (hq := h) .., rfl⟩
  | scrubSlot _ => exact ⟨_, execScrubSlot_only (hq := h) .., rfl⟩
  | scrubLate _ => exact ⟨_, execScrubLate_only (hq := h) .., rfl⟩
  | rationPeriodBoundary => exact ⟨_, execRationPeriodBoundary_only (hq := h) .., rfl⟩
  | nearRead _ _ _ => exact ⟨_, execNearRead_only (hq := h) .., rfl⟩
  | nearWrite _ _ _ => exact ⟨_, execNearWrite_only (hq := h) .., rfl⟩
  | farRead _ _ _ _ => exact ⟨_, execFarRead_only (hq := h) .., rfl⟩
  | farWrite _ _ _ _ => exact ⟨_, execFarWrite_only (hq := h) .., rfl⟩
  | mergeEntryIdle _ _ => exact ⟨_, execMergeEntryIdle_only (hq := h) .., rfl⟩
  | accessPromote _ _ => exact ⟨_, execAccessPromote_only (hq := h) .., rfl⟩
  | sliceFail _ => exact ⟨_, execSliceFail_only (hq := h) .., rfl⟩
  | channelGroupFailing _ _ _ => exact ⟨_, execChannelGroupFailing_only (hq := h) .., rfl⟩
  | bar2Read _ _ _ _ => exact ⟨_, execBar2Read_only (hq := h) .., rfl⟩
  | bar2Write _ _ _ _ => exact ⟨_, execBar2Write_only (hq := h) .., rfl⟩
  | rtNowLowRead _ => exact ⟨_, execRtNowLowRead_only (hq := h) .., rfl⟩
  | rtNowHighRead _ => exact ⟨_, execRtNowHighRead_only (hq := h) .., rfl⟩
  | cvGo _ _ => exact ⟨_, execCvGo_only (hq := h) .., rfl⟩
  | cvReset _ _ => exact ⟨_, execCvReset_only (hq := h) .., rfl⟩
  | cvCheck _ _ => exact ⟨_, execCvCheck_only (hq := h) .., rfl⟩
  | cvCompare _ => exact ⟨_, execCvCompare_only (hq := h) .., rfl⟩
  | cvAbort _ _ => exact ⟨_, execCvAbort_only (hq := h) .., rfl⟩
  | cvFeedB _ _ _ => exact ⟨_, execCvFeedB_only (hq := h) .., rfl⟩
  | cvFeedH _ _ _ => exact ⟨_, execCvFeedH_only (hq := h) .., rfl⟩
  | cvFeedW _ _ _ => exact ⟨_, execCvFeedW_only (hq := h) .., rfl⟩
  | cvScanEnd _ => exact ⟨_, execCvScanEnd_only (hq := h) .., rfl⟩
  | fastInterruptDelivery _ _ => exact ⟨_, execFastInterruptDelivery_only (hq := h) .., rfl⟩
  | normalInterruptDelivery _ _ => exact ⟨_, execNormalInterruptDelivery_only (hq := h) .., rfl⟩
  | lanternWake _ _ => exact ⟨_, execLanternWake_only (hq := h) .., rfl⟩
  | sleepTimer _ _ => exact ⟨_, execSleepTimer_only (hq := h) .., rfl⟩
  | heartbeat _ => exact ⟨_, execHeartbeat_only (hq := h) .., rfl⟩
  | wdogWarn _ => exact ⟨_, execWdogWarn_only (hq := h) .., rfl⟩
  | watchdogReset _ => exact ⟨_, execWatchdogReset_only (hq := h) .., rfl⟩
  | watchdogRestart _ _ _ => exact ⟨_, execWatchdogRestart_only (hq := h) .., rfl⟩
  | sensorSample _ => exact ⟨_, execSensorSample_only (hq := h) .., rfl⟩
  | sensorDisagree _ _ _ => exact ⟨_, execSensorDisagree_only (hq := h) .., rfl⟩
  | sensorDisagreeClear => exact ⟨_, execSensorDisagreeClear_only (hq := h) .., rfl⟩
  | throttleStep => exact ⟨_, execThrottleStep_only (hq := h) .., rfl⟩
  | estimatorUpdate _ => exact ⟨_, execEstimatorUpdate_only (hq := h) .., rfl⟩
  | shutdownRailDrop => exact ⟨_, execShutdownRailDrop_only (hq := h) .., rfl⟩
  | shutdownPortDrop => exact ⟨_, execShutdownPortDrop_only (hq := h) .., rfl⟩
  | trayPoll _ _ => exact ⟨_, execTrayPoll_only (hq := h) .., rfl⟩
  | trayPollRetry _ _ => exact ⟨_, execTrayPollRetry_only (hq := h) .., rfl⟩
  | calorimetricCheck => exact ⟨_, execCalorimetricCheck_only (hq := h) .., rfl⟩
  | swingSample _ => exact ⟨_, execSwingSample_only (hq := h) .., rfl⟩
  | wearPersist => exact ⟨_, execWearPersist_only (hq := h) .., rfl⟩
  | ppsEdge _ _ => exact ⟨_, execPpsEdge_only (hq := h) .., rfl⟩
  | trefLoss => exact ⟨_, execTrefLoss_only (hq := h) .., rfl⟩
  | beaconEmit => exact ⟨_, execBeaconEmit_only (hq := h) .., rfl⟩
  | beacon _ _ _ => exact ⟨_, execBeacon_only (hq := h) .., rfl⟩
  | beaconLoss => exact ⟨_, execBeaconLoss_only (hq := h) .., rfl⟩
  | beaconRootResume => exact ⟨_, execBeaconRootResume_only (hq := h) .., rfl⟩
  | powerFrameBoundary _ => exact ⟨_, execPowerFrameBoundary_only (hq := h) .., rfl⟩
  | silmanPresenceChange _ _ => exact ⟨_, execSilmanPresenceChange_only (hq := h) .., rfl⟩
  | partnerDetect _ _ => exact ⟨_, execPartnerDetect_only (hq := h) .., rfl⟩
  | trainingComplete _ _ _ => exact ⟨_, execTrainingComplete_only (hq := h) .., rfl⟩
  | trainingOverrun _ => exact ⟨_, execTrainingOverrun_only (hq := h) .., rfl⟩
  | laneFailing _ _ => exact ⟨_, execLaneFailing_only (hq := h) .., rfl⟩
  | fcAckTimer _ => exact ⟨_, execFcAckTimer_only (hq := h) .., rfl⟩
  | flitIdle _ _ => exact ⟨_, execFlitIdle_only (hq := h) .., rfl⟩
  | fcAcknowledge _ _ _ _ => exact ⟨_, execFcAcknowledge_only (hq := h) .., rfl⟩
  | fcReplayRequest _ _ _ _ => exact ⟨_, execFcReplayRequest_only (hq := h) .., rfl⟩
  | kxHello _ _ _ => exact ⟨_, execKxHello_only (hq := h) .., rfl⟩
  | kxKemKey _ _ _ => exact ⟨_, execKxKemKey_only (hq := h) .., rfl⟩
  | kxKemCt _ _ _ => exact ⟨_, execKxKemCt_only (hq := h) .., rfl⟩
  | kxFinish _ _ => exact ⟨_, execKxFinish_only (hq := h) .., rfl⟩
  | kxAbort _ r => exact ⟨_, execKxAbort_only (_reason := r) (hq := h) .., rfl⟩
  | keyExchangeTimeout _ => exact ⟨_, execKeyExchangeTimeout_only (hq := h) .., rfl⟩
  | keyExchangeRetry _ => exact ⟨_, execKeyExchangeRetry_only (hq := h) .., rfl⟩
  | rekey _ => exact ⟨_, execRekey_only (hq := h) .., rfl⟩
  | oldKeyExpiry _ => exact ⟨_, execOldKeyExpiry_only (hq := h) .., rfl⟩
  | enumToken _ _ _ => exact ⟨_, execEnumToken_only (hq := h) .., rfl⟩
  | enumReturn _ _ _ => exact ⟨_, execEnumReturn_only (hq := h) .., rfl⟩
  | enumCross _ _ _ => exact ⟨_, execEnumCross_only (hq := h) .., rfl⟩
  | enumBoundary _ _ _ => exact ⟨_, execEnumBoundary_only (hq := h) .., rfl⟩
  | enumTimeout _ => exact ⟨_, execEnumTimeout_only (hq := h) .., rfl⟩
  | enumCommit _ _ _ => exact ⟨_, execEnumCommit_only (hq := h) .., rfl⟩
  | commitTakeEffect => exact ⟨_, execCommitTakeEffect_only (hq := h) .., rfl⟩
  | commitFloodRepeat => exact ⟨_, execCommitFloodRepeat_only (hq := h) .., rfl⟩
  | linkEnumerateComplete => exact ⟨_, execLinkEnumerateComplete_only (hq := h) .., rfl⟩
  | pendingIdLapse => exact ⟨_, execPendingIdLapse_only (hq := h) .., rfl⟩
  | enumJoin _ _ => exact ⟨_, execEnumJoin_only (hq := h) .., rfl⟩
  | delayExchangeStart _ _ => exact ⟨_, execDelayExchangeStart_only (hq := h) .., rfl⟩
  | delayReq _ _ _ _ _ => exact ⟨_, execDelayReq_only (hq := h) .., rfl⟩
  | delayResp _ _ _ _ => exact ⟨_, execDelayResp_only (hq := h) .., rfl⟩
  | remoteWrite _ _ _ => exact ⟨_, execRemoteWrite_only (hq := h) .., rfl⟩
  | remoteRead _ _ _ => exact ⟨_, execRemoteRead_only (hq := h) .., rfl⟩
  | remoteReadData _ _ _ => exact ⟨_, execRemoteReadData_only (hq := h) .., rfl⟩
  | remoteWriteAck _ _ _ => exact ⟨_, execRemoteWriteAck_only (hq := h) .., rfl⟩
  | remoteRefuse _ _ _ => exact ⟨_, execRemoteRefuse_only (hq := h) .., rfl⟩
  | mgmtSlot _ _ _ _ => exact ⟨_, execMgmtSlot_only (hq := h) .., rfl⟩
  | mgmtCompletion _ _ _ => exact ⟨_, execMgmtCompletion_only (hq := h) .., rfl⟩
  | mgmtOwnershipNotice _ _ _ => exact ⟨_, execMgmtOwnershipNotice_only (hq := h) .., rfl⟩
  | seamFrame _ _ _ _ => exact ⟨_, execSeamFrame_only (hq := h) .., rfl⟩
  | seamRetrainRequest _ => exact ⟨_, execSeamRetrainRequest_only (hq := h) .., rfl⟩
  | seamWidthAdvert _ _ _ => exact ⟨_, execSeamWidthAdvert_only (hq := h) .., rfl⟩
  | seamReceiveState _ _ => exact ⟨_, execSeamReceiveState_only (hq := h) .., rfl⟩
  | seamRetrainComplete _ _ => exact ⟨_, execSeamRetrainComplete_only (hq := h) .., rfl⟩
  | seamRackTimeWord _ => exact ⟨_, execSeamRackTimeWord_only (hq := h) .., rfl⟩
  | seamLaneFail _ _ _ => exact ⟨_, execSeamLaneFail_only (hq := h) .., rfl⟩
  | seamDiscoveryRecord _ => exact ⟨_, execSeamDiscoveryRecord_only (hq := h) .., rfl⟩
  | seamNoPeer => exact ⟨_, execSeamNoPeer_only (hq := h) .., rfl⟩
  | halfLossDetect => exact ⟨_, execHalfLossDetect_only (hq := h) .., rfl⟩
  | hostPortReset _ _ => exact ⟨_, execHostPortReset_only (hq := h) .., rfl⟩
  | hostLinkTrain _ => exact ⟨_, execHostLinkTrain_only (hq := h) .., rfl⟩
  | tdiError _ => exact ⟨_, execTdiError_only (hq := h) .., rfl⟩
  | spdmGetVersion _ => exact ⟨_, execSpdmGetVersion_only (hq := h) .., rfl⟩
  | spdmGetCapabilities _ => exact ⟨_, execSpdmGetCapabilities_only (hq := h) .., rfl⟩
  | spdmNegotiateAlgorithms _ _ => exact ⟨_, execSpdmNegotiateAlgorithms_only (hq := h) .., rfl⟩
  | spdmGetDigests _ => exact ⟨_, execSpdmGetDigests_only (hq := h) .., rfl⟩
  | spdmGetCertificate _ _ _ _ => exact ⟨_, execSpdmGetCertificate_only (hq := h) .., rfl⟩
  | spdmChallenge _ _ => exact ⟨_, execSpdmChallenge_only (hq := h) .., rfl⟩
  | spdmGetMeasurements _ _ _ => exact ⟨_, execSpdmGetMeasurements_only (hq := h) .., rfl⟩
  | spdmKeyExchange _ _ => exact ⟨_, execSpdmKeyExchange_only (hq := h) .., rfl⟩
  | spdmFinish _ _ _ => exact ⟨_, execSpdmFinish_only (hq := h) .., rfl⟩
  | spdmKeyUpdate _ _ => exact ⟨_, execSpdmKeyUpdate_only (hq := h) .., rfl⟩
  | spdmHeartbeat _ _ => exact ⟨_, execSpdmHeartbeat_only (hq := h) .., rfl⟩
  | spdmEndSession _ _ => exact ⟨_, execSpdmEndSession_only (hq := h) .., rfl⟩
  | spdmVendorDefined _ _ _ => exact ⟨_, execSpdmVendorDefined_only (hq := h) .., rfl⟩
  | spdmSessionTimeout _ _ => exact ⟨_, execSpdmSessionTimeout_only (hq := h) .., rfl⟩
  | farTierRead _ _ => exact ⟨_, execFarTierRead_only (hq := h) .., rfl⟩
  | farTierWrite _ _ => exact ⟨_, execFarTierWrite_only (hq := h) .., rfl⟩
  | farTierInitComplete _ => exact ⟨_, execFarTierInitComplete_only (hq := h) .., rfl⟩
  | farTierLinkLoss => exact ⟨_, execFarTierLinkLoss_only (hq := h) .., rfl⟩
  | vinApply _ => exact ⟨_, execVinApply_only (hq := h) .., rfl⟩
  | mateSnsChange _ => exact ⟨_, execMateSnsChange_only (hq := h) .., rfl⟩
  | overvoltage _ => exact ⟨_, execOvervoltage_only (hq := h) .., rfl⟩
  | powerFail => exact ⟨_, execPowerFail_only (hq := h) .., rfl⟩
  | retentionHandoff => exact ⟨_, execRetentionHandoff_only (hq := h) .., rfl⟩
  | railFault _ => exact ⟨_, execRailFault_only (hq := h) .., rfl⟩
  | modResetNAssert => exact ⟨_, execModResetNAssert_only (hq := h) .., rfl⟩
  | modResetNRelease => exact ⟨_, execModResetNRelease_only (hq := h) .., rfl⟩
  | pitchStageComplete _ => exact ⟨_, execPitchStageComplete_only (hq := h) .., rfl⟩
  | eventRecordWrite => exact ⟨_, execEventRecordWrite_only (hq := h) .., rfl⟩
  | eventWindowClose _ _ => exact ⟨_, execEventWindowClose_only (hq := h) .., rfl⟩
  | lsVector0Deferred _ => exact ⟨_, execLsVector0Deferred_only (hq := h) .., rfl⟩
  | i3cSlotWrite _ _ _ => exact ⟨_, execI3cSlotWrite_only (hq := h) .., rfl⟩
  | i3cSpaceRead _ _ => exact ⟨_, execI3cSpaceRead_only (hq := h) .., rfl⟩
  | i3cRecordRead => exact ⟨_, execI3cRecordRead_only (hq := h) .., rfl⟩
  | i3cAttestNonce _ => exact ⟨_, execI3cAttestNonce_only (hq := h) .., rfl⟩
  | i3cPrivateRead _ => exact ⟨_, execI3cPrivateRead_only (hq := h) .., rfl⟩
  | i3cEntdaa _ => exact ⟨_, execI3cEntdaa_only (hq := h) .., rfl⟩
  | i3cRstdaa => exact ⟨_, execI3cRstdaa_only (hq := h) .., rfl⟩
  | i3cSetnewda _ => exact ⟨_, execI3cSetnewda_only (hq := h) .., rfl⟩
  | i3cGetpid => exact ⟨_, execI3cGetpid_only (hq := h) .., rfl⟩
  | i3cGetbcr => exact ⟨_, execI3cGetbcr_only (hq := h) .., rfl⟩
  | i3cGetdcr => exact ⟨_, execI3cGetdcr_only (hq := h) .., rfl⟩
  | i3cGetstatus => exact ⟨_, execI3cGetstatus_only (hq := h) .., rfl⟩
  | i3cEnec _ => exact ⟨_, execI3cEnec_only (hq := h) .., rfl⟩
  | i3cDisec _ => exact ⟨_, execI3cDisec_only (hq := h) .., rfl⟩
  | i3cGetmwl => exact ⟨_, execI3cGetmwl_only (hq := h) .., rfl⟩
  | i3cSetmwl _ => exact ⟨_, execI3cSetmwl_only (hq := h) .., rfl⟩
  | i3cGetmrl => exact ⟨_, execI3cGetmrl_only (hq := h) .., rfl⟩
  | i3cSetmrl _ => exact ⟨_, execI3cSetmrl_only (hq := h) .., rfl⟩
  | hotJoinRequest => exact ⟨_, execHotJoinRequest_only (hq := h) .., rfl⟩
  | ibiSend _ => exact ⟨_, execIbiSend_only (hq := h) .., rfl⟩
  | ibiRetry _ => exact ⟨_, execIbiRetry_only (hq := h) .., rfl⟩
  | recordsWaitingReminder => exact ⟨_, execRecordsWaitingReminder_only (hq := h) .., rfl⟩
  | intakeBacklog => exact ⟨_, execIntakeBacklog_only (hq := h) .., rfl⟩
  | commandCodeNotDefined _ _ => exact ⟨_, execCommandCodeNotDefined_only (hq := h) .., rfl⟩
  | uncorrectableCodeword _ _ => exact ⟨_, execUncorrectableCodeword_only (hq := h) .., rfl⟩
  | reservedFlitType _ _ _ _ => exact ⟨_, execReservedFlitType_only (hq := h) .., rfl⟩
  | seamSidebandFail _ => exact ⟨_, execSeamSidebandFail_only (hq := h) .., rfl⟩
  | seamLogicReset _ => exact ⟨_, execSeamLogicReset_only (hq := h) .., rfl⟩
  | channelPauseEnd _ => exact ⟨_, execChannelPauseEnd_only (hq := h) .., rfl⟩
  | farTierRetrain => exact ⟨_, execFarTierRetrain_only (hq := h) .., rfl⟩
  | coldPitchRailsReturn => exact ⟨_, execColdPitchRailsReturn_only (hq := h) .., rfl⟩
  | resetPitchStart => exact ⟨_, execResetPitchStart_only (hq := h) .., rfl⟩
  | entropyHealthTest _ => exact ⟨_, execEntropyHealthTest_only (hq := h) .., rfl⟩
  | retentionExpiry => exact ⟨_, execRetentionExpiry_only (hq := h) .., rfl⟩
  | i3cWriteDiscard => exact ⟨_, execI3cWriteDiscard_only (hq := h) .., rfl⟩

/-- Settles O3: the parts within which a command stays spare the time base and the queue. -/
theorem commandsKeepTimeAndQueue : Obligations.CommandsKeepTimeAndQueue := by
  intro i s t h
  obtain ⟨L, hOnly, hspares⟩ := exec_only h
  obtain ⟨hnow, hpending, -⟩ := spares_iff.mp hspares
  exact ⟨hOnly.same .now hnow, hOnly.same .pending hpending⟩

/-! ## What keeps the ownership invariant -/

theorem State.ownOk_iff_of_own {s t : State} (hv : t.own.valid = s.own.valid) (hp : t.own.phase = s.own.phase) :
    t.ownOk ↔ s.ownOk := by
  rw [ownOk, ownOk, hv, hp]

/-- What leaves the ownership alone keeps the invariant. -/
theorem Only.ownOk {L : List Part} {s t : State} (h : Only L s t) (hL : Part.own ∉ L) (hs : s.ownOk) : t.ownOk := by
  have hown : t.own = _ := h.same .own hL
  exact (State.ownOk_iff_of_own (by rw [hown]) (by rw [hown])).mpr hs

theorem exec_ownOk_of_not_movesOwnership {i : Instr} {s t : State} (hi : movesOwnership i = false) (h : exec i s = .next t)
    (hs : s.ownOk) : t.ownOk := by
  obtain ⟨L, hOnly, hspares⟩ := exec_only h
  obtain ⟨-, -, hown⟩ := spares_iff.mp hspares
  exact hOnly.ownOk (hown.resolve_left (by simp [hi])) hs

theorem State.tick_ownOk {s : State} (hs : s.ownOk) : s.tick.ownOk :=
  (s.advance.openWindows.unpark_only).ownOk (by decide)
    ((s.advance.openWindows_only).ownOk (by decide) (s.advance_only.ownOk (by decide) hs))


end Sys2Proof.Machine
end

section
/-! PROOF. The ownership block (08_warden_mailboxes.md R225 to R228): what each of its operations leaves in it, and that each
keeps OWN_VALID set exactly in the phases owned and handover offered. -/

namespace Sys2Proof.Machine

open Sys2Proof

/-! ## The ownership block after each of its operations -/

/-- What leaves the ownership and its claims alone changes no more of the block than the per-controller fields. -/
theorem Only.own_ports {L : List Part} {s t : State} (h : Only L s t) (hown : Part.own ∉ L) (hclaims : Part.claims ∉ L) :
    t.own = { s.own with ports := t.own.ports } := by
  have ho : t.own = _ := h.same .own hown
  have hc : t.own.claims = _ := h.same .claims hclaims
  rw [hc] at ho
  exact ho

theorem Only.own_eq {L : List Part} {s t : State} (h : Only L s t) (hown : Part.own ∉ L) (hclaims : Part.claims ∉ L)
    (hports : Part.ownPorts ∉ L) : t.own = s.own := by
  have hp : t.own.ports = s.own.ports := h.same .ownPorts hports
  rw [h.own_ports hown hclaims, hp]

@[simp] theorem State.notifyOwner_own (s : State) : s.notifyOwner.own = s.own :=
  s.notifyOwner_only.own_eq (by decide) (by decide) (by decide)

@[simp] theorem State.drainRanges_own (s : State) : s.drainRanges.own = s.own :=
  s.drainRanges_only.own_eq (by decide) (by decide) (by decide)

/-- Who loses the device leaves it quiet, with no owner and one more epoch (R227). -/
theorem State.loseOwner_own (s : State) :
    s.loseOwner.own = { s.own with
      phase := .quiet, valid := false, id := 0, nonce := 0, epoch := s.own.epoch + 1, quietEnd := s.now + quietNs
      ports := s.loseOwner.own.ports } := by
  simp only [loseOwner, drainRanges_own, notifyOwner_own]
  rfl

/-- Who gains the device owns it for a lease, in one more epoch, and no claim waits (R225, R228). -/
theorem State.gainOwner_own (s : State) (c : Fin 4) (nonce : BitVec 64) :
    (s.gainOwner c nonce).own = { s.own with
      phase := .owned, valid := true, id := c, nonce := nonce, epoch := s.own.epoch + 1, leaseEnd := s.now + leaseNs
      claims := [], ports := (s.gainOwner c nonce).own.ports } := by
  simp only [gainOwner, drainRanges_own, notifyOwner_own]
  split <;> rfl

/-! ## The ownership operations keep the invariant -/

theorem State.loseOwner_ownOk (s : State) : s.loseOwner.ownOk := by
  rw [ownOk, loseOwner_own]
  simp

theorem State.gainOwner_ownOk (s : State) (c : Fin 4) (nonce : BitVec 64) : (s.gainOwner c nonce).ownOk := by
  rw [ownOk, gainOwner_own]
  simp

section
variable {s : State} (hs : s.ownOk)
include hs

theorem State.setOwnPort_ownOk (c : Nat) (f : OwnPort → OwnPort) : (s.setOwnPort c f).ownOk :=
  (s.setOwnPort_only c f).ownOk (by decide) hs

theorem State.valid_eq_false_of_phase (h : s.own.phase ≠ .owned) (h' : s.own.phase ≠ .offer) : s.own.valid = false :=
  Bool.eq_false_iff.mpr fun hv => (hs.mp hv).elim h h'

/-- An event acts where its condition holds and is nothing elsewhere. -/
theorem State.ite_ownOk {c : Prop} [Decidable c] {u : State} (hu : c → u.ownOk) : (if c then u else s).ownOk := by
  split
  · next hc => exact hu hc
  · exact hs

/-- A phase without an owner follows a phase without an owner. -/
theorem State.claim_ownOk (c : Fin 4) (prio : BitVec 8) (nonce : BitVec 64) (tags : List Nat) :
    (s.claim c prio nonce tags).ownOk := by
  unfold claim
  cases hp : s.own.phase with
  | opened =>
    refine State.setOwnPort_ownOk ?_ _ _
    simp [ownOk, valid_eq_false_of_phase hs (by simp [hp]) (by simp [hp])]
  | window => exact (State.ownOk_iff_of_own rfl rfl).mpr hs
  | owned => exact State.setOwnPort_ownOk hs _ _
  | offer => exact State.setOwnPort_ownOk hs _ _
  | quiet => exact State.setOwnPort_ownOk hs _ _

theorem State.deny_ownOk (c : Nat) : (s.deny c).ownOk := State.setOwnPort_ownOk hs _ _

theorem State.renew_ownOk (c : Nat) : (s.renew c).ownOk := by
  unfold renew
  split
  · exact hs
  · split
    · exact State.setOwnPort_ownOk hs _ _
    · exact State.deny_ownOk hs c

/-- An offer is made by an owner only. -/
theorem State.handover_ownOk (c : Nat) : (s.handover c).ownOk := by
  unfold handover
  split
  · exact State.deny_ownOk hs c
  · next howns =>
    split
    · exact hs
    · split
      · exact State.setOwnPort_ownOk hs _ _
      · have hv : s.own.valid = true := by simp_all [owns]
        exact iff_of_true hv (.inr rfl)

theorem State.accept_ownOk (c : Fin 4) : (s.accept c).ownOk := by
  unfold accept
  split
  · exact State.gainOwner_ownOk ..
  · exact State.setOwnPort_ownOk hs _ _

theorem State.release_ownOk (c : Nat) : (s.release c).ownOk := by
  unfold release
  split
  · exact State.loseOwner_ownOk s
  · exact State.deny_ownOk hs c

theorem State.ownActions_ownOk (c : Fin 4) (w : Nat) : (s.ownActions c w).ownOk := by
  have h0 := State.ite_ownOk hs (c := bit w 0) fun _ => State.claim_ownOk hs c (s.ownPort c).claimPrio (s.ownPort c).claimNonce []
  have h1 := State.ite_ownOk h0 (c := bit w 1) fun _ => State.renew_ownOk h0 c
  have h2 := State.ite_ownOk h1 (c := bit w 2) fun _ => State.handover_ownOk h1 c
  have h3 := State.ite_ownOk h2 (c := bit w 3) fun _ => State.accept_ownOk h2 c
  exact State.ite_ownOk h3 fun _ => State.release_ownOk h3 c

theorem State.ownFields_ownOk (c : Nat) (w : Nat) : (s.ownFields c w).ownOk := by
  unfold ownFields
  split
  · exact (State.ownOk_iff_of_own rfl rfl).mpr hs
  · split
    · exact State.setOwnPort_ownOk hs c _
    · exact State.deny_ownOk (State.setOwnPort_ownOk hs c _) c

theorem State.ownWrite_ownOk (c : Fin 4) (off w : Nat) : (s.ownWrite c off w).ownOk := by
  unfold ownWrite
  split
  · exact State.setOwnPort_ownOk hs _ _
  · exact State.setOwnPort_ownOk hs _ _
  · exact State.ownFields_ownOk hs c w
  · exact State.ownActions_ownOk hs c w
  · exact State.setOwnPort_ownOk hs _ _
  · exact hs

theorem State.ownerWrite_ownOk {go : State} (hgo : go.ownOk) (c : Nat) : (s.ownerWrite c go).ownOk := by
  unfold ownerWrite
  split
  · exact hgo
  · exact State.deny_ownOk hs c

/-- Of the register blocks only the ownership block moves the ownership. -/
theorem State.wordWrite_ownOk (p : Fin 2) (off w : Nat) : (s.wordWrite p off w).ownOk := by
  unfold wordWrite
  dsimp only
  split
  · exact State.ownWrite_ownOk hs _ _ _
  · split
    · exact (State.ringsWrite_only ..).ownOk (by decide) hs
    · split
      · split
        · exact State.ownerWrite_ownOk hs ((State.rationsWrite_only ..).ownOk (by decide) hs) _
        · exact hs
      · split
        · split
          · exact State.ownerWrite_ownOk hs ((State.cvWord_only ..).ownOk (by decide) hs) _
          · exact hs
        · split
          · exact (State.msixWrite_only ..).ownOk (by decide) hs
          · exact hs

theorem State.serve_ownOk {body : Adm → State → State} (hbody : ∀ a u, u.ownOk → (body a u).ownOk) (code : Nat) (c : Fin 4)
    (k : Fin 1024) : (s.serve code c k body).ownOk := by
  unfold serve
  split
  · exact hs
  · next e _ =>
    have ht : (s.takeSlot e).ownOk := (s.takeSlot_only e).ownOk (by decide) hs
    dsimp only
    split
    · exact (State.endSlot_only ..).ownOk (by decide) ht
    · exact (State.endSlot_only ..).ownOk (by decide) ht
    · exact hbody _ _ ((State.admitCmd_only ..).ownOk (by decide) ht)

theorem Adm.finish_ownOk (a : Adm) (e : Ending) : (a.finish s e).ownOk := (a.finish_only s e).ownOk (by decide) hs

theorem Adm.done_ownOk (a : Adm) (result detail : Nat) : (a.done s result detail).ownOk :=
  (a.done_only s result detail).ownOk (by decide) hs

theorem Adm.checked_ownOk (a : Adm) (l : List Check) {go : State → State} (hgo : ∀ u, u.ownOk → (go u).ownOk) :
    (a.checked s l go).ownOk := by
  unfold checked
  split
  · exact (State.endCmd_only ..).ownOk (by decide) hs
  · exact hgo s hs

theorem State.settleClaims_ownOk (l : List Claim) (r : Claim → ClaimResult) :
    (l.foldl (fun (t : State) c => t.settleClaim c (r c)) s).ownOk :=
  (Only.foldl l (fun u c => u.settleClaim_only c (r c)) Only.refl).ownOk (by decide) hs

end

/-! ## A pitch leaves the device without an owner -/

theorem State.kept_ownOk (s : State) (cold : Bool) : (s.kept cold).ownOk := by
  simp [ownOk, kept]

theorem State.startWarm_ownOk (s : State) (full both : Bool) : (s.startWarm full both).ownOk :=
  (State.enterStage2_only _).ownOk (by decide) ((State.setRails_only ..).ownOk (by decide)
    ((State.setLantern_only ..).ownOk (by decide) (s.persistWear.kept_ownOk false)))

theorem State.startCold_ownOk (s : State) (full both : Bool) : (s.startCold full both).ownOk :=
  (State.toStage_only ..).ownOk (by decide) ((State.setRails_only ..).ownOk (by decide)
    ((State.setLantern_only ..).ownOk (by decide) (s.kept_ownOk true)))

theorem State.dropForCold_ownOk (s : State) (full : Bool) : (s.dropForCold full).ownOk :=
  (State.toStage_only ..).ownOk (by decide) ((State.setRails_only ..).ownOk (by decide)
    ((State.setLantern_only ..).ownOk (by decide) (s.persistWear.kept_ownOk true)))

theorem settle_ownOk {t : State} (s : State) (ht : t.ownOk) : (settle s t).ownOk := (settle_only s t).ownOk (by decide) ht

end Sys2Proof.Machine
end

section
/-! PROOF. Every command and every step keeps the ownership invariant (08_warden_mailboxes.md R225, R227, R228). -/

namespace Sys2Proof.Machine

open Sys2Proof

/-! ## The commands that move the ownership -/

section
variable {s t : State} (hs : s.ownOk)
include hs

theorem execOwnClaim_ownOk {p : Fin 2} (h : execOwnClaim p s = .next t) : t.ownOk := by
  injection h with h
  exact h ▸ State.ite_ownOk hs fun _ => State.claim_ownOk hs _ _ _ _

theorem execOwnRenew_ownOk {p : Fin 2} (h : execOwnRenew p s = .next t) : t.ownOk := by
  injection h with h
  exact h ▸ State.ite_ownOk hs fun _ => State.renew_ownOk hs _

theorem execOwnHandover_ownOk {p : Fin 2} (h : execOwnHandover p s = .next t) : t.ownOk := by
  injection h with h
  exact h ▸ State.ite_ownOk hs fun _ => State.handover_ownOk hs _

theorem execOwnAccept_ownOk {p : Fin 2} (h : execOwnAccept p s = .next t) : t.ownOk := by
  injection h with h
  exact h ▸ State.ite_ownOk hs fun _ => State.accept_ownOk hs _

theorem execOwnRelease_ownOk {p : Fin 2} (h : execOwnRelease p s = .next t) : t.ownOk := by
  injection h with h
  exact h ▸ State.ite_ownOk hs fun _ => State.release_ownOk hs _

theorem execLeaseExpiry_ownOk (h : execLeaseExpiry s = .next t) : t.ownOk := by
  injection h with h
  exact h ▸ State.ite_ownOk hs fun _ => s.loseOwner_ownOk

theorem execClaimWindowEnd_ownOk (h : execClaimWindowEnd s = .next t) : t.ownOk := by
  injection h with h
  subst h
  refine State.ite_ownOk hs fun ⟨hphase, _⟩ => ?_
  split
  · exact State.settleClaims_ownOk (s.gainOwner_ownOk _ _) _ _
  · have hv := State.valid_eq_false_of_phase hs (by simp [hphase]) (by simp [hphase])
    exact State.settleClaims_ownOk (by simp [State.ownOk, hv]) _ _

theorem execQuietEnd_ownOk (h : execQuietEnd s = .next t) : t.ownOk := by
  injection h with h
  subst h
  refine State.ite_ownOk hs fun ⟨hphase, _⟩ => ?_
  have hv := State.valid_eq_false_of_phase hs (by simp [hphase]) (by simp [hphase])
  simp [State.ownOk, hv]

theorem execHandoverLapse_ownOk (h : execHandoverLapse s = .next t) : t.ownOk := by
  injection h with h
  subst h
  refine State.ite_ownOk hs fun ⟨hphase, _⟩ => ?_
  have hv : s.own.valid = true := hs.mpr (.inr hphase)
  exact iff_of_true hv (.inl rfl)

theorem execCtlClaim_ownOk {c : Fin 4} {k : Fin 1024} (h : execCtlClaim c k s = .next t) : t.ownOk := by
  injection h with h
  subst h
  refine State.serve_ownOk hs (fun a u hu => Adm.checked_ownOk hu a _ fun v hv => ?_) _ c k
  have hclaim := State.claim_ownOk (State.setOwnPort_ownOk hv a.ctrl (fun p => { p with
    claimPrio := BitVec.ofNat 8 (field a.b 24 1), claimNonce := BitVec.ofNat 64 (field a.b 32 8) })) a.ctrl
    (BitVec.ofNat 8 (field a.b 24 1)) (BitVec.ofNat 64 (field a.b 32 8)) [a.tag]
  dsimp only
  split
  · exact hclaim
  · exact Adm.done_ownOk hclaim a 4 0

theorem execCtlRenew_ownOk {c : Fin 4} {k : Fin 1024} (h : execCtlRenew c k s = .next t) : t.ownOk := by
  injection h with h
  subst h
  refine State.serve_ownOk hs (fun a u hu => Adm.checked_ownOk hu a _ fun v hv => ?_) _ c k
  split
  · exact Adm.done_ownOk (State.renew_ownOk hv _) a 0 0
  · exact Adm.finish_ownOk (State.renew_ownOk hv _) a _

theorem execCtlHandover_ownOk {c : Fin 4} {k : Fin 1024} (h : execCtlHandover c k s = .next t) : t.ownOk := by
  injection h with h
  subst h
  refine State.serve_ownOk hs (fun a u hu => Adm.checked_ownOk hu a _ fun v hv => ?_) _ c k
  split
  · exact Adm.finish_ownOk (State.deny_ownOk hv _) a _
  · have hoffer := State.handover_ownOk (s := { v with own := { v.own with successor := Fin.ofNat 4 (field a.b 24 1) } })
      ((State.ownOk_iff_of_own rfl rfl).mpr hv) a.ctrl
    dsimp only
    split
    · exact Adm.done_ownOk hoffer a 0 0
    · exact Adm.finish_ownOk hoffer a _

theorem execCtlAccept_ownOk {c : Fin 4} {k : Fin 1024} (h : execCtlAccept c k s = .next t) : t.ownOk := by
  injection h with h
  subst h
  refine State.serve_ownOk hs (fun a u hu => Adm.checked_ownOk hu a _ fun v hv => ?_) _ c k
  split
  · exact Adm.done_ownOk (State.accept_ownOk hv _) a 0 0
  · exact Adm.finish_ownOk (State.accept_ownOk hv _) a _

theorem execCtlRelease_ownOk {c : Fin 4} {k : Fin 1024} (h : execCtlRelease c k s = .next t) : t.ownOk := by
  injection h with h
  subst h
  refine State.serve_ownOk hs (fun a u hu => Adm.checked_ownOk hu a _ fun v hv => ?_) _ c k
  split
  · exact Adm.done_ownOk (State.release_ownOk hv _) a 0 0
  · exact Adm.finish_ownOk (State.release_ownOk hv _) a _

/-- An 8-byte write is two of a word each. -/
theorem execRegisterWrite_ownOk {p : Fin 2} {off width : Nat} {v : BitVec 64}
    (h : execRegisterWrite p off width v s = .next t) : t.ownOk := by
  injection h with h
  subst h
  split
  · exact hs
  · split
    · exact settle_ownOk s ((State.slotWindow_only ..).ownOk (by decide) hs)
    · split
      · exact settle_ownOk s (State.wordWrite_ownOk hs _ _ _)
      · exact State.ite_ownOk hs fun _ => settle_ownOk s (State.wordWrite_ownOk (State.wordWrite_ownOk hs _ _ _) _ _ _)

theorem execResetPitchStart_ownOk (h : execResetPitchStart s = .next t) : t.ownOk := by
  injection h with h
  subst h
  split
  · next j _ =>
    refine State.ite_ownOk hs fun _ => settle_ownOk s ?_
    split
    · exact s.startWarm_ownOk _ _
    · exact s.dropForCold_ownOk _
  · exact hs

theorem execThermalClearPitchStart_ownOk (h : execThermalClearPitchStart s = .next t) : t.ownOk := by
  injection h with h
  subst h
  split
  · exact State.ite_ownOk hs fun _ => settle_ownOk s (s.dropForCold_ownOk _)
  · exact hs

theorem execColdPitchRailsReturn_ownOk (h : execColdPitchRailsReturn s = .next t) : t.ownOk := by
  injection h with h
  subst h
  split
  · exact State.ite_ownOk hs fun _ => settle_ownOk s (s.startCold_ownOk _ _)
  · exact hs

theorem execModResetNRelease_ownOk (h : execModResetNRelease s = .next t) : t.ownOk := by
  injection h with h
  subst h
  split
  · exact hs
  · refine settle_ownOk s ?_
    split
    · exact (State.gate_only _).ownOk (by decide) hs
    · split
      · exact hs
      · split
        · exact State.dropForCold_ownOk _ _
        · exact State.startWarm_ownOk _ _ _

theorem execVinApply_ownOk {v : Nat} (h : execVinApply v s = .next t) : t.ownOk := by
  injection h with h
  subst h
  split
  · exact settle_ownOk s (State.startCold_ownOk _ _ _)
  · exact hs

theorem execPowerFail_ownOk (h : execPowerFail s = .next t) : t.ownOk := by
  injection h with h
  subst h
  exact State.ite_ownOk hs fun _ => (State.ownOk_iff_of_own rfl rfl).mpr (s.kept_ownOk true)

/-- A command that moves the ownership does so by one of the ownership operations or by a pitch. -/
theorem exec_ownOk {i : Instr} (h : exec i s = .next t) : t.ownOk := by
  cases hi : movesOwnership i with
  | false => exact exec_ownOk_of_not_movesOwnership hi h hs
  | true =>
    cases i
    case ownClaim => exact execOwnClaim_ownOk hs h
    case ownRenew => exact execOwnRenew_ownOk hs h
    case ownHandover => exact execOwnHandover_ownOk hs h
    case ownAccept => exact execOwnAccept_ownOk hs h
    case ownRelease => exact execOwnRelease_ownOk hs h
    case claimWindowEnd => exact execClaimWindowEnd_ownOk hs h
    case leaseExpiry => exact execLeaseExpiry_ownOk hs h
    case quietEnd => exact execQuietEnd_ownOk hs h
    case handoverLapse => exact execHandoverLapse_ownOk hs h
    case ctlClaim => exact execCtlClaim_ownOk hs h
    case ctlRenew => exact execCtlRenew_ownOk hs h
    case ctlHandover => exact execCtlHandover_ownOk hs h
    case ctlAccept => exact execCtlAccept_ownOk hs h
    case ctlRelease => exact execCtlRelease_ownOk hs h
    case registerWrite => exact execRegisterWrite_ownOk hs h
    case resetPitchStart => exact execResetPitchStart_ownOk hs h
    case thermalClearPitchStart => exact execThermalClearPitchStart_ownOk hs h
    case coldPitchRailsReturn => exact execColdPitchRailsReturn_ownOk hs h
    case modResetNRelease => exact execModResetNRelease_ownOk hs h
    case vinApply => exact execVinApply_ownOk hs h
    case powerFail => exact execPowerFail_ownOk hs h
    all_goals exact Bool.noConfusion hi

end

/-- Settles O6: a step is a command, which keeps the invariant, or a nanosecond, which leaves the ownership alone. -/
theorem ownershipKept : Obligations.OwnershipKept := by
  intro s t hs h
  unfold step at h
  split at h
  · injection h with h
    exact h ▸ State.tick_ownOk hs
  · next c rest _ => exact exec_ownOk (s := { s with pending := rest }) hs h

end Sys2Proof.Machine
end

section
/-! PROOF. The election and the ownership timers, and what an ownership write leaves alone (08_warden_mailboxes.md R225 to
R228, Table 08-7). -/

namespace Sys2Proof.Machine

open Sys2Proof

/-! ## The election -/

/-- A claim's place in the order of Table 08-7: priority number, then nonce, then controller ID. -/
def Claim.place (c : Claim) : Nat := c.prio.toNat * 2 ^ 66 + c.nonce.toNat * 4 + c.ctrl.val

/-- To have a lower place is to be lower in the first of the three that differs. -/
theorem Claim.place_lt_iff {a b : Claim} :
    a.place < b.place ↔ a.prio < b.prio ∨ a.prio = b.prio ∧ (a.nonce < b.nonce ∨ a.nonce = b.nonce ∧ a.ctrl < b.ctrl) := by
  simp only [place, BitVec.lt_def, ← BitVec.toNat_inj, Fin.lt_def]
  omega

theorem Claim.beats_iff_place_lt {a b : Claim} : a.beats b = true ↔ a.place < b.place := by
  rw [place_lt_iff, beats]
  split
  · next h => simp [h]
  · next h =>
    rw [not_not] at h
    split
    · next h' => simp [h, h']
    · next h' => simp [h, not_not.mp h']

theorem electBest_mem {l : List Claim} {w : Claim} (h : electBest l = some w) : w ∈ l := by
  induction l generalizing w with
  | nil => cases h
  | cons a r ih =>
    unfold electBest at h
    cases hr : electBest r with
    | none =>
      simp only [hr, Option.some.injEq] at h
      simp [h]
    | some b =>
      simp only [hr] at h
      split at h
      · exact List.mem_cons_of_mem a (Option.some.inj h ▸ ih hr)
      · simp [Option.some.inj h]

theorem electBest_ne_none {a : Claim} {l : List Claim} : electBest (a :: l) ≠ none := by
  unfold electBest
  split
  · split <;> simp
  · simp

/-- The winner has the lowest place of all. -/
theorem electBest_place_le {l : List Claim} {w : Claim} (h : electBest l = some w) : ∀ x ∈ l, w.place ≤ x.place := by
  induction l generalizing w with
  | nil => simp
  | cons a r ih =>
    unfold electBest at h
    cases hr : electBest r with
    | none =>
      simp only [hr, Option.some.injEq] at h
      cases r with
      | nil => simp [h]
      | cons b _ => exact absurd hr electBest_ne_none
    | some b =>
      have hb := ih hr
      simp only [hr, Claim.beats_iff_place_lt] at h
      split at h
      · next hlt =>
        cases h
        simpa [hlt.le] using hb
      · next hle =>
        cases h
        rw [Nat.not_lt] at hle
        simpa using fun x hx => hle.trans (hb x hx)

/-- Settles O11: the election is a minimum by place. -/
theorem electionPicksBest : Obligations.ElectionPicksBest := by
  refine fun l w h => ⟨electBest_mem h, fun x hx => ?_⟩
  have hle := Nat.not_lt.mpr (electBest_place_le h x hx)
  rw [Claim.place_lt_iff] at hle
  exact ⟨fun hp => hle (.inl hp), fun hp hn => hle (.inr ⟨hp, .inl hn⟩), fun hp hn hc => hle (.inr ⟨hp, .inr ⟨hn, hc⟩⟩)⟩

/-! ## The timers -/

/-- Deciding claims leaves the owner, the phase and the claims that wait. -/
theorem State.settleClaims_own (s : State) (l : List Claim) (r : Claim → ClaimResult) :
    (l.foldl (fun (t : State) c => t.settleClaim c (r c)) s).own
      = { s.own with ports := (l.foldl (fun (t : State) c => t.settleClaim c (r c)) s).own.ports } :=
  (Only.foldl l (fun u c => u.settleClaim_only c (r c)) Only.refl).own_ports (by decide) (by decide)

/-- Settles O10: the timers that move the device on end in the block an acquisition or a loss leaves, the others in one
change of the phase. -/
theorem ownershipTimers : Obligations.OwnershipTimers := by
  refine ⟨fun s w hp hend hbest => ?_, fun s hv hend => ?_, fun s hp hend => ?_, fun s hp hend => ?_⟩
  · refine ⟨_, congrArg Host.Outcome.next (if_pos ⟨hp, hend⟩), ?_⟩
    simp only [hbest]
    rw [State.settleClaims_own, State.gainOwner_own]
    exact ⟨rfl, rfl, rfl, rfl, rfl, rfl, rfl⟩
  · refine ⟨_, congrArg Host.Outcome.next (if_pos ⟨hv, hend⟩), ?_⟩
    rw [State.loseOwner_own]
    exact ⟨rfl, rfl, rfl, rfl, rfl, rfl⟩
  · exact congrArg _ (if_pos ⟨hp, hend⟩)
  · exact congrArg _ (if_pos ⟨hp, hend⟩)

/-! ## The release of a device with a lost map word -/

/-- A device of controller 0 with one sealed block, whose word of the valid map reads uncorrectable. -/
def ownedWithLostMap : State :=
  { lantern := { stage := 0xF }, ports := [(0, { linkUp := true })], own := { phase := .owned, valid := true }
    trust := { ranges := [{ base := 0, size := 4096, ctrl := 0, epoch := 0, needsTdi := false, draining := false }] }
    mem := { vaults := [(0, { mapBad := [0] })] } }

theorem exec_ownRelease_of_owner {s : State} {p : Fin 2} (hw : s.hostWrites p = true) (ho : s.owns p = true) :
    exec (.ownRelease p) s = .next s.loseOwner := by
  change execOwnRelease p s = _
  rw [execOwnRelease, if_pos hw, State.release, if_pos ho]

/-- Zeroing the sealed block consults the map, which logs the loss with an event. -/
theorem ownedWithLostMap_loseOwner_events : ownedWithLostMap.loseOwner.events.queue.length = 1 := rfl

/-- Refutes O9: the owner's release zeroes the sealed ranges at once where no command holds them (R421), and a block whose
word of the valid map reads uncorrectable then costs a MAP_LOST entry and its event (R194), so that the events are not
as they were. -/
theorem not_ownershipWrites : ¬ Obligations.OwnershipWrites := by
  intro h
  obtain ⟨-, -, -, -, -, hrelease⟩ := h
  obtain ⟨t, ht, -, -, -, -, -, -, -, -, hevents, -, -⟩ := hrelease ownedWithLostMap 0 (by decide) (by decide)
  rw [exec_ownRelease_of_owner (by decide) (by decide)] at ht
  injection ht with ht
  have hlength := ownedWithLostMap_loseOwner_events
  rw [ht, hevents] at hlength
  exact absurd hlength (by decide)

end Sys2Proof.Machine
end

section
/-! PROOF. The ownership commands of controllers 2 and 3 (08_warden_mailboxes.md R224, R226, R228): each acts on the state
right after its admission as the register write acts. -/

namespace Sys2Proof.Machine

open Sys2Proof

section
variable {s u : State} {code : Nat} {c : Fin 4} {k : Fin 1024} {a : Adm}

/-- Admission takes the slot and a tag, and no more. -/
theorem State.admission_only (h : s.admission code c k = some (u, a)) : Only [.intakes, .sealed, .commands] s u := by
  unfold admission at h
  split at h
  · cases h
  · next e _ =>
    dsimp only at h
    split at h
    · injection h with h
      injection h with h _
      exact h ▸ (State.admitCmd_only ..).after (by decide) ((s.takeSlot_only e).mono (by decide))
    · cases h

theorem State.admission_own (h : s.admission code c k = some (u, a)) : u.own = s.own :=
  (State.admission_only h).own_eq (by decide) (by decide) (by decide)

theorem State.admission_now (h : s.admission code c k = some (u, a)) : u.now = s.now :=
  (State.admission_only h).same .now (by decide)

theorem State.admission_owns (h : s.admission code c k = some (u, a)) (x : Nat) : u.owns x = s.owns x := by
  rw [owns, owns, State.admission_own h]

theorem State.admission_offered (h : s.admission code c k = some (u, a)) (x : Nat) : u.offered x = s.offered x := by
  rw [offered, offered, State.admission_own h, State.admission_now h]

/-- What tells which controllers are present is unchanged. -/
theorem State.present_congr {s t : State} (hgeo : t.geo = s.geo) (hi3c : t.i3c = s.i3c) (hlinks : t.links = s.links)
    (hset : t.settings = s.settings) (x : Nat) : t.present x = s.present x := by
  unfold present hostRole peerLinked hasSl sl
  rw [hgeo, hi3c, hlinks, hset]

theorem State.admission_present (h : s.admission code c k = some (u, a)) (x : Nat) : u.present x = s.present x := by
  have hOnly := State.admission_only h
  exact State.present_congr (hOnly.same .geo (by decide)) (hOnly.same .i3c (by decide)) (hOnly.same .links (by decide))
    (hOnly.same .settings (by decide)) x

/-- An offer made where none stood. -/
theorem State.handover_of_owner {t : State} {x : Nat} (ho : t.owns x = true) (hp : t.own.phase ≠ .offer)
    (hpres : t.present t.own.successor = true) (hne : t.own.successor.val ≠ x) :
    t.handover x = { t with own := { t.own with phase := .offer, offerTo := t.own.successor, offerEnd := t.now + offerNs } } := by
  simp [handover, ho, hp, hpres, hne]

theorem Adm.ctlChecks_pass (h : s.admission code c k = some (u, a)) (hc : 2 ≤ c.val) : ∀ x ∈ a.ctlChecks, x.1 = false := by
  rw [← (State.admission_adm h).1] at hc
  simp [ctlChecks, noPort, hc]

variable (hc : 2 ≤ c.val)
include hc

/-- CTL_CLAIM keeps its priority and nonce for the port, then claims with them. -/
theorem exec_ctlClaim_of_opened (h : s.admission 0x0F10 c k = some (u, a)) (hp : s.own.phase = .opened) :
    exec (.ctlClaim c k) s
      = .next ((u.setOwnPort c (fun p => { p with claimPrio := BitVec.ofNat 8 (field a.b 24 1),
                                                  claimNonce := BitVec.ofNat 64 (field a.b 32 8) })).claim c
          (BitVec.ofNat 8 (field a.b 24 1)) (BitVec.ofNat 64 (field a.b 32 8)) [a.tag]) := by
  change execCtlClaim c k s = _
  have hopen : u.own.phase = .opened := by rw [State.admission_own h, hp]
  rw [execCtlClaim, State.serve_admission h, Adm.checked_of_pass (Adm.ctlChecks_pass h hc), (State.admission_adm h).1]
  simp only [hopen, true_or, if_true]

theorem exec_ctlRenew_of_owner (h : s.admission 0x0F11 c k = some (u, a)) (ho : s.owns c = true) :
    exec (.ctlRenew c k) s = .next (a.done { u with own := { u.own with leaseEnd := u.now + leaseNs } }) := by
  change execCtlRenew c k s = _
  rw [← State.admission_owns h] at ho
  rw [execCtlRenew, State.serve_admission h, Adm.checked_of_pass (Adm.ctlChecks_pass h hc), (State.admission_adm h).1,
    if_pos ho, State.renew, if_pos ho]

theorem exec_ctlHandover_of_owner (h : s.admission 0x0F12 c k = some (u, a)) (ho : s.owns c = true)
    (hp : s.own.phase = .owned) (hto : field a.b 24 1 ≤ 3) (hpres : s.present (field a.b 24 1) = true)
    (hne : field a.b 24 1 ≠ c.val) :
    exec (.ctlHandover c k) s
      = .next (a.done { u with own := { u.own with
          successor := Fin.ofNat 4 (field a.b 24 1), phase := .offer, offerTo := Fin.ofNat 4 (field a.b 24 1)
          offerEnd := u.now + offerNs } }) := by
  have howned : u.own.phase = .owned := by rw [State.admission_own h, hp]
  have hsucc : (Fin.ofNat 4 (field a.b 24 1)).val = field a.b 24 1 := Nat.mod_eq_of_lt (by omega)
  rw [← State.admission_owns h] at ho
  rw [← State.admission_present h] at hpres
  rw [← hsucc] at hpres hne
  have hoffer := State.handover_of_owner (t := { u with own := { u.own with successor := Fin.ofNat 4 (field a.b 24 1) } })
    (x := c) ho (by simp [howned]) hpres hne
  change execCtlHandover c k s = _
  rw [execCtlHandover, State.serve_admission h, Adm.checked_of_pass, (State.admission_adm h).1]
  · rw [if_neg (by simp [ho])]
    simp only [hoffer]
    exact congrArg _ (if_pos ⟨by simp [howned], trivial⟩)
  · simpa [hto] using Adm.ctlChecks_pass h hc

theorem exec_ctlAccept_of_offered (h : s.admission 0x0F13 c k = some (u, a)) (hoff : s.offered c = true) :
    exec (.ctlAccept c k) s = .next (a.done (u.gainOwner c (u.ownPort c).claimNonce)) := by
  change execCtlAccept c k s = _
  rw [← State.admission_offered h] at hoff
  rw [execCtlAccept, State.serve_admission h, Adm.checked_of_pass (Adm.ctlChecks_pass h hc), (State.admission_adm h).1,
    if_pos hoff, State.accept, if_pos hoff]

theorem exec_ctlRelease_of_owner (h : s.admission 0x0F14 c k = some (u, a)) (ho : s.owns c = true) :
    exec (.ctlRelease c k) s = .next (a.done u.loseOwner) := by
  change execCtlRelease c k s = _
  rw [← State.admission_owns h] at ho
  rw [execCtlRelease, State.serve_admission h, Adm.checked_of_pass (Adm.ctlChecks_pass h hc), (State.admission_adm h).1,
    if_pos ho, State.release, if_pos ho]

theorem exec_ctlOwnStatus_of_admission (h : s.admission 0x0F15 c k = some (u, a)) :
    exec (.ctlOwnStatus c k) s = .next (a.done u (u.ownWord c + 2 ^ 32 * u.own.epoch.toNat) u.leaseMs) := by
  change execCtlOwnStatus c k s = _
  rw [execCtlOwnStatus, State.serve_admission h, Adm.checked_of_pass (Adm.ctlChecks_pass h hc), (State.admission_adm h).1]

end

/-- A first claim opens the window with itself alone. -/
theorem State.claim_of_opened {s : State} (c : Fin 4) (prio : BitVec 8) (nonce : BitVec 64) (tags : List Nat)
    (hp : s.own.phase = .opened) (hc : s.own.claims = []) :
    s.claim c prio nonce tags
      = State.setOwnPort { s with own := { s.own with phase := .window, windowEnd := s.now + claimWindowNs, claims :=
          [{ ctrl := c, prio := prio, nonce := nonce, tags := tags }] } } c (fun p => { p with result := .pending }) := by
  simp [claim, hp, hc]

/-- Settles O12: each command comes down to its one equation on the admitted state, whose ownership is the state's own. -/
theorem ownershipCommands : Obligations.OwnershipCommands := by
  refine fun s u c k a hc => ⟨fun h hp hclaims => ?_, exec_ctlRenew_of_owner hc, exec_ctlHandover_of_owner hc,
    exec_ctlAccept_of_offered hc, exec_ctlRelease_of_owner hc, exec_ctlOwnStatus_of_admission hc⟩
  have hown := State.admission_own h
  have hnow := State.admission_now h
  rw [exec_ctlClaim_of_opened hc h hp, State.claim_of_opened]
  · exact ⟨_, rfl, rfl, congrArg (· + claimWindowNs) hnow, rfl, by rw [State.setOwnPort_ownPort]⟩
  · exact (congrArg Own.phase hown).trans hp
  · exact (congrArg Own.claims hown).trans hclaims

end Sys2Proof.Machine
end

section
/-! PROOF. The end of an admitted command and the states of the intake (08_warden_mailboxes.md R204, R216, R219, R220,
09_work_orders.md R263). -/

namespace Sys2Proof.Machine

open Sys2Proof

/-! ## Tags and records -/

section
variable {L : List Part} {s t : State} (h : Only L s t) (hL : Part.commands ∉ L)
include h hL

theorem Only.warden_tags : t.warden.tags = s.warden.tags := by
  have hw : t.warden = _ := h.same .commands hL
  rw [hw]

theorem Only.warden_records : t.warden.records = s.warden.records := by
  have hw : t.warden = _ := h.same .commands hL
  rw [hw]

end

/-- The record a command leaves, on the ring that adopted it. -/
def State.recordOf (s : State) (c : Cmd) (e : Ending) : Rec :=
  adopt s.warden.adoptions c.adm (c.record s.time.now 0 e)

/-- Adoption changes no more of a record than its controller and its ring. -/
theorem adopt_fields (l : List Adoption) (adm : Nat) (r : Rec) :
    (adopt l adm r).tag = r.tag ∧ (adopt l adm r).hostTag = r.hostTag ∧ (adopt l adm r).status = r.status
      ∧ (adopt l adm r).result = r.result ∧ (adopt l adm r).time = r.time := by
  unfold adopt
  split <;> exact ⟨rfl, rfl, rfl, rfl, rfl⟩

section
variable {s : State} {tag : Nat} {c : Cmd} (hc : s.cmd tag = some c) (hd : c.discard = false) (e : Ending)
include hc hd

theorem State.endCmd_records : (s.endCmd tag e).warden.records = s.warden.records ++ [s.recordOf c e] := by
  simp only [endCmd, hc, hd, Bool.false_eq_true, if_false]
  exact (State.sweepRanges_only _).warden_records (by decide)

theorem State.endCmd_tags : (s.endCmd tag e).warden.tags = s.warden.tags.filter (fun x => x.tag ≠ tag) := by
  simp only [endCmd, hc, hd, Bool.false_eq_true, if_false]
  exact (State.sweepRanges_only _).warden_tags (by decide)

theorem State.endCmd_cmd : (s.endCmd tag e).cmd tag = none := by
  rw [cmd, endCmd_tags hc hd]
  simp

end

/-- Settles O8: the command admitted holds its tag and keeps its record, so that its end forms the one and frees the
other. -/
theorem commandEndsWithRecord : Obligations.CommandEndsWithRecord := by
  intro s u code c k a e h
  obtain ⟨x, hx, htag, -, hhost, -, -, hd⟩ := State.admission_cmd h
  obtain ⟨hrtag, hrhost, hrstatus, hrresult, hrtime⟩ := adopt_fields u.warden.adoptions x.adm (x.record u.time.now 0 e)
  exact ⟨u.recordOf x e, State.endCmd_records hx hd e, hrtag.trans (congrArg some htag), hrhost.trans hhost, hrstatus,
    hrresult, hrtime, State.endCmd_cmd hx hd e⟩

/-! ## The backlog flag -/

/-- Some presented slot that the scanner forwards has waited more than `n` ns. -/
def State.waitedOver (s : State) (n : Nat) : Bool :=
  s.warden.sealed.any (fun e => e.presented && s.slotForwarded e && decide (e.presentedAt + n < s.now))

/-- What the backlog flag becomes. -/
def State.backlogNext (s : State) : Bool :=
  if s.waitedOver 100000 then true else if s.waitedOver 20000 then s.lantern.backlog else false

/-- Signalling a change leaves all of the Lantern's status but the count of changes. -/
theorem settle_lantern_backlog (s t : State) : (settle s t).lantern.backlog = t.lantern.backlog := by
  have hl : (settle s t).lantern = _ := (settle_only s t).same .lantern (by decide)
  rw [hl]

theorem exec_intakeBacklog (s : State) :
    ∃ t : State, exec .intakeBacklog s = .next t ∧ t.lantern.backlog = s.backlogNext
      ∧ Only [.lantern, .lsChanges, .ports, .hostMem, .i3c, .out] s t :=
  ⟨_, rfl, settle_lantern_backlog _ _, execIntakeBacklog_only s _ rfl⟩

theorem State.waitedOver_of_mem {s : State} {e : SealedSlot} {n : Nat} (he : e ∈ s.warden.sealed) (hp : e.presented = true)
    (hf : s.slotForwarded e = true) (hn : e.presentedAt + n < s.now) : s.waitedOver n = true :=
  List.any_eq_true.mpr ⟨e, he, by simp [hp, hf, hn]⟩

theorem State.not_waitedOver {s : State} {m n : Nat} (hmn : m ≤ n)
    (h : ∀ e ∈ s.warden.sealed, e.presented = true → s.now ≤ e.presentedAt + m) : s.waitedOver n = false := by
  refine List.any_eq_false.mpr fun e he hw => ?_
  simp only [Bool.and_eq_true, decide_eq_true_eq] at hw
  obtain ⟨⟨hp, -⟩, hlate⟩ := hw
  have hwithin := h e he hp
  omega

/-! ## The undefined command code -/

theorem cmdInfo_one : cmdInfo 1 ≠ none := by decide

theorem exec_commandCodeNotDefined_of_admission {s u : State} {c : Fin 4} {k : Fin 1024} {a : Adm}
    (hcode : cmdInfo (mbCmd (s.slotBytes c k)) = none) (h : s.admission (mbCmd (s.slotBytes c k)) c k = some (u, a)) :
    exec (.commandCodeNotDefined c k) s = .next (a.finish u { status := .rejectFormat, detail := 0x10000 }) := by
  have hb : mbCmd a.b ≠ 1 := fun hone => cmdInfo_one (by rw [← hone, (State.admission_adm h).2, hcode])
  change execCommandCodeNotDefined c k s = _
  simp only [execCommandCodeNotDefined, hcode, Option.isNone_none, if_true]
  rw [State.serve_admission h, Adm.checked_of_fault (st := .rejectFormat) (d := 0x10000) rfl hb]

/-- Settles O15: the flag is one function of how long the presented slots have waited, and a code without a row fails the one
check that is left. -/
theorem intakeStates : Obligations.IntakeStates := by
  refine ⟨fun s e he hp hf hlate => ?_, fun s hnone => ?_, fun s u c k a => exec_commandCodeNotDefined_of_admission⟩
  · obtain ⟨t, ht, hb, hOnly⟩ := exec_intakeBacklog s
    exact ⟨t, ht, by rw [hb, State.backlogNext, State.waitedOver_of_mem he hp hf hlate, if_pos rfl], hOnly⟩
  · obtain ⟨t, ht, hb, hOnly⟩ := exec_intakeBacklog s
    refine ⟨t, ht, ?_, hOnly⟩
    rw [hb, State.backlogNext, State.not_waitedOver (by decide) hnone, State.not_waitedOver (by decide) hnone]
    rfl

end Sys2Proof.Machine
end

section
/-! PROOF. Records on their way to the controllers (08_warden_mailboxes.md R218 to R222): the oldest waiting record leaves the
completion buffer for its ring, the FIFO of controller 2 or the peer, and a ring's interrupt goes out in time. -/

namespace Sys2Proof.Machine

open Sys2Proof

/-! ## The rings of a port -/

/-- A change of a port that is none of its rings. -/
theorem State.setPort_rings (s : State) (p q : Nat) {f : HostPort → HostPort} (hf : ∀ h, (f h).rings = h.rings) :
    ((s.setPort p f).port q).rings = (s.port q).rings := by
  by_cases hq : q = p
  · rw [hq, setPort_port, hf]
  · rw [setPort_port_ne _ _ _ hq]

theorem State.putHost_port (s : State) (p : Fin 2) (w : HostOut) (q : Nat) : (s.putHost p w).port q = s.port q := by
  have hp : (s.putHost p w).ports = s.ports := (s.putHost_only p w).same .ports (by decide)
  rw [port, hp, port]

/-- A write to host memory is held or sent, and the rings stand. -/
theorem State.sendHost_rings (s : State) (p : Fin 2) (w : HostOut) (q : Nat) :
    ((s.sendHost p w).port q).rings = (s.port q).rings := by
  unfold sendHost
  split
  · rfl
  · split
    · exact s.setPort_rings _ _ (fun _ => rfl)
    · rfl
    · rw [putHost_port]

theorem State.hostWrite_rings (s : State) (p a : Nat) (bs : List Byte) (q : Nat) :
    ((s.hostWrite p a bs).port q).rings = (s.port q).rings :=
  s.sendHost_rings _ _ q

theorem State.msix_rings (s : State) (p : Fin 2) (v q : Nat) : ((s.msix p v).port q).rings = (s.port q).rings := by
  unfold msix
  split
  · exact s.sendHost_rings p _ q
  · exact s.setPort_rings _ _ (fun _ => rfl)

/-- Once a ring's interrupt is sent none of its records is unsignalled. -/
theorem State.signalRing_ring (s : State) (p : Fin 2) (ring : Nat) :
    look ((s.signalRing p ring).port p).rings ring {} = { look (s.port p).rings ring {} with unsignalled := 0 } := by
  rw [signalRing, msix_rings, setRing_ring]

/-- A record written counts CR_TAIL and leaves CR_HEAD (R218), whether or not its interrupt goes out with it. -/
theorem State.ringWrite_ring (s : State) (p : Fin 2) (ring : Nat) (r : Rec) :
    (look ((s.ringWrite p ring r).port p).rings ring {}).tail = (look (s.port p).rings ring {}).tail + 1
      ∧ (look ((s.ringWrite p ring r).port p).rings ring {}).head = (look (s.port p).rings ring {}).head := by
  unfold ringWrite
  dsimp only
  split
  · rw [signalRing_ring, hostWrite_rings, setRing_ring, hostWrite_rings]
    exact ⟨rfl, rfl⟩
  · rw [hostWrite_rings, setRing_ring, hostWrite_rings]
    exact ⟨rfl, rfl⟩

/-! ## The completion buffer -/

theorem dropFirst_length {α : Type} {f : α → Bool} {l : List α} {a : α} (h : l.find? f = some a) :
    (dropFirst f l).length + 1 = l.length := by
  induction l with
  | nil => cases h
  | cons b l ih =>
    unfold dropFirst
    cases hb : f b with
    | true => rfl
    | false =>
      rw [List.find?_cons_of_neg (by simp [hb])] at h
      simpa using ih h

/-- What `State.nextRec` looks for. -/
def State.recFor (s : State) (c : Fin 4) (ring : Nat) (r : Rec) : Bool :=
  decide (r.ctrl = c) && (decide (2 ≤ c.val) || decide (r.ring.toNat = ring)) && s.mayRecord r

section
variable {s : State} {c : Fin 4} {ring : Nat} {r : Rec}

/-- What leaves the completion buffer alone after a record was taken from it leaves it one record shorter. -/
theorem Only.records_length {L : List Part} {t : State} (h : Only L (s.dropRec (s.recFor c ring)) t) (hL : Part.commands ∉ L)
    (hr : s.nextRec c ring = some r) : t.warden.records.length + 1 = s.warden.records.length := by
  rw [h.warden_records hL]
  exact dropFirst_length hr

theorem exec_completionRecordWrite_of_hostPort {p : Fin 2} (hr : s.nextRec (ctrlOf p) ring = some r) :
    exec (.completionRecordWrite (ctrlOf p) ring) s = .next (s.recToRing p ring r (s.recFor (ctrlOf p) ring)) := by
  unfold State.nextRec at hr
  change execCompletionRecordWrite (ctrlOf p) ring s = _
  obtain rfl | rfl : p = 0 ∨ p = 1 := by omega
  · simp only [execCompletionRecordWrite, hr]
    rfl
  · simp only [execCompletionRecordWrite, hr]
    rfl

theorem exec_completionRecordWrite_of_bmc (hr : s.nextRec 2 ring = some r) :
    exec (.completionRecordWrite 2 ring) s = .next (s.recToFifo r (s.recFor 2 ring)) := by
  unfold State.nextRec at hr
  change execCompletionRecordWrite 2 ring s = _
  simp only [execCompletionRecordWrite, hr]
  rfl

theorem exec_completionRecordWrite_of_peer (hr : s.nextRec 3 ring = some r) :
    exec (.completionRecordWrite 3 ring) s = .next (s.recToPeer r (s.recFor 3 ring)) := by
  unfold State.nextRec at hr
  change execCompletionRecordWrite 3 ring s = _
  simp only [execCompletionRecordWrite, hr]
  rfl

theorem exec_completionRecordWrite_of_none (hr : s.nextRec c ring = none) :
    exec (.completionRecordWrite c ring) s = .next s := by
  unfold State.nextRec at hr
  change execCompletionRecordWrite c ring s = _
  simp only [execCompletionRecordWrite, hr]

end

/-! ## The three destinations -/

section
variable {s : State} {r : Rec} (sel : Rec → Bool)

theorem State.recToRing_of_room {p : Fin 2} {ring : Nat} (hring : ring ≤ 63)
    (hever : (look (s.port p).rings ring {}).everEnabled = true) (hon : (s.port p).ringOn ring = true)
    (hroom : (s.port p).ringFull ring = false) (hopen : s.hostOpen p = true) :
    s.recToRing p ring r sel = (s.dropRec sel).ringWrite p ring r := by
  unfold recToRing
  rw [if_neg (by rw [hever]; simpa using hring), if_neg (by simp [hon, hroom, hopen])]

theorem State.recToFifo_of_full (h : 16 ≤ s.warden.bmcFifo.length) : s.recToFifo r sel = s := if_pos h

/-- The FIFO's first record since it was empty sends an in-band interrupt. -/
theorem State.recToFifo_of_room (h : s.warden.bmcFifo.length < 16) :
    ∃ u : State, u.warden = { s.warden with records := dropFirst sel s.warden.records, bmcFifo := s.warden.bmcFifo ++ [r] }
      ∧ Only [.i3c] u (s.recToFifo r sel) := by
  unfold recToFifo
  rw [if_neg (Nat.not_le.mpr h)]
  dsimp only
  split
  · exact ⟨_, rfl, State.ibi_only _ _⟩
  · exact ⟨_, rfl, Only.refl⟩

theorem State.recToPeer_of_present (h : s.present 3 = true) :
    s.recToPeer r sel = (s.dropRec sel).toPeer (fun d => .completionFrame d r.bytes) := if_pos h

end

theorem exec_moderationTimeout_of_due {s : State} {p : Fin 2} {ring : Fin 64} (hmod : (look (s.port p).rings ring {}).modTime ≠ 0)
    (hun : 0 < (look (s.port p).rings ring {}).unsignalled)
    (hdue : (look (s.port p).rings ring {}).firstUnsignalled + us (look (s.port p).rings ring {}).modTime.toNat ≤ s.now) :
    exec (.moderationTimeout p ring) s = .next (s.signalRing p ring) :=
  congrArg Host.Outcome.next (if_pos ⟨hmod, hun, hdue⟩)

/-- Settles O16: the record found leaves the buffer in every case; a ring takes it with a count of CR_TAIL, the FIFO as it
stands, and the peer as a frame. -/
theorem ringRecords : Obligations.RingRecords := by
  refine ⟨fun s p ring r hring hr hever hon hroom hopen => ?ring, fun s ring r hr hroom => ?fifo, fun s ring hfull => ?full,
    fun s ring r hr hpres => ?peer, fun s p ring hmod hun hdue => ?moderation⟩
  case ring =>
    refine ⟨_, exec_completionRecordWrite_of_hostPort hr, ?_⟩
    rw [State.recToRing_of_room _ hring hever hon hroom hopen]
    have hOnly := State.ringWrite_only (s.dropRec (s.recFor (ctrlOf p) ring)) p ring r
    obtain ⟨htail, hhead⟩ := State.ringWrite_ring (s.dropRec (s.recFor (ctrlOf p) ring)) p ring r
    exact ⟨hOnly.records_length (by decide) hr, htail, hhead, hOnly.after (by decide) ((s.dropRec_only _).mono (by decide))⟩
  case fifo =>
    refine ⟨_, exec_completionRecordWrite_of_bmc hr, ?_⟩
    obtain ⟨u, hu, hOnly⟩ := State.recToFifo_of_room (r := r) (s.recFor 2 ring) hroom
    have hfifo : (s.recToFifo r (s.recFor 2 ring)).warden.bmcFifo = u.warden.bmcFifo := hOnly.same .bmcFifo (by decide)
    rw [hfifo, hOnly.warden_records (by decide), hu]
    exact ⟨rfl, dropFirst_length hr, (s.recToFifo_only r _).mono (by decide)⟩
  case full =>
    cases hr : s.nextRec 2 ring with
    | none => exact exec_completionRecordWrite_of_none hr
    | some r => rw [exec_completionRecordWrite_of_bmc hr, State.recToFifo_of_full _ hfull]
  case peer =>
    refine ⟨_, exec_completionRecordWrite_of_peer hr, ?_, s.recToPeer_only r _⟩
    rw [State.recToPeer_of_present _ hpres]
    exact (State.toPeer_only ..).records_length (by decide) hr
  case moderation =>
    refine ⟨_, exec_moderationTimeout_of_due hmod hun ?_, ?_, rfl, s.signalRing_only p ring⟩
    · rwa [us, Nat.mul_comm]
    · rw [State.signalRing_ring]

end Sys2Proof.Machine
end

section
/-! PROOF. The gap below a held slot (08_warden_mailboxes.md R212, R213): passing the missing numbers one by one counts each and
ends with the slot presented. -/

namespace Sys2Proof.Machine

open Sys2Proof

/-! ## Numbers received -/

section
variable {s : State} {e : SealedSlot} (hs : s.warden.sealed = [e])
include hs

theorem State.seqHere_of_presented {c : Nat} {n : BitVec 15} (hp : e.presented = true) (hr : (s.intake c).received = []) :
    s.seqHere c n = false := by
  simp [seqHere, hs, hr, hp]

theorem State.seqHere_of_held {n : BitVec 15} (hp : e.presented = false) (hr : (s.intake e.ctrl).received = []) :
    s.seqHere e.ctrl n = decide (e.seq = n) := by
  simp [seqHere, hs, hr, hp]

theorem State.presentHeld_of_ne {n : BitVec 15} (c : Nat) (hn : e.seq ≠ n) : s.presentHeld c n = s := by
  simp [presentHeld, hs, hn]

theorem State.presentHeld_of_seq (hp : e.presented = false) : s.presentHeld e.ctrl e.seq = s.presentSlot e := by
  simp [presentHeld, hs, hp]

theorem State.presentSlot_sealed :
    (s.presentSlot e).warden.sealed = [{ e with presented := true, presentedAt := s.now }] := by
  have hraise := (State.raise_only (s.setSealed (fun l => l.filter (fun x => x ≠ e) ++
    [{ e with presented := true, presentedAt := s.now }])) (32 + e.ctrl.val)).same .sealed (by decide)
  exact hraise.trans (by simp [setSealed, setWarden, hs])

end

theorem State.advanceSeq_of_not_seqHere {s : State} {c : Nat} (h : s.seqHere c (s.intake c).nextSeq = false) (n : Nat) :
    s.advanceSeq c n = s := by
  cases n with
  | zero => rfl
  | succ n => rw [advanceSeq, h, if_neg (by decide)]

@[simp] theorem State.presentSlot_intake (s : State) (e : SealedSlot) (c : Nat) : (s.presentSlot e).intake c = s.intake c := rfl

/-- MB_NEXT_SEQ counted past its present number, any mark on it used up (R212). -/
def State.countSeq (s : State) (c : Nat) : State :=
  s.setIntake c (fun i => { i with
    nextSeq := (s.intake c).nextSeq + 1, received := i.received.filter (fun x => x ≠ (s.intake c).nextSeq) })

theorem State.passSeq_eq (s : State) (c : Nat) : s.passSeq c = (s.countSeq c).presentHeld c (s.intake c).nextSeq := rfl

@[simp] theorem State.countSeq_intake (s : State) (c : Nat) :
    (s.countSeq c).intake c = { s.intake c with
      nextSeq := (s.intake c).nextSeq + 1, received := (s.intake c).received.filter (fun x => x ≠ (s.intake c).nextSeq) } :=
  State.setIntake_intake ..

/-- A missing number counted as skipped (R213). -/
def State.skipSeq (s : State) (c : Nat) : State :=
  (s.setIntake c (fun i => { i with skips := satSucc i.skips, skipSeen := true })).countSeq c

/-! ## The gap -/

section
variable {s : State} {e : SealedSlot} (hs : s.warden.sealed = [e]) (hp : e.presented = false)
  (hr : (s.intake e.ctrl).received = [])
include hs hp hr

theorem State.passGap_of_missing (hne : e.seq ≠ (s.intake e.ctrl).nextSeq) (k : Nat) :
    s.passGap e.ctrl (k + 1) = (s.skipSeq e.ctrl).passGap e.ctrl k := by
  rw [passGap, State.seqHere_of_held hs hp hr, decide_eq_false hne, if_neg (by decide), passSeq_eq]
  simp only [setIntake_intake]
  rw [State.presentHeld_of_ne _ _ hne]
  · rfl
  · exact hs

theorem State.passGap_of_present (he : e.seq = (s.intake e.ctrl).nextSeq) :
    s.passGap e.ctrl 1 = (s.countSeq e.ctrl).presentSlot e := by
  rw [passGap, State.seqHere_of_held hs hp hr, decide_eq_true he, if_pos rfl, passSeq_eq, ← he]
  exact State.presentHeld_of_seq (s := s.countSeq e.ctrl) hs hp

end

theorem satAdd_zero {n : Nat} (h : n ≤ 2 ^ 32 - 1) : satAdd n 0 = n := Nat.min_eq_left h

theorem satSucc_le {n : Nat} (h : n ≤ 2 ^ 32 - 1) : satSucc n ≤ 2 ^ 32 - 1 := by
  unfold satSucc
  split <;> omega

theorem satAdd_satSucc (n k : Nat) (h : n ≤ 2 ^ 32 - 1) : satAdd (satSucc n) k = satAdd n (k + 1) := by
  unfold satAdd satSucc
  split <;> omega

/-- The intake of a controller once a gap of `d` numbers below `seq` is released. -/
def Intake.released (i : Intake) (seq : BitVec 15) (d : Nat) : Intake :=
  { i with nextSeq := seq + 1, skips := satAdd i.skips d, skipSeen := i.skipSeen || decide (0 < d) }

/-- Passing the `d` numbers that are missing and then the held slot's own presents it. -/
theorem State.passGap_held {e : SealedSlot} (hp : e.presented = false) (d : Nat) {s : State} (hs : s.warden.sealed = [e])
    (hr : (s.intake e.ctrl).received = []) (hd : (e.seq - (s.intake e.ctrl).nextSeq).toNat = d)
    (hmax : (s.intake e.ctrl).skips ≤ 2 ^ 32 - 1) :
    (s.passGap e.ctrl (d + 1)).warden.sealed = [{ e with presented := true, presentedAt := s.now }]
      ∧ (s.passGap e.ctrl (d + 1)).intake e.ctrl = (s.intake e.ctrl).released e.seq d := by
  induction d generalizing s with
  | zero =>
    have he : e.seq = (s.intake e.ctrl).nextSeq := by bv_omega
    rw [State.passGap_of_present hs hp hr he]
    refine ⟨State.presentSlot_sealed (s := s.countSeq e.ctrl) hs, ?_⟩
    simp [Intake.released, satAdd_zero hmax, hr, he]
  | succ d ih =>
    have hne : e.seq ≠ (s.intake e.ctrl).nextSeq := by
      rintro he
      simp [he] at hd
    have hnext : (s.skipSeq e.ctrl).intake e.ctrl = { s.intake e.ctrl with
        skips := satSucc (s.intake e.ctrl).skips, skipSeen := true, nextSeq := (s.intake e.ctrl).nextSeq + 1 } := by
      simp [skipSeq, hr]
    rw [State.passGap_of_missing hs hp hr hne]
    obtain ⟨hsealed, hintake⟩ := ih (s := s.skipSeq e.ctrl) hs (by rw [hnext, hr]) (by rw [hnext]; bv_omega)
      (by rw [hnext]; exact satSucc_le hmax)
    refine ⟨hsealed, hintake.trans ?_⟩
    rw [hnext]
    simp [Intake.released, satAdd_satSucc _ _ hmax]

theorem exec_sealGapRelease_of_held {s : State} {e : SealedSlot} (hs : s.warden.sealed = [e]) (hp : e.presented = false)
    (hslot : e.slot < 1024) (hlate : e.at' + ms 1 ≤ s.now) :
    exec (.sealGapRelease e.ctrl (Fin.ofNat 1024 e.slot)) s
      = .next ((s.passGap e.ctrl (seqOffset e.seq (s.intake e.ctrl).nextSeq + 1)).advanceSeq e.ctrl seqFuel) := by
  have hval : e.slot = (Fin.ofNat 1024 e.slot).val := (Nat.mod_eq_of_lt hslot).symm
  change execSealGapRelease _ _ s = _
  simp only [execSealGapRelease, hs]
  rw [List.find?_cons_of_pos]
  simpa [hp, hlate] using hval

/-- Settles O14: the missing numbers are passed by induction on their count; then nothing that follows has been received. -/
theorem gapRelease : Obligations.GapRelease := by
  intro s e hs hp hslot hlate hr hne hd hmax
  have hexec := exec_sealGapRelease_of_held hs hp hslot hlate
  obtain ⟨hsealed, hintake⟩ := State.passGap_held hp _ hs hr rfl hmax
  have hpos : 0 < (e.seq - (s.intake e.ctrl).nextSeq).toNat := by bv_omega
  rw [seqOffset, State.advanceSeq_of_not_seqHere (State.seqHere_of_presented hsealed rfl (by rw [hintake]; exact hr))] at hexec
  refine ⟨_, hexec, hsealed, ?_, ?_, ?_, (execSealGapRelease_only _ _ _ _ hexec).mono (by decide)⟩
  · rw [hintake]
    rfl
  · rw [hintake]
    rfl
  · rw [hintake, Intake.released, decide_eq_true hpos, Bool.or_true]

end Sys2Proof.Machine
end

section
/-! PROOF. A seal word written over a slot memory that is not in canonical form (08_warden_mailboxes.md R209). -/

namespace Sys2Proof.Machine

open Sys2Proof

/-- A linked port whose slot memory lists the first byte of slot 0 twice: no run reaches such a list, but every state is in
the statement's range. -/
def portWithByteListedTwice : State :=
  { lantern := { stage := 0xF }, ports := [(0, { linkUp := true })], intakes := [(0, { slots := [(0, 1), (0, 2)] })] }

/-- The write of a zero byte uncovers the second entry. -/
theorem portWithByteListedTwice_sealWord :
    (portWithByteListedTwice.slotWrite 0 0 0 (leBytes 4 0x80000000)).sealWord 0 0 = 0x80000002 := rfl

/-- Refutes O13: the seal word 0x80000000 in sequence, written where the first byte of the slot is listed twice, reads
0x80000002, for a write of zero removes one entry only; the statement lacks the premise `Mem.wf` on the slot memory. -/
theorem not_sealWrites : ¬ Obligations.SealWrites := by
  intro h
  obtain ⟨hinSequence, -, -⟩ := h
  obtain ⟨t, _, ht, -, -, -, -, -, -, -, -, hword, -⟩ :=
    hinSequence portWithByteListedTwice 0 0 0x80000000 (by decide) (by decide) (by decide) (by decide) (by decide) (by decide)
      (by decide) (by decide)
  have hexec : exec (.sealWordWrite 0 0 0x80000000 none) portWithByteListedTwice
      = .next (portWithByteListedTwice.slotWrite 0 0 0 (leBytes 4 0x80000000)) := rfl
  rw [hexec] at ht
  injection ht with ht
  have hread := portWithByteListedTwice_sealWord
  rw [ht] at hread
  exact absurd (hread.symm.trans hword) (by decide)

end Sys2Proof.Machine
end

section
/-! PROOF. The interrupts of the Warden clusters and their watchdog (08_warden_mailboxes.md R235, R236, R238,
16_faults_blast_radius.md R448 to R451, R453): one equation for each event where its condition holds. -/

namespace Sys2Proof.Machine

open Sys2Proof

/-! ## Interrupt delivery -/

section
variable {s : State} {h : Fin 2} {x : Fin 256} {n : Nat}

theorem exec_fastInterruptDelivery_of_target (hx : x.val < 32) (hpend : (s.ic h).pending.contains x.val = true)
    (hlow : ∀ y ∈ (s.ic h).pending, x.val ≤ y) (hheld : s.coresHeld h = false) (hn : (s.ic h).fastTarget = some n) :
    exec (.fastInterruptDelivery h x) s = .next (s.takeSource h n x) := by
  change execFastInterruptDelivery h x s = _
  rw [execFastInterruptDelivery, if_pos]
  · rw [hn]
  · simp only [hx, hpend, hheld, decide_true, Bool.not_false, Bool.and_true, Bool.true_and, List.all_eq_true]
    exact fun y hy => decide_eq_true (hlow y hy)

theorem exec_normalInterruptDelivery_of_eligible (hx : 32 ≤ x.val) (hpend : (s.ic h).pending.contains x.val = true)
    (hheld : s.coresHeld h = false) (hlow : ∀ y ∈ (s.ic h).pending, y < 32 ∨ x.val ≤ y)
    (hn : (s.ic h).order.find? (fun n => (s.ic h).eligible n) = some n) :
    exec (.normalInterruptDelivery h x) s
      = .next ((s.setIc h (fun i => { i with rrNext := Fin.ofNat 8 (n + 1) })).takeSource h n x) := by
  change execNormalInterruptDelivery h x s = _
  rw [execNormalInterruptDelivery, if_pos]
  · simp only [hn]
  · simp only [hx, hpend, hheld, decide_true, Bool.not_false, Bool.and_true, Bool.true_and, List.all_eq_true]
    exact fun y hy => by simpa using hlow y hy

/-- A fast source goes to the fast core if it is enabled, and then waits for it to be awake; else to the lowest enabled core
that is awake (R235). -/
theorem Ic.fastTarget_eq_some_iff (i : Ic) (n : Nat) :
    i.fastTarget = some n ↔ (i.enabled i.fastCore.val = true ∧ i.awake i.fastCore.val = true ∧ n = i.fastCore.val) ∨
      (i.enabled i.fastCore.val = false ∧ n < 8 ∧ i.enabled n = true ∧ i.awake n = true
        ∧ ∀ m, m < n → (i.enabled m && i.awake m) = false) := by
  unfold fastTarget
  cases hen : i.enabled i.fastCore.val with
  | true =>
    cases i.awake i.fastCore.val with
    | true => simpa using eq_comm
    | false => simp
  | false =>
    rw [if_neg (by decide), List.find?_range_eq_some]
    simp only [Bool.and_eq_true, Bool.not_eq_true', List.mem_range, Bool.false_eq_true, false_and, false_or, true_and]
    exact ⟨fun ⟨⟨he, ha⟩, hlt, hmin⟩ => ⟨hlt, he, ha, hmin⟩, fun ⟨hlt, he, ha, hmin⟩ => ⟨⟨he, ha⟩, hlt, hmin⟩⟩

/-- A wake source that nobody can take wakes the core that is next in turn (R238). -/
theorem exec_lanternWake_of_normal (hx : 32 ≤ x.val) (hw : (s.ic h).wakes x = true) (hpend : (s.ic h).pending.contains x.val = true)
    (hheld : s.coresHeld h = false) (hnone : ∀ k, k < 8 → (s.ic h).eligible k = false)
    (hn : (s.ic h).order.find? (fun n => (s.ic h).enabled n) = some n) :
    exec (.lanternWake h x) s
      = .next ((s.setIc h (fun i => { i.wake n with wakeCount := i.wakeCount + 1 })).emit (.wake h n)) := by
  have hany : (List.range 8).any (fun n => (s.ic h).eligible n) = false := by
    simpa using hnone
  change execLanternWake h x s = _
  simp only [execLanternWake, hw, hpend, hheld, hany, hn, Nat.not_lt.mpr hx, Bool.not_false, Bool.and_true, if_true, if_false,
    Bool.false_eq_true]

theorem exec_lanternWake_of_fast (hx : x.val < 32) (hw : (s.ic h).wakes x = true) (hpend : (s.ic h).pending.contains x.val = true)
    (hheld : s.coresHeld h = false) (hen : (s.ic h).enabled (s.ic h).fastCore.val = true)
    (hsleep : (s.ic h).awake (s.ic h).fastCore.val = false) :
    exec (.lanternWake h x) s
      = .next ((s.setIc h (fun i => { i.wake (s.ic h).fastCore.val with wakeCount := i.wakeCount + 1 })).emit
          (.wake h (s.ic h).fastCore.val)) := by
  change execLanternWake h x s = _
  simp only [execLanternWake, hw, hpend, hheld, hen, hsleep, hx, Bool.not_false, Bool.and_true, if_true]

theorem exec_sleepTimer_of_asleep {k : Fin 8} (hen : (s.ic h).enabled k = true) (hsleep : (s.ic h).awake k = false)
    (hheld : s.coresHeld h = false) :
    exec (.sleepTimer h k) s = .next ((s.setIc h (fun i => i.wake k)).emit (.wake h k)) := by
  change execSleepTimer h k s = _
  simp [execSleepTimer, hen, hsleep, hheld]

end

/-! ## The watchdog -/

section
variable {s : State} {h : Fin 2}

theorem exec_heartbeat_of_running (hc : s.clusters.contains h.val = true) (hl : s.trust.loaded = true)
    (hheld : s.coresHeld h = false) :
    exec (.heartbeat h) s
      = .next (s.setWdog h (fun w => { w with lastBeat := s.now, periodMs := s.settings.wdPeriodMs, warned := false })) := by
  change execHeartbeat h s = _
  rw [execHeartbeat, if_pos (by simp only [hc, hl, hheld]; rfl)]

theorem exec_wdogWarn_of_half (hw : s.watched h = true) (hnew : (s.wdog h).warned = false)
    (hhalf : (s.wdog h).lastBeat + ms (s.wdog h).periodMs / 2 ≤ s.now) :
    exec (.wdogWarn h) s = .next ((s.setWdog h (fun w => { w with warned := true })).raiseIn h 1) := by
  change execWdogWarn h s = _
  simp [execWdogWarn, hw, hnew, hhalf]

theorem exec_wdogConfig_of_inRange {u : State} {c : Fin 4} {k : Fin 1024} {a : Adm} (ha : s.admission 0x0601 c k = some (u, a))
    (hlo : 20 ≤ field a.b 24 2) (hhi : field a.b 24 2 ≤ 1000) :
    exec (.wdogConfig c k) s = .next (a.done { u with settings := { u.settings with wdPeriodMs := field a.b 24 2 } }) := by
  change execWdogConfig c k s = _
  rw [execWdogConfig, State.serve_admission ha, Adm.checked_of_pass]
  · rfl
  · simp [hlo, hhi]

/-- A cluster taken into reset at the end of its period, with the event that says so. -/
def State.resetCluster (s : State) (h : Fin 2) : State :=
  (s.setWdog h (fun w => { w with inReset := true, resets := s.now :: s.recentResets h })).postArgs 0x0601 h 2 h
    ((s.recentResets h).length + 1) 0

theorem exec_watchdogReset_of_due (hw : s.watched h = true) (hdue : (s.wdog h).lastBeat + ms (s.wdog h).periodMs ≤ s.now)
    (htrial : s.trust.slotIn .trial = none) :
    exec (.watchdogReset h) s
      = .next (settle s (if (s.recentResets h).length + 1 = 3 then
          ((s.resetCluster h).postArgs 0x0602 h 3 h 3 0).strikeForPitch false else s.resetCluster h)) := by
  change execWatchdogReset h s = _
  rw [execWatchdogReset, if_pos (by simp [hw, hdue]), htrial]
  rfl

theorem exec_watchdogReset_of_early (hearly : s.now < (s.wdog h).lastBeat + ms (s.wdog h).periodMs) :
    exec (.watchdogReset h) s = .next s := by
  change execWatchdogReset h s = _
  rw [execWatchdogReset, if_neg (by simp [hearly])]

section
variable (hc : s.clusters.contains h.val = true) (hreset : (s.wdog h).inReset = true)
include hc hreset

theorem exec_watchdogRestart_of_wrong : exec (.watchdogRestart h false []) s = .next (s.strikeForPitch false) := by
  change execWatchdogRestart h false [] s = _
  rw [execWatchdogRestart, if_pos (by simp only [hc, hreset]; rfl)]
  rfl

theorem exec_watchdogRestart_of_right :
    exec (.watchdogRestart h true []) s = .next (settle s ((s.setWdog h (fun w =>
        { w with inReset := false, lastBeat := s.now, periodMs := s.settings.wdPeriodMs, warned := false })).setIc h
          (fun i => { i with coreEn := 0xFF, coreAwake := 0xFF, accepting := 0xFF, handling := [] }))) := by
  change execWatchdogRestart h true [] s = _
  rw [execWatchdogRestart, if_pos (by simp only [hc, hreset]; rfl)]
  rfl

end

end

/-! ## The loss of a half -/

theorem exec_halfLossDetect_of_heard {s : State} (hheard : s.seamSilent = false) : exec .halfLossDetect s = .next s := by
  change execHalfLossDetect s = _
  rw [execHalfLossDetect, if_neg (by simp [hheard])]

/-- The half that is left after the other was lost, and whether it goes on. -/
def State.leaveHalf (t : State) (east on : Bool) : State :=
  { t with
    geo := { t.geo with hasW := !east, hasE := east }
    i3c := if east then {} else t.i3c
    lantern := { t.lantern with halfLost := !on, wasHalfTwin := if on then some (if east then .e else .w) else none } }

theorem exec_halfLossDetect_of_silent {s : State} {east on : Bool} (htwin : s.twin = true) (hmode : s.geo.mode = 0)
    (hstage : s.lantern.stage8 = true) (hlost : s.lantern.halfLost = false) (hjob : s.lantern.job = none)
    (hsilent : s.seamSilent = true) (heast : east = !s.board.railsW.vbaseSb)
    (hon : on = (!east || (s.own.valid && decide (s.own.id = 1)))) :
    exec .halfLossDetect s = .next (settle s
      (let u := ((s.strikeEverything .linkDown 0x1E []).postArgs 0x0306 (ofBool east) 3 (ofBool (!east)) (ofBool on) 0).leaveHalf east on
       if on then u.askReset 1 true none else u)) := by
  change execHalfLossDetect s = _
  subst heast hon
  rw [execHalfLossDetect, if_pos (by simp [htwin, hmode, hstage, hlost, hjob, hsilent])]
  rfl

/-- Settles O42: each event comes down to its one equation; the third reset within ten minutes is the one case of the
watchdog that strikes all. -/
theorem wardenWatch : Obligations.WardenWatch := by
  refine ⟨fun s h x n => exec_fastInterruptDelivery_of_target, Ic.fastTarget_eq_some_iff,
    fun s h x n => exec_normalInterruptDelivery_of_eligible, fun s h x n => exec_lanternWake_of_normal,
    fun s h x => exec_lanternWake_of_fast, fun s h k => exec_sleepTimer_of_asleep, fun s h => exec_heartbeat_of_running,
    fun s h hw hnew hhalf => ?warn, fun s u c k a => exec_wdogConfig_of_inRange, fun s t h n hw hdue hn htrial ht => ?reset,
    fun s h hearly => ?early, fun s h hc hr => ⟨exec_watchdogRestart_of_wrong hc hr, exec_watchdogRestart_of_right hc hr⟩,
    fun s east on htwin hmode hstage hlost hjob hsilent heast hon => ?lost, fun s => exec_halfLossDetect_of_heard⟩
  case warn => exact exec_wdogWarn_of_half hw hnew (by rwa [ms, Nat.mul_comm])
  case reset =>
    subst hn
    change t = s.resetCluster h at ht
    rw [exec_watchdogReset_of_due hw (by rwa [ms, Nat.mul_comm]) htrial, ← ht]
    exact ⟨fun hn => by rw [if_neg hn], fun hn => by rw [if_pos hn]⟩
  case early => exact exec_watchdogReset_of_early (by rwa [ms, Nat.mul_comm])
  case lost => exact ⟨_, _, rfl, rfl, exec_halfLossDetect_of_silent htwin hmode hstage hlost hjob hsilent heast hon⟩

end Sys2Proof.Machine
end

section
/-! PROOF. The record of an order: the ending of highest rank among those of its completed operations, the lowest index
deciding (09_work_orders.md R263). -/

namespace Sys2Proof.Machine

open Sys2Proof

/-! ## The deciding ending -/

theorem worst_eq_none_iff {l : List (Nat × Ending)} : worst l = none ↔ l = [] := by
  cases l with
  | nil => exact iff_of_true rfl rfl
  | cons x r =>
    refine iff_of_false (fun h => ?_) (List.cons_ne_nil x r)
    simp only [worst] at h
    split at h
    · split at h <;> cases h
    · cases h

/-- The deciding ending of a list is its head, unless that of the tail has a rank strictly higher. -/
theorem worst_cons_inv {x w : Nat × Ending} {r : List (Nat × Ending)} (h : worst (x :: r) = some w) :
    (w = x ∧ ∀ v, worst r = some v → x.2.status.rank ≤ v.2.status.rank)
      ∨ (worst r = some w ∧ w.2.status.rank < x.2.status.rank) := by
  simp only [worst] at h
  split at h
  · next hr =>
    split at h <;> cases h
    · exact .inr ⟨hr, ‹_›⟩
    · exact .inl ⟨rfl, fun v hv => by rw [hr] at hv; cases hv; exact Nat.le_of_not_lt ‹_›⟩
  · next hr =>
    cases h
    exact .inl ⟨rfl, fun v hv => by rw [hr] at hv; cases hv⟩

theorem mem_of_worst {l : List (Nat × Ending)} {w : Nat × Ending} (h : worst l = some w) : w ∈ l := by
  induction l with
  | nil => cases h
  | cons x r ih =>
    obtain ⟨rfl, -⟩ | ⟨hr, -⟩ := worst_cons_inv h
    · exact List.mem_cons_self
    · exact List.mem_cons_of_mem x (ih hr)

/-- A status of rank 1 is the highest (Table 09-9). -/
theorem rank_le_of_worst {l : List (Nat × Ending)} {w : Nat × Ending} (h : worst l = some w) :
    ∀ x ∈ l, w.2.status.rank ≤ x.2.status.rank := by
  induction l generalizing w with
  | nil => cases h
  | cons x r ih =>
    refine List.forall_mem_cons.mpr ?_
    obtain ⟨rfl, hle⟩ | ⟨hr, hlt⟩ := worst_cons_inv h
    · refine ⟨le_rfl, fun y hy => ?_⟩
      obtain ⟨v, hv⟩ := Option.ne_none_iff_exists'.mp (worst_eq_none_iff.not.mpr (List.ne_nil_of_mem hy))
      exact (hle v hv).trans (ih hv y hy)
    · exact ⟨hlt.le, ih hr⟩

/-- In a list by ascending index the first of the highest rank decides. -/
theorem index_le_of_worst {l : List (Nat × Ending)} {w : Nat × Ending} (h : worst l = some w)
    (hl : l.Pairwise (fun a b => a.1 < b.1)) : ∀ x ∈ l, x.2.status.rank = w.2.status.rank → w.1 ≤ x.1 := by
  induction l with
  | nil => cases h
  | cons x r ih =>
    obtain ⟨hhead, htail⟩ := List.pairwise_cons.mp hl
    refine List.forall_mem_cons.mpr ?_
    obtain ⟨rfl, -⟩ | ⟨hr, hlt⟩ := worst_cons_inv h
    · exact ⟨fun _ => le_rfl, fun y hy _ => (hhead y hy).le⟩
    · exact ⟨fun heq => absurd heq hlt.ne', ih hr htail⟩

/-! ## The order -/

theorem Order.mem_completed_iff {o : Order} {i : Nat} {e : Ending} :
    (i, e) ∈ o.completed ↔ ∃ x : Oper, o.ops[i]? = some x ∧ x.phase = .completed e := by
  rw [completed, List.mem_filterMap]
  constructor
  · rintro ⟨⟨x, j⟩, hx, hcase⟩
    dsimp only at hcase
    split at hcase
    · next hphase =>
      cases hcase
      exact ⟨x, List.mk_mem_zipIdx_iff_getElem?.mp hx, hphase⟩
    · cases hcase
  · rintro ⟨x, hx, hphase⟩
    exact ⟨(x, i), List.mk_mem_zipIdx_iff_getElem?.mpr hx, by simp only [hphase]⟩

/-- Where the deciding status is one of a failure, it and its detail word are the record's, and the result is the index. -/
theorem Order.ending_of_failed {o : Order} {i : Nat} {e : Ending} (hw : worst o.completed = some (i, e))
    (he : e.status.good = false) :
    o.ending none = { status := e.status, detail := e.detail, result := BitVec.ofNat 64 i } := by
  simp only [ending, hw, he, Bool.false_eq_true, if_false]

/-- Settles O31: the three facts about the deciding ending go by induction on the list, along its one inversion. -/
theorem worstEnding : Obligations.WorstEnding :=
  ⟨fun _ _ _ h => ⟨mem_of_worst h, rank_le_of_worst h, index_le_of_worst h⟩, fun _ _ _ => Order.mem_completed_iff,
    fun _ _ _ => Order.ending_of_failed⟩

end Sys2Proof.Machine
end

section
/-! PROOF. No command stops the block (09_work_orders.md R253, 16_faults_blast_radius.md R452). -/

namespace Sys2Proof.Machine

open Sys2Proof

/-- Settles O4: the meaning of every command is written as a next state, whatever the branches inside it decide. -/
theorem everyCommandAnswers : Obligations.EveryCommandAnswers := by
  intro i s
  cases i <;> exact ⟨_, rfl⟩

end Sys2Proof.Machine
end

section
/-! PROOF. DM_COPY and MEM_ZERO (09_work_orders.md R252, 07_vaults_and_protection.md R190, R192, 15_trust_and_firmware.md
R420): a dispatched operation runs to the state and the ending its body gives, and each body has one equation per case. -/

namespace Sys2Proof.Machine

open Sys2Proof

/-- A dispatched operation that meets no vault on which it must wait runs to the ending its body gives. -/
theorem State.runOp_of_body {s t : State} {k : OpKind} {tag op : Nat} {c : OpCtx} {e : Ending}
    {body : OpCtx → State → State × Ending} (h : s.toDispatch k tag op = some c) (hb : body c (s.opStart c) = (t, e))
    (ht : t.unstalled) : s.runOp k tag op body = t.ranTo tag op e := by
  have hw : (body c (s.opStart c)).1.run.stalled = false := by rw [hb]; exact ht
  rw [State.runOp_dispatch h body hw, hb]

/-- Accesses that none stopped end DONE, or DONE_DEGRADED where one of them was degraded (01_seven_levels.md R40). -/
theorem Io.ending_of_unstopped {io : Io} (h : io.stop = none) :
    io.ending = { status := if io.degraded then .doneDegraded else .done } := by
  rw [ending, h]
  rfl

@[simp] theorem State.putOff_unstalled {s : State} {l : List LateWrite} : (s.putOff l).unstalled ↔ s.unstalled := Iff.rfl

/-! ## DM_COPY -/

/-- The writes a copy puts off: each row read, at its place on the destination's side. -/
def OpCtx.copyWrites (c : OpCtx) (rows : List (Nat × List Byte)) : List LateWrite :=
  rows.map (fun r => { space := (dmDst c.d).space, addr := (dmDst c.d).row r.1, bytes := r.2 })

theorem dmCopy_of_read {c : OpCtx} {s : State} {rows : List (Nat × List Byte)} {io : Io}
    (hread : s.sideReadAll c (dmSrc c.d) (dmLen c.d) (List.range (dmRows c.d)) = (rows, io)) (hio : io.stop = none) :
    dmCopy c s = (io.s.putOff (c.copyWrites rows), { status := if io.degraded then .doneDegraded else .done }) := by
  rw [dmCopy, hread, ← Io.ending_of_unstopped hio, OpCtx.copyWrites]

/-- The ranges of a copy that the core checks. -/
def dmGuardRanges (d : List Byte) : List CoreRange := (dmRanges d).map (fun r => { r with wr := true })

section
variable {s u : State} {tag op : Nat} {c : OpCtx}

section
variable (h : s.atCore .dmCopy tag op dmGuardRanges = some (c, u)) (hlen : 0 < dmLen c.d) (hrows : 0 < dmRows c.d)
include h hlen hrows

theorem exec_opDmCopy_of_unsealed {rows : List (Nat × List Byte)} {io : Io} (hsrc : c.sideSealed u (dmSrc c.d) = false)
    (hdst : c.sideSealed u (dmDst c.d) = false)
    (hread : u.sideReadAll c (dmSrc c.d) (dmLen c.d) (List.range (dmRows c.d)) = (rows, io)) (hio : io.stop = none)
    (hu : io.s.unstalled) :
    exec (.opDmCopy tag op) s
      = .next ((io.s.putOff (c.copyWrites rows)).ranTo tag op { status := if io.degraded then .doneDegraded else .done }) := by
  change execOpDmCopy tag op s = _
  exact congrArg _ (State.runCore_of_body h (by simp [hlen.ne', hrows.ne'])
    (by rw [hsrc, hdst]; exact dmCopy_of_read hread hio) (State.putOff_unstalled.mpr hu))

theorem exec_opDmCopy_of_sealed (hseal : c.sideSealed u (dmSrc c.d) = true ∨ c.sideSealed u (dmDst c.d) = true)
    (hu : u.unstalled) : exec (.opDmCopy tag op) s = .next (u.ranTo tag op (refused .sealedRange)) := by
  change execOpDmCopy tag op s = _
  exact congrArg _ (State.runCore_of_body h (by simp [hlen.ne', hrows.ne'])
    (if_pos (Bool.or_eq_true_iff.mpr hseal)) hu)

end

theorem exec_opDmCopy_of_zero (h : s.toDispatch .dmCopy tag op = some c) (hu : (s.opStart c).unstalled)
    (hp : (s.opStart c).pairPresent c.pair = true) (hz : dmLen c.d = 0 ∨ dmRows c.d = 0) :
    exec (.opDmCopy tag op) s = .next ((s.opStart c).ranTo tag op { status := .doneEmpty }) := by
  change execOpDmCopy tag op s = _
  rw [execOpDmCopy, State.runCore_of_zero h hu hp (by simpa using hz)]

end

/-! ## MEM_ZERO -/

section
variable {s : State} {tag op : Nat} {c : OpCtx} (h : s.toDispatch .memZero tag op = some c)
include h

theorem exec_opMemZero_of_zero (hz : field c.d 56 8 = 0) (hu : (s.opStart c).unstalled) :
    exec (.opMemZero tag op) s = .next ((s.opStart c).ranTo tag op { status := .doneEmpty }) := by
  change execOpMemZero tag op s = _
  rw [execOpMemZero, State.runOp_of_body h (if_pos hz) hu]

theorem exec_opMemZero_of_unsealed {io : Io} (hn : 0 < field c.d 56 8)
    (hseal : c.sealed (s.opStart c) (field c.d 48 8) (field c.d 56 8) = false)
    (hzero : (s.opStart c).zeroBlocks (field c.d 48 8) (field c.d 56 8 / 4096) = io) (hio : io.stop = none)
    (hu : io.s.unstalled) :
    exec (.opMemZero tag op) s = .next (io.s.ranTo tag op { status := if io.degraded then .doneDegraded else .done }) := by
  change execOpMemZero tag op s = _
  rw [← Io.ending_of_unstopped hio, execOpMemZero, State.runOp_of_body h _ hu]
  simp only [hn.ne', hseal, hzero, Bool.false_eq_true, if_false]

end

/-- Settles O25: a copy divides by its lengths and by what is sealed to another party, MEM_ZERO by its length. -/
theorem copyOperations : Obligations.CopyOperations :=
  ⟨fun _ _ _ _ _ _ _ h hlen hrows => exec_opDmCopy_of_unsealed h hlen hrows, fun _ _ _ _ => exec_opDmCopy_of_zero,
    fun _ _ _ _ _ => exec_opDmCopy_of_sealed, fun _ _ _ _ => exec_opMemZero_of_zero,
    fun _ _ _ _ _ h => exec_opMemZero_of_unsealed h⟩

end Sys2Proof.Machine
end

section
/-! PROOF. SUBMIT_ORDER (09_work_orders.md R243, R244, R253): what passes the checks of ORD_ADDR comes down to the reading of
the order, and that to the reading of its descriptors. -/

namespace Sys2Proof.Machine

open Sys2Proof

theorem State.sealedAgainst_of_no_ranges {s : State} (h : s.trust.ranges = []) (ctrl : Nat) (epoch : BitVec 32) (addr n : Nat) :
    s.sealedAgainst ctrl epoch addr n = false := by
  simp [sealedAgainst, h]

/-! ## The order header -/

/-- A header of version 1 passes: its ORD_RESULT_OP names an operation or none, and its descriptors, if it has any, lie in
memory outside the pools. -/
theorem headerChecks_pass {s : State} {addr : Nat} {h : List Byte} (hver : field h 0 2 = 1)
    (hres : ordResultOp h = 0xFFFF ∨ ordResultOp h < ordOps h)
    (hreach : 0 < ordOps h → s.reachableRange (addr + 64) (256 * ordOps h) = true)
    (hpool : 0 < ordOps h → s.rangeInPool (addr + 64) (256 * ordOps h) = false) :
    firstFault .header (headerChecks s addr h) = none := by
  refine firstFault_none fun x hx => ?_
  simp only [headerChecks, descAddr, Nat.mul_zero, Nat.add_zero, List.mem_cons, List.not_mem_nil, or_false] at hx
  obtain rfl | rfl | rfl | rfl := hx
  · simp [hver]
  · simpa [or_iff_not_imp_left] using hres
  · simpa [Nat.pos_iff_ne_zero] using hreach
  · simpa [Nat.pos_iff_ne_zero] using hpool

section
variable {a : Adm} {u : State} {x : Cmd} {addr : Nat} {h : List Byte} {io : Io} (hload : u.load {} addr 64 = (h, io))
  (hio : io.stop = none) (hver : field h 0 2 = 1)
include hload hio hver

theorem Adm.readOrder_of_noOps (hops : ordOps h = 0) (hres : ordResultOp h = 0xFFFF) :
    a.readOrder u x addr = a.finish io.s { status := .doneEmpty } := by
  simp only [readOrder, hload, hio, hops,
    headerChecks_pass hver (.inl hres) (fun hpos => absurd hops hpos.ne') (fun hpos => absurd hops hpos.ne'), if_true]

section
variable (hops : 0 < ordOps h) (hres : ordResultOp h = 0xFFFF ∨ ordResultOp h < ordOps h)
  (hreach : io.s.reachableRange (addr + 64) (256 * ordOps h) = true)
  (hpool : io.s.rangeInPool (addr + 64) (256 * ordOps h) = false) (hopen : io.s.trust.ranges = [])
include hops hres hreach hpool hopen

theorem Adm.readOrder_of_accepted {t : State} {ops : List Oper}
    (hdescs : io.s.readDescs x addr 0 [] (ordOps h) = (t, .ok ops)) : a.readOrder u x addr = t.admitOrder a.tag addr h ops := by
  simp only [readOrder, hload, hio, headerChecks_pass hver hres (fun _ => hreach) (fun _ => hpool), hops.ne', hdescs,
    State.sealedAgainst_of_no_ranges hopen, Bool.false_eq_true, if_false]

theorem Adm.readOrder_of_refused {t : State} {e : Ending}
    (hdescs : io.s.readDescs x addr 0 [] (ordOps h) = (t, .error e)) : a.readOrder u x addr = a.finish t e := by
  simp only [readOrder, hload, hio, headerChecks_pass hver hres (fun _ => hreach) (fun _ => hpool), hops.ne', hdescs,
    State.sealedAgainst_of_no_ranges hopen, Bool.false_eq_true, if_false]

end

end

/-! ## The command -/

section
variable {s u : State} {c : Fin 4} {k : Fin 1024} {a : Adm} (h : s.admission 0x0001 c k = some (u, a))
include h

theorem exec_submitOrder_of_inRange {x : Cmd} (hx : u.cmd a.tag = some x) (hmul : field a.b 24 8 % 256 = 0)
    (hnear : field a.b 24 8 < farBase) (hreach : u.reachableRange (field a.b 24 8) 64 = true)
    (hpool : u.rangeInPool (field a.b 24 8) 64 = false) (hopen : u.trust.ranges = []) :
    exec (.submitOrder c k) s = .next (a.readOrder u x (field a.b 24 8)) := by
  change execSubmitOrder c k s = _
  rw [execSubmitOrder, State.serve_admission h, Adm.checked_of_pass]
  · simp only [hx, State.sealedAgainst_of_no_ranges hopen, Bool.false_eq_true, if_false]
  · simp [ordAddrChecks, spaceOneBad, hmul, hnear.not_ge, hreach, hpool]

/-- SUBMIT_ORDER is the one command whose failed check gives a result: no descriptor is at fault. -/
theorem exec_submitOrder_of_misaligned (hmul : field a.b 24 8 % 256 ≠ 0) :
    exec (.submitOrder c k) s = .next (a.finish u { status := .rejectFormat, detail := 0x10018, result := 0xFFFF }) := by
  have hfault : firstFault .slot (ordAddrChecks u (field a.b 24 8)) = some (.rejectFormat, 0x10018) := by
    simp only [ordAddrChecks, firstFault, hmul, ne_eq, not_false_eq_true, decide_true, Bool.true_or, if_true]
    rfl
  change execSubmitOrder c k s = _
  rw [execSubmitOrder, State.serve_admission h, Adm.checked, hfault]
  simp only [State.admission_code h, if_true]
  rfl

end

/-- Settles O29: an address in range leaves the reading of the order, which ends in one of three ways by its count of
operations and what its descriptors say. -/
theorem orderAdmission : Obligations.OrderAdmission := by
  refine fun s u c k a x hadm hx => ⟨fun h io hmul hnear hreach hpool hopen hload hio hver => ?_,
    exec_submitOrder_of_misaligned hadm⟩
  rw [exec_submitOrder_of_inRange hadm hx hmul hnear hreach hpool hopen]
  refine ⟨fun hops hres => ?_, fun t ops hops hres hr hp ho hdescs => ?_, fun t e hops hres hr hp ho hdescs => ?_⟩
  · rw [Adm.readOrder_of_noOps hload hio hver hops hres]
  · rw [Adm.readOrder_of_accepted hload hio hver hops hres hr hp ho hdescs, State.admitOrder]
  · rw [Adm.readOrder_of_refused hload hio hver hops hres hr hp ho hdescs]

end Sys2Proof.Machine
end

section
/-! PROOF. NOP, the start of an order and the completion of an operation (09_work_orders.md R255, R257,
10_rack_time_rations.md R289, 03_cores_and_arrays.md R67). -/

namespace Sys2Proof.Machine

open Sys2Proof

theorem exec_opNop_of_toDispatch {s : State} {tag op : Nat} {c : OpCtx} (h : s.toDispatch .nop tag op = some c)
    (hu : (s.opStart c).unstalled) :
    exec (.opNop tag op) s = .next ((s.opStart c).ranTo tag op { status := .done }) := by
  change execOpNop tag op s = _
  rw [execOpNop, State.runOp_of_body h rfl hu]

theorem exec_orderStart_of_due {s : State} {tag : Nat} {c : Cmd} {o : Order} {n : BitVec 64} (hc : s.cmd tag = some c)
    (ho : c.order = some o) (hnot : o.started = false) (hn : o.startNs = some n) (hdue : n.toNat ≤ s.rtNow)
    (hb : s.atBoundary = true) :
    exec (.orderStart tag) s
      = .next (s.setCmd tag (fun c => { c with order := c.order.map (fun o => { o with started := true }) })) := by
  change execOrderStart tag s = _
  rw [execOrderStart]
  simp only [hc, Option.bind_some, ho]
  rw [if_pos (by simp [hnot, hn, hdue, hb])]

/-! ## Completion -/

/-- The state with an operation completed: its status and result written, its pins released, and what will now never run
settled. -/
def State.recorded (s : State) (c : OpCtx) (o : Order) (e : Ending) : State :=
  (((s.setOper c.tag c.op (fun z => { z with phase := .completed e })).writeOpstat o.addr c.op
    (opstat e) e.result.toNat).releasePins c.tag c.op).setCmd c.tag (fun c => { c with order := c.order.map settleAfter })

section
variable {s : State} {c : OpCtx} {o : Order} {e : Ending}

theorem State.complete_of_noUnit (h : (opKind (opCode c.d)).bind OpKind.coreUnit = none) :
    s.complete c o e = (s.recorded c o e).endOrder c.tag := by
  simp only [complete, h]
  rfl

theorem State.complete_of_coreUnit {k : Nat} (h : (opKind (opCode c.d)).bind OpKind.coreUnit = some k) :
    s.complete c o e
      = ((s.recorded c o e).raiseIn ((s.recorded c o e).pairCluster c.pair) (64 + c.pair / 8)).endOrder c.tag := by
  simp only [complete, h]
  rfl

end

/-- What an operation leaves when its put-off writes are made. -/
theorem State.deliver_of_unstalled {s : State} {c : OpCtx} {x : Oper} {e : Ending} {io : Io}
    (hw : State.writeLate { s with run := {} } c x.late = io) (hu : io.s.unstalled) :
    s.deliver c x e = io.s.setOper c.tag c.op (fun z => { z with
      phase := .running (io.stop.getD (io.s.run.ending e)), late := [],
      wrote := io.s.run.wrote.foldl insertNat z.wrote }) := by
  have hstalled : io.s.run.stalled = false := hu
  simp only [deliver, hw, hstalled, Bool.false_eq_true, if_false]

/-- What operation `op` of a command's order runs with. -/
def Oper.ctx (x : Oper) (c : Cmd) (tag op : Nat) : OpCtx := { cmd := c, tag := tag, op := op, d := x.desc }

/-- An operation whose results are all delivered completes with the ending it then has. -/
theorem exec_operationComplete_of_delivered {s t : State} {tag op : Nat} {c : Cmd} {o : Order} {x y : Oper} {e f : Ending}
    (hc : s.cmd tag = some c) (ho : c.order = some o) (hx : s.oper tag op = some x) (he : x.phase = .running e)
    (hstruck : c.struck = none) (hreset : (s.wdog s.lead).inReset = false) (hacked : s.farAcked tag op = true)
    (ht : s.deliver (x.ctx c tag op) x e = t) (hy : t.oper tag op = some y) (hf : y.phase = .running f)
    (hlate : y.late = []) (hfar : t.farAcked tag op = true) :
    exec (.operationComplete tag op) s = .next (t.complete (x.ctx c tag op) o f) := by
  rw [Oper.ctx] at ht ⊢
  change execOperationComplete tag op s = _
  rw [execOperationComplete]
  simp only [hc, hx, he, ho, hstruck, hreset, hacked, ht, hy, hf, hlate, hfar, Option.isSome_none, Bool.not_true,
    Bool.or_self, Bool.false_eq_true, if_false, List.isEmpty_nil, Bool.and_self, if_true]

/-! ## Dispatch -/

theorem State.unitFree_of_canDispatch {s : State} {c : Cmd} {o : Order} {i n : Nat} {x : Oper} (h : s.canDispatch c i = true)
    (ho : c.order = some o) (hx : o.op? i = some x) (hn : (opKind (opCode x.desc)).bind OpKind.coreUnit = some n) :
    s.unitFree (opPair x.desc) n = true := by
  simp only [canDispatch, ho, hx, hn, Bool.and_eq_true] at h
  exact h.2

theorem State.occupies_of_unitFree {s : State} {pair n : Nat} (h : s.unitFree pair n = true) {y : Cmd} {o : Order} {x : Oper}
    (hy : y ∈ s.warden.tags) (ho : y.order = some o) (hx : x ∈ o.ops) : x.occupies pair n = false := by
  have hall := List.all_eq_true.mp h y hy
  rw [ho] at hall
  simpa using List.all_eq_true.mp hall x hx

/-- An operation that goes on holds its place already, or is one the Warden dispatches now. -/
theorem State.toDispatch_inv {s : State} {k : OpKind} {tag i : Nat} {c : OpCtx} (h : s.toDispatch k tag i = some c) :
    ∃ (o : Order) (x : Oper), c.cmd.order = some o ∧ o.op? i = some x ∧ s.oper tag i = some x ∧ c.d = x.desc
      ∧ opKind (opCode x.desc) = some k ∧ (x.phase = .held ∨ s.canDispatch c.cmd i = true) := by
  unfold toDispatch at h
  split at h
  · cases h
  · next y hy =>
    split at h
    · cases h
    · next x hx =>
      split at h <;> cases h
      next hgo =>
      obtain ⟨hk, hgo⟩ := hgo
      obtain ⟨o, ho, hop⟩ := Option.bind_eq_some_iff.mp hx
      refine ⟨o, x, ho, hop, by rw [oper, hy]; exact hx, rfl, hk, ?_⟩
      simp only [goesOn, Bool.or_eq_true, Bool.and_eq_true, decide_eq_true_eq] at hgo
      exact hgo.elim (fun hfirst => .inr hfirst.1) (fun hheld => .inl hheld.1)

/-- Settles O30: the operation that completes is the one the delivery leaves, and its kind decides the completion source; one
that holds no place yet passed the check that its unit is free. -/
theorem orderProgress : Obligations.OrderProgress := by
  refine ⟨fun _ _ _ _ => exec_opNop_of_toDispatch, fun _ _ _ _ _ => exec_orderStart_of_due, ?complete, ?free⟩
  case complete =>
    rintro s t tag op c o x y e f io hc ho hx he hstruck hreset hacked hw hu hy rfl rfl hfar
    rw [exec_operationComplete_of_delivered hc ho hx he hstruck hreset hacked (State.deliver_of_unstalled hw hu)
      (State.oper_setOper_self hy _) rfl rfl hfar]
    refine ⟨fun hk => ?_, fun k hk => ⟨_, rfl, ?_⟩⟩
    · rw [State.complete_of_noUnit hk]
      rfl
    · rw [State.complete_of_coreUnit hk]
      rfl
  case free =>
    intro s tag op c k n h hn hheld y o x hy ho hx
    obtain ⟨o', x', ho', hx', hoper, hd, hk, hphase⟩ := State.toDispatch_inv h
    have hcan := hphase.resolve_left fun hp => hheld (by rw [hoper, Option.map_some, hp])
    have hfree := State.unitFree_of_canDispatch hcan ho' hx' (by rw [hk]; exact hn)
    rw [hd]
    exact State.occupies_of_unitFree hfree hy ho hx

end Sys2Proof.Machine
end

section
/-! PROOF. Strike (09_work_orders.md R265 to R268): the three commands look up their targets and strike them, a unit told to
stop is cleared, and the sequencer writes the records of the jobs whose units have all stopped. -/

namespace Sys2Proof.Machine

open Sys2Proof

/-! ## The targets -/

/-- The command was sealed by this controller with this MB_SEQ. -/
def Cmd.sealedAs (ctrl seq : Nat) (y : Cmd) : Bool := decide (y.ctrl.val = ctrl) && decide (y.seq.toNat = seq)

/-- The slot was sealed by this controller with this MB_SEQ. -/
def SealedSlot.sealedAs (ctrl seq : Nat) (e : SealedSlot) : Bool :=
  decide (e.ctrl.val = ctrl) && decide (e.seq.toNat = seq)

section
variable {s u : State} {c : Fin 4} {k : Fin 1024} {a : Adm}

theorem Adm.asOwner_of_cmd {x : Cmd} (hx : u.cmd a.tag = some x) : a.asOwner u = x.asOwner := by
  simp [asOwner, hx]

section
variable (h : s.admission 0x0F01 c k = some (u, a)) {x : Cmd} (hx : u.cmd a.tag = some x) (hctrl : field a.b 24 1 ≤ 3)
  (hseq : field a.b 26 2 ≤ 32767)
include h hx hctrl hseq

theorem exec_strikeOrder_of_owner (hown : x.asOwner = true) :
    exec (.strikeOrder c k) s = .next (a.strike u
      ((u.strikable.filter (Cmd.sealedAs (field a.b 24 1) (field a.b 26 2))).map (·.tag))
      (u.strikableSlots.filter (SealedSlot.sealedAs (field a.b 24 1) (field a.b 26 2)))) := by
  change execStrikeOrder c k s = _
  rw [execStrikeOrder, State.serve_admission h, Adm.checked_of_pass]
  · simp only [Adm.asOwner_of_cmd hx, hown, Bool.true_or, if_true]
    rfl
  · simp [hctrl, hseq]

/-- Only the owner strikes what another controller sealed (R265). -/
theorem exec_strikeOrder_of_other (hown : x.asOwner = false) (hother : field a.b 24 1 ≠ c.val) :
    exec (.strikeOrder c k) s = .next (a.finish u { status := .rejectNotOwner, detail := 0x1FFFF }) := by
  change execStrikeOrder c k s = _
  rw [execStrikeOrder, State.serve_admission h, Adm.checked_of_pass]
  · simp only [Adm.asOwner_of_cmd hx, hown, hother, decide_false, Bool.false_and, Bool.or_self, Bool.false_eq_true, if_false]
    rfl
  · simp [hctrl, hseq]

end

theorem exec_strikeSeq_of_handle (h : s.admission 0x0F02 c k = some (u, a)) (hbit : bit (field a.b 24 4) 31 = false) :
    exec (.strikeSeq c k) s = .next (a.strike u
      ((u.strikable.filter (fun y => y.handles.contains (field a.b 24 4 % 65536))).map (·.tag)) []) := by
  change execStrikeSeq c k s = _
  rw [execStrikeSeq, State.serve_admission h, Adm.checked_of_pass]
  simp [hbit]

theorem exec_strikeAll_of_admission (h : s.admission 0x0F03 c k = some (u, a)) :
    exec (.strikeAll c k) s = .next (a.strike u (u.strikable.map (·.tag)) u.strikableSlots) := by
  change execStrikeAll c k s = _
  rw [execStrikeAll, State.serve_admission h]

end

/-! ## The Strike -/

theorem Adm.strike_of_noTarget (a : Adm) (s : State) : a.strike s [] [] = a.finish s { status := .doneEmpty } :=
  if_pos rfl

theorem Adm.strike_of_targets (a : Adm) (s : State) {tags : List Nat} {slots : List SealedSlot}
    (h : tags ≠ [] ∨ slots ≠ []) :
    a.strike s tags slots
      = ((s.strikeSlots slots .struck (strikeDetail (mbSeq a.b) a.ctrl)).markStruck tags .struck
          (strikeDetail (mbSeq a.b) a.ctrl)).addJob { tags := tags, slotCount := slots.length, own := some a.tag } := by
  rw [strike, if_neg]
  rwa [Bool.and_eq_true, List.isEmpty_iff, List.isEmpty_iff, not_and_or]

theorem exec_unitStop_of_struck {s : State} {tag op : Nat} {c : Cmd} {x : Oper} (hc : s.cmd tag = some c)
    (hx : s.oper tag op = some x) (hstruck : c.struck.isSome = true) (hflight : x.phase.inFlight = true)
    (hstopped : x.stopped = false) :
    exec (.unitStop tag op) s
      = .next (((s.stopBanks tag op).releasePins tag op).setOper tag op (fun y => { y with stopped := true })) := by
  change execUnitStop tag op s = _
  rw [execUnitStop]
  simp only [hc, hx, hstruck, hflight, hstopped, Bool.not_false, Bool.and_self, if_true]

/-! ## The strike sequencer -/

theorem exec_strikeRecords_of_ready {s : State} {j : StrikeJob} (hj : s.warden.strikes = [j]) (hr : s.jobReady j = true) :
    exec .strikeRecords s = .next ((s.setWarden (fun w => { w with strikes := [] })).finishJob j) := by
  change execStrikeRecords s = _
  simp [execStrikeRecords, State.setWarden, hj, hr]

/-- While no job has stopped the sequencer writes nothing. -/
theorem exec_strikeRecords_of_unready {s : State} (h : ∀ j ∈ s.warden.strikes, s.jobReady j = false) :
    exec .strikeRecords s = .next s := by
  have hnone : s.warden.strikes.filter (fun j => s.jobReady j) = [] := List.filter_eq_nil_iff.mpr (by simpa using h)
  have hall : s.warden.strikes.filter (fun j => !s.jobReady j) = s.warden.strikes := List.filter_eq_self.mpr (by simpa using h)
  change execStrikeRecords s = _
  rw [execStrikeRecords, hnone, List.foldl_nil, State.setWarden, hall]

/-- Settles O32: each command is one Strike on the targets it looks up, a Strike divides by whether it has any, and the
sequencer by whether a job's units have all stopped. -/
theorem strikes : Obligations.Strikes :=
  ⟨fun _ u _ _ a _ => ⟨fun h hx hown hctrl hseq => exec_strikeOrder_of_owner h hx hctrl hseq hown,
      fun h hx hown hctrl hseq => exec_strikeOrder_of_other h hx hctrl hseq hown, exec_strikeSeq_of_handle,
      exec_strikeAll_of_admission, a.strike_of_noTarget u, fun _ _ => a.strike_of_targets u⟩,
    fun _ _ _ _ _ => exec_unitStop_of_struck, fun _ _ => exec_strikeRecords_of_ready,
    fun _ => exec_strikeRecords_of_unready⟩

end Sys2Proof.Machine
end

section
/-! PROOF. Rack time as a count (10_rack_time_rations.md R272, R506): what an idle step does to it and how a host port reads
it. -/

namespace Sys2Proof.Machine

open Sys2Proof

/-! ## An idle step -/

theorem State.timeTick_of_running {s : State} (hr : s.time.running = true) (hs : s.time.slew = 0) :
    s.timeTick = { s.time with now := s.time.now + 1 } := by
  simp [timeTick, slewDue, hr, hs]

theorem State.timeTick_of_standing {s : State} (hr : s.time.running = false) : s.timeTick = s.time := by
  simp [timeTick, hr]

theorem State.openWindows_of_noneHeld {s : State} (h : ∀ e ∈ s.mem.vaults, e.2.held = [] ∧ e.2.back = []) :
    s.openWindows = s := by
  have hnone : s.mem.vaults.filter
      (fun e => !(e.2.held.isEmpty && e.2.back.isEmpty) && e.2.slotUntil.any (fun t => decide (t ≤ s.now))) = [] := by
    refine List.filter_eq_nil_iff.mpr fun e he => ?_
    obtain ⟨hheld, hback⟩ := h e he
    simp [hheld, hback]
  rw [openWindows, hnone, List.foldl_nil]

theorem State.unpark_of_noneParked {s : State} (h : s.links.parked = []) : s.unpark = s := by
  rw [unpark, h, List.foldl_nil, setLinks, ← h]

/-- Serving the held accesses and offering the messages again spares the time base and rack time. -/
theorem State.tick_now_time (s : State) : s.tick.now = s.now + 1 ∧ s.tick.time = s.timeTick := by
  have hw := State.openWindows_only s.advance
  have hu := State.unpark_only s.advance.openWindows
  exact ⟨(hu.same .now (by decide)).trans (hw.same .now (by decide)),
    (hu.same .time (by decide)).trans (hw.same .time (by decide))⟩

theorem State.tick_of_noneWaiting {s : State} (hv : ∀ e ∈ s.mem.vaults, e.2.held = [] ∧ e.2.back = [])
    (hp : s.links.parked = []) : s.tick = s.advance := by
  rw [tick, State.openWindows_of_noneHeld (s := s.advance) hv, State.unpark_of_noneParked (s := s.advance) hp]

theorem step_of_idle {s : State} (h : s.pending = []) : step s = .next s.tick := by
  rw [step, h]

/-- Settles O2: an idle step is one nanosecond, and vaults that hold nothing and an empty list of messages leave the
counters alone to move. -/
theorem idleStep : Obligations.IdleStep := by
  intro s h
  obtain ⟨hnow, htime⟩ := s.tick_now_time
  exact ⟨s.tick, step_of_idle h, hnow, fun hr hs => htime.trans (State.timeTick_of_running hr hs),
    fun hr => htime.trans (State.timeTick_of_standing hr),
    fun hv hp => State.tick_of_noneWaiting hv hp ▸ s.advance_only⟩

/-! ## Reads of RT_NOW -/

section
variable {s : State} {p : Fin 2} (h : s.hostReads p = true)
include h

theorem exec_rtNowLowRead_of_hostReads :
    exec (.rtNowLowRead p) s
      = .next ((s.setPort p (fun x => { x with rtLatch := some (BitVec.ofNat 32 (s.rtNow / 2 ^ 32)) })).emit
          (.readReply p (BitVec.ofNat 64 (s.rtNow % 2 ^ 32)))) :=
  congrArg Host.Outcome.next (if_pos h)

theorem exec_rtNowHighRead_of_latch {v : BitVec 32} (hv : (s.port p).rtLatch = some v) :
    exec (.rtNowHighRead p) s
      = .next ((s.setPort p (fun x => { x with rtLatch := none })).emit (.readReply p (v.setWidth 64))) := by
  change execRtNowHighRead p s = _
  rw [execRtNowHighRead, if_pos h, hv]

theorem exec_rtNowHighRead_of_noLatch (hv : (s.port p).rtLatch = none) :
    exec (.rtNowHighRead p) s = .next (s.emit (.readReply p (BitVec.ofNat 64 (s.rtNow / 2 ^ 32)))) := by
  change execRtNowHighRead p s = _
  rw [execRtNowHighRead, if_pos h, hv]

end

/-- A reply to a read that also changes its port. -/
theorem State.setPort_emit_effect (s : State) (p : Nat) (f : HostPort → HostPort) (o : Out) :
    ((s.setPort p f).emit o).out = s.out ++ [o] ∧ ((s.setPort p f).emit o).port p = f (s.port p)
      ∧ Only [.ports, .out] s ((s.setPort p f).emit o) :=
  ⟨rfl, s.setPort_port p f,
    ((s.setPort_only p f).mono (by decide)).trans (((s.setPort p f).emit_only o).mono (by decide))⟩

/-- Settles O18: each read is one reply, with the port's latch set, released or absent. -/
theorem rackTimeReads : Obligations.RackTimeReads :=
  ⟨fun s _ h => ⟨_, exec_rtNowLowRead_of_hostReads h, s.setPort_emit_effect ..⟩,
    fun s _ _ h hv => ⟨_, exec_rtNowHighRead_of_latch h hv, s.setPort_emit_effect ..⟩,
    fun _ _ => exec_rtNowHighRead_of_noLatch⟩

end Sys2Proof.Machine
end

section
/-! PROOF. What configures and disciplines rack time (10_rack_time_rations.md R273 to R275, 12_silman_and_seam.md R347, R348,
R356): TIME_CONFIG, the time-reference input, the beacons and the sideband word. -/

namespace Sys2Proof.Machine

open Sys2Proof

/-! ## Configuration -/

theorem exec_timeConfig_of_inRange {s u : State} {c : Fin 4} {k : Fin 1024} {a : Adm}
    (h : s.admission 0x0100 c k = some (u, a)) (hsrc : field a.b 24 1 ≤ 3) (hrole : field a.b 25 1 ≤ 1)
    (hedge : field a.b 26 1 ≤ 1) (hsec : field a.b 27 1 ≤ 1) :
    ∃ v : State, v = { u with
        settings := { u.settings with tcSource := BitVec.ofNat 2 (field a.b 24 1), tcRoot := decide (field a.b 25 1 = 1),
                                      tcFalling := decide (field a.b 26 1 = 1) }
        time := { u.time with tcSeconds := if field a.b 27 1 = 1 then some (BitVec.ofNat 64 (field a.b 32 8)) else u.time.tcSeconds,
                              emitting := u.time.emitting && decide (field a.b 25 1 = 1),
                              lowerRoot := if field a.b 25 1 = 1 then u.time.lowerRoot else none } }
      ∧ exec (.timeConfig c k) s = .next (a.done (if v.time.running then v.relock else v)) := by
  refine ⟨_, rfl, ?_⟩
  change execTimeConfig c k s = _
  rw [execTimeConfig, State.serve_admission h, Adm.checked_of_pass]
  · simp only [decide_eq_true_eq]
    rfl
  · simp [hsrc, hrole, hedge, hsec]

/-! ## The time-reference input -/

/-- An edge that comes now comes a second after the last, within 1 µs (Table 10-2). -/
def State.ppsNear (s : State) : Bool :=
  s.time.lastPps.any (fun t => decide (t + 1000000000 ≤ s.now + 1000) && decide (s.now ≤ t + 1000000000 + 1000))

/-- The run of edges with one that comes now, if its frequency is in tolerance. -/
def State.ppsRunOn (s : State) : Nat := if s.ppsNear then s.time.ppsRun + 1 else 1

/-- An edge of the set kind that names its second `sec`, before the discipline is judged. -/
def State.ppsTaken (s : State) (f : Int) (sec : Nat) : State :=
  { s with time := { s.time with
      lastPps := some s.now, ppsRun := if f.natAbs ≤ 100000 then s.ppsRunOn else 0, tcSeconds := none
      seconds := some (sec, s.now)
      inputLocked := s.time.inputLocked || (decide (f.natAbs ≤ 100000) && decide (3 ≤ s.ppsRunOn))
      inputError := (sec : Int) * 1000000000 - s.rtNow } }

/-- The frequency correction follows the input where it is the source. -/
def State.followFreq (s : State) (f : Int) : State :=
  if s.time.source = .input then { s with time := { s.time with freqPpb := BitVec.ofInt 32 f } } else s

theorem exec_ppsEdge_of_otherKind {s : State} {rising : Bool} (h : s.time.running = false ∨ rising = s.settings.tcFalling)
    (f : Int) : exec (.ppsEdge rising f) s = .next s := by
  change execPpsEdge rising f s = _
  rw [execPpsEdge, if_pos (by simpa using h)]

section
variable {s : State} {rising : Bool} (hr : s.time.running = true) (hk : rising ≠ s.settings.tcFalling) (f : Int)
include hr hk

/-- The second that TIME_CONFIG announced is the edge's. -/
theorem exec_ppsEdge_of_announced {sec : BitVec 64} (hsec : s.time.tcSeconds = some sec) :
    exec (.ppsEdge rising f) s = .next (((s.ppsTaken f sec.toNat).relock).followFreq f) := by
  change execPpsEdge rising f s = _
  rw [execPpsEdge, if_neg (by simp [hr, hk])]
  dsimp only
  rw [← State.ppsNear]
  simp only [hsec, Option.isSome_some, Bool.and_true, decide_eq_true_eq]
  rfl

/-- The edge's second is counted from the last one known. -/
theorem exec_ppsEdge_of_counted {sec t1 : Nat} (hnone : s.time.tcSeconds = none) (hsec : s.time.seconds = some (sec, t1)) :
    exec (.ppsEdge rising f) s
      = .next (((s.ppsTaken f (sec + nearSeconds ((s.now : Int) - t1))).relock).followFreq f) := by
  change execPpsEdge rising f s = _
  rw [execPpsEdge, if_neg (by simp [hr, hk])]
  dsimp only
  rw [← State.ppsNear]
  simp only [hnone, hsec, Option.isSome_some, Bool.and_true, decide_eq_true_eq]
  rfl

end

theorem State.ppsTaken_of_near {s : State} {f : Int} (hnear : s.ppsNear = true) (hf : f.natAbs ≤ 100000) (sec : Nat) :
    s.ppsTaken f sec = { s with time := { s.time with
      lastPps := some s.now, ppsRun := s.time.ppsRun + 1, tcSeconds := none, seconds := some (sec, s.now)
      inputLocked := s.time.inputLocked || decide (3 ≤ s.time.ppsRun + 1)
      inputError := (sec : Int) * 1000000000 - s.rtNow } } := by
  rw [ppsTaken, ppsRunOn, if_pos hnear, if_pos hf, decide_eq_true hf, Bool.true_and]

/-- An edge out of tolerance or not a second after the last starts the run anew, too short a run to lock. -/
theorem State.ppsTaken_of_break {s : State} {f : Int} (h : 100000 < f.natAbs ∨ s.ppsNear = false) (sec : Nat) :
    s.ppsTaken f sec = { s with time := { s.time with
      lastPps := some s.now, ppsRun := if f.natAbs ≤ 100000 then 1 else 0, tcSeconds := none, seconds := some (sec, s.now)
      inputError := (sec : Int) * 1000000000 - s.rtNow } } := by
  rw [ppsTaken]
  obtain hf | hfar := h
  · have hout := Nat.not_le.mpr hf
    rw [if_neg hout, if_neg hout, decide_eq_false hout, Bool.false_and, Bool.or_false]
  · have hone : s.ppsRunOn = 1 := if_neg (by simp [hfar])
    rw [hone, decide_eq_false (p := 3 ≤ 1) (by decide), Bool.and_false, Bool.or_false]

theorem State.ppsNear_of_within {s : State} {t : Nat} (h : s.time.lastPps = some t) (hlo : t + 1000000000 ≤ s.now + 1000)
    (hhi : s.now ≤ t + 1000000000 + 1000) : s.ppsNear = true := by
  rw [ppsNear, h, Option.any_some, decide_eq_true hlo, decide_eq_true hhi, Bool.and_self]

theorem State.not_ppsNear_of_first {s : State} (h : s.time.lastPps = none) : s.ppsNear = false := by
  rw [ppsNear, h, Option.any_none]

theorem State.not_ppsNear_of_outside {s : State} {t : Nat} (h : s.time.lastPps = some t)
    (hfar : s.now + 1000 < t + 1000000000 ∨ t + 1000000000 + 1000 < s.now) : s.ppsNear = false := by
  rw [ppsNear, h, Option.any_some]
  obtain hearly | hlate := hfar
  · rw [decide_eq_false (Nat.not_le.mpr hearly), Bool.false_and]
  · rw [decide_eq_false (Nat.not_le.mpr hlate), Bool.and_false]

theorem exec_trefLoss_of_input {s : State} {t : Nat} (h : s.time.lastPps = some t) :
    exec .trefLoss s
      = .next (State.relock { s with time := { s.time with ppsRun := 0, lastPps := none, inputLocked := false } }) := by
  change execTrefLoss s = _
  rw [execTrefLoss, h, Option.isSome_some, if_pos rfl]
  rfl

/-! ## Beacons -/

theorem exec_beaconEmit_of_due {s : State} {id : BitVec 12} (hid : s.links.nodeId = some id) (hroot : s.isRoot = true)
    (hr : s.time.running = true) (hms : s.rtNow % 1000000 = 0) (hnew : s.time.lastEmit ≠ some s.time.now) :
    exec .beaconEmit s = .next (s.beaconPorts.foldl
      (fun (t : State) n => t.sendUnseq n (.beacon (id.setWidth 16) 0 s.time.emitSeq s.time.now 0 (BitVec.ofNat 32 s.errBound)))
      { s with time := { s.time with emitting := true, lastEmit := some s.time.now, emitSeq := s.time.emitSeq + 1 } }) := by
  change execBeaconEmit s = _
  simp only [execBeaconEmit, hid]
  rw [if_pos (by simp [hroot, hr, hms, hnew])]
  rfl

theorem Links.ownNumber_of_nodeId {l : Links} {id : BitVec 12} (h : l.nodeId = some id) : l.ownNumber = id.toNat := by
  rw [ownNumber, h]

section
variable {s t : State} {p : Fin 18} {h : FlitHdr} (m : BeaconMsg) (ha : s.accepted p h .beacon = some t)
include ha

theorem exec_beacon_of_member (hm : t.settings.tcRoot = false ∨ t.links.nodeId = none) :
    exec (.beacon p h m) s = .next (t.takeBeacon p m) := by
  change execBeacon p h m s = _
  rw [execBeacon, State.rx_accepted ha, if_neg]
  obtain hrole | hid := hm
  · simp [hrole]
  · simp [hid]

section
variable (hrole : t.settings.tcRoot = true) {id : BitVec 12} (hid : t.links.nodeId = some id)
include hrole hid

theorem exec_beacon_of_lowerRoot (hlow : m.root.toNat < id.toNat) :
    exec (.beacon p h m) s
      = .next (State.takeBeacon { t with time := { t.time with lowerRoot := some t.now, emitting := false } } p m) := by
  change execBeacon p h m s = _
  rw [execBeacon, State.rx_accepted ha, if_pos (by simp [hrole, hid]), Links.ownNumber_of_nodeId hid, if_pos hlow]
  rfl

theorem exec_beacon_of_rootInCommand (hhigh : id.toNat ≤ m.root.toNat) (hnone : t.time.lowerRoot = none) :
    exec (.beacon p h m) s = .next t := by
  have hroot : t.isRoot = true := by simp [State.isRoot, hrole, hnone]
  change execBeacon p h m s = _
  rw [execBeacon, State.rx_accepted ha, if_pos (by simp [hrole, hid]), Links.ownNumber_of_nodeId hid,
    if_neg (Nat.not_lt.mpr hhigh), if_pos hroot]

end

end

section
variable {s : State} {t : Nat}

theorem exec_beaconLoss_of_lapsed (h : s.time.lastBeacon = some t) (hlate : t + 10000000 ≤ s.now) :
    ∃ v : State, v = State.relock { s with time := { s.time with beaconRun := 0, beaconsLocked := false, lastBeacon := none } }
      ∧ exec .beaconLoss s = .next { v with time := { v.time with beaconPort := 0x1F, beaconHops := 0 } } := by
  refine ⟨_, rfl, ?_⟩
  change execBeaconLoss s = _
  simp only [execBeaconLoss, h]
  exact congrArg Host.Outcome.next (if_pos hlate)

theorem exec_beaconLoss_of_heard (h : s.time.lastBeacon = some t) (hearly : s.now < t + 10000000) :
    exec .beaconLoss s = .next s := by
  change execBeaconLoss s = _
  simp only [execBeaconLoss, h]
  exact congrArg Host.Outcome.next (if_neg (Nat.not_le.mpr hearly))

theorem exec_beaconRootResume_of_lapsed (h : s.time.lowerRoot = some t) (hlate : t + 10000000 ≤ s.now) :
    exec .beaconRootResume s = .next (State.relock { s with time := { s.time with lowerRoot := none } }) := by
  change execBeaconRootResume s = _
  simp only [execBeaconRootResume, h]
  exact congrArg Host.Outcome.next (if_pos hlate)

theorem exec_beaconRootResume_of_heard (h : s.time.lowerRoot = some t) (hearly : s.now < t + 10000000) :
    exec .beaconRootResume s = .next s := by
  change execBeaconRootResume s = _
  simp only [execBeaconRootResume, h]
  exact congrArg Host.Outcome.next (if_neg (Nat.not_le.mpr hearly))

end

/-! ## The sideband -/

theorem exec_seamRackTimeWord_of_twin {s : State} (hm : s.twin = true) (hr : s.time.running = true)
    (hseam : s.seam.mods.any (fun e => decide (e.2.state ≠ .out)) = true) (w : BitVec 64) :
    exec (.seamRackTimeWord w) s = .next { s with seam := { s.seam with
      eOffset := max (-5) (min 5 (toInt 64 (w - s.time.now).toNat)), lastHeard := s.now } } := by
  change execSeamRackTimeWord w s = _
  rw [execSeamRackTimeWord, hm, hr, hseam, Bool.and_self, Bool.and_self, if_pos rfl]

/-- Settles O34: each source comes down to one equation per case; an edge divides by whether it continues the run. -/
theorem rackTimeSources : Obligations.RackTimeSources := by
  refine ⟨fun s u c k a => exec_timeConfig_of_inRange, fun s rising f h => exec_ppsEdge_of_otherKind h f,
    fun s rising f t0 sec t1 hr hk hlast hlo hhi hf hnone hsec => ?_, fun s rising f sec hr hk hbreak hsec => ?_,
    fun s t => exec_trefLoss_of_input, fun s id => exec_beaconEmit_of_due, fun s t p h m ha => exec_beacon_of_member m ha,
    fun s t p h m id ha hrole => exec_beacon_of_lowerRoot m ha hrole, fun s t p h m id ha hrole => exec_beacon_of_rootInCommand m ha hrole,
    fun s t h => ⟨exec_beaconLoss_of_lapsed h, exec_beaconLoss_of_heard h⟩,
    fun s t h => ⟨exec_beaconRootResume_of_lapsed h, exec_beaconRootResume_of_heard h⟩,
    fun s w hm hr hseam => exec_seamRackTimeWord_of_twin hm hr hseam w⟩
  · refine ⟨_, rfl, ?_⟩
    rw [exec_ppsEdge_of_counted hr hk f hnone hsec, State.ppsTaken_of_near (State.ppsNear_of_within hlast hlo hhi) hf,
      ← hnone]
    rfl
  · refine ⟨_, rfl, ?_⟩
    have hbroken : 100000 < f.natAbs ∨ s.ppsNear = false := by
      obtain hf | hfirst | ⟨t0, hlast, hfar⟩ := hbreak
      · exact .inl hf
      · exact .inr (State.not_ppsNear_of_first hfirst)
      · exact .inr (State.not_ppsNear_of_outside hlast hfar)
    rw [exec_ppsEdge_of_announced hr hk f hsec, State.ppsTaken_of_break hbroken]
    rfl

end Sys2Proof.Machine
end

section
/-! PROOF. Ration-period boundaries, power-frame boundaries and the governor, and the core clock (10_rack_time_rations.md
R277, R280, R290 to R293, 11_heat_path.md R318; notes/assumptions/58.md). -/

namespace Sys2Proof.Machine

open Sys2Proof

/-! ## A ration-period boundary -/

theorem State.boundaryNow_of_dealtWith {s : State} (h : s.time.lastBoundary = some s.time.now) : s.boundaryNow = false := by
  simp [boundaryNow, h]

theorem exec_rationPeriodBoundary_of_boundaryNow {s : State} (h : s.boundaryNow = true) :
    exec .rationPeriodBoundary s = .next (settle s s.boundary.applyStep) :=
  congrArg Host.Outcome.next (if_pos h)

theorem exec_rationPeriodBoundary_of_otherTime {s : State} (h : s.boundaryNow = false) :
    exec .rationPeriodBoundary s = .next s :=
  congrArg Host.Outcome.next (if_neg (Bool.not_eq_true _ ▸ h))

/-! ## The governor -/

theorem State.governed_le_powerBound (s : State) (asked : Nat) : s.governed asked ≤ s.powerBound :=
  Nat.min_le_left ..

theorem State.governed_of_noRamp {s : State} (h : s.rampRoom = none) (asked : Nat) :
    s.governed asked = min s.powerBound asked := by
  rw [governed, h]

theorem State.governed_of_ramp {s : State} {r : Nat} (h : s.rampRoom = some r) (asked : Nat) :
    s.governed asked
      = min s.powerBound (max (s.power.inputW.toNat - r) (min (s.power.inputW.toNat + r) asked)) := by
  rw [governed, h]

theorem State.governed_le_max (s : State) (asked : Nat) : s.governed asked ≤ max s.power.inputW.toNat asked := by
  cases h : s.rampRoom with
  | none =>
    rw [governed_of_noRamp h]
    omega
  | some r =>
    rw [governed_of_ramp h]
    omega

/-- The ramp bounds the move of the input power both ways (R291), as long as it can bring it down to the bound. -/
theorem State.governed_within_ramp {s : State} {r : Nat} (h : s.rampRoom = some r)
    (hb : s.power.inputW.toNat - r ≤ s.powerBound) (asked : Nat) :
    s.power.inputW.toNat ≤ s.governed asked + r ∧ s.governed asked ≤ s.power.inputW.toNat + r := by
  rw [governed_of_ramp h]
  omega

theorem State.rampRoom_of_sched {s : State} {p : PowerSched} (h : s.power.sched = some p) :
    s.rampRoom = some (p.rampW.toNat * ((s.now - s.power.readAt) / 1000)) := by
  rw [rampRoom, h, Option.map_some]

theorem State.govern_inputW (s : State) (asked : Nat) :
    (s.govern asked).power.inputW = BitVec.ofNat 16 (s.governed asked) := by
  unfold govern
  dsimp only
  split <;> rfl

/-- What a 16-bit reading asks for, the register of the input power holds. -/
theorem State.govern_inputW_toNat (s : State) (w : BitVec 16) :
    (s.govern w.toNat).power.inputW.toNat = s.governed w.toNat := by
  have hle := s.governed_le_max w.toNat
  have hold := s.power.inputW.isLt
  have hw := w.isLt
  rw [govern_inputW, BitVec.toNat_ofNat, Nat.mod_eq_of_lt (by omega)]

/-- The governor leaves the work alone where the load gets what it asks for, below the ceiling now and to come. -/
theorem State.govern_pausesNothing {s : State} {asked : Nat} (hget : s.governed asked = asked)
    (hceil : asked < s.effectiveCeiling) (hlow : s.lowerComes = false) :
    (s.govern asked).power.pause = 0 ∧ (s.govern asked).power.hold = false := by
  unfold govern
  dsimp only
  rw [if_neg (by simp [hget, hceil, hlow])]
  exact ⟨rfl, rfl⟩

/-! ## A power-frame boundary -/

/-- The state in which the governor acts at a power-frame boundary: schedule, fallback and slot are in force. -/
def State.frameState (s : State) : State := (s.commitSched.checkFallback).placeSlot

theorem exec_powerFrameBoundary_of_atBoundary {s : State} (hr : s.time.running = true) (hb : s.atBoundary = true)
    (w : BitVec 16) :
    exec (.powerFrameBoundary w) s = .next { s.frameState.govern w.toNat with
      power := { (s.frameState.govern w.toNat).power with
        above25Since := if 4 * (s.frameState.govern w.toNat).power.inputW.toNat ≤ s.fuses.powerW then none
          else some (s.power.above25Since.getD s.now) } } := by
  change execPowerFrameBoundary w s = _
  rw [execPowerFrameBoundary, hr, hb, Bool.and_self, if_pos rfl]
  cases s.power.above25Since <;> rfl

theorem exec_powerFrameBoundary_of_otherTime {s : State} (hb : s.atBoundary = false) (w : BitVec 16) :
    exec (.powerFrameBoundary w) s = .next s := by
  change execPowerFrameBoundary w s = _
  rw [execPowerFrameBoundary, hb, Bool.and_false, if_neg Bool.false_ne_true]

/-! ## The core clock -/

/-- The clock is stored as none where it is the fused one. -/
theorem clockStored_getD (n full : Nat) : (if n = full then none else some n).getD full = n := by
  split
  · next h => exact h.symm
  · rfl

/-- One boundary takes the clock a step down, a step up, or leaves it. -/
theorem State.stepClock_cases (s : State) :
    s.stepClock.clock10 = max (s.clock10 - 125) (derating s.fuses).2.2
      ∨ s.stepClock.clock10 = min (s.clock10 + 125) (10 * s.fuses.clockMhz) ∨ s.stepClock.clock10 = s.clock10 := by
  have hclock : s.stepClock.clock10 = _ := clockStored_getD _ _
  rw [hclock]
  split
  · exact .inl rfl
  · split
    · exact .inr (.inl rfl)
    · exact .inr (.inr rfl)

/-- Settles O36: a boundary comes down to one equation at its time and at any other; the governor's input power is a
minimum with the bound, inside which the ramp clamps it, and the clock moves in one of three ways. -/
theorem boundaries : Obligations.Boundaries := by
  refine ⟨fun s => exec_rationPeriodBoundary_of_boundaryNow, fun s => exec_rationPeriodBoundary_of_otherTime,
    fun s h => exec_rationPeriodBoundary_of_otherTime (State.boundaryNow_of_dealtWith h), fun s w hr hb => ?_,
    fun s w hb => exec_powerFrameBoundary_of_otherTime hb w, fun s hlo hhi => ?_⟩
  · exact ⟨s.frameState, _, rfl, rfl, exec_powerFrameBoundary_of_atBoundary hr hb w, s.frameState.govern_inputW_toNat w,
      s.frameState.governed_le_powerBound w.toNat,
      fun p hp hreach => State.governed_within_ramp (State.rampRoom_of_sched hp) hreach w.toNat,
      State.govern_pausesNothing⟩
  · obtain h | h | h := s.stepClock_cases <;> rw [h] <;> omega

end Sys2Proof.Machine
end

section
/-! PROOF. The power-slot commands (10_rack_time_rations.md R290, 00_scope.md R16): what takes the waiting place and what
ends at once. -/

namespace Sys2Proof.Machine

open Sys2Proof

section
variable {s u : State} {c : Fin 4} {k : Fin 1024} {a : Adm}

theorem exec_powerSlotsSet_of_noSlots (h : s.admission 0x0110 c k = some (u, a))
    (hok : firstFault .slot (psChecks u a.b) = none) (hen : field a.b 24 1 = 1) (hn : field a.b 26 1 = 0) :
    exec (.powerSlotsSet c k) s = .next (a.finish u { status := .doneEmpty }) := by
  change execPowerSlotsSet c k s = _
  rw [execPowerSlotsSet, State.serve_admission h, Adm.checked, hok]
  simp only [hen, hn, and_self, if_true]

/-- What a POWER_SLOTS_SET leaves waiting: the schedule it names, or none for a removal. -/
def psNext (b : List Byte) : Option PowerSched := if field b 24 1 = 0 then none else some (psSched b)

theorem exec_powerSlotsSet_of_noneWaiting (h : s.admission 0x0110 c k = some (u, a))
    (hok : firstFault .slot (psChecks u a.b) = none) (hslots : ¬(field a.b 24 1 = 1 ∧ field a.b 26 1 = 0))
    (hnone : u.power.next = none) :
    exec (.powerSlotsSet c k) s
      = .next { u with power := { u.power with next := some (psNext a.b, a.tag, u.now) } } := by
  change execPowerSlotsSet c k s = _
  rw [execPowerSlotsSet, State.serve_admission h, Adm.checked, hok]
  simp only [if_neg hslots, hnone, psNext]

/-- The command that waited ends DONE before the new one waits in its place. -/
theorem exec_powerSlotsSet_of_oneWaiting {p : Option PowerSched} {tag n : Nat} (h : s.admission 0x0110 c k = some (u, a))
    (hok : firstFault .slot (psChecks u a.b) = none) (hslots : ¬(field a.b 24 1 = 1 ∧ field a.b 26 1 = 0))
    (hnext : u.power.next = some (p, tag, n)) :
    ∃ v : State, v = u.endCmd tag { status := .done }
      ∧ exec (.powerSlotsSet c k) s
        = .next { v with power := { v.power with next := some (psNext a.b, a.tag, v.now) } } := by
  refine ⟨_, rfl, ?_⟩
  change execPowerSlotsSet c k s = _
  rw [execPowerSlotsSet, State.serve_admission h, Adm.checked, hok]
  simp only [if_neg hslots, hnext, psNext]

theorem exec_powerSlotsSet_of_fault {st : Status} {d : BitVec 32} (h : s.admission 0x0110 c k = some (u, a))
    (hb : mbCmd a.b ≠ 1) (hf : firstFault .slot (psChecks u a.b) = some (st, d)) :
    exec (.powerSlotsSet c k) s = .next (a.finish u { status := st, detail := d }) := by
  change execPowerSlotsSet c k s = _
  rw [execPowerSlotsSet, State.serve_admission h, Adm.checked_of_fault hf hb]

theorem exec_powerSlotsRead_of_inRange (h : s.admission 0x0111 c k = some (u, a)) (hc : c.val < 2)
    (haddr : field a.b 24 8 % 64 = 0) (hup : (u.port c).linkUp = true) :
    exec (.powerSlotsRead c k) s
      = .next (a.done (u.hostWrite c (field a.b 24 8) (psBytes u.power.sched)) (psBytes u.power.sched).length) := by
  have hctrl : a.ctrl = c := (State.admission_adm h).1
  change execPowerSlotsRead c k s = _
  rw [execPowerSlotsRead, State.serve_admission h, Adm.checked_of_pass,
    Adm.copyOut_of_linkUp (hctrl ▸ hup), hctrl]
  simp [Adm.noPort_of_hostPort (Adm.ctrl_lt_two_of_admission h hc), haddr]

end

theorem psNext_of_removal {b : List Byte} (h : field b 24 1 = 0) : psNext b = none := if_pos h

theorem psNext_of_enable {b : List Byte} (h : field b 24 1 = 1) : psNext b = some (psSched b) := if_neg (by omega)

/-- Settles O35: a set without a fault ends at once or takes the waiting place, whose former command ends; the read is one
copy to host memory. -/
theorem powerSlots : Obligations.PowerSlots := by
  refine fun s u c k a => ⟨fun h hok => ⟨fun hen hn => exec_powerSlotsSet_of_noSlots h hok hen hn, fun hen hnone => ?_,
      fun hen hn hnone => ?_, fun p tag n hen hn hnext => ?_⟩,
    fun _ st d h hb hf => exec_powerSlotsSet_of_fault h hb hf,
    fun h hc haddr hup => exec_powerSlotsRead_of_inRange h (Nat.lt_succ_of_le hc) haddr hup⟩
  · rw [exec_powerSlotsSet_of_noneWaiting h hok (by omega) hnone, psNext_of_removal hen]
  · rw [exec_powerSlotsSet_of_noneWaiting h hok (by omega) hnone, psNext_of_enable hen]
  · exact psNext_of_enable hen ▸ exec_powerSlotsSet_of_oneWaiting h hok (fun hno => hn hno.2) hnext

end Sys2Proof.Machine
end

section
/-! PROOF. The commands of the heat path (11_heat_path.md R299, R312, R314, R322, R324, 00_scope.md R507): each comes down
to one equation on the admitted state. -/

namespace Sys2Proof.Machine

open Sys2Proof

/-- Checks that pass leave the fault to those that follow. -/
theorem firstFault_append_of_none {r : Region} {l : List Check} (h : firstFault r l = none) (m : List Check) :
    firstFault r (l ++ m) = firstFault r m := by
  induction l with
  | nil => rfl
  | cons x l ih =>
    obtain ⟨bad, st, off⟩ := x
    cases bad with
    | true => cases h
    | false => exact ih h

section
variable {s u : State} {c : Fin 4} {k : Fin 1024} {a : Adm}

theorem exec_coolantConfig_of_inRange (h : s.admission 0x0200 c k = some (u, a)) (hfluid : field a.b 24 1 ≤ 1)
    (hlo : 1000 ≤ field a.b 26 2) (hhi : field a.b 26 2 ≤ 8000) :
    exec (.coolantConfig c k) s = .next (a.defer u (.coolant (decide (field a.b 24 1 = 1)) (field a.b 26 2))) := by
  change execCoolantConfig c k s = _
  rw [execCoolantConfig, State.serve_admission h, Adm.checked_of_pass]
  simp [hfluid, hlo, hhi]

theorem exec_sensorDemote_of_named (h : s.admission 0x0201 c k = some (u, a))
    (hok : firstFault .slot (sensorChecks u a.b) = none) :
    exec (.sensorDemote c k) s
      = .next (a.done (u.setSettings (fun x => { x with demoted := (sensorsNamed a.b).foldl insertNat x.demoted }))) := by
  change execSensorDemote c k s = _
  rw [execSensorDemote, State.serve_admission h, Adm.checked, hok]

section
variable (h : s.admission 0x0202 c k = some (u, a)) (hok : firstFault .slot (sensorChecks u a.b) = none)
include h hok

theorem exec_sensorRestore_of_plausible
    (hp : ∀ i ∈ sensorsNamed a.b, (u.sensor i).implausible u.thermal.inlet = false) :
    exec (.sensorRestore c k) s = .next (a.done ((u.setSettings (fun x =>
      { x with demoted := (sensorsNamed a.b).foldl removeNat x.demoted })).setThermal (fun x =>
      { x with sensors := x.sensors.map (fun e =>
          if (sensorsNamed a.b).contains e.1 then (e.1, { e.2 with autoDemoted := false }) else e) }))) := by
  have hnone : (sensorsNamed a.b).any (fun i => (u.sensor i).implausible u.thermal.inlet) = false :=
    List.any_eq_false.mpr fun i hi => Bool.not_eq_true _ ▸ hp i hi
  change execSensorRestore c k s = _
  rw [execSensorRestore, State.serve_admission h, Adm.checked, firstFault_append_of_none hok, hnone]
  rfl

/-- A sensor that is implausible now is not restored (R299). -/
theorem exec_sensorRestore_of_implausible {i : Nat} (hi : i ∈ sensorsNamed a.b)
    (himp : (u.sensor i).implausible u.thermal.inlet = true) :
    exec (.sensorRestore c k) s = .next (a.finish u { status := .rejectState, detail := 0x1001B }) := by
  have hany : (sensorsNamed a.b).any (fun i => (u.sensor i).implausible u.thermal.inlet) = true :=
    List.any_eq_true.mpr ⟨i, hi, himp⟩
  change execSensorRestore c k s = _
  rw [execSensorRestore, State.serve_admission h, Adm.checked_of_fault _ (State.admission_code h ▸ by decide)]
  rw [firstFault_append_of_none hok, hany]
  rfl

end

theorem exec_swingLimitSet_of_inRange (h : s.admission 0x0204 c k = some (u, a)) (hfloor : field a.b 24 1 ≤ 100) :
    exec (.swingLimitSet c k) s = .next (a.done (u.setThermal (fun x => { x with swingFloor := field a.b 24 1 }))) := by
  change execSwingLimitSet c k s = _
  rw [execSwingLimitSet, State.serve_admission h, Adm.checked_of_pass]
  simp [hfloor]

theorem exec_thermalRead_of_inRange (h : s.admission 0x0210 c k = some (u, a)) (hc : c.val < 2)
    (haddr : field a.b 24 8 % 64 = 0) (hlen : field a.b 32 4 ≤ 92160) :
    exec (.thermalRead c k) s
      = .next (a.readOut u (field a.b 32 4) (field a.b 24 8) (u.sensorMap (field a.b 32 4))) := by
  change execThermalRead c k s = _
  rw [execThermalRead, State.serve_admission h, Adm.checked_of_pass]
  · rfl
  · simp [Adm.noPort_of_hostPort (Adm.ctrl_lt_two_of_admission h hc), haddr, hlen]

/-- What THERMAL_CLEAR makes of the latch: the shutdown's record is marked, and an event names it (R312). -/
def State.clearWithEvent (s : State) : State :=
  s.clearLatch.postArgs 0x0202 s.lead 0 ((s.thermal.latch.map (·.evSeq.toNat)).getD 0) 0 0

theorem exec_thermalClear_of_mayClear (h : s.admission 0x0203 c k = some (u, a)) (hm : u.mayClear = true) :
    exec (.thermalClear c k) s = .next (settle s (a.done
      (u.clearWithEvent.setLantern (fun l => { l with clearing := some (a.tag, u.clearWithEvent.now) })))) := by
  change execThermalClear c k s = _
  rw [execThermalClear, State.serve_admission h, Adm.checked_of_pass]
  · rfl
  · simp [hm]

theorem exec_thermalClear_of_refused (h : s.admission 0x0203 c k = some (u, a)) (hm : u.mayClear = false) :
    exec (.thermalClear c k) s = .next (settle s (a.finish u { status := .rejectState, detail := 0x1FFFF })) := by
  change execThermalClear c k s = _
  rw [execThermalClear, State.serve_admission h, Adm.checked_of_fault _ (State.admission_code h ▸ by decide)]
  rw [hm]
  rfl

end

/-- Settles O37: each command comes down to its one equation; SENSOR_RESTORE divides by whether a named sensor is
implausible, THERMAL_READ by its length and THERMAL_CLEAR by its conditions. -/
theorem heatCommands : Obligations.HeatCommands := by
  refine fun s u c k a => ⟨exec_coolantConfig_of_inRange, exec_sensorDemote_of_named,
    fun h hok => ⟨exec_sensorRestore_of_plausible h hok, ?_⟩, exec_swingLimitSet_of_inRange, fun h hc haddr hlen => ?_,
    fun h => ⟨fun hm => ⟨u.clearWithEvent, rfl, exec_thermalClear_of_mayClear h hm⟩, exec_thermalClear_of_refused h⟩⟩
  · exact fun i hi himp => exec_sensorRestore_of_implausible h hok hi himp
  · rw [exec_thermalRead_of_inRange h (Nat.lt_succ_of_le hc) haddr hlen]
    refine ⟨fun hz => ?_, fun hnz hup => ?_⟩
    · rw [Adm.readOut_of_zero _ _ _ hz]
    · rw [Adm.readOut_of_linkUp _ _ _ (Nat.pos_of_ne_zero hnz) ((State.admission_adm h).1 ▸ hup), (State.admission_adm h).1]

end Sys2Proof.Machine
end

section
/-! PROOF. Sensing, estimates, levels, pauses and wear (11_heat_path.md R295, R298, R302, R304, R308, R320, R321): what each
timer does at its time, and the level of one point. -/

namespace Sys2Proof.Machine

open Sys2Proof

/-! ## Samples and disagreement -/

/-- The readings of a sample taken, each half's serial rails follow their heat. -/
def State.sampled (s : State) (l : List SensorReading) : State :=
  ([0, 1] : List (Fin 2)).foldl (fun (x : State) h => if s.clusters.contains h.val then x.serHeat h else x)
    ((l.foldl State.takeSite s).setThermal (fun x => { x with lastSample := s.now }))

theorem exec_sensorSample_of_due {s : State} (hon : s.lanternOn = true) (hdue : s.thermal.lastSample + 100000 ≤ s.now)
    (l : List SensorReading) :
    exec (.sensorSample l) s
      = .next (settle s (if (s.sampled l).heatOn then (s.sampled l).judgeBlind.judge else s.sampled l)) := by
  change execSensorSample l s = _
  rw [execSensorSample, hon, decide_eq_true (show s.thermal.lastSample + us 100 ≤ s.now from hdue), Bool.and_self,
    if_pos rfl]
  rfl

theorem exec_sensorSample_of_early {s : State} (h : s.now < s.thermal.lastSample + 100000) (l : List SensorReading) :
    exec (.sensorSample l) s = .next s := by
  change execSensorSample l s = _
  rw [execSensorSample, decide_eq_false (show ¬s.thermal.lastSample + us 100 ≤ s.now from Nat.not_le.mpr h),
    Bool.and_false, if_neg Bool.false_ne_true]

section
variable {s : State} {t : Fin 16} {l : Fin 10} {x : Fin 72} {since : Nat}

theorem exec_sensorDisagree_of_uncounted (hd : look? s.thermal.disagree (pointOf t l x) = some (since, false))
    (hlate : since + 100000000 < s.now) :
    exec (.sensorDisagree t l x) s
      = .next ((s.setThermal (fun h => { h with
          sensorDisagree := true, disagreeCount := satSucc h.disagreeCount,
          disagree := put h.disagree (pointOf t l x) (since, true) })).postArgs 0x0204 (2 * pointOf t l x) 1
            (sensorArg (2 * pointOf t l x)) (s.readingsArg (pointOf t l x)) 0) := by
  have hgo : decide (since + ms 100 < s.now) = true := decide_eq_true hlate
  change execSensorDisagree t l x s = _
  simp only [execSensorDisagree, hd, hgo, Bool.not_false, Bool.and_self, if_true]

/-- A disagreement is counted once, and not before its time. -/
theorem exec_sensorDisagree_of_counted_or_early {counted : Bool}
    (hd : look? s.thermal.disagree (pointOf t l x) = some (since, counted))
    (h : counted = true ∨ s.now ≤ since + 100000000) : exec (.sensorDisagree t l x) s = .next s := by
  have hno : (!counted && decide (since + ms 100 < s.now)) = false := by
    obtain hc | hearly := h
    · rw [hc, Bool.not_true, Bool.false_and]
    · rw [decide_eq_false (show ¬since + ms 100 < s.now from Nat.not_lt.mpr hearly), Bool.and_false]
  change execSensorDisagree t l x s = _
  simp only [execSensorDisagree, hd, hno, Bool.false_eq_true, if_false]

end

theorem exec_sensorDisagreeClear_of_agreed {s : State} {t : Nat} (h : s.thermal.agreeSince = some t)
    (hlate : t + 10000000000 ≤ s.now) :
    exec .sensorDisagreeClear s = .next (s.setThermal (fun x => { x with sensorDisagree := false })) := by
  change execSensorDisagreeClear s = _
  simp only [execSensorDisagreeClear, h]
  exact congrArg Host.Outcome.next (if_pos hlate)

/-! ## Estimates and pauses -/

theorem exec_estimatorUpdate_of_due {s : State} {t : Fin 16} (ht : s.hasTower t = true) (hon : s.heatOn = true)
    (hdue : look s.thermal.lastEstimate t 0 + 64 ≤ s.time.boundaries) :
    exec (.estimatorUpdate t) s = .next (settle s (s.updateEstimates t).judge) := by
  change execEstimatorUpdate t s = _
  rw [execEstimatorUpdate, ht, hon, decide_eq_true hdue, Bool.and_self, Bool.and_self, if_pos rfl]

theorem exec_throttleStep_of_due {s : State} (hon : s.heatOn = true) (hdue : s.thermal.lastThrottle + 1000000 ≤ s.now) :
    exec .throttleStep s = .next (s.setThermal (fun x => { x with
      lastThrottle := s.now
      pauses := ((List.range 2048).filter (fun i => s.pairPresent (i / 2))).filterMap (fun i =>
        if s.nextStep (i / 2) (decide (i % 2 = 1)) = 0 then none
        else some (i, s.nextStep (i / 2) (decide (i % 2 = 1)))) })) := by
  change execThrottleStep s = _
  rw [execThrottleStep, hon, decide_eq_true (show s.thermal.lastThrottle + ms 1 ≤ s.now from hdue), Bool.and_self,
    if_pos rfl]

/-! ## Wear -/

theorem exec_swingSample_of_due {s : State} {t : Fin 16} {x : Rat} (hx : s.hottestCompute t = some x)
    (ht : s.hasTower t = true) (hon : s.heatOn = true) (hdue : look s.thermal.lastSwing t 0 + 10000000 ≤ s.now) :
    exec (.swingSample t) s
      = .next ((s.setThermal (fun h => { h with lastSwing := put h.lastSwing t s.now })).putWear t
          ((look s.thermal.wear t {}).sample (x * 16).floor)) := by
  change execSwingSample t s = _
  rw [execSwingSample, hx, ht, hon, decide_eq_true (show look s.thermal.lastSwing t 0 + ms 10 ≤ s.now from hdue)]
  rfl

theorem exec_wearPersist_of_due {s : State} (hon : s.lanternOn = true) (hdue : s.thermal.wearAt + 600000000000 ≤ s.now) :
    exec .wearPersist s = .next s.persistWear := by
  change execWearPersist s = _
  rw [execWearPersist, hon, decide_eq_true (show s.thermal.wearAt + ms 600000 ≤ s.now from hdue), Bool.and_self,
    if_pos rfl]

/-! ## The level of a point -/

/-- A level is entered at its threshold, and a shutdown stays (R304). -/
theorem nextLevel_of_shutdown {layer : Nat} {old : Level} {t : Rat}
    (h : old = .shutdown ∨ ((thresholds layer).2.2 : Rat) ≤ t) : nextLevel layer old t = .shutdown :=
  if_pos h

theorem nextLevel_throttle_of_near {layer : Nat} {t : Rat} (hd : t < ((thresholds layer).2.2 : Rat))
    (hh : ((thresholds layer).2.1 : Rat) - 3 ≤ t) : nextLevel layer .throttle t = .throttle := by
  simp [nextLevel, hd, hh]

/-- Below what either level is left at a point is normal, unless it stood at shutdown. -/
theorem nextLevel_normal_of_cool {layer : Nat} {old : Level} {t : Rat} (hold : old ≠ .shutdown)
    (hd : t < ((thresholds layer).2.2 : Rat)) (hw : t < ((thresholds layer).1 : Rat) - 4)
    (hh : t < ((thresholds layer).2.1 : Rat) - 3) : nextLevel layer old t = .normal := by
  have hwarn : t < ((thresholds layer).1 : Rat) := hw.trans (by linarith)
  have hthrottle : t < ((thresholds layer).2.1 : Rat) := hh.trans (by linarith)
  simp only [nextLevel, hold, not_le.mpr hd, not_le.mpr hw, not_le.mpr hh, not_le.mpr hwarn, not_le.mpr hthrottle,
    or_self, decide_false, Bool.and_false, Bool.or_self, Bool.false_eq_true, if_false]

/-- Settles O38: each timer comes down to its one equation at its time, and a point's level to the comparison with its
thresholds. -/
theorem heatSensing : Obligations.HeatSensing :=
  ⟨fun _ l hon hdue => ⟨_, _, rfl, rfl, exec_sensorSample_of_due hon hdue l⟩,
    fun _ l h => exec_sensorSample_of_early h l,
    fun _ _ _ _ _ hd hlate => ⟨_, rfl, exec_sensorDisagree_of_uncounted hd hlate⟩,
    fun _ _ _ _ _ _ => exec_sensorDisagree_of_counted_or_early,
    fun _ _ => exec_sensorDisagreeClear_of_agreed,
    fun _ _ => exec_estimatorUpdate_of_due,
    fun _ => exec_throttleStep_of_due,
    fun _ _ _ hx ht hon hdue => ⟨_, _, rfl, rfl, exec_swingSample_of_due hx ht hon hdue⟩,
    fun _ hon hdue => ⟨_, rfl, exec_wearPersist_of_due hon hdue⟩,
    fun _ _ _ => nextLevel_of_shutdown,
    fun _ _ hd => ⟨nextLevel_throttle_of_near hd,
      fun hw hh => ⟨nextLevel_normal_of_cool (by decide) hd hw hh, nextLevel_normal_of_cool (by decide) hd hw hh⟩⟩⟩

end Sys2Proof.Machine
end

section
/-! PROOF. The steps of a shutdown and the cold pitch after its clear (11_heat_path.md R310 to R312, Table 11-8). -/

namespace Sys2Proof.Machine

open Sys2Proof

/-! ## The latch (step 1) -/

theorem Only.thermal_eq {L : List Part} {s t : State} (h : Only L s t) (hL : Part.thermal ∉ L) : t.thermal = s.thermal :=
  h.same .thermal hL

theorem State.latchStands_of_latch {s : State} {d : Shutdown} (h : s.thermal.latch = some d) :
    s.latchStands = !d.cleared := by
  rw [latchStands, h]

/-- Counting wear touches neither the latch nor TH_CL_LEVEL. -/
theorem State.putWear_latch_clLevel (s : State) (tower : Nat) (w : Wear) :
    (s.putWear tower w).thermal.latch = s.thermal.latch ∧ (s.putWear tower w).thermal.clLevel = s.thermal.clLevel := by
  rw [putWear]
  split <;> exact ⟨rfl, rfl⟩

theorem State.persistWear_latch_clLevel (s : State) :
    s.persistWear.thermal.latch = s.thermal.latch ∧ s.persistWear.thermal.clLevel = s.thermal.clLevel := by
  refine List.foldlRecOn s.thermal.wear _ (motive := fun t : State =>
    t.thermal.latch = s.thermal.latch ∧ t.thermal.clLevel = s.thermal.clLevel) ⟨rfl, rfl⟩ fun t ⟨hl, hc⟩ e _ => ?_
  obtain ⟨hl', hc'⟩ := t.putWear_latch_clLevel e.1 { e.2 with persisted := e.2.count + residual e.2.stack }
  exact ⟨hl'.trans hl, hc'.trans hc⟩

/-- What a shutdown latches; for a coolant cause its temperature comes of a free value (notes/assumptions/10.md). -/
def State.shutdownLatch (s : State) (cause : Nat) (est : Bool) (point : Nat) (temp : Int) : Shutdown :=
  let heat := decide (cause = 1)
  { cause := cause, estimated := est, demoted := heat && s.towerDemoted (pointParts point).1,
    tower := if heat then (pointParts point).1 else 0xFF, layer := if heat then (pointParts point).2.1 else 0xFF,
    site := if heat then (pointParts point).2.2 else 0xFF, temp := if heat then temp else toInt 16 (s.draw.1 / 16),
    at' := s.now, cleared := false
    struck := (s.warden.tags.filter (fun c => !isStrike c.code.toNat)).length
    written := false, evSeq := 0 }

theorem State.shutdown_latch_clLevel {s : State} (h : s.latchStands = false) (cause : Nat) (est : Bool) (point : Nat)
    (temp : Int) :
    (s.shutdown cause est point temp).thermal.latch = some (s.shutdownLatch cause est point temp)
      ∧ (cause ≠ 1 → (s.shutdown cause est point temp).thermal.clLevel = 3) := by
  have hdraw : s.draw.2.latchStands = false := h
  simp only [shutdown, hdraw, Bool.false_eq_true, if_false]
  rw [(State.raiseFast_only ..).thermal_eq (by decide), (State.post_only ..).thermal_eq (by decide)]
  obtain ⟨hlatch, hlevel⟩ := State.persistWear_latch_clLevel _
  refine ⟨hlatch, fun hc => hlevel.trans ?_⟩
  simp [hc]

/-- A thermal cause finds its latch standing: only a free value has been drawn. -/
theorem State.shutdown_of_latchStands {s : State} (h : s.latchStands = true) (est : Bool) (point : Nat) (temp : Int) :
    s.shutdown 1 est point temp = s.draw.2 :=
  if_pos h

/-! ## The rails drop (step 4) -/

section
variable {s : State} {d : Shutdown} (hd : s.thermal.latch = some d)
include hd

theorem exec_shutdownRailDrop_of_due (hstands : d.cleared = false) (hon : s.heatOn = true)
    (hdue : d.written = true ∨ d.at' + 20000000 ≤ s.now) :
    exec .shutdownRailDrop s = .next ((s.loseMemory.setRails (fun r =>
      { r with vcomp := false, vdram := false, vbase := false })).setThermal (fun t =>
        { t with dropped := true, estimates := [], d := [], energy := [], pauses := [], blind := [] })) := by
  have hgo : (d.written || decide (d.at' + ms 20 ≤ s.now)) = true := by
    rw [Bool.or_eq_true, decide_eq_true_eq]
    exact hdue
  change execShutdownRailDrop s = _
  simp only [execShutdownRailDrop, hd, State.latchStands_of_latch hd, hstands, hon, hgo, Bool.not_false, Bool.and_self,
    if_true]

theorem exec_shutdownRailDrop_of_early (hw : d.written = false) (hearly : s.now < d.at' + 20000000) :
    exec .shutdownRailDrop s = .next s := by
  have hno : (d.written || decide (d.at' + ms 20 ≤ s.now)) = false := by
    rw [hw, Bool.false_or, decide_eq_false (show ¬d.at' + ms 20 ≤ s.now from Nat.not_le.mpr hearly)]
  change execShutdownRailDrop s = _
  simp only [execShutdownRailDrop, hd, hno, Bool.and_false, Bool.false_eq_true, if_false]

/-! ## The ports drop (step 5) -/

theorem exec_shutdownPortDrop_of_due (hstands : d.cleared = false) (hdrop : s.thermal.dropped = true)
    (hser : s.clusters.any (fun h => (s.railsOf h).vser) = true) (hdue : d.at' + 1000000000 ≤ s.now) :
    ∃ t : State, exec .shutdownPortDrop s = .next t ∧ t.seam.mods = [] ∧ t.far.linkUp = false ∧ t.trust.loaded = false
      ∧ t.links.nodeId = none := by
  have hgo : decide (d.at' + ms 1000 ≤ s.now) = true := decide_eq_true hdue
  change ∃ t : State, execShutdownPortDrop s = .next t ∧ _
  simp only [execShutdownPortDrop, hd, State.latchStands_of_latch hd, hstands, hdrop, hser, hgo, Bool.not_false,
    Bool.and_self, if_true]
  exact ⟨_, rfl, rfl, rfl, rfl, rfl⟩

theorem exec_shutdownPortDrop_of_early (hearly : s.now < d.at' + 1000000000) : exec .shutdownPortDrop s = .next s := by
  have hno : decide (d.at' + ms 1000 ≤ s.now) = false := decide_eq_false (Nat.not_le.mpr hearly)
  change execShutdownPortDrop s = _
  simp only [execShutdownPortDrop, hd, hno, Bool.and_false, Bool.false_eq_true, if_false]

end

/-! ## The cold pitch after THERMAL_CLEAR -/

section
variable {s : State} {tag t : Nat} (hc : s.lantern.clearing = some (tag, t))
include hc

theorem exec_thermalClearPitchStart_of_ready (h : s.recordGone tag = true ∨ t + 2000000 ≤ s.now) :
    exec .thermalClearPitchStart s = .next (settle s (s.dropForCold false)) := by
  have hgo : (s.recordGone tag || decide (t + ms 2 ≤ s.now)) = true := by
    rw [Bool.or_eq_true, decide_eq_true_eq]
    exact h
  change execThermalClearPitchStart s = _
  simp only [execThermalClearPitchStart, hc, hgo, if_true]

theorem exec_thermalClearPitchStart_of_recordWaiting (hrec : s.recordGone tag = false) (hearly : s.now < t + 2000000) :
    exec .thermalClearPitchStart s = .next s := by
  have hno : (s.recordGone tag || decide (t + ms 2 ≤ s.now)) = false := by
    rw [hrec, Bool.false_or, decide_eq_false (show ¬t + ms 2 ≤ s.now from Nat.not_le.mpr hearly)]
  change execThermalClearPitchStart s = _
  simp only [execThermalClearPitchStart, hc, hno, Bool.false_eq_true, if_false]

end

/-- Settles O39: what a shutdown latches survives the count of wear and the record; each later step comes down to its one
equation, at its time and before it. -/
theorem shutdowns : Obligations.Shutdowns := by
  refine ⟨fun s cause est point temp h => ?_, fun _ est point temp h => State.shutdown_of_latchStands h est point temp,
    fun s d hd hstands hon hdue => ?_, fun _ _ => exec_shutdownRailDrop_of_early, fun _ _ => exec_shutdownPortDrop_of_due,
    fun _ _ => exec_shutdownPortDrop_of_early, fun _ _ _ => exec_thermalClearPitchStart_of_ready,
    fun _ _ _ => exec_thermalClearPitchStart_of_recordWaiting⟩
  · obtain ⟨hlatch, hlevel⟩ := State.shutdown_latch_clLevel h cause est point temp
    refine ⟨_, hlatch, rfl, rfl, rfl, fun hc => ?_, hlevel⟩
    subst hc
    exact ⟨rfl, rfl, rfl, rfl⟩
  · have hexec := exec_shutdownRailDrop_of_due hd hstands hon hdue
    exact ⟨_, hexec, rfl, rfl, rfl, fun hw => if_pos hw, fun he => if_pos he, execShutdownRailDrop_only s _ hexec⟩

end Sys2Proof.Machine
end

section
/-! PROOF. Polls of the tray sensor bus and the calorimetric check (11_heat_path.md R313, R314, R316,
17_module_electrical.md R482). -/

namespace Sys2Proof.Machine

open Sys2Proof

/-! ## Polls -/

section
variable {s : State} {h : Fin 2}

theorem exec_trayPoll_of_due (hon : s.lanternHalf h = true) (hdue : s.pollDue h = true) (r : TrayReply) :
    exec (.trayPoll h r) s = .next (settle s ((s.setThermal (fun x =>
      { x with lastPoll := put x.lastPoll h s.now, lostPoll := del x.lostPoll h })).endPoll h r)) := by
  change execTrayPoll h r s = _
  rw [execTrayPoll, hon, hdue, Bool.and_self, if_pos rfl]

theorem exec_trayPoll_of_notDue (hdue : s.pollDue h = false) (r : TrayReply) : exec (.trayPoll h r) s = .next s := by
  change execTrayPoll h r s = _
  rw [execTrayPoll, hdue, Bool.and_false, if_neg Bool.false_ne_true]

section
variable {t : Nat} (hlost : look? s.thermal.lostPoll h = some t)
include hlost

theorem exec_trayPollRetry_of_due (hon : s.lanternHalf h = true) (hdue : t + 200000 ≤ s.now) (r : TrayReply) :
    exec (.trayPollRetry h r) s
      = .next (settle s ((s.setThermal (fun x => { x with lostPoll := del x.lostPoll h })).endPoll h r)) := by
  have hgo : decide (t + us 200 ≤ s.now) = true := decide_eq_true hdue
  change execTrayPollRetry h r s = _
  simp only [execTrayPollRetry, hlost, hon, hgo, Bool.and_self, if_true]

theorem exec_trayPollRetry_of_early (hearly : s.now < t + 200000) (r : TrayReply) :
    exec (.trayPollRetry h r) s = .next s := by
  have hno : decide (t + us 200 ≤ s.now) = false := decide_eq_false (Nat.not_le.mpr hearly)
  change execTrayPollRetry h r s = _
  simp only [execTrayPollRetry, hlost, hno, Bool.and_false, Bool.false_eq_true, if_false]

end

end

/-! ## Replies -/

theorem State.endPoll_of_badChecksum {b : List Byte} (h : trayValid b = false) (s : State) (half : Nat) :
    s.endPoll half (.bytes b) = s.endPoll half .silent :=
  if_neg (by simp [h])

theorem State.actOnTray_of_heatOff {s : State} (h : s.heatOn = false) (poor : Bool) : s.actOnTray poor = s := by
  rw [actOnTray, h, Bool.not_false, if_pos rfl]

/-- The poll without a reply is counted, and no reading has stayed hot. -/
def State.countMiss (s : State) : State :=
  s.setThermal (fun h => { h with missed := h.missed + 1, hotInlet := 0, hotOutlet := 0 })

/-- The third poll in a row without a reply takes readings that are all missing (R313). -/
theorem State.missPoll_of_third {s : State} (h : 2 ≤ s.thermal.missed) :
    s.missPoll = (s.countMiss.takeTray { inlet := none, outlet := none, flow := none } false).actOnTray true :=
  if_pos (Nat.succ_le_succ h)

/-- Without the heat path the missing readings only come into force. -/
theorem State.missPoll_of_heatOff {s : State} (h : 2 ≤ s.thermal.missed) (hoff : s.heatOn = false) :
    s.missPoll = s.countMiss.takeTray { inlet := none, outlet := none, flow := none } false := by
  rw [missPoll_of_third h, actOnTray_of_heatOff]
  exact hoff

theorem State.suddenStop_of_noFlow {s : State} {t : Nat} {older : List (Nat × Nat)}
    (h : s.thermal.flows = (t, 0) :: older) : s.suddenStop = true := by
  rw [suddenStop, h]
  rfl

/-! ## The calorimetric check -/

/-- The difference of two numbers, the lower from the higher. -/
theorem ite_le_sub_eq_abs (x c : Rat) : (if c ≤ x then x - c else c - x) = |x - c| := by
  split
  · next h => exact (abs_of_nonneg (sub_nonneg.mpr h)).symm
  · next h => rw [abs_sub_comm, abs_of_pos (sub_pos.mpr (not_le.mp h))]

theorem exec_calorimetricCheck_of_off {s : State} {t f : Nat} {i o : Int} (ht : s.power.above25Since = some t)
    (hi : s.thermal.inlet = some i) (ho : s.thermal.outlet = some o) (hf : s.thermal.flow = some f)
    (hon : s.heatOn = true) (hlate : t + 10000000000 ≤ s.now) (hpos : 0 < f)
    (hoff : 3 + s.calRise f * 3 / 10 < |deg (o - i) - s.calRise f|) :
    exec .calorimetricCheck s = .next ((s.setThermal (fun h => { h with coolantSensor := true })).postArgs 0x0206 s.lead 1
      (ofInt 16 i + 65536 * ofInt 16 o + 2 ^ 32 * f) (ofInt 64 (s.calRise f * 16).floor) 0) := by
  have hgo : decide (t + ms 10000 ≤ s.now) = true := decide_eq_true hlate
  change execCalorimetricCheck s = _
  simp only [execCalorimetricCheck, ht, hi, ho, hf, hon, hgo, ite_le_sub_eq_abs, hpos, hoff, decide_true, Bool.and_self,
    if_true]

theorem exec_calorimetricCheck_of_lowPower {s : State} (h : s.power.above25Since = none) :
    exec .calorimetricCheck s = .next s := by
  change execCalorimetricCheck s = _
  simp only [execCalorimetricCheck, h]

/-- Settles O40: a poll and its retry come down to one equation at their time and none before it; the third miss is the
taking of three missing readings, which without the heat path has no further effect. -/
theorem trayPolls : Obligations.TrayPolls :=
  ⟨fun _ _ r hon hdue => exec_trayPoll_of_due hon hdue r, fun _ _ r hdue => exec_trayPoll_of_notDue hdue r,
    fun _ _ r _ hlost hon hdue => exec_trayPollRetry_of_due hlost hon hdue r,
    fun _ _ r _ hlost hearly => exec_trayPollRetry_of_early hlost hearly r,
    fun s half _ h => State.endPoll_of_badChecksum h s half, fun _ _ => rfl,
    fun _ h hoff => ⟨_, State.missPoll_of_heatOff h hoff, rfl, rfl, rfl, rfl, rfl⟩,
    fun _ _ _ => State.suddenStop_of_noFlow, fun _ _ _ _ _ => exec_calorimetricCheck_of_off,
    fun _ => exec_calorimetricCheck_of_lowPower⟩

end Sys2Proof.Machine
end

section
/-! PROOF. The commands on the Silman links and the transfers they begin (12_silman_and_seam.md R340, R345, R351 to R353,
R367, R368): one equation for each command with its parameters in range. -/

namespace Sys2Proof.Machine

open Sys2Proof

/-! ## Ports -/

/-- Two changes that agree on the port as it stands are one. -/
theorem State.setSl_congr {s : State} {n : Nat} {f g : SlPort → SlPort} (h : f (s.sl n) = g (s.sl n)) :
    s.setSl n f = s.setSl n g := by
  unfold setSl upd
  rw [show f (look s.links.ports n {}) = g (look s.links.ports n {}) from h]

theorem State.noSl_of_hasSl {s : State} {n : Nat} (hn : n < 18) (h : s.hasSl n = true) : s.noSl n = false := by
  rw [noSl, h, decide_eq_true hn]
  rfl

theorem State.dropKeys_present (s : State) (n : Nat) : ((s.dropKeys n).sl n).present = (s.sl n).present := by
  rw [dropKeys, setSl_sl]

section
variable {s u : State} {c : Fin 4} {k : Fin 1024} {a : Adm}

theorem exec_linkConfig_of_inRange (h : s.admission 0x0300 c k = some (u, a)) (hen : field a.b 24 4 < 2 ^ 18)
    (hpeer : field a.b 30 2 < 4096 ∨ field a.b 30 2 = 0xFFFF) (hroot : field a.b 32 1 ≤ 1) (hjoin : field a.b 33 1 ≤ 1)
    (hports : ∀ n, n < 18 → bit (field a.b 24 4) n = true → u.hasSl n = true) :
    exec (.linkConfig c k) s = .next (a.done ((List.range 18).foldl
      (fun (v : State) n => v.enableSl n (bit (field a.b 24 4) n)) (u.setSettings (fun x => { x with
        lkPortEn := BitVec.ofNat 18 (field a.b 24 4), lkDomain := BitVec.ofNat 16 (field a.b 28 2)
        lkPeerNode := BitVec.ofNat 16 (field a.b 30 2), lkFabricRoot := decide (field a.b 32 1 = 1)
        lkAutoJoin := decide (field a.b 33 1 = 1) })))) := by
  have hpass : (List.range 18).any (fun n => bit (field a.b 24 4) n && !u.hasSl n) = false := by
    rw [List.any_eq_false]
    intro n hn
    simpa using hports n (List.mem_range.mp hn)
  have hnode : ¬ (4096 ≤ field a.b 30 2 ∧ field a.b 30 2 ≠ 0xFFFF) := by omega
  change execLinkConfig c k s = _
  rw [execLinkConfig, State.serve_admission h, Adm.checked_of_pass]
  simp only [hpass, decide_eq_false (Nat.not_le.mpr hen)]
  simpa [hroot, hjoin] using hnode

/-- A KEYED port with its plug present trains again. -/
theorem exec_linkRetrain_of_keyed (h : s.admission 0x0303 c k = some (u, a)) (hn : field a.b 24 1 ≤ 17)
    (hp : u.hasSl (field a.b 24 1) = true) (hk : (u.sl (field a.b 24 1)).state = .keyed)
    (hplug : (u.sl (field a.b 24 1)).present = true) :
    exec (.linkRetrain c k) s = .next (a.done ((u.dropKeys (field a.b 24 1)).setSl (field a.b 24 1) (fun p =>
      { p with failedLanes := 0, step5 := false, kxFailedAt := none, peerPort := 0xFF, peerNode := 0xFFFF
               trainStart := u.now, state := .training }))) := by
  change execLinkRetrain c k s = _
  rw [execLinkRetrain, State.serve_admission h, Adm.checked_of_pass]
  · rw [State.setSl_congr]
    simp only [hk, State.dropKeys_present, hplug, if_true]
  · simp [hn, State.noSl_of_hasSl (Nat.lt_succ_of_le hn) hp]

theorem exec_linkRouteSet_of_inRange (h : s.admission 0x0302 c k = some (u, a)) (hid : field a.b 24 2 ≤ 4095)
    (hr : (field a.b 26 1 < 18 ∧ u.hasSl (field a.b 26 1) = true) ∨ field a.b 26 1 = 0x1E ∨ field a.b 26 1 = 0x1F) :
    exec (.linkRouteSet c k) s
      = .next (a.done (u.setLinks (fun l => { l with overrides := put l.overrides (field a.b 24 2) (field a.b 26 1) }))) := by
  change execLinkRouteSet c k s = _
  rw [execLinkRouteSet, State.serve_admission h, Adm.checked_of_pass]
  obtain ⟨hlt, hp⟩ | hlocal | hdiscard := hr
  · simp [hid, hlt, Nat.le_of_lt_succ hlt, State.noSl_of_hasSl hlt hp]
  · simp [hid, hlocal]
  · simp [hid, hdiscard]

section
variable (h : s.admission 0x0301 c k = some (u, a)) (hfull : field a.b 24 1 ≤ 1)
include h hfull

theorem exec_linkEnumerate_of_root (hroot : u.settings.lkFabricRoot = true) (hjob : u.links.job = none)
    (htag : u.links.enumTag = none) :
    exec (.linkEnumerate c k) s = .next (u.startPass (decide (field a.b 24 1 = 1)) (some a.tag)) := by
  change execLinkEnumerate c k s = _
  rw [execLinkEnumerate, State.serve_admission h, Adm.checked_of_pass]
  simp [hfull, hroot, hjob, htag]

theorem exec_linkEnumerate_of_notRoot (hroot : u.settings.lkFabricRoot = false) :
    exec (.linkEnumerate c k) s = .next (a.finish u { status := .rejectState, detail := 0x1FFFF }) := by
  change execLinkEnumerate c k s = _
  rw [execLinkEnumerate, State.serve_admission h, Adm.checked_of_fault _ (State.admission_code h ▸ by decide)]
  rw [hroot, decide_eq_false (Nat.not_lt.mpr hfull)]
  rfl

end

/-! ## LINK_GRANT -/

section
variable (h : s.admission 0x0304 c k = some (u, a)) (hi : field a.b 24 1 ≤ 15)
  (hnode : ¬ (4095 < field a.b 26 2 ∧ field a.b 26 2 ≠ 0xFFFF))
include h hi hnode

/-- Rights of 0 revoke the grant, whatever its range says. -/
theorem exec_linkGrant_of_revoke (hzero : field a.b 25 1 = 0) :
    exec (.linkGrant c k) s = .next (a.defer u
      (.grant (field a.b 24 1) 0 (BitVec.ofNat 16 (field a.b 26 2)) (field a.b 32 8) (field a.b 40 8))) := by
  change execLinkGrant c k s = _
  rw [execLinkGrant, State.serve_admission h, Adm.checked_of_pass]
  · simp [hzero]
  · simpa [hzero, hi] using hnode

theorem exec_linkGrant_of_noBytes (hr : field a.b 25 1 ≤ 3) (hset : field a.b 25 1 ≠ 0)
    (hbase : field a.b 32 8 % 4096 = 0) (hsize : field a.b 40 8 = 0) :
    exec (.linkGrant c k) s = .next (a.finish u { status := .doneEmpty }) := by
  change execLinkGrant c k s = _
  rw [execLinkGrant, State.serve_admission h, Adm.checked_of_pass]
  · simp [hset, hsize]
  · simpa [hset, hbase, hsize, hi, hr] using hnode

theorem exec_linkGrant_of_range (hr : field a.b 25 1 ≤ 3) (hset : field a.b 25 1 ≠ 0)
    (hbase : field a.b 32 8 % 4096 = 0) (hmul : field a.b 40 8 % 4096 = 0) (hsize : 0 < field a.b 40 8)
    (hend : field a.b 32 8 + field a.b 40 8 ≤ farBase)
    (hreach : u.reachableRange (field a.b 32 8) (field a.b 40 8) = true)
    (hpool : u.rangeInPool (field a.b 32 8) (field a.b 40 8) = false) (hopen : u.trust.ranges = []) :
    exec (.linkGrant c k) s = .next (a.defer u (.grant (field a.b 24 1) (BitVec.ofNat 8 (field a.b 25 1))
      (BitVec.ofNat 16 (field a.b 26 2)) (field a.b 32 8) (field a.b 40 8))) := by
  change execLinkGrant c k s = _
  rw [execLinkGrant, State.serve_admission h, Adm.checked_of_pass]
  · simp [hsize.ne', State.sealedAgainst_of_no_ranges hopen]
  · simpa [hset, hbase, hmul, hend, hreach, hpool, hi, hr] using hnode

end

theorem exec_linkStatusRead_of_inRange (h : s.admission 0x0310 c k = some (u, a)) (hc : c.val < 2)
    (haddr : field a.b 24 8 % 64 = 0) (hlen : field a.b 32 2 ≤ 896) :
    exec (.linkStatusRead c k) s
      = .next (a.readOut u (field a.b 32 2) (field a.b 24 8) (u.linkStatus.take (field a.b 32 2))) := by
  change execLinkStatusRead c k s = _
  rw [execLinkStatusRead, State.serve_admission h, Adm.checked_of_pass]
  · rfl
  · simp [Adm.noPort_of_hostPort (Adm.ctrl_lt_two_of_admission h hc), haddr, hlen]

/-! ## LINK_COPY -/

/-- The transfer that LINK_COPY begins: its fields name it, and nothing of it has moved. -/
def Adm.copyXfer (a : Adm) (s : State) : Xfer :=
  { num := s.links.nextXfer, tag := a.tag, get := decide (field a.b 24 1 = 1), cls := Fin.ofNat 3 (field a.b 25 1)
    node := BitVec.ofNat 12 (field a.b 26 2), local' := field a.b 32 8, remote := field a.b 40 8, len := field a.b 48 8
    port := slPort (s.links.route (field a.b 26 2)), doneBytes := 0, degraded := false, lastProgress := s.now }

section
variable (h : s.admission 0x0320 c k = some (u, a)) (hdir : field a.b 24 1 ≤ 1) (hcls : field a.b 25 1 ≤ 2)
  (hnode : field a.b 26 2 ≤ 4095) (hroute : u.links.route (field a.b 26 2) ≠ 0x1F)
  (hreach : u.reachableRange (field a.b 32 8) (field a.b 48 8) = true)
include h hdir hcls hnode hroute hreach

theorem exec_linkCopy_of_noBytes (hzero : field a.b 48 8 = 0) :
    exec (.linkCopy c k) s = .next (a.finish u { status := .doneEmpty }) := by
  change execLinkCopy c k s = _
  rw [execLinkCopy, State.serve_admission h, Adm.checked_of_pass]
  · exact congrArg _ (if_pos hzero)
  · simp [hdir, hcls, hnode, hroute, hzero ▸ hreach, hzero]

theorem exec_linkCopy_of_bytes (hlen : field a.b 48 8 ≤ 2 ^ 40) (hpos : 0 < field a.b 48 8)
    (hpool : u.rangeInPool (field a.b 32 8) (field a.b 48 8) = false) (hopen : u.trust.ranges = []) :
    exec (.linkCopy c k) s = .next ((u.setLinks (fun l =>
      { l with nextXfer := l.nextXfer + 1, xfers := l.xfers ++ [a.copyXfer u] })).sendXfer (a.copyXfer u) 0
        ((field a.b 48 8 + 255) / 256)) := by
  change execLinkCopy c k s = _
  rw [execLinkCopy, State.serve_admission h, Adm.checked_of_pass]
  · simp only [if_neg hpos.ne', State.sealedAgainst_of_no_ranges hopen, Bool.false_eq_true, if_false]
    rfl
  · simp only [decide_eq_false (Nat.not_lt.mpr hlen)]
    simp [hdir, hcls, hnode, hroute, hreach, hpool]

end

end

section
variable {s : State} {n : BitVec 16} {x : Xfer} (hx : s.xfer n = some x)
include hx

theorem exec_linkCopyTimeout_of_due (hdue : x.lastProgress + 10000000 ≤ s.now) (hleft : x.doneBytes < x.len) :
    exec (.linkCopyTimeout n) s = .next (s.endXfer x x.down) := by
  change execLinkCopyTimeout n s = _
  simp only [execLinkCopyTimeout, hx]
  exact congrArg Host.Outcome.next (if_pos ⟨hdue, hleft⟩)

theorem exec_linkCopyTimeout_of_early (hearly : s.now < x.lastProgress + 10000000) :
    exec (.linkCopyTimeout n) s = .next s := by
  change execLinkCopyTimeout n s = _
  simp only [execLinkCopyTimeout, hx]
  exact congrArg Host.Outcome.next (if_neg fun hdue => Nat.not_le.mpr hearly hdue.1)

end

/-- Settles O44: each command comes down to its one equation; LINK_ENUMERATE divides by the root's setting, LINK_GRANT by its
rights and its size, LINK_COPY by its length, and the timeout of a transfer by its time. -/
theorem linkCommands : Obligations.LinkCommands := by
  refine ⟨fun s u c k a => ⟨exec_linkConfig_of_inRange, exec_linkRetrain_of_keyed, exec_linkRouteSet_of_inRange,
    fun h hfull => ⟨exec_linkEnumerate_of_root h hfull, exec_linkEnumerate_of_notRoot h hfull⟩,
    fun h hi hr hnode => ⟨exec_linkGrant_of_revoke h hi (by omega), exec_linkGrant_of_noBytes h hi (by omega) hr,
      exec_linkGrant_of_range h hi (by omega) hr⟩,
    fun h hc haddr hpos hlen hup => ?_, fun h hdir hcls hnode hlen hroute hreach =>
      ⟨exec_linkCopy_of_noBytes h hdir hcls hnode hroute hreach, fun hpos hpool hopen =>
        ⟨a.copyXfer u, rfl, rfl, rfl, rfl, rfl, rfl, rfl, rfl, rfl,
          exec_linkCopy_of_bytes h hdir hcls hnode hroute hreach hlen hpos hpool hopen⟩⟩⟩,
    fun s n x hx => ⟨exec_linkCopyTimeout_of_due hx, exec_linkCopyTimeout_of_early hx⟩⟩
  have hctrl : a.ctrl = c := (State.admission_adm h).1
  rw [exec_linkStatusRead_of_inRange h (Nat.lt_succ_of_le hc) haddr hlen,
    Adm.readOut_of_linkUp _ _ _ hpos (hctrl ▸ hup), hctrl]

end Sys2Proof.Machine
end

section
/-! PROOF. Presence, training, lanes and the flits of a Silman link itself (12_silman_and_seam.md R328 to R335,
17_module_electrical.md R469): one equation for each event in each case of the port's state. -/

namespace Sys2Proof.Machine

open Sys2Proof

/-! ## Presence -/

section
variable {s : State} {p : Fin 18}

/-- A port whose plug is lost after training goes DOWN as if every lane had failed. -/
theorem exec_silmanPresenceChange_lost_of_trained (h : (s.sl p).state = .keyed ∨ (s.sl p).state = .upClear) :
    exec (.silmanPresenceChange p false) s = .next ((((s.setSl p (fun x => { x with present := false })).dropKeys p).setSl p
      (fun x => { x with state := .down, failedLanes := 0xF })).setLanes p 0 2) := by
  change execSilmanPresenceChange p false s = _
  obtain h | h := h <;> simp only [execSilmanPresenceChange, h, Bool.false_eq_true, if_false]

theorem exec_silmanPresenceChange_lost_of_training (h : (s.sl p).state = .training) :
    exec (.silmanPresenceChange p false) s
      = .next ((s.setSl p (fun x => { x with present := false })).setSl p (fun x => { x with state := .down })) := by
  change execSilmanPresenceChange p false s = _
  simp only [execSilmanPresenceChange, h, Bool.false_eq_true, if_false]

theorem exec_silmanPresenceChange_lost_of_idle
    (h : (s.sl p).state = .down ∨ (s.sl p).state = .disabled ∨ (s.sl p).state = .failed) :
    exec (.silmanPresenceChange p false) s = .next (s.setSl p (fun x => { x with present := false })) := by
  change execSilmanPresenceChange p false s = _
  obtain h | h | h := h <;> simp only [execSilmanPresenceChange, h, Bool.false_eq_true, if_false]

/-! ## Training -/

theorem exec_partnerDetect_of_twoLanes {n : Nat} (hp : s.hasSl p = true) (h8 : s.lantern.stage8 = true)
    (hd : (s.sl p).state = .down) (hplug : (s.sl p).present = true) (hok : (s.sl p).failedLanes ≠ 0xF) (hn : 2 ≤ n) :
    exec (.partnerDetect p n) s
      = .next (s.setSl p (fun x =>
          { x with state := .training, trainStart := s.now, peerPort := 0xFF, peerNode := 0xFFFF })) := by
  change execPartnerDetect p n s = _
  exact congrArg Host.Outcome.next (if_pos (by simpa [hp, h8, hd, hplug, hn] using hok))

theorem exec_partnerDetect_of_oneLane {n : Nat} (hn : n < 2) : exec (.partnerDetect p n) s = .next s := by
  change execPartnerDetect p n s = _
  exact congrArg Host.Outcome.next (if_neg (by simp [Nat.not_le.mpr hn]))

/-- The port as training leaves it with usable lanes: fresh counters, no keys, and step 5 ahead (R329). -/
def SlPort.trained (x : SlPort) (good : BitVec 4) (q : Option (Fin 18)) : SlPort :=
  { x with
    state := .upClear, failedLanes := ~~~good, txSeq := 0, txUnseq := 0, rxNext := 0, replayBuf := [], waiting := [], owed := []
    badWords := [], credits := [(0, 16), (1, 128), (2, 128), (3, 64)], ackDue := false, keyPhase := false, linkKey := []
    oldKey := none, tagFailTimes := [], kx := none, kxFailedAt := none, step5 := true, delayAt := none
    peerPort := (q.map (fun r => BitVec.ofNat 8 r.val)).getD 0xFF }

/-- Training chose `w` lanes on port `n`: after READY a change of width is an event (R330). -/
def State.takeWidth (s t : State) (n w : Nat) : State :=
  if (s.sl n).lanes ≠ w ∧ s.ready = true then t.setLanes n w 3 else t.setSl n (fun x => { x with lanes := w })

section
variable (hp : s.hasSl p = true) (ht : (s.sl p).state = .training)
include hp ht

theorem exec_trainingComplete_of_lanes {good : BitVec 4} (q : Option (Fin 18)) (hw : lanesFor good ≠ 0) :
    exec (.trainingComplete p good q) s
      = .next ((s.takeWidth (s.setSl p (fun x => x.trained good q)) p (lanesFor good)).startKx p false) := by
  change execTrainingComplete p good q s = _
  refine congrArg Host.Outcome.next ((if_neg (by simp [hp, ht])).trans ?_)
  cases q with
  | none => exact if_neg hw
  | some r => exact if_neg hw

theorem exec_trainingComplete_of_noLanes {good : BitVec 4} (q : Option (Fin 18)) (hw : lanesFor good = 0) :
    exec (.trainingComplete p good q) s
      = .next (s.takeWidth (s.setSl p (fun x => { x with state := .failed, failedLanes := ~~~good })) p (lanesFor good)) := by
  change execTrainingComplete p good q s = _
  exact congrArg Host.Outcome.next ((if_neg (by simp [hp, ht])).trans (if_pos hw))

theorem exec_trainingOverrun_of_late (hlate : (s.sl p).trainStart + 150000000 ≤ s.now) :
    exec (.trainingOverrun p) s = .next (s.setSl p (fun x => { x with trainStart := s.now })) := by
  have hdue : decide ((s.sl p).trainStart + ms 150 ≤ s.now) = true := decide_eq_true hlate
  change execTrainingOverrun p s = _
  rw [execTrainingOverrun, if_pos (by simp [hp, ht, hdue])]

end

theorem exec_trainingOverrun_of_early (hearly : s.now < (s.sl p).trainStart + 150000000) :
    exec (.trainingOverrun p) s = .next s := by
  have hdue : decide ((s.sl p).trainStart + ms 150 ≤ s.now) = false := decide_eq_false (Nat.not_le.mpr hearly)
  change execTrainingOverrun p s = _
  rw [execTrainingOverrun, if_neg (by simp [hdue])]

/-! ## Lanes -/

/-- The lanes of the port that have failed, with one more. -/
def SlPort.failedWith (x : SlPort) (l : Fin 4) : BitVec 4 := x.failedLanes ||| BitVec.ofNat 4 (1 <<< l.val)

/-- The port notes a failing lane: its path delay and its bad codewords are measured anew. -/
def State.noteLane (s : State) (n : Nat) (l : Fin 4) : State :=
  s.setSl n (fun x => { x with failedLanes := (s.sl n).failedWith l, delayAt := none, badWords := [] })

theorem SlPort.failedWith_eq (x : SlPort) (l : Fin 4) : x.failedLanes ||| (1 <<< l.val) = x.failedWith l := by
  fin_cases l <;> rfl

theorem SlPort.active_of_fourLanes {x : SlPort} (h : x.lanes = 4) (l : Nat) : x.active l = true := by
  rw [active, decide_eq_true h, Bool.true_or]

section
variable (hp : s.hasSl p = true) (hk : (s.sl p).state = .keyed) (hfour : (s.sl p).lanes = 4) (h5 : (s.sl p).step5 = false)
  (l : Fin 4)
include hp hk hfour h5

theorem exec_laneFailing_of_fourLanes :
    exec (.laneFailing p l) s = .next (if lanesFor (~~~((s.sl p).failedWith l)) = 0 then
        (((s.noteLane p l).dropKeys p).setSl p (fun x => { x with state := .failed })).setLanes p 0 1
      else ((s.noteLane p l).setSl p (fun x => { x with state := .keyed })).setLanes p
        (lanesFor (~~~((s.sl p).failedWith l))) 1) := by
  change execLaneFailing p l s = _
  simp only [execLaneFailing, State.slLaneFails, hp, hk, h5, hfour, SlPort.active_of_fourLanes hfour, SlPort.failedWith_eq,
    Bool.not_true, Bool.false_eq_true, if_false, if_true]
  rfl

end

/-! ## The flits of the link itself -/

theorem exec_flitIdle_of_accepted {t : State} {h : FlitHdr} (ha : s.accepted p h .idle = some t) :
    exec (.flitIdle p h) s = .next t :=
  congrArg Host.Outcome.next (State.rx_accepted ha id)

section
variable {t : State} {h : FlitHdr} (ha : s.accepted p h .fc = some t) (n : BitVec 32) (cr : Credits)
include ha

theorem exec_fcAcknowledge_of_accepted :
    exec (.fcAcknowledge p h n cr) s = .next ((t.setSl p (fun x => (x.release n.toNat (2 ^ 32)).credit4 cr)).drainTx p) :=
  congrArg Host.Outcome.next (State.rx_accepted ha _)

theorem exec_fcReplayRequest_of_accepted :
    exec (.fcReplayRequest p h n cr) s
      = .next (((t.setSl p (fun x => (x.release n.toNat (2 ^ 32)).credit4 cr)).replay p).drainTx p) :=
  congrArg Host.Outcome.next (State.rx_accepted ha _)

end

theorem exec_fcAckTimer_of_due (hp : s.kxAble p = true) (hdue : (s.sl p).ackDue = true ∨ (s.sl p).owed ≠ []) :
    exec (.fcAckTimer p) s = .next (s.sendAck p) := by
  change execFcAckTimer p s = _
  rw [execFcAckTimer, if_pos (by simpa [hp] using hdue)]

theorem exec_fcAckTimer_of_nothingDue (hack : (s.sl p).ackDue = false) (howed : (s.sl p).owed = []) :
    exec (.fcAckTimer p) s = .next s := by
  change execFcAckTimer p s = _
  rw [execFcAckTimer, if_neg (by simp [hack, howed])]

/-! ## Codewords -/

/-- The times of the uncorrectable codewords of a lane within the last millisecond, with one that comes now. -/
def State.badTimes (s : State) (n : Nat) (l : Fin 4) : List Nat :=
  s.now :: (look (s.sl n).badWords l.val []).filter (fun t => decide (s.now < t + 1000000))

/-- A codeword is counted, and what it lost asked for again (R327, R334). -/
def State.countBad (s : State) (n : Nat) (l : Fin 4) : State :=
  (s.setSl n (fun x =>
    { x with fecUncorr := satSucc x.fecUncorr, badWords := put x.badWords l.val (s.badTimes n l) })).askReplay n

section
variable {l : Fin 4} (hp : s.kxAble p = true) (hl : (s.sl p).active l = true)
include hp hl

theorem exec_uncorrectableCodeword_of_few (hfew : (s.badTimes p l).length ≤ 16) :
    exec (.uncorrectableCodeword p l) s = .next (s.countBad p l) := by
  change execUncorrectableCodeword p l s = _
  rw [execUncorrectableCodeword, if_pos (by rw [hp, hl, Bool.and_self])]
  exact congrArg Host.Outcome.next (if_neg (Nat.not_lt.mpr hfew))

/-- The 17th within the millisecond is a failing lane (R330). -/
theorem exec_uncorrectableCodeword_of_many (hmany : 16 < (s.badTimes p l).length) :
    exec (.uncorrectableCodeword p l) s = exec (.laneFailing p l) (s.countBad p l) := by
  change execUncorrectableCodeword p l s = _
  rw [execUncorrectableCodeword, if_pos (by rw [hp, hl, Bool.and_self])]
  exact congrArg Host.Outcome.next (if_pos hmany)

end

theorem exec_uncorrectableCodeword_of_inactive {l : Fin 4} (hl : (s.sl p).active l = false) :
    exec (.uncorrectableCodeword p l) s = .next s := by
  change execUncorrectableCodeword p l s = _
  rw [execUncorrectableCodeword, if_neg (by simp [hl])]

/-! ## Reserved flits -/

/-- How a flit of a reserved type is received: an ENUM flit of a reserved kind is sequenced, of any other the header is not
heeded. -/
def reservedAs (ty : BitVec 4) : FlitKind :=
  match ty.toNat with
  | 4 => .enum false
  | 6 => { FlitKind.delay with unheeded := true }
  | _ => { FlitKind.fc with unheeded := true }

theorem reservedAs_of_other {ty : BitVec 4} (h4 : ty ≠ 4) (h6 : ty ≠ 6) :
    reservedAs ty = { FlitKind.fc with unheeded := true } := by
  unfold reservedAs
  split
  · next h => exact absurd (BitVec.eq_of_toNat_eq h) h4
  · next h => exact absurd (BitVec.eq_of_toNat_eq h) h6
  · rfl

section
variable {ty : BitVec 4} {k : BitVec 8} (hres : reservedFlit ty.toNat k.toNat = true)
include hres

theorem exec_reservedFlitType_of_accepted {t : State} {h : FlitHdr} (hty : ty ≠ 7)
    (ha : s.accepted p h (reservedAs ty) = some t) :
    exec (.reservedFlitType p h ty k) s = .next (t.setSl p (fun x => { x with drops := satSucc x.drops })) := by
  change execReservedFlitType p h ty k s = _
  rw [execReservedFlitType, if_neg (by simp [hres]), if_neg hty]
  exact congrArg Host.Outcome.next (State.rx_accepted ha _)

/-- A reserved KEY kind abandons the exchange under way (R417). -/
theorem exec_reservedFlitType_of_key {h : FlitHdr} {x : Kx} (hty : ty = 7) (hp : s.kxAble p = true) (hx : (s.sl p).kx = some x) :
    exec (.reservedFlitType p h ty k) s = .next (s.kxAgain p x) := by
  change execReservedFlitType p h ty k s = _
  rw [execReservedFlitType, if_neg (by simp [hres]), if_pos hty, State.keyArrives, if_pos hp, hx]

end

end

/-- Settles O45: each event comes down to its one equation; training divides by the lanes it leaves, a failing lane by the pair
left, a bad codeword by the count within the last millisecond, and a reserved flit by its type. -/
theorem portTraining : Obligations.PortTraining := by
  refine ⟨fun _ _ => rfl, fun _ _ => exec_silmanPresenceChange_lost_of_trained,
    fun _ _ => exec_silmanPresenceChange_lost_of_training, fun _ _ => exec_silmanPresenceChange_lost_of_idle,
    fun s p n hp h8 hd hplug hok => ⟨exec_partnerDetect_of_twoLanes hp h8 hd hplug hok, exec_partnerDetect_of_oneLane⟩,
    fun s u v p good q w hp ht hw hv => ⟨fun hlanes hu => ?_, fun hnone hu => ?_⟩,
    fun s p hp ht => ⟨exec_trainingOverrun_of_late hp ht, exec_trainingOverrun_of_early⟩,
    fun s u p l w hp hk hfour h5 hw hu => ⟨fun hpair => ?_, fun hnone => ?_⟩, fun s t p h => exec_flitIdle_of_accepted,
    fun s t p h n cr ha => ⟨exec_fcAcknowledge_of_accepted ha n cr, exec_fcReplayRequest_of_accepted ha n cr⟩,
    fun s p => exec_fcAckTimer_of_due, fun s p => exec_fcAckTimer_of_nothingDue,
    fun s u p l b hp hl hb hu => ⟨fun hfew => ?_, fun hmany => ?_⟩, fun s p l => exec_uncorrectableCodeword_of_inactive,
    fun s t p h ty k hres => ⟨fun h7 h6 h4 ha => ?_, ?_, ?_, fun x => exec_reservedFlitType_of_key hres⟩,
    fun s p h => rfl⟩
  · subst hu hw hv
    exact exec_trainingComplete_of_lanes hp ht q hlanes
  · subst hu hw hv
    exact exec_trainingComplete_of_noLanes hp ht q hnone
  · subst hu hw
    exact (exec_laneFailing_of_fourLanes hp hk hfour h5 l).trans (congrArg Host.Outcome.next (if_neg hpair))
  · subst hu hw
    exact (exec_laneFailing_of_fourLanes hp hk hfour h5 l).trans (congrArg Host.Outcome.next (if_pos hnone))
  · subst hu hb
    exact exec_uncorrectableCodeword_of_few hp hl hfew
  · subst hu hb
    exact exec_uncorrectableCodeword_of_many hp hl hmany
  · exact exec_reservedFlitType_of_accepted hres h7 (reservedAs_of_other h4 h6 ▸ ha)
  · rintro rfl ha
    exact exec_reservedFlitType_of_accepted hres (by decide) ha
  · rintro rfl ha
    exact exec_reservedFlitType_of_accepted hres (by decide) ha

end Sys2Proof.Machine
end

section
/-! PROOF. Enumeration and the path-delay exchange (12_silman_and_seam.md R340 to R343, R349): one equation for each message
and each timer in each case of the token, the pending numbers and the exchange. -/

namespace Sys2Proof.Machine

open Sys2Proof

/-! ## The token -/

theorem State.handleToken_of_unnumbered {s : State} {j : TokenJob} (hid : s.links.idIn j.epoch = none) (hroom : j.next < 4096) :
    s.handleToken j = (s.takeId j).passToken { j with next := j.next + 1 } := by
  rw [handleToken, hid]
  exact if_neg (Nat.not_le.mpr hroom)

/-- An unnumbered node hears its distance from the root with the token (R341). -/
def State.hearHops (s : State) (m : EnumMsg) : State := s.setLinks (fun l => { l with hops := m.hops.toNat + 1 })

theorem State.hearHops_idIn (s : State) (m : EnumMsg) (epoch : BitVec 32) :
    (s.hearHops m).links.idIn epoch = s.links.idIn epoch := rfl

/-- The node takes the token's next ID and passes the token on. -/
def State.takeToken (s : State) (p : Fin 18) (now : Nat) (m : EnumMsg) : State :=
  (s.takeId (tokenJob p now m)).passToken { tokenJob p now m with next := m.next.toNat + 1 }

section
variable {s t : State} {p : Fin 18} {h : FlitHdr} {m : EnumMsg}

section
variable (ha : s.accepted p h (.enum true) = some t)
include ha

theorem exec_enumToken_of_elsewhere (helse : t.links.elsewhere m.domain = true) :
    exec (.enumToken p h m) s = .next ((t.setSl p (fun x => { x with role := .boundary, peerNode := m.node })).sendEnum p 4 false
      t.links.domain m.epoch m.next.toNat t.links.ownNumber) := by
  change execEnumToken p h m s = _
  rw [execEnumToken, State.rx_accepted ha, if_pos helse]

section
variable (helse : t.links.elsewhere m.domain = false)
include helse

/-- A node numbered in the epoch that hears the token on another port than its upstream is on a cross link. -/
theorem exec_enumToken_of_numbered {id : BitVec 12} (hid : t.links.idIn m.epoch = some id)
    (hup : t.links.upIn m.epoch ≠ some p.val) :
    exec (.enumToken p h m) s = .next ((t.setSl p (fun x => { x with role := .cross, peerNode := m.node })).sendEnum p 3 false
      m.domain m.epoch m.next.toNat id.toNat) := by
  change execEnumToken p h m s = _
  rw [execEnumToken, State.rx_accepted ha, if_neg (Bool.not_eq_true _ ▸ helse)]
  simp only [hid, if_neg hup]

theorem exec_enumToken_of_unnumbered (hid : t.links.idIn m.epoch = none) (hroom : m.next.toNat < 4096)
    (hover : ((t.hearHops m).takeToken p t.now m).links.overflow = false) :
    exec (.enumToken p h m) s
      = .next (((t.hearHops m).takeToken p t.now m).setSl p (fun x => { x with peerNode := m.node, role := .upstream })) := by
  have htoken : (t.hearHops m).handleToken (tokenJob p t.now m) = (t.hearHops m).takeToken p t.now m :=
    State.handleToken_of_unnumbered (j := tokenJob p t.now m) (State.hearHops_idIn t m m.epoch ▸ hid) hroom
  change execEnumToken p h m s = _
  rw [execEnumToken, State.rx_accepted ha, if_neg (Bool.not_eq_true _ ▸ helse)]
  simp only [hid]
  rw [← State.hearHops, htoken, hover]
  rfl

end

end

/-! ## The answers -/

section
variable (ha : s.accepted p h (.enum false) = some t) {j : TokenJob} (hj : t.awaits p = some j)
include ha hj

theorem exec_enumReturn_of_abort (habort : m.abort = true) :
    exec (.enumReturn p h m) s = .next (t.finishToken { j with fault := some m.node }) := by
  change execEnumReturn p h m s = _
  rw [execEnumReturn, State.rx_accepted ha]
  simp only [hj, habort, if_true]

/-- A subtree with at least one node makes its port a downstream one. -/
theorem exec_enumReturn_of_subtree (habort : m.abort = false) (hsome : j.first < m.next.toNat) :
    exec (.enumReturn p h m) s
      = .next (((t.setSl p (fun x => { x with peerNode := m.node, role := .downstream })).setLinks
          (fun l => { l with pendingRoutes := routeIds l.pendingRoutes p j.first (m.next.toNat - j.first) })).passToken
          { j with next := m.next.toNat, awaiting := none }) := by
  have hpos : 0 < m.next.toNat - j.first := Nat.sub_pos_of_lt hsome
  change execEnumReturn p h m s = _
  rw [execEnumReturn, State.rx_accepted ha]
  simp only [hj, habort, hpos, true_or, Bool.false_eq_true, if_false, if_true]

theorem exec_enumCross_of_awaited :
    exec (.enumCross p h m) s = .next ((t.setSl p (fun x => { x with role := .cross, peerNode := m.node })).passToken
      { j with awaiting := none }) := by
  change execEnumCross p h m s = _
  rw [execEnumCross, State.rx_accepted ha, hj]

theorem exec_enumBoundary_of_awaited :
    exec (.enumBoundary p h m) s = .next ((t.setSl p (fun x => { x with role := .boundary, peerNode := m.node })).passToken
      { j with awaiting := none }) := by
  change execEnumBoundary p h m s = _
  rw [execEnumBoundary, State.rx_accepted ha, hj]

end

section
variable {j : TokenJob} (hj : s.awaits p = some j)
include hj

theorem exec_enumTimeout_of_late (hlate : j.sentAt + 100000000 ≤ s.now) :
    exec (.enumTimeout p) s = .next (s.finishToken { j with fault := some (BitVec.ofNat 16 s.links.ownNumber) }) := by
  change execEnumTimeout p s = _
  simp only [execEnumTimeout, hj]
  exact congrArg Host.Outcome.next (if_pos hlate)

theorem exec_enumTimeout_of_early (hearly : s.now < j.sentAt + 100000000) : exec (.enumTimeout p) s = .next s := by
  change execEnumTimeout p s = _
  simp only [execEnumTimeout, hj]
  exact congrArg Host.Outcome.next (if_neg (Nat.not_le.mpr hearly))

end

/-! ## Commit -/

/-- Without a downstream port there is none to forward to. -/
theorem State.foldl_downstream_of_none {t : State} {f : State → Nat → State} (l : List Nat)
    (hnone : ∀ k ∈ l, (t.sl k).role ≠ .downstream) :
    l.foldl (fun (v : State) n => if (v.sl n).role = .downstream then f v n else v) t = t := by
  induction l with
  | nil => rfl
  | cons k r ih =>
    rw [List.foldl_cons, if_neg (hnone k List.mem_cons_self)]
    exact ih fun x hx => hnone x (List.mem_cons_of_mem _ hx)

theorem exec_enumCommit_of_leaf (ha : s.accepted p h (.enum false) = some t) {i : BitVec 12} {n : Nat}
    (hid : t.links.pendingId = some (i, m.epoch, n)) (hnew : t.links.commitAt = none)
    (hleaf : ∀ k, k < 18 → (t.sl k).role ≠ .downstream) :
    exec (.enumCommit p h m) s = .next (t.setLinks (fun l => { l with commitAt := some (t.now, m.epoch) })) := by
  change execEnumCommit p h m s = _
  rw [execEnumCommit, State.rx_accepted ha,
    State.foldl_downstream_of_none _ fun k hk => hleaf k (List.mem_range.mp hk), hid, hnew]
  exact congrArg Host.Outcome.next (if_pos (by simp))

end

section
variable {s : State}

/-- What is pending in the committed epoch, in force (R342). -/
def State.inForce (s : State) (i : BitVec 12) (e : BitVec 32) : State :=
  s.setLinks (fun l => { l with
    nodeId := some i, domain := l.pendingDomain, epoch := e, pendingId := none, commitAt := none, overrides := []
    routes := put l.pendingRoutes i.toNat 0x1E, pendingRoutes := [], defaultRoute := l.pendingUp.getD 0x1F
    upstream := l.pendingUp.map slPort, pendingUp := none })

section
variable {t n : Nat} {e : BitVec 32} {i : BitVec 12} (hcommit : s.links.commitAt = some (t, e))
  (hid : s.links.pendingId = some (i, e, n))
include hcommit hid

theorem exec_commitTakeEffect_of_due (hb : s.atBoundary = true) (hdue : t + 1000000 ≤ s.now) :
    exec .commitTakeEffect s
      = .next (if s.links.nodeId = some i then s.inForce i e else (s.inForce i e).dropXfers).joinAgain := by
  have hms : decide (t + ms 1 ≤ s.now) = true := decide_eq_true hdue
  change execCommitTakeEffect s = _
  simp only [execCommitTakeEffect, hcommit, hid, hb, hms, decide_true, Bool.and_self, if_true]
  rfl

theorem exec_commitTakeEffect_of_early (hearly : s.now < t + 1000000) : exec .commitTakeEffect s = .next s := by
  have hms : decide (t + ms 1 ≤ s.now) = false := decide_eq_false (Nat.not_le.mpr hearly)
  change execCommitTakeEffect s = _
  simp only [execCommitTakeEffect, hcommit, hid, hms, Bool.and_false, Bool.false_and, Bool.false_eq_true, if_false]

end

section
variable {first last : Nat} (hflood : s.links.flood = some (first, last)) (hdue : last + 100000000 ≤ s.now)
include hflood hdue

theorem exec_commitFloodRepeat_of_within (hin : s.now ≤ first + 1000000000) :
    exec .commitFloodRepeat s = .next ((s.setLinks (fun l => { l with flood := some (first, s.now) })).floodCommit) := by
  change execCommitFloodRepeat s = _
  simp only [execCommitFloodRepeat, hflood]
  exact congrArg Host.Outcome.next ((if_pos hdue).trans (if_pos hin))

theorem exec_commitFloodRepeat_of_over (hover : first + 1000000000 < s.now) :
    exec .commitFloodRepeat s = .next (s.setLinks (fun l => { l with flood := none })) := by
  change execCommitFloodRepeat s = _
  simp only [execCommitFloodRepeat, hflood]
  exact congrArg Host.Outcome.next ((if_pos hdue).trans (if_neg (Nat.not_le.mpr hover)))

end

section
variable {tag first last : Nat} (htag : s.links.enumTag = some tag) (hflood : s.links.flood = some (first, last))
include htag hflood

theorem exec_linkEnumerateComplete_of_due (hdue : first + 1000000 ≤ s.now) :
    exec .linkEnumerateComplete s = .next ((s.setLinks (fun l => { l with enumTag := none })).endCmd tag
      { status := .done, result := BitVec.ofNat 64 s.links.nextFree }) := by
  change execLinkEnumerateComplete s = _
  simp only [execLinkEnumerateComplete, htag, hflood]
  exact congrArg Host.Outcome.next (if_pos hdue)

theorem exec_linkEnumerateComplete_of_early (hearly : s.now < first + 1000000) :
    exec .linkEnumerateComplete s = .next s := by
  change execLinkEnumerateComplete s = _
  simp only [execLinkEnumerateComplete, htag, hflood]
  exact congrArg Host.Outcome.next (if_neg (Nat.not_le.mpr hearly))

end

section
variable {i : BitVec 12} {e : BitVec 32} {t : Nat} (hid : s.links.pendingId = some (i, e, t))
include hid

theorem exec_pendingIdLapse_of_late (hnone : s.links.commitAt = none) (hlate : t + 1000000000 ≤ s.now) :
    exec .pendingIdLapse s
      = .next ((s.setLinks (fun l => { l with pendingId := none, pendingRoutes := [], pendingUp := none })).joinAgain) := by
  have hms : decide (t + ms 1000 ≤ s.now) = true := decide_eq_true hlate
  change execPendingIdLapse s = _
  simp only [execPendingIdLapse, hid, hnone, hms, Option.isNone_none, Bool.and_self, if_true]

theorem exec_pendingIdLapse_of_early (hearly : s.now < t + 1000000000) : exec .pendingIdLapse s = .next s := by
  have hms : decide (t + ms 1000 ≤ s.now) = false := decide_eq_false (Nat.not_le.mpr hearly)
  change execPendingIdLapse s = _
  simp only [execPendingIdLapse, hid, hms, Bool.and_false, Bool.false_eq_true, if_false]

end

/-! ## JOIN notices -/

theorem State.joinNoticed_of_idle (hauto : s.settings.lkAutoJoin = true) (hroot : s.links.root = true)
    (hjob : s.links.job = none) (hid : s.links.pendingId = none) : s.joinNoticed = s.startPass false s.links.enumTag := by
  simp only [joinNoticed, hauto, hroot, hjob, hid, Bool.and_self, Bool.not_true, Option.isSome_none, Bool.or_self,
    Bool.false_eq_true, if_false]

theorem State.joinNoticed_of_busy (hauto : s.settings.lkAutoJoin = true) (hroot : s.links.root = true)
    (hbusy : s.links.job.isSome = true ∨ s.links.pendingId.isSome = true) :
    s.joinNoticed = s.setLinks (fun l => { l with joinDue := true }) := by
  rw [joinNoticed, hauto, hroot, if_neg (by decide), if_pos (by simpa using hbusy)]

theorem State.joinNoticed_of_notRoot (h : s.settings.lkAutoJoin = false ∨ s.links.root = false) : s.joinNoticed = s := by
  rw [joinNoticed, if_pos]
  obtain hauto | hroot := h
  · rw [hauto, Bool.false_and, Bool.not_false]
  · rw [hroot, Bool.and_false, Bool.not_false]

theorem State.joinAgain_of_due (h : s.links.joinDue = true) :
    s.joinAgain = (s.setLinks (fun l => { l with joinDue := false })).joinNoticed := if_pos h

theorem State.joinAgain_of_notDue (h : s.links.joinDue = false) : s.joinAgain = s := if_neg (Bool.not_eq_true _ ▸ h)

/-- An accepted flit that is routed through another port goes on with one more hop (R345). -/
theorem State.rxRouted_forwarded {t : State} {n : Nat} {h : FlitHdr} (ha : s.accepted n h .routed = some t)
    (hr : t.links.route h.dst.toNat < 18) (hh : h.hops ≠ 63) (kind : BitVec 8) (msg : Option RemoteMsg) (bytes : List Byte)
    (act : State → State) :
    s.rxRouted n h kind msg bytes act
      = t.sendSeq (t.links.route h.dst.toNat) h.vc (.forwarded h.vc (h.hops + 1) h.src h.dst kind msg bytes) := by
  have hlocal : t.links.route h.dst.toNat ≠ 0x1E := by omega
  rw [rxRouted, State.rx_accepted ha, if_neg hlocal, if_pos ⟨hr, hh⟩]

section
variable {t : State} {p : Fin 18} {h : FlitHdr} (ha : s.accepted p h .routed = some t)
include ha

theorem exec_enumJoin_of_local (hr : t.links.route h.dst.toNat = 0x1E) :
    exec (.enumJoin p h) s = .next (if t.links.nodeId = some 0 then t.joinNoticed else t.slDrop p) :=
  congrArg Host.Outcome.next (State.rxRouted_accepted ha hr _ _ _ _)

theorem exec_enumJoin_of_forwarded (hr : t.links.route h.dst.toNat < 18) (hh : h.hops ≠ 63) :
    exec (.enumJoin p h) s
      = .next (t.sendSeq (t.links.route h.dst.toNat) h.vc (.forwarded h.vc (h.hops + 1) h.src h.dst 4 none [])) :=
  congrArg Host.Outcome.next (State.rxRouted_forwarded ha hr hh _ _ _ _)

end

/-! ## The path-delay exchange -/

section
variable {p : Fin 18} {t1 : BitVec 64}

theorem exec_delayExchangeStart_of_first (hp : s.hasSl p = true) (hk : (s.sl p).state = .keyed) (hasks : s.asksDelay p = true)
    (hnone : (s.sl p).delayAt = none) :
    exec (.delayExchangeStart p t1) s = .next ((s.setSl p (fun x =>
      { x with delayId := x.delayId + 1, delayT1 := some t1, delayAt := some s.now })).sendUnseq p
        (.delayReq ((s.sl p).delayId + 1) t1)) := by
  change execDelayExchangeStart p t1 s = _
  exact congrArg Host.Outcome.next (if_pos (by simp [hp, hk, hasks, hnone]))

theorem exec_delayExchangeStart_of_early {t : Nat} (hat : (s.sl p).delayAt = some t) (hearly : s.now < t + 100000000) :
    exec (.delayExchangeStart p t1) s = .next s := by
  have hms : decide (t + ms 100 ≤ s.now) = false := decide_eq_false (Nat.not_le.mpr hearly)
  change execDelayExchangeStart p t1 s = _
  exact congrArg Host.Outcome.next (if_neg (by rw [hat, Option.all_some, hms, Bool.and_false]; exact Bool.false_ne_true))

end

section
variable {t : State} {p : Fin 18} {h : FlitHdr} {m : DelayMsg} (ha : s.accepted p h .delay = some t)
include ha

theorem exec_delayReq_of_accepted (t2 t3 : BitVec 64) :
    exec (.delayReq p h m t2 t3) s = .next (t.sendUnseq p (.delayResp m.id m.t1 t2 t3)) :=
  congrArg Host.Outcome.next (State.rx_accepted ha _)

theorem exec_delayResp_of_last {t1 t4 : BitVec 64} (ht1 : (t.sl p).delayT1 = some t1) (hid : m.id = (t.sl p).delayId) :
    exec (.delayResp p h m t4) s
      = .next (t.setSl p (fun x => { x with delayT1 := none, delay := pathDelay t1 m.t2 m.t3 t4 })) := by
  change execDelayResp p h m t4 s = _
  rw [execDelayResp, State.rx_accepted ha]
  simp only [ht1, if_pos hid]

theorem exec_delayResp_of_other {t4 : BitVec 64} (hid : m.id ≠ (t.sl p).delayId) :
    exec (.delayResp p h m t4) s = .next t := by
  change execDelayResp p h m t4 s = _
  rw [execDelayResp, State.rx_accepted ha]
  cases ht1 : (t.sl p).delayT1 with
  | none => rfl
  | some t1 => simp only [if_neg hid]

end

end

/-- Settles O47: each message and each timer comes down to its one equation; a token divides by the number the node has in its
epoch, its answers by whether they abort, and a JOIN notice by where it is and what is under way. -/
theorem enumeration : Obligations.Enumeration := by
  refine ⟨fun s t p h m ha => ⟨exec_enumToken_of_elsewhere ha, fun id helse => exec_enumToken_of_numbered ha helse,
      fun u v helse hid hu hroom hv hover => ?_⟩,
    fun s t p h m j ha hj => ⟨exec_enumReturn_of_abort ha hj, exec_enumReturn_of_subtree ha hj, exec_enumCross_of_awaited ha hj,
      exec_enumBoundary_of_awaited ha hj⟩,
    fun s p j hj => ⟨exec_enumTimeout_of_late hj, exec_enumTimeout_of_early hj⟩,
    fun s t p h m i n ha => exec_enumCommit_of_leaf ha,
    fun s t n e i hcommit hid => ⟨fun hb hdue => ⟨s.inForce i e, rfl, exec_commitTakeEffect_of_due hcommit hid hb hdue⟩,
      exec_commitTakeEffect_of_early hcommit hid⟩,
    fun s first last hflood hdue => ⟨exec_commitFloodRepeat_of_within hflood hdue, exec_commitFloodRepeat_of_over hflood hdue⟩,
    fun s tag first last htag hflood =>
      ⟨exec_linkEnumerateComplete_of_due htag hflood, exec_linkEnumerateComplete_of_early htag hflood⟩,
    fun s i e t hid => ⟨exec_pendingIdLapse_of_late hid, exec_pendingIdLapse_of_early hid⟩,
    fun s t p h ha hr => ⟨fun hzero => ?_, fun hother => ?_⟩,
    fun s => ⟨State.joinNoticed_of_idle, State.joinNoticed_of_busy, State.joinNoticed_of_notRoot, State.joinAgain_of_due,
      State.joinAgain_of_notDue⟩,
    fun s t p h ha => exec_enumJoin_of_forwarded ha, fun s p t1 => exec_delayExchangeStart_of_first,
    fun s p t1 t => exec_delayExchangeStart_of_early,
    fun s t p h m t2 t3 t4 ha =>
      ⟨exec_delayReq_of_accepted ha t2 t3, fun t1 => exec_delayResp_of_last ha, exec_delayResp_of_other ha⟩⟩
  · have htaken : v = (t.hearHops m).takeToken p t.now m := by rw [hv, hu]; rfl
    rw [htaken] at hover ⊢
    exact exec_enumToken_of_unnumbered ha helse hid hroom hover
  · rw [exec_enumJoin_of_local ha hr, if_pos hzero]
  · rw [exec_enumJoin_of_local ha hr, if_neg hother]

end Sys2Proof.Machine
end

section
/-! PROOF. Remote memory and the frames of the peer (12_silman_and_seam.md R351 to R354): what the target does with a request
and the requester with a reply, and the flits that carry them to this node. -/

namespace Sys2Proof.Machine

open Sys2Proof

/-! ## The request at its target -/

section
variable {s : State} {src : Nat} {m : RemoteMsg}

/-- The answer to a message: its transfer, length, offset and address come back with a reason and bytes. -/
def answerTo (m : RemoteMsg) (reason : Nat) (bs : List Byte) : RemoteMsg :=
  mkMsg m.cls.toNat m.xfer reason m.len.toNat m.offset.toNat m.addr.toNat bs

/-- The message's range is granted to the node with a right (0 read, 1 write), and meets no pool and no sealed range. -/
structure State.Serves (s : State) (src right : Nat) (m : RemoteMsg) : Prop where
  granted : s.granted src right m.addr.toNat m.len.toNat = true
  noPool : s.rangeInPool m.addr.toNat m.len.toNat = false
  unsealed : s.trust.ranges = []

theorem State.serveRemote_of_noGrant {write : Bool}
    (hno : s.granted src (if write then 1 else 0) m.addr.toNat m.len.toNat = false
      ∨ s.rangeInPool m.addr.toNat m.len.toNat = true) :
    s.serveRemote src write m = (s, 5, answerTo m 1 []) := by
  rw [serveRemote, if_pos (by simpa using hno)]
  rfl

theorem State.serveRemote_of_write (hok : s.Serves src 1 m) {io : Io}
    (hio : s.store (remoteWho m.cls.toNat) m.addr.toNat (padTo m.data m.len.toNat) = io) (hstop : io.stop = none) :
    s.serveRemote src true m = (io.s, 4, answerTo m 0 []) := by
  simp only [serveRemote, if_true, hok.granted, hok.noPool, State.sealedAgainst_of_no_ranges hok.unsealed, hio, hstop,
    Bool.not_true, Bool.or_self, Bool.false_eq_true, if_false]
  rfl

theorem State.serveRemote_of_read (hok : s.Serves src 0 m) {bs : List Byte} {io : Io}
    (hio : s.load (remoteWho m.cls.toNat) m.addr.toNat m.len.toNat = (bs, io)) (hstop : io.stop = none) :
    s.serveRemote src false m = (io.s, 3, answerTo m 0 bs) := by
  simp only [serveRemote, hok.granted, hok.noPool, State.sealedAgainst_of_no_ranges hok.unsealed, hio, hstop, Bool.not_true,
    Bool.or_self, Bool.false_eq_true, if_false]
  rfl

/-- A message that must wait is kept behind those kept already. -/
def State.park (s : State) (src kind : Nat) (m : RemoteMsg) : State :=
  s.setLinks (fun l => { l with parked := l.parked ++ [(src, kind, m)] })

theorem State.orPark_of_waits {kind : Nat} (hw : s.msgWaits kind m = true) (act : State → State) :
    s.orPark src kind m act = s.park src kind m := if_pos hw

theorem State.orPark_of_free {kind : Nat} (hw : s.msgWaits kind m = false) (act : State → State) :
    s.orPark src kind m act = act s := if_neg (Bool.not_eq_true _ ▸ hw)

theorem State.requestArrives_of_served {kind k : Nat} {u : State} {r : RemoteMsg} (hw : s.msgWaits kind m = false)
    (hs : s.serveRemote src (decide (kind = 1)) m = (u, k, r)) : s.requestArrives src kind m = u.answer src k r := by
  rw [requestArrives, orPark_of_free hw, hs]

theorem State.answer_of_remote {n k : Nat} (hr : s.links.route n ≠ 0x1E) : s.answer n k m = s.sendData n 2 k m := if_neg hr

theorem State.answer_of_local {n k : Nat} (hr : s.links.route n = 0x1E) : s.answer n k m = s.replyArrives n k m := if_pos hr

/-! ## The reply at its requester -/

theorem State.takeReply_of_none (h : s.xfer m.xfer = none) (n : Nat) : s.takeReply src n m = s := by
  rw [takeReply, h]

section
variable {x : Xfer} (hx : s.xfer m.xfer = some x) (hsrc : x.node.toNat = src) (hin : m.offset.toNat + m.len.toNat ≤ x.len)
include hx hsrc hin

theorem State.takeReply_of_ack (hput : x.get = false) : s.takeReply src 4 m = s.progress x m.len.toNat false := by
  have hfits : ¬ (x.node.toNat ≠ src ∨ x.len < m.offset.toNat + m.len.toNat) := by omega
  simp only [takeReply, hx, if_neg hfits, hput, Bool.false_eq_true, if_false]

theorem State.takeReply_of_refuse : s.takeReply src 5 m = s.endXfer x (x.refused m) := by
  have hfits : ¬ (x.node.toNat ≠ src ∨ x.len < m.offset.toNat + m.len.toNat) := by omega
  simp only [takeReply, hx, if_neg hfits]

end

end

/-! ## The flits that carry them -/

/-- The kind of a request: 1 WRITE, 2 READ. -/
def requestKind (w : Bool) : Nat := if w then 1 else 2

theorem decide_requestKind_eq_one (w : Bool) : decide (requestKind w = 1) = w := by cases w <;> rfl

section
variable {s t : State} {p : Fin 18} {h : FlitHdr} {m : RemoteMsg} (ha : s.accepted p h .routed = some t)
  (hr : t.links.route h.dst.toNat = 0x1E)
include ha hr

theorem exec_remoteRequest_of_local (w : Bool) :
    exec (if w then .remoteWrite p h m else .remoteRead p h m) s
      = .next (t.requestArrives h.src.toNat (requestKind w) m) := by
  cases w with
  | true => exact congrArg Host.Outcome.next (State.rxRouted_accepted ha hr _ _ _ _)
  | false => exact congrArg Host.Outcome.next (State.rxRouted_accepted ha hr _ _ _ _)

theorem exec_remoteRequest_of_served {w : Bool} {u : State} {k : Nat} {r : RemoteMsg} (hw : t.msgWaits (requestKind w) m = false)
    (hs : t.serveRemote h.src.toNat w m = (u, k, r)) :
    exec (if w then .remoteWrite p h m else .remoteRead p h m) s = .next (u.answer h.src.toNat k r) := by
  rw [exec_remoteRequest_of_local ha hr, State.requestArrives_of_served hw (by rw [decide_requestKind_eq_one, hs])]

theorem exec_remoteRequest_of_waits {w : Bool} (hw : t.msgWaits (requestKind w) m = true) :
    exec (if w then .remoteWrite p h m else .remoteRead p h m) s = .next (t.park h.src.toNat (requestKind w) m) := by
  rw [exec_remoteRequest_of_local ha hr, State.requestArrives, State.orPark_of_waits hw]

theorem exec_remoteReadData_of_local :
    exec (.remoteReadData p h m) s = .next (t.replyArrives h.src.toNat 3 m) :=
  congrArg Host.Outcome.next (State.rxRouted_accepted ha hr _ _ _ _)

theorem exec_remoteWriteAck_of_local : exec (.remoteWriteAck p h m) s = .next (t.takeReply h.src.toNat 4 m) :=
  congrArg Host.Outcome.next (State.rxRouted_accepted ha hr _ _ _ _)

theorem exec_remoteRefuse_of_local : exec (.remoteRefuse p h m) s = .next (t.takeReply h.src.toNat 5 m) :=
  congrArg Host.Outcome.next (State.rxRouted_accepted ha hr _ _ _ _)

/-! ## The frames of the peer -/

theorem State.mgmtArrives_of_peer (hpeer : t.present 3 = true) (hsrc : h.src.toNat = t.settings.lkPeerNode.toNat) (kind : Nat)
    (bs : List Byte) (act : State → State) : s.mgmtArrives p h kind bs act = act t := by
  rw [mgmtArrives, State.rxRouted_accepted ha hr, hpeer, decide_eq_true hsrc, Bool.and_self, if_pos rfl]

theorem State.mgmtArrives_of_other (hsrc : h.src.toNat ≠ t.settings.lkPeerNode.toNat) (kind : Nat) (bs : List Byte)
    (act : State → State) : s.mgmtArrives p h kind bs act = t.slDrop p := by
  rw [mgmtArrives, State.rxRouted_accepted ha hr, decide_eq_false hsrc, Bool.and_false, if_neg Bool.false_ne_true]

theorem exec_mgmtSlot_of_peer (hpeer : t.present 3 = true) (hsrc : h.src.toNat = t.settings.lkPeerNode.toNat)
    (hon : t.lanternOn = true) {n : BitVec 16} (hn : n.toNat < slotCount 3) (bs : List Byte) :
    exec (.mgmtSlot p h n bs) s
      = .next ((t.slotWrite 3 n.toNat 4 ((padTo bs 256).drop 4)).slotWrite 3 n.toNat 0 ((padTo bs 256).take 4)) := by
  change execMgmtSlot p h n bs s = _
  rw [execMgmtSlot, State.mgmtArrives_of_peer ha hr hpeer hsrc, if_neg (by simp [Nat.not_le.mpr hn, hon])]

theorem exec_mgmt_of_peer (hpeer : t.present 3 = true) (hsrc : h.src.toNat = t.settings.lkPeerNode.toNat) (bs : List Byte) :
    exec (.mgmtCompletion p h bs) s = .next t ∧ exec (.mgmtOwnershipNotice p h bs) s = .next t :=
  ⟨congrArg Host.Outcome.next (State.mgmtArrives_of_peer ha hr hpeer hsrc _ _ _),
    congrArg Host.Outcome.next (State.mgmtArrives_of_peer ha hr hpeer hsrc _ _ _)⟩

theorem exec_mgmt_of_other (hsrc : h.src.toNat ≠ t.settings.lkPeerNode.toNat) (n : BitVec 16) (bs : List Byte) :
    exec (.mgmtSlot p h n bs) s = .next (t.slDrop p) ∧ exec (.mgmtCompletion p h bs) s = .next (t.slDrop p)
      ∧ exec (.mgmtOwnershipNotice p h bs) s = .next (t.slDrop p) :=
  ⟨congrArg Host.Outcome.next (State.mgmtArrives_of_other ha hr hsrc _ _ _),
    congrArg Host.Outcome.next (State.mgmtArrives_of_other ha hr hsrc _ _ _),
    congrArg Host.Outcome.next (State.mgmtArrives_of_other ha hr hsrc _ _ _)⟩

end

/-- Settles O48: a request that need not wait is answered with what `serveRemote` makes of it, refused, stored or loaded; one
that must is kept; a reply and a frame of the peer come down to one equation per case. -/
theorem remoteMemory : Obligations.RemoteMemory := by
  refine ⟨fun s t p h m ha hr => ⟨fun w hw hno => ?_, fun io hw hgrant hpool hopen hio hstop => ?_,
      fun bs io hw hgrant hpool hopen hio hstop => ?_, fun w hw => exec_remoteRequest_of_waits ha hr hw, fun hw => ?_, fun hw => ?_,
      exec_remoteWriteAck_of_local ha hr, exec_remoteRefuse_of_local ha hr, fun n hnone => State.takeReply_of_none hnone n,
      fun x hx hsrc hin hput => ⟨State.takeReply_of_ack hx hsrc hin hput, State.takeReply_of_refuse hx hsrc hin⟩⟩,
    fun s n k m => ⟨State.answer_of_remote, State.answer_of_local⟩,
    fun s t p h n bs ha hr => ⟨fun hpeer hsrc hon hn => exec_mgmtSlot_of_peer ha hr hpeer hsrc hon hn bs,
      fun hpeer hsrc => exec_mgmt_of_peer ha hr hpeer hsrc bs, fun hsrc => exec_mgmt_of_other ha hr hsrc n bs⟩⟩
  · exact exec_remoteRequest_of_served ha hr hw (State.serveRemote_of_noGrant hno)
  · exact exec_remoteRequest_of_served ha hr (w := true) hw (State.serveRemote_of_write ⟨hgrant, hpool, hopen⟩ hio hstop)
  · exact exec_remoteRequest_of_served ha hr (w := false) hw (State.serveRemote_of_read ⟨hgrant, hpool, hopen⟩ hio hstop)
  · rw [exec_remoteReadData_of_local ha hr, State.replyArrives, State.orPark_of_free hw]
  · rw [exec_remoteReadData_of_local ha hr, State.replyArrives, State.orPark_of_waits hw]
    rfl

end Sys2Proof.Machine
end

section
/-! PROOF. The Seam (12_silman_and_seam.md R356 to R364): frames, retraining, failing lanes and discovery, one equation for each
event in each case. -/

namespace Sys2Proof.Machine

open Sys2Proof

/-! ## Frames -/

section
variable {s : State} {m : Fin 16}

section
variable (hin : (s.seamMod m).state = .inService) {wt : BitVec 2} (par : Bool) (bs : List Byte)
include hin

theorem exec_seamFrame_of_otherTag (htag : wt ≠ (s.seamMod m).tag) :
    exec (.seamFrame m wt par bs) s = .next (s.heard.askRetrain m) := by
  change execSeamFrame m wt par bs s = _
  exact congrArg Host.Outcome.next ((if_neg (not_not_intro hin)).trans (if_pos htag))

theorem exec_seamFrame_of_agreedTag (htag : wt = (s.seamMod m).tag) :
    exec (.seamFrame m wt par bs) s = .next (settle s (s.heard.takeFrame m par bs)) := by
  change execSeamFrame m wt par bs s = _
  exact congrArg Host.Outcome.next ((if_neg (not_not_intro hin)).trans (if_neg (not_not_intro htag)))

end

theorem exec_seamFrame_of_notInService (hout : (s.seamMod m).state ≠ .inService) (wt : BitVec 2) (par : Bool) (bs : List Byte) :
    exec (.seamFrame m wt par bs) s = .next s := by
  change execSeamFrame m wt par bs s = _
  exact congrArg Host.Outcome.next (if_pos hout)

theorem State.takeFrame_of_expected {m : Nat} {bs : List Byte} (hlen : bs.length = 232)
    (hcrc : crc32c (bs.take 0xE0) = field bs 0xE0 4) (hseq : BitVec.ofNat 16 (field bs 0xE4 2) = (s.seamMod m).rxNext)
    (hsv : field bs 0 1 % 4 ≠ 0) :
    s.takeFrame m true bs
      = ((s.setSeamMod m (fun y => y.acked (BitVec.ofNat 16 (field bs 0xE6 2)))).drainSeam m).setSeamMod m
          (fun y => { y with rxNext := y.rxNext + 1 }) := by
  simp only [takeFrame, hlen, hcrc, hseq, hsv, ne_eq, not_true_eq_false, decide_false, Bool.not_true, Bool.or_self,
    Bool.false_eq_true, if_false, if_true]

theorem State.takeFrame_of_broken {m : Nat} {par : Bool} {bs : List Byte}
    (hbad : par = false ∨ crc32c (bs.take 0xE0) ≠ field bs 0xE0 4) : s.takeFrame m par bs = s.askFrames m := by
  rw [takeFrame, if_pos]
  obtain hpar | hcrc := hbad
  · rw [hpar, Bool.not_false, Bool.true_or, Bool.true_or]
  · rw [decide_eq_true hcrc, Bool.or_true]

/-! ## Retraining -/

theorem exec_seamRetrainRequest_of_inService (hin : (s.seamMod m).state = .inService) :
    exec (.seamRetrainRequest m) s = .next ((s.heard.seamRetrain m true).sendAdvert m) := by
  change execSeamRetrainRequest m s = _
  simp only [execSeamRetrainRequest, hin]

theorem exec_seamWidthAdvert_of_retraining (hre : (s.seamMod m).state = .retraining) (w : Nat) (f : BitVec 64) :
    exec (.seamWidthAdvert m w f) s = .next (s.heard.setSeamMod m (fun x => { x with peerAdvert := some (w, f) })) := by
  change execSeamWidthAdvert m w f s = _
  rw [execSeamWidthAdvert, if_pos hre]

/-- The module after the other side has told which frame it expects next. -/
def State.hearNext (s : State) (m : Nat) (n : BitVec 16) : State := s.heard.setSeamMod m (fun x => x.acked n)

section
variable {n : BitVec 16}

theorem exec_seamReceiveState_of_noneKept (hnone : ((s.hearNext m n).seamMod m).replayBuf = []) :
    exec (.seamReceiveState m n) s = .next ((s.hearNext m n).drainSeam m) := by
  change execSeamReceiveState m n s = _
  exact congrArg Host.Outcome.next (if_pos (List.isEmpty_iff.mpr hnone))

section
variable (hkept : ((s.hearNext m n).seamMod m).replayBuf ≠ [])
include hkept

/-- A module in service sends again what the other side lacks (R361). -/
theorem exec_seamReceiveState_of_kept (hin : ((s.hearNext m n).seamMod m).state ≠ .out) :
    exec (.seamReceiveState m n) s
      = .next ((((s.hearNext m n).seamMod m).replayBuf.foldl (fun (u : State) e => u.emit (.seamFrame m e.2))
          ((s.hearNext m n).setSeamMod m (fun x => { x with replays := satSucc x.replays }))).drainSeam m) := by
  change execSeamReceiveState m n s = _
  exact congrArg Host.Outcome.next ((if_neg (hkept ∘ List.isEmpty_iff.mp)).trans (if_neg hin))

/-- From a module out of service the frames move to another (R362). -/
theorem exec_seamReceiveState_of_out (hout : ((s.hearNext m n).seamMod m).state = .out) :
    exec (.seamReceiveState m n) s = .next ((s.hearNext m n).moveFrames m) := by
  change execSeamReceiveState m n s = _
  exact congrArg Host.Outcome.next ((if_neg (hkept ∘ List.isEmpty_iff.mp)).trans (if_pos hout))

end

end

section
variable {found : BitVec 64} {w : Nat} {f : BitVec 64} (hre : (s.seamMod m).state = .retraining)
  (hadv : (s.seamMod m).peerAdvert = some (w, f))
include hre hadv

theorem exec_seamRetrainComplete_of_agreed {n : Nat} {h : SeamHalf}
    (hw : agreedWidth (s.seamMod m).advert w ((s.seamMod m).failed ||| f ||| found) = some (n, h)) :
    exec (.seamRetrainComplete m found) s
      = .next (settle s ((s.setSeamMod m (fun y => { y with failed := y.failed ||| found })).agree m n h found)) := by
  change execSeamRetrainComplete m found s = _
  simp only [execSeamRetrainComplete, hre, hadv, hw, if_true]

theorem exec_seamRetrainComplete_of_noWidth
    (hw : agreedWidth (s.seamMod m).advert w ((s.seamMod m).failed ||| f ||| found) = none) :
    exec (.seamRetrainComplete m found) s = .next (settle s (s.seamOut m)) := by
  change execSeamRetrainComplete m found s = _
  simp only [execSeamRetrainComplete, hre, hadv, hw, if_true]

end

/-! ## The agreed width -/

theorem freeHalf_cases {failed : BitVec 64} {h : SeamHalf} (hh : freeHalf failed = some h) :
    (h = .low ∧ failed.toNat % 2 ^ 32 = 0) ∨ (h = .high ∧ failed.toNat / 2 ^ 32 = 0) := by
  unfold freeHalf at hh
  split at hh
  · next hlow => exact .inl ⟨(Option.some.inj hh).symm, hlow⟩
  · split at hh
    · next hhigh => exact .inr ⟨(Option.some.inj hh).symm, hhigh⟩
    · cases hh

/-- Full width is agreed on a module without a failed lane, half width on a half without one. -/
theorem agreedWidth_cases {mine theirs n : Nat} {failed : BitVec 64} {h : SeamHalf}
    (hw : agreedWidth mine theirs failed = some (n, h)) :
    (n = 64 ∧ h = .full ∧ failed = 0 ∧ 64 ≤ min mine theirs)
      ∨ (n = 32 ∧ ((h = .low ∧ failed.toNat % 2 ^ 32 = 0) ∨ (h = .high ∧ failed.toNat / 2 ^ 32 = 0))) := by
  unfold agreedWidth at hw
  split at hw
  · next hfull =>
    cases hw
    exact .inl ⟨rfl, rfl, hfull.2, hfull.1⟩
  · obtain ⟨h', hh, heq⟩ := Option.map_eq_some_iff.mp hw
    cases heq
    exact .inr ⟨rfl, freeHalf_cases hh⟩

theorem agreedWidth_sound {mine theirs n : Nat} {failed : BitVec 64} {h : SeamHalf}
    (hw : agreedWidth mine theirs failed = some (n, h)) :
    n ≤ 64 ∧ (h = .full ↔ n = 64) ∧ (h = .low → failed.toNat % 2 ^ 32 = 0) ∧ (h = .high → failed.toNat / 2 ^ 32 = 0)
      ∧ (h = .full → failed = 0 ∧ 64 ≤ mine ∧ 64 ≤ theirs) := by
  obtain ⟨rfl, rfl, hfree, hmin⟩ | ⟨rfl, ⟨rfl, hlow⟩ | ⟨rfl, hhigh⟩⟩ := agreedWidth_cases hw
  · exact ⟨Nat.le_refl 64, by simp, nofun, nofun, fun _ => ⟨hfree, Nat.le_min.mp hmin⟩⟩
  · exact ⟨by decide, by simp, fun _ => hlow, nofun, nofun⟩
  · exact ⟨by decide, by simp, nofun, fun _ => hhigh, nofun⟩

/-! ## Lanes, the sideband and the logic -/

/-- A spare of the W to E direction takes the lane's place, and the overlay keeps which. -/
theorem State.laneFails_of_spare {m l : Nat} (hspare : 0 < (s.seamMod m).sparesWE) :
    s.laneFails m l false
      = (((s.appendOverlay 8 0xFF 0xFF m (l + 128 * (4 - (s.seamMod m).sparesWE))).setSeamMod m
          (fun y => { y with sparesWE := y.sparesWE - 1 })).seamRetrain m false).sendAdvert m := if_pos hspare

section
variable (hin : (s.seamMod m).state ≠ .out)
include hin

theorem exec_seamLaneFail_of_used {l : Fin 64} (hl : (s.seamMod m).usesLane l = true) (d : Bool) :
    exec (.seamLaneFail m l d) s = .next (settle s (s.laneFails m l d)) := by
  change execSeamLaneFail m l d s = _
  exact congrArg Host.Outcome.next (if_pos ⟨hin, hl⟩)

theorem exec_seamSidebandFail_of_serving :
    exec (.seamSidebandFail m) s
      = .next (settle s ((s.setSeamMod m (fun x => { x with sideband := false })).seamOut m)) := by
  change execSeamSidebandFail m s = _
  exact congrArg Host.Outcome.next (if_pos hin)

theorem exec_seamLogicReset_of_serving :
    exec (.seamLogicReset m) s
      = .next (s.setSeamMod m (fun x => { x with advert := 64, failed := 0, peerAdvert := none, logicReset := true })) := by
  change execSeamLogicReset m s = _
  exact congrArg Host.Outcome.next (if_pos hin)

end

/-! ## Discovery -/

theorem exec_seamDiscoveryRecord_of_stage4 (h4 : s.lantern.stage = 4) (r : Discovery) :
    exec (.seamDiscoveryRecord r) s = .next { s with seam := { s.seam with peer := some r, lastHeard := s.now } } := by
  change execSeamDiscoveryRecord r s = _
  rw [execSeamDiscoveryRecord, if_pos h4]

theorem exec_seamDiscoveryRecord_of_otherStage (h4 : s.lantern.stage ≠ 4) (r : Discovery) :
    exec (.seamDiscoveryRecord r) s = .next s := by
  change execSeamDiscoveryRecord r s = _
  rw [execSeamDiscoveryRecord, if_neg h4]

theorem exec_seamNoPeer_of_otherStage (h4 : s.lantern.stage ≠ 4) : exec .seamNoPeer s = .next s := by
  change execSeamNoPeer s = _
  rw [execSeamNoPeer, if_neg (by rw [decide_eq_false h4]; exact Bool.false_ne_true)]

theorem exec_seamNoPeer_of_late (h4 : s.lantern.stage = 4) (hnone : s.seam.peer = none)
    (hlate : s.seam.searchFrom + 50000000 ≤ s.now) :
    exec .seamNoPeer s = .next { s with seam := { s.seam with noPeer := true } } := by
  have hms : decide (s.seam.searchFrom + ms 50 ≤ s.now) = true := decide_eq_true hlate
  change execSeamNoPeer s = _
  rw [execSeamNoPeer, if_pos (by rw [h4, hnone, hms]; rfl)]

theorem exec_seamNoPeer_of_early (hearly : s.now < s.seam.searchFrom + 50000000) : exec .seamNoPeer s = .next s := by
  have hms : decide (s.seam.searchFrom + ms 50 ≤ s.now) = false := decide_eq_false (Nat.not_le.mpr hearly)
  change execSeamNoPeer s = _
  rw [execSeamNoPeer, if_neg (by rw [hms, Bool.and_false]; exact Bool.false_ne_true)]

end

/-- Settles O49: each event comes down to its one equation; a frame divides by its tag and its check, the end of training by
the width that can be agreed, and a receive state by what is still kept. -/
theorem seamEvents : Obligations.SeamEvents := by
  refine ⟨fun s m wt par bs hin => ⟨exec_seamFrame_of_otherTag hin par bs, exec_seamFrame_of_agreedTag hin par bs⟩,
    fun s m wt par bs hout => exec_seamFrame_of_notInService hout wt par bs, fun s m bs => State.takeFrame_of_expected,
    fun s m par bs => State.takeFrame_of_broken, fun s m => exec_seamRetrainRequest_of_inService,
    fun s m w f hre => exec_seamWidthAdvert_of_retraining hre w f, fun s t m n ht => ?_,
    fun s m found w f hre hadv =>
      ⟨fun n h => exec_seamRetrainComplete_of_agreed hre hadv, exec_seamRetrainComplete_of_noWidth hre hadv⟩,
    fun mine theirs failed n h => agreedWidth_sound, fun s m l d hin hl => exec_seamLaneFail_of_used hin hl d,
    fun s m l => State.laneFails_of_spare,
    fun s m hin => ⟨exec_seamSidebandFail_of_serving hin, exec_seamLogicReset_of_serving hin⟩,
    fun s r h4 => exec_seamDiscoveryRecord_of_stage4 h4 r,
    fun s r h4 => ⟨exec_seamDiscoveryRecord_of_otherStage h4 r, exec_seamNoPeer_of_otherStage h4⟩,
    fun s h4 hnone => ⟨exec_seamNoPeer_of_late h4 hnone, exec_seamNoPeer_of_early⟩⟩
  obtain rfl : t = s.hearNext m n := ht
  exact ⟨exec_seamReceiveState_of_noneKept, exec_seamReceiveState_of_kept, exec_seamReceiveState_of_out⟩

end Sys2Proof.Machine
end

section
/-! PROOF. The fuses (15_trust_and_firmware.md R423, R429, 14_pitch.md R397): only a commit blows any, it blows them upwards, and
every command and every step keeps what is fused. -/

namespace Sys2Proof.Machine

open Sys2Proof

theorem Fuses.keep_refl (f : Fuses) : f.keep f := ⟨rfl, rfl, rfl, rfl, rfl, rfl, le_rfl, BitVec.and_self⟩

theorem Fuses.keep_trans {f g h : Fuses} (hfg : f.keep g) (hgh : g.keep h) : f.keep h := by
  obtain ⟨hw, he, hclock, hpower, hhalf, hdefects, hblown, hrevoked⟩ := hfg
  obtain ⟨kw, ke, kclock, kpower, khalf, kdefects, kblown, krevoked⟩ := hgh
  have hand : f.revoked &&& h.revoked = f.revoked := by
    calc f.revoked &&& h.revoked = f.revoked &&& (g.revoked &&& h.revoked) := by rw [← BitVec.and_assoc, hrevoked]
      _ = f.revoked := by rw [krevoked, hrevoked]
  exact ⟨kw.trans hw, ke.trans he, kclock.trans hclock, kpower.trans hpower, khalf.trans hhalf, kdefects.trans hdefects,
    hblown.trans kblown, hand⟩

/-- From `s` to `t` no fuse is unblown. -/
def State.keepsFuses (s t : State) : Prop := s.fuses.keep t.fuses

theorem State.keepsFuses_refl (s : State) : s.keepsFuses s := s.fuses.keep_refl

theorem State.keepsFuses.trans {s t u : State} (h : s.keepsFuses t) (g : t.keepsFuses u) : s.keepsFuses u :=
  Fuses.keep_trans h g

theorem State.keepsFuses_of_fuses {s t : State} (h : t.fuses = s.fuses) : s.keepsFuses t := by
  rw [keepsFuses, h]
  exact s.fuses.keep_refl

/-- What leaves the fuses alone keeps them. -/
theorem Only.keepsFuses {L : List Part} {s t : State} (h : Only L s t) (hL : L.contains .fuses = false) : s.keepsFuses t :=
  State.keepsFuses_of_fuses (h.same .fuses (by simpa using hL))

/-! ## What blows fuses -/

theorem State.commitSlot_keepsFuses (s : State) (b : Bool) (n : Nat) : s.keepsFuses (s.commitSlot b n) :=
  ⟨rfl, rfl, rfl, rfl, rfl, rfl, le_rfl, by ext; simp +contextual [commitSlot]⟩

theorem State.commit_keepsFuses (s : State) (b : Bool) : s.keepsFuses (s.commit b) := by
  unfold commit
  split
  · have hblown : s.keepsFuses { s with fuses := { s.fuses with commitBlown := s.fuses.commitBlown + 1 } } :=
      ⟨rfl, rfl, rfl, rfl, rfl, rfl, Nat.le_succ _, BitVec.and_self⟩
    exact hblown.trans (commitSlot_keepsFuses _ _ _)
  · dsimp only
    split
    · exact (s.commitSlot_keepsFuses b _).trans ((postArgs_only ..).keepsFuses rfl)
    · exact s.commitSlot_keepsFuses b _

theorem State.settleCommits_keepsFuses (s : State) (arbOk : Bool) : s.keepsFuses (s.settleCommits arbOk) := by
  unfold settleCommits
  dsimp only
  split
  · split
    · exact s.commitSlot_keepsFuses _ _
    · split
      · exact s.restoreArb_only.keepsFuses rfl
      · exact s.keepsFuses_refl
  · split
    · exact s.restoreArb_only.keepsFuses rfl
    · exact s.keepsFuses_refl

/-! ## The end of stage 2 in its steps -/

/-- Stage 2's first step: the commit fuses and the record are settled, a trial that stood has failed, the mode is taken. -/
def State.settleMode (s : State) (arbOk : Bool) : State := ((s.settleCommits arbOk).endTrial 6).takeMode

/-- The straps this device goes by. -/
def State.ownStraps (s : State) (w e : Straps) : Straps := if s.geo.hasW then w else e

/-- What stage 2 has read goes into the state. -/
def State.takeReadings (s : State) (st : Straps) (identityOk : Bool) (m : Int) : State :=
  { s with
    board := { s.board with straps := st }
    lantern := { s.lantern with m0Mean := m }
    trust := { s.trust with identityOk := identityOk }
    far := { s.far with refclk := s.geo.heFarTier } }

/-- An identity that does not hold is reported. -/
def State.reportIdentity (s : State) (identityOk : Bool) : State :=
  if identityOk then s else s.postSecurity .identity s.lead

/-- Where stage 2 leads once everything is read. -/
def State.leaveStage2 (s : State) (st w e : Straps) : State :=
  if s.latchStands then s.halt 6
  else if orderCode s.fuses = 0 then s.halt 7
  else if (decide (s.geo.mode ≠ 1) || s.lantern.both) && decide (w ≠ e) then s.halt 8
  else if st.recovery then
    { s with trust := { s.trust with fwState := .recovery }, lantern := { s.lantern with heForward := true } }
  else if s.board.resetLow then { s.decideQuick with board := { s.board with waitingReset := true } }
  else s.decideQuick.gate

theorem State.endStage2_eq (s : State) (w e : Straps) (identityOk arbOk : Bool) (m : Int) :
    s.endStage2 w e identityOk arbOk m
      = (((s.settleMode arbOk).takeReadings ((s.settleMode arbOk).ownStraps w e) identityOk m).reportIdentity identityOk).leaveStage2
          ((s.settleMode arbOk).ownStraps w e) w e := rfl

theorem State.settleMode_keepsFuses (s : State) (arbOk : Bool) : s.keepsFuses (s.settleMode arbOk) :=
  (s.settleCommits_keepsFuses arbOk).trans (((endTrial_only ..).keepsFuses rfl).trans ((takeMode_only _).keepsFuses rfl))

theorem State.reportIdentity_keepsFuses (s : State) (identityOk : Bool) : s.keepsFuses (s.reportIdentity identityOk) := by
  unfold reportIdentity
  split
  · exact s.keepsFuses_refl
  · exact (postSecurity_only ..).keepsFuses rfl

theorem State.leaveStage2_keepsFuses (s : State) (st w e : Straps) : s.keepsFuses (s.leaveStage2 st w e) := by
  have hquick : s.keepsFuses s.decideQuick := s.decideQuick_only.keepsFuses rfl
  unfold leaveStage2
  split
  · exact (s.halt_only 6).keepsFuses rfl
  · split
    · exact (s.halt_only 7).keepsFuses rfl
    · split
      · exact (s.halt_only 8).keepsFuses rfl
      · split
        · exact keepsFuses_of_fuses rfl
        · split
          · exact hquick
          · exact hquick.trans ((gate_only _).keepsFuses rfl)

/-- Stage 2 settles the commit fuses first and then leaves the fuses alone. -/
theorem State.endStage2_keepsFuses (s : State) (w e : Straps) (identityOk arbOk : Bool) (m : Int) :
    s.keepsFuses (s.endStage2 w e identityOk arbOk m) := by
  rw [endStage2_eq]
  have hread : s.keepsFuses ((s.settleMode arbOk).takeReadings ((s.settleMode arbOk).ownStraps w e) identityOk m) :=
    (s.settleMode_keepsFuses arbOk).trans (keepsFuses_of_fuses rfl)
  exact (hread.trans (reportIdentity_keepsFuses _ _)).trans (leaveStage2_keepsFuses _ _ _ _)

/-! ## What the other half tells, and the commit by command -/

/-- Of what the other half tells, only a commit blows fuses. -/
theorem State.told_keepsFuses (s : State) (kind : Nat) : s.keepsFuses (s.told kind) := by
  have asks : ∀ b, s.keepsFuses (if s.lantern.modeReq = some b then
      (s.setSettings (fun x => { x with modeSplit := b })).setLantern (fun l => { l with modeReq := none, modeReqPeer := none })
    else s.setLantern (fun l => { l with modeReqPeer := some b })) := fun b => by
    split <;> exact keepsFuses_of_fuses rfl
  unfold told
  extract_lets
  split
  · exact s.keepsFuses_refl
  · split
    · exact asks false
    · exact asks true
    · exact (s.failTrial_only 7).keepsFuses rfl
    · split
      · exact s.commit_keepsFuses _
      · exact s.keepsFuses_refl
    iterate 4
      split
      · exact (shutdown_only ..).keepsFuses rfl
      · exact s.keepsFuses_refl
    exact s.keepsFuses_refl

theorem State.takeMirror_keepsFuses (s : State) (bs : List Byte) : s.keepsFuses (s.takeMirror bs) := by
  unfold takeMirror
  extract_lets
  split
  · exact s.keepsFuses_refl
  · exact State.told_keepsFuses { s with seam := _ } _

theorem State.takeFrame_keepsFuses (s : State) (m : Nat) (parityOk : Bool) (bs : List Byte) :
    s.keepsFuses (s.takeFrame m parityOk bs) := by
  have hdrain : s.keepsFuses ((s.setSeamMod m (fun y => y.acked (BitVec.ofNat 16 (field bs 0xE6 2)))).drainSeam m) :=
    (drainSeam_only ..).keepsFuses rfl
  unfold takeFrame
  extract_lets x seq t u
  split
  · exact (askFrames_only ..).keepsFuses rfl
  · refine hdrain.trans ?_
    split
    · have hu : t.keepsFuses u := (setSeamMod_only ..).keepsFuses rfl
      split
      · exact hu.trans (u.takeMirror_keepsFuses _)
      · exact hu
    · split
      · exact t.keepsFuses_refl
      · exact (askFrames_only ..).keepsFuses rfl

theorem settle_keepsFuses {s t : State} (h : s.keepsFuses t) : s.keepsFuses (settle s t) :=
  h.trans ((settle_only s t).keepsFuses rfl)

theorem execSeamFrame_keepsFuses {s t : State} {m : Fin 16} {wt : BitVec 2} {parityOk : Bool} {bs : List Byte}
    (h : execSeamFrame m wt parityOk bs s = .next t) : s.keepsFuses t := by
  injection h with h
  subst h
  have hheard : s.keepsFuses s.heard := s.heard_only.keepsFuses rfl
  split
  · exact s.keepsFuses_refl
  · split
    · exact hheard.trans ((State.askRetrain_only ..).keepsFuses rfl)
    · exact settle_keepsFuses (hheard.trans (State.takeFrame_keepsFuses _ _ _ _))

/-- Of the stages' results only that of stage 2 settles the commit fuses. -/
theorem execPitchStageComplete_keepsFuses {s t : State} {r : StageResult} (h : execPitchStageComplete r s = .next t) :
    s.keepsFuses t := by
  injection h with h
  subst h
  refine settle_keepsFuses ?_
  cases r
  all_goals dsimp only; split; rotate_left; exact s.keepsFuses_refl
  case rails => exact (State.endRails_only ..).keepsFuses rfl
  case lantern => exact s.endStage2_keepsFuses _ _ _ _ _
  case idleRelease => exact s.leaveIdle_only.keepsFuses rfl
  case firmware => exact (State.endStage3_only ..).keepsFuses rfl
  case seam => exact (State.endStage4_only ..).keepsFuses rfl
  case channel => exact (State.endStage5_only ..).keepsFuses rfl
  case dram => exact (State.endStage6_only ..).keepsFuses rfl
  case cores => exact (State.endStage7_only ..).keepsFuses rfl
  case memory => exact (State.endStage9_only ..).keepsFuses rfl

theorem State.serve_keepsFuses (s : State) {body : Adm → State → State} (hbody : ∀ a (u : State), u.keepsFuses (body a u)) (code : Nat)
    (c : Fin 4) (k : Fin 1024) : s.keepsFuses (s.serve code c k body) := by
  unfold serve
  split
  · exact s.keepsFuses_refl
  · next e _ =>
    have htake : s.keepsFuses (s.takeSlot e) := (s.takeSlot_only e).keepsFuses rfl
    refine htake.trans ?_
    dsimp only
    split
    · exact (endSlot_only ..).keepsFuses rfl
    · exact (endSlot_only ..).keepsFuses rfl
    · exact State.keepsFuses.trans ((admitCmd_only ..).keepsFuses rfl) (hbody _ _)

theorem Adm.checked_keepsFuses (a : Adm) (s : State) (l : List Check) {go : State → State} (hgo : s.keepsFuses (go s)) :
    s.keepsFuses (a.checked s l go) := by
  unfold checked
  split
  · exact (State.endCmd_only ..).keepsFuses rfl
  · exact hgo

theorem execFwCommit_keepsFuses {s t : State} {c : Fin 4} {k : Fin 1024} (h : execFwCommit c k s = .next t) :
    s.keepsFuses t := by
  injection h with h
  subst h
  refine settle_keepsFuses (s.serve_keepsFuses (fun a u => a.checked_keepsFuses u _ ?_) _ _ _)
  split
  · next b _ =>
    exact (u.commit_keepsFuses b).trans (State.keepsFuses.trans ((State.tell_only ..).keepsFuses rfl)
      ((Adm.done_only ..).keepsFuses rfl))
  · exact (Adm.finish_only ..).keepsFuses rfl

/-! ## Commands and steps -/

/-- Three commands can settle a commit, and every other one leaves the fuses alone. -/
theorem exec_keepsFuses {i : Instr} {s t : State} (h : exec i s = .next t) : s.keepsFuses t := by
  cases i with
  | pitchStageComplete _ => exact execPitchStageComplete_keepsFuses h
  | seamFrame _ _ _ _ => exact execSeamFrame_keepsFuses h
  | fwCommit _ _ => exact execFwCommit_keepsFuses h
  | sealWordWrite _ _ _ _ => exact (execSealWordWrite_only (hq := h) ..).keepsFuses rfl
  | sealGapRelease _ _ => exact (execSealGapRelease_only (hq := h) ..).keepsFuses rfl
  | registerWrite _ _ _ _ => exact (execRegisterWrite_only (hq := h) ..).keepsFuses rfl
  | rationApply _ => exact (execRationApply_only (hq := h) ..).keepsFuses rfl
  | crApply _ => exact (execCrApply_only (hq := h) ..).keepsFuses rfl
  | crHeadWrite _ _ _ => exact (execCrHeadWrite_only (hq := h) ..).keepsFuses rfl
  | ownClaim _ => exact (execOwnClaim_only (hq := h) ..).keepsFuses rfl
  | ownRenew _ => exact (execOwnRenew_only (hq := h) ..).keepsFuses rfl
  | ownHandover _ => exact (execOwnHandover_only (hq := h) ..).keepsFuses rfl
  | ownAccept _ => exact (execOwnAccept_only (hq := h) ..).keepsFuses rfl
  | ownRelease _ => exact (execOwnRelease_only (hq := h) ..).keepsFuses rfl
  | claimWindowEnd => exact (execClaimWindowEnd_only (hq := h) ..).keepsFuses rfl
  | leaseExpiry => exact (execLeaseExpiry_only (hq := h) ..).keepsFuses rfl
  | quietEnd => exact (execQuietEnd_only (hq := h) ..).keepsFuses rfl
  | handoverLapse => exact (execHandoverLapse_only (hq := h) ..).keepsFuses rfl
  | submitOrder _ _ => exact (execSubmitOrder_only (hq := h) ..).keepsFuses rfl
  | geometryRead _ _ => exact (execGeometryRead_only (hq := h) ..).keepsFuses rfl
  | coreConfig _ _ => exact (execCoreConfig_only (hq := h) ..).keepsFuses rfl
  | modeSet _ _ => exact (execModeSet_only (hq := h) ..).keepsFuses rfl
  | kvPool _ _ => exact (execKvPool_only (hq := h) ..).keepsFuses rfl
  | bivouacSet _ _ => exact (execBivouacSet_only (hq := h) ..).keepsFuses rfl
  | kvMapRead _ _ => exact (execKvMapRead_only (hq := h) ..).keepsFuses rfl
  | memWindowSet _ _ => exact (execMemWindowSet_only (hq := h) ..).keepsFuses rfl
  | memScrubSet _ _ => exact (execMemScrubSet_only (hq := h) ..).keepsFuses rfl
  | memRetire _ _ => exact (execMemRetire_only (hq := h) ..).keepsFuses rfl
  | memUnretire _ _ => exact (execMemUnretire_only (hq := h) ..).keepsFuses rfl
  | memErrlogRead _ _ => exact (execMemErrlogRead_only (hq := h) ..).keepsFuses rfl
  | ringAdopt _ _ => exact (execRingAdopt_only (hq := h) ..).keepsFuses rfl
  | strikeOrder _ _ => exact (execStrikeOrder_only (hq := h) ..).keepsFuses rfl
  | strikeSeq _ _ => exact (execStrikeSeq_only (hq := h) ..).keepsFuses rfl
  | strikeAll _ _ => exact (execStrikeAll_only (hq := h) ..).keepsFuses rfl
  | unitStop _ _ => exact (execUnitStop_only (hq := h) ..).keepsFuses rfl
  | strikeRecords => exact (execStrikeRecords_only (hq := h) ..).keepsFuses rfl
  | ctlClaim _ _ => exact (execCtlClaim_only (hq := h) ..).keepsFuses rfl
  | ctlRenew _ _ => exact (execCtlRenew_only (hq := h) ..).keepsFuses rfl
  | ctlHandover _ _ => exact (execCtlHandover_only (hq := h) ..).keepsFuses rfl
  | ctlAccept _ _ => exact (execCtlAccept_only (hq := h) ..).keepsFuses rfl
  | ctlRelease _ _ => exact (execCtlRelease_only (hq := h) ..).keepsFuses rfl
  | ctlOwnStatus _ _ => exact (execCtlOwnStatus_only (hq := h) ..).keepsFuses rfl
  | timeConfig _ _ => exact (execTimeConfig_only (hq := h) ..).keepsFuses rfl
  | powerSlotsSet _ _ => exact (execPowerSlotsSet_only (hq := h) ..).keepsFuses rfl
  | powerSlotsRead _ _ => exact (execPowerSlotsRead_only (hq := h) ..).keepsFuses rfl
  | coolantConfig _ _ => exact (execCoolantConfig_only (hq := h) ..).keepsFuses rfl
  | sensorDemote _ _ => exact (execSensorDemote_only (hq := h) ..).keepsFuses rfl
  | sensorRestore _ _ => exact (execSensorRestore_only (hq := h) ..).keepsFuses rfl
  | thermalClear _ _ => exact (execThermalClear_only (hq := h) ..).keepsFuses rfl
  | thermalClearPitchStart => exact (execThermalClearPitchStart_only (hq := h) ..).keepsFuses rfl
  | swingLimitSet _ _ => exact (execSwingLimitSet_only (hq := h) ..).keepsFuses rfl
  | thermalRead _ _ => exact (execThermalRead_only (hq := h) ..).keepsFuses rfl
  | linkConfig _ _ => exact (execLinkConfig_only (hq := h) ..).keepsFuses rfl
  | linkEnumerate _ _ => exact (execLinkEnumerate_only (hq := h) ..).keepsFuses rfl
  | linkRouteSet _ _ => exact (execLinkRouteSet_only (hq := h) ..).keepsFuses rfl
  | linkRetrain _ _ => exact (execLinkRetrain_only (hq := h) ..).keepsFuses rfl
  | linkGrant _ _ => exact (execLinkGrant_only (hq := h) ..).keepsFuses rfl
  | linkStatusRead _ _ => exact (execLinkStatusRead_only (hq := h) ..).keepsFuses rfl
  | linkCopy _ _ => exact (execLinkCopy_only (hq := h) ..).keepsFuses rfl
  | linkCopyTimeout _ => exact (execLinkCopyTimeout_only (hq := h) ..).keepsFuses rfl
  | pitchConfig _ _ => exact (execPitchConfig_only (hq := h) ..).keepsFuses rfl
  | resetDevice _ _ => exact (execResetDevice_only (hq := h) ..).keepsFuses rfl
  | computeResetComplete _ _ => exact (execComputeResetComplete_only (hq := h) ..).keepsFuses rfl
  | defectRead _ _ => exact (execDefectRead_only (hq := h) ..).keepsFuses rfl
  | attest _ _ => exact (execAttest_only (hq := h) ..).keepsFuses rfl
  | certRead _ _ => exact (execCertRead_only (hq := h) ..).keepsFuses rfl
  | fwWrite _ _ => exact (execFwWrite_only (hq := h) ..).keepsFuses rfl
  | fwStage _ _ => exact (execFwStage_only (hq := h) ..).keepsFuses rfl
  | fwActivate _ _ => exact (execFwActivate_only (hq := h) ..).keepsFuses rfl
  | fwAbandon _ _ => exact (execFwAbandon_only (hq := h) ..).keepsFuses rfl
  | trialTimeout => exact (execTrialTimeout_only (hq := h) ..).keepsFuses rfl
  | trustPolicy _ _ => exact (execTrustPolicy_only (hq := h) ..).keepsFuses rfl
  | weightsUnseal _ _ => exact (execWeightsUnseal_only (hq := h) ..).keepsFuses rfl
  | sealedRelease _ _ => exact (execSealedRelease_only (hq := h) ..).keepsFuses rfl
  | eventRead _ _ => exact (execEventRead_only (hq := h) ..).keepsFuses rfl
  | wdogConfig _ _ => exact (execWdogConfig_only (hq := h) ..).keepsFuses rfl
  | opNop _ _ => exact (execOpNop_only (hq := h) ..).keepsFuses rfl
  | opMm _ _ => exact (execOpMm_only (hq := h) ..).keepsFuses rfl
  | opSfApply _ _ => exact (execOpSfApply_only (hq := h) ..).keepsFuses rfl
  | opSoftmax _ _ => exact (execOpSoftmax_only (hq := h) ..).keepsFuses rfl
  | opNorm _ _ => exact (execOpNorm_only (hq := h) ..).keepsFuses rfl
  | opDmCopy _ _ => exact (execOpDmCopy_only (hq := h) ..).keepsFuses rfl
  | opMemZero _ _ => exact (execOpMemZero_only (hq := h) ..).keepsFuses rfl
  | opBankRun _ _ => exact (execOpBankRun_only (hq := h) ..).keepsFuses rfl
  | opSeqOpen _ _ => exact (execOpSeqOpen_only (hq := h) ..).keepsFuses rfl
  | opSeqFork _ _ => exact (execOpSeqFork_only (hq := h) ..).keepsFuses rfl
  | opSeqClose _ _ => exact (execOpSeqClose_only (hq := h) ..).keepsFuses rfl
  | opSeqFree _ _ => exact (execOpSeqFree_only (hq := h) ..).keepsFuses rfl
  | opSeqTruncate _ _ => exact (execOpSeqTruncate_only (hq := h) ..).keepsFuses rfl
  | opSeqPreempt _ _ => exact (execOpSeqPreempt_only (hq := h) ..).keepsFuses rfl
  | opSeqResume _ _ => exact (execOpSeqResume_only (hq := h) ..).keepsFuses rfl
  | opAttAppend _ _ => exact (execOpAttAppend_only (hq := h) ..).keepsFuses rfl
  | opAttDecode _ _ => exact (execOpAttDecode_only (hq := h) ..).keepsFuses rfl
  | opAttPrefill _ _ => exact (execOpAttPrefill_only (hq := h) ..).keepsFuses rfl
  | opKvWrite _ _ => exact (execOpKvWrite_only (hq := h) ..).keepsFuses rfl
  | opKvExport _ _ => exact (execOpKvExport_only (hq := h) ..).keepsFuses rfl
  | orderStart _ => exact (execOrderStart_only (hq := h) ..).keepsFuses rfl
  | operationComplete _ _ => exact (execOperationComplete_only (hq := h) ..).keepsFuses rfl
  | completionRecordWrite _ _ => exact (execCompletionRecordWrite_only (hq := h) ..).keepsFuses rfl
  | moderationTimeout _ _ => exact (execModerationTimeout_only (hq := h) ..).keepsFuses rfl
  | bankEnd _ => exact (execBankEnd_only (hq := h) ..).keepsFuses rfl
  | bankLoop _ => exact (execBankLoop_only (hq := h) ..).keepsFuses rfl
  | bankEndl _ => exact (execBankEndl_only (hq := h) ..).keepsFuses rfl
  | bankSetp _ => exact (execBankSetp_only (hq := h) ..).keepsFuses rfl
  | bankClra _ => exact (execBankClra_only (hq := h) ..).keepsFuses rfl
  | bankLd _ => exact (execBankLd_only (hq := h) ..).keepsFuses rfl
  | bankSt _ => exact (execBankSt_only (hq := h) ..).keepsFuses rfl
  | bankLda _ => exact (execBankLda_only (hq := h) ..).keepsFuses rfl
  | bankSta _ => exact (execBankSta_only (hq := h) ..).keepsFuses rfl
  | bankMac _ => exact (execBankMac_only (hq := h) ..).keepsFuses rfl
  | bankAxpy _ => exact (execBankAxpy_only (hq := h) ..).keepsFuses rfl
  | bankScal _ => exact (execBankScal_only (hq := h) ..).keepsFuses rfl
  | bankDot _ => exact (execBankDot_only (hq := h) ..).keepsFuses rfl
  | bankExps _ => exact (execBankExps_only (hq := h) ..).keepsFuses rfl
  | bankExpw _ => exact (execBankExpw_only (hq := h) ..).keepsFuses rfl
  | bankRsum _ => exact (execBankRsum_only (hq := h) ..).keepsFuses rfl
  | bankRmax _ => exact (execBankRmax_only (hq := h) ..).keepsFuses rfl
  | bankSten _ => exact (execBankSten_only (hq := h) ..).keepsFuses rfl
  | bankCsel _ => exact (execBankCsel_only (hq := h) ..).keepsFuses rfl
  | bankRise _ => exact (execBankRise_only (hq := h) ..).keepsFuses rfl
  | sequenceLoad _ => exact (execSequenceLoad_only (hq := h) ..).keepsFuses rfl
  | sortieStart _ => exact (execSortieStart_only (hq := h) ..).keepsFuses rfl
  | sortieEnd _ => exact (execSortieEnd_only (hq := h) ..).keepsFuses rfl
  | refreshSlot _ _ => exact (execRefreshSlot_only (hq := h) ..).keepsFuses rfl
  | canaryClear _ => exact (execCanaryClear_only (hq := h) ..).keepsFuses rfl
  | scrubSlot _ => exact (execScrubSlot_only (hq := h) ..).keepsFuses rfl
  | scrubLate _ => exact (execScrubLate_only (hq := h) ..).keepsFuses rfl
  | rationPeriodBoundary => exact (execRationPeriodBoundary_only (hq := h) ..).keepsFuses rfl
  | nearRead _ _ _ => exact (execNearRead_only (hq := h) ..).keepsFuses rfl
  | nearWrite _ _ _ => exact (execNearWrite_only (hq := h) ..).keepsFuses rfl
  | farRead _ _ _ _ => exact (execFarRead_only (hq := h) ..).keepsFuses rfl
  | farWrite _ _ _ _ => exact (execFarWrite_only (hq := h) ..).keepsFuses rfl
  | mergeEntryIdle _ _ => exact (execMergeEntryIdle_only (hq := h) ..).keepsFuses rfl
  | accessPromote _ _ => exact (execAccessPromote_only (hq := h) ..).keepsFuses rfl
  | sliceFail _ => exact (execSliceFail_only (hq := h) ..).keepsFuses rfl
  | channelGroupFailing _ _ _ => exact (execChannelGroupFailing_only (hq := h) ..).keepsFuses rfl
  | bar2Read _ _ _ _ => exact (execBar2Read_only (hq := h) ..).keepsFuses rfl
  | bar2Write _ _ _ _ => exact (execBar2Write_only (hq := h) ..).keepsFuses rfl
  | rtNowLowRead _ => exact (execRtNowLowRead_only (hq := h) ..).keepsFuses rfl
  | rtNowHighRead _ => exact (execRtNowHighRead_only (hq := h) ..).keepsFuses rfl
  | cvGo _ _ => exact (execCvGo_only (hq := h) ..).keepsFuses rfl
  | cvReset _ _ => exact (execCvReset_only (hq := h) ..).keepsFuses rfl
  | cvCheck _ _ => exact (execCvCheck_only (hq := h) ..).keepsFuses rfl
  | cvCompare _ => exact (execCvCompare_only (hq := h) ..).keepsFuses rfl
  | cvAbort _ _ => exact (execCvAbort_only (hq := h) ..).keepsFuses rfl
  | cvFeedB _ _ _ => exact (execCvFeedB_only (hq := h) ..).keepsFuses rfl
  | cvFeedH _ _ _ => exact (execCvFeedH_only (hq := h) ..).keepsFuses rfl
  | cvFeedW _ _ _ => exact (execCvFeedW_only (hq := h) ..).keepsFuses rfl
  | cvScanEnd _ => exact (execCvScanEnd_only (hq := h) ..).keepsFuses rfl
  | fastInterruptDelivery _ _ => exact (execFastInterruptDelivery_only (hq := h) ..).keepsFuses rfl
  | normalInterruptDelivery _ _ => exact (execNormalInterruptDelivery_only (hq := h) ..).keepsFuses rfl
  | lanternWake _ _ => exact (execLanternWake_only (hq := h) ..).keepsFuses rfl
  | sleepTimer _ _ => exact (execSleepTimer_only (hq := h) ..).keepsFuses rfl
  | heartbeat _ => exact (execHeartbeat_only (hq := h) ..).keepsFuses rfl
  | wdogWarn _ => exact (execWdogWarn_only (hq := h) ..).keepsFuses rfl
  | watchdogReset _ => exact (execWatchdogReset_only (hq := h) ..).keepsFuses rfl
  | watchdogRestart _ _ _ => exact (execWatchdogRestart_only (hq := h) ..).keepsFuses rfl
  | sensorSample _ => exact (execSensorSample_only (hq := h) ..).keepsFuses rfl
  | sensorDisagree _ _ _ => exact (execSensorDisagree_only (hq := h) ..).keepsFuses rfl
  | sensorDisagreeClear => exact (execSensorDisagreeClear_only (hq := h) ..).keepsFuses rfl
  | throttleStep => exact (execThrottleStep_only (hq := h) ..).keepsFuses rfl
  | estimatorUpdate _ => exact (execEstimatorUpdate_only (hq := h) ..).keepsFuses rfl
  | shutdownRailDrop => exact (execShutdownRailDrop_only (hq := h) ..).keepsFuses rfl
  | shutdownPortDrop => exact (execShutdownPortDrop_only (hq := h) ..).keepsFuses rfl
  | trayPoll _ _ => exact (execTrayPoll_only (hq := h) ..).keepsFuses rfl
  | trayPollRetry _ _ => exact (execTrayPollRetry_only (hq := h) ..).keepsFuses rfl
  | calorimetricCheck => exact (execCalorimetricCheck_only (hq := h) ..).keepsFuses rfl
  | swingSample _ => exact (execSwingSample_only (hq := h) ..).keepsFuses rfl
  | wearPersist => exact (execWearPersist_only (hq := h) ..).keepsFuses rfl
  | ppsEdge _ _ => exact (execPpsEdge_only (hq := h) ..).keepsFuses rfl
  | trefLoss => exact (execTrefLoss_only (hq := h) ..).keepsFuses rfl
  | beaconEmit => exact (execBeaconEmit_only (hq := h) ..).keepsFuses rfl
  | beacon _ _ _ => exact (execBeacon_only (hq := h) ..).keepsFuses rfl
  | beaconLoss => exact (execBeaconLoss_only (hq := h) ..).keepsFuses rfl
  | beaconRootResume => exact (execBeaconRootResume_only (hq := h) ..).keepsFuses rfl
  | powerFrameBoundary _ => exact (execPowerFrameBoundary_only (hq := h) ..).keepsFuses rfl
  | silmanPresenceChange _ _ => exact (execSilmanPresenceChange_only (hq := h) ..).keepsFuses rfl
  | partnerDetect _ _ => exact (execPartnerDetect_only (hq := h) ..).keepsFuses rfl
  | trainingComplete _ _ _ => exact (execTrainingComplete_only (hq := h) ..).keepsFuses rfl
  | trainingOverrun _ => exact (execTrainingOverrun_only (hq := h) ..).keepsFuses rfl
  | laneFailing _ _ => exact (execLaneFailing_only (hq := h) ..).keepsFuses rfl
  | fcAckTimer _ => exact (execFcAckTimer_only (hq := h) ..).keepsFuses rfl
  | flitIdle _ _ => exact (execFlitIdle_only (hq := h) ..).keepsFuses rfl
  | fcAcknowledge _ _ _ _ => exact (execFcAcknowledge_only (hq := h) ..).keepsFuses rfl
  | fcReplayRequest _ _ _ _ => exact (execFcReplayRequest_only (hq := h) ..).keepsFuses rfl
  | kxHello _ _ _ => exact (execKxHello_only (hq := h) ..).keepsFuses rfl
  | kxKemKey _ _ _ => exact (execKxKemKey_only (hq := h) ..).keepsFuses rfl
  | kxKemCt _ _ _ => exact (execKxKemCt_only (hq := h) ..).keepsFuses rfl
  | kxFinish _ _ => exact (execKxFinish_only (hq := h) ..).keepsFuses rfl
  | kxAbort _ r => exact (execKxAbort_only (_reason := r) (hq := h) ..).keepsFuses rfl
  | keyExchangeTimeout _ => exact (execKeyExchangeTimeout_only (hq := h) ..).keepsFuses rfl
  | keyExchangeRetry _ => exact (execKeyExchangeRetry_only (hq := h) ..).keepsFuses rfl
  | rekey _ => exact (execRekey_only (hq := h) ..).keepsFuses rfl
  | oldKeyExpiry _ => exact (execOldKeyExpiry_only (hq := h) ..).keepsFuses rfl
  | enumToken _ _ _ => exact (execEnumToken_only (hq := h) ..).keepsFuses rfl
  | enumReturn _ _ _ => exact (execEnumReturn_only (hq := h) ..).keepsFuses rfl
  | enumCross _ _ _ => exact (execEnumCross_only (hq := h) ..).keepsFuses rfl
  | enumBoundary _ _ _ => exact (execEnumBoundary_only (hq := h) ..).keepsFuses rfl
  | enumTimeout _ => exact (execEnumTimeout_only (hq := h) ..).keepsFuses rfl
  | enumCommit _ _ _ => exact (execEnumCommit_only (hq := h) ..).keepsFuses rfl
  | commitTakeEffect => exact (execCommitTakeEffect_only (hq := h) ..).keepsFuses rfl
  | commitFloodRepeat => exact (execCommitFloodRepeat_only (hq := h) ..).keepsFuses rfl
  | linkEnumerateComplete => exact (execLinkEnumerateComplete_only (hq := h) ..).keepsFuses rfl
  | pendingIdLapse => exact (execPendingIdLapse_only (hq := h) ..).keepsFuses rfl
  | enumJoin _ _ => exact (execEnumJoin_only (hq := h) ..).keepsFuses rfl
  | delayExchangeStart _ _ => exact (execDelayExchangeStart_only (hq := h) ..).keepsFuses rfl
  | delayReq _ _ _ _ _ => exact (execDelayReq_only (hq := h) ..).keepsFuses rfl
  | delayResp _ _ _ _ => exact (execDelayResp_only (hq := h) ..).keepsFuses rfl
  | remoteWrite _ _ _ => exact (execRemoteWrite_only (hq := h) ..).keepsFuses rfl
  | remoteRead _ _ _ => exact (execRemoteRead_only (hq := h) ..).keepsFuses rfl
  | remoteReadData _ _ _ => exact (execRemoteReadData_only (hq := h) ..).keepsFuses rfl
  | remoteWriteAck _ _ _ => exact (execRemoteWriteAck_only (hq := h) ..).keepsFuses rfl
  | remoteRefuse _ _ _ => exact (execRemoteRefuse_only (hq := h) ..).keepsFuses rfl
  | mgmtSlot _ _ _ _ => exact (execMgmtSlot_only (hq := h) ..).keepsFuses rfl
  | mgmtCompletion _ _ _ => exact (execMgmtCompletion_only (hq := h) ..).keepsFuses rfl
  | mgmtOwnershipNotice _ _ _ => exact (execMgmtOwnershipNotice_only (hq := h) ..).keepsFuses rfl
  | seamRetrainRequest _ => exact (execSeamRetrainRequest_only (hq := h) ..).keepsFuses rfl
  | seamWidthAdvert _ _ _ => exact (execSeamWidthAdvert_only (hq := h) ..).keepsFuses rfl
  | seamReceiveState _ _ => exact (execSeamReceiveState_only (hq := h) ..).keepsFuses rfl
  | seamRetrainComplete _ _ => exact (execSeamRetrainComplete_only (hq := h) ..).keepsFuses rfl
  | seamRackTimeWord _ => exact (execSeamRackTimeWord_only (hq := h) ..).keepsFuses rfl
  | seamLaneFail _ _ _ => exact (execSeamLaneFail_only (hq := h) ..).keepsFuses rfl
  | seamDiscoveryRecord _ => exact (execSeamDiscoveryRecord_only (hq := h) ..).keepsFuses rfl
  | seamNoPeer => exact (execSeamNoPeer_only (hq := h) ..).keepsFuses rfl
  | halfLossDetect => exact (execHalfLossDetect_only (hq := h) ..).keepsFuses rfl
  | hostPortReset _ _ => exact (execHostPortReset_only (hq := h) ..).keepsFuses rfl
  | hostLinkTrain _ => exact (execHostLinkTrain_only (hq := h) ..).keepsFuses rfl
  | tdiError _ => exact (execTdiError_only (hq := h) ..).keepsFuses rfl
  | spdmGetVersion _ => exact (execSpdmGetVersion_only (hq := h) ..).keepsFuses rfl
  | spdmGetCapabilities _ => exact (execSpdmGetCapabilities_only (hq := h) ..).keepsFuses rfl
  | spdmNegotiateAlgorithms _ _ => exact (execSpdmNegotiateAlgorithms_only (hq := h) ..).keepsFuses rfl
  | spdmGetDigests _ => exact (execSpdmGetDigests_only (hq := h) ..).keepsFuses rfl
  | spdmGetCertificate _ _ _ _ => exact (execSpdmGetCertificate_only (hq := h) ..).keepsFuses rfl
  | spdmChallenge _ _ => exact (execSpdmChallenge_only (hq := h) ..).keepsFuses rfl
  | spdmGetMeasurements _ _ _ => exact (execSpdmGetMeasurements_only (hq := h) ..).keepsFuses rfl
  | spdmKeyExchange _ _ => exact (execSpdmKeyExchange_only (hq := h) ..).keepsFuses rfl
  | spdmFinish _ _ _ => exact (execSpdmFinish_only (hq := h) ..).keepsFuses rfl
  | spdmKeyUpdate _ _ => exact (execSpdmKeyUpdate_only (hq := h) ..).keepsFuses rfl
  | spdmHeartbeat _ _ => exact (execSpdmHeartbeat_only (hq := h) ..).keepsFuses rfl
  | spdmEndSession _ _ => exact (execSpdmEndSession_only (hq := h) ..).keepsFuses rfl
  | spdmVendorDefined _ _ _ => exact (execSpdmVendorDefined_only (hq := h) ..).keepsFuses rfl
  | spdmSessionTimeout _ _ => exact (execSpdmSessionTimeout_only (hq := h) ..).keepsFuses rfl
  | farTierRead _ _ => exact (execFarTierRead_only (hq := h) ..).keepsFuses rfl
  | farTierWrite _ _ => exact (execFarTierWrite_only (hq := h) ..).keepsFuses rfl
  | farTierInitComplete _ => exact (execFarTierInitComplete_only (hq := h) ..).keepsFuses rfl
  | farTierLinkLoss => exact (execFarTierLinkLoss_only (hq := h) ..).keepsFuses rfl
  | vinApply _ => exact (execVinApply_only (hq := h) ..).keepsFuses rfl
  | mateSnsChange _ => exact (execMateSnsChange_only (hq := h) ..).keepsFuses rfl
  | overvoltage _ => exact (execOvervoltage_only (hq := h) ..).keepsFuses rfl
  | powerFail => exact (execPowerFail_only (hq := h) ..).keepsFuses rfl
  | retentionHandoff => exact (execRetentionHandoff_only (hq := h) ..).keepsFuses rfl
  | railFault _ => exact (execRailFault_only (hq := h) ..).keepsFuses rfl
  | modResetNAssert => exact (execModResetNAssert_only (hq := h) ..).keepsFuses rfl
  | modResetNRelease => exact (execModResetNRelease_only (hq := h) ..).keepsFuses rfl
  | eventRecordWrite => exact (execEventRecordWrite_only (hq := h) ..).keepsFuses rfl
  | eventWindowClose _ _ => exact (execEventWindowClose_only (hq := h) ..).keepsFuses rfl
  | lsVector0Deferred _ => exact (execLsVector0Deferred_only (hq := h) ..).keepsFuses rfl
  | i3cSlotWrite _ _ _ => exact (execI3cSlotWrite_only (hq := h) ..).keepsFuses rfl
  | i3cSpaceRead _ _ => exact (execI3cSpaceRead_only (hq := h) ..).keepsFuses rfl
  | i3cRecordRead => exact (execI3cRecordRead_only (hq := h) ..).keepsFuses rfl
  | i3cAttestNonce _ => exact (execI3cAttestNonce_only (hq := h) ..).keepsFuses rfl
  | i3cPrivateRead _ => exact (execI3cPrivateRead_only (hq := h) ..).keepsFuses rfl
  | i3cEntdaa _ => exact (execI3cEntdaa_only (hq := h) ..).keepsFuses rfl
  | i3cRstdaa => exact (execI3cRstdaa_only (hq := h) ..).keepsFuses rfl
  | i3cSetnewda _ => exact (execI3cSetnewda_only (hq := h) ..).keepsFuses rfl
  | i3cGetpid => exact (execI3cGetpid_only (hq := h) ..).keepsFuses rfl
  | i3cGetbcr => exact (execI3cGetbcr_only (hq := h) ..).keepsFuses rfl
  | i3cGetdcr => exact (execI3cGetdcr_only (hq := h) ..).keepsFuses rfl
  | i3cGetstatus => exact (execI3cGetstatus_only (hq := h) ..).keepsFuses rfl
  | i3cEnec _ => exact (execI3cEnec_only (hq := h) ..).keepsFuses rfl
  | i3cDisec _ => exact (execI3cDisec_only (hq := h) ..).keepsFuses rfl
  | i3cGetmwl => exact (execI3cGetmwl_only (hq := h) ..).keepsFuses rfl
  | i3cSetmwl _ => exact (execI3cSetmwl_only (hq := h) ..).keepsFuses rfl
  | i3cGetmrl => exact (execI3cGetmrl_only (hq := h) ..).keepsFuses rfl
  | i3cSetmrl _ => exact (execI3cSetmrl_only (hq := h) ..).keepsFuses rfl
  | hotJoinRequest => exact (execHotJoinRequest_only (hq := h) ..).keepsFuses rfl
  | ibiSend _ => exact (execIbiSend_only (hq := h) ..).keepsFuses rfl
  | ibiRetry _ => exact (execIbiRetry_only (hq := h) ..).keepsFuses rfl
  | recordsWaitingReminder => exact (execRecordsWaitingReminder_only (hq := h) ..).keepsFuses rfl
  | intakeBacklog => exact (execIntakeBacklog_only (hq := h) ..).keepsFuses rfl
  | commandCodeNotDefined _ _ => exact (execCommandCodeNotDefined_only (hq := h) ..).keepsFuses rfl
  | uncorrectableCodeword _ _ => exact (execUncorrectableCodeword_only (hq := h) ..).keepsFuses rfl
  | reservedFlitType _ _ _ _ => exact (execReservedFlitType_only (hq := h) ..).keepsFuses rfl
  | seamSidebandFail _ => exact (execSeamSidebandFail_only (hq := h) ..).keepsFuses rfl
  | seamLogicReset _ => exact (execSeamLogicReset_only (hq := h) ..).keepsFuses rfl
  | channelPauseEnd _ => exact (execChannelPauseEnd_only (hq := h) ..).keepsFuses rfl
  | farTierRetrain => exact (execFarTierRetrain_only (hq := h) ..).keepsFuses rfl
  | coldPitchRailsReturn => exact (execColdPitchRailsReturn_only (hq := h) ..).keepsFuses rfl
  | resetPitchStart => exact (execResetPitchStart_only (hq := h) ..).keepsFuses rfl
  | entropyHealthTest _ => exact (execEntropyHealthTest_only (hq := h) ..).keepsFuses rfl
  | retentionExpiry => exact (execRetentionExpiry_only (hq := h) ..).keepsFuses rfl
  | i3cWriteDiscard => exact (execI3cWriteDiscard_only (hq := h) ..).keepsFuses rfl

/-- Settles O7: a step is a command, which keeps the fuses, or a nanosecond, which leaves them alone. -/
theorem fusesKept : Obligations.FusesKept := by
  intro s t h
  unfold step at h
  split at h
  · injection h with h
    have htick : s.keepsFuses s.tick := State.keepsFuses.trans (s.advance_only.keepsFuses rfl)
      (State.keepsFuses.trans ((State.openWindows_only _).keepsFuses rfl) ((State.unpark_only _).keepsFuses rfl))
    exact h ▸ htick
  · next c rest _ => exact exec_keepsFuses (s := { s with pending := rest }) h

end Sys2Proof.Machine
end

section
/-! PROOF. A step of a queue with a command at its front, and the ownership the device starts with (08_warden_mailboxes.md R225,
18_register_maps.md R495). -/

namespace Sys2Proof.Machine

open Sys2Proof

theorem step_of_pending {s : State} {c : Instr} {rest : List Instr} (h : s.pending = c :: rest) :
    step s = exec c { s with pending := rest } := by
  rw [step, h]

/-- Settles O1: the queue's first command is the one a step runs. -/
theorem stepRunsFront : Obligations.StepRunsFront := fun _ _ _ => step_of_pending

/-- OWN_VALID clear in phase 0 is what the invariant asks. -/
theorem State.ownOk_of_opened {s : State} (hv : s.own.valid = false) (hp : s.own.phase = .opened) : s.ownOk := by
  simp [ownOk, hv, hp]

/-- Settles O5: the ownership block starts open, with OWN_VALID clear. -/
theorem resetOwnership : Obligations.ResetOwnership :=
  ⟨State.ownOk_of_opened rfl rfl, rfl, rfl, rfl, rfl⟩

end Sys2Proof.Machine
end

section
/-! PROOF. Writes of BAR0 (13_host_far_ports.md R373, 08_warden_mailboxes.md R230, 18_register_maps.md R496): a write goes by its width
and its alignment, a word by the block its offset lies in. -/

namespace Sys2Proof.Machine

open Sys2Proof

/-! ## A write by its width -/

section
variable {s : State} {p : Fin 2} {off : Nat}

theorem exec_registerWrite_of_shut (h : s.hostWrites p = false) (width : Nat) (v : BitVec 64) :
    exec (.registerWrite p off width v) s = .next s := by
  change execRegisterWrite p off width v s = _
  rw [execRegisterWrite, h]
  rfl

theorem execRegisterWrite_of_outside (hout : off < 0x10000 ∨ 0x50000 ≤ off) (h : s.hostWrites p = true) (width : Nat)
    (v : BitVec 64) :
    execRegisterWrite p off width v s = .next (if width = 4 ∧ off % 4 = 0 then settle s (s.wordWrite p off (v.toNat % 2 ^ 32))
      else if width = 8 ∧ off % 8 = 0 then
        settle s ((s.wordWrite p off (v.toNat % 2 ^ 32)).wordWrite p (off + 4) (v.toNat / 2 ^ 32))
      else s) := by
  rw [execRegisterWrite, h, if_neg (by simp), if_neg (by omega)]

theorem exec_registerWrite_of_unfit (hout : off < 0x10000 ∨ 0x50000 ≤ off) {width : Nat} (h4 : ¬ (width = 4 ∧ off % 4 = 0))
    (h8 : ¬ (width = 8 ∧ off % 8 = 0)) (v : BitVec 64) : exec (.registerWrite p off width v) s = .next s := by
  cases hw : s.hostWrites p with
  | false => exact exec_registerWrite_of_shut hw width v
  | true =>
    change execRegisterWrite p off width v s = _
    rw [execRegisterWrite_of_outside hout hw, if_neg h4, if_neg h8]

theorem exec_registerWrite_of_word (hout : off < 0x10000 ∨ 0x50000 ≤ off) (h : s.hostWrites p = true) (hoff : off % 4 = 0)
    (v : BitVec 64) : exec (.registerWrite p off 4 v) s = .next (settle s (s.wordWrite p off (v.toNat % 2 ^ 32))) := by
  change execRegisterWrite p off 4 v s = _
  rw [execRegisterWrite_of_outside hout h, if_pos ⟨rfl, hoff⟩]

theorem exec_registerWrite_of_pair (hout : off < 0x10000 ∨ 0x50000 ≤ off) (h : s.hostWrites p = true) (hoff : off % 8 = 0)
    (v : BitVec 64) : exec (.registerWrite p off 8 v) s
      = .next (settle s ((s.wordWrite p off (v.toNat % 2 ^ 32)).wordWrite p (off + 4) (v.toNat / 2 ^ 32))) := by
  change execRegisterWrite p off 8 v s = _
  rw [execRegisterWrite_of_outside hout h, if_neg (by omega), if_pos ⟨rfl, hoff⟩]

theorem exec_registerWrite_of_slot (h : s.hostWrites p = true) (k : Fin 1024) {o : Nat} (ho : o < 256) (ho4 : o % 4 = 0)
    (v : BitVec 64) : exec (.registerWrite p (0x10000 + 256 * k + o) 4 v) s
      = .next (settle s (s.slotWrite (ctrlOf p) k o (leBytes 4 v.toNat))) := by
  have hk := k.isLt
  have hslot : (0x10000 + 256 * k.val + o - 0x10000) / 256 = k := by omega
  have hbyte : (0x10000 + 256 * k.val + o - 0x10000) % 256 = o := by omega
  change execRegisterWrite p _ 4 v s = _
  rw [execRegisterWrite, h, if_neg (by simp), if_pos (by omega), State.slotWindow, if_pos ⟨.inl rfl, by omega⟩, hslot, hbyte]

end

/-! ## A word by its block -/

section
variable (s : State) (p : Fin 2) (o w : Nat)

theorem State.wordWrite_own (ho : o < 0x1000) : s.wordWrite p (0x1000 + o) w = s.ownWrite (ctrlOf p) o w := by
  rw [wordWrite, if_pos (by omega), Nat.add_sub_cancel_left]

theorem State.wordWrite_rings (ho : o < 0x10000) : s.wordWrite p (0x50000 + o) w = s.ringsWrite p o w := by
  rw [wordWrite, if_neg (by omega), if_pos (by omega), Nat.add_sub_cancel_left]

theorem State.wordWrite_rations (ho : o < 0x10000) (hw : rationsWritable o = true) :
    s.wordWrite p (0x60000 + o) w = s.ownerWrite (ctrlOf p) (s.rationsWrite o w) := by
  rw [wordWrite, if_neg (by omega), if_neg (by omega), if_pos (by omega), Nat.add_sub_cancel_left, if_pos hw]

theorem State.wordWrite_chan {n : Nat} (hn : n < 512) (ho : o < 128) (hc : s.hasChan n = true) (hw : chanWritable o = true) :
    s.wordWrite p (0x90000 + 128 * n + o) w = s.ownerWrite (ctrlOf p) (s.cvWord n (ctrlOf p) o w) := by
  have hchan : (0x90000 + 128 * n + o - 0x90000) / 128 = n := by omega
  have hbyte : (0x90000 + 128 * n + o - 0x90000) % 128 = o := by omega
  rw [wordWrite, if_neg (by omega), if_neg (by omega), if_neg (by omega), if_pos (by omega)]
  dsimp only
  rw [hchan, hbyte, hc, hw, Bool.and_self, if_pos rfl]

theorem State.wordWrite_msix (ho : o < 0x8000) : s.wordWrite p (0x100000 + o) w = s.msixWrite p o w := by
  rw [wordWrite, if_neg (by omega), if_neg (by omega), if_neg (by omega), if_neg (by omega), if_pos (by omega),
    Nat.add_sub_cancel_left]

end

/-- Settles O33: the width and the alignment say how many words a write is, and each word acts in the block of its offset. -/
theorem registerWrites : Obligations.RegisterWrites := by
  refine ⟨fun s p off width v h => exec_registerWrite_of_shut h width v,
    fun s p off width v hout h4 h8 => exec_registerWrite_of_unfit hout h4 h8 v,
    fun s p k o v h ho ho4 => exec_registerWrite_of_slot h k ho ho4 v,
    fun s p o v h ho ho4 => ?_, fun s p o v h ho ho4 => ?_, fun s p o v h ho ho4 hw => ?_,
    fun s p n o v h hn ho ho4 hc hw => ?_, fun s p o v h ho ho4 => ?_,
    fun s p off v h hout hoff => exec_registerWrite_of_pair hout h hoff v⟩
  · rw [exec_registerWrite_of_word (by omega) h (by omega), s.wordWrite_own p o _ ho]
  · rw [exec_registerWrite_of_word (by omega) h (by omega), s.wordWrite_rings p o _ ho]
  · rw [exec_registerWrite_of_word (by omega) h (by omega), s.wordWrite_rations p o _ ho hw, State.ownerWrite]
  · rw [exec_registerWrite_of_word (by omega) h (by omega), s.wordWrite_chan p o _ hn ho hc hw, State.ownerWrite]
  · rw [exec_registerWrite_of_word (by omega) h (by omega), s.wordWrite_msix p o _ ho]

end Sys2Proof.Machine
end

section
/-! PROOF. What signalling a change leaves (18_register_maps.md R498), and what leaves the pitch sequencer alone. -/

namespace Sys2Proof.Machine

open Sys2Proof

theorem Only.lantern_eq {L : List Part} {s t : State} (h : Only L s t) (hL : Part.lantern ∉ L) (hc : Part.lsChanges ∉ L) :
    t.lantern = s.lantern := by
  have hl : t.lantern = { s.lantern with changes := t.lantern.changes } := h.same .lantern hL
  have hchanges : t.lantern.changes = s.lantern.changes := h.same .lsChanges hc
  rw [hl, hchanges]

theorem Only.mem_eq {L : List Part} {s t : State} (h : Only L s t) (hL : Part.mem ∉ L) (hh : Part.hostMem ∉ L) :
    t.mem = s.mem := by
  have hm : t.mem = { s.mem with hostW := t.mem.hostW, hostE := t.mem.hostE } := h.same .mem hL
  obtain ⟨hw, he⟩ : t.mem.hostW = s.mem.hostW ∧ t.mem.hostE = s.mem.hostE := h.same .hostMem hh
  rw [hm, hw, he]

section
variable (s t : State)

@[simp] theorem settle_board : (settle s t).board = t.board := (settle_only s t).same .board (by decide)
@[simp] theorem settle_geo : (settle s t).geo = t.geo := (settle_only s t).same .geo (by decide)
@[simp] theorem settle_trust : (settle s t).trust = t.trust := (settle_only s t).same .trust (by decide)
@[simp] theorem settle_thermal : (settle s t).thermal = t.thermal := (settle_only s t).same .thermal (by decide)
@[simp] theorem settle_seam : (settle s t).seam = t.seam := (settle_only s t).same .seam (by decide)
@[simp] theorem settle_seamMod (m : Nat) : (settle s t).seamMod m = t.seamMod m := by rw [State.seamMod, settle_seam]; rfl
@[simp] theorem settle_settings : (settle s t).settings = t.settings := (settle_only s t).same .settings (by decide)
@[simp] theorem settle_events : (settle s t).events = t.events := (settle_only s t).same .events (by decide)

theorem settle_lantern : (settle s t).lantern = { t.lantern with changes := (settle s t).lantern.changes } :=
  (settle_only s t).same .lantern (by decide)

@[simp] theorem settle_lantern_stage : (settle s t).lantern.stage = t.lantern.stage := by rw [settle_lantern]
@[simp] theorem settle_lantern_kind : (settle s t).lantern.kind = t.lantern.kind := by rw [settle_lantern]
@[simp] theorem settle_lantern_halt : (settle s t).lantern.halt = t.lantern.halt := by rw [settle_lantern]
@[simp] theorem settle_lantern_job : (settle s t).lantern.job = t.lantern.job := by rw [settle_lantern]
@[simp] theorem settle_lantern_seamLost : (settle s t).lantern.seamLost = t.lantern.seamLost := by rw [settle_lantern]

end

end Sys2Proof.Machine
end

section
/-! PROOF. The 50 V input, power-fail and the rails (17_module_electrical.md R456 to R463). -/

namespace Sys2Proof.Machine

open Sys2Proof

/-! ## The input -/

theorem Board.vinGood_iff (b : Board) :
    b.vinGood = true ↔ 42000 ≤ b.vin ∧ (b.overvolted = false ∨ b.vin ≤ 58000) ∧ b.mateHigh = false := by
  simp [vinGood, and_assoc]

/-- The state with a voltage at VIN, and the time since which it has stood good. -/
def State.atVin (s : State) (v : Nat) : State := { s with board := { s.board with vin := v }.countVin s.now }

theorem State.atVin_eq (s : State) (v : Nat) : s.atVin v = { s with board := { s.board with vin := v, vinSince :=
    if 42000 ≤ v ∧ (s.board.overvolted = false ∨ v ≤ 58000) ∧ s.board.mateHigh = false then some (s.board.vinSince.getD s.now)
    else none } } := by
  simp only [atVin, Board.countVin, Board.vinGood_iff]

section
variable {s : State} {v : Nat}

theorem exec_vinApply_of_early (h : (s.atVin v).startDue = false) : exec (.vinApply v) s = .next (s.atVin v) := by
  change execVinApply v s = _
  rw [execVinApply]
  exact congrArg Host.Outcome.next (if_neg (Bool.not_eq_true _ ▸ h))

theorem exec_vinApply_of_due (h : (s.atVin v).startDue = true) :
    exec (.vinApply v) s = .next (settle s (s.atVin v).powerUp) := by
  change execVinApply v s = _
  rw [execVinApply]
  exact congrArg Host.Outcome.next (if_pos h)

end

theorem State.startDue_iff (s : State) :
    s.startDue = true ↔ s.board.inputOn = false ∧ ∃ t, s.board.vinSince = some t ∧ t + 100000000 ≤ s.now := by
  have hms : ms 100 = 100000000 := rfl
  cases hv : s.board.vinSince with
  | none => simp [startDue, hv]
  | some t =>
    rw [startDue, hv, hms, Bool.and_eq_true, Bool.not_eq_true', Option.any_some, decide_eq_true_eq]
    exact and_congr_right' ⟨fun h => ⟨t, rfl, h⟩, fun ⟨_, ht, h⟩ => Option.some.inj ht ▸ h⟩

/-- The input switch's closing leaves a cold pitch in stage 1. -/
theorem State.powerUp_spec (s : State) : s.powerUp.board.inputOn = true ∧ s.powerUp.board.overvolted = false
    ∧ s.powerUp.lantern.stage = 1 ∧ s.powerUp.lantern.kind = 0 ∧ s.powerUp.board.vin = s.board.vin :=
  ⟨rfl, rfl, rfl, rfl, rfl⟩

theorem Board.countVin_mateHigh (b : Board) (now : Nat) (h : b.mateHigh = true) : (b.countVin now).vinSince = none := by
  simp [countVin, vinGood, h]

theorem exec_mateSnsChange (s : State) (h : Bool) : ∃ u, exec (.mateSnsChange h) s = .next u ∧ u.board.mateHigh = h
    ∧ u.board.inputOn = (s.board.inputOn && !h) ∧ u.board.vin = s.board.vin ∧ (h = true → u.board.vinSince = none)
    ∧ Only [.board] s u :=
  ⟨_, rfl, rfl, rfl, rfl, fun hh => Board.countVin_mateHigh _ _ hh, execMateSnsChange_only h s _ rfl⟩

theorem exec_overvoltage (s : State) (v : Nat) : exec (.overvoltage v) s = .next (if 60000 < v then
    { s with board := { s.board with vin := v, inputOn := false, overvolted := true, vinSince := none } } else s) := rfl

/-! ## Power-fail and retention -/

/-- What a power-fail leaves: the rails of VAON and VFLASH, and the events not yet in flash. -/
def State.powerLost (s : State) : State :=
  let t := (s.kept true).setRails Rails.alwaysOn
  { t with
    board := { t.board with inputOn := false, failedAt := some s.now, vinSince := none }.countVin s.now
    lantern := { t.lantern with kind := 0 }
    events := { t.events with late := t.events.queue.length } }

theorem exec_powerFail_of_powered {s : State} (hp : s.powered = true) (hf : s.board.failedAt = none) :
    exec .powerFail s = .next s.powerLost := by
  change execPowerFail s = _
  rw [execPowerFail, if_pos (by rw [hp, hf]; rfl)]
  rfl

theorem exec_powerFail_of_failed {s : State} {t : Nat} (hf : s.board.failedAt = some t) : exec .powerFail s = .next s := by
  change execPowerFail s = _
  rw [execPowerFail, if_neg (by simp [hf])]

theorem exec_retentionHandoff_of_failed {s : State} {t : Nat} (hf : s.board.failedAt = some t) :
    exec .retentionHandoff s = .next (if t + 2000000 ≤ s.now then
      { s with board := { s.board with railsW := {}, railsE := {}, failedAt := none } } else s) := by
  change execRetentionHandoff s = _
  rw [execRetentionHandoff, hf]
  rfl

theorem exec_retentionExpiry (s : State) : exec .retentionExpiry s = .next (if s.powered then s
    else { s with board := { s.board with retained := false }, events := { s.events with queue := [], lost := 0, late := 0 } }) :=
  rfl

/-! ## Rail faults -/

/-- A table listed by a function reads as the function at what it lists. -/
theorem look_map_self {α : Type} (f : Nat → α) (d : α) {l : List Nat} {m : Nat} (h : m ∈ l) :
    look (l.map (fun k => (k, f k))) m d = f m := by
  induction l with
  | nil => exact absurd h List.not_mem_nil
  | cons k r ih =>
    by_cases hk : k = m
    · simp [look, hk]
    · have hr : m ∈ r := (List.mem_cons.mp h).resolve_left (Ne.symm hk)
      simp [look, hk, ih hr]

/-- A Seam module whose other side has gone silent. -/
def SeamMod.gone (x : SeamMod) : SeamMod := { x with state := .out, sideband := false }

theorem State.seamGone_seamMod (s : State) {m : Nat} (h : m < 16) : s.seamGone.seamMod m = (s.seamMod m).gone :=
  look_map_self (fun m => (s.seamMod m).gone) {} (List.mem_range.mpr h)

theorem Rails.alwaysOn_eq (r : Rails) : r.alwaysOn = ({ vaon := r.vaon, vflash := r.vflash } : Rails) := rfl

theorem State.dropHalfRails_railsOf (s : State) (h : Fin 2) :
    (s.dropHalfRails h).railsOf h = (s.railsOf h).alwaysOn := by
  fin_cases h <;> rfl

/-- In Twin mode a half loses its rails and its ports, and the Seam with them. -/
theorem exec_railFault_of_twin {s : State} {h : Fin 2} (ht : s.twin = true) : exec (.railFault h) s
    = .next (if (s.railsOf h).vbaseSb then ((s.portsGone h).dropHalfRails h).seamGone else s) := by
  change execRailFault h s = _
  rw [execRailFault, if_pos ht]

theorem State.portsGone_board (s : State) (h : Fin 2) : (s.portsGone h).board = s.board :=
  (s.portsGone_only h).same .board (by decide)

theorem State.portsGone_railsOf (s : State) (h : Fin 2) (n : Nat) : (s.portsGone h).railsOf n = s.railsOf n := by
  rw [railsOf, railsOf, portsGone_board]

theorem State.twin_eq_false {s : State} (h : s.geo.hasE = false) : s.twin = false := by
  rw [twin, h, Bool.and_false]

theorem State.clusters_of_west {s : State} (hw : s.geo.hasW = true) (he : s.geo.hasE = false) : s.clusters = [0] := by
  simp [clusters, twin_eq_false he, lead, hw]

/-- A Split half sees a fault of the other half as the loss of its Seam. -/
theorem exec_railFault_of_otherHalf {s : State} (hmode : s.geo.mode = 1) (hw : s.geo.hasW = true) (he : s.geo.hasE = false) :
    exec (.railFault 1) s = .next (settle s (s.seamGone.setLantern (fun l => { l with seamLost := true }))) := by
  change execRailFault 1 s = _
  rw [execRailFault, if_neg (by simp [State.twin_eq_false he]), if_neg (by simp [State.clusters_of_west hw he]), if_pos hmode]

/-- A device of one half loses all but its Lantern. -/
theorem exec_railFault_of_ownHalf {s : State} (hw : s.geo.hasW = true) (he : s.geo.hasE = false)
    (hr : s.board.railsW.vbaseSb = true) : exec (.railFault 0) s
    = .next (settle s ((((s.portsGone 0).holdReset.loseMemory).dropHalfRails 0).setThermal (fun t => { t with dropped := true }))) := by
  have hrails : (s.railsOf (0 : Fin 2).val).vbaseSb = true := hr
  change execRailFault 0 s = _
  rw [execRailFault, if_neg (by simp [State.twin_eq_false he]), if_pos (by simp [State.clusters_of_west hw he]), if_pos hrails]

theorem State.portsGone_holdReset_loseMemory_board (s : State) (h : Fin 2) :
    (s.portsGone h).holdReset.loseMemory.board = s.board :=
  ((State.loseMemory_only _).same .board (by decide)).trans
    (((State.holdReset_only _).same .board (by decide)).trans (s.portsGone_board h))

/-- Settles O52: the time VIN has stood good decides a start, and each fault comes down to its one equation. -/
theorem electrical : Obligations.Electrical := by
  refine ⟨fun s t v ht => ?_, exec_mateSnsChange, fun s v => ?_, fun s hv hf => ?_, fun s t hf => ?_, fun s => ?_,
    fun s h hw he hr => ?_, fun s h hw he hr => ?_, fun s h hmode hw he h1 => ?_, fun s h hw he h0 hr => ?_⟩
  · obtain rfl : t = s.atVin v := ht.trans (s.atVin_eq v).symm
    refine ⟨fun hno => exec_vinApply_of_early (Bool.eq_false_iff.mpr fun hdue => ?_), fun w hin hw hdue => ?_⟩
    · obtain ⟨hin, w, hw, hdue⟩ := (s.atVin v).startDue_iff.mp hdue
      rcases hno with hon | hearly
      · exact Bool.noConfusion (hon.symm.trans hin)
      · exact absurd hdue (Nat.not_le.mpr (hearly w hw))
    · have hup := (s.atVin v).powerUp_spec
      refine ⟨_, exec_vinApply_of_due ((s.atVin v).startDue_iff.mpr ⟨hin, w, hw, hdue⟩), ?_⟩
      have hvin : (s.atVin v).board.vin = v := rfl
      simpa [hvin] using hup
  · rw [exec_overvoltage]
    exact ⟨fun h => by rw [if_pos h], fun h => by rw [if_neg (Nat.not_lt.mpr h)]⟩
  · have hp : s.powered = true := by rcases hv with hv | hv <;> simp [State.powered, hv]
    exact ⟨_, exec_powerFail_of_powered hp hf, rfl, rfl, fun hw => if_pos hw, fun he => if_pos he, rfl, rfl, rfl, rfl, rfl⟩
  · rw [exec_retentionHandoff_of_failed hf]
    exact ⟨fun h => by rw [if_pos h], fun h => by rw [if_neg (Nat.not_le.mpr h)], exec_powerFail_of_failed hf⟩
  · rw [exec_retentionExpiry]
    exact ⟨fun h => by rw [h]; rfl, fun h => by rw [if_pos h]⟩
  · have ht : s.twin = true := by rw [State.twin, hw, he]; rfl
    refine ⟨_, by rw [exec_railFault_of_twin ht, if_pos hr], ?_, fun m hm => ?_, ?_, ?_⟩
    · exact (State.dropHalfRails_railsOf _ h).trans (congrArg Rails.alwaysOn (s.portsGone_railsOf h h))
    · rw [State.seamGone_seamMod _ hm]
      exact ⟨rfl, rfl⟩
    · exact (s.portsGone_only h).lantern_eq (by decide) (by decide)
    · exact (s.portsGone_only h).mem_eq (by decide) (by decide)
  · have ht : s.twin = true := by rw [State.twin, hw, he]; rfl
    rw [exec_railFault_of_twin ht, hr]
    rfl
  · subst h1
    refine ⟨_, exec_railFault_of_otherHalf hmode hw he, by simp, fun m hm => ?_⟩
    rw [settle_seamMod]
    exact congrArg SeamMod.state (s.seamGone_seamMod hm)
  · subst h0
    refine ⟨_, exec_railFault_of_ownHalf hw he hr, by simp, ?_⟩
    rw [settle_board]
    exact congrArg (fun b : Board => b.railsW.alwaysOn) (s.portsGone_holdReset_loseMemory_board 0)

end Sys2Proof.Machine
end

section
/-! PROOF. The I3C target (17_module_electrical.md R475 to R481): what traffic to a target that holds an address comes down to, and
the record it delivers. -/

namespace Sys2Proof.Machine

open Sys2Proof

theorem ofNat_min_eq (n : BitVec 16) (m : Nat) : (if n.toNat < m then n else BitVec.ofNat 16 m) = BitVec.ofNat 16 (min n.toNat m) := by
  split
  · next hlt => rw [Nat.min_eq_left hlt.le, BitVec.ofNat_toNat, BitVec.setWidth_eq]
  · next hge => rw [Nat.min_eq_right (Nat.not_lt.mp hge)]

/-! ## Traffic addressed to the target -/

section
variable {s : State} (h : s.i3cHere = true)
include h

theorem State.i3cServe_of_here (go : State) : s.i3cServe go = go := if_pos h

theorem exec_of_i3cServe {i : Instr} {go : State} (hi : exec i s = .next (s.i3cServe go)) : exec i s = .next go := by
  rw [hi, State.i3cServe_of_here h]

theorem exec_i3cWriteDiscard_of_here : exec .i3cWriteDiscard s
    = .next (s.setIntake 2 (fun i => { i with lockedWrites := satSucc i.lockedWrites })) :=
  exec_of_i3cServe h rfl

/-- A write that fits its operation and the maximum write length acts. -/
theorem State.i3cWrite_of_fit {n : Nat} {fits : Bool} (hfit : fits = true) (hn : n ≤ s.i3c.mwl.toNat) (go : State) :
    s.i3cWrite n fits go = go := by
  rw [i3cWrite, i3cServe_of_here h, if_pos (by simp [hfit, hn])]

/-- Any other is discarded and counted. -/
theorem State.i3cWrite_of_unfit {n : Nat} {fits : Bool} (hun : fits = false ∨ s.i3c.mwl.toNat < n) (go : State) :
    s.i3cWrite n fits go = s.lockedWrite 2 := by
  rw [i3cWrite, i3cServe_of_here h, if_neg]
  rcases hun with hfit | hn
  · simp [hfit]
  · simp [Nat.not_le.mpr hn]

theorem exec_i3cSlotWrite_of_fit {k : BitVec 8} {o : BitVec 16} {d : List Byte} (hk : k.toNat < 32) (ho : o.toNat % 4 = 0)
    (hd4 : d.length % 4 = 0) (hd : 4 ≤ d.length) (hend : o.toNat + d.length ≤ 256) (hmwl : 4 + d.length ≤ s.i3c.mwl.toNat) :
    exec (.i3cSlotWrite k o d) s = .next (s.slotWrite 2 k.toNat o.toNat d) := by
  change execI3cSlotWrite k o d s = _
  rw [execI3cSlotWrite, State.i3cWrite_of_fit h (by simp [hk, ho, hd4, hd, hend]) hmwl]

theorem exec_i3cSlotWrite_of_unfit {k : BitVec 8} {o : BitVec 16} {d : List Byte} (hun : 32 ≤ k.toNat ∨ o.toNat % 4 ≠ 0
      ∨ d.length % 4 ≠ 0 ∨ d.length < 4 ∨ 256 < o.toNat + d.length ∨ s.i3c.mwl.toNat < 4 + d.length) :
    exec (.i3cSlotWrite k o d) s = exec .i3cWriteDiscard s := by
  rw [exec_i3cWriteDiscard_of_here h]
  change execI3cSlotWrite k o d s = _
  rw [execI3cSlotWrite, State.i3cWrite_of_unfit h]
  · rfl
  · rcases hun with hk | ho | hd4 | hd | hend | hmwl
    · simp [Nat.not_lt.mpr hk]
    · simp [ho]
    · simp [hd4]
    · simp [Nat.not_le.mpr hd]
    · simp [Nat.not_le.mpr hend]
    · exact .inr hmwl

theorem exec_i3cSpaceRead_of_fit (hmwl : 10 ≤ s.i3c.mwl.toNat) (sp : BitVec 8) (o : BitVec 64) :
    exec (.i3cSpaceRead sp o) s = .next { s with i3c := { s.i3c with sel := .space sp.toNat o.toNat } } := by
  change execI3cSpaceRead sp o s = _
  rw [execI3cSpaceRead, State.i3cWrite_of_fit h rfl hmwl]
  rfl

theorem exec_i3cAttestNonce_of_fit {nonce : List Byte} (hlen : nonce.length = 32) (hmwl : 33 ≤ s.i3c.mwl.toNat)
    (hid : s.trust.identityOk = true) : exec (.i3cAttestNonce nonce) s
      = .next (State.ibi { s with i3c := { s.i3c with report := s.report noTdi nonce } } 0x02) := by
  change execI3cAttestNonce nonce s = _
  rw [execI3cAttestNonce, State.i3cWrite_of_fit h (by simp [hlen]) (by omega), if_pos hid]
  rfl

theorem exec_i3cRecordRead_of_fit (hmwl : 1 ≤ s.i3c.mwl.toNat) : exec .i3cRecordRead s
    = .next (s.setI3c (fun x => { x with sel := .record, fifoAt := if s.warden.bmcFifo.isEmpty then none else some s.now })) := by
  change execI3cRecordRead s = _
  rw [execI3cRecordRead, State.i3cWrite_of_fit h rfl hmwl]

/-! ## Private reads -/

theorem exec_i3cPrivateRead_of_space {sp o : Nat} (hsel : s.i3c.sel = .space sp o) (len : Nat) :
    exec (.i3cPrivateRead len) s
      = .next ((s.setI3c (fun x => { x with sel := .space sp (o + (s.spaceBytes sp o (min len s.i3c.mrl.toNat)).length) })).i3cSay
          (s.spaceBytes sp o (min len s.i3c.mrl.toNat))) := by
  change execI3cPrivateRead len s = _
  simp only [execI3cPrivateRead, State.i3cServe_of_here h, hsel]

theorem exec_i3cPrivateRead_of_none (hsel : s.i3c.sel = .none) (len : Nat) :
    exec (.i3cPrivateRead len) s = .next (s.emit (.i3cData [])) := by
  change execI3cPrivateRead len s = _
  simp only [execI3cPrivateRead, State.i3cServe_of_here h, hsel]
  rfl

theorem exec_i3cPrivateRead_of_record (hsel : s.i3c.sel = .record) (len : Nat) : exec (.i3cPrivateRead len) s
    = .next ((s.setI3c (fun x => { x with sel := .none })).readRecord (min len s.i3c.mrl.toNat)) := by
  change execI3cPrivateRead len s = _
  simp only [execI3cPrivateRead, State.i3cServe_of_here h, hsel]

/-! ## Limits and interrupts -/

theorem exec_i3cSetmwl_of_here (n : BitVec 16) : exec (.i3cSetmwl n) s
    = .next { s with i3c := { s.i3c with mwl := BitVec.ofNat 16 (min n.toNat 288) } } := by
  rw [← ofNat_min_eq]
  exact exec_of_i3cServe h rfl

theorem exec_i3cSetmrl_of_here (n : BitVec 16) : exec (.i3cSetmrl n) s
    = .next { s with i3c := { s.i3c with mrl := BitVec.ofNat 16 (min n.toNat 256) } } := by
  rw [← ofNat_min_eq]
  exact exec_of_i3cServe h rfl

theorem exec_i3cEnec_of_here (on : Bool) : exec (.i3cEnec on) s
    = .next { s with i3c := { s.i3c with ibiEn := s.i3c.ibiEn || on } } :=
  exec_of_i3cServe h rfl

theorem exec_ibi_of_disabled (hen : s.i3c.ibiEn = false) (acked : Bool) :
    exec (.ibiSend acked) s = .next s ∧ exec (.ibiRetry acked) s = .next s := by
  constructor
  · exact exec_of_i3cServe h (congrArg (fun go => Host.Outcome.next (s.i3cServe go)) (if_neg (by simp [hen])))
  · exact exec_of_i3cServe h (congrArg (fun go => Host.Outcome.next (s.i3cServe go)) (if_neg (by simp [hen])))

theorem exec_ibiSend_of_enabled (hen : s.i3c.ibiEn = true) (acked : Bool) :
    exec (.ibiSend acked) s = .next (if s.i3c.ibiRetryAt.isNone then s.sendIbi acked else s) := by
  change execIbiSend acked s = _
  rw [execIbiSend, State.i3cServe_of_here h, hen, Bool.true_and]

theorem exec_ibiRetry_of_enabled (hen : s.i3c.ibiEn = true) (acked : Bool) : exec (.ibiRetry acked) s
    = .next (if s.i3c.ibiRetryAt.any (fun t => decide (t ≤ s.now)) then s.sendIbi acked else s) := by
  change execIbiRetry acked s = _
  rw [execIbiRetry, State.i3cServe_of_here h, hen, Bool.true_and]

end

section
variable {s : State} {b : BitVec 8} {r : List (BitVec 8)} (hdue : s.i3c.ibiDue = b :: r)
include hdue

theorem State.sendIbi_of_acked :
    s.sendIbi true = State.emit { s with i3c := { s.i3c with ibiDue := r, ibiRetryAt := none } } (.ibi b) := by
  rw [sendIbi, hdue]
  rfl

theorem State.sendIbi_of_refused :
    s.sendIbi false = State.emit { s with i3c := { s.i3c with ibiRetryAt := some (s.now + 1000000) } } (.ibi b) := by
  rw [sendIbi, hdue]
  rfl

end

/-- The interrupt due first goes at once, or once its millisecond is over. -/
theorem ibi_of_due {s : State} (h : s.i3cHere = true) {b : BitVec 8} {r : List (BitVec 8)} (hen : s.i3c.ibiEn = true)
    (hdue : s.i3c.ibiDue = b :: r) :
    (s.i3c.ibiRetryAt = none →
      exec (.ibiSend true) s = .next (State.emit { s with i3c := { s.i3c with ibiDue := r, ibiRetryAt := none } } (.ibi b))
        ∧ exec (.ibiSend false) s = .next (State.emit { s with i3c := { s.i3c with ibiRetryAt := some (s.now + 1000000) } } (.ibi b)))
      ∧ (∀ t, s.i3c.ibiRetryAt = some t → t ≤ s.now →
        exec (.ibiRetry true) s = .next (State.emit { s with i3c := { s.i3c with ibiDue := r, ibiRetryAt := none } } (.ibi b)))
      ∧ (∀ t, s.i3c.ibiRetryAt = some t → s.now < t → exec (.ibiRetry true) s = .next s ∧ exec (.ibiSend true) s = .next s) := by
  refine ⟨fun hr => ?_, fun t hr ht => ?_, fun t hr ht => ?_⟩
  · rw [exec_ibiSend_of_enabled h hen, exec_ibiSend_of_enabled h hen, hr, State.sendIbi_of_acked hdue,
      State.sendIbi_of_refused hdue]
    exact ⟨rfl, rfl⟩
  · rw [exec_ibiRetry_of_enabled h hen, hr, Option.any_some, if_pos (decide_eq_true ht), State.sendIbi_of_acked hdue]
  · rw [exec_ibiRetry_of_enabled h hen, exec_ibiSend_of_enabled h hen, hr, Option.any_some,
      if_neg (by simpa using ht)]
    exact ⟨rfl, rfl⟩

/-! ## A target without an address -/

theorem State.i3cHere_of_addressless {s : State} (haddr : s.i3c.address = none) : s.i3cHere = false := by
  rw [i3cHere, haddr, Option.isSome_none, Bool.and_false]

section
variable {s : State} (hact : s.i3cActive = true)
include hact

theorem exec_i3cGetpid_of_assigned (a : BitVec 7) : exec .i3cGetpid { s with i3c := { s.i3c with address := some a } }
    = .next (State.emit { s with i3c := { s.i3c with address := some a } } (.i3cData s.pidBytes)) :=
  exec_of_i3cServe (by rw [State.i3cHere, Option.isSome_some, Bool.and_true]; exact hact) rfl

variable (haddr : s.i3c.address = none)
include haddr

theorem exec_i3cEntdaa_of_addressless (a : BitVec 7) : exec (.i3cEntdaa a) s
    = .next (State.emit { s with i3c := { s.i3c with address := some a, hotJoinAt := none } } (.i3cData (s.pidBytes ++ [0x0E, 0x00]))) := by
  change execI3cEntdaa a s = _
  rw [execI3cEntdaa, hact, haddr]
  rfl

theorem exec_hotJoinRequest_of_addressless : exec .hotJoinRequest s
    = .next (if s.i3c.hotJoinAt.all (fun t => decide (t + 100000000 ≤ s.now)) then
        State.emit { s with i3c := { s.i3c with hotJoinAt := some s.now } } .hotJoin else s) := by
  have hms : ms 100 = 100000000 := rfl
  change execHotJoinRequest s = _
  rw [execHotJoinRequest, hact, haddr, hms]
  rfl

theorem exec_hotJoinRequest_of_due (hdue : ∀ t, s.i3c.hotJoinAt = some t → t + 100000000 ≤ s.now) :
    exec .hotJoinRequest s = .next (State.emit { s with i3c := { s.i3c with hotJoinAt := some s.now } } .hotJoin) := by
  rw [exec_hotJoinRequest_of_addressless hact haddr, if_pos]
  cases ht : s.i3c.hotJoinAt with
  | none => rfl
  | some t =>
    rw [Option.all_some, decide_eq_true_eq]
    exact hdue t ht

theorem exec_hotJoinRequest_of_early {t : Nat} (ht : s.i3c.hotJoinAt = some t) (hearly : s.now < t + 100000000) :
    exec .hotJoinRequest s = .next s := by
  rw [exec_hotJoinRequest_of_addressless hact haddr, ht, Option.all_some, if_neg (by simpa using hearly)]

end

/-! ## The reminder -/

theorem exec_recordsWaitingReminder_of_waiting {s : State} {r : Rec} {l : List Rec} {t : Nat} (hf : s.warden.bmcFifo = r :: l)
    (ht : s.i3c.fifoAt = some t) : exec .recordsWaitingReminder s
      = .next (if t + 10000000 ≤ s.now then State.ibi { s with i3c := { s.i3c with fifoAt := some s.now } } 0x01 else s) := by
  have hms : ms 10 = 10000000 := rfl
  change execRecordsWaitingReminder s = _
  rw [execRecordsWaitingReminder, hf, ht, hms, List.isEmpty_cons, Bool.not_false, Bool.true_and, Option.any_some]
  exact congrArg Host.Outcome.next (if_congr decide_eq_true_iff rfl rfl)

/-- Settles O53: what is addressed to a target with an address acts, a write only where it fits; the interrupts go by
what is due and when. -/
theorem i3cTarget : Obligations.I3cTarget := by
  refine ⟨fun s h => ⟨fun k o d hk ho hd4 hd hend hmwl => exec_i3cSlotWrite_of_fit h hk ho hd4 hd hend hmwl,
      fun k o d => exec_i3cSlotWrite_of_unfit h, exec_i3cWriteDiscard_of_here h,
      fun sp o hmwl => exec_i3cSpaceRead_of_fit h hmwl sp o, fun nonce => exec_i3cAttestNonce_of_fit h,
      fun len sp o bs hsel hbs => ?_, fun len hsel => exec_i3cPrivateRead_of_none h hsel len,
      exec_of_i3cServe h rfl, fun a => exec_of_i3cServe h rfl, exec_of_i3cServe h rfl, exec_of_i3cServe h rfl,
      exec_of_i3cServe h rfl, exec_of_i3cServe h rfl, ?_, ?_, exec_of_i3cServe h rfl, exec_of_i3cServe h rfl,
      exec_of_i3cServe h rfl, exec_i3cSetmwl_of_here h, exec_of_i3cServe h rfl, exec_i3cSetmrl_of_here h,
      fun b r => ibi_of_due h, fun hen => ?_⟩,
    fun s a hact haddr => ⟨⟨s.pidBytes, exec_i3cGetpid_of_assigned hact a, exec_i3cEntdaa_of_addressless hact haddr a⟩,
      exec_hotJoinRequest_of_due hact haddr, fun t => exec_hotJoinRequest_of_early hact haddr, ?_⟩,
    fun s r l t hf ht => ⟨fun hdue => ?_, fun hearly => ?_⟩⟩
  · subst hbs
    exact exec_i3cPrivateRead_of_space h hsel len
  · rw [exec_i3cEnec_of_here h, Bool.or_true]
  · rw [exec_i3cEnec_of_here h, Bool.or_false]
  · exact exec_ibi_of_disabled h hen true
  · exact congrArg Host.Outcome.next (if_neg (by rw [State.i3cHere_of_addressless haddr]; exact Bool.false_ne_true))
  · rw [exec_recordsWaitingReminder_of_waiting hf ht, if_pos hdue]
  · rw [exec_recordsWaitingReminder_of_waiting hf ht, if_neg (Nat.not_le.mpr hearly)]

end Sys2Proof.Machine
end

section
/-! PROOF. RECORD_READ (17_module_electrical.md R480): the bytes of a record, field by field, and when it leaves the FIFO. -/

namespace Sys2Proof.Machine

open Sys2Proof

/-! ## Byte order -/

@[simp] theorem leBytes_length (n v : Nat) : (leBytes n v).length = n := by
  induction n generalizing v with
  | zero => rfl
  | succ k ih => rw [leBytes, List.length_cons, ih]

theorem leNat_leBytes (n v : Nat) : leNat (leBytes n v) = v % 256 ^ n := by
  induction n generalizing v with
  | zero => simp [leBytes, leNat, Nat.mod_one]
  | succ k ih => rw [leBytes, leNat, ih, BitVec.toNat_ofNat, show 2 ^ 8 = 256 from rfl, pow_succ', Nat.mod_mul]

theorem field_leBytes_head (n v : Nat) (post : List Byte) (hv : v < 256 ^ n) : field (leBytes n v ++ post) 0 n = v := by
  rw [field, List.drop_zero, List.take_left' (leBytes_length n v), leNat_leBytes, Nat.mod_eq_of_lt hv]

theorem field_leBytes_skip (k v : Nat) (post : List Byte) (off n : Nat) :
    field (leBytes k v ++ post) (k + off) n = field post off n := by
  rw [field, field, ← List.drop_drop, List.drop_left' (leBytes_length k v)]

/-! ## The record's bytes -/

theorem Status.code_lt (st : Status) : st.code < 2 ^ 16 := by
  cases st <;> decide

theorem Rec.bytes_length (r : Rec) : r.bytes.length = 32 := by
  simp [bytes]

theorem Rec.bytes_eq (r : Rec) : r.bytes = leBytes 8 r.hostTag.toNat ++ (leBytes 2 r.status.code ++ (leBytes 2 r.opsDone.toNat
    ++ (leBytes 4 r.detail.toNat ++ (leBytes 8 r.time.toNat ++ (leBytes 8 r.result.toNat ++ []))))) := by
  simp only [bytes, List.append_assoc, List.append_nil]

/-- Table 09-8b: each field stands at its offset. -/
theorem Rec.bytes_fields (r : Rec) : field r.bytes 0 8 = r.hostTag.toNat ∧ field r.bytes 8 2 = r.status.code
    ∧ field r.bytes 10 2 = r.opsDone.toNat ∧ field r.bytes 12 4 = r.detail.toNat ∧ field r.bytes 16 8 = r.time.toNat
    ∧ field r.bytes 24 8 = r.result.toNat := by
  have hresult := field_leBytes_head 8 r.result.toNat [] r.result.isLt
  have htime := field_leBytes_head 8 r.time.toNat (leBytes 8 r.result.toNat ++ []) r.time.isLt
  rw [bytes_eq]
  refine ⟨field_leBytes_head 8 _ _ r.hostTag.isLt, ?_, ?_, ?_, ?_, ?_⟩
  · rw [field_leBytes_skip 8 _ _ 0, field_leBytes_head 2 _ _ r.status.code_lt]
  · rw [field_leBytes_skip 8 _ _ 2, field_leBytes_skip 2 _ _ 0, field_leBytes_head 2 _ _ r.opsDone.isLt]
  · rw [field_leBytes_skip 8 _ _ 4, field_leBytes_skip 2 _ _ 2, field_leBytes_skip 2 _ _ 0, field_leBytes_head 4 _ _ r.detail.isLt]
  · rw [field_leBytes_skip 8 _ _ 8, field_leBytes_skip 2 _ _ 6, field_leBytes_skip 2 _ _ 4, field_leBytes_skip 4 _ _ 0, htime]
  · rw [field_leBytes_skip 8 _ _ 16, field_leBytes_skip 2 _ _ 14, field_leBytes_skip 2 _ _ 12, field_leBytes_skip 4 _ _ 8,
      field_leBytes_skip 8 _ _ 0, hresult]

/-! ## The read of a record -/

section
variable {s : State} {r : Rec} {l : List Rec} (hf : s.warden.bmcFifo = r :: l) {n : Nat}
include hf

theorem State.readRecord_of_whole (hn : 32 ≤ n) :
    (s.readRecord n).out = s.out ++ [.i3cData r.bytes] ∧ (s.readRecord n).warden.bmcFifo = l := by
  simp only [readRecord, hf, if_pos hn, List.take_of_length_le (r.bytes_length.trans_le hn)]
  exact ⟨rfl, rfl⟩

theorem State.readRecord_of_part (hn : n < 32) :
    (s.readRecord n).out = s.out ++ [.i3cData (r.bytes.take n)] ∧ (s.readRecord n).warden.bmcFifo = r :: l := by
  simp only [readRecord, hf, if_neg (Nat.not_le.mpr hn)]
  exact ⟨rfl, hf⟩

end

theorem State.readRecord_of_empty {s : State} (hf : s.warden.bmcFifo = []) (n : Nat) :
    (s.readRecord n).out = s.out ++ [.i3cData []] ∧ (s.readRecord n).warden.bmcFifo = [] := by
  rw [readRecord, hf]
  exact ⟨rfl, hf⟩

/-- The state right after RECORD_READ. -/
def State.recordSelected (s : State) : State :=
  s.setI3c (fun x => { x with sel := .record, fifoAt := if s.warden.bmcFifo.isEmpty then none else some s.now })

/-- A read while a record is selected, by what it leaves in the outputs and the FIFO. -/
theorem exec_i3cPrivateRead_of_selected {s : State} (h : s.i3cHere = true) (hsel : s.i3c.sel = .record) (n : Nat)
    {out : List Out} {fifo : List Rec}
    (hr : ((s.setI3c (fun x => { x with sel := .none })).readRecord (min n s.i3c.mrl.toNat)).out = out
      ∧ ((s.setI3c (fun x => { x with sel := .none })).readRecord (min n s.i3c.mrl.toNat)).warden.bmcFifo = fifo) :
    ∃ u, exec (.i3cPrivateRead n) s = .next u ∧ u.out = out ∧ u.warden.bmcFifo = fifo :=
  ⟨_, exec_i3cPrivateRead_of_record h hsel n, hr⟩

/-- Settles O54: RECORD_READ selects the record, and the read that follows delivers what it takes of it. -/
theorem recordRead : Obligations.RecordRead := by
  intro s h hmwl
  have hread := exec_i3cPrivateRead_of_selected (s := s.recordSelected) h rfl
  refine ⟨s.recordSelected, exec_i3cRecordRead_of_fit h hmwl, rfl, rfl, fun r l n hf => ?_, fun n hf => ?_⟩
  · obtain ⟨htag, hstatus, hops, hdetail, htime, hresult⟩ := r.bytes_fields
    refine ⟨r.bytes_length, htag, hstatus, hops, hdetail, htime, hresult, fun hn hmrl => hread n ?_, fun hn => hread n ?_⟩
    · exact State.readRecord_of_whole (s := s.recordSelected.setI3c _) hf (le_min hn hmrl)
    · exact State.readRecord_of_part (s := s.recordSelected.setI3c _) hf (min_lt_of_left_lt hn)
  · exact hread n (State.readRecord_of_empty (s := s.recordSelected.setI3c _) hf _)

end Sys2Proof.Machine
end

section
/-! PROOF. RESET_DEVICE, MOD_RESET_N and the pitches they begin (14_pitch.md R403 to R405, 17_module_electrical.md R472). -/

namespace Sys2Proof.Machine

open Sys2Proof

/-! ## RESET_DEVICE -/

section
variable {s u : State} {c : Fin 4} {k : Fin 1024} {a : Adm} (h : s.admission 0x0401 c k = some (u, a)) (hfull : field a.b 25 1 ≤ 1)
include h hfull

theorem exec_resetDevice_of_inRange (hkind : field a.b 24 1 ≤ 2) : exec (.resetDevice c k) s
    = .next (settle s (if field a.b 24 1 = 0 then a.computeReset u else a.pitch u)) := by
  change execResetDevice c k s = _
  rw [execResetDevice, State.serve_admission h, Adm.checked_of_pass]
  simp [hkind, hfull]

theorem exec_resetDevice_of_pitch (hkind : field a.b 24 1 = 1 ∨ field a.b 24 1 = 2) : exec (.resetDevice c k) s
    = .next (settle s ((a.done (u.strikeEverything .struck (strikeDetail (mbSeq a.b) c) [a.tag])).askReset (field a.b 24 1)
        (decide (field a.b 25 1 = 1)) none)) := by
  rw [exec_resetDevice_of_inRange h hfull (by omega), if_neg (by omega), Adm.pitch, (State.admission_adm h).1]

end

theorem Adm.computeReset_stage (a : Adm) (s : State) : (a.computeReset s).lantern.stage = 0xB := rfl

/-! ## The end of a compute reset -/

/-- The device once its units and its Warden run again after a compute reset, back in READY. -/
def State.unitsRestarted (s : State) (failed : List (Fin 1024)) : State :=
  (State.setLantern ((s.flushStores.releaseRanges.resetUnits).retireFailed failed).restartWarden
    (fun l => { l with job := none })).toStage 0xF

section
variable {s : State} {j : ResetJob} (hj : s.lantern.job = some j) (hin : s.computeReset = true) (hkind : j.kind = 0)
  (hstrikes : s.warden.strikes = []) (failed : List (Fin 1024))
include hj hin hkind hstrikes

theorem exec_computeResetComplete_of_otherFirmware :
    exec (.computeResetComplete false failed) s = .next (s.askReset 1 false none) := by
  change execComputeResetComplete false failed s = _
  simp [execComputeResetComplete, hj, hin, hkind, hstrikes]

theorem exec_computeResetComplete_of_sameFirmware {g : Nat} (hg : j.tag = some g) :
    exec (.computeResetComplete true failed) s = .next (settle s ((s.unitsRestarted failed).endCmd g
      { status := .done, result := BitVec.ofNat 64 ((s.now - s.lantern.start) / 1000) })) := by
  change execComputeResetComplete true failed s = _
  simp only [execComputeResetComplete, hj, hin, hkind, hstrikes, hg, List.isEmpty_nil, decide_true, Bool.and_self, if_true,
    Bool.not_true, Bool.false_eq_true, if_false]
  rfl

end

theorem exec_computeResetComplete_of_strikes {s : State} (hstrikes : s.warden.strikes ≠ []) (ok : Bool)
    (failed : List (Fin 1024)) : exec (.computeResetComplete ok failed) s = .next s := by
  have hempty : s.warden.strikes.isEmpty = false := by simpa using hstrikes
  change execComputeResetComplete ok failed s = _
  rw [execComputeResetComplete]
  cases s.lantern.job with
  | none => rfl
  | some j => exact congrArg Host.Outcome.next (if_neg (by simp [hempty]))

/-! ## The pitch that was asked for -/

section
variable {s : State} {j : ResetJob} (hj : s.lantern.job = some j)
include hj

theorem exec_resetPitchStart_of_due (hkind : 1 ≤ j.kind) (hlow : s.board.resetLow = false)
    (hdue : s.recordsGone = true ∨ j.since + 2000000 ≤ s.now) : exec .resetPitchStart s
      = .next (settle s (if j.kind = 1 then s.startWarm j.full false else s.dropForCold j.full)) := by
  have hms : ms 2 = 2000000 := rfl
  change execResetPitchStart s = _
  rw [execResetPitchStart, hj, hms]
  exact congrArg Host.Outcome.next (if_pos (by simpa [hkind, hlow] using hdue))

theorem exec_resetPitchStart_of_early (hrec : s.recordsGone = false) (hearly : s.now < j.since + 2000000) :
    exec .resetPitchStart s = .next s := by
  have hms : ms 2 = 2000000 := rfl
  change execResetPitchStart s = _
  rw [execResetPitchStart, hj, hms]
  exact congrArg Host.Outcome.next (if_neg (by simp [hrec, Nat.not_le.mpr hearly]))

end

section
variable {s : State} {t : Nat} (ht : s.lantern.railsDropped = some t)
include ht

theorem exec_coldPitchRailsReturn_of_due (hstage : s.lantern.stage = 0) (hin : s.board.inputOn = true)
    (hdue : t + 200000000 ≤ s.now) :
    exec .coldPitchRailsReturn s = .next (settle s (s.startCold s.lantern.full false)) := by
  have hms : ms 200 = 200000000 := rfl
  change execColdPitchRailsReturn s = _
  rw [execColdPitchRailsReturn, ht, hms]
  exact congrArg Host.Outcome.next (if_pos (by simp [hstage, hin, hdue]))

theorem exec_coldPitchRailsReturn_of_early (hearly : s.now < t + 200000000) : exec .coldPitchRailsReturn s = .next s := by
  have hms : ms 200 = 200000000 := rfl
  change execColdPitchRailsReturn s = _
  rw [execColdPitchRailsReturn, ht, hms]
  exact congrArg Host.Outcome.next (if_neg (by simp [Nat.not_le.mpr hearly]))

end

/-! ## MOD_RESET_N -/

/-- The state with MOD_RESET_N at a level. -/
def State.atReset (s : State) (low : Bool) : State := { s with board := { s.board with resetLow := low } }

/-- A device past stage 0 whose cold pitch does not wait does not stay as it is. -/
theorem State.not_stays_of {s : State} (hstage : s.lantern.stage ≠ 0) (hcold : s.coldWaits = false) :
    ¬ (s.lantern.stage = 0 ∨ s.coldWaits = true) :=
  not_or.mpr ⟨hstage, Bool.eq_false_iff.mp hcold⟩

/-- What none of the Warden's parts holds leaves the Warden whole. -/
theorem Only.warden_eq {L : List Part} {s t : State} (h : Only L s t)
    (hL : ([.ics, .wdogs, .sealed, .bmcFifo, .commands] : List Part).all (fun p => !L.contains p) = true) :
    t.warden = s.warden := by
  simp only [List.all_cons, List.all_nil, Bool.and_true, Bool.and_eq_true, Bool.not_eq_true', List.contains_eq_mem,
    decide_eq_false_iff_not] at hL
  obtain ⟨hics, hwdogs, hsealed, hfifo, hcommands⟩ := hL
  have hi : t.warden.ics = s.warden.ics := h.same .ics hics
  have hw : t.warden.wdogs = s.warden.wdogs := h.same .wdogs hwdogs
  have hs : t.warden.sealed = s.warden.sealed := h.same .sealed hsealed
  have hf : t.warden.bmcFifo = s.warden.bmcFifo := h.same .bmcFifo hfifo
  have hc : t.warden = { s.warden with ics := t.warden.ics, wdogs := t.warden.wdogs, sealed := t.warden.sealed,
                                       bmcFifo := t.warden.bmcFifo } := h.same .commands hcommands
  rw [hc, hi, hw, hs, hf]

theorem exec_modResetNAssert_of_low {s : State} (hlow : s.board.resetLow = true) : exec .modResetNAssert s = .next s :=
  congrArg Host.Outcome.next (if_pos hlow)

section
variable {s : State} (hhigh : s.board.resetLow = false)
include hhigh

theorem exec_modResetNAssert_of_high : exec .modResetNAssert s = .next (if s.lantern.stage = 0 ∨ s.coldWaits = true then s.atReset true
    else settle s (s.atReset true).holdReset) :=
  congrArg Host.Outcome.next (if_neg (by rw [hhigh]; exact Bool.false_ne_true))

theorem exec_modResetNRelease_of_high : exec .modResetNRelease s = .next s :=
  congrArg Host.Outcome.next (if_pos (by rw [hhigh]; rfl))

end

section
variable {s : State} (hlow : s.board.resetLow = true)
include hlow

theorem exec_modResetNRelease_of_low : exec .modResetNRelease s = .next (settle s (if s.board.waitingReset then
      State.gate { s with board := { s.board with resetLow := false, waitingReset := false } }
    else if s.lantern.stage = 0 ∨ s.coldWaits = true then s.atReset false
    else match s.lantern.job with
      | some j => (s.atReset false).dropForCold j.full
      | none => (s.atReset false).startWarm false true)) :=
  congrArg Host.Outcome.next (if_neg (by rw [hlow]; exact Bool.false_ne_true))

theorem exec_modResetNRelease_of_waiting (hw : s.board.waitingReset = true) : exec .modResetNRelease s
    = .next (settle s (State.gate { s with board := { s.board with resetLow := false, waitingReset := false } })) := by
  rw [exec_modResetNRelease_of_low hlow, if_pos hw]

theorem exec_modResetNRelease_of_held (hw : s.board.waitingReset = false) (hstage : s.lantern.stage ≠ 0)
    (hcold : s.coldWaits = false) : exec .modResetNRelease s = .next (settle s (match s.lantern.job with
      | some j => (s.atReset false).dropForCold j.full
      | none => (s.atReset false).startWarm false true)) := by
  rw [exec_modResetNRelease_of_low hlow, hw, if_neg Bool.false_ne_true,
    if_neg (State.not_stays_of hstage hcold)]

end

/-- Settles O41: each of the resets comes down to its one equation, by the job that stands and its time. -/
theorem resets : Obligations.Resets := by
  refine ⟨fun s u c k a h hfull => ⟨fun hkind => ⟨?_, a.computeReset_stage u⟩,
      fun hkind => ⟨_, rfl, exec_resetDevice_of_pitch h hfull hkind⟩⟩,
    fun s failed j hj hin hkind hstrikes => ⟨exec_computeResetComplete_of_otherFirmware hj hin hkind hstrikes failed,
      fun u g hg hu => ?_⟩,
    fun s failed ok hstrikes => exec_computeResetComplete_of_strikes hstrikes ok failed,
    fun s => ⟨rfl, rfl, s.resetUnits_only⟩, fun s j hj => exec_resetPitchStart_of_due hj,
    fun s j hj => exec_resetPitchStart_of_early hj,
    fun s t ht hstage hin => ⟨exec_coldPitchRailsReturn_of_due ht hstage hin, exec_coldPitchRailsReturn_of_early ht⟩,
    fun s => exec_modResetNAssert_of_low, fun s hhigh hstage hcold => ?_, fun s hhigh hno => ?_,
    fun s => exec_modResetNRelease_of_high, fun s t hlow ht hw hstage hcold => ⟨fun hj => ?_, fun j hj => ?_⟩,
    fun s => exec_modResetNRelease_of_waiting⟩
  · rw [exec_resetDevice_of_inRange h hfull (by omega), if_pos hkind]
  · subst hu
    exact exec_computeResetComplete_of_sameFirmware hj hin hkind hstrikes failed hg
  · have hOnly := settle_only s (s.atReset true).holdReset
    have hbytes : (settle s (s.atReset true).holdReset).mem.bytes = s.mem.bytes := by
      have hmem : (settle s (s.atReset true).holdReset).mem = _ := hOnly.same .mem (by decide)
      rw [hmem]
      rfl
    exact ⟨_, by rw [exec_modResetNAssert_of_high hhigh, if_neg (State.not_stays_of hstage hcold)],
      congrArg Board.resetLow (settle_board _ _), hOnly.warden_eq (by decide), hOnly.same .intakes (by decide),
      hOnly.same .cores (by decide), hOnly.same .kv (by decide), hOnly.same .cv (by decide), hOnly.same .far (by decide),
      settle_trust _ _, hOnly.same .time (by decide), hbytes, hOnly.own_eq (by decide) (by decide) (by decide),
      hOnly.same .rations (by decide)⟩
  · rw [exec_modResetNAssert_of_high hhigh, if_pos hno]
    rfl
  · subst ht
    rw [exec_modResetNRelease_of_held hlow hw hstage hcold, hj]
    rfl
  · subst ht
    rw [exec_modResetNRelease_of_held hlow hw hstage hcold, hj]
    rfl

end Sys2Proof.Machine
end

section
/-! PROOF. The check-value channels (16_faults_blast_radius.md R437 to R443): what an owner's write does to a channel, its compare
and the end of its scan. -/

namespace Sys2Proof.Machine

open Sys2Proof

/-! ## Writes from a port -/

/-- An update of a channel goes by what the channel holds. -/
theorem State.setChan_congr {s : State} {c : Nat} {f g : CvChan → CvChan} (h : f (s.chan c) = g (s.chan c)) :
    s.setChan c f = s.setChan c g := by
  have hcv : look s.cv c {} = s.chan c := rfl
  rw [setChan, setChan, upd, upd, hcv, h]

section
variable {s : State} {p : Fin 2} {c : Nat} (hw : s.hostWrites p = true) (hc : s.hasChan c = true)
include hw hc

theorem State.cvWrite_of_owner (ho : s.owns p = true) (go : State → State) : s.cvWrite p c go = go s := by
  rw [cvWrite, hw, hc, ho]
  rfl

theorem State.cvWrite_of_other (ho : s.owns p = false) (go : State → State) : s.cvWrite p c go = s.deny p := by
  rw [cvWrite, hw, hc, ho]
  rfl

end

section
variable {s : State} {c : Nat}

theorem State.cvDoGo_of_idle (hscan : (s.chan c).scanning = false) (hcheck : (s.chan c).checking = false)
    (hfifo : (s.chan c).fifo = []) (hcont : (s.chan c).continue' = false) (by' : Fin 4) :
    s.cvDoGo c by' = s.setChan c (fun x => { x with
      scanning := true, match' := false, latched := some (x.alg, x.start.toNat, x.len.toNat), by' := by'
      crc := if x.alg then 0 else 0xFFFFFFFF, doneBytes := 0 }) := by
  refine setChan_congr ?_
  simp [CvChan.busy, hscan, hcheck, CvChan.drain, hfifo, hcont, cvInit]

theorem State.cvDoGo_of_scanning (hscan : (s.chan c).scanning = true) (by' : Fin 4) :
    s.cvDoGo c by' = s.setChan c (fun x => { x with overrun := true }) :=
  setChan_congr (if_pos (by rw [CvChan.busy, hscan, Bool.true_or]))

theorem State.cvDoCheck_of_idle (hscan : (s.chan c).scanning = false) (hcheck : (s.chan c).checking = false) :
    s.cvDoCheck c = s.setChan c (fun x => { x with checking := true, match' := false }) :=
  setChan_congr (if_neg (by rw [CvChan.busy, hscan, hcheck]; exact Bool.false_ne_true))

theorem State.cvDoAbort_of_idle (hscan : (s.chan c).scanning = false) : s.cvDoAbort c = s :=
  if_neg (Bool.eq_false_iff.mp hscan)

/-- An abort ends the scan; what it leaves in the running state are free values. -/
theorem State.cvDoAbort_of_scanning (hscan : (s.chan c).scanning = true) :
    ((s.cvDoAbort c).chan c).scanning = false ∧ ((s.cvDoAbort c).chan c).match' = (s.chan c).match'
      ∧ ((s.cvDoAbort c).chan c).mismatch = (s.chan c).mismatch ∧ ∀ n, n ≠ c → (s.cvDoAbort c).chan n = s.chan n := by
  have habort : s.cvDoAbort c = s.draw.2.draw.2.setChan c (fun ch =>
      { ch with scanning := false, crc := BitVec.ofNat 64 s.draw.1, doneBytes := BitVec.ofNat 64 s.draw.2.draw.1 }) := if_pos hscan
  have hchan (n : Nat) : s.draw.2.draw.2.chan n = s.chan n := rfl
  rw [habort, setChan_chan, hchan]
  exact ⟨rfl, rfl, rfl, fun n hn => (setChan_chan_ne _ _ _ hn).trans (hchan n)⟩

theorem State.cvDoFeed_of_room (hscan : (s.chan c).scanning = false) (hroom : (s.chan c).fifo.length < 16) (bs : List Byte) :
    s.cvDoFeed c bs = s.setChan c (fun x => { x with fifo := x.fifo ++ [bs] }) :=
  setChan_congr (if_neg (by simp [hscan, hroom]))

theorem State.cvDoFeed_of_lost (hlost : (s.chan c).scanning = true ∨ 16 ≤ (s.chan c).fifo.length) (bs : List Byte) :
    s.cvDoFeed c bs = s.setChan c (fun x => { x with overrun := true }) :=
  setChan_congr (if_pos (by simpa using hlost))

end

/-! ## The compare -/

/-- What the compare finds: the result meets what was expected. -/
def CvChan.meets (c : CvChan) : Bool :=
  if c.alg then decide (c.result = c.expect) else decide (c.result.setWidth 32 = c.expect.setWidth 32)

theorem CvChan.compare_eq (c : CvChan) : c.compare = if c.meets && !c.overrun then
    ({ c with match' := true, checking := false }, false) else ({ c with mismatch := true, checking := false }, true) := rfl

theorem CvChan.compare_of_match {c : CvChan} (hm : c.meets = true) (ho : c.overrun = false) :
    c.compare = ({ c with match' := true, checking := false }, false) := by
  rw [compare_eq, hm, ho]
  rfl

theorem CvChan.compare_of_overrun {c : CvChan} (ho : c.overrun = true) :
    c.compare = ({ c with mismatch := true, checking := false }, true) := by
  rw [compare_eq, ho, Bool.not_true, Bool.and_false, if_neg Bool.false_ne_true]

theorem CvChan.compare_checking (c : CvChan) : c.compare.1.checking = false := by
  rw [compare_eq]
  split <;> rfl

theorem CvChan.meets_of_crc64 {c : CvChan} (halg : c.alg = true) (h : c.crc = c.expect) : c.meets = true := by
  rw [meets, result, halg]
  exact decide_eq_true h

/-- For CRC-32C only the low word counts. -/
theorem CvChan.meets_of_crc32 {c : CvChan} (halg : c.alg = false)
    (h : (c.crc.toNat % 2 ^ 32) ^^^ 0xFFFFFFFF = c.expect.toNat % 2 ^ 32) : c.meets = true := by
  have hlow : c.result.setWidth 32 = c.expect.setWidth 32 := by
    apply BitVec.eq_of_toNat_eq
    rw [result, halg, if_neg Bool.false_ne_true, BitVec.toNat_setWidth, BitVec.toNat_setWidth, BitVec.toNat_ofNat, h]
    omega
  rw [meets, halg]
  exact decide_eq_true hlow

/-- A mismatch raises its source and, where it is enabled, sends its vector on the owner's host port. -/
def State.tellMismatch (s : State) (ch : CvChan) : State :=
  let u := s.raise 37
  if ch.irqEn && decide (2 ≤ ch.vector.toNat) && u.own.valid then
    match u.own.id with
    | 0 => u.msix 0 ch.vector.toNat
    | 1 => u.msix 1 ch.vector.toNat
    | _ => u
  else u

theorem State.cvDoCompare_eq (s : State) (c : Nat) : s.cvDoCompare c = if (s.chan c).compare.2 = false then
      s.setChan c (fun _ => (s.chan c).compare.1)
    else (s.setChan c (fun _ => (s.chan c).compare.1)).tellMismatch (s.chan c).compare.1 := by
  cases h : (s.chan c).compare.2 <;> simp only [cvDoCompare, h] <;> rfl

theorem State.tellMismatch_chan (s : State) (ch : CvChan) (n : Nat) : (s.tellMismatch ch).chan n = s.chan n := by
  have hraise : (s.raise 37).cv = s.cv := (raise_only ..).same .cv (by decide)
  have hmsix (p : Fin 2) : ((s.raise 37).msix p ch.vector.toNat).cv = s.cv := ((msix_only ..).same .cv (by decide)).trans hraise
  rw [tellMismatch, chan, chan]
  split
  · split
    · rw [hmsix]
    · rw [hmsix]
    · rw [hraise]
  · rw [hraise]

/-- Whatever a mismatch tells whom, the channel holds what the compare left. -/
theorem State.cvDoCompare_chan (s : State) (c : Nat) : (s.cvDoCompare c).chan c = (s.chan c).compare.1 := by
  rw [cvDoCompare_eq]
  split
  · rw [setChan_chan]
  · rw [tellMismatch_chan, setChan_chan]

theorem exec_cvCompare_of_due {s : State} {c : Fin 16} (hcheck : (s.chan c).checking = true) (hfifo : (s.chan c).fifo = []) :
    exec (.cvCompare c) s = .next (s.cvDoCompare c) :=
  congrArg Host.Outcome.next (if_pos ⟨hcheck, hfifo⟩)

theorem exec_cvCompare_of_notDue {s : State} {c : Fin 16} (h : (s.chan c).checking = false ∨ (s.chan c).fifo ≠ []) :
    exec (.cvCompare c) s = .next s :=
  congrArg Host.Outcome.next (if_neg fun ⟨hcheck, hfifo⟩ =>
    h.elim (fun h => Bool.false_ne_true (h.symm.trans hcheck)) (fun h => h hfifo))

/-- What a compare leaves in its channel. -/
theorem CvChan.compare_match {c : CvChan} (hm : c.meets = true) (ho : c.overrun = false) :
    c.compare.1.match' = true ∧ c.compare.1.mismatch = c.mismatch := by
  rw [compare_of_match hm ho]
  exact ⟨rfl, rfl⟩

/-! ## The end of a scan -/

theorem exec_cvScanEnd_of_idle {s : State} {c : Fin 16} (hscan : (s.chan c).scanning = false) :
    exec (.cvScanEnd c) s = .next s := by
  change execCvScanEnd c s = _
  simp only [execCvScanEnd, hscan]

/-- The channel as a scan of `n` bytes leaves it. -/
def CvChan.scanned (x : CvChan) (crc : BitVec 64) (n : Nat) : CvChan :=
  { x with scanning := false, crc := crc, doneBytes := x.doneBytes + BitVec.ofNat 64 n }

section
variable {s t : State} {c : Fin 16} {alg : Bool} {start len n : Nat} {crc : BitVec 64} (hscan : (s.chan c).scanning = true)
  (hl : (s.chan c).latched = some (alg, start, len))
include hscan hl

theorem exec_cvScanEnd_of_whole
    (hs : s.cvScan alg (s.chan c).by' (s.chan c).crc start len (len / 128 + 2) = (t, crc, n, none)) :
    exec (.cvScanEnd c) s = .next ((t.setChan c (fun x => x.scanned crc n)).cvDoCompare c) := by
  change execCvScanEnd c s = _
  simp only [execCvScanEnd, hscan, hl, linesFor, hs]
  rfl

theorem exec_cvScanEnd_of_fault {k a : Nat}
    (hs : s.cvScan alg (s.chan c).by' (s.chan c).crc start len (len / 128 + 2) = (t, crc, n, some (k, a))) :
    exec (.cvScanEnd c) s = .next ((t.setChan c (fun x => x.scanned crc n)).setChan c
      (fun x => { x with fault := true, faultKind := BitVec.ofNat 8 k, faultAddr := BitVec.ofNat 64 a })) := by
  change execCvScanEnd c s = _
  simp only [execCvScanEnd, hscan, hl, linesFor, hs]
  rfl

end

/-- Settles O58: an owner's write acts by the channel's state, another's is denied; the compare and the scan's end come down to
what they find. -/
theorem checkValues : Obligations.CheckValues := by
  refine ⟨fun s p c hw hc ho => ?_, fun s p c hw hc ho => ?_, fun s c hcheck hfifo => ?_, fun s c => exec_cvCompare_of_notDue,
    fun s u c alg start len n crc f t hscan hl hs hu => ?_, fun s c => exec_cvScanEnd_of_idle⟩
  · have howner {i : Instr} {go : State → State} (hi : exec i s = .next (s.cvWrite p c go)) : exec i s = .next (go s) := by
      rw [hi, State.cvWrite_of_owner hw hc ho]
    have hfeed (n : Nat) {i : Instr} {v : BitVec 32}
        (hi : exec i s = .next (s.cvWrite p c (fun t => t.cvDoFeed c (leBytes n v.toNat)))) :
        exec i s = .next (s.cvDoFeed c (leBytes n v.toNat)) := howner hi
    refine ⟨fun hscan hcheck hfifo hcont => ?_, fun hscan => ?_, howner (go := fun t => t.cvDoReset c) rfl, fun hscan hcheck => ?_, fun hscan => ?_,
      fun hscan => ?_, fun v => ⟨fun hscan hroom => ?_, fun hlost => ?_⟩⟩
    · rw [← State.cvDoGo_of_idle hscan hcheck hfifo hcont]
      exact howner (go := fun t => t.cvDoGo c (ctrlOf p)) rfl
    · rw [← State.cvDoGo_of_scanning hscan (ctrlOf p)]
      exact howner (go := fun t => t.cvDoGo c (ctrlOf p)) rfl
    · rw [← State.cvDoCheck_of_idle hscan hcheck]
      exact howner (go := fun t => t.cvDoCheck c) rfl
    · obtain ⟨hend, hmatch, hmismatch, hothers⟩ := State.cvDoAbort_of_scanning hscan
      exact ⟨_, howner rfl, hend, hmatch, hmismatch, hothers⟩
    · exact (howner rfl).trans (congrArg Host.Outcome.next (State.cvDoAbort_of_idle hscan))
    · simp only [← State.cvDoFeed_of_room hscan hroom]
      exact ⟨hfeed 1 rfl, hfeed 2 rfl, hfeed 4 rfl⟩
    · have hb : exec (.cvFeedB p c v) s = _ := hfeed 1 rfl
      have hh : exec (.cvFeedH p c v) s = _ := hfeed 2 rfl
      have hword : exec (.cvFeedW p c v) s = _ := hfeed 4 rfl
      rw [hb, hh, hword, State.cvDoFeed_of_lost hlost, State.cvDoFeed_of_lost hlost, State.cvDoFeed_of_lost hlost]
      exact ⟨rfl, rfl, rfl⟩
  · have hdeny {i : Instr} {go : State → State} (hi : exec i s = .next (s.cvWrite p c go)) : exec i s = .next (s.deny p) := by
      rw [hi, State.cvWrite_of_other hw hc ho]
    exact ⟨hdeny rfl, hdeny rfl, hdeny rfl, hdeny rfl, fun v => ⟨hdeny rfl, hdeny rfl, hdeny rfl⟩⟩
  · refine ⟨_, exec_cvCompare_of_due hcheck hfifo, ?_⟩
    rw [State.cvDoCompare_chan]
    exact ⟨CvChan.compare_checking _, fun halg ho h => CvChan.compare_match (CvChan.meets_of_crc64 halg h) ho,
      fun halg ho h => CvChan.compare_match (CvChan.meets_of_crc32 halg h) ho, fun ho => by rw [CvChan.compare_of_overrun ho]⟩
  · subst hu
    refine ⟨fun hf => ?_, fun k a hf => ?_⟩
    · subst hf
      exact exec_cvScanEnd_of_whole hscan hl hs
    · subst hf
      exact exec_cvScanEnd_of_fault hscan hl hs

end Sys2Proof.Machine
end

section
/-! PROOF. The event record (16_faults_blast_radius.md R444 to R446, R453, 18_register_maps.md R498): what an event does by the window
of its kind and source, and what closes a window and reads the record. -/

namespace Sys2Proof.Machine

open Sys2Proof

/-! ## An event and its window -/

/-- The window an event opens. -/
def State.openedBy (s : State) (ev : Event) : RepeatWin :=
  { kind := ev.kind, unit := ev.unit, closes := s.now + 1000000000 - (s.rtNow - ev.time.toNat),
    written := 1, suppressed := 0, last := none }

/-- A window in place of the one of its kind and source. -/
def State.putWindow (s : State) (ev : Event) (w : RepeatWin) : State :=
  { s with events := { s.events.dropWindow ev.kind ev.unit with windows := (s.events.dropWindow ev.kind ev.unit).windows ++ [w] } }

theorem State.putWindow_mem (s : State) (ev : Event) (w : RepeatWin) : w ∈ (s.putWindow ev w).events.windows :=
  List.mem_append_right _ (List.mem_singleton.mpr rfl)

theorem only_events (s : State) (e : Events) : Only [.events] s { s with events := e } :=
  ⟨fun p hp => by cases p <;> first | exact absurd (by decide) hp | rfl | exact ⟨rfl, rfl⟩⟩

theorem State.recordEvent_of_noWindow {s : State} {ev : Event} (hw : s.events.window ev.kind ev.unit = none) (late : Bool) :
    s.recordEvent ev late
      = State.writeEvent { s with events := { s.events with windows := s.events.windows ++ [s.openedBy ev] } } ev 0 late := by
  simp only [recordEvent, hw]
  rfl

section
variable {s : State} {ev : Event} {w : RepeatWin} (hw : s.events.window ev.kind ev.unit = some w) (hopen : s.now < w.closes)
  (late : Bool)
include hw hopen

theorem State.recordEvent_of_room (hn : w.written < 16) :
    s.recordEvent ev late = (s.putWindow ev { w with written := w.written + 1 }).writeEvent ev 0 late := by
  simp only [recordEvent, hw, if_neg (Nat.not_le.mpr hopen), if_pos hn]
  rfl

theorem State.recordEvent_of_full (hn : 16 ≤ w.written) :
    s.recordEvent ev late = s.putWindow ev { w with suppressed := w.suppressed + 1, last := some ev } := by
  simp only [recordEvent, hw, if_neg (Nat.not_le.mpr hopen), if_neg (Nat.not_lt.mpr hn)]
  rfl

end

/-! ## The oldest event -/

/-- The state with its oldest queued event taken. -/
def State.takeEvent (s : State) (r : List Event) : State :=
  { s with events := { s.events with queue := r, late := s.events.late - 1 } }

section
variable {s : State} (hstage : s.lantern.stage ≠ 0)
include hstage

theorem exec_eventRecordWrite_of_lost (hlost : 0 < s.events.lost) : exec .eventRecordWrite s
    = .next (State.recordEvent { s with events := { s.events with lost := 0 } }
        (s.mkEvent 0x0603 s.lead 2 (.args (BitVec.ofNat 64 s.events.lost) 0 0 0)) false) := by
  change execEventRecordWrite s = _
  rw [execEventRecordWrite, if_neg hstage, if_pos hlost]

variable (hlost : s.events.lost = 0)
include hlost

theorem exec_eventRecordWrite_of_empty (hq : s.events.queue = []) : exec .eventRecordWrite s = .next s := by
  change execEventRecordWrite s = _
  rw [execEventRecordWrite, if_neg hstage, if_neg (by omega), hq]

theorem exec_eventRecordWrite_of_queued {ev : Event} {r : List Event} (hq : s.events.queue = ev :: r) :
    exec .eventRecordWrite s = .next ((s.takeEvent r).recordEvent ev (decide (0 < s.events.late))) := by
  change execEventRecordWrite s = _
  rw [execEventRecordWrite, if_neg hstage, if_neg (by omega), hq]
  rfl

end

/-! ## The end of a window -/

section
variable {s : State} {kind : BitVec 16} {src : Nat} {w : RepeatWin} (hw : s.events.window kind src = some w)
include hw

theorem exec_eventWindowClose_of_window (hstage : s.lantern.stage ≠ 0) : exec (.eventWindowClose kind src) s
    = .next (if w.closes ≤ s.now then s.closeWindow kind src else s) := by
  change execEventWindowClose kind src s = _
  simp only [execEventWindowClose, hw, hstage, ne_eq, not_false_eq_true, true_and]

theorem State.closeWindow_of_last {ev : Event} (hl : w.last = some ev) : s.closeWindow kind src
    = if 0 < w.suppressed then State.writeEvent { s with events := s.events.dropWindow kind src } ev w.suppressed false
      else { s with events := s.events.dropWindow kind src } := by
  simp only [closeWindow, hw, hl]

end

/-! ## Reading, and the deferred message -/

theorem exec_eventRead_of_inRange {s u : State} {c : Fin 4} {k : Fin 1024} {a : Adm} (h : s.admission 0x0600 c k = some (u, a))
    (hc : c.val < 2) (hcount : field a.b 28 4 ≤ 262144) (haddr : field a.b 32 8 % 64 = 0) :
    exec (.eventRead c k) s = .next (a.readOut u (field a.b 28 4) (field a.b 32 8)
      (((u.events.from' (field a.b 24 4)).take (field a.b 28 4)).flatMap EventRec.bytes)
      ((u.events.from' (field a.b 24 4)).take (field a.b 28 4)).length) := by
  change execEventRead c k s = _
  rw [execEventRead, State.serve_admission h, Adm.checked_of_pass, Adm.readOut]
  simp [Adm.noPort_of_hostPort (Adm.ctrl_lt_two_of_admission h hc), hcount, haddr]

theorem exec_lsVector0Deferred_of_deferred {s : State} {p : Fin 2} {t : Nat} (ht : (s.port p).v0Last = some t)
    (hrole : s.hostRole p = true) (hdef : (s.port p).v0Deferred = true) : exec (.lsVector0Deferred p) s
      = .next (if t + 10000 ≤ s.now then
          (s.setPort p (fun h => { h with v0Deferred := false, v0Last := some s.now })).msix p 0 else s) := by
  have hus : us 10 = 10000 := rfl
  change execLsVector0Deferred p s = _
  rw [execLsVector0Deferred, ht, hrole, hdef, hus]
  exact congrArg Host.Outcome.next (if_congr (by simp) rfl rfl)

/-- Settles O43: the oldest event goes by its window, none, open with room or full; a window's end and the two read-outs come
down to one equation each. -/
theorem eventRecord : Obligations.EventRecord := by
  refine ⟨fun s ev r hstage hlost hq hw => ?_, fun s ev r w hstage hlost hq hw hopen hn => ?_,
    fun s ev r w hstage hlost hq hw hopen hn => ?_, fun s ev n late => ⟨_, rfl, rfl, rfl⟩,
    fun s hstage hlost => exec_eventRecordWrite_of_empty hstage hlost, fun s hstage => exec_eventRecordWrite_of_lost hstage,
    fun s kind src w hw hstage => ⟨fun hend => ?_, fun hopen => ?_⟩,
    fun s kind src w ev hw => State.closeWindow_of_last hw, fun s u c k a h hc hpos hcount haddr hup => ⟨_, rfl, ?_⟩,
    fun s p t ht hrole hdef => ⟨fun hdue => ?_, fun hearly => ?_⟩⟩
  · refine ⟨(s.takeEvent r).openedBy ev, rfl, rfl, rfl, rfl, rfl, ?_⟩
    rw [exec_eventRecordWrite_of_queued hstage hlost hq, State.recordEvent_of_noWindow (s := s.takeEvent r) hw]
    rfl
  · refine ⟨(s.takeEvent r).putWindow ev { w with written := w.written + 1 }, only_events _ _, rfl, State.putWindow_mem _ _ _, rfl, ?_⟩
    rw [exec_eventRecordWrite_of_queued hstage hlost hq, State.recordEvent_of_room (s := s.takeEvent r) hw hopen _ hn]
  · refine ⟨(s.takeEvent r).putWindow ev { w with suppressed := w.suppressed + 1, last := some ev }, ?_, rfl, rfl, rfl, rfl,
      State.putWindow_mem _ _ _, only_events _ _⟩
    rw [exec_eventRecordWrite_of_queued hstage hlost hq, State.recordEvent_of_full (s := s.takeEvent r) hw hopen _ hn]
  · rw [exec_eventWindowClose_of_window hw hstage, if_pos hend]
  · rw [exec_eventWindowClose_of_window hw hstage, if_neg (Nat.not_le.mpr hopen)]
  · obtain ⟨hctrl, -⟩ := State.admission_adm h
    rw [exec_eventRead_of_inRange h (by omega) hcount haddr, Adm.readOut_of_linkUp _ _ _ hpos (by rw [hctrl]; exact hup), hctrl]
  · rw [exec_lsVector0Deferred_of_deferred ht hrole hdef, if_pos hdue]
  · rw [exec_lsVector0Deferred_of_deferred ht hrole hdef, if_neg (Nat.not_le.mpr hearly)]

end Sys2Proof.Machine
end

section
/-! PROOF. FW_ABANDON and the failure of a trial (15_trust_and_firmware.md R428, R431, R433). -/

namespace Sys2Proof.Machine

open Sys2Proof

/-! ## What the failure of a trial leaves -/

theorem Trust.slot_setSlot_same (t : Trust) (b : Bool) (f : FwSlot → FwSlot) : (t.setSlot b f).slot b = f (t.slot b) := by
  cases b <;> rfl

theorem pushEvent_queue_length_ge (e : Events) (ev : Event) : e.queue.length ≤ (pushEvent e ev).queue.length := by
  unfold pushEvent
  split
  · simp
  · next h => simp; omega

theorem State.askReset_job_isSome (s : State) (kind : Nat) (full : Bool) (tag : Option Nat) :
    (s.askReset kind full tag).lantern.job.isSome = true := by
  unfold askReset
  split
  · next h => cases hj : s.lantern.job <;> simp [hj] at h ⊢
  · rfl

theorem State.strikeForPitch_job_isSome (s : State) (full : Bool) : (s.strikeForPitch full).lantern.job.isSome = true := by
  unfold strikeForPitch
  exact askReset_job_isSome ..

@[simp] theorem State.strikeForPitch_trust (s : State) (full : Bool) : (s.strikeForPitch full).trust = s.trust :=
  (strikeForPitch_only s full).same .trust (by decide)

@[simp] theorem State.strikeForPitch_settings (s : State) (full : Bool) : (s.strikeForPitch full).settings = s.settings :=
  (strikeForPitch_only s full).same .settings (by decide)

@[simp] theorem State.strikeForPitch_events (s : State) (full : Bool) : (s.strikeForPitch full).events = s.events :=
  (strikeForPitch_only s full).same .events (by decide)

/-- The settings and slots of a trial that has failed: the previous settings stand again and its slot is empty. -/
def State.withoutTrial (s : State) (b : Bool) : State :=
  { s with
    settings := s.trust.previous.getD s.settings
    trust := { s.trust.setSlot b (fun f => { f with state := .empty }) with previous := none } }

section
variable {s : State} {b : Bool} (htrial : s.trust.slotIn .trial = some b) (n : Nat)
include htrial

theorem State.endTrial_of_trial :
    s.endTrial n = ((s.withoutTrial b).postArgs 0x0503 s.lead 3 (ofBool b) n 0).tell .trialFailed := by
  unfold endTrial
  rw [htrial]
  rfl

theorem State.failTrial_of_trial :
    s.failTrial n = ((s.endTrial n).setTrust (fun t => { t with trialStart := none })).strikeForPitch true := by
  unfold failTrial
  rw [if_neg (by simp [htrial])]

theorem State.endTrial_trust : (s.endTrial n).trust = (s.withoutTrial b).trust := by
  rw [endTrial_of_trial htrial]
  exact ((tell_only ..).same .trust (by decide)).trans ((postArgs_only ..).same .trust (by decide))

theorem State.endTrial_settings : (s.endTrial n).settings = s.trust.previous.getD s.settings := by
  rw [endTrial_of_trial htrial]
  exact ((tell_only ..).same .settings (by decide)).trans ((postArgs_only ..).same .settings (by decide))

theorem State.endTrial_events :
    (s.endTrial n).events = ((s.withoutTrial b).postArgs 0x0503 s.lead 3 (ofBool b) n 0).events := by
  rw [endTrial_of_trial htrial]
  exact (tell_only ..).same .events (by decide)

theorem State.failTrial_trust : (s.failTrial n).trust = { (s.withoutTrial b).trust with trialStart := none } := by
  rw [failTrial_of_trial htrial, strikeForPitch_trust, setTrust_trust, endTrial_trust htrial]

theorem State.failTrial_settings : (s.failTrial n).settings = s.trust.previous.getD s.settings := by
  rw [failTrial_of_trial htrial, strikeForPitch_settings, setTrust_settings, endTrial_settings htrial]

theorem State.failTrial_events : (s.failTrial n).events = (s.endTrial n).events := by
  rw [failTrial_of_trial htrial, strikeForPitch_events, setTrust_events]

theorem State.failTrial_queue_length_ge : s.events.queue.length ≤ (s.failTrial n).events.queue.length := by
  rw [failTrial_events htrial, endTrial_events htrial]
  exact pushEvent_queue_length_ge ..

end

/-! ## The command -/

/-- What the command does at the half that serves it, by what its slots hold. -/
def Adm.abandon (a : Adm) (u : State) : State :=
  if (u.trust.slotIn .trial).isSome then (a.done u).failTrial 5
  else match u.trust.slotIn .pending with
    | some b => a.done (u.setTrust (fun r => r.setSlot b (fun f => { f with state := .staged })))
    | none => a.finish u { status := .doneEmpty }

section
variable {s u : State} {c : Fin 4} {k : Fin 1024} {a : Adm} (h : s.admission 0x0514 c k = some (u, a))
include h

theorem exec_fwAbandon_of_elsewhere (he : u.fwElsewhere = true) :
    exec (.fwAbandon c k) s = .next (settle s (a.finish u { status := .rejectState, detail := 0x1FFFF })) := by
  change execFwAbandon c k s = _
  rw [execFwAbandon, State.serve_admission h]
  have hcode : mbCmd a.b ≠ 1 := by rw [State.admission_code h]; decide
  rw [Adm.checked_of_fault (st := .rejectState) (d := 0x1FFFF) (by rw [he]; rfl) hcode]

variable (he : u.fwElsewhere = false)
include he

theorem exec_fwAbandon_of_here : exec (.fwAbandon c k) s = .next (settle s (a.abandon u)) := by
  change execFwAbandon c k s = _
  rw [execFwAbandon, State.serve_admission h, Adm.checked_of_pass (by simpa using he)]
  rfl

theorem exec_fwAbandon_of_trial (ht : (u.trust.slotIn .trial).isSome = true) :
    exec (.fwAbandon c k) s = .next (settle s ((a.done u).failTrial 5)) := by
  rw [exec_fwAbandon_of_here h he, Adm.abandon, if_pos ht]

theorem exec_fwAbandon_of_pending {b : Bool} (ht : u.trust.slotIn .trial = none) (hp : u.trust.slotIn .pending = some b) :
    exec (.fwAbandon c k) s
      = .next (settle s (a.done (u.setTrust (fun r => r.setSlot b (fun f => { f with state := .staged }))))) := by
  rw [exec_fwAbandon_of_here h he, Adm.abandon, ht, hp]
  rfl

theorem exec_fwAbandon_of_neither (ht : u.trust.slotIn .trial = none) (hp : u.trust.slotIn .pending = none) :
    exec (.fwAbandon c k) s = .next (settle s (a.finish u { status := .doneEmpty })) := by
  rw [exec_fwAbandon_of_here h he, Adm.abandon, ht, hp]
  rfl

end

/-- Settles O55: the four cases of the command, and what the failure of a trial leaves by its parts. -/
theorem fwAbandon : Obligations.FwAbandon := by
  refine ⟨fun s u c k a h => ⟨fun he => ⟨fun b ht hp => exec_fwAbandon_of_pending h he ht hp,
    fun ht => exec_fwAbandon_of_trial h he ht, fun ht hp => exec_fwAbandon_of_neither h he ht hp⟩,
    fun he => exec_fwAbandon_of_elsewhere h he⟩, fun v b n ht => ⟨?_, State.failTrial_settings ht n, ?_, ?_,
    State.failTrial_queue_length_ge ht n⟩⟩
  · rw [State.failTrial_trust ht]
    exact congrArg FwSlot.state (Trust.slot_setSlot_same v.trust b (fun f => { f with state := .empty }))
  · rw [State.failTrial_of_trial ht]
    exact State.strikeForPitch_job_isSome ..
  · rw [State.failTrial_trust ht]

end Sys2Proof.Machine
end

section
/-! PROOF. Firmware, attestation and sealed weights (15_trust_and_firmware.md R408 to R435): what each command comes down to once
it is admitted and its parameters are in range. -/

namespace Sys2Proof.Machine

open Sys2Proof

/-! ## Firmware commands -/

theorem Adm.code_ne_one {s u : State} {code : Nat} {c : Fin 4} {k : Fin 1024} {a : Adm} (h : s.admission code c k = some (u, a))
    (hcode : code ≠ 1) : mbCmd a.b ≠ 1 :=
  (State.admission_code h).symm ▸ hcode

section
variable {s u : State} {c : Fin 4} {k : Fin 1024} {a : Adm}

section
variable (h : s.admission 0x0510 c k = some (u, a)) (hc : c.val ≤ 1) (hindex : field a.b 24 2 ≤ 1023)
  (hopen : u.fwClosed = false) (hhere : u.fwElsewhere = false) (hup : (u.port c).linkUp = true)
include h hc hindex hopen hhere hup

theorem exec_fwWrite_of_holds (hcrc : crc32c (u.hostRead c (field a.b 32 8) 65536) = field a.b 28 4) :
    exec (.fwWrite c k) s = .next (a.done (u.setTrust (fun r => r.setSlot r.inactive (fun f =>
      f.store (field a.b 24 2) (u.hostRead c (field a.b 32 8) 65536) (crc32c (u.hostRead c (field a.b 32 8) 65536)))))) := by
  obtain ⟨hctrl, -⟩ := State.admission_adm h
  change execFwWrite c k s = _
  rw [execFwWrite, State.serve_admission h, Adm.checked_of_pass
    (by simp [Adm.noPort_of_hostPort (Adm.ctrl_lt_two_of_admission h (by omega)), hopen, hhere, hindex])]
  rw [hctrl, hup, if_neg (by simp)]
  exact congrArg Host.Outcome.next ((if_neg (not_not.mpr hcrc)).trans (by rw [hcrc]; rfl))

theorem exec_fwWrite_of_fails (hcrc : crc32c (u.hostRead c (field a.b 32 8) 65536) ≠ field a.b 28 4) :
    exec (.fwWrite c k) s = .next (a.finish u (refused .crcFail)) := by
  obtain ⟨hctrl, -⟩ := State.admission_adm h
  change execFwWrite c k s = _
  rw [execFwWrite, State.serve_admission h, Adm.checked_of_pass
    (by simp [Adm.noPort_of_hostPort (Adm.ctrl_lt_two_of_admission h (by omega)), hopen, hhere, hindex])]
  rw [hctrl, hup, if_neg (by simp)]
  exact congrArg Host.Outcome.next (if_pos hcrc)

end

section
variable (hopen : u.fwClosed = false) (hhere : u.fwElsewhere = false)
include hopen hhere

theorem exec_fwStage_of_fails (h : s.admission 0x0511 c k = some (u, a)) {r : Reason}
    (hv : u.verifySlot (u.trust.slot u.trust.inactive) = some r) :
    exec (.fwStage c k) s = .next (a.finish u (refused r)) := by
  change execFwStage c k s = _
  rw [execFwStage, State.serve_admission h, Adm.checked_of_pass (by simp [hopen, hhere]), hv]

theorem exec_fwStage_of_holds (h : s.admission 0x0511 c k = some (u, a))
    (hv : u.verifySlot (u.trust.slot u.trust.inactive) = none) :
    exec (.fwStage c k) s
      = .next (a.done (u.setTrust (fun r => r.setSlot r.inactive (fun f => { f with state := .staged })))) := by
  change execFwStage c k s = _
  rw [execFwStage, State.serve_admission h, Adm.checked_of_pass (by simp [hopen, hhere]), hv]

theorem exec_fwActivate_of_staged (h : s.admission 0x0512 c k = some (u, a))
    (hst : (u.trust.slot u.trust.inactive).state = .staged) :
    exec (.fwActivate c k) s
      = .next (a.done (u.setTrust (fun r => r.setSlot r.inactive (fun f => { f with state := .pending })))) := by
  change execFwActivate c k s = _
  rw [execFwActivate, State.serve_admission h, Adm.checked_of_pass (by simp [hopen, hhere, hst])]

omit hopen hhere in
theorem exec_fwActivate_of_other (h : s.admission 0x0512 c k = some (u, a))
    (hst : (u.trust.slot u.trust.inactive).state ≠ .staged) :
    exec (.fwActivate c k) s = .next (a.finish u { status := .rejectState, detail := 0x1FFFF }) := by
  change execFwActivate c k s = _
  rw [execFwActivate, State.serve_admission h,
    Adm.checked_of_fault (st := .rejectState) (d := 0x1FFFF) (by simp [firstFault, hst]; rfl) (Adm.code_ne_one h (by decide))]

end

theorem exec_fwCommit_of_trial {b : Bool} (h : s.admission 0x0513 c k = some (u, a)) (hready : u.lantern.stage = 0xF)
    (hhere : u.fwElsewhere = false) (hfw : u.trust.fwState = .trial) (hb : u.trust.slotIn .trial = some b) :
    exec (.fwCommit c k) s = .next (settle s (a.done ((u.commit b).tell .committed))) := by
  change execFwCommit c k s = _
  rw [execFwCommit, State.serve_admission h, Adm.checked_of_pass (by simp [State.ready, hready, hhere, hfw]), hb]

theorem exec_fwCommit_of_noTrial (h : s.admission 0x0513 c k = some (u, a)) (hfw : u.trust.fwState ≠ .trial) :
    exec (.fwCommit c k) s = .next (settle s (a.finish u { status := .rejectState, detail := 0x1FFFF })) := by
  change execFwCommit c k s = _
  rw [execFwCommit, State.serve_admission h,
    Adm.checked_of_fault (st := .rejectState) (d := 0x1FFFF) (by simp [firstFault, hfw]; rfl) (Adm.code_ne_one h (by decide))]

theorem exec_trustPolicy_of_flag (h : s.admission 0x0520 c k = some (u, a)) (hf : field a.b 28 1 ≤ 1) :
    exec (.trustPolicy c k) s = .next (a.done (u.setSettings (fun x =>
      { x with tpMinFw := BitVec.ofNat 32 (field a.b 24 4), tpSameFw := decide (field a.b 28 1 = 1) }))) := by
  change execTrustPolicy c k s = _
  rw [execTrustPolicy, State.serve_admission h, Adm.checked_of_pass (by simpa using hf)]

theorem exec_trustPolicy_of_badFlag (h : s.admission 0x0520 c k = some (u, a)) (hf : 1 < field a.b 28 1) :
    exec (.trustPolicy c k) s = .next (a.finish u { status := .rejectFormat, detail := 0x10000 + 28 }) := by
  change execTrustPolicy c k s = _
  rw [execTrustPolicy, State.serve_admission h, Adm.checked_of_fault (st := .rejectFormat) (d := 0x10000 + 28)
    (by simp [firstFault, hf]; rfl) (Adm.code_ne_one h (by decide))]

/-! ## Attestation -/

section
variable (h : s.admission 0x0500 c k = some (u, a)) (hc : c.val ≤ 1) (hal : field a.b 56 8 % 64 = 0)
include h hc hal

theorem exec_attest_of_identity (hid : u.trust.identityOk = true) (hup : (u.port c).linkUp = true) :
    exec (.attest c k) s = .next (a.done (u.hostWrite c (field a.b 56 8)
      (u.report (u.port c).tdi.code ((a.b.drop 24).take 32)))) := by
  obtain ⟨hctrl, -⟩ := State.admission_adm h
  change execAttest c k s = _
  rw [execAttest, State.serve_admission h, Adm.checked_of_pass
    (by simp [Adm.noPort_of_hostPort (Adm.ctrl_lt_two_of_admission h (by omega)), hal]), hid]
  rw [if_neg (by simp), Adm.copyOut_of_linkUp (by rwa [hctrl]), hctrl]

theorem exec_attest_of_noIdentity (hid : u.trust.identityOk = false) :
    exec (.attest c k) s = .next (a.finish u (refused .identity)) := by
  change execAttest c k s = _
  rw [execAttest, State.serve_admission h, Adm.checked_of_pass
    (by simp [Adm.noPort_of_hostPort (Adm.ctrl_lt_two_of_admission h (by omega)), hal]), hid]
  rfl

end

section
variable (h : s.admission 0x0501 c k = some (u, a)) (hc : c.val ≤ 1) (hal : field a.b 24 8 % 64 = 0)
  (hlen : field a.b 32 2 ≤ 16384)
include h hc hal hlen

/-- CERT_READ with its parameters in range: the length it asks for decides. -/
theorem exec_certRead_of_inRange :
    exec (.certRead c k) s = .next (if field a.b 32 2 = 0 then
        a.finish u { status := .doneEmpty, result := BitVec.ofNat 64 u.chain.length }
      else a.copyOut u (field a.b 24 8) (u.chain.take (field a.b 32 2)) u.chain.length) := by
  change execCertRead c k s = _
  rw [execCertRead, State.serve_admission h, Adm.checked_of_pass
    (by simp [Adm.noPort_of_hostPort (Adm.ctrl_lt_two_of_admission h (by omega)), hal, hlen])]

theorem exec_certRead_of_zero (hz : field a.b 32 2 = 0) :
    exec (.certRead c k) s = .next (a.finish u { status := .doneEmpty, result := BitVec.ofNat 64 u.chain.length }) := by
  rw [exec_certRead_of_inRange h hc hal hlen, if_pos hz]

theorem exec_certRead_of_linkUp (hz : field a.b 32 2 ≠ 0) (hup : (u.port c).linkUp = true) :
    exec (.certRead c k) s
      = .next (a.done (u.hostWrite c (field a.b 24 8) (u.chain.take (field a.b 32 2))) u.chain.length) := by
  obtain ⟨hctrl, -⟩ := State.admission_adm h
  rw [exec_certRead_of_inRange h hc hal hlen, if_neg hz, Adm.copyOut_of_linkUp (by rwa [hctrl]), hctrl]

end

/-! ## Sealed weights -/

theorem chunkCount_eq (n : Nat) : chunkCount n = (n + 65535) / 65536 := by
  rw [chunkCount, chunkBytes, Nat.add_succ_sub_one]

/-- The header of an object in device memory is read, and its form and range pass: the unseal goes on behind the read. -/
theorem exec_weightsUnseal_of_header {hd : List Byte} {io : Io} (h : s.admission 0x0530 c k = some (u, a))
    (hspace : field a.b 24 1 = 1) (hal : field a.b 48 8 % 4096 = 0) (hdst : spaceOneBad (field a.b 48 8) = false)
    (hsrc : spaceOneBad (field a.b 32 8) = false) (hfree : u.trust.ranges.length < 64)
    (hreach : u.reachableRange (field a.b 32 8) (field a.b 40 8) = true)
    (hpool : u.rangeInPool (field a.b 32 8) (field a.b 40 8) = false)
    (hload : u.load { tag := a.tag } (field a.b 32 8) 2048 = (hd, io)) (hstop : io.stop = none) (hform : field hd 0 2 = 1)
    (hlen : field a.b 40 8 = 2048 + field hd 8 8 + 16 * ((field hd 8 8 + 65535) / 65536))
    (hreachd : io.s.reachableRange (field a.b 48 8) (rangeBytes (field hd 8 8)) = true)
    (hpoold : io.s.rangeInPool (field a.b 48 8) (rangeBytes (field hd 8 8)) = false) :
    exec (.weightsUnseal c k) s = .next (a.unseal io.s hd) := by
  have hread : a.readSource u 0 sealHeader = (hd, io) := by rw [Adm.readSource, if_pos hspace]; exact hload
  have hsize : field a.b 40 8 = objectBytes (field hd 8 8) := by rw [hlen, objectBytes, chunkCount_eq, sealHeader]
  have hlong : sealHeader ≤ field a.b 40 8 := by rw [hsize, objectBytes]; omega
  have hchecks : ∀ x ∈ unsealChecks u a, x.1 = false := by
    simp [unsealChecks, hspace, hal, hdst, hsrc, hreach, hpool, hlong, hfree]
  have hheader : ∀ x ∈ unsealHeaderChecks io.s a hd, x.1 = false := by
    simp [unsealHeaderChecks, hform, hsize, hreachd, hpoold]
  change execWeightsUnseal c k s = _
  rw [execWeightsUnseal, State.serve_admission h, Adm.checked_of_pass hchecks, hread]
  dsimp only
  rw [hstop]
  exact congrArg Host.Outcome.next (Adm.checked_of_pass hheader)

section
variable (h : s.admission 0x0531 c k = some (u, a))
include h

theorem exec_sealedRelease_of_noRange
    (hr : u.trust.ranges.find? (fun r => r.touches (u.canonical (field a.b 24 8)) 1) = none) :
    exec (.sealedRelease c k) s = .next (a.finish u { status := .rejectLimit, detail := 0x10000 + 24 }) := by
  change execSealedRelease c k s = _
  rw [execSealedRelease, State.serve_admission h]
  dsimp only
  rw [hr]
  exact congrArg Host.Outcome.next
    (Adm.checked_of_fault (st := .rejectLimit) (d := 0x10000 + 24) rfl (Adm.code_ne_one h (by decide)))

variable {r : SealedRange} (hr : u.trust.ranges.find? (fun r => r.touches (u.canonical (field a.b 24 8)) 1) = some r)
include hr

theorem exec_sealedRelease_of_range : exec (.sealedRelease c k) s
    = .next (if u.sealedAgainst c (((u.cmd a.tag).map (·.epoch)).getD u.own.epoch) (u.canonical (field a.b 24 8)) 1
        then a.finish u (refused .sealedRange) else a.done (u.releaseRange r)) := by
  obtain ⟨hctrl, -⟩ := State.admission_adm h
  change execSealedRelease c k s = _
  rw [execSealedRelease, State.serve_admission h]
  dsimp only
  rw [hr, hctrl]

end

end

theorem State.releaseRange_of_noBlocks (s : State) {r : SealedRange} (hb : r.blocks = []) :
    s.releaseRange r
      = State.setTrust (s.zeroRange r.base r.size) (fun t => { t with ranges := t.ranges.filter (fun x => x ≠ r) }) := by
  unfold releaseRange
  rw [hb]
  rfl

/-! ## The refusals of an unseal -/

/-- The epoch a command's own sealed ranges have. -/
def Adm.sealEpoch (a : Adm) (v : State) : BitVec 32 := ((v.cmd a.tag).map (·.epoch)).getD v.own.epoch

section
variable {a : Adm} {v : State} {h : List Byte}

theorem Adm.unseal_of_sealedTarget
    (hdst : v.sealedAgainst a.ctrl (a.sealEpoch v) (field a.b 48 8) (rangeBytes (field h 8 8)) = true) :
    a.unseal v h = a.finish v (refused .sealedRange) := by
  rw [Adm.unseal]
  exact if_pos (by rw [Bool.or_eq_true]; exact .inr hdst)

variable (hdst : v.sealedAgainst a.ctrl (a.sealEpoch v) (field a.b 48 8) (rangeBytes (field h 8 8)) = false)
  (hsrc : field a.b 24 1 = 1 → v.sealedAgainst a.ctrl (a.sealEpoch v) (field a.b 32 8) (field a.b 40 8) = false)
include hdst hsrc

/-- No sealed range stands against the unseal. -/
theorem Adm.noSealedRange : ¬ ((decide (field a.b 24 1 = 1)
    && v.sealedAgainst a.ctrl (a.sealEpoch v) (field a.b 32 8) (field a.b 40 8))
    || v.sealedAgainst a.ctrl (a.sealEpoch v) (field a.b 48 8) (rangeBytes (field h 8 8))) = true := by
  simpa [hdst] using hsrc

theorem Adm.unseal_of_noIdentity (hid : v.trust.identityOk = false) : a.unseal v h = a.finish v (refused .identity) := by
  rw [Adm.unseal]
  exact (if_neg (Adm.noSealedRange hdst hsrc)).trans (if_pos (by rw [hid]; rfl))

variable (hid : v.trust.identityOk = true)
include hid

theorem Adm.unseal_of_otherTarget (ht : (h.drop 0x20).take 32 ≠ Config.sealHash v.lead) :
    a.unseal v h = a.finish v (refused .sealTarget) := by
  rw [Adm.unseal]
  exact (if_neg (Adm.noSealedRange hdst hsrc)).trans ((if_neg (by simp [hid])).trans (if_pos ht))

variable (ht : (h.drop 0x20).take 32 = Config.sealHash v.lead)
include ht

theorem Adm.unseal_of_noPolicy (hp : v.policyHolds a.ctrl h = false) : a.unseal v h = a.finish v (refused .sealPolicy) := by
  rw [Adm.unseal]
  exact (if_neg (Adm.noSealedRange hdst hsrc)).trans
    ((if_neg (by simp [hid])).trans ((if_neg (not_not.mpr ht)).trans (if_pos (by simp [hp]))))

variable (hp : v.policyHolds a.ctrl h = true)
include hp

theorem Adm.unseal_of_noKey (hk : contentKey h = none) : a.unseal v h = a.finish v (refused .sealTag) := by
  rw [Adm.unseal, hk]
  exact (if_neg (Adm.noSealedRange hdst hsrc)).trans
    ((if_neg (by simp [hid])).trans ((if_neg (not_not.mpr ht)).trans (if_neg (by simp [hp]))))

theorem Adm.unseal_of_key {key : List Byte} (hk : contentKey h = some key) : a.unseal v h = a.openObject v h key := by
  rw [Adm.unseal, hk]
  exact (if_neg (Adm.noSealedRange hdst hsrc)).trans
    ((if_neg (by simp [hid])).trans ((if_neg (not_not.mpr ht)).trans (if_neg (by simp [hp]))))

end

/-! ## The opening of an object -/

/-- The sealed range an object opens at a module address. -/
def Adm.objectRange (a : Adm) (v : State) (h : List Byte) : SealedRange :=
  { base := field a.b 48 8, size := rangeBytes (field h 8 8), ctrl := a.ctrl, epoch := a.sealEpoch v
    needsTdi := bit (field h 2 2) 0, draining := false }

/-- An object with bytes opens below the windows: its range is sealed, then its chunks decide. -/
theorem Adm.openObject_of_bytes {a : Adm} {v : State} {h key : List Byte} {io : Io} (hn : 0 < field h 8 8)
    (hbase : field a.b 48 8 < windowBase)
    (hio : a.openChunks h key (field h 8 8) (v.setTrust (fun x => { x with ranges := x.ranges ++ [a.objectRange v h] }))
      (List.range (chunkCount (field h 8 8))) = io) :
    a.openObject v h key = match io.stop with
      | some e => a.finish (io.s.releaseRange (a.objectRange v h)) e
      | none => a.finish io.s { status := if io.degraded then .doneDegraded else .done, result := BitVec.ofNat 64 (field h 8 8) } := by
  subst hio
  simp only [openObject, if_pos hbase, if_neg hn.ne']
  rfl

section
variable {a : Adm} {h key bs : List Byte} {v : State} {i n m : Nat} (rest : List Nat) {io : Io}
  (hm : m = min chunkBytes (n - i * chunkBytes))
  (hread : a.readSource v (sealHeader + i * (chunkBytes + 16)) (m + 16) = (bs, io)) (hstop : io.stop = none)
include hm hread hstop

theorem Adm.openChunks_of_badTag (hd : Config.gcmDec key (field h 0x10 8 * 2 ^ 32 + i) (h.take 0x60) bs = none) :
    a.openChunks h key n v (i :: rest) = { io with stop := some (refused .sealTag) } := by
  subst hm
  simp only [openChunks, hread, hstop, hd]

section
variable {p : List Byte} (hd : Config.gcmDec key (field h 0x10 8 * 2 ^ 32 + i) (h.take 0x60) bs = some p) {w : Io}
  (hw : io.s.store { tag := a.tag } (field a.b 48 8 + i * chunkBytes) (padTo p m) = w)
include hd hw

theorem Adm.openChunks_of_stopped (hs : w.stop.isSome = true) : a.openChunks h key n v (i :: rest) = w := by
  obtain ⟨e, he⟩ := Option.isSome_iff_exists.mp hs
  subst hm
  simp only [openChunks, hread, hstop, hd, hw, he]

theorem Adm.openChunks_of_stored (hs : w.stop = none) : a.openChunks h key n v (i :: rest)
    = { a.openChunks h key n w.s rest with degraded := (a.openChunks h key n w.s rest).degraded || w.degraded || io.degraded } := by
  subst hm
  simp only [openChunks, hread, hstop, hd, hw, hs]

end

end

/-! ## The limit of a trial and the noise source -/

section
variable {s : State} {t : Nat} (hstart : s.trust.trialStart = some t)
include hstart

theorem exec_trialTimeout_of_due (hfw : s.trust.fwState = .trial) (hready : s.trust.trialReady = false)
    (hdue : t + 30000000000 ≤ s.now) (hjob : s.lantern.job = none) (hhalt : s.lantern.halt ≠ 1) :
    exec .trialTimeout s = .next (settle s (s.failTrial 3)) := by
  have hms : ms 30000 = 30000000000 := rfl
  change execTrialTimeout s = _
  rw [execTrialTimeout, hstart, hms]
  exact congrArg Host.Outcome.next (if_pos (by simp [hfw, hready, hdue, hjob]; exact .inr hhalt))

theorem exec_trialTimeout_of_notDue (h : s.now < t + 30000000000 ∨ s.trust.trialReady = true) :
    exec .trialTimeout s = .next s := by
  have hms : ms 30000 = 30000000000 := rfl
  change execTrialTimeout s = _
  rw [execTrialTimeout, hstart, hms]
  refine congrArg Host.Outcome.next (if_neg ?_)
  rcases h with hnow | hready
  · simp [Nat.not_le.mpr hnow]
  · simp [hready]

end

theorem exec_entropyHealthTest_true (s : State) :
    exec (.entropyHealthTest true) s = .next (s.setTrust (fun t => { t with entropyOk := true })) := rfl

theorem exec_entropyHealthTest_first {s : State} (hl : s.trust.entropyLogged = false) :
    exec (.entropyHealthTest false) s = .next (State.postSecurity
      (s.setTrust (fun t => { t with entropyOk := false, entropyLogged := true })) .entropy s.lead) := by
  change execEntropyHealthTest false s = _
  rw [execEntropyHealthTest, hl]
  rfl

theorem exec_entropyHealthTest_again {s : State} (hl : s.trust.entropyLogged = true) :
    exec (.entropyHealthTest false) s
      = .next (s.setTrust (fun t => { t with entropyOk := false, entropyLogged := true })) := by
  change execEntropyHealthTest false s = _
  rw [execEntropyHealthTest, hl]
  rfl

/-- Settles O56, clause by clause: the commands by their admissions, then what a release, an unseal, the opening of an object
and of a chunk, the trial's limit and the noise source's test come to. -/
theorem firmwareCommands : Obligations.FirmwareCommands := by
  refine ⟨fun s u c k a => ⟨?_, ?_, ?_, ?_, ?_, ?_, ?_, ?_, ?_⟩, fun s r hb => s.releaseRange_of_noBlocks hb, ?_, ?_, ?_, ?_,
    fun s => ⟨exec_entropyHealthTest_true s, exec_entropyHealthTest_first, exec_entropyHealthTest_again⟩⟩
  · rintro h hc hi - ho hh hup bs rfl
    exact ⟨exec_fwWrite_of_holds h hc hi ho hh hup, exec_fwWrite_of_fails h hc hi ho hh hup⟩
  · intro h ho hh
    cases hv : u.verifySlot (u.trust.slot u.trust.inactive) with
    | some r => exact exec_fwStage_of_fails ho hh h hv
    | none => exact exec_fwStage_of_holds ho hh h hv
  · exact fun h ho hh => ⟨exec_fwActivate_of_staged ho hh h, exec_fwActivate_of_other h⟩
  · exact fun h hr hh => ⟨fun b => exec_fwCommit_of_trial h hr hh, exec_fwCommit_of_noTrial h⟩
  · exact fun h => ⟨exec_trustPolicy_of_flag h, exec_trustPolicy_of_badFlag h⟩
  · exact fun h hc ha => ⟨exec_attest_of_identity h hc ha, exec_attest_of_noIdentity h hc ha⟩
  · exact fun h hc ha hl => ⟨exec_certRead_of_zero h hc ha hl, exec_certRead_of_linkUp h hc ha hl⟩
  · intro h hsp hal hd hs hr hre hp hd io hload hstop hf hl hrd hpd
    exact exec_weightsUnseal_of_header h hsp hal ‹_› hs hr hre hp hload hstop hf hl hrd hpd
  · rintro h x e rfl rfl
    refine ⟨fun r hr => ⟨fun hs => ?_, fun hs => ?_⟩, exec_sealedRelease_of_noRange h⟩
    · rw [exec_sealedRelease_of_range h hr, if_neg (by simp [hs])]
    · rw [exec_sealedRelease_of_range h hr, if_pos hs]
      rfl
  · rintro v a h e rfl
    refine ⟨Adm.unseal_of_sealedTarget, fun hd hs => ⟨Adm.unseal_of_noIdentity hd hs, fun hid => ?_⟩⟩
    split
    · next ht =>
      split
      · next hp =>
        cases hk : contentKey h with
        | some key => exact Adm.unseal_of_key hd hs hid ht hp hk
        | none => exact Adm.unseal_of_noKey hd hs hid ht hp hk
      · next hp => exact Adm.unseal_of_noPolicy hd hs hid ht (Bool.not_eq_true _ ▸ hp)
    · next ht => exact Adm.unseal_of_otherTarget hd hs hid ht
  · rintro v a h key r io hn hb rfl hio
    rw [← chunkCount_eq] at hio
    rw [Adm.openObject_of_bytes hn hb hio]
    rfl
  · intro v a h key bs i n m rest io hm hread hstop
    cases hd : Config.gcmDec key (field h 0x10 8 * 2 ^ 32 + i) (h.take 0x60) bs with
    | none => exact Adm.openChunks_of_badTag rest hm hread hstop hd
    | some p =>
      dsimp only
      split
      · next hs => exact Adm.openChunks_of_stopped rest hm hread hstop hd rfl hs
      · next hs => exact Adm.openChunks_of_stored rest hm hread hstop hd rfl (Option.not_isSome_iff_eq_none.mp hs)
  · exact fun s t ht => ⟨exec_trialTimeout_of_due ht, exec_trialTimeout_of_notDue ht⟩

end Sys2Proof.Machine
end

section
/-! PROOF. The stages of a pitch (14_pitch.md R390 to R400): when a stage's result is taken, and what each stage leaves of the
sequencer. -/

namespace Sys2Proof.Machine

open Sys2Proof

theorem settle_self (s : State) : settle s s = s := if_pos ⟨rfl, rfl⟩

/-! ## When a result is taken -/

/-- The stage a result belongs to. -/
def resultStage (r : StageResult) : Nat :=
  match r with
  | .rails _ => 1
  | .lantern .. => 2
  | .idleRelease => 0xA
  | .firmware .. => 3
  | .seam .. => 4
  | .channel .. => 5
  | .dram .. => 6
  | .cores .. => 7
  | .memory .. => 9

/-- What a result waits for besides its stage. -/
def State.admits (s : State) (r : StageResult) : Bool :=
  match r with
  | .rails _ => true
  | .lantern .. => !s.board.waitingReset && decide (s.trust.fwState ≠ .recovery) && s.lantern.job.isNone && s.lantern.clearing.isNone
  | .idleRelease => s.pitchGoes && decide (goodPollsNeeded ≤ s.lantern.goodPolls)
  | .seam .. => s.pitchGoes && (s.seam.peer.isSome || s.seam.noPeer)
  | _ => s.pitchGoes

/-- The state a result that is taken leads to. -/
def State.afterStage (s : State) (r : StageResult) : State :=
  match r with
  | .rails ok => s.endRails ok
  | .lantern w e i a m => s.endStage2 w e i a m
  | .idleRelease => s.leaveIdle
  | .firmware a b => s.endStage3 a b
  | .seam l q => s.endStage4 l q
  | .channel l q => s.endStage5 l q
  | .dram l q => s.endStage6 l q
  | .cores l f q => s.endStage7 l f q
  | .memory m f => s.endStage9 m f

section
variable {s : State} {r : StageResult}

theorem exec_pitchStageComplete_eq : exec (.pitchStageComplete r) s
    = .next (settle s (if decide (s.lantern.stage.toNat = resultStage r) && s.admits r then s.afterStage r else s)) := by
  change execPitchStageComplete r s = _
  cases r with
  | rails ok => rw [execPitchStageComplete, State.admits, Bool.and_true]; rfl
  | lantern w e i a m => rw [execPitchStageComplete, State.admits]; simp only [Bool.and_assoc]; rfl
  | idleRelease => rw [execPitchStageComplete, State.admits]; simp only [Bool.and_assoc]; rfl
  | seam l q => rw [execPitchStageComplete, State.admits]; simp only [Bool.and_assoc]; rfl
  | firmware a b => rfl
  | channel l q => rfl
  | dram l q => rfl
  | cores l f q => rfl
  | memory m f => rfl

theorem exec_pitchStageComplete_of_taken (hstage : s.lantern.stage.toNat = resultStage r) (h : s.admits r = true) :
    exec (.pitchStageComplete r) s = .next (settle s (s.afterStage r)) := by
  rw [exec_pitchStageComplete_eq, if_pos (by simp [hstage, h])]

theorem exec_pitchStageComplete_of_notTaken (h : s.lantern.stage.toNat ≠ resultStage r ∨ s.admits r = false) :
    exec (.pitchStageComplete r) s = .next s := by
  rw [exec_pitchStageComplete_eq, if_neg, settle_self]
  rcases h with h | h <;> simp [h]

/-- From stage 3 on every result waits for the pitch to go. -/
theorem State.admits_eq_false (hr : 3 ≤ resultStage r) (hgoes : s.pitchGoes = false) : s.admits r = false := by
  cases r with
  | rails ok => exact absurd hr (by decide : ¬ 3 ≤ 1)
  | lantern w e i a m => exact absurd hr (by decide : ¬ 3 ≤ 2)
  | idleRelease => rw [admits, hgoes, Bool.false_and]
  | seam l q => rw [admits, hgoes, Bool.false_and]
  | firmware a b => exact hgoes
  | channel l q => exact hgoes
  | dram l q => exact hgoes
  | cores l f q => exact hgoes
  | memory m f => exact hgoes

end

/-! ## Halts and the coolant gate -/

section
variable (s : State)

theorem State.askReset_lantern (kind : Nat) (full : Bool) (tag : Option Nat) :
    (s.askReset kind full tag).lantern = { s.lantern with job := (s.askReset kind full tag).lantern.job } := by
  unfold askReset
  split <;> rfl

theorem State.strikeForPitch_lantern (full : Bool) :
    (s.strikeForPitch full).lantern = { s.lantern with job := (s.strikeForPitch full).lantern.job } := by
  unfold strikeForPitch
  rw [askReset_lantern, (strikeEverything_only ..).lantern_eq (by decide) (by decide)]
  rfl

theorem State.failTrial_lantern (n : Nat) :
    (s.failTrial n).lantern = { s.lantern with job := (s.failTrial n).lantern.job } := by
  unfold failTrial
  split
  · rfl
  · rw [strikeForPitch_lantern, setTrust_lantern, (endTrial_only ..).lantern_eq (by decide) (by decide)]

theorem State.halt_lantern (c : Nat) :
    (s.halt c).lantern.halt = BitVec.ofNat 8 c ∧ (s.halt c).lantern.stage = 0xE := by
  unfold halt
  dsimp only
  split
  · exact ⟨rfl, rfl⟩
  · rw [failTrial_lantern]
    exact ⟨rfl, rfl⟩

theorem State.gate_stage : s.gate.lantern.stage = if 3 ≤ s.lantern.goodPolls then 3 else 0xA := by
  unfold gate
  exact apply_ite (fun t : State => t.lantern.stage) (goodPollsNeeded ≤ s.lantern.goodPolls) _ _

end

/-! ## Stage 2 -/

section
variable (s : State) (arbOk : Bool)

theorem State.settleMode_lantern : (s.settleMode arbOk).lantern = s.lantern :=
  ((takeMode_only _).lantern_eq (by decide) (by decide)).trans (((endTrial_only ..).lantern_eq (by decide) (by decide)).trans
    ((s.settleCommits_only arbOk).lantern_eq (by decide) (by decide)))

theorem State.settleMode_board : (s.settleMode arbOk).board = s.board :=
  ((takeMode_only _).same .board (by decide)).trans (((endTrial_only ..).same .board (by decide)).trans
    ((s.settleCommits_only arbOk).same .board (by decide)))

theorem State.settleMode_thermal : (s.settleMode arbOk).thermal = s.thermal :=
  ((takeMode_only _).thermal_eq (by decide)).trans (((endTrial_only ..).thermal_eq (by decide)).trans
    ((s.settleCommits_only arbOk).thermal_eq (by decide)))

/-- The state stage 2 leaves from: everything is read and reported. -/
def State.stage2Read (s : State) (w e : Straps) (identityOk arbOk : Bool) (m : Int) : State :=
  ((s.settleMode arbOk).takeReadings ((s.settleMode arbOk).ownStraps w e) identityOk m).reportIdentity identityOk

variable (w e : Straps) (identityOk : Bool) (m : Int)

theorem State.stage2Read_only : Only [.events]
    ((s.settleMode arbOk).takeReadings ((s.settleMode arbOk).ownStraps w e) identityOk m) (s.stage2Read w e identityOk arbOk m) := by
  unfold stage2Read reportIdentity
  split
  · exact .refl
  · exact postSecurity_only ..

theorem State.stage2Read_lantern : (s.stage2Read w e identityOk arbOk m).lantern = { s.lantern with m0Mean := m } := by
  rw [(s.stage2Read_only ..).lantern_eq (by decide) (by decide), ← s.settleMode_lantern arbOk]
  rfl

theorem State.stage2Read_stage : (s.stage2Read w e identityOk arbOk m).lantern.stage = s.lantern.stage := by
  rw [stage2Read_lantern]

theorem State.stage2Read_goodPolls : (s.stage2Read w e identityOk arbOk m).lantern.goodPolls = s.lantern.goodPolls := by
  rw [stage2Read_lantern]

theorem State.stage2Read_resetLow : (s.stage2Read w e identityOk arbOk m).board.resetLow = s.board.resetLow := by
  rw [show _ = _ from (s.stage2Read_only ..).same .board (by decide), ← s.settleMode_board arbOk]
  rfl

theorem State.stage2Read_latchStands : (s.stage2Read w e identityOk arbOk m).latchStands = s.latchStands := by
  rw [latchStands, (s.stage2Read_only ..).thermal_eq (by decide), latchStands, ← s.settleMode_thermal arbOk]
  rfl

theorem State.stage2Read_orderCode : orderCode (s.stage2Read w e identityOk arbOk m).fuses = orderCode s.fuses := by
  have hkeep : s.fuses.keep (s.stage2Read w e identityOk arbOk m).fuses := by
    rw [show _ = _ from (s.stage2Read_only ..).same .fuses (by decide)]
    exact s.settleMode_keepsFuses arbOk
  obtain ⟨-, -, hclock, hpower, -⟩ := hkeep
  rw [orderCode, hclock, hpower]
  rfl

theorem State.endStage2_eq_leaveStage2 : s.endStage2 w e identityOk arbOk m
    = (s.stage2Read w e identityOk arbOk m).leaveStage2 ((s.settleMode arbOk).ownStraps w e) w e := rfl

end

/-! ### Where it leads -/

section
variable {v : State} {st w e : Straps}

theorem State.leaveStage2_of_latch (hl : v.latchStands = true) : v.leaveStage2 st w e = v.halt 6 := if_pos hl

variable (hl : v.latchStands = false)
include hl

theorem State.leaveStage2_of_badVariant (ho : orderCode v.fuses = 0) : v.leaveStage2 st w e = v.halt 7 := by
  rw [leaveStage2, if_neg (by simp [hl]), if_pos ho]

variable (ho : orderCode v.fuses ≠ 0)
include ho

theorem State.leaveStage2_of_conflict (hboth : v.lantern.both = true) (hne : w ≠ e) : v.leaveStage2 st w e = v.halt 8 := by
  rw [leaveStage2, if_neg (by simp [hl]), if_neg ho, if_pos (by simp [hboth, hne])]

/-- With a valid variant, no latch and equal straps the straps and MOD_RESET_N decide. -/
theorem State.leaveStage2_of_agreed : v.leaveStage2 st w w =
    if st.recovery then
      { v with trust := { v.trust with fwState := .recovery }, lantern := { v.lantern with heForward := true } }
    else if v.board.resetLow then { v.decideQuick with board := { v.board with waitingReset := true } }
    else v.decideQuick.gate := by
  rw [leaveStage2, if_neg (by simp [hl]), if_neg ho, if_neg (by simp)]

theorem State.leaveStage2_of_recovery (hr : st.recovery = true) : v.leaveStage2 st w w
    = { v with trust := { v.trust with fwState := .recovery }, lantern := { v.lantern with heForward := true } } := by
  rw [leaveStage2_of_agreed hl ho, if_pos hr]

theorem State.leaveStage2_of_resetLow (hr : st.recovery = false) (hlow : v.board.resetLow = true) :
    v.leaveStage2 st w w = { v.decideQuick with board := { v.board with waitingReset := true } } := by
  rw [leaveStage2_of_agreed hl ho, if_neg (by simp [hr]), if_pos hlow]

theorem State.leaveStage2_of_going (hr : st.recovery = false) (hlow : v.board.resetLow = false) :
    v.leaveStage2 st w w = v.decideQuick.gate := by
  rw [leaveStage2_of_agreed hl ho, if_neg (by simp [hr]), if_neg (by simp [hlow])]

end

section
variable {s u : State} {w e : Straps} {identityOk arbOk : Bool} {m : Int} (hu : u = s.endStage2 w e identityOk arbOk m)
include hu

theorem State.endStage2_of_latch (hl : s.latchStands = true) : u.lantern.halt = 6 ∧ u.lantern.stage = 0xE := by
  rw [hu, endStage2_eq_leaveStage2, leaveStage2_of_latch (by rw [stage2Read_latchStands, hl])]
  exact halt_lantern _ 6

variable (hl : s.latchStands = false)
include hl

theorem State.endStage2_of_badVariant (ho : orderCode s.fuses = 0) : u.lantern.halt = 7 ∧ u.lantern.stage = 0xE := by
  rw [hu, endStage2_eq_leaveStage2, leaveStage2_of_badVariant (by rw [stage2Read_latchStands, hl])
    (by rw [stage2Read_orderCode, ho])]
  exact halt_lantern _ 7

variable (ho : orderCode s.fuses ≠ 0)
include ho

theorem State.endStage2_of_conflict (hboth : s.lantern.both = true) (hne : w ≠ e) :
    u.lantern.halt = 8 ∧ u.lantern.stage = 0xE := by
  rw [hu, endStage2_eq_leaveStage2, leaveStage2_of_conflict (by rw [stage2Read_latchStands, hl])
    (by rwa [stage2Read_orderCode]) (by rw [stage2Read_lantern]; exact hboth) hne]
  exact halt_lantern _ 8

variable (hagree : w = e)
include hagree

theorem State.endStage2_of_recovery (hr : w.recovery = true) :
    u.trust.fwState = .recovery ∧ u.lantern.heForward = true ∧ u.lantern.stage = s.lantern.stage := by
  subst hagree
  rw [hu, endStage2_eq_leaveStage2, ownStraps, ite_self, leaveStage2_of_recovery (by rw [stage2Read_latchStands, hl])
    (by rwa [stage2Read_orderCode]) hr]
  exact ⟨rfl, rfl, s.stage2Read_stage ..⟩

theorem State.endStage2_of_resetLow (hr : w.recovery = false) (hlow : s.board.resetLow = true) :
    u.board.waitingReset = true ∧ u.lantern.stage = s.lantern.stage := by
  subst hagree
  rw [hu, endStage2_eq_leaveStage2, ownStraps, ite_self, leaveStage2_of_resetLow (by rw [stage2Read_latchStands, hl])
    (by rwa [stage2Read_orderCode]) hr (by rw [stage2Read_resetLow, hlow])]
  exact ⟨rfl, s.stage2Read_stage ..⟩

theorem State.endStage2_of_going (hr : w.recovery = false) (hlow : s.board.resetLow = false) :
    u.lantern.stage = if 3 ≤ s.lantern.goodPolls then 3 else 0xA := by
  subst hagree
  rw [hu, endStage2_eq_leaveStage2, ownStraps, ite_self, leaveStage2_of_going (by rw [stage2Read_latchStands, hl])
    (by rwa [stage2Read_orderCode]) hr (by rw [stage2Read_resetLow, hlow]), gate_stage]
  rw [show (s.stage2Read w w identityOk arbOk m).decideQuick.lantern.goodPolls = s.lantern.goodPolls from
    s.stage2Read_goodPolls ..]

end

/-! ## Stages 3 and 9 -/

theorem State.endStage3_of_noSlot {s : State} (b : Bool) (hp : s.trust.slotIn .pending = none)
    (hc : s.trust.slotIn .committed = none) :
    s.endStage3 b b = (s.setTrust (fun r => { r with fwState := .none, loaded := false })).halt 2 := by
  unfold endStage3 tryPending
  rw [hp]
  dsimp only
  unfold tryCommitted
  rw [hc]
  rfl

section
variable (s : State)

theorem State.recordQuick_keeps (t : State) (ht : t = (s.recordQuick.toStage 0xF).postArgs 0x0402 (7 * 2 ^ 24) 1 2 7 0) :
    t.lantern.stage = 0xF ∧ t.geo = s.geo ∧ t.mem = s.mem := by
  subst ht
  refine ⟨rfl, ?_, ?_⟩
  · exact s.recordQuick_only.same .geo (by decide)
  · exact s.recordQuick_only.mem_eq (by decide) (by decide)

theorem State.becomeReady_keeps : s.becomeReady.lantern.stage = 0xF ∧ s.becomeReady.geo.built = true
    ∧ s.becomeReady.geo.generation = 2 ∧ s.becomeReady.mem.scrubFrom = s.now := by
  obtain ⟨hstage, hgeo, hmem⟩ := recordQuick_keeps _ s.becomeReady rfl
  rw [hgeo, hmem]
  exact ⟨hstage, rfl, rfl, rfl⟩

theorem State.endStage9_keeps (m : Option (Fin 1024)) (f : Nat) : (s.endStage9 m f).lantern.stage = 0xF
    ∧ (s.endStage9 m f).geo.built = true ∧ (s.endStage9 m f).geo.generation = 2 ∧ (s.endStage9 m f).mem.scrubFrom = s.now := by
  have hnow : (((s.checkMaps m).resolveSites.applySites).attachFar f).now = s.now :=
    ((attachFar_only ..).same .now (by decide)).trans (((applySites_only _).same .now (by decide)).trans
      (((resolveSites_only _).same .now (by decide)).trans ((checkMaps_only ..).same .now (by decide))))
  rw [← hnow]
  exact becomeReady_keeps _

end

theorem settle_mem_scrubFrom (s t : State) : (settle s t).mem.scrubFrom = t.mem.scrubFrom := by
  rw [show (settle s t).mem = _ from (settle_only s t).same .mem (by decide)]

/-- Settles O59: when each result is taken, then stage 2, the gate and the halts, and what stages 3, 5 to 7 and 9 leave. -/
theorem pitchStages : Obligations.PitchStages := by
  refine ⟨fun s ok h => exec_pitchStageComplete_of_taken (by rw [h]; rfl) rfl, ?_, ?_, ?_, ?_, ?_, fun s c => s.halt_lantern c, ?_,
    ?_, ?_, ?_, ?_, ?_, ?_, ?_⟩
  · intro s w e i a m h hwait hfw hjob hclear
    exact exec_pitchStageComplete_of_taken (by rw [h]; rfl) (by simp [State.admits, hwait, hfw, hjob, hclear])
  · intro s u w e i a m hu
    exact ⟨State.endStage2_of_latch hu, State.endStage2_of_badVariant hu, State.endStage2_of_conflict hu, fun hl ho ha =>
      ⟨State.endStage2_of_recovery hu hl ho ha, State.endStage2_of_resetLow hu hl ho ha, State.endStage2_of_going hu hl ho ha⟩⟩
  · intro s h hgoes hpolls
    exact ⟨exec_pitchStageComplete_of_taken (by rw [h]; rfl) (by simp [State.admits, hgoes, goodPollsNeeded, hpolls]), rfl, rfl⟩
  · intro s hpolls
    have hfew : decide (goodPollsNeeded ≤ s.lantern.goodPolls) = false := decide_eq_false (Nat.not_le.mpr hpolls)
    exact exec_pitchStageComplete_of_notTaken (.inr (by rw [State.admits, hfew, Bool.and_false]))
  · intro s
    rw [State.gate_stage]
    exact ⟨fun h => if_pos h, fun h => if_neg (Nat.not_le.mpr h)⟩
  · exact fun s a b h hgoes => exec_pitchStageComplete_of_taken (by rw [h]; rfl) hgoes
  · exact fun s b hp hc => ⟨_, State.endStage3_of_noSlot b hp hc, rfl, rfl⟩
  · intro s l q h hgoes hpeer
    exact exec_pitchStageComplete_of_taken (by rw [h]; rfl) (by simp [State.admits, hgoes, hpeer])
  · exact fun s l q h hgoes => ⟨_, exec_pitchStageComplete_of_taken (by rw [h]; rfl) hgoes, settle_lantern_stage ..⟩
  · exact fun s l q h hgoes => ⟨_, exec_pitchStageComplete_of_taken (by rw [h]; rfl) hgoes, settle_lantern_stage ..⟩
  · exact fun s l f q h hgoes => ⟨_, exec_pitchStageComplete_of_taken (by rw [h]; rfl) hgoes, settle_lantern_stage ..⟩
  · intro s m f h hgoes
    obtain ⟨hstage, hbuilt, hgen, hscrub⟩ := s.endStage9_keeps m f
    refine ⟨_, exec_pitchStageComplete_of_taken (by rw [h]; rfl) hgoes, ?_⟩
    rw [settle_lantern_stage, settle_geo, settle_mem_scrubFrom]
    exact ⟨hstage, hbuilt, hgen, hscrub⟩
  · rintro s r n hn h
    have hstage : n = resultStage r := by rw [hn]; cases r <;> rfl
    subst hstage
    exact exec_pitchStageComplete_of_notTaken (h.imp_right fun ⟨hr, hgoes⟩ => State.admits_eq_false hr hgoes)

end Sys2Proof.Machine
end

section
/-! PROOF. The key exchange of a Silman port (15_trust_and_firmware.md R416 to R418, 12_silman_and_seam.md R328, R337, R338): what each
message, each time limit and the completion come down to. -/

namespace Sys2Proof.Machine

open Sys2Proof

/-! ## HELLO -/

theorem State.keyArrives_of_able {s : State} {n : Nat} (h : s.kxAble n = true) (act : State → State) :
    s.keyArrives n act = act s := if_pos h

/-- The partner's HELLO is kept on a port. -/
def State.keepHello (s : State) (n : Nat) (random chain : List Byte) : State :=
  s.setKx n (fun y => { y with peerHello := some (random, chain) })

section
variable {s : State} {p : Fin 18} (hp : s.kxAble p = true)
include hp

theorem exec_kxHello_of_noIdentity (r ch : List Byte) (hx : (s.sl p).kx = none) (hid : s.trust.identityOk = false) :
    exec (.kxHello p r ch) s = .next s := by
  have hstart : s.startKx p (decide ((s.sl p).state = .keyed)) = s := if_pos (by rw [hid]; rfl)
  change execKxHello p r ch s = _
  rw [execKxHello, State.keyArrives_of_able hp, hx]
  dsimp only [Option.isSome_none]
  rw [if_neg (by simp), hstart, hx]

variable {x : Kx} (hx : (s.sl p).kx = some x)
include hx

theorem exec_kxHello_of_second (r ch : List Byte) (hsecond : x.peerHello.isSome = true) :
    exec (.kxHello p r ch) s = .next s := by
  change execKxHello p r ch s = _
  simp only [execKxHello, State.keyArrives_of_able hp, hx, Option.isSome_some, if_true, hsecond]

section
variable (r : List Byte) {ch : List Byte} (hfirst : x.peerHello = none)
include hfirst

theorem exec_kxHello_of_badChain (hch : Config.chainOk ch = false) :
    exec (.kxHello p r ch) s = .next ((s.keepHello p r ch).kxRefuse p .peerAttest) := by
  change execKxHello p r ch s = _
  simp only [execKxHello, State.keyArrives_of_able hp, hx, Option.isSome_some, if_true, hfirst, Option.isSome_none,
    Bool.false_eq_true, if_false, hch, Bool.not_false]
  rfl

variable (hch : Config.chainOk ch = true)
include hch

/-- A HELLO whose chain holds is kept; the initiator goes on with its entropy. -/
theorem exec_kxHello_of_chain : exec (.kxHello p r ch) s = .next (if !(s.keepHello p r ch).initiates ch then s.keepHello p r ch
    else if !(s.keepHello p r ch).trust.entropyOk then (s.keepHello p r ch).kxRefuse p .entropy
    else ((s.keepHello p r ch).drawKey.2.setKx p (fun y =>
      { y with kemKey := some (Config.kemKey (s.keepHello p r ch).drawKey.1, (s.keepHello p r ch).drawKey.2.report noTdi r) })).sendKey p 2
        (Config.kemKey (s.keepHello p r ch).drawKey.1 ++ (s.keepHello p r ch).drawKey.2.report noTdi r)) := by
  change execKxHello p r ch s = _
  simp only [execKxHello, State.keyArrives_of_able hp, hx, Option.isSome_some, if_true, hfirst, Option.isSome_none,
    Bool.false_eq_true, if_false, hch, Bool.not_true]
  rfl

theorem exec_kxHello_of_responder (hi : (s.keepHello p r ch).initiates ch = false) :
    exec (.kxHello p r ch) s = .next (s.keepHello p r ch) := by
  rw [exec_kxHello_of_chain hp hx r hfirst hch, if_pos (by simp [hi])]

variable (hi : (s.keepHello p r ch).initiates ch = true)
include hi

theorem exec_kxHello_of_noEntropy (he : (s.keepHello p r ch).trust.entropyOk = false) :
    exec (.kxHello p r ch) s = .next ((s.keepHello p r ch).kxRefuse p .entropy) := by
  rw [exec_kxHello_of_chain hp hx r hfirst hch, if_neg (by simp [hi]), if_pos (by simp [he])]

theorem exec_kxHello_of_initiator (he : (s.keepHello p r ch).trust.entropyOk = true) :
    exec (.kxHello p r ch) s = .next (((s.keepHello p r ch).drawKey.2.setKx p (fun y =>
      { y with kemKey := some (Config.kemKey (s.keepHello p r ch).drawKey.1, (s.keepHello p r ch).drawKey.2.report noTdi r) })).sendKey p 2
        (Config.kemKey (s.keepHello p r ch).drawKey.1 ++ (s.keepHello p r ch).drawKey.2.report noTdi r)) := by
  rw [exec_kxHello_of_chain hp hx r hfirst hch, if_neg (by simp [hi]), if_neg (by simp [he])]

end

/-! ## KEM_KEY, KEM_CT, FINISH and ABORT -/

section
variable (ek : List Byte) {rep r ch : List Byte} (hello : x.peerHello = some (r, ch)) (hi : s.initiates ch = false)
  (hfirst : x.kemKey = none)
include hello hi hfirst

theorem exec_kxKemKey_of_badReport (hr : s.acceptsReport x rep = false) :
    exec (.kxKemKey p ek rep) s = .next (s.kxRefuse p .peerAttest) := by
  change execKxKemKey p ek rep s = _
  simp only [execKxKemKey, State.keyArrives_of_able hp, hx, hello, hi, hfirst, hr, Option.isSome_none, Bool.or_self, Bool.not_false,
    Bool.false_eq_true, if_false, if_true]

variable (hr : s.acceptsReport x rep = true)
include hr

theorem exec_kxKemKey_of_noEntropy (he : s.trust.entropyOk = false) :
    exec (.kxKemKey p ek rep) s = .next (s.kxRefuse p .entropy) := by
  change execKxKemKey p ek rep s = _
  simp only [execKxKemKey, State.keyArrives_of_able hp, hx, hello, hi, hfirst, hr, he, Option.isSome_none, Bool.or_self,
    Bool.not_false, Bool.not_true, Bool.false_eq_true, if_false, if_true]

theorem exec_kxKemKey_of_accepted (he : s.trust.entropyOk = true) : exec (.kxKemKey p ek rep) s
    = .next (((s.drawKey.2.setKx p (fun y =>
        { y with kemKey := some (ek, rep), kemCt := some (Config.kemCt ek s.drawKey.1, s.drawKey.2.report noTdi r) })).sendKey p 3
          (Config.kemCt ek s.drawKey.1 ++ s.drawKey.2.report noTdi r)).sendFinish p) := by
  change execKxKemKey p ek rep s = _
  simp only [execKxKemKey, State.keyArrives_of_able hp, hx, hello, hi, hfirst, hr, he, Option.isSome_none, Bool.or_self,
    Bool.not_true, Bool.false_eq_true, if_false]

end

section
variable (ct : List Byte) {rep : List Byte} (hkey : x.kemKey.isSome = true) (hfirst : x.kemCt = none)
include hkey hfirst

theorem exec_kxKemCt_of_badReport (hr : s.acceptsReport x rep = false) :
    exec (.kxKemCt p ct rep) s = .next (s.kxRefuse p .peerAttest) := by
  change execKxKemCt p ct rep s = _
  simp only [execKxKemCt, State.keyArrives_of_able hp, hx, hr]
  exact congrArg Host.Outcome.next (if_neg (by simp [Option.isSome_iff_ne_none.mp hkey, hfirst]))

theorem exec_kxKemCt_of_accepted (hr : s.acceptsReport x rep = true) : exec (.kxKemCt p ct rep) s
    = .next (((s.setKx p (fun y => { y with kemCt := some (ct, rep) })).sendFinish p).kxSettle p) := by
  change execKxKemCt p ct rep s = _
  simp only [execKxKemCt, State.keyArrives_of_able hp, hx, hr]
  exact congrArg Host.Outcome.next (if_neg (by simp [Option.isSome_iff_ne_none.mp hkey, hfirst]))

end

section
variable {sig r ch : List Byte} (hello : x.peerHello = some (r, ch)) (hct : x.kemCt.isSome = true) (hfirst : x.finGot = false)
include hello hct hfirst

theorem exec_kxFinish_of_verified (hv : Config.verify ch (finishDigest (s.transcript x) (!s.initiates ch)) sig = true) :
    exec (.kxFinish p sig) s = .next ((s.setKx p (fun y => { y with finGot := true })).kxSettle p) := by
  change execKxFinish p sig s = _
  simp only [execKxFinish, State.keyArrives_of_able hp, hx, hello, hv]
  exact congrArg Host.Outcome.next (if_neg (by simp [Option.isSome_iff_ne_none.mp hct, hfirst]))

theorem exec_kxFinish_of_forged (hv : Config.verify ch (finishDigest (s.transcript x) (!s.initiates ch)) sig = false) :
    exec (.kxFinish p sig) s = .next (s.kxRefuse p .peerAttest) := by
  change execKxFinish p sig s = _
  simp only [execKxFinish, State.keyArrives_of_able hp, hx, hello, hv]
  exact congrArg Host.Outcome.next (if_neg (by simp [Option.isSome_iff_ne_none.mp hct, hfirst]))

end

theorem exec_kxAbort_of_running (r : BitVec 8) : exec (.kxAbort p r) s = .next (s.kxFail p) := by
  change execKxAbort p r s = _
  rw [execKxAbort, State.keyArrives_of_able hp, hx]
  rfl

/-! ## Time limits -/

theorem exec_keyExchangeTimeout_of_due (hdue : x.started + 1000000000 ≤ s.now) :
    exec (.keyExchangeTimeout p) s = .next (s.kxAgain p x) := by
  have hms : ms 1000 = 1000000000 := rfl
  change execKeyExchangeTimeout p s = _
  rw [execKeyExchangeTimeout, hx, hms]
  exact congrArg Host.Outcome.next (if_pos (by rw [hp, decide_eq_true hdue, Bool.and_self]))

omit hp in
theorem exec_keyExchangeTimeout_of_early (hearly : s.now < x.started + 1000000000) :
    exec (.keyExchangeTimeout p) s = .next s := by
  have hms : ms 1000 = 1000000000 := rfl
  change execKeyExchangeTimeout p s = _
  rw [execKeyExchangeTimeout, hx, hms]
  exact congrArg Host.Outcome.next (if_neg (by simp [Nat.not_le.mpr hearly]))

end

section
variable {s : State} {p : Fin 18}

theorem exec_keyExchangeRetry_of_due {t : Nat} (hp : s.hasSl p = true) (hup : (s.sl p).state = .upClear) (hx : (s.sl p).kx = none)
    (hfailed : (s.sl p).kxFailedAt = some t) (hdue : t + 10000000000 ≤ s.now) : exec (.keyExchangeRetry p) s
      = .next ((s.setSl p (fun x => { x with kxFailedAt := none })).startKx p false) := by
  have hms : ms 10000 = 10000000000 := rfl
  change execKeyExchangeRetry p s = _
  rw [execKeyExchangeRetry, hfailed, hms]
  exact congrArg Host.Outcome.next (if_pos (by rw [hp, hup, hx, decide_eq_true hdue]; rfl))

theorem exec_keyExchangeRetry_of_early {t : Nat} (hfailed : (s.sl p).kxFailedAt = some t) (hearly : s.now < t + 10000000000) :
    exec (.keyExchangeRetry p) s = .next s := by
  have hms : ms 10000 = 10000000000 := rfl
  change execKeyExchangeRetry p s = _
  rw [execKeyExchangeRetry, hfailed, hms]
  exact congrArg Host.Outcome.next (if_neg (by simp [Nat.not_le.mpr hearly]))

theorem exec_rekey_of_keyed (hp : s.hasSl p = true) (hk : (s.sl p).state = .keyed) (hx : (s.sl p).kx = none) :
    exec (.rekey p) s = .next (s.startKx p true) := by
  change execRekey p s = _
  rw [execRekey, if_pos (by simp [hp, hk, hx])]

section
variable {k : List Byte} {t : Nat} (hold : (s.sl p).oldKey = some (k, some t))
include hold

theorem exec_oldKeyExpiry_of_due (hdue : t + 1000000 ≤ s.now) :
    exec (.oldKeyExpiry p) s = .next (s.setSl p (fun x => { x with oldKey := none })) := by
  have hms : ms 1 = 1000000 := rfl
  change execOldKeyExpiry p s = _
  rw [execOldKeyExpiry, hold, hms]
  exact congrArg Host.Outcome.next (if_pos hdue)

theorem exec_oldKeyExpiry_of_early (hearly : s.now < t + 1000000) : exec (.oldKeyExpiry p) s = .next s := by
  have hms : ms 1 = 1000000 := rfl
  change execOldKeyExpiry p s = _
  rw [execOldKeyExpiry, hold, hms]
  exact congrArg Host.Outcome.next (if_neg (Nat.not_le.mpr hearly))

end

theorem State.kxFail_sl (s : State) (n : Nat) : (s.kxFail n).sl n = { s.sl n with
    state := if (s.sl n).state = .keyed then .upClear else (s.sl n).state, linkKey := [], oldKey := none, tagFailTimes := []
    kx := none, kxFailedAt := some s.now, step5 := false } := by
  change ((s.dropKeys n).setSl n (fun p => { p with kxFailedAt := some s.now, step5 := false })).sl n = _
  rw [State.setSl_sl, State.dropKeys, State.setSl_sl]

end

/-! ## Completion -/

/-- The port keeps its key phase, its old key, its exchange and its state. -/
def SlPort.keepsKeys (p q : SlPort) : Prop :=
  q.keyPhase = p.keyPhase ∧ q.oldKey = p.oldKey ∧ q.kx = p.kx ∧ q.state = p.state

theorem SlPort.keepsKeys_refl (p : SlPort) : p.keepsKeys p := ⟨rfl, rfl, rfl, rfl⟩

theorem SlPort.keepsKeys.trans {p q r : SlPort} (h : p.keepsKeys q) (g : q.keepsKeys r) : p.keepsKeys r := by
  obtain ⟨hphase, hold, hkx, hstate⟩ := h
  obtain ⟨gphase, gold, gkx, gstate⟩ := g
  exact ⟨gphase.trans hphase, gold.trans hold, gkx.trans hkx, gstate.trans hstate⟩

theorem SlPort.sendOne_keepsKeys (p : SlPort) (own : BitVec 12) (vc : Fin 4) (f : Flit) :
    p.keepsKeys ((p.sendOne own vc f).charged vc f) := by
  unfold charged
  split
  · exact ⟨rfl, rfl, rfl, rfl⟩
  · split <;> exact ⟨rfl, rfl, rfl, rfl⟩

theorem drainList_keepsKeys (r : LinkRation) (own : BitVec 12) (l : List (Fin 4 × Flit)) (p : SlPort) :
    p.keepsKeys (drainList r own p l).1 := by
  induction l generalizing p with
  | nil => exact p.keepsKeys_refl
  | cons e rest ih =>
    obtain ⟨vc, f⟩ := e
    unfold drainList
    split
    · exact (p.sendOne_keepsKeys own vc f).trans (ih _)
    · exact ih _

theorem State.emitSeqs_sl (l : List Replay) (s : State) (n j : Nat) :
    (l.foldl (fun (t : State) e => t.emitSeq n e) s).sl j = s.sl j := by
  have hlinks : _ = s.links :=
    (Only.foldl (L := [.out]) l (fun (t : State) e => emitSeq_only t n e) .refl).same .links (by decide)
  rw [sl, hlinks]
  rfl

theorem State.drainTx_keepsKeys (s : State) (n : Nat) : (s.sl n).keepsKeys ((s.drainTx n).sl n) := by
  unfold drainTx
  split
  · exact (s.sl n).keepsKeys_refl
  · dsimp only
    rw [emitSeqs_sl, setSl_sl]
    exact drainList_keepsKeys ..

section
variable (s : State) (n : Nat) {x : Kx}

theorem State.kxComplete_of_rekey (hx : x.rekey = true) : ((s.kxComplete n x).sl n).keyPhase = !(s.sl n).keyPhase
    ∧ ((s.kxComplete n x).sl n).oldKey = some ((s.sl n).linkKey, none) ∧ ((s.kxComplete n x).sl n).kx = none
    ∧ ((s.kxComplete n x).sl n).state = (s.sl n).state := by
  unfold kxComplete
  dsimp only
  rw [if_pos hx]
  obtain ⟨hphase, hold, hkx, hstate⟩ := State.drainTx_keepsKeys (s.setSl n _) n
  rw [hphase, hold, hkx, hstate, setSl_sl]
  exact ⟨rfl, rfl, rfl, rfl⟩

/-- A first exchange that completes makes the port KEYED, sends its replay buffer again and what waits, and tells the root. -/
theorem State.kxComplete_of_first (hx : x.rekey = false) : ∃ t : State, (t.sl n).state = .keyed ∧ (t.sl n).kx = none
    ∧ (t.sl n).oldKey = none ∧ (t.sl n).keyedAt = s.now ∧ (t.sl n).step5 = false ∧ (∀ m, m ≠ n → t.sl m = s.sl m)
    ∧ s.kxComplete n x = (((t.sl n).replayBuf.foldl (fun (u : State) e => u.emitSeq n e) t).drainTx n).sendJoin n := by
  unfold kxComplete
  dsimp only
  rw [if_neg (by simp [hx])]
  refine ⟨s.setSl n _, ?_, ?_, ?_, ?_, ?_, fun m hm => s.setSl_sl_ne n _ hm, rfl⟩ <;> rw [setSl_sl]

theorem State.kxSettle_of_running (hx : (s.sl n).kx = some x) :
    s.kxSettle n = if x.finSent = true ∧ x.finGot = true then s.kxComplete n x else s := by
  rw [kxSettle, hx]
  exact if_congr (iff_of_eq (Bool.and_eq_true ..)) rfl rfl

end

/-- Settles O46: each message by what it finds, the failure, the time limits, and the two ways an exchange completes. -/
theorem keyExchange : Obligations.KeyExchange := by
  refine ⟨fun s p r ch x hp hx hn => ⟨_, rfl, exec_kxHello_of_badChain hp hx r hn, exec_kxHello_of_responder hp hx r hn,
      exec_kxHello_of_initiator hp hx r hn, exec_kxHello_of_noEntropy hp hx r hn⟩,
    fun s p r ch hp => exec_kxHello_of_noIdentity hp r ch, fun s p r ch x hp hx => exec_kxHello_of_second hp hx r ch,
    fun s p ek rep x r ch hp hx hh hi hk => ⟨exec_kxKemKey_of_badReport hp hx ek hh hi hk, exec_kxKemKey_of_accepted hp hx ek hh hi hk,
      exec_kxKemKey_of_noEntropy hp hx ek hh hi hk⟩,
    fun s p ct rep x hp hx hk hc => ⟨exec_kxKemCt_of_badReport hp hx ct hk hc, exec_kxKemCt_of_accepted hp hx ct hk hc⟩,
    fun s p sig x r ch hp hx hh hc hf => ⟨exec_kxFinish_of_verified hp hx hh hc hf, exec_kxFinish_of_forged hp hx hh hc hf⟩,
    fun s p r x hp hx => exec_kxAbort_of_running hp hx r, fun s p => s.kxFail_sl p,
    fun s p x hp hx => ⟨exec_keyExchangeTimeout_of_due hp hx, exec_keyExchangeTimeout_of_early hx⟩,
    fun s p t hp hup hx hf => ⟨exec_keyExchangeRetry_of_due hp hup hx hf, exec_keyExchangeRetry_of_early hf⟩,
    fun s p => exec_rekey_of_keyed, fun s p k t ho => ⟨exec_oldKeyExpiry_of_due ho, exec_oldKeyExpiry_of_early ho⟩,
    fun s n x => s.kxComplete_of_rekey n, fun s n x => s.kxComplete_of_first n, fun s n x => s.kxSettle_of_running n⟩

end Sys2Proof.Machine
end

section
/-! PROOF. The DOE mailbox of a host port (13_host_far_ports.md R376 to R380, 15_trust_and_firmware.md R412, R414, R415): what each
request comes down to at a port whose mailbox answers. -/

namespace Sys2Proof.Machine

open Sys2Proof

/-! ## Negotiation -/

section
variable {s : State} {p : Fin 2} (hdoe : s.doe p = true)
include hdoe

theorem State.doeServe_of_doe (go : State) : s.doeServe p go = go := if_pos hdoe

theorem exec_spdmGetVersion_of_doe : exec (.spdmGetVersion p) s
    = .next ((s.setPort p (fun h => { h with spdmStep := 1 })).emit (.spdm p 0x04 (leBytes 2 0x1300))) :=
  congrArg Host.Outcome.next (State.doeServe_of_doe hdoe _)

theorem exec_spdmGetCapabilities_of_step (hstep : (s.port p).spdmStep = 1 ∨ (s.port p).spdmStep = 2) :
    exec (.spdmGetCapabilities p) s
      = .next ((s.setPort p (fun h => { h with spdmStep := 2 })).emit (.spdm p 0x61 (leBytes 4 0x62D6))) :=
  congrArg Host.Outcome.next ((State.doeServe_of_doe hdoe _).trans (if_pos hstep))

section
variable (hstep : 2 ≤ (s.port p).spdmStep)
include hstep

theorem exec_spdmNegotiateAlgorithms_of_offered : exec (.spdmNegotiateAlgorithms p true) s
    = .next ((s.setPort p (fun h => { h with spdmStep := 3 })).emit (.spdm p 0x63 (leBytes 1 1))) :=
  congrArg Host.Outcome.next ((State.doeServe_of_doe hdoe _).trans (if_neg (Nat.not_lt.mpr hstep)))

theorem exec_spdmNegotiateAlgorithms_of_none :
    exec (.spdmNegotiateAlgorithms p false) s = .next (s.emit (.spdm p 0x7F (leBytes 1 1))) :=
  congrArg Host.Outcome.next ((State.doeServe_of_doe hdoe _).trans (if_neg (Nat.not_lt.mpr hstep)))

end

theorem exec_spdmGetDigests_of_early (hstep : (s.port p).spdmStep ≠ 3) :
    exec (.spdmGetDigests p) s = .next (s.emit (.spdm p 0x7F (leBytes 1 4))) :=
  congrArg Host.Outcome.next ((State.doeServe_of_doe hdoe _).trans (if_neg hstep))

/-! ## Digests, certificates, challenges and measurements -/

variable (hstep : (s.port p).spdmStep = 3)
include hstep

theorem State.spdmServe_of_negotiated (go : State) : s.spdmServe p go = go :=
  (doeServe_of_doe hdoe _).trans (if_pos hstep)

theorem exec_spdmGetDigests_of_negotiated : exec (.spdmGetDigests p) s
    = .next (s.emit (.spdm p 0x01 (leBytes 1 1 ++ Config.shake256 s.chain 32))) :=
  congrArg Host.Outcome.next (State.spdmServe_of_negotiated hdoe hstep _)

theorem exec_spdmGetCertificate_of_within {off : Nat} (len : Nat) (hoff : off ≤ s.chain.length) :
    exec (.spdmGetCertificate p 0 off len) s = .next (s.emit (.spdm p 0x02 ((s.chain.drop off).take len))) :=
  congrArg Host.Outcome.next ((State.spdmServe_of_negotiated hdoe hstep _).trans
    (if_neg (not_or.mpr ⟨not_not.mpr rfl, Nat.not_lt.mpr hoff⟩)))

theorem exec_spdmChallenge_of_identity {nonce : List Byte} (hlen : nonce.length = 32) (hid : s.trust.identityOk = true) :
    exec (.spdmChallenge p nonce) s = .next ((s.setTrust (fun t => { t with drawn := t.drawn + 1 })).emit
      (.spdm p 0x03 (Config.shake256 s.chain 32 ++ Config.entropy s.trust.drawn 32
        ++ Config.sign s.lead (nonce ++ (Config.shake256 s.chain 32 ++ Config.entropy s.trust.drawn 32))))) :=
  congrArg Host.Outcome.next ((State.spdmServe_of_negotiated hdoe hstep _).trans
    ((if_neg (not_not.mpr hlen)).trans (if_neg (by simp [hid]))))

theorem exec_spdmGetMeasurements_of_block {k : BitVec 8} (nonce : List Byte) (hlow : 1 ≤ k.toNat) (hhigh : k.toNat ≤ 9) :
    exec (.spdmGetMeasurements p k nonce) s
      = .next (s.emit (.spdm p 0x60 (((s.reportBody (s.port p).tdi.code nonce).drop (0x020 + 32 * k.toNat)).take 32))) := by
  have hplace : 0x040 + 32 * (k.toNat - 1) = 0x020 + 32 * k.toNat := by omega
  rw [← hplace]
  exact congrArg Host.Outcome.next ((State.spdmServe_of_negotiated hdoe hstep _).trans
    ((if_neg (Nat.ne_of_gt hlow)).trans (if_pos ⟨hlow, hhigh⟩)))

/-- The whole report, block 0xF0, is signed by the module's identity. -/
theorem exec_spdmGetMeasurements_of_report (nonce : List Byte) : exec (.spdmGetMeasurements p 0xF0 nonce) s
    = .next (if !s.trust.identityOk then s.spdmRefuse p .identity
        else s.emit (.spdm p 0x60 (s.report (s.port p).tdi.code nonce))) :=
  congrArg Host.Outcome.next (State.spdmServe_of_negotiated hdoe hstep _)

theorem exec_spdmGetMeasurements_of_identity (nonce : List Byte) (hid : s.trust.identityOk = true) :
    exec (.spdmGetMeasurements p 0xF0 nonce) s = .next (s.emit (.spdm p 0x60 (s.report (s.port p).tdi.code nonce))) := by
  rw [exec_spdmGetMeasurements_of_report hdoe hstep, if_neg (by simp [hid])]

theorem exec_spdmGetMeasurements_of_noIdentity (nonce : List Byte) (hid : s.trust.identityOk = false) :
    exec (.spdmGetMeasurements p 0xF0 nonce) s
      = .next (s.emit (.spdm p 0x7F (leBytes 1 5 ++ leBytes 4 (0x05000000 + Reason.identity.code)))) := by
  rw [exec_spdmGetMeasurements_of_report hdoe hstep, if_pos (by simp [hid])]
  rfl

/-! ## Sessions -/

section
variable {ek : List Byte} (hid : s.trust.identityOk = true) (hent : s.trust.entropyOk = true)
  (hroom : (s.port p).sessions.length < 4)
include hid hent hroom

/-- The session a KEY_EXCHANGE makes, under the next key drawn. -/
def State.newSession (s : State) (p : Fin 2) (ek : List Byte) : Session :=
  { id := lowestFree ((s.port p).sessions.map (·.id)) 0 4, established := false, lastMsg := s.now
    secret := Config.kemSecret (Config.kemCt ek s.trust.drawn)
    transcript := ek ++ Config.kemCt ek s.trust.drawn ++ Config.sign s.lead (ek ++ Config.kemCt ek s.trust.drawn), updates := 0 }

theorem exec_spdmKeyExchange_of_goodKey (hk : kemInputOk ek = true) : exec (.spdmKeyExchange p ek) s
    = .next (((s.setTrust (fun t => { t with drawn := t.drawn + 1 })).setPort p (fun h =>
        { h with sessions := h.sessions ++ [s.newSession p ek] })).emit
          (.spdm p 0x64 (leBytes 2 (s.newSession p ek).id ++ Config.kemCt ek s.trust.drawn
            ++ Config.sign s.lead (ek ++ Config.kemCt ek s.trust.drawn)))) :=
  congrArg Host.Outcome.next ((State.spdmServe_of_negotiated hdoe hstep _).trans ((if_neg (by simp [hid])).trans
    ((if_neg (by simp [hent])).trans ((if_neg (Nat.not_le.mpr hroom)).trans (if_neg (by simp [hk]))))))

theorem exec_spdmKeyExchange_of_badKey (hk : kemInputOk ek = false) :
    exec (.spdmKeyExchange p ek) s = .next (s.emit (.spdm p 0x7F (leBytes 1 1))) :=
  congrArg Host.Outcome.next ((State.spdmServe_of_negotiated hdoe hstep _).trans ((if_neg (by simp [hid])).trans
    ((if_neg (by simp [hent])).trans ((if_neg (Nat.not_le.mpr hroom)).trans (if_pos (by simp [hk]))))))

end

section
variable {n : Nat} {x : Session} (hx : (s.port p).session n = some x)
include hx

section
variable (hnew : x.established = false)
include hnew

theorem exec_spdmFinish_of_proved : exec (.spdmFinish p n (Config.hmac x.secret x.transcript)) s
    = .next ((s.setPort p (fun h => h.setSession n (fun y => { y with established := true, lastMsg := s.now }))).emit
        (.spdm p 0x65 [])) := by
  change execSpdmFinish p n _ s = _
  rw [execSpdmFinish, State.spdmServe_of_negotiated hdoe hstep, hx]
  exact congrArg Host.Outcome.next ((if_neg (by simp [hnew])).trans (if_pos rfl))

theorem exec_spdmFinish_of_unproved {m : List Byte} (hm : m ≠ Config.hmac x.secret x.transcript) :
    exec (.spdmFinish p n m) s = .next ((s.setPort p (fun h => h.endSession n)).emit (.spdm p 0x7F (leBytes 1 6))) := by
  change execSpdmFinish p n m s = _
  rw [execSpdmFinish, State.spdmServe_of_negotiated hdoe hstep, hx]
  exact congrArg Host.Outcome.next ((if_neg (by simp [hnew])).trans (if_neg hm))

end

section
variable (hest : x.established = true)
include hest

/-- The message counts as the session's last. -/
def State.heardIn (s : State) (p : Fin 2) (n : Nat) : State :=
  s.setPort p (fun h => h.setSession n (fun y => { y with lastMsg := s.now }))

theorem State.inSession_of_established (go : Session → State → State) : s.inSession p n go = go x (s.heardIn p n) := by
  rw [inSession, spdmServe_of_negotiated hdoe hstep, hx]
  exact if_pos hest

theorem exec_spdmKeyUpdate_of_established : exec (.spdmKeyUpdate p n) s
    = .next (((s.heardIn p n).setPort p (fun h => h.setSession n (fun y =>
        { y with updates := y.updates + 1, secret := Config.hmac x.secret (leBytes 4 (x.updates + 1)) }))).emit (.spdm p 0x69 [])) :=
  congrArg Host.Outcome.next (State.inSession_of_established hdoe hstep hx hest _)

theorem exec_spdmHeartbeat_of_established :
    exec (.spdmHeartbeat p n) s = .next ((s.heardIn p n).emit (.spdm p 0x68 [])) :=
  congrArg Host.Outcome.next (State.inSession_of_established hdoe hstep hx hest _)

theorem exec_spdmEndSession_of_established : exec (.spdmEndSession p n) s
    = .next (((s.heardIn p n).setPort p (fun h => h.endSession n)).emit (.spdm p 0x6C [])) :=
  congrArg Host.Outcome.next (State.inSession_of_established hdoe hstep hx hest _)

theorem exec_spdmVendorDefined_of_established (r : VendorReq) :
    exec (.spdmVendorDefined p (some n) r) s = .next ((s.heardIn p n).vendorDo p r) :=
  congrArg Host.Outcome.next (State.inSession_of_established hdoe hstep hx hest _)

end

end

theorem exec_spdmVendorDefined_of_noSession (r : VendorReq) :
    exec (.spdmVendorDefined p none r) s = .next (s.emit (.spdm p 0x7F (leBytes 1 11))) :=
  congrArg Host.Outcome.next (State.spdmServe_of_negotiated hdoe hstep _)

end

/-! ## Key management and TDISP -/

section
variable {s : State} {p : Fin 2}

theorem State.vendorDo_ideKeySet (st : Fin 5) (key : List Byte) : s.vendorDo p (.ideKeySet st key)
    = (s.setPort p (fun h => { h with ideKeys := put h.ideKeys st key })).emit (.spdm p 0x7E (leBytes 1 3)) := rfl

theorem State.vendorDo_tdispLock {st : Fin 5} (htdi : (s.port p).tdi = .configUnlocked) (hst : st ≠ 0)
    (hkeys : has (s.port p).ideKeys st = true) : s.vendorDo p (.tdispLock st)
      = ((s.setTrust (fun y => { y with drawn := y.drawn + 1 })).setPort p (fun h =>
          { h with tdi := .configLocked, tdiStream := some st })).emit (.spdm p 0x7E (leBytes 1 3 ++ Config.entropy s.trust.drawn 32)) :=
  if_pos ⟨htdi, hst, hkeys⟩

theorem State.vendorDo_tdispStart (htdi : (s.port p).tdi = .configLocked) : s.vendorDo p .tdispStart
    = ((s.setPort p (fun h => { h with tdi := .run })).flushHeld p).emit (.spdm p 0x7E (leBytes 1 6)) :=
  if_pos htdi

theorem State.vendorDo_tdispStop (htdi : (s.port p).tdi ≠ .run) : s.vendorDo p .tdispStop
    = ((s.setPort p (fun h => { h with tdi := .configUnlocked, tdiStream := none })).flushHeld p).emit (.spdm p 0x7E (leBytes 1 7)) :=
  congrArg (fun t : State => t.vendorSay p 0x07 []) (if_neg htdi)

variable {n : Nat} {x : Session} (hx : (s.port p).session n = some x)
include hx

theorem exec_spdmSessionTimeout_of_due (hdue : x.lastMsg + 60000000000 ≤ s.now) :
    exec (.spdmSessionTimeout p n) s = .next (s.setPort p (fun h => h.endSession n)) := by
  have hms : ms 60000 = 60000000000 := rfl
  change execSpdmSessionTimeout p n s = _
  rw [execSpdmSessionTimeout, hx, hms]
  exact congrArg Host.Outcome.next (if_pos hdue)

theorem exec_spdmSessionTimeout_of_early (hearly : s.now < x.lastMsg + 60000000000) :
    exec (.spdmSessionTimeout p n) s = .next s := by
  have hms : ms 60000 = 60000000000 := rfl
  change execSpdmSessionTimeout p n s = _
  rw [execSpdmSessionTimeout, hx, hms]
  exact congrArg Host.Outcome.next (if_neg (Nat.not_le.mpr hearly))

end

/-- Settles O50: negotiation by its steps, then the requests behind it, those of an established session, and its time limit. -/
theorem spdmMailbox : Obligations.SpdmMailbox := by
  refine ⟨fun s p hd => ⟨exec_spdmGetVersion_of_doe hd, exec_spdmGetCapabilities_of_step hd,
      fun h => ⟨exec_spdmNegotiateAlgorithms_of_offered hd h, exec_spdmNegotiateAlgorithms_of_none hd h⟩,
      exec_spdmGetDigests_of_early hd⟩,
    fun s p hd h3 => ⟨exec_spdmGetDigests_of_negotiated hd h3, fun off len => exec_spdmGetCertificate_of_within hd h3 len, ?_,
      fun k nonce => exec_spdmGetMeasurements_of_block hd h3 nonce, exec_spdmGetMeasurements_of_identity hd h3,
      exec_spdmGetMeasurements_of_noIdentity hd h3, ?_, fun ek => exec_spdmKeyExchange_of_badKey hd h3,
      fun n x hx hn => ⟨exec_spdmFinish_of_proved hd h3 hx hn, fun m => exec_spdmFinish_of_unproved hd h3 hx hn⟩⟩,
    ?_, fun s p r hd h3 => exec_spdmVendorDefined_of_noSession hd h3 r,
    fun s p n x hx => ⟨exec_spdmSessionTimeout_of_due hx, exec_spdmSessionTimeout_of_early hx⟩⟩
  · rintro nonce body hlen hid rfl
    exact exec_spdmChallenge_of_identity hd h3 hlen hid
  · rintro ek ct sig id hid hent hroom hk rfl rfl rfl
    exact exec_spdmKeyExchange_of_goodKey hd h3 hid hent hroom hk
  · rintro s t p n x hd h3 hx he rfl
    refine ⟨exec_spdmKeyUpdate_of_established hd h3 hx he, exec_spdmHeartbeat_of_established hd h3 hx he,
      exec_spdmEndSession_of_established hd h3 hx he, fun st key => ?_, fun st htdi hst hkeys => ?_, fun htdi => ?_, fun htdi => ?_⟩ <;>
      rw [exec_spdmVendorDefined_of_established hd h3 hx he]
    · exact congrArg Host.Outcome.next (State.vendorDo_ideKeySet st key)
    · exact congrArg Host.Outcome.next (State.vendorDo_tdispLock htdi hst hkeys)
    · exact congrArg Host.Outcome.next (State.vendorDo_tdispStart htdi)
    · exact congrArg Host.Outcome.next (State.vendorDo_tdispStop htdi)

end Sys2Proof.Machine
end

section
/-! PROOF. Host-port links and resets, BAR2 and the far tier's events (13_host_far_ports.md R374 to R388): what is left of a port by a
reset or an error of its TDI, and what each access comes down to. -/

namespace Sys2Proof.Machine

open Sys2Proof

/-! ## Links, TDI errors and port resets -/

theorem exec_hostLinkTrain_of_lantern {s : State} {p : Fin 2} (hrole : s.hostRole p = true) (hstage : s.lantern.stage.toNat ≥ 2)
    (hdown : (s.port p).linkUp = false) (hcool : (s.railsOf p).serHot = false) :
    exec (.hostLinkTrain p) s = .next (s.setPort p (fun h => { h with linkUp := true, perst := false })) := by
  have hon : s.lanternOn = true := decide_eq_true hstage
  change execHostLinkTrain p s = _
  rw [execHostLinkTrain, if_pos (by simp [hrole, hon, hdown, hcool])]

/-- The commands of a port's controller that an error of its TDI ends. -/
def State.tdiTags (s : State) (p : Fin 2) : List Nat :=
  (s.warden.tags.filter (fun x => decide (x.ctrl.val = p.val) && !isStrike x.code.toNat)).map (·.tag)

/-- A port whose TDI has failed, its slots dropped and its commands struck; their records are discarded. -/
def State.tdiDiscards (s : State) (p : Fin 2) : State :=
  State.setWarden (((s.setPort p (fun h => { h with tdi := .error, held := [] })).dropSlots p.val).markStruck (s.tdiTags p)
      .securityRefused (BitVec.ofNat 32 Reason.tdiError.code)) (fun w => { w with
    tags := w.tags.map (fun x => if x.ctrl.val = p.val then { x with discard := true } else x)
    records := w.records.filter (fun r => r.ctrl.val ≠ p.val) })

section
variable (s : State) (p : Fin 2)

theorem State.tdiFails_eq : s.tdiFails p = State.releaseTdiRanges (if (s.tdiTags p).isEmpty then s.tdiDiscards p
    else (s.tdiDiscards p).addJob { tags := s.tdiTags p, slotCount := 0, own := none }) p.val := rfl

theorem State.tdiFails_port : (s.tdiFails p).port p = { s.port p with tdi := .error, held := [] } := by
  have hjob : (if (s.tdiTags p).isEmpty then s.tdiDiscards p
      else (s.tdiDiscards p).addJob { tags := s.tdiTags p, slotCount := 0, own := none }).ports = (s.tdiDiscards p).ports := by
    split
    · rfl
    · exact (addJob_only ..).same .ports (by decide)
  have hports : (s.tdiFails p).ports = (s.setPort p (fun h => { h with tdi := .error, held := [] })).ports := by
    rw [tdiFails_eq]
    exact ((releaseTdiRanges_only ..).same .ports (by decide)).trans (hjob.trans
      (((markStruck_only ..).same .ports (by decide)).trans ((dropSlots_only ..).same .ports (by decide))))
  rw [port, hports, ← port, setPort_port]

theorem State.tdiFails_records (r : Rec) (hr : r ∈ (s.tdiFails p).warden.records) : r.ctrl.val ≠ p.val := by
  have hjob : (if (s.tdiTags p).isEmpty then s.tdiDiscards p
      else (s.tdiDiscards p).addJob { tags := s.tdiTags p, slotCount := 0, own := none }).warden.records
        = (s.tdiDiscards p).warden.records := by
    split <;> rfl
  rw [tdiFails_eq, (releaseTdiRanges_only ..).warden_records (by decide), hjob] at hr
  exact of_decide_eq_true (List.mem_filter.mp hr).2

theorem exec_tdiError_of_held (hrole : s.hostRole p = true) (hheld : (s.port p).tdiHeld = true) :
    exec (.tdiError p) s = .next (s.tdiFails p) :=
  congrArg Host.Outcome.next (if_pos (by rw [hrole, hheld, Bool.and_self]))

theorem exec_tdiError_of_free (hfree : (s.port p).tdi = .configUnlocked ∨ (s.port p).tdi = .error) :
    exec (.tdiError p) s = .next s := by
  have hheld : (s.port p).tdiHeld = false := by rcases hfree with h | h <;> rw [HostPort.tdiHeld, h] <;> rfl
  exact congrArg Host.Outcome.next (if_neg (by rw [hheld, Bool.and_false]; decide))

/-- The TDI of a port that is reset has failed where it was locked or ran. -/
def State.portFailed (s : State) (p : Fin 2) : State := if (s.port p).tdiHeld then s.tdiFails p else s

/-- The slots a port has sealed are presented at its reset, and the others read 0. -/
def State.portPresented (s : State) (p : Fin 2) : State :=
  State.keepSealed (((s.portFailed p).warden.sealed.filter (fun e => !e.presented && decide (e.ctrl.val = p.val))).foldl
    (fun (x : State) e => x.presentSlot e) (s.portFailed p)) p

theorem State.resetPort_eq (up : Bool) : s.resetPort p up = if up then (s.portPresented p).setPort p (fun h => h.cleared up)
    else State.hostLinkLost ((s.portPresented p).setPort p (fun h => h.cleared up)) p := rfl

theorem State.portPresented_port : (s.portPresented p).port p = (s.portFailed p).port p := by
  have hports : (s.portPresented p).ports = (s.portFailed p).ports :=
    ((keepSealed_only ..).same .ports (by decide)).trans
      ((Only.foldl (L := [.ics, .sealed]) _ (fun (x : State) e => presentSlot_only x e) .refl).same .ports (by decide))
  rw [port, hports]
  rfl

theorem State.resetPort_port (up : Bool) : (s.resetPort p up).port p = ((s.portFailed p).port p).cleared up := by
  have hports : (s.resetPort p up).ports = ((s.portPresented p).setPort p (fun h => h.cleared up)).ports := by
    rw [resetPort_eq]
    split
    · rfl
    · exact (hostLinkLost_only ..).same .ports (by decide)
  rw [port, hports, ← port, setPort_port, portPresented_port]

theorem State.portFailed_tdi (hheld : (s.port p).tdiHeld = true) : ((s.portFailed p).port p).tdi = .error := by
  rw [portFailed, if_pos hheld, tdiFails_port]

theorem HostPort.cleared_tdi (h : HostPort) (up : Bool) :
    (h.cleared up).tdi = .error ∨ (h.cleared up).tdi = .configUnlocked := by
  unfold cleared
  dsimp only
  split
  · exact .inl rfl
  · exact .inr rfl

variable (k : PortResetKind) (hrole : s.hostRole p = true)
include hrole

theorem exec_hostPortReset_of_host : exec (.hostPortReset p k) s
    = .next ((s.resetPort p (decide (k = .functionLevel) && (s.port p).linkUp)).setPort p (fun h =>
        { h with perst := h.perst || decide (k = .perst) })) :=
  congrArg Host.Outcome.next (if_pos hrole)

/-- What stands at a port after its reset. -/
theorem hostPortReset_port {u : State} (hu : exec (.hostPortReset p k) s = .next u) : u.port p
    = { ((s.portFailed p).port p).cleared (decide (k = .functionLevel) && (s.port p).linkUp) with
        perst := ((s.portFailed p).port p).perst || decide (k = .perst) } := by
  rw [exec_hostPortReset_of_host s p k hrole] at hu
  injection hu with hu
  rw [← hu, State.setPort_port, State.resetPort_port]
  rfl

end

/-! ## BAR2 -/

section
variable {s : State} {p : Fin 2} {off : Nat} {tb : Bool}

/-- The TDI or the module's stage lets no BAR2 access through. -/
def State.bar2Shut (s : State) (p : Fin 2) (tb : Bool) : Prop :=
  s.lantern.stage ≠ 0xF ∨ (s.port p).tdi = .configLocked ∨ (s.port p).tdi = .error ∨ ((s.port p).tdi = .run ∧ tb = false)

theorem State.bar2Shut_iff : s.bar2Shut p tb ↔ (!(s.port p).bar2Open tb || !s.ready) = true := by
  unfold bar2Shut HostPort.bar2Open ready
  cases htdi : (s.port p).tdi <;> cases tb <;> simp

theorem State.bar2Shut_of_aborts {a n : Nat} (h : s.bar2Aborts p a n tb = false) : ¬ s.bar2Shut p tb := by
  rw [bar2Shut_iff]
  unfold bar2Aborts at h
  simp only [Bool.or_eq_false_iff] at h
  simp [h.1]

theorem State.bar2Aborts_of_shut (h : s.bar2Shut p tb) (a n : Nat) : s.bar2Aborts p a n tb = true := by
  rw [bar2Shut_iff] at h
  unfold bar2Aborts
  rw [h]
  rfl

section
variable {n : Nat} (hhere : s.bar2Here p off n = true)
include hhere

theorem exec_bar2Read_of_shut (h : s.bar2Shut p tb) : exec (.bar2Read p off n tb) s = .next (s.emit (.completerAbort p)) :=
  congrArg Host.Outcome.next ((if_neg (by simp [hhere])).trans (if_pos (State.bar2Aborts_of_shut h off n)))

variable (hgoes : s.bar2Aborts p off n tb = false)
include hgoes

theorem exec_bar2Read_of_waits (hwait : s.someWaits (s.vaultAccesses 1 off n false [] (some p)) = true) :
    exec (.bar2Read p off n tb) s = .next (s.offerBar2 (s.vaultAccesses 1 off n false [] (some p))) :=
  congrArg Host.Outcome.next ((if_neg (by simp [hhere])).trans ((if_neg (by simp [hgoes])).trans (if_pos hwait)))

variable (hfree : s.someWaits (s.vaultAccesses 1 off n false [] (some p)) = false) {bs : List Byte} {io : Io}
  (hread : s.readDev {} off n (n / 128 + 2) = (bs, io))
include hfree hread

theorem exec_bar2Read_of_read (hstop : io.stop = none) : exec (.bar2Read p off n tb) s = .next (io.s.emit (.bar2Data p bs)) := by
  change execBar2Read p off n tb s = _
  rw [execBar2Read, if_neg (by simp [hhere]), if_neg (by simp [hgoes]), if_neg (by simp [hfree]), lineFuel, hread]
  dsimp only
  rw [hstop]

theorem exec_bar2Read_of_poison {e : Ending} (hstop : io.stop = some e) (he : e.status = .memoryUncorrectable) :
    exec (.bar2Read p off n tb) s = .next (io.s.emit (.bar2Poisoned p)) := by
  change execBar2Read p off n tb s = _
  rw [execBar2Read, if_neg (by simp [hhere]), if_neg (by simp [hgoes]), if_neg (by simp [hfree]), lineFuel, hread]
  dsimp only
  rw [hstop]
  exact congrArg Host.Outcome.next (if_pos he)

end

section
variable {d : List Byte} (hhere : s.bar2Here p off d.length = true)
include hhere

theorem exec_bar2Write_of_shut (h : s.bar2Shut p tb) : exec (.bar2Write p off d tb) s = .next (s.emit (.completerAbort p)) :=
  congrArg Host.Outcome.next ((if_neg (by simp [hhere])).trans (if_pos (State.bar2Shut_iff.mp h)))

theorem exec_bar2Write_of_notOwner (h : ¬ s.bar2Shut p tb) (hown : s.owns p = false) :
    exec (.bar2Write p off d tb) s = .next (s.deny p) :=
  congrArg Host.Outcome.next ((if_neg (by simp [hhere])).trans
    ((if_neg (mt State.bar2Shut_iff.mpr h)).trans (if_pos (by simp [hown]))))

variable (hown : s.owns p = true) (hgoes : s.bar2Aborts p off d.length tb = false)
include hown hgoes

theorem exec_bar2Write_of_waits (hwait : s.someWaits (s.vaultAccesses 1 off d.length true d (some p)) = true) :
    exec (.bar2Write p off d tb) s = .next (s.offerBar2 (s.vaultAccesses 1 off d.length true d (some p))) :=
  congrArg Host.Outcome.next ((if_neg (by simp [hhere])).trans ((if_neg (mt State.bar2Shut_iff.mpr (State.bar2Shut_of_aborts hgoes))).trans
    ((if_neg (by simp [hown])).trans ((if_neg (by simp [hgoes])).trans (if_pos hwait)))))

theorem exec_bar2Write_of_written (hfree : s.someWaits (s.vaultAccesses 1 off d.length true d (some p)) = false) {io : Io}
    (hwrite : s.writeDev {} off d (d.length / 128 + 2) = io) (hstop : io.stop = none) :
    exec (.bar2Write p off d tb) s = .next io.s := by
  change execBar2Write p off d tb s = _
  rw [execBar2Write, if_neg (by simp [hhere]), if_neg (mt State.bar2Shut_iff.mpr (State.bar2Shut_of_aborts hgoes)),
    if_neg (by simp [hown]), if_neg (by simp [hgoes]), if_neg (by simp [hfree]), lineFuel, hwrite]
  dsimp only
  rw [hstop]

end

end

/-! ## The far tier -/

section
variable {s : State}

section
variable {off n : Nat} (hn : 0 < n) (hin : off + n ≤ s.geo.farTierMib * 2 ^ 20)
include hn hin

theorem State.farHas_of_within : s.farHas off n = true := by
  rw [farHas, decide_eq_true hn, decide_eq_true hin, Bool.and_self]

variable {bs : List Byte} {io : Io} (hread : s.farRead off n = (bs, io))
include hread

theorem exec_farTierRead_of_read (hstop : io.stop = none) : exec (.farTierRead off n) s = .next (io.s.emit (.farTierData bs)) := by
  change execFarTierRead off n s = _
  rw [execFarTierRead, if_pos (State.farHas_of_within hn hin), hread]
  dsimp only
  rw [hstop]

theorem exec_farTierRead_of_stopped {e : Ending} (hstop : io.stop = some e) :
    exec (.farTierRead off n) s = .next (io.s.emit (.accessEnds e.status (farBase + off))) := by
  change execFarTierRead off n s = _
  rw [execFarTierRead, if_pos (State.farHas_of_within hn hin), hread]
  dsimp only
  rw [hstop]

end

section
variable {off : Nat} {d : List Byte} (hn : 0 < d.length) (hin : off + d.length ≤ s.geo.farTierMib * 2 ^ 20) {io : Io}
  (hwrite : s.farWrite off d (4096, 0) (d.length / 256 + 2) = io)
include hn hin hwrite

theorem exec_farTierWrite_of_written (hstop : io.stop = none) : exec (.farTierWrite off d) s = .next io.s := by
  change execFarTierWrite off d s = _
  rw [execFarTierWrite, if_pos (State.farHas_of_within hn hin), hwrite]
  dsimp only
  rw [hstop]

theorem exec_farTierWrite_of_stopped {e : Ending} (hstop : io.stop = some e) :
    exec (.farTierWrite off d) s = .next (io.s.emit (.accessEnds e.status (farBase + off))) := by
  change execFarTierWrite off d s = _
  rw [execFarTierWrite, if_pos (State.farHas_of_within hn hin), hwrite]
  dsimp only
  rw [hstop]

end

theorem exec_farTierInitComplete_of_under {b : Nat} {t : Nat × Nat} (hup : s.far.linkUp = true) (hb : (b, t) ∈ s.far.initialising) :
    exec (.farTierInitComplete b) s = .next (State.settleXfers (s.setFar (fun f =>
      { f with initialising := f.initialising.filter (fun e => e.1 ≠ b), written := insertNat f.written b }))) := by
  have hany : s.far.initialising.any (fun e => decide (e.1 = b)) = true :=
    List.any_eq_true.mpr ⟨(b, t), hb, decide_eq_true rfl⟩
  exact congrArg Host.Outcome.next (if_pos (by rw [hup, hany, Bool.and_self]))

/-- The transfers that waited for an acknowledgement of the far tier end with its link. -/
def State.farEnds (s : State) : State :=
  (s.links.xfers.filter (fun x => s.xferInit x)).foldl (fun (t : State) x => t.endXfer x { status := .linkDown, detail := 0x1F })
    s.farWorkLost

theorem State.farEnds_far : s.farEnds.far = s.far :=
  ((Only.foldl (L := [.ics, .commands, .mem, .links, .events, .trust]) _
    (fun (t : State) x => endXfer_only t x { status := .linkDown, detail := 0x1F }) .refl).same .far (by decide)).trans
      (s.farWorkLost_only.same .far (by decide))

theorem exec_farTierLinkLoss_of_up (hup : s.far.linkUp = true) : exec .farTierLinkLoss s
    = .next (State.postArgs (s.farEnds.setFar (fun f => { f.dropInit with linkUp := false, perstLow := true })) 0x0305 0 2 3 0 0) :=
  congrArg Host.Outcome.next (if_pos hup)

theorem exec_farTierRetrain_of_attached (hrole : s.geo.heFarTier = true) (hsize : 0 < s.geo.farTierMib) (hdown : s.far.linkUp = false)
    (hkept : s.thermal.dropped = false) :
    exec .farTierRetrain s = .next (s.setFar (fun f => { f with linkUp := true, perstLow := false })) := by
  change execFarTierRetrain s = _
  rw [execFarTierRetrain, if_pos (by simp [hrole, hsize, hdown, hkept])]

end

/-- Settles O51: links, resets and TDI errors of a host port, then BAR2 by what stands in an access's way, then the far tier. -/
theorem hostPorts : Obligations.HostPorts := by
  refine ⟨fun s p => exec_hostLinkTrain_of_lantern, fun s u p k hr hu => ?_,
    fun s p k hr => ⟨_, exec_hostPortReset_of_host s p k hr⟩,
    fun s p hr hh => ⟨exec_tdiError_of_held s p hr ?_, ?_, ?_, s.tdiFails_records p⟩,
    fun s p => exec_tdiError_of_free s p,
    fun s p off n tb bs io hh hg hf hread => ⟨exec_bar2Read_of_read hh hg hf hread, fun e => exec_bar2Read_of_poison hh hg hf hread⟩,
    ?_, ?_, fun s p off d tb io hh ho hg hf hw hs => exec_bar2Write_of_written hh ho hg hf hw hs, ?_, ?_,
    fun s off n bs io hn hin hread => ⟨exec_farTierRead_of_read hn hin hread, fun e => exec_farTierRead_of_stopped hn hin hread⟩,
    fun s off d io hn hin hw => ⟨exec_farTierWrite_of_written hn hin hw, fun e => exec_farTierWrite_of_stopped hn hin hw⟩,
    fun s b t => exec_farTierInitComplete_of_under, fun s hup => ⟨_, exec_farTierLinkLoss_of_up hup, rfl, rfl, rfl, ?_⟩,
    fun s => exec_farTierRetrain_of_attached⟩
  · rw [hostPortReset_port s p k hr hu]
    refine ⟨rfl, rfl, rfl, rfl, rfl, rfl, rfl, rfl, rfl, rfl,
      HostPort.cleared_tdi _ (decide (k = .functionLevel) && (s.port p).linkUp), fun hheld => ?_, fun hk => ?_⟩
    · exact if_pos (s.portFailed_tdi p hheld)
    · exact Bool.or_eq_true_iff.mpr (.inr (decide_eq_true hk))
  · rcases hh with h | h <;> rw [HostPort.tdiHeld, h] <;> rfl
  · rw [State.tdiFails_port]
  · rw [State.tdiFails_port]
  · rintro s p off n tb l hh hg rfl hw
    exact exec_bar2Read_of_waits hh hg hw
  · rintro s p off n tb hh hshut
    refine ⟨exec_bar2Read_of_shut hh hshut, ?_⟩
    rintro d rfl
    exact exec_bar2Write_of_shut hh hshut
  · rintro s p off d tb l hh ho hg rfl hw
    exact exec_bar2Write_of_waits hh ho hg hw
  · intro s p off d tb hh htdi hready hown
    refine exec_bar2Write_of_notOwner hh ?_ hown
    rcases htdi with h | ⟨h, htb⟩
    · simp [State.bar2Shut, hready, h]
    · simp [State.bar2Shut, hready, h, htb]
  · change s.farEnds.far.written = s.far.written
    rw [State.farEnds_far]

end Sys2Proof.Machine
end
